-- ==== Sys2Proof/Word.lean ====
section
/-!
DEFINITION. The word types of the A16 model and their plainest arithmetic.
-/
set_option Elab.async false
namespace Sys2Proof

/-- One byte of a structure in host memory, of a record, of an image or of a frame. -/
abbrev Byte := BitVec 8

/-- A byte string, lowest address first (R3). -/
abbrev Bytes := List Byte

/-- A 32-bit register value (R477). -/
abbrev Reg := BitVec 32

/-- An instant or a span in units of 2⁻³² s (the unit of the time word, R8), exact and never wrapping. -/
abbrev Tick := Nat

/-- A sparse table: key and value pairs, keys strictly rising. An unlisted key holds what the reader of the table says. -/
abbrev Tab (α : Type) := List (Nat × α)

end Sys2Proof
end

