-- ==== Sys2Proof/Syntax.lean ====
section
/-!
DEFINITION. The commands of the A16 block: one constructor per row of spec/opcode_table.json, with the operands of the row.
Every command carries `t`, the instant at which it happens, in units of 2⁻³² s counted from the last release of PORST_N
(log entry 1). What the device reads from outside with the command (host memory, a frame, a pin, a sensor, a measurement)
is an operand of it.
-/
namespace Sys2Proof

/-- A command descriptor (Table 15-4) with the command ring index it was fetched from. `params` are bytes 32 to 63. -/
structure Desc where
  opcode : BitVec 16
  flags : BitVec 16
  tag : BitVec 32
  addr : BitVec 64
  len : BitVec 32
  reserved : BitVec 32
  resAddr : BitVec 64
  params : Bytes
  index : BitVec 32
  deriving DecidableEq, Repr

/-- What a failed DMA read or read-back met, in the coding of R403. -/
inductive DmaCause where
  | unsupported
  | abort
  | timeout
  | poisoned
  | mismatch
  deriving DecidableEq, Repr

/-- Where records leave the device (R392): a product ring or a product or map quad. -/
inductive Outlet where
  | ring (r : Fin 64)
  | quad (q : Fin 16)
  deriving DecidableEq, Repr

/-- What the ECC of R362 found in one 32-byte word that a command reads; `word` is the index of the word within what is
read. -/
structure Ecc where
  word : Nat
  corrected : Bool
  deriving DecidableEq, Repr

/-- What the host has set in configuration space (Table 15-1): Bus Master Enable, and the codes of the largest payload and read request, 128 B
doubled so many times. -/
structure PciSettings where
  busMaster : Bool
  maxPayload : Fin 3
  maxRead : Fin 6
  deriving DecidableEq, Repr

/-- A PCIe link as it trains: its width in lanes, and what the host has set. -/
structure PciLink where
  width : BitVec 5
  cfg : PciSettings
  deriving DecidableEq, Repr

/-- The three cases of R371. -/
inductive LinkLoss where
  | perst
  | linkDown
  | busMasterCleared
  deriving DecidableEq, Repr

/-- The latched ro pairs of R482. -/
inductive LatchedPair where
  | serial
  | offset
  | chFail
  deriving DecidableEq, Repr

/-- Register access widths (R477). -/
inductive AccessWidth where
  | w8
  | w16
  | w32
  | w64
  deriving DecidableEq, Repr

/-- The masters of the control crossbar (16_management.md). -/
inductive Master where
  | core (n : Fin 4)
  | hostBridge
  | fetcher
  | debug
  deriving DecidableEq, Repr

/-- A master, and the address it puts on the crossbar (Tables 16-2, 16-3). -/
structure BusAddress where
  master : Master
  addr : BitVec 32
  deriving DecidableEq, Repr

/-- The targets of Table 16-2. -/
inductive XTarget where
  | bootMap
  | scribeSram
  | bootRom
  | banks
  | mailboxes
  | keyStore
  | hbmWindow
  deriving DecidableEq, Repr

/-- What a firmware image read brought back (R469): the source did not answer, or the bytes of header and body. -/
inductive ImageRead where
  | noAnswer
  | bytes (image : Bytes)
  deriving DecidableEq, Repr

/-- A frame as its blocks arrived (Table 13-1, R307): the SOF's bytes 1 to 7, the data area, the EOF's CRC, and whether a
physical damage of R311 (a block count other than n, an early SOF, an invalid header, a loss of alignment) was seen. -/
structure RawFrame where
  profile : Byte
  kind : Byte
  rsv3 : Byte
  n : BitVec 16
  rsv6 : BitVec 16
  data : Bytes
  crc : BitVec 32
  damaged : Bool
  /-- a mesh frame that its receiver finds damaged in its buffer once it has acknowledged it (R334, cause 1; log 115) -/
  spoilt : Bool
  deriving DecidableEq, Repr

/-- Why a reference is inactive (R263), coded as the cause of ref-disqualified (Table 11-4). -/
inductive InactiveCause where
  | noEdge
  | outOfLock
  | noFrame
  | code15
  deriving DecidableEq, Repr

/-- One lane's alignment marker (Table 12-2) of a marker set: the lane it arrived on, its payload, its arrival in block times after the
first marker of the set, and whether the lane sees spread (R303). -/
structure MarkerSeen where
  lane : Fin 4
  payload : BitVec 64
  skew : Nat
  spread : Bool
  deriving DecidableEq, Repr

/-- Bits that arrive on a lane, first to last. -/
structure LaneBits where
  lane : Fin 64
  bits : List Bool
  deriving DecidableEq, Repr

/-- What the criterion of R270 looks at: the instant, the frequency error (ppb) and the phase error against reference time less O (ns). -/
structure LockCheck where
  at_ : Tick
  freqErr : Int
  phaseErr : Int
  deriving DecidableEq, Repr

/-- What a paired burst is (R355, R400). -/
inductive PairKind where
  | inkwellUpdate (tile : Nat)
  | splitWrite
  /-- of a write burst into host memory at this address -/
  | hostSplit (addr : BitVec 64)
  deriving DecidableEq, Repr

/-- One half of a paired burst as it reaches the controller. -/
structure PairHalf where
  tag : BitVec 16
  kind : PairKind
  second : Bool
  escape : Bool
  stack : Fin 4
  payload : Bytes
  deriving DecidableEq, Repr

/-- The reset pins of R464 that R501 names. -/
inductive ResetPin where
  | porst
  | sysrst
  deriving DecidableEq, Repr

/-- The supplies of R463 and R501 whose range the model follows. -/
inductive Rail where
  | vio
  | vcore
  deriving DecidableEq, Repr

/-- The commands. -/
inductive Instr where
  /-- NOP (R381): The nop command does nothing and completes immediately with OK. -/
  | nop (t : Tick) (d : Desc) (data : Bytes)
  /-- COUNTER_READ_OUT (R513): The counter read-out command writes the named counter table to host memory and completes immediately. -/
  | counterReadOut (t : Tick) (d : Desc) (data : Bytes)
  /-- PRESET_READ_OUT (R56): The preset read-out command writes a boot ROM coefficient or table set to host memory. -/
  | presetReadOut (t : Tick) (d : Desc) (data : Bytes)
  /-- CLEAR_UNTRUSTED (R376): The clear-untrusted command clears the named untrusted cause bits 1 to 3. -/
  | clearUntrusted (t : Tick) (d : Desc) (data : Bytes)
  /-- ELEMENT_TABLE_CHANGE (R39): The element table change command checks the entries and schedules them for their activation sample index. -/
  | elementTableChange (t : Tick) (d : Desc) (data : Bytes)
  /-- GROUP_DESCRIPTOR (R39): The group descriptor command checks a 64-byte descriptor and schedules it for its activation point. -/
  | groupDescriptor (t : Tick) (d : Desc) (data : Bytes)
  /-- GROUP_START (R510): The group start command starts an element group at its sample-index origin t_org. -/
  | groupStart (t : Tick) (d : Desc) (data : Bytes)
  /-- GROUP_STOP (R510): The group stop command stops a started group at a sample index. -/
  | groupStop (t : Tick) (d : Desc) (data : Bytes)
  /-- PROTOTYPE_LOAD (R74): An image load of kind 0 checks and stores a channeliser prototype image. -/
  | prototypeLoad (t : Tick) (d : Desc) (data : Bytes)
  /-- GAIN_TABLE_LOAD (R75): An image load of kind 1 checks and stores a gain table image. -/
  | gainTableLoad (t : Tick) (d : Desc) (data : Bytes)
  /-- PLAN_LOAD (R84): An image load of kind 2 checks and stores a channel plan version for its activate frame. -/
  | planLoad (t : Tick) (d : Desc) (data : Bytes)
  /-- SCHEDULE_LOAD (R108): An image load of kind 3 checks a schedule image against its capacity limits and schedules its pools. -/
  | scheduleLoad (t : Tick) (d : Desc) (data : Bytes)
  /-- BEAM_SET_LOAD (R152): An image load of kind 4 checks a beam set, computes its spread and writes a result block. -/
  | beamSetLoad (t : Tick) (d : Desc) (data : Bytes)
  /-- TAPER_TABLE_LOAD (R152): An image load of kind 5 stores a taper table for apodisation. -/
  | taperTableLoad (t : Tick) (d : Desc) (data : Bytes)
  /-- WEIGHT_TABLE_LOAD (R153): An image load of kind 6 stores an explicit beam weight table. -/
  | weightTableLoad (t : Tick) (d : Desc) (data : Bytes)
  /-- GLINT_BEAM_SET_LOAD (R171): An image load of kind 7 checks and stores a glint beam set. -/
  | glintBeamSetLoad (t : Tick) (d : Desc) (data : Bytes)
  /-- WAVEFORM_TABLE_LOAD (R153): An image load of kind 8 stores a waveform table in the transmit tables reservation. -/
  | waveformTableLoad (t : Tick) (d : Desc) (data : Bytes)
  /-- TRANSMIT_PROGRAM_LOAD (R208): An image load of kind 9 checks and stores a transmit program. -/
  | transmitProgramLoad (t : Tick) (d : Desc) (data : Bytes)
  /-- DRIVE_MAP_LOAD (R198): An image load of kind 10 checks and stores the drive map. -/
  | driveMapLoad (t : Tick) (d : Desc) (data : Bytes)
  /-- DRIVE_GROUP_LOAD (R199): An image load of kind 11 checks and stores a drive group descriptor. -/
  | driveGroupLoad (t : Tick) (d : Desc) (data : Bytes)
  /-- ROUTING_SET_LOAD (R240): An image load of kind 12 places a routing set in the idle slot. -/
  | routingSetLoad (t : Tick) (d : Desc) (data : Bytes)
  /-- SCENE_LOAD (R244): An image load of kind 13 checks a Lightbox scene, applies any line-buffer fallback and writes a result block. -/
  | sceneLoad (t : Tick) (d : Desc) (data : Bytes)
  /-- LIGHTBOX_TABLE_LOAD (R246): An image load of kind 14 stores a palette, LUT, coefficient set or marker table. -/
  | lightboxTableLoad (t : Tick) (d : Desc) (data : Bytes)
  /-- IMAGE_UNLOAD (R383): The image unload command removes an image that nothing names, or stops the pools of a schedule. -/
  | imageUnload (t : Tick) (d : Desc) (data : Bytes)
  /-- PRODUCT_BINDING (R391): The product binding command binds, rebinds or unbinds a product source to a ring and quad. -/
  | productBinding (t : Tick) (d : Desc) (data : Bytes)
  /-- SHED (R116): The host shed command sheds every shed-list entry that carries the product id. -/
  | shed (t : Tick) (d : Desc) (data : Bytes)
  /-- RESTORE (R119): The restore command restores shed entries of a product at the next integration boundary. -/
  | restore (t : Tick) (d : Desc) (data : Bytes)
  /-- BEAM_SET_SWITCH (R155): The beam set switch command switches a B pool to another beam set from a stroke index. -/
  | beamSetSwitch (t : Tick) (d : Desc) (data : Bytes)
  /-- GLINT_CONFIGURE (R168): The glint configure command closes open events, loads the set-up block and resets every detector. -/
  | glintConfigure (t : Tick) (d : Desc) (data : Bytes)
  /-- GLINT_DETECTOR (R177): The glint detector command loads a beam's detector parameters from an output index. -/
  | glintDetector (t : Tick) (d : Desc) (data : Bytes)
  /-- GLINT_ARM (R194): The glint arm command loads the glint response entries. -/
  | glintArm (t : Tick) (d : Desc) (data : Bytes)
  /-- GLINT_SET_SWITCH (R174): The glint set switch command switches to a loaded glint beam set from an output index. -/
  | glintSetSwitch (t : Tick) (d : Desc) (data : Bytes)
  /-- GLINT_PIN_CLEAR (R188): The glint pin-clear command lowers latched GLINT pins when no mapped event is open. -/
  | glintPinClear (t : Tick) (d : Desc) (data : Bytes)
  /-- DRIVE_GROUP_START (R200): The drive group start command starts a drive group at its activation instant t_g0. -/
  | driveGroupStart (t : Tick) (d : Desc) (data : Bytes)
  /-- TRANSMIT_START (R209): The transmit start command queues a program start, or completes it at once with QUEUE_FULL. -/
  | transmitStart (t : Tick) (d : Desc) (data : Bytes)
  /-- TRANSMIT_STOP (R214): The transmit stop command ramps a running program to zero, or removes a queued one. -/
  | transmitStop (t : Tick) (d : Desc) (data : Bytes)
  /-- ECHO_CALIBRATION (R215): The echo calibration command checks its fields and queues a calibration as a start-when-ready start. -/
  | echoCalibration (t : Tick) (d : Desc) (data : Bytes)
  /-- LOAD_WATCH_CLEAR (R224): The load-watch clear command unmutes a channel and ramps its output up. -/
  | loadWatchClear (t : Tick) (d : Desc) (data : Bytes)
  /-- AUDIO_CONFIGURE (R227): The audio configure command resets the audio block and loads its sources and sinks. -/
  | audioConfigure (t : Tick) (d : Desc) (data : Bytes)
  /-- ROUTING_SWAP (R240): The routing swap command schedules the idle routing set to become active at audio index a_w. -/
  | routingSwap (t : Tick) (d : Desc) (data : Bytes)
  /-- SURFACE_WRITE (R248): The surface write command reads a whole surface from host memory into a layer's back buffer. -/
  | surfaceWrite (t : Tick) (d : Desc) (data : Bytes)
  /-- MONITOR_SNAPSHOT (R426): The monitor snapshot command ends a monitor window and forms its snapshot record. -/
  | monitorSnapshot (t : Tick) (d : Desc) (data : Bytes)
  /-- ENGINE_FENCE (R422): The engine fence command fences an engine with cause host and completes at its release or failure. -/
  | engineFence (t : Tick) (d : Desc) (data : Bytes)
  /-- TWIN_HANDOVER (R456): Twin role command op 0 makes the lit member hand the lit role to an in-step partner. -/
  | twinHandover (t : Tick) (d : Desc) (data : Bytes)
  /-- TWIN_CLAIM (R437): Twin role command op 1 makes a shadow claim the lit role by force. -/
  | twinClaim (t : Tick) (d : Desc) (data : Bytes)
  /-- TWIN_MAP (R434): The twin map command loads the pair-to-node map used for corner-turn sends. -/
  | twinMap (t : Tick) (d : Desc) (data : Bytes)
  /-- DOORBELL_POLL (R373): At each poll interval the A16 reads the doorbell block and acts on the new indices. -/
  | doorbellPoll (t : Tick) (block : Bytes)
  /-- DESCRIPTOR_FETCHED (R380): A descriptor read completes, cmd_cons advances and the command executes in ring order. -/
  | descriptorFetched (t : Tick) (bytes : Bytes) (data : Bytes)
  /-- COMMAND_READ_FAILED (R403): A descriptor or command data read fails after its retries and the command completes with DMA_ERROR. -/
  | commandReadFailed (t : Tick) (bytes : Option Bytes) (cause : DmaCause)
  /-- DEFERRED_COMPLETION (R381): The work of a deferred command ends and its completion is written. -/
  | deferredCompletion (t : Tick) (index : BitVec 32)
  /-- WRITE_JOB_READBACK (R401): The read-back of the last 4 bytes of a write job completes and confirms or fails the job. -/
  | writeJobReadback (t : Tick) (job : Nat) (result : Option DmaCause)
  /-- STATUS_BLOCK_REFRESH (R374): When 10 ms pass without a rewrite, the A16 rewrites the status block. -/
  | statusBlockRefresh (t : Tick)
  /-- EVENT_QUEUE_DRAIN (R386): When the event ring has room again, queued events and an events-lost event are written. -/
  | eventQueueDrain (t : Tick)
  /-- OUTLET_TAKE_RECORD (R392): An outlet with room and credit takes its next record from product staging and writes its header and body. -/
  | outletTakeRecord (t : Tick) (o : Outlet) (ecc : List Ecc)
  /-- TRAILER_WRITE (R388): Once the agreement code is final, the trailer is written, read back and prod_prod advanced. -/
  | trailerWrite (t : Tick) (o : Outlet)
  /-- SOURCE_RING_READ (R396): A source ring read completes, making its samples present, or fails and leaves them absent. -/
  | sourceRingRead (t : Tick) (ring : Fin 32) (bytes : Option Bytes)
  /-- MSIX_TIMER_EXPIRY (R404): TIME µs after the first unsignalled item became visible, the MSI-X vector fires. -/
  | msixTimerExpiry (t : Tick) (v : Fin 64)
  /-- HOST_LINK_LOSS (R371): PERST_N, link down or Bus Master Enable cleared abandons DMA and stops polling. -/
  | hostLinkLoss (t : Tick) (cause : LinkLoss)
  /-- PCIE_LINK_TRAINED (R369): The PCIe link trains; below 8 GT/s SLOW is set and no DMA is done. -/
  | pcieLinkTrained (t : Tick) (gen : Fin 6) (link : PciLink)
  /-- HOSTIF_ENABLE (R371): Writing HOSTIF.CTL.EN starts or resumes polling, re-sending abandoned records and owed completions. -/
  | hostifEnable (t : Tick) (value : Reg)
  /-- HOST_BOOT_GO (R470): Writing ID_BOOT.HOST_CTL.GO makes the boot ROM read the firmware image from host memory. -/
  | hostBootGo (t : Tick) (value : Reg)
  /-- TIME_SET_ARM (R278): Setting TIMEBASE.TSET_CTL.ARM arms a time set, or loads it at once with no time-bearing reference. -/
  | timeSetArm (t : Tick) (value : Reg)
  /-- REF_SUSPECT_CLEAR (R269): Writing REF_CFGn.CLR clears the suspect mark of a reference. -/
  | refSuspectClear (t : Tick) (n : Fin 4) (value : Reg)
  /-- SCLK_CFG_WRITE (R277): A write to SCLK_CFGk changes an output rate and gates the output, or is ignored while a group is active. -/
  | sclkCfgWrite (t : Tick) (k : Fin 2) (value : Reg)
  /-- LANE_RESTART (R295): Writing LANE_EQ.RESTART starts a retrain of the lane. -/
  | laneRestart (t : Tick) (lane : Fin 64) (value : Reg)
  /-- ERR_INJ (R296): Writing LANE_TEST.ERR_INJ inverts one bit of the pattern generator's output. -/
  | errInj (t : Tick) (lane : Fin 64) (value : Reg)
  /-- LANE_CNT_CLR (R299): Writing LANE.CNT_CLR.ALL clears the lane's four counters. -/
  | laneCntClr (t : Tick) (lane : Fin 64) (value : Reg)
  /-- LINK_CLR (R342): Writing LINK_CLR.ALL clears the quad's five link counters. -/
  | linkClr (t : Tick) (q : Fin 16) (value : Reg)
  /-- QUAD_ENABLE (R285): A QUAD_CFG write that sets EN enables the quad with its role, rate, width and test loop. -/
  | quadEnable (t : Tick) (q : Fin 16) (value : Reg)
  /-- QUAD_DISABLE (R285): A QUAD_CFG write that clears EN takes the quad down at once and stores its other fields. -/
  | quadDisable (t : Tick) (q : Fin 16) (value : Reg)
  /-- HBM_APPLY (R346): Writing HBM.CTL.APPLY applies the RSV_A and RSV_B layout, or is ignored with LAYOUT_ERR. -/
  | hbmApply (t : Tick) (value : Reg)
  /-- HBM_CNT_CLR (R367): Writing HBM.CTL.CNT_CLR clears every HBM counter. -/
  | hbmCntClr (t : Tick) (value : Reg)
  /-- GDLY_SEL_WRITE (R67): Writing MONITOR.GDLY_SEL latches the group-delay read-back of the selected element. -/
  | gdlySelWrite (t : Tick) (value : Reg)
  /-- WINDOW_START (R426): Setting WIN_CFG.EN starts a monitor window. -/
  | windowStart (t : Tick) (n : Fin 16) (value : Reg)
  /-- WINDOW_STOP (R426): Clearing WIN_CFG.EN ends a monitor window with a final snapshot. -/
  | windowStop (t : Tick) (n : Fin 16) (value : Reg)
  /-- TWIN_CTL_WRITE (R430): A TWIN.CTL write enables or disables the pair, sets its member and pair id, or changes AUTO. -/
  | twinCtlWrite (t : Tick) (value : Reg)
  /-- DBG_LOCK (R473): Writing SECURITY.CTL.DBG_LOCK locks the debug port until PORST_N. -/
  | dbgLock (t : Tick) (value : Reg)
  /-- DBG_FUSE (R473): Writing SECURITY.CTL.DBG_FUSE locks the debug port permanently. -/
  | dbgFuse (t : Tick) (value : Reg)
  /-- SVN_COMMIT (R472): Writing SECURITY.CTL.SVN_COMMIT raises SVN_MIN to the running image's svn. -/
  | svnCommit (t : Tick) (value : Reg)
  /-- REVOKE (R472): Writing a SECURITY.CTL.REVOKE bit revokes a key slot permanently. -/
  | revoke (t : Tick) (value : Reg)
  /-- LATCHED_LO_READ (R482): A read of the LO register of a latched ro pair latches its HI register. -/
  | latchedLoRead (t : Tick) (pair : LatchedPair)
  /-- BAD_REGISTER_READ (R477): A misaligned read or a read of a reserved bank returns 0 and sets ACC_STAT flags. -/
  | badRegisterRead (t : Tick) (at_ : BusAddress) (width : AccessWidth)
  /-- REGISTER_WRITE (R486): A write to a register with no row of its own stores fields subject to access, reserved-code and interlock checks. -/
  | registerWrite (t : Tick) (m : Master) (addr : BitVec 32) (width : AccessWidth) (value : BitVec 64)
  /-- CROSSBAR_LOCK (R411): A scribe core or the debug port opens a locked sequence on one crossbar target. -/
  | crossbarLock (t : Tick) (m : Master) (target : XTarget) (unlock : Bool)
  /-- CROSSBAR_LOCK_BROKEN (R411): A lock that reaches 32 transactions or 5 µs breaks and sets LOCK_BROKEN. -/
  | crossbarLockBroken (t : Tick) (target : XTarget)
  /-- PORST_RELEASE (R464): Release of PORST_N resets the device, starts HBM training and runs boot from the start. -/
  | porstRelease (t : Tick) (bootMode : BitVec 2)
  /-- SYSRST_RELEASE (R464): Release of SYSRST_N resets the device except the state Table 18-2 keeps, and reruns boot. -/
  | sysrstRelease (t : Tick) (bootMode : BitVec 2)
  /-- BOOT_SELF_CHECK_DONE (R466): The boot ROM self-check ends and configuration requests are answered. -/
  | bootSelfCheckDone (t : Tick)
  /-- FIRMWARE_IMAGE_READ (R469): A firmware image read from flash or host completes and its checks run. -/
  | firmwareImageRead (t : Tick) (image : ImageRead)
  /-- HBM_TRAINING_DONE (R475): HBM training and zero-fill end; a stack that failed has all channels failed. -/
  | hbmTrainingDone (t : Tick) (trained : BitVec 4)
  /-- FIRMWARE_READY (R474): Firmware finishes stewards, check jobs and HBM wait and sets READY. -/
  | firmwareReady (t : Tick) (failed : List (Fin 256))
  /-- THERMAL_SAMPLE (R418): Every 100 µs the stewards read the hottest sensor and the A16 acts on the thresholds. -/
  | thermalSample (t : Tick) (temps : Vector Int 17)
  /-- THERMAL_CEILING_STEP (R418): While alerted or after clearing, the thermal ceilings step down every 10 ms or up every 100 ms. -/
  | thermalCeilingStep (t : Tick)
  /-- POWER_CAP_CHECK (R416): Every 1 ms steward 16 compares device power with PCAP and lowers or raises a ceiling. -/
  | powerCapCheck (t : Tick) (deviceMw : Nat) (domainMw : Vector Nat 17)
  /-- STEWARD_HEARTBEAT_MISS (R407): When a steward misses three heartbeats, it is declared lost and its engines marked failed. -/
  | stewardHeartbeatMiss (t : Tick) (s : Fin 17)
  /-- SLACK_WINDOW_EVAL (R20): After 64 strokes, or a Missed stroke, the steward acts on the lowest slack band. -/
  | slackWindowEval (t : Tick) (d : Fin 16)
  /-- VOLTAGE_SETTLED (R413): A voltage step settles after 20 µs, allowing the next step. -/
  | voltageSettled (t : Tick) (d : Fin 16)
  /-- CEILING_LOWERING_STEP (R414): Every 20 µs while the voltage exceeds the effective ceiling, the steward lowers it one step. -/
  | ceilingLoweringStep (t : Tick) (d : Fin 16)
  /-- BLOCK_RELEASE (R42): An input block is released at its last sample or at its window deadline, gaps filled and listed. -/
  | blockRelease (t : Tick) (e : Fin 16384)
  /-- AFTERIMAGE_WRITE_TIMEOUT (R30): An afterimage write not placed within its latency target is dropped and recorded as a hole. -/
  | afterimageWriteTimeout (t : Tick) (e : Fin 16384) (block : Nat)
  /-- CONDITIONING_SLICE (R52): A conditioning engine takes the next released block and runs it through the chain. -/
  | conditioningSlice (t : Tick) (engine : Fin 32) (glintAccepts : Bool)
  /-- CHANNELISER_FRAME (R78): When a frame's inputs are present, the filterbank computes its kept channel samples. -/
  | channeliserFrame (t : Tick) (e : Fin 16384)
  /-- SOURCE_STATS_RECORD (R142): At the end of a span, a source statistics record of saturation counts is formed. -/
  | sourceStatsRecord (t : Tick) (plan : Fin 16)
  /-- CORNER_TURN_SEND (R91): At a batch's send instant, the source sends it over the mesh or drops the rest of the contribution. -/
  | cornerTurnSend (t : Tick) (plan : Fin 16) (pchan : Nat) (dest : BitVec 10) (room : Bool)
  /-- STROKE_RELEASE (R94): A stroke is released when all contributions are complete or at its deadline plus Wc. -/
  | strokeRelease (t : Tick) (plan : Fin 16) (pchan : Nat)
  /-- ENGINE_SLOT_START (R105): An engine starts its next slot once the previous slot completed and the stroke is released. -/
  | engineSlotStart (t : Tick) (engine : Fin 256) (ecc : List Ecc)
  /-- ENGINE_HANDOFF (R99): At the last frame of a stroke an engine hands off its sums with job, stroke and epoch. -/
  | engineHandoff (t : Tick) (engine : Fin 256) (carried : BitVec 32)
  /-- INKWELL_UPDATE (R125): The inkwell stage applies a hand-off to its inkwells once the segment token allows. -/
  | inkwellUpdate (t : Tick) (engine : Fin 256) (ecc : List Ecc)
  /-- SPILL_GRANT (R127): A spill entry request is granted in key order, or refused and the component blotted. -/
  | spillGrant (t : Tick)
  /-- SLOT_UNSERVED (R115): At its slot deadline, an engine-stroke of a failed engine is declared unserved. -/
  | slotUnserved (t : Tick) (engine : Fin 256)
  /-- SEGMENT_READOUT_DONE (R132): The readout of a segment completes, releasing its spill entries and moving the token to READ. -/
  | segmentReadoutDone (t : Tick) (pool : Nat) (firstJob : Nat) (bank : Nat) (ecc : List Ecc)
  /-- DUMP_RECORD (R135): A dump record for a segment and integration is emitted in deadline, pool and job order. -/
  | dumpRecord (t : Tick)
  /-- ENGINE_STALL_TIMEOUT (R421): A running slot without hand-off past its stall bound makes the steward fence the engine. -/
  | engineStallTimeout (t : Tick) (engine : Fin 256)
  /-- FENCE_CHECK_DONE (R422): The check job ends; the engine is released and re-run, or marked failed. -/
  | fenceCheckDone (t : Tick) (engine : Fin 256) (reloaded : Bool) (passed : Bool)
  /-- BEAM_OUTPUT (R158): The beam output stage sums the sections of a beam block and rounds the beam voltage. -/
  | beamOutput (t : Tick) (pool : Nat) (k : Nat) (block : Nat)
  /-- BEAM_RECORD (R165): Once every job of a stroke is done, its beam voltage and power records are emitted. -/
  | beamRecord (t : Tick) (pool : Nat)
  /-- INGEST_FRAME (R313): An ingest frame arrives and its samples are placed in the input rings. -/
  | ingestFrame (t : Tick) (q : Fin 16) (f : RawFrame)
  /-- SENSE_FRAME (R314): A sense frame arrives carrying voltage, current and flags per channel. -/
  | senseFrame (t : Tick) (q : Fin 16) (f : RawFrame)
  /-- LOAD_WATCH_EVAL (R222): A sense block is evaluated at its completion or its 2 ms deadline. -/
  | loadWatchEval (t : Tick) (e : Fin 16384)
  /-- DRIVE_FRAME_SEND (R315): A drive frame carrying drive samples and flags is sent ahead of its sample time. -/
  | driveFrameSend (t : Tick) (q : Fin 16) (group : Fin 16) (stream : BitVec 16) (chan0 : BitVec 16) (nch : Nat) (nsamp : Nat) (ecc : List Ecc)
  /-- TRANSMIT_START_DUE (R212): A pending start falls due and starts, is held, or completes LATE. -/
  | transmitStartDue (t : Tick)
  /-- HELD_START_READY (R212): A held start-when-ready start becomes startable and its program starts. -/
  | heldStartReady (t : Tick) (start : Nat)
  /-- PROGRAM_END (R214): A program ends when every beam's offset plus length has passed and completes DONE. -/
  | programEnd (t : Tick) (start : Nat)
  /-- ECHO_REPEAT (R217): At each repeat instant the probe is driven and receiver lags accumulated. -/
  | echoRepeat (t : Tick)
  /-- ECHO_RECORD (R219): The calibration completes, proposals are formed and the echo record written. -/
  | echoRecord (t : Tick)
  /-- GLINT_OUTPUT_DUE (R170): A conditioning output not present at its due instant enters the glint history as a gap. -/
  | glintOutputDue (t : Tick) (e : Fin 16384)
  /-- GLINT_BEAM_SAMPLE (R175): The glint path forms all beam samples of one output index and runs the detectors. -/
  | glintBeamSample (t : Tick)
  /-- PUBLISH_HOLD_EXPIRY (R181): Tp after declaration, an unconfirmed event becomes PROVISIONAL and is published. -/
  | publishHoldExpiry (t : Tick) (det : Fin 512)
  /-- VOID_TIMEOUT (R183): An event not reaching c_win samples within 4·c_win/fg ends DROPPED or RETRACTED. -/
  | voidTimeout (t : Tick) (det : Fin 512)
  /-- CAPTURE_COPY (R197): Once its last block is released, a capture is copied and its record written into staging. -/
  | captureCopy (t : Tick) (pin : Nat) (ecc : List Ecc)
  /-- MARKER_HOLD_EXPIRY (R191): marker_hold after ENDED or RETRACTED, the Lightbox marker is cleared. -/
  | markerHoldExpiry (t : Tick) (layer : BitVec 8) (m : BitVec 8)
  /-- BLANK_END (R193): blank µs after a triggered program ends, its detectors stop being blanked. -/
  | blankEnd (t : Tick) (entry : Fin 64)
  /-- AUDIO_INDEX (R228): At each audio execution instant the active routing script runs once. -/
  | audioIndex (t : Tick)
  /-- LIGHTBOX_FRAME_BOUNDARY (R254): At a frame boundary the newest updates become front buffers and the frame is composed unless it waits. -/
  | lightboxFrameBoundary (t : Tick) (ecc : List Ecc)
  /-- LIGHTBOX_WAIT_EXPIRY (R255): A WAIT layer's bound passes and the delayed frame starts with that layer repeated. -/
  | lightboxWaitExpiry (t : Tick) (ecc : List Ecc)
  /-- PPS_EDGE (R264): A PPS edge of reference A or B arrives and is tested for time validity. -/
  | ppsEdge (t : Tick) (r : Fin 2)
  /-- TIME_FRAME (R321): A time frame arrives and the two-way path delay and reference time are measured. -/
  | timeFrame (t : Tick) (q : Fin 16) (arrival : BitVec 64) (f : RawFrame)
  /-- TIME_FRAME_SEND (R320): Each millisecond a time frame is sent on each enabled time quad. -/
  | timeFrameSend (t : Tick) (q : Fin 16)
  /-- REF_INACTIVE (R263): A reference with no edge, no lock or no valid time frame in time becomes inactive and disqualified. -/
  | refInactive (t : Tick) (r : Fin 4) (cause : InactiveCause)
  /-- PPS_MISSING (R264): A PPS edge missing for 1.1 s makes the reference's time invalid. -/
  | ppsMissing (t : Tick) (r : Fin 2)
  /-- REF_QUALIFY_EVAL (R265): Each 100 ms mean offset updates a reference's qualification state. -/
  | refQualifyEval (t : Tick) (r : Fin 4) (offset : Int)
  /-- DRIFT_GUARD (R268): Once per second the selected reference's drift is evaluated against the XO and another reference. -/
  | driftGuard (t : Tick) (offsets : Vector Int 4)
  /-- LOCK_ACHIEVED (R270): The lock criterion holds for 10 s and the timebase enters LOCKED. -/
  | lockAchieved (c : LockCheck)
  /-- HISTORY_ENTRY (R271): Each second while LOCKED, one holdover history entry is written. -/
  | historyEntry (sec : Nat) (frac : BitVec 32)
  /-- WALK_STEP (R274): Each second of a walk, |O| falls by WALK_RATE until O reaches 0 and walk-end is posted. -/
  | walkStep (t : Tick)
  /-- SYNTH_LOCK_LOST (R277): A loss of synthesiser lock gates the output onto the fallback. -/
  | synthLockLost (t : Tick) (out : Fin 3)
  /-- GATE_OPEN (R277): After 10 ms within ±50 ppm and locked, the gated output moves back from the fallback. -/
  | gateOpen (t : Tick) (out : Fin 3)
  /-- PPSOUT_PULSE (R280): PPSOUT rises at each whole second of the time word and falls after 100 ms. -/
  | ppsoutPulse (t : Tick)
  /-- BLOCK_LOCK_ACQUIRED (R291): A lane's valid header count reaches 64 and it enters block lock. -/
  | blockLockAcquired (t : Tick) (lane : Fin 64) (bits : List Bool)
  /-- BLOCK_LOCK_LOST (R292): Sixteen invalid headers in a group take the lane out of block lock. -/
  | blockLockLost (t : Tick) (lane : Fin 64) (bits : List Bool)
  /-- ALIGNMENT_MARKER (R289): A set of alignment markers is checked and the quad gains or loses alignment. -/
  | alignmentMarker (t : Tick) (q : Fin 16) (markers : List MarkerSeen)
  /-- LANE_RETRAIN (R294): A lane out of block lock for 1 ms, or once a second when faulted, is retrained. -/
  | laneRetrain (t : Tick) (lane : Fin 64)
  /-- ADAPTATION_DONE (R294): Receive adaptation finishes and the lane hunts for block lock. -/
  | adaptationDone (t : Tick) (lane : Fin 64)
  /-- PRBS_LOCK_ACQUIRED (R297): After 1,024 matching bits the pattern checker declares lock. -/
  | prbsLockAcquired (t : Tick) (b : LaneBits)
  /-- PRBS_LOCK_LOST (R297): 128 mismatches in 1,024 bits drop pattern lock and the checker reloads. -/
  | prbsLockLost (t : Tick) (lane : Fin 64) (bits : List Bool)
  /-- BATCH_FRAME (R323): A mesh batch frame arrives and is accepted at the owner or forwarded. -/
  | batchFrame (t : Tick) (q : Fin 16) (f : RawFrame)
  /-- PLAN_DIGEST_FRAME (R86): A plan digest frame arrives; a mismatch makes owners via that peer unreachable. -/
  | planDigestFrame (t : Tick) (q : Fin 16) (f : RawFrame)
  /-- LINK_STATE_FRAME (R324): A link-state frame arrives and is stored and forwarded if newer. -/
  | linkStateFrame (t : Tick) (q : Fin 16) (f : RawFrame)
  /-- LINK_STATE_ORIGINATE (R324): Every 10 ms or at a port change the device originates a link-state frame. -/
  | linkStateOriginate (t : Tick)
  /-- FORWARD_TIMEOUT (R329): A frame not forwarded within 1 ms for lack of credit is discarded and counted. -/
  | forwardTimeout (t : Tick) (frame : Nat)
  /-- CREDIT_BLOCK (R328): A credit block arrives and updates the cumulative credit of its virtual channel. -/
  | creditBlock (t : Tick) (q : Fin 16) (block : BitVec 64)
  /-- CREDIT_GRANT_SEND (R328): At every change and at least every 10 µs the receiver sends its cumulative credit. -/
  | creditGrantSend (t : Tick) (q : Fin 16) (vc : Fin 2)
  /-- ACK_RECEIVED (R332): An ACK marks frames up to its sequence acknowledged. -/
  | ackReceived (t : Tick) (q : Fin 16) (block : BitVec 64)
  /-- NAK_RECEIVED (R332): A NAK acknowledges earlier frames and resends from its sequence. -/
  | nakReceived (t : Tick) (q : Fin 16) (block : BitVec 64)
  /-- RETRY_TIMEOUT (R332): With no acknowledgement advance for RTO, the sender resends from the oldest frame. -/
  | retryTimeout (t : Tick) (q : Fin 16)
  /-- LATE_NOTICE_RECEIVED (R335): A late notice makes the sender resend the frame or count and mark the owner unreachable. -/
  | lateNoticeReceived (t : Tick) (q : Fin 16) (block : BitVec 64)
  /-- SLEEP_REQUEST (R336): A transmit direction idle for TX_IDLE sends a sleep REQ. -/
  | sleepRequest (t : Tick) (q : Fin 16)
  /-- SLEEP_REQ_RECEIVED (R337): A REQ arrives and is answered with ACK or NAK within 2 µs. -/
  | sleepReqReceived (t : Tick) (q : Fin 16) (block : BitVec 64)
  /-- SLEEP_ACK_RECEIVED (R338): An ACK arrives and the requester sends COMMIT and enters DOZE, or ABORT. -/
  | sleepAckReceived (t : Tick) (q : Fin 16) (block : BitVec 64)
  /-- SLEEP_NAK_RECEIVED (R338): A NAK arrives and the requester waits another TX_IDLE. -/
  | sleepNakReceived (t : Tick) (q : Fin 16) (block : BitVec 64)
  /-- SLEEP_REQ_TIMEOUT (R338): No ACK or NAK within 250 µs of a REQ makes the requester send ABORT. -/
  | sleepReqTimeout (t : Tick) (q : Fin 16)
  /-- COMMIT_RECEIVED (R339): A COMMIT puts the receive direction into DOZE. -/
  | commitReceived (t : Tick) (q : Fin 16) (block : BitVec 64)
  /-- ABORT_RECEIVED (R339): An ABORT keeps the receive direction ACTIVE. -/
  | abortReceived (t : Tick) (q : Fin 16) (block : BitVec 64)
  /-- SIGNAL_LOST_AFTER_ACK (R339): Loss of signal detect within 250 µs after an ACK puts the receive direction in DOZE. -/
  | signalLostAfterAck (t : Tick) (q : Fin 16)
  /-- SLEEP_AFTER_EXPIRY (R338): After sleep-after ms in DOZE with grant 2, the direction enters SLEEP. -/
  | sleepAfterExpiry (t : Tick) (q : Fin 16) (transmit : Bool)
  /-- WAKE_RECEIVED (R340): A WAKE aborts a pending sleep or wakes a committed direction at once. -/
  | wakeReceived (t : Tick) (q : Fin 16) (block : BitVec 64)
  /-- TX_WAKE (R341): A direction leaving DOZE or SLEEP sends idle blocks and a marker set before other blocks. -/
  | txWake (t : Tick) (q : Fin 16)
  /-- SIGNAL_DETECT (R300): Signal detect on a sleeping receive direction wakes it. -/
  | signalDetect (t : Tick) (q : Fin 16)
  /-- HBM_REFRESH (R358): At each refresh interval a pseudo-channel refreshes its banks. -/
  | hbmRefresh (t : Tick) (pc : Fin 128)
  /-- HBM_TEMP_READ (R358): Every 1 ms a stack temperature is read and the refresh interval set. -/
  | hbmTempRead (t : Tick) (stack : Fin 4) (reading : Option Int)
  /-- HBM_ALERT (R360): A command/address parity alert makes the controller replay the held commands. -/
  | hbmAlert (t : Tick) (channel : Fin 64) (recurs : Bool)
  /-- SCRUB_STEP (R364): The scrubber reads and rewrites corrected words as a locked pair. -/
  | scrubStep (t : Tick) (word : Nat) (ecc : List Ecc)
  /-- PAIR_HALF_ARRIVAL (R355): A half of a paired burst arrives and the pair opens or is applied. -/
  | pairHalfArrival (t : Tick) (half : PairHalf)
  /-- PAIR_TIMEOUT (R355): 64 µs after its first half, an open pair is discarded. -/
  | pairTimeout (t : Tick) (tag : BitVec 16)
  /-- PAIR_QUERY (R357): A requester with no answer in 128 µs queries its tag and re-issues if discarded. -/
  | pairQuery (t : Tick) (tag : BitVec 16)
  /-- MONITOR_WINDOW_END (R426): After LEN ms a monitor window ends, a snapshot is formed and the window restarts. -/
  | monitorWindowEnd (t : Tick) (n : Fin 16)
  /-- TWIN_HEARTBEAT_SEND (R440): Every 100 µs each member sends a heartbeat. -/
  | twinHeartbeatSend (t : Tick)
  /-- TWIN_HEARTBEAT (R440): A heartbeat arrives and updates partner role, health, digest and skew. -/
  | twinHeartbeat (t : Tick) (f : RawFrame)
  /-- PARTNER_LOST (R440): Ten missing heartbeats declare the partner lost and post a partner event. -/
  | partnerLost (t : Tick)
  /-- TIME_SKEW (R441): Skew beyond 20 µs for 1 s posts a time-skew event. -/
  | timeSkew (t : Tick)
  /-- IN_STEP (R455): A digest equal to the lit member's for 100 ms brings the member into step. -/
  | inStep (t : Tick)
  /-- LIT_TIMER_EXPIRY (R435): A lit timer not refreshed in 500 µs drops TWIN_LIT_OUT. -/
  | litTimerExpiry (t : Tick)
  /-- TWIN_LIT_IN_CHANGE (R437): A change of TWIN_LIT_IN starts a claim wait or drops member 1's role on conflict. -/
  | twinLitInChange (t : Tick) (level : Bool)
  /-- TWIN_CLAIM_TIMER (R437): TWIN_LIT_IN low for 200 or 400 µs makes an in-step shadow claim the lit role. -/
  | twinClaimTimer (t : Tick)
  /-- TWIN_GATE_OPEN (R452): The incoming lit member's gate opens, ending the switch-over gap. -/
  | twinGateOpen (t : Tick)
  /-- PIN_MISMATCH (R439): A role pin mismatch lasting 1 ms sets PIN_ERR and posts a pin-mismatch event. -/
  | pinMismatch (t : Tick)
  /-- DIGEST_SEND (R445): At least every 100 µs pending digest entries are sent in a digest frame. -/
  | digestSend (t : Tick)
  /-- DIGEST_FRAME (R445): A digest frame arrives and its entries are compared with the member's own. -/
  | digestFrame (t : Tick) (f : RawFrame)
  /-- MIRROR_CHECK_LATE (R445): An entry with no counterpart within 2 s posts mirror-check-late or counts as a mismatch. -/
  | mirrorCheckLate (t : Tick) (cls : BitVec 8) (subject : BitVec 64)
  /-- ARBITRATION_OPEN (R449): An arbitration frame opens replay arbitration and the member recomputes the subject. -/
  | arbitrationOpen (t : Tick) (f : RawFrame)
  /-- RECOMPUTATION_DONE (R449): A member's recomputation finishes and it sends its RESULT frame. -/
  | recomputationDone (t : Tick)
  /-- ARBITRATION_RESULT (R450): A RESULT frame arrives and both outcomes decide the verdict. -/
  | arbitrationResult (t : Tick) (f : RawFrame)
  /-- ARBITRATION_TIMEOUT (R447): An arbitration with no verdict within 200 ms gives agree 3. -/
  | arbitrationTimeout (t : Tick)
  /-- EFFECT_FRAME (R442): An EFFECT frame makes the shadow apply a held host-timed command at the same effect point. -/
  | effectFrame (t : Tick) (f : RawFrame)
  /-- HOST_TIMED_EFFECT (R442): A host-timed command takes effect at its effect point after T. -/
  | hostTimedEffect (t : Tick) (index : BitVec 32)
  /-- ENGINE_BUFFER_ERROR (R421): An uncorrectable SEC-DED error in an engine's local buffer or its cluster memory area makes the steward fence the engine with cause 3. -/
  | engineBufferError (t : Tick) (engine : Fin 256)
  /-- RESET_ASSERT (R501): When PORST_N or SYSRST_N goes low with VIO in range, the A16 stops and drives GLINT0 to GLINT3, TWIN_LIT_OUT and PPSOUT low. -/
  | resetAssert (t : Tick) (pin : ResetPin)
  /-- SUPPLY_RANGE_CHANGE (R501): When VIO or VCORE comes into or leaves its range, the A16 switches its outputs between high impedance and driven, and thermal sensing starts or stops. -/
  | supplyRangeChange (t : Tick) (rail : Rail) (inRange : Bool)
  deriving DecidableEq, Repr

end Sys2Proof
end

