-- ==== Sys2Proof/Decode.lean ====
section
/-!
DEFINITION. Commands from words. The command table of the A16 gives no row any bits: commands reach the device as descriptors,
register accesses, frames, pin events and instants, not as words. So no word spells a command.
-/
namespace Sys2Proof

/-- The command that the `nbits` low bits of `w` spell by the bits of the command table: no row has bits, so none. -/
def decodeTableWord (_nbits _w : Nat) : Option Instr := none

end Sys2Proof
end

