-- ==== Sys2Proof/Config.lean ====
section
/-!
DEFINITION. What the specification leaves open: opaque constants without a body, so that nothing can be proved of their
values (log entry 5).
-/
namespace Sys2Proof.Config

/-- A fresh free value: the model applies it to the counter `State.free`, which it then advances, and takes the result
modulo the range of the value. -/
opaque free : Nat → Nat

/-- The boot ROM coefficient sets whose values the specification does not print: table code of Table 15-5 (0 to 3, 7 to 9)
and position in stored order. -/
opaque bootRom : Nat → Nat → Int

/-- The twin receive credit a member grants from the setting of EN, above the 64 of R331. -/
opaque twinCredit : Nat

/-- The mesh receive buffer a receiver grants from the setting of EN, per virtual channel, in credits (R328). -/
opaque meshCredit : Nat

/-- Idle blocks that the transmit clock boundary of a quad sends before an item because the interior had no block ready (R290), by quad
and the item's number. -/
opaque idleGap : Nat → Nat → Nat

/-- Nanoseconds that a frame takes inside the device, where only bounds are stated (16_management.md Table 16-8 kinds 2 and 5): by the
subject of the sample, and by the instant of the frame or its number on the lanes. -/
opaque frameTime : Nat → Nat → Nat

/-- The place in HBM of a word that a block reads, by what it reads and the word's index in it, where only the region is
stated (R345). -/
opaque hbmPlace : Nat → Nat → Nat

/-- Banks of a pseudo-channel: the geometry of the stacks is not stated (R359). -/
opaque hbmBanks : Nat

/-- Bank and row, within its pseudo-channel, of an HBM page: the geometry of the stacks is not stated (R352). -/
opaque hbmRow : Nat → Nat × Nat

/-- Whether a word that an engine reads for a job holds a given value: the layouts of the channel buffer and of a weight table's
reads are not stated. Words count the reads of the channel buffer first, then those of the weight table. Values: sample of the element
at position p of the job and frame f of the stroke, p·S + f; weight of beam row b and element position p, 2⁴⁰ + b·2¹⁶ + p. -/
opaque bufWord : Nat → Nat → Bool

/-- Position (components 0 to 2, in 0.1 mm) and integer delay (component 3) of a system element of another device, by plan and
system index: the element table holds local elements only, and the weights need them all (R148). -/
opaque farGeom : Nat → Nat → Nat → Int

/-- Whether a word that the transmit path reads from the transmit tables holds a sample of a running beam: word, then beam · 2³² +
sample. The tables' places are not stated. -/
opaque txWord : Nat → Nat → Bool

/-- Whether a word that the Lightbox reads for a frame holds a pixel: word, then layer · 2³² + source pixel, in row order. The surfaces' places
in their region are not stated. -/
opaque lbWord : Nat → Nat → Bool

/-- The synthesiser's terms for a beam of length 0, where R207 divides by the length: 0 the term of the increment, 1 the table index of
the envelope; then the beam sample. -/
opaque endless : Nat → Nat → Int

end Sys2Proof.Config
end

