-- ==== Sys2Proof/Machine/Bits.lean ====
section
/-!
DEFINITION. Numbers, bytes and sparse tables: the rounding, saturation and packing operations the spec names, and the
checksums of R309 and R443. Everything here is structural recursion on numerals, so that the kernel can evaluate it.
-/
namespace Sys2Proof.Machine

/-! ## Rounding and saturation -/

/-- Convergent rounding of `n / d`, `d > 0` (R5): to the nearest integer, ties to the even one. -/
def roundDiv (n d : Int) : Int :=
  let q := n.fdiv d
  let r := 2 * (n - q * d)
  if r < d then q else if r > d then q + 1 else if q % 2 = 0 then q else q + 1

/-- Convergent rounding of `n / 2^k` (R5). -/
def roundShift (n : Int) (k : Nat) : Int := roundDiv n (2 ^ k)

/-- Whether `v` lies in the range of sN (R4). -/
def inS (bits : Nat) (v : Int) : Bool := decide (-(2 ^ (bits - 1) : Int) ≤ v ∧ v < 2 ^ (bits - 1))

/-- Saturation to sN (R4, R11). -/
def satS (bits : Nat) (v : Int) : Int := max (-(2 ^ (bits - 1) : Int)) (min v (2 ^ (bits - 1) - 1))

/-- Saturation to uN. -/
def satU (bits : Nat) (v : Nat) : Nat := min v (2 ^ bits - 1)

/-- A counter of `bits` bits that saturates (R299). -/
def bump (bits : Nat) (c : Nat) (k : Nat) : Nat := satU bits (c + k)

/-- Wrap to sN (two's complement, R4). -/
def wrapS (bits : Nat) (v : Int) : Int :=
  let m := v % (2 ^ bits : Int)
  if m < 2 ^ (bits - 1) then m else m - 2 ^ bits

/-- Read an unsigned value of `bits` bits as sN. -/
def toS (bits : Nat) (v : Nat) : Int := wrapS bits (v : Int)

/-- `⌈a / b⌉` for naturals. -/
def ceilDiv (a b : Nat) : Nat := (a + b - 1) / b

/-- `⌊√n⌋` by bits, `k` bits of result still to find; `r` is found so far. -/
def isqrtAux (n : Nat) : Nat → Nat → Nat
  | 0, r => r
  | k + 1, r => if (r + 2 ^ k) * (r + 2 ^ k) ≤ n then isqrtAux n k (r + 2 ^ k) else isqrtAux n k r

/-- Integer square root, floor, for operands below 2¹²⁸ (R148). -/
def isqrt (n : Nat) : Nat := isqrtAux n 64 0

/-! ## Spans of time -/

/-- Ticks of 2⁻³² s in one second. -/
def tickHz : Nat := 2 ^ 32

/-- The instant of a second and its fraction. -/
def secTick (sec : Nat) (frac : BitVec 32) : Tick := sec * tickHz + frac.toNat

/-- `dt` ticks are at least `us` microseconds, exactly. -/
def atLeastUs (dt us : Nat) : Bool := decide (us * tickHz ≤ dt * 1000000)

/-- `dt` ticks are at least `ms` milliseconds, exactly. -/
def atLeastMs (dt ms : Nat) : Bool := decide (ms * tickHz ≤ dt * 1000)

/-- Microseconds to ticks, rounded convergently. -/
def usTicks (us : Nat) : Int := roundDiv (us * tickHz) 1000000

/-- `n` samples at rate `rate` per `den` seconds, as ticks, rounded convergently (R279, R512). -/
def spanTicks (n den rate : Int) : Int := roundDiv (n * den * tickHz) rate

/-! ## Bytes, little-endian (R2) -/

/-- `v` as `n` bytes, little-endian. -/
def le : Nat → Nat → Bytes
  | 0, _ => []
  | n + 1, v => BitVec.ofNat 8 v :: le n (v / 256)

/-- A signed value as `n` bytes, little-endian, two's complement. -/
def leS (n : Nat) (v : Int) : Bytes := le n (v % (2 ^ (8 * n) : Int)).toNat

/-- The number a little-endian byte string spells. -/
def ofLe : Bytes → Nat
  | [] => 0
  | b :: bs => b.toNat + 256 * ofLe bs

/-- `n` bytes at offset `off`; bytes past the end read 0. -/
def slice (b : Bytes) (off n : Nat) : Bytes :=
  let s := (b.drop off).take n
  s ++ List.replicate (n - s.length) 0

/-- The unsigned field of `n` bytes at offset `off`. -/
def fieldU (b : Bytes) (off n : Nat) : Nat := ofLe (slice b off n)

/-- The signed field of `n` bytes at offset `off`. -/
def fieldS (b : Bytes) (off n : Nat) : Int := toS (8 * n) (fieldU b off n)

/-- `n` zero bytes. -/
def zeros (n : Nat) : Bytes := List.replicate n 0

/-- The bytes at `off`, `n` of them, are all 0 (R7). -/
def zeroAt (b : Bytes) (off n : Nat) : Bool := fieldU b off n == 0

/-- Bits [lo + w - 1 : lo] of a number (R3). -/
def bitsOf (v lo w : Nat) : Nat := (v / 2 ^ lo) % 2 ^ w

/-- Bit `i` of a number. -/
def bitOf (v i : Nat) : Bool := (v / 2 ^ i) % 2 == 1

/-- `b` as 0 or 1. -/
def b01 (b : Bool) : Nat := if b then 1 else 0

/-! ## Checksums -/

/-- One bit of a reflected CRC-32 with reflected polynomial `poly`. -/
def crcBit (poly : BitVec 32) (c : BitVec 32) : BitVec 32 :=
  if c.getLsbD 0 then (c >>> 1) ^^^ poly else c >>> 1

/-- `k` bits of a reflected CRC-32. -/
def crcBits (poly : BitVec 32) : Nat → BitVec 32 → BitVec 32
  | 0, c => c
  | k + 1, c => crcBits poly k (crcBit poly c)

/-- One byte of a reflected CRC-32. -/
def crcByte (poly c : BitVec 32) (b : Byte) : BitVec 32 := crcBits poly 8 (c ^^^ b.zeroExtend 32)

/-- A reflected CRC-32 with initial value and final XOR 0xFFFF_FFFF. -/
def crc32With (poly : BitVec 32) (bs : Bytes) : BitVec 32 := ~~~ (bs.foldl (crcByte poly) 0xFFFFFFFF#32)

/-- CRC-32C, polynomial 0x1EDC_6F41 reflected (R309). -/
def crc32c (bs : Bytes) : BitVec 32 := crc32With 0x82F63B78#32 bs

/-- CRC-32 of IEEE 802.3, polynomial 0x04C1_1DB7 reflected (R443). -/
def crc32 (bs : Bytes) : BitVec 32 := crc32With 0xEDB88320#32 bs

/-- The item hash H of R443. -/
def itemHash (bs : Bytes) : BitVec 64 := (crc32 bs).zeroExtend 64 <<< 32 ||| (crc32c bs).zeroExtend 64

/-! ## Sparse tables -/

/-- The entry at key `k`. -/
def Tab.get {α : Type} : Tab α → Nat → Option α
  | [], _ => none
  | (j, a) :: l, k => if j = k then some a else Tab.get l k

/-- The entry at key `k`, `d` when unlisted. -/
def Tab.getD {α : Type} (l : Tab α) (k : Nat) (d : α) : α := (Tab.get l k).getD d

/-- Write the entry at key `k`, keeping the keys rising. -/
def Tab.put {α : Type} : Tab α → Nat → α → Tab α
  | [], k, a => [(k, a)]
  | (j, b) :: l, k, a =>
    if k < j then (k, a) :: (j, b) :: l else if k = j then (k, a) :: l else (j, b) :: Tab.put l k a

/-- Remove the entry at key `k`. -/
def Tab.del {α : Type} (l : Tab α) (k : Nat) : Tab α := l.filter (fun p => p.1 ≠ k)

/-- Whether key `k` is listed. -/
def Tab.has {α : Type} (l : Tab α) (k : Nat) : Bool := (Tab.get l k).isSome

/-- Add `n` to the count at key `k`; an unlisted count is 0. -/
def Tab.add (l : Tab Nat) (k n : Nat) : Tab Nat := if n = 0 then l else Tab.put l k (Tab.getD l k 0 + n)

/-- Apply `f` to the entry at key `k`, which is `d` when unlisted. -/
def Tab.mod {α : Type} (l : Tab α) (k : Nat) (d : α) (f : α → α) : Tab α := Tab.put l k (f (Tab.getD l k d))

/-- The values, in key order. -/
def Tab.vals {α : Type} (l : Tab α) : List α := l.map (·.2)

/-- The keys, in order. -/
def Tab.keys {α : Type} (l : Tab α) : List Nat := l.map (·.1)

/-- Insertion into a list sorted by `key`, after the entries with an equal key. -/
def insertBy {α : Type} (key : α → Nat) (a : α) : List α → List α
  | [] => [a]
  | b :: l => if key a < key b then a :: b :: l else b :: insertBy key a l

end Sys2Proof.Machine
end

