-- ==== Sys2Proof/Machine/StCond.lean ====
section
/-!
DEFINITION. State of ingest alignment and conditioning (02_conditioning.md), and of the afterimage (14_memory.md R347 to
R349): element table, group descriptors, input rings, the chain of each element, the gap log, the gap index.
-/
namespace Sys2Proof.Machine

/-- An element table entry (Table 02-2). -/
structure ElemEntry where
  /-- element group (8 bits) -/
  group : Nat
  /-- bit 0 receive, bit 1 drive, bit 2 DC freeze, bit 3 glint tap -/
  flags : Nat
  stream : Nat
  channel : Nat
  delayInt : Nat
  posX : Int
  posY : Int
  posZ : Int
  calDelay : Int
  rxGain : Nat
  driveGain : Nat
  deriving DecidableEq, Repr

/-- The entry of an element that no command has named. -/
def ElemEntry.reset : ElemEntry := ⟨0, 0, 0, 0, 0, 0, 0, 0, 0, 0, 0⟩

/-- An element group descriptor (Tables 02-3 and 03-1). -/
structure GroupDesc where
  rate : Nat
  window : Nat
  dcK : Nat
  hpCorner : Nat
  decMode : Nat
  ratio : Nat
  b0 : Int
  b1 : Int
  b2 : Int
  a1 : Int
  a2 : Int
  chanLog2 : Nat
  taps : Nat
  mode : Nat
  outShift : Nat
  proto : Nat
  gain : Nat
  first : Nat
  count : Nat
  plan : Nat
  deriving DecidableEq, Repr

/-- A change that waits for its activation (R39, R511): the first block it holds for, and what it changes. -/
inductive PendKind where
  | elems (es : List (Nat × ElemEntry))
  | group (g : Nat) (d : GroupDesc)
  deriving DecidableEq, Repr

structure Pend where
  /-- activation sample index of the command -/
  activate : Nat
  kind : PendKind
  deriving DecidableEq, Repr

/-- A started group (R510). -/
structure GroupRun where
  /-- sample-index origin (time word) -/
  tOrg : Nat
  /-- sample index of a pending stop -/
  stopAt : Option Nat
  deriving DecidableEq, Repr

/-- A released block that conditioning has not read (R42): its samples, each with its gap cause, 0 present. -/
structure RelBlock where
  b : Nat
  at_ : Nat
  vals : List (Int × Nat)
  deriving DecidableEq, Repr

/-- A conditioning output word with its sideband: gap cause (0 no gap) and warming flag (R34, R80). -/
structure CondWord where
  v : Int
  gap : Nat
  warm : Bool
  deriving DecidableEq, Repr

/-- Per-element counters of R43 to R65. -/
structure ElemCnt where
  /-- late samples (02 R43) -/
  late : Nat
  /-- duplicates (02 R45) -/
  dup : Nat
  /-- conflicts (02 R45) -/
  conflict : Nat
  /-- early samples (02 R46) -/
  early : Nat
  /-- gap samples (02 R49) -/
  gaps : Nat
  /-- gap runs (02 R49) -/
  gapRuns : Nat
  /-- front saturations (02 R53) -/
  frontSat : Nat
  /-- output saturations (02 R61) -/
  outSat : Nat
  /-- delay steps (02 R64) -/
  delaySteps : Nat
  /-- gap-flagged outputs (02 R65) -/
  gapOut : Nat
  /-- warming-flagged outputs (02 R65) -/
  warmOut : Nat
  /-- saturated channel samples (03 R81) -/
  chanSat : Nat
  /-- afterimage holes (01 R30) -/
  holes : Nat
  deriving DecidableEq, Repr

def ElemCnt.reset : ElemCnt := ⟨0, 0, 0, 0, 0, 0, 0, 0, 0, 0, 0, 0, 0⟩

/-- The front and decimation state of one element (R53, R55, R58, R59), zero at a restart. -/
structure Chain where
  /-- DC estimate m (s48; 02 R53) -/
  m : Int
  /-- high-pass state d1 d2 y1 y2 (s13, s40; 02 R53) -/
  d1 : Int
  d2 : Int
  y1 : Int
  y2 : Int
  /-- half-band histories, one list per stage, newest first (s24; 02 R56) -/
  stages : List (List Int)
  /-- CIC integrators (5 x 72 bits, wrapping; 02 R58) -/
  integ : List Int
  /-- CIC combs (5 x 72 bits, wrapping; 02 R58) -/
  comb : List Int
  /-- compensator history, newest first (31 x s24; 02 R59) -/
  comp : List Int
  /-- first input index after the restart (02 R65) -/
  start : Nat
  /-- input samples the DC block has processed unfrozen (02 R68) -/
  dcCnt : Nat
  /-- input samples the high-pass has processed (02 R68) -/
  hpCnt : Nat
  /-- first input index past front-stage warming, once known (02 R68) -/
  warmEnd : Option Nat
  /-- gap runs of recent inputs, newest first: first, last, cause (02 R65) -/
  gaps : List (Nat × Nat × Nat)
  deriving DecidableEq, Repr

/-- The chain at a restart whose first input has index `n`. -/
def Chain.restart (n : Nat) : Chain :=
  ⟨0, 0, 0, 0, 0, [], [0, 0, 0, 0, 0], [0, 0, 0, 0, 0], [], n, 0, 0, none, []⟩

/-- What runs for one receive element of a started group. -/
structure ElemRun where
  /-- sample-index origin of its group (time word) (02 R510) -/
  tOrg : Nat
  /-- oldest unreleased block (02 R42) -/
  next : Nat
  /-- first block not released because of a stop (02 R510) -/
  stop : Option Nat
  /-- input ring: slot to sample index and value (02 R40) -/
  slots : Tab (Nat × Int)
  /-- slots of the ring (02 R40) -/
  size : Nat
  /-- noted causes by block, bit c for cause c (02 R44, R46) -/
  causes : Tab Nat
  /-- latest arrival of an accepted sample, by block (16 Table 16-8 kind 1) -/
  arrs : Tab Nat
  /-- released blocks not read, oldest first (02 R52) -/
  ready : List RelBlock
  /-- next block to condition (02 R52) -/
  condNext : Nat
  /-- the chain (02 R34) -/
  chain : Chain
  /-- origin and descriptor at its last restart (09 R230; reset none) -/
  chainAt : Option (Nat × GroupDesc)
  /-- delay line, newest first, s16 and two flags (02 R63) -/
  line : List CondWord
  /-- integer delay in effect (02 R64) -/
  delay : Nat
  /-- outputs still to be flagged warming after a delay step (02 R64) -/
  stepWarm : Nat
  /-- filterbank history and unread outputs, newest first (03 R72) -/
  fb : List CondWord
  /-- output index of the next word of `fb` (02 R65) -/
  fbNext : Nat
  /-- first output index after the last filterbank restart (03 R80) -/
  fbStart : Nat
  /-- gap-flagged outputs that a frame may still have in its support, newest first: index and cause (03 R80) -/
  gapOuts : List (Nat × Nat)
  /-- next frame index (03 R78) -/
  frame : Nat
  deriving DecidableEq, Repr

/-- A gap run (Table 02-5). -/
structure GapRun where
  first : Nat
  len : Nat
  elem : Nat
  cause : Nat
  lost : Bool
  deriving DecidableEq, Repr

/-- A gap or warming run in channel frames of one plan, or of one plan channel (R95, R137); cause 0 is a warming run. A run
that found the log full stands here unlisted: the counts stay exact though the list does not (R49). -/
structure LogRun where
  plan : Nat
  /-- the plan channel of a cause 5 or 8 run; `none` a plan-wide run -/
  pchan : Option Nat
  run : GapRun
  /-- it holds one of the 65,536 places -/
  listed : Bool
  deriving DecidableEq, Repr

/-- A write of the afterimage that its port has not placed yet (R348): the ring's length, when the block was released, its address, its
samples. -/
structure AfterWrite where
  be : Nat
  at_ : Nat
  addr : Nat
  vals : List Int
  deriving DecidableEq, Repr

structure CondState where
  /-- element table, entries that differ from all zero (16,384 x 32 B; 02 R35; reset 0, log 3) -/
  elems : Tab ElemEntry
  /-- group descriptors in effect (256 x 64 B; 02 R37; reset none) -/
  groups : Tab GroupDesc
  /-- pending changes in order of their activation instants; equal instants keep the order of command (02 R39, R511; reset none) -/
  pending : List Pend
  /-- started groups (256; 02 R510; reset none) -/
  started : Tab GroupRun
  /-- running elements (16,384; 02 R42; reset none) -/
  run : Tab ElemRun
  /-- quad on which the last good ingest frame with samples for an element arrived (16,384 x 4 bits; 02 R44; reset none) -/
  onQuad : Tab Nat
  /-- per-element counters (16,384 x 13; 02 R43 to R65; reset 0) -/
  cnt : Tab ElemCnt
  /-- afterimage blocks by element and block, key element·2^48 + block (14 R347, R348; reset empty) -/
  after : Tab (List Int)
  /-- writes of the afterimage that wait for the port, by the same key (14 R348; reset none) -/
  afterWait : Tab AfterWrite
  /-- the instant from which the afterimage has been kept since it last restarted (time word; 14 R349; reset 0) -/
  afterFrom : Nat
  /-- the gap index, oldest first, with device-local elements (14 R348; reset empty) -/
  gapIndex : List GapRun
  /-- newest sample index overwritten in a full gap index (14 R348; reset none) -/
  gapLost : Option Nat
  /-- overwritten runs that a capture may still reach: what it cannot list but counts (07 Table 07-8; reset empty) -/
  gapGone : List GapRun
  /-- the input rates of the receive-enabled elements for which the afterimage is laid out (14 R347, R349; reset none) -/
  afterRates : Tab Nat
  /-- the runs that records still need, of which at most 65,536 are listed (02 R49, 05 R138; reset empty) -/
  log : List LogRun
  /-- elements whose next listed entry takes the lost bit (02 R49; reset none) -/
  lostMark : List Nat
  deriving DecidableEq, Repr

def CondState.reset : CondState where
  elems := []
  groups := []
  pending := []
  started := []
  run := []
  onQuad := []
  cnt := []
  after := []
  afterWait := []
  afterFrom := 0
  gapIndex := []
  gapLost := none
  gapGone := []
  afterRates := []
  log := []
  lostMark := []

end Sys2Proof.Machine
end

