-- ==== Sys2Proof/Machine/StAudio.lean ====
section
/-!
DEFINITION. State of the audio block (09_audio_routing.md).
-/
namespace Sys2Proof.Machine

/-- An audio source entry (Table 09-2) with its counters and, for an element, its history. -/
structure AudioSrc where
  /-- 0 element, 1 ring -/
  kind : Nat
  index : Nat
  rate : Nat
  lag : Nat
  /-- conditioning outputs of an element by index (09 R229) -/
  hist : Tab CondWord
  /-- late inputs (09 R232) -/
  late : Nat
  /-- gap inputs (09 R232) -/
  gaps : Nat
  /-- saturations of the converter (09 R230) -/
  sat : Nat
  /-- the last ring sample that was read absent, which a run of absent samples goes on from (09 R232; reset none) -/
  absentTo : Option Nat
  deriving DecidableEq, Repr

/-- An audio sink entry (Table 09-3) with its lines. -/
structure AudioSink where
  /-- 0 transmit, 1 capture -/
  kind : Nat
  format : Nat
  ahead : Nat
  thr : Nat
  hold : Nat
  block : Nat
  /-- inputs v, newest first, at most ahead + 1 (09 R236) -/
  line : List Int
  /-- indices in a row with |v| at or below thr (09 R242) -/
  quiet : Nat
  /-- transmit outputs by audio index, newest 65,536 (09 R236, R238) -/
  outs : Tab Int
  /-- audio indices at which it was silent, newest 65,536 (09 R243) -/
  silent : Tab Bool
  /-- saturations (09 R236) -/
  sat : Nat
  /-- capture outputs since the last record, newest first -/
  cap : List Int
  capSat : Nat
  capLate : Nat
  capSilent0 : Bool
  capSwap : Bool
  deriving DecidableEq, Repr

/-- A routing script instruction (Table 09-5). -/
structure AudioInstr where
  op : Nat
  dst : Nat
  a : Nat
  param : Nat
  deriving DecidableEq, Repr

/-- A routing set (Table 09-4): parameters are value and aux. -/
structure RoutingSet where
  id : Nat
  instrs : List AudioInstr
  params : List (Int × Nat)
  deriving DecidableEq, Repr

/-- A filter state of the audio high-pass (R235). -/
structure AudioHp where
  d1 : Int
  d2 : Int
  y1 : Int
  y2 : Int
  deriving DecidableEq, Repr

def AudioHp.zero : AudioHp := ⟨0, 0, 0, 0⟩

/-- A gain ramp (Table 09-8). -/
structure Ramp where
  old : Int
  new : Int
  from_ : Nat
  n : Nat
  deriving DecidableEq, Repr

structure AudioState where
  /-- execution instant of audio index 0; `none` not configured (64 bits; 09 R227; reset none) -/
  t0 : Option Nat
  /-- next audio index (09 R228; reset 0) -/
  idx : Nat
  /-- sleep_mask (16 bits; 09 Table 09-1; reset 0) -/
  sleepMask : Nat
  /-- sources (128; 09 R229; reset none) -/
  srcs : List AudioSrc
  /-- sinks (64; 09 R236; reset none) -/
  sinks : List AudioSink
  /-- the active set (09 R240; reset none) -/
  active : Option RoutingSet
  /-- the idle slot (09 R240; reset none) -/
  idle : Option RoutingSet
  /-- index of a pending swap (09 R240; reset none) -/
  swap : Option Nat
  /-- nodes that are not 0 (256 x s24; 09 R234; reset 0) -/
  nodes : Tab Int
  /-- saturations per node (256; 09 R234; reset 0) -/
  nodeSat : Tab Nat
  /-- filter states (256; 09 R235; reset 0) -/
  hp : Tab AudioHp
  /-- delay lines, newest first, as long as the active set names them (64; 09 R234, R241; reset 0) -/
  lines : Tab (List Int)
  /-- gain ramps by parameter index (09 R241; reset none) -/
  ramps : Tab Ramp
  deriving DecidableEq, Repr

def AudioState.reset : AudioState where
  t0 := none
  idx := 0
  sleepMask := 0
  srcs := []
  sinks := []
  active := none
  idle := none
  swap := none
  nodes := []
  nodeSat := []
  hp := []
  lines := []
  ramps := []

end Sys2Proof.Machine
end

