-- ==== Sys2Proof/Machine/StBoot.lean ====
section
/-!
DEFINITION. State of identity, boot, security and pins (18_startup.md, 19_registers.md, 20_package_electrical.md).
-/
namespace Sys2Proof.Machine

/-- The orderable parts (Table 00-1), coded as ID_BOOT.PART.PART. -/
inductive Part where
  | p96X
  | p96C
  | p48X
  deriving DecidableEq, Repr

/-- What is fixed in fuses and the key store (R472, R485). -/
structure Fuses where
  /-- the orderable part (19 Table 19-4; fused; DESIGN CHOICE GXA16-96X, log 4) -/
  part : Part
  /-- serial number (64 bits; 19 R488; fused; DESIGN CHOICE 0, log 4) -/
  serial : BitVec 64
  /-- SHA-384 key hashes by slot (4 x 384 bits; 18 R472; fused; DESIGN CHOICE slots 0 and 1 hold 0, log 4) -/
  keys : Vector (Option (BitVec 384)) 4
  /-- revoked slots (4 bits; 18 R472; DESIGN CHOICE 0, log 4) -/
  revoked : BitVec 4
  /-- SVN_MIN (16 bits; 18 R472; DESIGN CHOICE 0, log 4) -/
  svnMin : Nat
  /-- raises of SVN_MIN recorded, at most 64 (18 R472; DESIGN CHOICE 0, log 4) -/
  raises : Nat
  /-- SECURITY.STAT.DBG_FUSED (1 bit; 18 R473; DESIGN CHOICE 0, log 4) -/
  dbgFused : Bool
  deriving DecidableEq, Repr

def Fuses.reset : Fuses := ⟨.p96X, 0, #v[some 0, some 0, none, none], 0, 0, 0, false⟩

/-- A boot source (R465). -/
inductive BootSrc where
  | primary
  | secondary
  | host
  deriving DecidableEq, Repr

structure BootState where
  /-- BOOT_STAT.PHASE (4 bits; 18 Table 18-6; reset 0) -/
  phase : Nat
  /-- BOOT_STAT.READY (1 bit; 18 Table 18-6; reset 0) -/
  ready : Bool
  /-- BOOT_STAT.SOURCE (2 bits; 18 Table 18-6; reset 0) -/
  source : Nat
  /-- BOOT_STAT.EARLY_WR (1 bit w1c; 18 R466; reset 0) -/
  earlyWr : Bool
  /-- BOOT_STAT.ERR (4 bits; 18 Table 18-6; reset 0) -/
  err : Nat
  /-- BOOT_STAT.FAILED (9 bits; 18 R474; reset 0) -/
  failed : Nat
  /-- BOOT_MODE as sampled at the last release (2 bits; 18 R465; reset 0, log 3) -/
  mode : BitVec 2
  /-- the source whose read is due (18 R465; reset none) -/
  reading : Option BootSrc
  /-- ID_BOOT.FW_VER (32 bits; 19 R488; reset 0) -/
  fwVer : Reg
  /-- ID_BOOT.FW_SVN (32 bits; 19 R488; reset 0) -/
  fwSvn : Reg
  /-- the slot that verified the running firmware (18 R472; reset none) -/
  fwSlot : Option Nat
  /-- entry offset at which the scribe cores were started (18 R471; reset none) -/
  entry : Option Nat
  /-- ID_BOOT.HOST_IMG_LO (32 bits; 18 R470; reset 0) -/
  imgLo : Reg
  /-- ID_BOOT.HOST_IMG_HI (32 bits; 18 R470; reset 0) -/
  imgHi : Reg
  /-- GO writes of this boot, at most 3 (18 R470; reset 0) -/
  goes : Nat
  /-- configuration requests are answered (1 bit; 18 R466; reset 0) -/
  cfgOk : Bool
  /-- ID_BOOT.SCRATCH (32 bits; 19 R489; reset 0) -/
  scratch : Reg
  /-- ACC_STAT flags NARROW, UNMAPPED, RESCODE, MISALIGN (4 bits w1c; 19 Table 19-7; reset 0) -/
  accStat : BitVec 4
  /-- ACC_STAT.COUNT (16 bits, saturating; 19 Table 19-7; reset 0) -/
  accCount : Nat
  /-- SERIAL_HI as latched by a read of SERIAL_LO (32 bits; 19 R482; reset none) -/
  serialHi : Option Reg
  /-- SECURITY.CTL.DBG_LOCK (1 bit; 18 Table 18-8; reset 0) -/
  dbgLock : Bool
  /-- fuses and key store (19 Table 19-2; fixed) -/
  fuses : Fuses
  deriving DecidableEq, Repr

def BootState.reset : BootState where
  phase := 0
  ready := false
  source := 0
  earlyWr := false
  err := 0
  failed := 0
  mode := 0
  reading := none
  fwVer := 0
  fwSvn := 0
  fwSlot := none
  entry := none
  imgLo := 0
  imgHi := 0
  goes := 0
  cfgOk := false
  scratch := 0
  accStat := 0
  accCount := 0
  serialHi := none
  dbgLock := false
  fuses := Fuses.reset

structure PinState where
  /-- VIO is within its range (1 bit; 20 R501; reset 1, DESIGN CHOICE: reset presumes power, log 3) -/
  vio : Bool
  /-- VCORE is within its range (1 bit; 18 R463; reset 1, log 3) -/
  vcore : Bool
  /-- PORST_N is low (1 bit; 20 R501; reset 0) -/
  porstLow : Bool
  /-- SYSRST_N is low (1 bit; 20 R501; reset 0) -/
  sysrstLow : Bool
  /-- GLINT0 to GLINT3 levels (4 bits; 20 R501; reset low) -/
  glint : BitVec 4
  deriving DecidableEq, Repr

def PinState.reset : PinState := ⟨true, true, false, false, 0⟩

end Sys2Proof.Machine
end

