-- ==== Sys2Proof/Machine/StChan.lean ====
section
/-!
DEFINITION. State of the channeliser and the corner turn (03_channeliser.md): prototypes, gain tables, plans, contributions
being formed, open strokes, the channel buffer, counters.
-/
namespace Sys2Proof.Machine

/-- A prototype image (Table 03-2): the stored half of the coefficients. -/
structure Proto where
  chanLog2 : Nat
  taps : Nat
  coefs : List Int
  deriving DecidableEq, Repr

/-- A plan device entry (Table 03-7). -/
structure PlanDev where
  chip : Nat
  sysBase : Nat
  localBase : Nat
  elements : Nat
  deriving DecidableEq, Repr

/-- A plan channel entry (Table 03-8): owner, stroke length in frames, enabled. -/
structure PlanChan where
  owner : Nat
  stroke : Nat
  enabled : Bool
  deriving DecidableEq, Repr

/-- A channel plan version (Table 03-6). -/
structure Plan where
  mode : Nat
  chanLog2 : Nat
  taps : Nat
  rate : Nat
  decMode : Nat
  ratio : Nat
  first : Nat
  count : Nat
  version : Nat
  ctWindow : Nat
  activate : Nat
  t0 : Nat
  devs : List PlanDev
  chans : List PlanChan
  digest : BitVec 32
  deriving DecidableEq, Repr

/-- A channel sample (Table 03-4): value, gap cause (0 no gap) and warming flag. -/
structure CSample where
  re : Int
  im : Int
  gap : Nat
  warm : Bool
  deriving DecidableEq, Repr

/-- The data of one stroke of one plan channel as it arrives (R93, R94): samples by system element and frame, key
element·2^32 + frame within the stroke. -/
structure StrokeBuf where
  samples : Tab CSample
  /-- at a source: the R82 stamp of each batch's first frame at the lowest system index, by batch (R89) -/
  stamps : Tab Int
  /-- elements a source has delivered for each batch, key source·65536 + batch: system elements -/
  parts : Tab (List Nat)
  /-- latest arrival instant of the inputs of its last frame, for monitor kind 1 -/
  lastAt : Nat
  deriving DecidableEq, Repr

def StrokeBuf.empty : StrokeBuf := ⟨[], [], [], 0⟩

/-- A released stroke in the channel buffer (R94). -/
structure Released where
  buf : StrokeBuf
  /-- release instant (time word) -/
  at_ : Nat
  /-- every job of the stroke is done: the area may be overwritten (04 R106) -/
  free : Bool
  deriving DecidableEq, Repr

/-- One plan channel at its owner. A stroke is named by its plan version and its index, key version·2^48 + index, the version as
activation·2^32 + number, so that keys rise with time. -/
structure PChanState where
  /-- version of the oldest unreleased stroke, as activation·2^32 + number (03 R87) -/
  ver : Nat
  /-- oldest unreleased stroke (03 R93) -/
  next : Nat
  /-- open strokes, at most two (03 R93) -/
  opened : Tab StrokeBuf
  /-- released strokes kept in the channel buffer (03 R94, 04 R106) -/
  released : Tab Released
  deriving DecidableEq, Repr

/-- One plan channel at a source that does not own it: contributions being formed (R89 to R91). -/
structure SendState where
  /-- samples by stroke key -/
  forming : Tab StrokeBuf
  /-- the next batch to send, by destination chip: stroke key and batch index -/
  pos : Tab (Nat × Nat)
  /-- destinations, by chip, for which the rest of a contribution is dropped: its stroke key -/
  dropping : Tab Nat
  /-- destinations, by chip, that count as unreachable for the rest of a contribution after a late notice (R335): its stroke key -/
  cut : Tab Nat
  deriving DecidableEq, Repr

/-- Nothing formed and nothing sent. -/
def SendState.empty : SendState := ⟨[], [], [], []⟩

/-- An owner that has been lost for a plan (R92). -/
structure OwnerLoss where
  lost : Bool
  dropped : Nat
  deriving DecidableEq, Repr

structure ChanState where
  /-- prototype images by id (1,024; 03 R74; reset none) -/
  protos : Tab Proto
  /-- gain tables by id (1,024; 03 R75; reset none) -/
  gains : Tab (List (Int × Int))
  /-- plan versions by plan id, in order of activation (16; 03 R83, R87; reset none) -/
  plans : Tab (List Plan)
  /-- saturated channel samples per kept channel of each group, key group·16384 + channel (03 R81; reset 0) -/
  chanSat : Tab Nat
  /-- plan channels owned here, key plan·65536 + channel (03 R93; reset none) -/
  owned : Tab PChanState
  /-- plan channels sent from here, key plan·65536 + channel (03 R90; reset none) -/
  send : Tab SendState
  /-- owners lost, key plan·65536 + chip (03 R92; reset none) -/
  loss : Tab OwnerLoss
  /-- stamps of batches' first frames at the lowest element of the own entry, by plan, version and frame (03 R93, Table 03-9; reset none) -/
  stamps : Tab Int
  /-- time sets at the last start of a group bound to the plan, by plan id (11 R275; reset none) -/
  eras : Tab Nat
  /-- plan digests sent: plan, version, mesh port (03 R85; reset none) -/
  digestSent : List (Nat × Nat × Nat)
  /-- plan mismatches in force: plan and the chip id of the neighbour (03 R86; reset none) -/
  mismatch : List (Nat × Nat)
  /-- the ten rows of R513, each keyed plan·65536 + key (03 Table 03-10; reset 0) -/
  cnt : Vector (Tab Nat) 10
  deriving DecidableEq, Repr

def ChanState.reset : ChanState where
  protos := []
  gains := []
  plans := []
  chanSat := []
  owned := []
  send := []
  loss := []
  stamps := []
  eras := []
  digestSent := []
  mismatch := []
  cnt := Vector.replicate 10 []

end Sys2Proof.Machine
end

