-- ==== Sys2Proof/Machine/StCorr.lean ====
section
/-!
DEFINITION. State of the engines, schedules, inkwells, dumps and beam pools (04_correlation_engines.md, 05_inkwells.md,
06_beamforming.md, 16_management.md R420 to R424).
-/
namespace Sys2Proof.Machine

/-- A pool descriptor (Tables 04-3 and 06-1). -/
structure Pool where
  plan : Nat
  /-- 0 X, 1 B -/
  mode : Nat
  engines : Nat
  /-- S in frames -/
  stroke : Nat
  firstCh : Nat
  channels : Nat
  activate : Nat
  jobs : Nat
  /-- X: 0 HBM, 1 hub -/
  ink : Nat
  /-- X: 0 chase, 1 double buffer -/
  dump : Nat
  /-- X: strokes per integration K -/
  integ : Nat
  /-- B: bit 0 voltage, bit 1 power -/
  product : Nat
  bset : Nat
  /-- B: frames of a power span -/
  pint : Nat
  bshift : Nat
  pshift : Nat
  band : Nat
  pfmt : Nat
  deriving DecidableEq, Repr

/-- An engine entry (Table 04-4). -/
structure EngEntry where
  engine : Nat
  pool : Nat
  firstJob : Nat
  count : Nat
  allot : Nat
  deriving DecidableEq, Repr

/-- A shed entry (Table 04-5). -/
structure ShedEntry where
  pool : Nat
  firstCh : Nat
  channels : Nat
  product : Nat
  deriving DecidableEq, Repr

/-- A fallback (Table 04-6). -/
structure Fallback where
  exclude : BitVec 256
  preshed : Nat
  entries : List EngEntry
  deriving DecidableEq, Repr

/-- A schedule image (Table 04-1). -/
structure Sched where
  id : Nat
  warm : Nat
  pools : List Pool
  entries : List EngEntry
  spares : List Nat
  shed : List ShedEntry
  fallbacks : List Fallback
  deriving DecidableEq, Repr

/-- One shedding of a shed entry (R116, R119). -/
structure ShedSt where
  /-- 0 cap, 1 fallback preshed, 2 host -/
  cause : Nat
  domain : Nat
  /-- first stroke of its pool that is skipped -/
  lo : Nat
  /-- first stroke that runs again, once restored -/
  hi : Option Nat
  /-- a preshed entry of the fallback in force (R119) -/
  pre : Bool
  deriving DecidableEq, Repr

/-- The wait of R116: no further entry is shed until 64 strokes have completed in the requesting domain after the first skipped
slot of the entry shed last. -/
structure ShedHold where
  entry : Nat
  domain : Nat
  started : Bool
  left : Nat
  deriving DecidableEq, Repr

/-- An engine entry as it runs: of the main schedule or of a fallback, for a range of strokes of its pool (R104, R105, R113,
R114). -/
structure EntryRun where
  /-- the entry, with the engine that serves it now -/
  entry : EngEntry
  /-- the fallback it belongs to, none the main schedule -/
  fb : Option Nat
  /-- first stroke -/
  lo : Nat
  /-- first stroke not run, once known -/
  hi : Option Nat
  /-- the next engine-stroke to start: stroke and slot -/
  next : Nat × Nat
  /-- the last position applied, skipped or declared unserved (05 R126) -/
  done : Option (Nat × Nat)
  /-- its engine is failed and nothing replaces it (R115) -/
  unserved : Bool
  /-- configuration epoch expected of its hand-offs, from a stroke on, newest first (16 R420, 06 R157) -/
  epochs : List (Nat × Nat)
  deriving DecidableEq, Repr

/-- A loaded schedule and what runs of it. -/
structure SchedRun where
  /-- its number in the order of loading (model's own) -/
  gen : Nat
  sched : Sched
  /-- pools that stop: pool index and first stroke not run (04 R111, 15 R383) -/
  stops : Tab Nat
  /-- those of the stops that an unload of the schedule gave (15 R383) -/
  unloads : Tab Nat
  runs : List EntryRun
  /-- spares in use (04 R113) -/
  spared : List Nat
  /-- the fallback in force (04 R114) -/
  fbIn : Option Nat
  /-- switches of a pool to a fallback: first stroke and fallback, newest first (04 R114) -/
  switches : Tab (List (Nat × Nat))
  /-- sheddings by index in the shed list, newest first (04 R116) -/
  shed : Tab (List ShedSt)
  /-- the wait after a shedding (04 R116) -/
  hold : Option ShedHold
  /-- beam sets of B pools: stroke from which each holds, newest first (06 R155) -/
  bsets : Tab (List (Nat × Nat))
  /-- B pools: first stroke whose epoch has not been decided (06 R157) -/
  moved : Tab Nat
  /-- failed engines whose unserved event has been posted (04 R115) -/
  unserved : List Nat
  /-- payload formats of X pools: first integration, format and fscale, newest first (05 R140) -/
  formats : Tab (List (Nat × Nat × Nat))
  /-- X pools: of each stroke that is not yet done, the latest arrival of its last inputs and the last write-back, key pool·2^48 + stroke
  (16 Table 16-8 kind 1) -/
  arrived : Tab (Nat × Option Nat)
  deriving DecidableEq, Repr

/-- What an engine hands off at the last frame of a stroke (R99): X sums by nib, or B accumulators by beam row and frame. -/
structure Handoff where
  gen : Nat
  run : Nat
  pool : Nat
  job : Nat
  stroke : Nat
  slot : Nat
  engine : Nat
  epoch : Nat
  sums : List (Int × Int)
  /-- due time and deadline of its slot, time words (04 R104) -/
  due : Int
  deadline : Int
  /-- end instant of its last handshake, a time word -/
  at_ : Nat
  /-- arrival of its latest input (16 Table 16-8 kind 1) -/
  inputAt : Nat
  /-- poisoned input reached it (14 R363) -/
  tainted : Bool
  /-- the output stage had to hold it (05 R133) -/
  held : Bool
  /-- words of its weight table that were poisoned (14 R363) -/
  badW : List Nat
  deriving DecidableEq, Repr

/-- A slot an engine is running. -/
structure Running where
  gen : Nat
  run : Nat
  pool : Nat
  job : Nat
  stroke : Nat
  slot : Nat
  startAt : Nat
  sums : List (Int × Int)
  inputAt : Nat
  tainted : Bool
  /-- words of its weight table that were poisoned (14 R363) -/
  badW : List Nat
  deriving DecidableEq, Repr

/-- An engine that is fenced (R422). -/
structure Fence where
  cause : Nat
  at_ : Nat
  deriving DecidableEq, Repr

structure Engine where
  /-- configuration epoch (32 bits; 16 R420; reset 0, log 3) -/
  epoch : Nat
  /-- marked failed (1 bit; 16 R423; reset 0) -/
  failed : Bool
  /-- fenced (16 R422; reset none) -/
  fence : Option Fence
  /-- instants of its fences within the last 10 s (16 R423; reset none) -/
  fences : List Nat
  /-- hand-offs discarded for a stale epoch (16 R421; reset 0) -/
  stale : Nat
  /-- missed deadlines (01 R19; reset 0) -/
  miss : Nat
  /-- duplicate updates (05 R126; reset 0) -/
  dup : Nat
  /-- the slot in progress (04 R105; reset none) -/
  run : Option Running
  /-- sums that the output stage holds (05 R133; reset none) -/
  out : Option Handoff
  /-- where the engine stood last: schedule and run (16 R422; reset none) -/
  last : Option (Nat × Nat)
  deriving DecidableEq, Repr

def Engine.reset : Engine := ⟨0, false, none, [], 0, 0, 0, none, none, none⟩

/-- State of one inkwell component (Table 05-1): its exact value and whether it is blotted. -/
structure InkComp where
  v : Int
  blot : Bool
  deriving DecidableEq, Repr

/-- One inkwell: two components and whether it holds a spill entry (R120). -/
structure Ink where
  re : InkComp
  im : InkComp
  spilled : Bool
  deriving DecidableEq, Repr

/-- The inkwells of one job in one bank (R122): 1,024 in nib order, and the integration they belong to. -/
structure Tile where
  integ : Int
  cells : List Ink
  deriving DecidableEq, Repr

/-- States of an ordering token (Table 05-3). -/
inductive Token where
  | opened (n : Int)
  | full (n : Int)
  | read (n : Int)
  deriving DecidableEq, Repr

/-- What one integration of a segment has seen. -/
structure SegAcc where
  /-- engine-strokes applied, by stroke within the integration -/
  got : Tab Nat
  /-- missing engine-strokes: stroke within the integration, job, cause 1 unserved 2 shed -/
  missing : List (Nat × Nat × Nat)
  /-- jobs that have applied, missed or shed the last stroke -/
  last : List Nat
  /-- epoch of the engine that applied the last stroke -/
  epoch : Nat
  /-- poisoned data reached its sums (14 R363) -/
  tainted : Bool
  deriving DecidableEq, Repr

def SegAcc.empty : SegAcc := ⟨[], [], [], 0, false⟩

/-- A segment of one bank (R131, R132): its token and its integrations, by index. -/
structure Segment where
  token : Token
  accs : Tab SegAcc
  deriving DecidableEq, Repr

/-- An update that is being applied and whose spill request waits at a nib (R127). -/
structure Updating where
  hand : Handoff
  nib : Nat
  /-- 0 real, 1 imaginary -/
  comp : Nat
  deriving DecidableEq, Repr

/-- Spill entries that the readout of a segment has released: they become grantable at the first due time of the segment's jobs in the first
stroke of integration `integ` (R127). -/
structure HeldSpill where
  gen : Nat
  pool : Nat
  firstJob : Nat
  integ : Nat
  count : Nat
  deriving DecidableEq, Repr

/-- A dump that has been read out and waits for its place in the order of R135. -/
structure Readout where
  /-- the first key of R135 -/
  key : Int
  gen : Nat
  pool : Nat
  firstJob : Nat
  jobs : Nat
  integ : Nat
  acc : SegAcc
  cells : List (Option (List Ink))
  /-- when the readout completed: time word and instant -/
  time : Nat
  at_ : Nat
  /-- bytes that the record takes in product staging while it waits (R135, R393) -/
  size : Nat
  /-- outlets that had no room for it when its readout completed -/
  denied : List Outlet
  deriving DecidableEq, Repr

/-- A point or step in units of 0.1 mm. -/
structure P3 where
  x : Int
  y : Int
  z : Int
  deriving DecidableEq, Repr

/-- The grid section of a beam set (Table 06-4). -/
structure Grid where
  o : P3
  u : P3
  v : P3
  nu : Nat
  nv : Nat
  speed : Nat
  deriving DecidableEq, Repr

/-- A list entry of a beam set (Table 06-5). -/
structure Focus where
  f : P3
  speed : Nat
  deriving DecidableEq, Repr

/-- Position and integer delay of an element as a stroke of a B pool uses them (R156). -/
structure ElemGeom where
  elem : Nat
  pos : P3
  delay : Nat
  deriving DecidableEq, Repr

/-- A beam set (Tables 06-3 to 06-5): focal points and speeds by beam. -/
structure BeamSet where
  plan : Nat
  kind : Nat
  source : Nat
  beams : Nat
  apod : Nat
  table : Nat
  taper : Nat
  radius : Nat
  q : P3
  grid : Option Grid
  list : List Focus
  deriving DecidableEq, Repr

/-- An explicit weight table (Table 06-6), weights beam-major. -/
structure WeightTable where
  plan : Nat
  beams : Nat
  elements : Nat
  w : List (Int × Int)
  deriving DecidableEq, Repr

/-- Sections of a beam block that have reached the beam output stage (R158): sums by beam row and frame, `none` a missing section. -/
structure BeamAcc where
  sections : Tab (Option (List (Int × Int)))
  /-- 0 none missing, 1 unserved, 2 shed: the first cause -/
  missing : Nat
  epoch : Nat
  /-- the instant at which its last section was applied -/
  applied : Option Nat
  tainted : Bool
  deriving DecidableEq, Repr

/-- Nothing applied yet. The epoch of a block to which no section is ever applied stays 0 (DESIGN CHOICE, log entry 124). -/
def BeamAcc.empty : BeamAcc := ⟨[], 0, 0, none, false⟩

/-- Voltages of a finished beam block (R158, R160): beam-major, frame-ascending; saturations per beam. -/
structure BeamOut where
  v : List (Int × Int)
  sat : List Nat
  cause : Nat
  epoch : Nat
  /-- the instant at which its last section was applied -/
  applied : Option Nat
  tainted : Bool
  /-- when it was finished: time word and instant -/
  time : Nat
  at_ : Nat
  deriving DecidableEq, Repr

/-- Source statistics of a plan (R142): the first frame of the span whose record is due next, and saturated samples by span,
key (first frame of the span)·65536 + plan channel or system element. -/
structure SrcStats where
  first : Nat
  chans : Tab Nat
  elems : Tab Nat
  /-- next frame of each local element -/
  next : Tab Nat
  deriving DecidableEq, Repr

structure CorrState where
  /-- loaded schedules, oldest first (04 R107; reset none) -/
  scheds : List SchedRun
  /-- engines (256; 01 R12; reset idle) -/
  eng : Vector Engine 256
  /-- inkwell tiles in HBM and hub SRAM, key ((gen·64 + pool)·2 + bank)·2^32 + job (05 R122; reset none) -/
  tiles : Tab Tile
  /-- segments, key ((gen·64 + pool)·2 + bank)·2^32 + first job (05 R132; reset none) -/
  segs : Tab Segment
  /-- updates whose spill request waits (05 R127; reset none) -/
  updating : List Updating
  /-- spill entries in use (20 bits; 05 R127; reset 0) -/
  spillUsed : Nat
  /-- spill entries released but grantable only from a deadline on (05 R127; reset none) -/
  spillHeld : List HeldSpill
  /-- the last spill grant was refused (05 R130; reset 0) -/
  spillRefused : Bool
  /-- blots since the table last granted (05 R130; reset 0) -/
  blotsSince : Nat
  /-- corner-turn batches discarded for want of channel buffer, key plan·2^32 + source·65536 + channel (04 R106; reset 0) -/
  chbufOver : Tab Nat
  /-- dumps read out that wait for their place (05 R135; reset none) -/
  readouts : List Readout
  /-- beam sets by id (256; 06 R152; reset none) -/
  bsets : Tab BeamSet
  /-- taper tables by id (06 R152; reset none) -/
  tapers : Tab (List Nat)
  /-- weight tables by id (256; 06 R153; reset none) -/
  weights : Tab WeightTable
  /-- partial beam sums, key ((gen·64 + pool)·2^48 + stroke)·2^32 + channel position·2^12 + block (06 R158; reset none) -/
  beamAcc : Tab BeamAcc
  /-- finished beam blocks, same key (06 R158; reset none) -/
  beamOut : Tab BeamOut
  /-- next stroke whose beam records are due, key gen·64 + pool (06 R165; reset none) -/
  beamNext : Tab Nat
  /-- position and delay_int of system elements for a plan frame that starts a stroke, key plan·2^64 + frame (06 R156; reset none) -/
  beamGeom : Tab (List ElemGeom)
  /-- source statistics by plan (16; 05 R142; reset none) -/
  stats : Tab SrcStats
  /-- schedules loaded so far (model's own; reset 0, log 2) -/
  nextGen : Nat
  /-- token stalls, key (gen·64 + pool)·256 + engine (05 R133; reset 0) -/
  stalls : Tab Nat
  /-- engine-strokes that a fence makes run again: engine, schedule, run and the last position (17 Table 17-7; reset none) -/
  reruns : List (Nat × Nat × Nat × Nat × Nat)
  /-- weights and samples lost to poisoned words, by pool (14 R363; reset 0) -/
  poisonCnt : Tab Nat
  deriving DecidableEq, Repr

def CorrState.reset : CorrState where
  scheds := []
  eng := Vector.replicate 256 Engine.reset
  tiles := []
  segs := []
  updating := []
  spillUsed := 0
  spillHeld := []
  spillRefused := false
  blotsSince := 0
  chbufOver := []
  readouts := []
  bsets := []
  tapers := []
  weights := []
  beamAcc := []
  beamOut := []
  beamNext := []
  beamGeom := []
  stats := []
  nextGen := 0
  stalls := []
  reruns := []
  poisonCnt := []

end Sys2Proof.Machine
end

