-- ==== Sys2Proof/Machine/StGlint.lean ====
section
/-!
DEFINITION. State of the glint path (07_glint_path.md): set-up, histories, beams, detectors, events, responses, captures.
-/
namespace Sys2Proof.Machine

/-- The glint set-up block (Table 07-1). -/
structure GlintCfg where
  rate : Nat
  window : Nat
  hold : Nat
  histLog2 : Nat
  pinMode : Nat
  deriving DecidableEq, Repr

/-- A glint beam entry (Table 07-2). -/
structure GlintBeam where
  f : P3
  speed : Nat
  radius : Nat
  gtol : Nat
  gshift : Nat
  deriving DecidableEq, Repr

/-- Detector parameters of a beam (Table 07-3). -/
structure DetPar where
  kinds : Nat
  a : Nat
  l : Nat
  onRatio : Nat
  offRatio : Nat
  cOn : Nat
  cWin : Nat
  floor_ : Nat
  absOn : Nat
  absOff : Nat
  /-- CRC-32C of the descriptor, for the configuration digest (R440) -/
  crc : Nat
  deriving DecidableEq, Repr

/-- Detector state of a beam (R178). -/
structure DetSt where
  sta : Nat
  lta : Nat
  n : Nat
  onSta : Bool
  onAbs : Bool
  deriving DecidableEq, Repr

def DetSt.start : DetSt := ⟨0, 0, 0, false, false⟩

/-- States of an open glint event (Table 07-4). -/
inductive EvSt where
  | declared
  | provisional
  | confirmed
  deriving DecidableEq, Repr

/-- An open event of a detector (R180 to R184). -/
structure GlintEvent where
  id : Nat
  st : EvSt
  beam : Nat
  /-- index of beam sample md, and of its newest counted sample -/
  md : Nat
  m : Nat
  /-- stamp of md (R176) -/
  stamp : Nat
  /-- instant of the declaration -/
  at_ : Nat
  /-- time word of the declaration -/
  tw : Nat
  counted : Nat
  countedOn : Nat
  peak : Nat
  flags : Nat
  gmax : Nat
  /-- the elements of its beam at md, their input rate and the origin of their timeline (R194) -/
  elems : List Nat
  rate : Nat
  org : Nat
  /-- arrival of the triggering frame of its declaration, and of its newest counted sample (R185) -/
  declArr : Nat
  arr : Nat
  /-- the Lightbox markers it has set: layer, and ms they stay after the closing publication (R191) -/
  marks : Tab Nat
  deriving DecidableEq, Repr

/-- One detector: declaration sequence, DROPPED count, open event, and until when it is blanked by which entries. -/
structure Detector where
  seq : Nat
  dropped : Nat
  ev : Option GlintEvent
  deriving DecidableEq, Repr

def Detector.start : Detector := ⟨0, 0, none⟩

/-- A beam of the glint path. -/
structure BeamRun where
  /-- parameters in effect (07 R177; none until a glint detector command) -/
  par : Option DetPar
  /-- parameters pending with their output index -/
  pend : List (Nat × DetPar)
  det : DetSt
  /-- saturations of the beam sample (07 R175) -/
  sat : Nat
  /-- glint delay steps (07 R173) -/
  steps : Nat
  /-- checkpoints of its detectors at each 64th counted sample, newest first, at most 16: output index and state (17 Table 17-4) -/
  marks : List (Nat × DetSt)
  /-- from which sample index it has counted under which parameters and blanking of its two detectors, newest first, back to the oldest
  checkpoint (17 Table 17-4) -/
  conds : List (Nat × DetPar × Bool × Bool)
  deriving DecidableEq, Repr

def BeamRun.start : BeamRun := ⟨none, [], DetSt.start, 0, 0, [], []⟩

/-- A publication as it was made (R445, R449, R451): bytes 4 to 31 of its event, the instant, and the beam samples of its declaration and
of its newest counted sample. -/
structure GlintPub where
  body : Bytes
  at_ : Nat
  md : Nat
  m : Nat
  deriving DecidableEq, Repr

/-- A response entry (Table 07-7). -/
structure Response where
  firstBeam : Nat
  beams : Nat
  kinds : Nat
  pins : Nat
  actions : Nat
  layer : Nat
  txProg : Nat
  markerHold : Nat
  txDelay : Nat
  blank : Nat
  pre : Nat
  post : Nat
  deriving DecidableEq, Repr

/-- An open capture pin (R194, R195). -/
structure Pin where
  event : Nat
  beam : Nat
  elems : List Nat
  /-- first and last input index -/
  first : Nat
  last : Nat
  rate : Nat
  tFirst : Nat
  /-- time sets before it was taken (11 R275) -/
  era : Nat
  overrun : Bool
  provisional : Bool
  /-- uncopied samples overwritten: element, first, last (R196) -/
  yields : List (Nat × Nat × Nat)
  deriving DecidableEq, Repr

/-- Blanking by a response entry as it stood when it called for the start (R193): while the start runs, then until an instant. -/
structure Blank where
  entry : Nat
  resp : Response
  until_ : Option Nat
  deriving DecidableEq, Repr

/-- The history of one tapped element (R169, R170): words by output index. -/
structure History where
  words : Tab CondWord
  /-- next output index that is neither present nor declared a gap -/
  next : Nat
  /-- gaps declared because the output was not present when due -/
  late : Nat
  /-- outputs discarded because they came after their due instant -/
  discarded : Nat
  /-- outputs of blocks the path could not accept -/
  pathGaps : Nat
  deriving DecidableEq, Repr

structure GlintState where
  /-- the set-up block in effect (16 B; 07 R168; reset none) -/
  cfg : Option GlintCfg
  /-- glint histories by device-local element (4,096; 07 R169; reset none) -/
  hist : Tab History
  /-- loaded beam sets by id (256; 07 R171; reset none) -/
  sets : Tab (List GlintBeam)
  /-- the set in effect (07 R174; reset none) -/
  set_ : Option Nat
  /-- a pending switch: set and output index (07 R174; reset none) -/
  switch : Option (Nat × Nat)
  /-- sample-index origin of the last group with tapped elements that stopped (time word; 02 R510; reset none) -/
  org : Option Nat
  /-- next beam sample index m (07 R175; reset 0, log 3) -/
  m : Nat
  /-- beams (256; 07 R175; reset start state) -/
  beams : Vector BeamRun 256
  /-- detectors (512; 07 R182; reset start state) -/
  dets : Vector Detector 512
  /-- response entries (64; 07 Table 07-7; reset none) -/
  resp : List Response
  /-- latched pins (4 bits; 07 R188; reset 0) -/
  latch : BitVec 4
  /-- blanking in force (07 R193; reset none) -/
  blanks : List Blank
  /-- open pins, by pin id (16; 07 R195; reset none) -/
  pins : Tab Pin
  /-- captures refused (07 R195; reset 0) -/
  refused : Nat
  /-- id of the next pin (model's own; reset 0, log 2) -/
  nextPin : Nat
  /-- delays last computed, to count delay steps (07 R173; reset none) -/
  delays : Tab (List (Nat × Int))
  /-- publications made in a switch-over gap, which the trigger outlets carry at its end (28 B each; 17 Table 17-6; reset none) -/
  gapPubs : List (Option Nat × Bytes)
  /-- the last publication of each event of the last 4 s: event id, bytes 4 to 31, instant (17 R449, R451; model's own; reset none, log 2) -/
  recent : Tab GlintPub
  deriving DecidableEq, Repr

def GlintState.reset : GlintState where
  cfg := none
  hist := []
  sets := []
  set_ := none
  org := none
  switch := none
  m := 0
  beams := Vector.replicate 256 BeamRun.start
  dets := Vector.replicate 512 Detector.start
  resp := []
  latch := 0
  blanks := []
  pins := []
  refused := 0
  nextPin := 0
  delays := []
  gapPubs := []
  recent := []

end Sys2Proof.Machine
end

