-- ==== Sys2Proof/Machine/StHbm.lean ====
section
/-!
DEFINITION. State of the HBM controller (14_memory.md). What the regions hold stands with the block that owns it.
-/
namespace Sys2Proof.Machine

/-- State of a pair (Table 14-3). -/
inductive PairSt where
  | opened
  | applied
  | discarded
  deriving DecidableEq, Repr

/-- One entry of the pair table (R355). -/
structure PairEntry where
  kind : PairKind
  escape : Bool
  stack : Nat
  /-- the half that arrived first, held until the pair is decided -/
  first : Bytes
  firstSecond : Bool
  /-- arrival of the first half -/
  at_ : Nat
  st : PairSt
  deriving DecidableEq, Repr

/-- A pair that was applied: what the controller executed, in address order (R355, R400). -/
structure PairDone where
  tag : Nat
  kind : PairKind
  bursts : List Bytes
  deriving DecidableEq, Repr

/-- Resource class of a request (Tables 14-2, 01-9). -/
inductive HbmClass where
  | escape
  | rank3
  | outside
  | reads
  deriving DecidableEq, Repr

/-- A request at a pseudo-channel (R350): its port (row of Table 14-2), its class, the address of its first 32-byte word and its arrival. -/
structure HbmReq where
  port : Nat
  cls : HbmClass
  addr : Nat
  at_ : Nat
  deriving DecidableEq, Repr

/-- A pseudo-channel's queues (R352, R353, R360). -/
structure PcQueue where
  /-- requests in the command queue, oldest first (64; 14 R353; reset none) -/
  cmd : List HbmReq
  /-- commands issued whose alert window has not passed: the retry buffer, in the order of issue (32; 14 R353, R360; reset none) -/
  held : List HbmReq
  /-- requests that wait in the front end for an entry, oldest first (14 R353; reset none) -/
  waiting : List HbmReq
  /-- the open row of each bank (14 R352; reset none, log 96) -/
  rows : Tab Nat
  deriving DecidableEq, Repr

def PcQueue.reset : PcQueue := ⟨[], [], [], []⟩

/-- Counters of one stack (R367). -/
structure StackCnt where
  corr : Nat
  uncorr : Nat
  replay : Nat
  pairDisc : Nat
  deriving DecidableEq, Repr

structure HbmState where
  /-- HBM.RSV_A (32 bits; 14 Table 14-7; reset 0x00801840) -/
  rsvA : Reg
  /-- HBM.RSV_B (32 bits; 14 Table 14-8; reset 0x00040804) -/
  rsvB : Reg
  /-- HBM.CTL.SCRUB_EN and SCRUB_HOURS (32 bits; 14 Table 14-9; reset 0x62) -/
  ctl : Reg
  /-- the layout in effect, RSV_A (32 bits; 14 R346; reset 0x00801840) -/
  layA : Reg
  /-- the layout in effect, RSV_B (32 bits; 14 R346; reset 0x00040804) -/
  layB : Reg
  /-- STAT.LAYOUT_ERR (1 bit w1c; 14 R346; reset 0) -/
  layoutErr : Bool
  /-- STAT.TRAINED (4 bits; 14 Table 14-10; reset 0) -/
  trained : BitVec 4
  /-- HBM training has ended since PORST_N (1 bit; 18 R475; reset 0) -/
  trainDone : Bool
  /-- last temperature of each stack in °C, `none` not yet read (4 x 8 bits; 14 R367; reset 0x80) -/
  temps : Vector (Option Int) 4
  /-- failed reads in a row, per stack (14 R358; reset 0) -/
  readFails : Vector Nat 4
  /-- STAT.HOT, per stack (4 bits; 14 R358; reset 0, while the interval is halved for want of a read: see log 40) -/
  hot : Vector Bool 4
  /-- CH_FAIL (64 bits; 14 R361; reset 0) -/
  chFail : BitVec 64
  /-- CH_FAIL_HI as latched by a read of CH_FAIL_LO (32 bits; 19 R482; reset none) -/
  chFailHi : Option Reg
  /-- ECC_CORR, ECC_UNCORR, REPLAY, PAIR_DISC per stack (4 x 4 x 32 bits, saturating; 14 R367; reset 0) -/
  cnt : Vector StackCnt 4
  /-- replays in a row of an alert that recurs, per channel (14 R360; reset 0) -/
  replays : Tab Nat
  /-- the instant of the last replay, per channel (14 R359; reset none) -/
  replayAt : Tab Nat
  /-- the instant of the last refresh, per pseudo-channel (128; 14 R358; reset none) -/
  refreshAt : Tab Nat
  /-- the bank that the last per-bank refresh of a pseudo-channel went to (128; 14 R359; reset none) -/
  refreshBank : Tab Nat
  /-- the instant of the last temperature read, per stack (4; 14 R358; reset none) -/
  tempAt : Tab Nat
  /-- all refreshes so far that went per bank (14 R359; model's own; reset 0, log 2) -/
  perBank : Nat
  /-- the pair table, by tag (256; 14 R355; reset empty) -/
  pairs : Tab PairEntry
  /-- halves that wait for an entry or for their tile, each with its arrival, oldest first (14 R355, R356; reset none) -/
  waiting : List (Nat × PairHalf)
  /-- the last answer to a query: the tag, and the state of its entry if it has one (14 R357; model's own output; reset none, log 2) -/
  answer : Option (Nat × Option PairSt)
  /-- discarded pairs that their requesters have still to issue again under a new tag: the old tag and the kind (14 R357; reset none) -/
  reissue : List (Nat × PairKind)
  /-- command queues, retry buffers and open rows, by pseudo-channel; an unlisted one is empty (128; 14 R353; reset empty) -/
  queues : Tab PcQueue
  /-- pairs applied, in order (model's own output; reset none, log 2) -/
  done : List PairDone
  /-- words delivered corrected that the scrubber has still to rewrite, by word index (14 R362; reset none) -/
  soft : List Nat
  /-- poisoned words by word index (14 R363; reset none) -/
  poisoned : List Nat
  /-- words the scrubber left for later in its pass (14 R364; reset none) -/
  skipped : List Nat
  /-- when the scrubber's pass began (14 R364; reset 0) -/
  scrubAt : Nat
  /-- the next word of the pass (14 R364; reset 0) -/
  scrubNext : Nat
  deriving DecidableEq, Repr

def HbmState.reset : HbmState where
  rsvA := 0x00801840
  rsvB := 0x00040804
  ctl := 0x62
  layA := 0x00801840
  layB := 0x00040804
  layoutErr := false
  trained := 0
  trainDone := false
  temps := Vector.replicate 4 none
  readFails := Vector.replicate 4 0
  hot := Vector.replicate 4 false
  chFail := 0
  chFailHi := none
  cnt := Vector.replicate 4 ⟨0, 0, 0, 0⟩
  replays := []
  replayAt := []
  refreshAt := []
  refreshBank := []
  tempAt := []
  perBank := 0
  pairs := []
  waiting := []
  answer := none
  reissue := []
  queues := []
  done := []
  soft := []
  poisoned := []
  skipped := []
  scrubAt := 0
  scrubNext := 0

end Sys2Proof.Machine
end

