-- ==== Sys2Proof/Machine/StHost.lean ====
section
/-!
DEFINITION. State of the host interface (15_host_interface.md): set-up registers, rings and indices, commands in flight,
events, product bindings, product staging and outlets, DMA write jobs, source rings, interrupts.
Each field's docstring ends with its width, the rule that names it and its reset value.
-/
namespace Sys2Proof.Machine

/-- One write of the device into host memory: the address of its first byte and the bytes (R373 to R402). -/
structure HostWrite where
  addr : Nat
  bytes : Bytes
  deriving DecidableEq, Repr

/-- The doorbell values of the latest poll that completed (Table 15-2). -/
structure Doorbell where
  /-- command ring producer index (32 bits; R372; reset 0, log 3) -/
  cmdProd : BitVec 32
  /-- completion ring consumer index (32 bits; R372; reset 0, log 3) -/
  cplCons : BitVec 32
  /-- event ring consumer index (32 bits; R372; reset 0, log 3) -/
  evtCons : BitVec 32
  /-- consumer byte offset of each product ring (64 x 64 bits; R372; reset 0, log 3) -/
  prodCons : Vector (BitVec 64) 64
  /-- producer byte offset of each source ring (32 x 64 bits; R372; reset 0, log 3) -/
  srcProd : Vector (BitVec 64) 32
  deriving DecidableEq, Repr

/-- A completion before it is written (Table 15-6). -/
structure Compl where
  tag : BitVec 32
  opcode : BitVec 16
  status : Nat
  info : Nat
  index : BitVec 32
  /-- the result block due before it, with its host address (R381) -/
  result : Option HostWrite
  /-- the instant at which the command completed -/
  at_ : Nat
  deriving DecidableEq, Repr

/-- An event before it is given its sequence number (R385): its code and bytes 4 to 31. -/
structure Ev where
  code : Nat
  body : Bytes
  /-- the instant at which it was posted -/
  at_ : Nat
  deriving DecidableEq, Repr

/-- What work a deferred command still does (Table 15-5). -/
inductive Work where
  | transmit (start : Nat)
  | echo (start : Nat)
  | fence (engine : Nat)
  | twinRole
  deriving DecidableEq, Repr

/-- A command whose completion is still due: its descriptor, its work, and status and info once the work has ended. -/
structure Deferred where
  desc : Desc
  work : Work
  ended : Option (Nat × Nat)
  deriving DecidableEq, Repr

/-- A product binding (Table 15-11). -/
structure Binding where
  /-- product class, 0 to 9 -/
  cls : Nat
  /-- source: pool, plan, sink or window -/
  source : Nat
  /-- product ring, 0xFF none -/
  ring : Nat
  /-- product or map quad, 0xFF none -/
  quad : Nat
  /-- dump payload format (Table 05-10) -/
  format : Nat
  /-- dump float scale -/
  fscale : Nat
  /-- sequence of the next record (u64) -/
  seq : Nat
  /-- the replacement that takes over at the source's next record; `none` inside means unbound (R391) -/
  replacement : Option (Option (Nat × Nat × Nat × Nat × Nat))
  deriving DecidableEq, Repr

/-- A formed record in product staging (R28, R392): everything but the trailer. -/
structure Staged where
  binding : Nat
  kind : Nat
  seq : Nat
  time : Nat
  /-- the instant at which it was formed -/
  at_ : Nat
  /-- header and body -/
  bytes : Bytes
  /-- the span of instants whose samples fed it, as time words (R275, R458) -/
  spanLo : Nat
  spanHi : Nat
  /-- trust bit 0 so far (R363, R458) -/
  untrusted : Bool
  /-- outlets that have neither taken nor dropped it -/
  outlets : List Outlet
  deriving DecidableEq, Repr

/-- The pending loss record of an outlet (R28, Table 15-12). -/
structure Loss where
  binding : Nat
  dropped : Nat
  causes : Nat
  firstSeq : Nat
  lastSeq : Nat
  firstTime : Nat
  bindings : List Nat
  deriving DecidableEq, Repr

/-- What an outlet is writing. -/
inductive Taking where
  | record (id : Nat)
  | loss (l : Loss)
  | pad
  deriving DecidableEq, Repr

/-- The key under which an outlet keeps the failures of what it takes. -/
def Taking.key : Taking → Nat
  | .record id => id + 1
  | _ => 0

/-- How far the write of a record into a product ring has come (R388). -/
inductive Phase where
  | body
  | bodyConfirmed
  | trailer
  deriving DecidableEq, Repr

/-- The record an outlet is writing. -/
structure Active where
  what : Taking
  phase : Phase
  /-- header and body as written -/
  bytes : Bytes
  /-- free-running ring offset -/
  offset : Nat
  fails : Nat
  resent : Bool
  /-- the agreement code of its trailer -/
  agree : Nat
  deriving DecidableEq, Repr

/-- A fetched command that waits for its turn (R380, R382, R403): its descriptor, its data, and the cause when one of them could not be
read. -/
structure Held where
  desc : Desc
  data : Bytes
  failed : Option Nat
  deriving DecidableEq, Repr

/-- One outlet: the records waiting in order, its pending loss record, what it is writing. -/
structure OutletState where
  queue : List Nat
  loss : Option Loss
  active : Option Active
  /-- segment count of each binding on a quad, u32 (R317) -/
  fseq : Tab Nat
  /-- the record that a pad has been written for (R390) -/
  pinned : Option Nat
  /-- failures of the records that were abandoned after one, 0 the loss record, otherwise by record id plus 1 (R402) -/
  failed : Tab Nat
  deriving DecidableEq, Repr

def OutletState.reset : OutletState := ⟨[], none, none, [], none, []⟩

/-- What a DMA write job carries (R401). -/
inductive JobKind where
  | completions (last : BitVec 32)
  | events (last : BitVec 32) (glint : Bool)
  | result (c : Compl)
  | body (o : Outlet)
  | trailer (o : Outlet)
  | status
  deriving DecidableEq, Repr

/-- An item that becomes visible with the status block that publishes it (R404, Table 16-8 kind 4): the vector it is signalled to,
the ring it is measured on, and the instant at which it was complete. -/
structure Item where
  vec : Option Nat
  ring : Nat
  at_ : Nat
  deriving DecidableEq, Repr

/-- A DMA write job awaiting its read-back. -/
structure WriteJob where
  kind : JobKind
  writes : List HostWrite
  fails : Nat
  /-- the items the host can see once this job is confirmed (R404) -/
  items : List Item
  deriving DecidableEq, Repr

/-- A source ring (R395, R396): the samples read so far, by sample index. -/
structure SrcRing where
  /-- samples present, s16, by index -/
  samples : Tab Int
  /-- bytes read from the host so far (u64) -/
  read : Nat
  /-- byte offset from which the samples count: src_cons when RING_CFG.EN was last set (u64) -/
  base : Nat
  deriving DecidableEq, Repr

/-- Interrupt moderation of one vector (R404). -/
structure Msix where
  /-- unsignalled items -/
  items : Nat
  /-- when the first unsignalled item became visible -/
  since : Option Nat
  /-- interrupts sent so far (the model's own output count) -/
  fired : Nat
  deriving DecidableEq, Repr

/-- The settings of configuration space that a PCIe reset leaves (PRESUMED from PCIe, log entry 131): no bus mastering, payloads of 128 B, read
requests of 512 B. -/
def pciReset : PciSettings := ⟨false, 0, 2⟩

structure HostState where
  /-- HOSTIF.CTL (32 bits; 15 Table 15-13; reset 0x0) -/
  ctl : Reg
  /-- HOSTIF.POLL (32 bits; 15 Table 15-15; reset 0x4) -/
  poll : Reg
  /-- HOSTIF.DB_BASE_LO (32 bits; 15 R405; reset 0) -/
  dbLo : Reg
  /-- HOSTIF.DB_BASE_HI (32 bits; 15 R405; reset 0) -/
  dbHi : Reg
  /-- HOSTIF.SB_BASE_LO (32 bits; 15 R405; reset 0) -/
  sbLo : Reg
  /-- HOSTIF.SB_BASE_HI (32 bits; 15 R405; reset 0) -/
  sbHi : Reg
  /-- HOSTIF.RING_BASE_LOr (99 x 32 bits; 15 R405; reset 0) -/
  ringLo : Vector Reg 99
  /-- HOSTIF.RING_BASE_HIr (99 x 32 bits; 15 R405; reset 0) -/
  ringHi : Vector Reg 99
  /-- HOSTIF.RING_CFGr (99 x 32 bits; 15 Table 15-16; reset 0x4000) -/
  ringCfg : Vector Reg 99
  /-- HOSTIF.MSIX_MODv (64 x 32 bits; 15 Table 15-17; reset 0x1) -/
  msixMod : Vector Reg 64
  /-- HOSTIF.DMA_CHc (32 x 32 bits; 15 Table 15-18; reset 0x900) -/
  dmaCh : Vector Reg 32
  /-- HOSTIF.QUAD_QUOTAk (4 x 32 bits; 15 R405; reset 0) -/
  quadQuota : Vector Reg 4
  /-- MSI-X table (64 entries x 4 words; 15 Table 15-1; reset as PCIe: masked, log 3) -/
  msixTable : Vector Reg 256
  /-- MSI-X pending-bit array (64 bits; 15 Table 15-1; reset 0, as PCIe) -/
  msixPba : BitVec 64
  /-- STAT.CFG_ERR (1 bit w1c; 15 Table 15-14; reset 0) -/
  cfgErr : Bool
  /-- STAT.PERST_SEEN (1 bit w1c; 15 Table 15-14; reset 0) -/
  perstSeen : Bool
  /-- STAT.GEN, the PCIe generation trained, 0 link down (3 bits; 15 Table 15-14; reset 0) -/
  gen : Nat
  /-- STAT.WIDTH, lanes trained (5 bits; 15 Table 15-14; reset 0) -/
  width : Nat
  /-- STAT.SLOW (1 bit; 15 R369; reset 0) -/
  slow : Bool
  /-- what the host has set in configuration space (Bus Master Enable 1 bit, 2 codes of 3 bits; 15 Table 15-1; reset as PCIe: 0, 0 and 2, log 131) -/
  pci : PciSettings
  /-- AER uncorrectable error status (32 bits; 15 Table 15-1; reset 0, as PCIe, log 131) -/
  aer : BitVec 32
  /-- the instant of the last poll since polling began (15 R373; reset none) -/
  pollAt : Option Nat
  /-- polling and DMA are in progress, STAT.RUNNING (1 bit; 15 R371; reset 0) -/
  running : Bool
  /-- the doorbell values of the latest poll (15 R373) -/
  db : Doorbell
  /-- command ring consumer index (32 bits; 15 R380; reset 0, log 3) -/
  cmdCons : BitVec 32
  /-- completion ring producer index (32 bits; 15 R377; reset 0, log 3) -/
  cplProd : BitVec 32
  /-- event ring producer index (32 bits; 15 R377; reset 0, log 3) -/
  evtProd : BitVec 32
  /-- producer byte offset of each product ring, past confirmed trailers (64 x 64 bits; 15 R388; reset 0, log 3) -/
  prodProd : Vector (BitVec 64) 64
  /-- consumer byte offset of each source ring (32 x 64 bits; 15 R395; reset 0, log 3) -/
  srcCons : Vector (BitVec 64) 32
  /-- status block write count (64 bits; 15 Table 15-3; reset 0, log 3) -/
  sbSeq : BitVec 64
  /-- instant of the last status block rewrite (15 R374; reset 0, log 3) -/
  sbAt : Nat
  /-- status block fields as last written, bytes 16 to 831 (15 R374; reset none) -/
  sbLast : Bytes
  /-- fetched commands that have not started (15 R380, R382; reset none) -/
  held : List Held
  /-- commands whose completion is still due (15 R381; reset none) -/
  deferred : List Deferred
  /-- completions that wait for their turn, their result block or room (15 R381, R382; reset none) -/
  owed : List Compl
  /-- sequence number of the next event entry (16 bits; 15 R385; reset 0, log 3) -/
  evSeq : BitVec 16
  /-- events queued in hub SRAM, at most 4,096 (15 R386; reset none) -/
  evQueue : List Ev
  /-- events dropped since the queue filled (32 bits; 15 R386; reset 0) -/
  evLost : Nat
  /-- product bindings by binding id (256; 15 R391; reset none) -/
  bindings : Tab Binding
  /-- records not formed for want of a binding, per source class (15 R391; reset 0) -/
  unbound : Tab Nat
  /-- records in product staging, by the order in which they were formed (15 R392; reset none) -/
  staged : Tab Staged
  /-- records formed so far: the id of the next staged record (model's own; reset 0, log 2) -/
  nextRec : Nat
  /-- outlets: key r for product ring r, 64 + q for quad q (80; 15 R392; reset idle) -/
  outlets : Tab OutletState
  /-- DMA write jobs awaiting their read-back, by job id (15 R401; reset none) -/
  jobs : Tab WriteJob
  /-- id of the next write job (model's own; reset 0, log 2) -/
  nextJob : Nat
  /-- source rings (32; 15 R395; reset empty) -/
  src : Vector SrcRing 32
  /-- confirmed records whose producer offset no status block has carried yet (15 R404; reset none) -/
  unpub : List Item
  /-- R371 stopped polling and EN has not been written since (1 bit; 15 R371; reset 0) -/
  stopped : Bool
  /-- polls that moved cmd_prod: the producer index seen and the instant, newest first (16 Table 16-8 kind 4; reset none) -/
  polls : List (BitVec 32 × Nat)
  /-- the instant of the first poll that saw an unread sample of each source ring (16 Table 16-8 kind 4; reset none) -/
  srcSeen : Tab Nat
  /-- ring that a DMA channel served last (32 x 7 bits; 15 R397; reset none, log 112) -/
  dmaLast : Tab Nat
  /-- instant from which a DMA channel may start its next burst (32; 15 R398; reset 0, log 112) -/
  dmaNext : Tab Nat
  /-- MSI-X moderation (64; 15 R404; reset idle) -/
  msix : Vector Msix 64
  /-- untrusted cause bits (4 bits; 15 R376; reset 0) -/
  untrusted : BitVec 4
  deriving DecidableEq, Repr

def HostState.reset : HostState where
  ctl := 0
  poll := 4
  dbLo := 0
  dbHi := 0
  sbLo := 0
  sbHi := 0
  ringLo := Vector.replicate 99 0
  ringHi := Vector.replicate 99 0
  ringCfg := Vector.replicate 99 0x4000
  msixMod := Vector.replicate 64 1
  dmaCh := Vector.replicate 32 0x900
  quadQuota := Vector.replicate 4 0
  msixTable := Vector.ofFn (fun i => if i.val % 4 = 3 then 1 else 0)
  msixPba := 0
  cfgErr := false
  perstSeen := false
  gen := 0
  width := 0
  slow := false
  pci := pciReset
  aer := 0
  pollAt := none
  running := false
  db := ⟨0, 0, 0, Vector.replicate 64 0, Vector.replicate 32 0⟩
  cmdCons := 0
  cplProd := 0
  evtProd := 0
  prodProd := Vector.replicate 64 0
  srcCons := Vector.replicate 32 0
  sbSeq := 0
  sbAt := 0
  sbLast := []
  held := []
  deferred := []
  owed := []
  evSeq := 0
  evQueue := []
  evLost := 0
  bindings := []
  unbound := []
  staged := []
  nextRec := 0
  outlets := []
  jobs := []
  nextJob := 0
  src := Vector.replicate 32 ⟨[], 0, 0⟩
  unpub := []
  stopped := false
  polls := []
  srcSeen := []
  dmaLast := []
  dmaNext := []
  msix := Vector.replicate 64 ⟨0, none, 0⟩
  untrusted := 0

end Sys2Proof.Machine
end

