-- ==== Sys2Proof/Machine/StLane.lean ====
section
/-!
DEFINITION. State of the serial lanes and quads (12_lanes.md) and of the Ommerlink link protocol (13_link_frames.md).
-/
namespace Sys2Proof.Machine

/-- Power state of a quad direction, coded as QUAD_STAT.TXS (Table 12-4, Table 12-7). -/
inductive Pwr where
  | active
  | doze
  | sleep
  | waking
  deriving DecidableEq, Repr

/-- The code of QUAD_STAT.TXS. -/
def Pwr.code : Pwr → Nat
  | .active => 0
  | .doze => 1
  | .sleep => 2
  | .waking => 3

/-- What the device puts on a lane quad: a frame, a link-control block, the idle blocks that lead a wake (a number for each lane,
R341), or an alignment marker set after a wake. -/
inductive LaneOut where
  | frame (f : RawFrame)
  | block (payload : BitVec 64)
  | idle (perLane : Nat)
  | markerSet (count : BitVec 32)
  deriving DecidableEq, Repr

/-- A 66-bit block (R287): the sync header with its bits in transmission order, bit 0 first, and the payload before scrambling. A data
block has header 0b10 (bits 0 then 1), a control block 0b01 (bits 1 then 0); 0b00 and 0b11 are invalid. -/
structure Blk where
  hdr : BitVec 2
  payload : BitVec 64
  deriving DecidableEq, Repr

/-- The transmit clock boundary of a quad (R287, R288, R290). -/
structure Coder where
  /-- blocks laid since the last marker set, over all lanes (12 R288; reset 0, log 92) -/
  pos : Nat
  /-- sequence of the next marker set (32 bits; 12 R288; reset 0, log 92) -/
  marker : BitVec 32
  /-- items sent so far: it names the idle gap before the next one (model's own; reset 0, log 2) -/
  items : Nat
  /-- scrambler of each lane, newest bit lowest (4 x 58 bits; 12 R287; reset 0, log 92) -/
  scr : Vector Nat 4
  deriving DecidableEq, Repr

def Coder.reset : Coder := ⟨0, 0, 0, Vector.replicate 4 0⟩

/-- The block receiver of a lane (R287, R291, R292). -/
structure BlockRx where
  /-- bits of the block under way, first bit lowest, and their number (12 R291; reset none, log 3) -/
  acc : Nat
  have_ : Nat
  /-- bits to pass over, as the candidate boundary moves (12 R291; reset 0, log 3) -/
  slip : Nat
  /-- valid headers in a row while hunting (12 R291; reset 0, log 3) -/
  hunt : Nat
  /-- headers and invalid headers of the group under way while in lock (12 R292; reset 0, log 3) -/
  grpN : Nat
  grpBad : Nat
  /-- descrambler, newest bit lowest (58 bits; 12 R287; reset 0, log 92) -/
  descr : Nat
  /-- the next descrambled block is the first after lock and is discarded (12 R287; reset 0, log 3) -/
  skip : Bool
  /-- descrambled blocks that wait for their turn in the stripe, oldest first, each with the time word at which its first bit reached the
  pins (12 R289, R290, 13 R320; reset none, log 3) -/
  fifo : List (Nat × Blk)
  deriving DecidableEq, Repr

def BlockRx.reset : BlockRx := ⟨0, 0, 0, 0, 0, 0, 0, false, []⟩

/-- The pattern checker of a lane (R297). -/
structure Checker where
  /-- shift register, newest bit lowest (31 bits; 12 R297; reset 0, log 3) -/
  reg : Nat
  /-- bits loaded since it began to load, and matching bits in a row (12 R297; reset 0, log 3) -/
  loaded : Nat
  run : Nat
  /-- bits and mismatches of the group under way while in lock (12 R297; reset 0, log 3) -/
  grpN : Nat
  grpBad : Nat
  deriving DecidableEq, Repr

def Checker.reset : Checker := ⟨0, 0, 0, 0, 0⟩

/-- What a lane of a role 0 quad sends: its pattern generator, and its own stream of idle blocks and markers (R288, R290, R296). -/
structure LaneTx where
  /-- generator register, newest bit lowest (31 bits; 12 R296; reset all ones, log 92) -/
  gen : Nat
  /-- bits that ERR_INJ has still to invert (12 R296; reset 0, log 3) -/
  inject : Nat
  /-- bits of the block under way that have not been sent (12 R287; reset none, log 3) -/
  rest : List Bool
  /-- blocks since the last marker, sequence of the next marker, scrambler (12 R287, R288; reset 0, log 92) -/
  pos : Nat
  marker : BitVec 32
  scr : Nat
  deriving DecidableEq, Repr

def LaneTx.reset : LaneTx := ⟨2 ^ 31 - 1, 0, [], 0, 0, 0⟩

structure LaneState where
  /-- LANE_EQ (32 bits; 12 Table 12-9; reset 0x1000) -/
  eq : Reg
  /-- LANE_TEST (32 bits; 12 Table 12-10; reset 0) -/
  test : Reg
  /-- LANE_STAT.SIG (1 bit; 12 Table 12-11; reset 0) -/
  sig : Bool
  /-- LANE_STAT.CDR (1 bit; 12 Table 12-11; reset 0) -/
  cdr : Bool
  /-- LANE_STAT.BLOCK_LOCK (1 bit; 12 R291; reset 0) -/
  lock : Bool
  /-- LANE_STAT.PRBS_LOCK (1 bit; 12 R297; reset 0) -/
  prbsLock : Bool
  /-- LANE_STAT.FAULT (1 bit; 12 R294; reset 0) -/
  fault : Bool
  /-- receive adaptation is running (1 bit; 12 R294; reset 0) -/
  adapting : Bool
  /-- retrains in a row without block lock (12 R294; reset 0) -/
  retrains : Nat
  /-- the instant since which the lane has been out of lock, or of its last retrain (12 R294; reset 0, log 3) -/
  outSince : Nat
  /-- bits inverted by ERR_INJ so far (12 R296; model's own; reset 0, log 2) -/
  injected : Nat
  /-- HDR_ERR (32 bits, saturating; 12 R299; reset 0) -/
  hdrErr : Nat
  /-- LOCK_LOSS (32 bits, saturating; 12 R305; reset 0) -/
  lockLoss : Nat
  /-- RETRAIN (32 bits, saturating; 12 R299; reset 0) -/
  retrain : Nat
  /-- PRBS_ERR (32 bits, saturating; 12 R299; reset 0) -/
  prbsErr : Nat
  /-- receive equaliser settings: 0 the start values, else the free value that stands for what adaptation found (12 R295; reset 0, log 92) -/
  eqSet : Nat
  /-- block receiver (12 R287, R291, R292; reset empty, log 3) -/
  rx : BlockRx
  /-- pattern checker (12 R297; reset empty, log 3) -/
  chk : Checker
  /-- what the lane sends while its quad's role is 0 (12 R296; reset all ones and empty, log 92) -/
  tx : LaneTx
  deriving DecidableEq, Repr

def LaneState.reset : LaneState :=
  ⟨0x1000, 0, false, false, false, false, false, false, 0, 0, 0, 0, 0, 0, 0, 0, BlockRx.reset, Checker.reset, LaneTx.reset⟩

/-- A frame that waits for window or credit: virtual channel, kind, data area (its seq field still 0). -/
structure TxWait where
  vc : Nat
  kind : Nat
  data : Bytes
  deriving DecidableEq, Repr

/-- A frame under way on a receive direction (R307, R311). -/
structure RxFrame where
  /-- its SOF payload and its data blocks -/
  sof : BitVec 64
  data : List (BitVec 64)
  /-- a block with an invalid header fell inside it -/
  bad : Bool
  /-- the time word at which the first bit of its SOF reached the pins (R320) -/
  at_ : Nat
  deriving DecidableEq, Repr

/-- A frame in the replay buffer (R332, R335). `told`: a late notice has named it. -/
structure Replay where
  seq : Nat
  vc : Nat
  kind : Nat
  data : Bytes
  acked : Bool
  told : Bool
  deriving DecidableEq, Repr

/-- The transmit direction's half of the sleep handshake (R336, R338). -/
structure TxSleep where
  st : Pwr
  token : Nat
  /-- the instant REQ was sent while its answer is awaited -/
  reqAt : Option Nat
  wakeSeen : Bool
  granted : Nat
  sleepAfter : Nat
  since : Nat
  /-- idle since -/
  idleAt : Nat
  deriving DecidableEq, Repr

/-- The receive direction's half (R337, R339). -/
structure RxSleep where
  st : Pwr
  token : Nat
  /-- the instant of the ACK while its COMMIT is awaited -/
  ackAt : Option Nat
  granted : Nat
  sleepAfter : Nat
  since : Nat
  deriving DecidableEq, Repr

structure QuadState where
  /-- QUAD_CFG (32 bits; 12 Table 12-6; reset 0) -/
  cfg : Reg
  /-- SLEEP_CFG (32 bits; 12 Table 12-8; reset 0x00280190) -/
  sleepCfg : Reg
  /-- LINK_CFG (32 bits; 13 Table 13-11; reset 0x64) -/
  linkCfg : Reg
  /-- QUAD_STAT.UP (1 bit; 12 R293; reset 0) -/
  up : Bool
  /-- QUAD_STAT.ALIGNED (1 bit; 12 R289; reset 0) -/
  aligned : Bool
  /-- QUAD_STAT.PLL_LOCK (1 bit; 12 Table 12-7; reset 0) -/
  pll : Bool
  /-- QUAD_STAT.SSC (1 bit; 12 R303; reset 0) -/
  ssc : Bool
  /-- QUAD_STAT.CFG_ERR (1 bit w1c; 12 R284; reset 0) -/
  cfgErr : Bool
  /-- blocks delivered since the quad was aligned: its next block comes from lane `rxK` mod W (12 R289; reset 0, log 3) -/
  rxK : Nat
  /-- the frame under way on the receive direction (13 R307; reset none, log 3) -/
  rxFrame : Option RxFrame
  /-- CRC_ERR (32 bits, saturating; 13 R342; reset 0) -/
  crcErr : Nat
  /-- CTL_ERR (32 bits, saturating; 13 R342; reset 0) -/
  ctlErr : Nat
  /-- REPLAY (32 bits, saturating; 13 R342; reset 0) -/
  replay : Nat
  /-- DUP (32 bits, saturating; 13 R342; reset 0) -/
  dup : Nat
  /-- LATE (32 bits, saturating; 13 R342; reset 0) -/
  late : Nat
  /-- unmatched samples (13 R313; reset 0) -/
  unmatched : Nat
  /-- ACKs outside the window (13 R332; reset 0) -/
  ackStray : Nat
  /-- glint frames lost while the quad was down (07 R190; reset 0) -/
  glintLost : Nat
  /-- glint frames sent, gseq (32 bits; 13 R318; reset 0) -/
  gseq : BitVec 32
  /-- cumulative credits received, per virtual channel (2 x 16 bits; 13 R319, R328, R331; reset 0) -/
  crIn : Vector Nat 2
  /-- credits consumed by frames sent, per virtual channel (2 x 16 bits; 13 R319, R328; reset 0) -/
  crUsed : Vector Nat 2
  /-- cumulative credits granted to the far end, per virtual channel (2 x 16 bits; 13 R328; reset 0) -/
  crOut : Vector Nat 2
  /-- sequence of the next new frame (16 bits; 13 R332; reset 0) -/
  txSeq : Nat
  /-- oldest unacknowledged sequence (16 bits; 13 R332; reset 0) -/
  oldest : Nat
  /-- frames kept for resending (13 R332, R335; reset none) -/
  replayBuf : List Replay
  /-- sequences due to be resent (13 R332; reset none) -/
  resend : List Nat
  /-- new frames that wait for window or credit (13 R332, R331; reset none) -/
  txq : List TxWait
  /-- when an acknowledgement last advanced or the first frame went out (13 R332; reset 0, log 3) -/
  ackAt : Nat
  /-- expected sequence E (16 bits; 13 R333; reset 0) -/
  expect : Nat
  /-- the last NAK sent: its sequence and instant (13 R333; reset none) -/
  nakAt : Option (Nat × Nat)
  /-- the last 64 mesh frames accepted: sequence (13 R334; reset none) -/
  accepted : List Nat
  /-- blocks and frames that wait for the direction to be ACTIVE, with the instant at which each was queued (12 R301, 16 Table 16-8 kind 5; reset none) -/
  held : List (Nat × LaneOut)
  /-- transmit sleep state (13 R336, R338; reset ACTIVE) -/
  tx : TxSleep
  /-- receive sleep state (13 R337, R339; reset ACTIVE) -/
  rx : RxSleep
  /-- t_tx of the time frames sent within the last 100 ms, newest first (13 R321; reset none) -/
  sentT : List Nat
  /-- the last time frame received: its t_tx and its arrival in time words (13 R320; reset none) -/
  lastT : Option (Nat × Nat)
  /-- the last valid echo (13 R321; reset none) -/
  echoAt : Option Nat
  deriving DecidableEq, Repr

def QuadState.reset : QuadState where
  cfg := 0
  sleepCfg := 0x00280190
  linkCfg := 0x64
  up := false
  aligned := false
  pll := false
  ssc := false
  cfgErr := false
  rxK := 0
  rxFrame := none
  crcErr := 0
  ctlErr := 0
  replay := 0
  dup := 0
  late := 0
  unmatched := 0
  ackStray := 0
  glintLost := 0
  gseq := 0
  crIn := Vector.replicate 2 0
  crUsed := Vector.replicate 2 0
  crOut := Vector.replicate 2 0
  txSeq := 0
  oldest := 0
  replayBuf := []
  resend := []
  txq := []
  ackAt := 0
  expect := 0
  nakAt := none
  accepted := []
  held := []
  tx := ⟨.active, 0, none, false, 0, 0, 0, 0⟩
  rx := ⟨.active, 0, none, 0, 0, 0⟩
  sentT := []
  lastT := none
  echoAt := none

/-- The last link-state frame held from an origin (R324, R327). -/
structure LinkSt where
  lseq : Nat
  ports : Nat
  at_ : Nat
  deriving DecidableEq, Repr

/-- An accepted mesh frame that waits to be forwarded (R329). -/
structure FwdFrame where
  /-- the quad it came in on, 16 once that quad has been disabled; its link sequence there -/
  inQuad : Nat
  inSeq : Nat
  inVc : Nat
  outQuad : Nat
  vc : Nat
  kind : Nat
  data : Bytes
  dest : Nat
  at_ : Nat
  deriving DecidableEq, Repr

structure LinkState where
  /-- lanes 0 to 63 (64; 12 R283) -/
  lanes : Vector LaneState 64
  /-- quads Q0 to Q15 (16; 12 R283) -/
  quads : Vector QuadState 16
  /-- transmit clock boundaries of the quads (16; 12 R287, R288, R290; reset empty, log 92) -/
  coder : Vector Coder 16
  /-- LANE.MESH_CFG (32 bits; 13 Table 13-12; reset 0x00010400) -/
  meshCfg : Reg
  /-- LANE.MESH_PORT (32 bits; 13 Table 13-13; reset 0) -/
  meshPort : Reg
  /-- link-state frames held, by origin chip (13 R324; reset none) -/
  links : Tab LinkSt
  /-- lseq of the next link-state frame of this device (32 bits; 13 R324; reset 0, log 3) -/
  lseq : Nat
  /-- forwarding buffer, by frame id (13 R329; reset none) -/
  fwd : Tab FwdFrame
  /-- id of the next forwarded frame (model's own; reset 0, log 2) -/
  nextFwd : Nat
  /-- mesh frames discarded against each destination (13 R325, R329, R335; reset 0) -/
  discards : Tab Nat
  /-- neighbours whose plan digest differs, by neighbour chip (03 R86; reset none) -/
  mismatched : List Nat
  deriving DecidableEq, Repr

def LinkState.reset : LinkState where
  lanes := Vector.replicate 64 LaneState.reset
  quads := Vector.replicate 16 QuadState.reset
  coder := Vector.replicate 16 Coder.reset
  meshCfg := 0x00010400
  meshPort := 0
  links := []
  lseq := 0
  fwd := []
  nextFwd := 0
  discards := []
  mismatched := []

end Sys2Proof.Machine
end

