-- ==== Sys2Proof/Machine/StLbox.lean ====
section
/-!
DEFINITION. State of the Lightbox (10_lightbox.md): tables, scenes, layers, markers and the frame that waits.
-/
namespace Sys2Proof.Machine

/-- A Lightbox table image (Table 10-3): kind, taps of a coefficient set, and the body's bytes. -/
structure LbTable where
  kind : Nat
  taps : Nat
  count : Nat
  body : Bytes
  deriving DecidableEq, Repr

/-- A layer descriptor (Table 10-2). -/
structure LbLayer where
  source : Nat
  format : Nat
  policy : Nat
  expect : Nat
  sw : Nat
  sh : Nat
  dx : Int
  dy : Int
  dw : Nat
  dh : Nat
  wait : Nat
  pool : Nat
  taps : Nat
  chan : Nat
  coef : Nat
  lo : Nat
  scale : Nat
  palette : Nat
  gin : Nat
  alpha : Nat
  mtab : Nat
  prov : Nat
  conf : Nat
  /-- vertical taps in effect after the fallback of R252 -/
  tv : Nat
  deriving DecidableEq, Repr

/-- A scene (Table 10-1). -/
structure LbScene where
  id : Nat
  rate : Nat
  width : Nat
  height : Nat
  bg : Nat
  gout : Nat
  start : Nat
  activate : Nat
  layers : List LbLayer
  deriving DecidableEq, Repr

/-- An update of a layer (R248): its content, when it completed (time word), and what its frame entry reports. -/
structure LbUpdate where
  at_ : Nat
  content : Bytes
  stamp : Nat
  missing : Bool
  iclamps : Nat
  deriving DecidableEq, Repr

/-- A layer as it runs: its front buffer and the updates that have completed and are not shown (R247, R254). -/
structure LbRun where
  /-- the front buffer; `none`: the layer is empty (R256) -/
  front : Option LbUpdate
  /-- completed updates that have not been shown or discarded, oldest first -/
  back : List LbUpdate
  /-- f_last (R255) -/
  fLast : Nat
  /-- stale count (R255) -/
  stale : Nat
  deriving DecidableEq, Repr

def LbRun.empty : LbRun := ⟨none, [], 0, 0⟩

/-- State of a marker (R253): provisional or confirmed. A marker that is not listed is clear. -/
structure LbMark where
  /-- layer -/
  layer : Nat
  /-- marker m -/
  m : Nat
  confirmed : Bool
  /-- the instant at which marker_hold ends, once the event has ended (R191) -/
  clearAt : Option Nat
  deriving DecidableEq, Repr

structure LboxState where
  /-- table images, key kind·65536 + id (10 R246; reset none) -/
  tables : Tab LbTable
  /-- the scene in effect (10 R245; reset none) -/
  scene : Option LbScene
  /-- scenes that wait for their activation, in order of load (10 R245; reset none) -/
  pending : List LbScene
  /-- layers of the scene in effect (8; 10 R247; reset empty) -/
  layers : List LbRun
  /-- the next frame of the scene in effect (u64; 10 R244; reset 0) -/
  frame : Nat
  /-- the frame at the boundary is delayed by a WAIT layer, with the markers set at its boundary (10 R253, R255; reset none) -/
  waiting : Option (List LbMark)
  /-- markers that are set (10 R253; reset none) -/
  marks : List LbMark
  deriving DecidableEq, Repr

def LboxState.reset : LboxState where
  tables := []
  scene := none
  pending := []
  layers := []
  frame := 0
  waiting := none
  marks := []

end Sys2Proof.Machine
end

