-- ==== Sys2Proof/Machine/StMgmt.lean ====
section
/-!
DEFINITION. State of management (16_management.md): domains and stewards, thermal and power control, monitor windows, the
control crossbar and the scribe log.
-/
namespace Sys2Proof.Machine

/-- Slack bands (Table 01-6), coded as DOMAIN.STAT.BAND. -/
inductive Band where
  | ample
  | normal
  | tight
  | short
  | missed
  deriving DecidableEq, Repr

/-- The code of DOMAIN.STAT.BAND. -/
def Band.code : Band → Nat
  | .ample => 0
  | .normal => 1
  | .tight => 2
  | .short => 3
  | .missed => 4

structure Domain where
  /-- DOMAIN.VCAP (32 bits; 16 Table 16-10; reset 0x14, steward 16 0x0E) -/
  vcap : Reg
  /-- STAT.VNOW, present voltage code (5 bits; 16 Table 16-11; reset 8) -/
  vnow : Nat
  /-- device-power ceiling (5 bits; 16 R416; reset 20, PORST_N) -/
  pceil : Nat
  /-- thermal ceiling (5 bits; 16 R418; reset 20) -/
  tceil : Nat
  /-- STAT.BAND (3 bits; 16 Table 16-11; reset Ample) -/
  band : Band
  /-- STAT.CAPPED, the Short band is in force (1 bit; 16 R415; reset 0) -/
  capped : Bool
  /-- the instant of a step that has not settled (16 R413; reset none) -/
  stepAt : Option Nat
  /-- strokes since the last step settled, newest first, at most 64: slack and period, in ticks (01 R20; reset none) -/
  slacks : List (Int × Nat)
  /-- strokes completed since the last step (16 R413; reset 64, log 3) -/
  since : Nat
  /-- DOMAIN.MISS (32 bits, saturating; 16 R428; reset 0) -/
  miss : Nat
  /-- SENSE.TEMP, hottest sensor in 1/16 °C (s16; 16 Table 16-12; reset 0) -/
  temp : Int
  /-- SENSE.POWER in 10 mW (16 bits; 16 Table 16-12; reset 0) -/
  power : Nat
  /-- the steward is lost (1 bit; 16 R407; reset 0) -/
  lost : Bool
  /-- strokes completed since the last shedding request (01 R20, 16 R415; reset 0, log 3) -/
  asked : Nat
  deriving DecidableEq, Repr

def Domain.reset (hub : Bool) : Domain :=
  ⟨if hub then 0x0E else 0x14, 8, 20, 20, .ample, false, none, [], 64, 0, 0, 0, false, 0⟩

/-- What a running monitor window has gathered (R425, R426). -/
structure WinAcc where
  kind : Nat
  mode : Nat
  subject : Nat
  base : Int
  step : Nat
  /-- time word of the window start -/
  start : Nat
  /-- elapsed instant of the window start -/
  startAt : Nat
  count : Nat
  min : Int
  max : Int
  sum : Int
  bins : Vector Nat 32
  sat : Bool
  deriving DecidableEq, Repr

structure Window where
  /-- MONITOR.WIN_CFG (32 bits; 16 Table 16-14; reset 0) -/
  cfg : Reg
  /-- MONITOR.WIN_BASE (32 bits; 16 Table 16-15; reset 0) -/
  base : Reg
  /-- MONITOR.WIN_STEP (32 bits; 16 Table 16-15; reset 1) -/
  step : Reg
  /-- MONITOR.WIN_LEN (32 bits; 16 Table 16-15; reset 0x3E8) -/
  len : Reg
  /-- the running window (16 R426; reset none) -/
  acc : Option WinAcc
  deriving DecidableEq, Repr

def Window.reset : Window := ⟨0, 0, 1, 0x3E8, none⟩

/-- An open locked sequence (R411). -/
structure XLock where
  master : Master
  count : Nat
  at_ : Nat
  broken : Bool
  deriving DecidableEq, Repr

/-- The fence report of one fence (R408, Table 16-18), with the engine's id and its domain (R15). -/
structure FenceReport where
  engine : Nat
  domain : Nat
  cause : Nat
  stroke : Nat
  slot : Nat
  epoch : Nat
  at_ : Nat
  deriving DecidableEq, Repr

/-- An entry of the scribe log (R408). -/
inductive LogEntry where
  | event (e : Ev)
  | fence (r : FenceReport)
  /-- an entry whose content is undefined since a layout was applied (14 R346): a free value -/
  | undefined (v : Nat)
  deriving DecidableEq, Repr

/-- An access to a crossbar target that waits behind another master's locked sequence (R410, R411, R480). -/
inductive Access where
  | write (offset : Nat) (width : AccessWidth) (value : BitVec 64)
  | read (offset : Nat) (width : AccessWidth)
  | openLock
  deriving DecidableEq, Repr

structure MgmtState where
  /-- stewards 0 to 16 (17; 16 R13, R14; reset as R474) -/
  dom : Vector Domain 17
  /-- DOMAIN.PCAP.CAP (32 bits; 16 Table 16-13; reset 0x104) -/
  pcap : Reg
  /-- DOMAIN.PCAP.POWER, device power P in mW (16 R416; reset 0) -/
  powerMw : Nat
  /-- consecutive milliseconds with P ≤ PCAP − 5 W (16 R416; reset 0) -/
  lowMs : Nat
  /-- a reading reached Tmax and has not cleared (1 bit; 16 R418; reset 0) -/
  alert : Bool
  /-- the hottest reading is at or above Tmax (1 bit; 16 R418; reset 0) -/
  hot : Bool
  /-- the warm event has been posted and the reading has not fallen below Tmax − 5 °C (1 bit; 16 R418; reset 0) -/
  warm : Bool
  /-- THERMTRIP_N is latched low (1 bit; 16 R418; reset 0) -/
  trip : Bool
  /-- the last thermal ceiling step (16 R418; reset 0, log 3) -/
  tceilAt : Nat
  /-- monitor windows (16; 16 R428; reset off) -/
  win : Vector Window 16
  /-- MONITOR.STAT.CFG_ERR (1 bit w1c; 16 R426; reset 0) -/
  winErr : Bool
  /-- MONITOR.GDLY_SEL (32 bits; 02 R67; reset 0) -/
  gdlySel : Reg
  /-- MONITOR.GDLY as latched (32 bits; 02 R67; reset 0, log 3) -/
  gdly : Reg
  /-- MONITOR.GDLY_INFO as latched (32 bits; 02 R67; reset 0, log 3) -/
  gdlyInfo : Reg
  /-- XBAR.CTL (32 bits; 16 Table 16-3; reset 0) -/
  xctl : Reg
  /-- XBAR.STAGE (32 bits; 16 Table 16-4; reset 0x100) -/
  xstage : Reg
  /-- XBAR.STAT.LOCK_BROKEN (1 bit w1c; 16 R411; reset 0) -/
  lockBroken : Bool
  /-- XBAR.STAT.ACCESS_ERR (1 bit w1c; 16 R409; reset 0) -/
  accessErr : Bool
  /-- XBAR.STAT.ERR_COUNT (16 bits, saturating; 16 Table 16-5; reset 0) -/
  errCount : Nat
  /-- locked sequences by target (7; 16 R411; reset none) -/
  locks : List (XTarget × XLock)
  /-- accesses that wait for a target, in the order of their arrival (16 R410, R411; reset none) -/
  waiting : List (XTarget × Master × Access)
  /-- steward mailboxes, 17 x 4 KiB, byte by byte address within the target (16 Table 16-2; reset none written) -/
  mailbox : Tab Byte
  /-- scribe SRAM, 1 MiB, by byte address: what the boot ROM and the scribe put there (16 Table 16-2; reset none written) -/
  scribe : Tab Byte
  /-- the scribe log, circular, oldest first (16 R408; reset none) -/
  log : List LogEntry
  /-- log entries skipped as poisoned (16 R408; reset 0) -/
  logSkipped : Nat
  deriving DecidableEq, Repr

def MgmtState.reset : MgmtState where
  dom := Vector.ofFn (fun i => Domain.reset (decide (i.val = 16)))
  pcap := 0x104
  powerMw := 0
  lowMs := 0
  alert := false
  hot := false
  warm := false
  trip := false
  tceilAt := 0
  win := Vector.replicate 16 Window.reset
  winErr := false
  gdlySel := 0
  gdly := 0
  gdlyInfo := 0
  xctl := 0
  xstage := 0x100
  lockBroken := false
  accessErr := false
  errCount := 0
  locks := []
  waiting := []
  mailbox := []
  scribe := []
  log := []
  logSkipped := 0

end Sys2Proof.Machine
end

