-- ==== Sys2Proof/Machine/StTime.lean ====
section
/-!
DEFINITION. State of the timebase (11_timebase.md): registers, references, selection, history, gates, the reference offset.
-/
namespace Sys2Proof.Machine

/-- Timebase states, coded as TIMEBASE.STATUS.STATE (Table 11-3). -/
inductive TbSt where
  | freeRun
  | pullIn
  | locked
  | holdover
  deriving DecidableEq, Repr

/-- The code of STATUS.STATE. -/
def TbSt.code : TbSt → Nat
  | .freeRun => 0
  | .pullIn => 1
  | .locked => 2
  | .holdover => 3

/-- Qualification states, coded as REF_STAT.STATE (Table 11-9). -/
inductive RefSt where
  | off
  | inactive
  | qualifying
  | qualified
  | suspect
  | disqualified
  deriving DecidableEq, Repr

/-- The code of REF_STAT.STATE. -/
def RefSt.code : RefSt → Nat
  | .off => 0
  | .inactive => 1
  | .qualifying => 2
  | .qualified => 3
  | .suspect => 4
  | .disqualified => 5

/-- One reference A to D. -/
structure RefState where
  /-- REF_STAT.STATE (3 bits; 11 R265; reset off) -/
  st : RefSt
  /-- consecutive 100 ms means within ±2.0 ppm, up to 100 (11 R265; reset 0, log 3) -/
  inBand : Nat
  /-- last 100 ms mean offset against the XO in 0.001 ppm (11 R265; reset 0) -/
  offs : Int
  /-- 10 s means at each second since the last qualification, suspect or not, newest first, at most 101 (11 R268; reset none) -/
  means : List Int
  /-- quality code last advertised in a time frame (C and D; 4 bits; 11 R262; reset 15, log 3) -/
  adv : Nat
  /-- its time indication is valid (1 bit; 11 R264; reset 0) -/
  timeValid : Bool
  /-- consecutive good PPS edges or time frames (11 R264; reset 0, log 3) -/
  good : Nat
  /-- instant of the last PPS edge or valid time frame (11 R264; reset none) -/
  lastAt : Option Nat
  /-- reference time carried by the last time frame, as received (C and D; 11 R264; reset 0, log 3) -/
  lastWord : Nat
  /-- arrival time word of the last time frame (C and D; 13 R321; reset 0, log 3) -/
  lastArr : Nat
  /-- its time indication minus the time word at the last indication (11 R273; reset 0, log 3) -/
  diff : Int
  deriving DecidableEq, Repr

def RefState.reset : RefState := ⟨.off, 0, 0, [], 15, false, 0, none, 0, 0, 0⟩

/-- One synthesiser output gate (R277): 0 lane reference, 1 SCLKOUT0, 2 SCLKOUT1. -/
structure Gate where
  closed : Bool
  cause : Nat
  since : Nat
  deriving DecidableEq, Repr

/-- A switch of references or an entry into PULL-IN (R275). -/
structure RefSwitch where
  /-- time sets before it -/
  era : Nat
  /-- its time word -/
  tw : Nat
  /-- its elapsed instant -/
  at_ : Nat
  delta : Int
  deriving DecidableEq, Repr

structure TimeState where
  /-- TIMEBASE.CTL (32 bits; 11 Table 11-5; reset 0x14) -/
  ctl : Reg
  /-- TIMEBASE.SLEW (32 bits; 11 Table 11-7; reset 0x64) -/
  slew : Reg
  /-- TIMEBASE.TSET_LO (32 bits; 11 R282; reset 0) -/
  tsetLo : Reg
  /-- TIMEBASE.TSET_HI (32 bits; 11 R282; reset 0) -/
  tsetHi : Reg
  /-- TIMEBASE.TSET_CTL.ARM, a time set is pending (1 bit; 11 R278; reset 0) -/
  armed : Bool
  /-- the instant ARM was set (11 R278; reset 0, log 3) -/
  armedAt : Nat
  /-- TIMEBASE.REF_CFGn (4 x 32 bits; 11 Table 11-8; reset 0xFE0) -/
  refCfg : Vector Reg 4
  /-- TIMEBASE.SCLK_CFGk (2 x 32 bits; 11 Table 11-10; reset 0) -/
  sclkCfg : Vector Reg 2
  /-- STATUS.TSET_ERR (1 bit w1c; 11 R278; reset 0) -/
  tsetErr : Bool
  /-- STATUS.SCLK_ERR (1 bit w1c; 11 Table 11-10; reset 0) -/
  sclkErr : Bool
  /-- OFFSET_HI as latched by a read of OFFSET_LO (32 bits; 19 R482; reset none) -/
  offHiLatch : Option Reg
  /-- STATUS.STATE (2 bits; 11 Table 11-3; reset FREE-RUN) -/
  st : TbSt
  /-- STATUS.SEL, the selected reference (11 Table 11-6; reset none) -/
  sel : Option (Fin 4)
  /-- O times 10^9, so that a walk in ns is exact (11 R274; reset 0) -/
  oNano : Int
  /-- STATUS.WALKING (1 bit; 11 R274; reset 0) -/
  walking : Bool
  /-- references A to D (4; 11 R263 to R269; reset off) -/
  refs : Vector RefState 4
  /-- holdover history, newest first: the instant the second ended and the mean frequency in 10^-12 (1,800; 11 R271; reset none, PORST_N only) -/
  hist : List (Nat × Int)
  /-- the DPLL frequency held in HOLDOVER, in 10^-12 (11 R272; reset 0) -/
  holdVal : Int
  /-- the instant HOLDOVER was entered (11 R262; reset 0, log 3) -/
  holdAt : Nat
  /-- the trigger instant of R272 while the selected reference is suspect (11 R272; reset none) -/
  trigger : Option Nat
  /-- the instant from which the criterion of R270 has held: the last entry into PULL-IN or switch, or the last error beyond its bounds (11 R270; reset 0, log 3) -/
  lockFrom : Nat
  /-- DPLL frequency against nominal, in 10^-12 · 2^-32: what the DPLL commands, and what the fallback keeps while an output is gated (11 R259, R276, R277; reset 0) -/
  freq : Int
  /-- phase error at the selected reference's last indication: its time indication less O less the time word (11 R270; reset 0, log 3) -/
  phaseErr : Int
  /-- twice the sum of `freq` over the ticks since `histFrom` (11 R271; reset 0) -/
  freqSum : Int
  /-- the instant of the last history entry or entry into LOCKED (11 R271; reset 0, log 3) -/
  histFrom : Nat
  /-- fraction of a unit of the time word that the DPLL's frequency has gained, in 1/(2 · 10^12 · 2^32) (11 R259; reset 0, log 3) -/
  phase : Int
  /-- gates of lane reference, SCLKOUT0, SCLKOUT1 (3; 11 R277; reset closed, cause PORST_N release) -/
  gates : Vector Gate 3
  /-- every switch and PULL-IN entry (11 R275; reset none) -/
  switches : List RefSwitch
  /-- time sets since PORST_N: each begins a new count of the time word (11 R275, R278; reset 0) -/
  sets : Nat
  /-- the instant PPSOUT rose while it is high (11 R280; reset low) -/
  ppsRise : Option Nat
  deriving DecidableEq, Repr

/-- The timebase after release of PORST_N. -/
def TimeState.reset : TimeState where
  ctl := 0x14
  slew := 0x64
  tsetLo := 0
  tsetHi := 0
  armed := false
  armedAt := 0
  refCfg := Vector.replicate 4 0xFE0
  sclkCfg := Vector.replicate 2 0
  tsetErr := false
  sclkErr := false
  offHiLatch := none
  st := .freeRun
  sel := none
  oNano := 0
  walking := false
  refs := Vector.replicate 4 RefState.reset
  hist := []
  holdVal := 0
  holdAt := 0
  trigger := none
  lockFrom := 0
  freq := 0
  phaseErr := 0
  freqSum := 0
  histFrom := 0
  phase := 0
  gates := Vector.replicate 3 ⟨true, 1, 0⟩
  switches := []
  sets := 0
  ppsRise := none

end Sys2Proof.Machine
end

