-- ==== Sys2Proof/Machine/StTwin.lean ====
section
/-!
DEFINITION. State of the twin pair (17_twin_recovery.md): roles, role pins, heartbeats, digests, arbitration, switch-over.
-/
namespace Sys2Proof.Machine

/-- The role, coded as TWIN.STAT.ROLE (Table 17-11). -/
inductive Role where
  | standalone
  | lit
  | shadow
  | faulty
  deriving DecidableEq, Repr

/-- The code of TWIN.STAT.ROLE. -/
def Role.code : Role → Nat
  | .standalone => 0
  | .lit => 1
  | .shadow => 2
  | .faulty => 3

/-- A digest entry (Table 17-2) with the instant it was made or arrived. -/
structure DigestEntry where
  cls : Nat
  aux : Nat
  subject : Nat
  digest : Nat
  at_ : Nat
  /-- compared, or reported as late -/
  done : Bool
  /-- of a record of this member, the start of its span (R455) -/
  lo : Nat
  deriving DecidableEq, Repr

/-- The partner as its latest heartbeat states it (Table 13-7, R440). -/
structure Partner where
  role : Nat
  health : Nat
  flags : Nat
  digest : Nat
  at_ : Nat
  deriving DecidableEq, Repr

/-- An open or waiting arbitration (R449, R450). -/
structure Arb where
  cls : Nat
  subject : Nat
  first : Nat
  last : Nat
  own : Option Nat
  partner : Option Nat
  at_ : Nat
  deriving DecidableEq, Repr

/-- A host-timed command with its T (R442); `none` on the shadow until its EFFECT arrives. -/
structure Timed where
  desc : Desc
  data : Bytes
  t : Option Nat
  deriving DecidableEq, Repr

/-- A recovery of Table 17-7 that is in its window (R457, R458). -/
structure Recovery where
  /-- row of Table 17-7, from 0 -/
  kind : Nat
  /-- quad, channel or engine -/
  key : Nat
  start : Nat
  /-- end as a time word, `none` while open -/
  fin : Option Nat
  outside : Bool
  deriving DecidableEq, Repr

/-- A command whose effect lies ahead (R440, R458): the instant of the effect, and what it does to the configuration digest there, a key with
its CRC, or none where it leaves. -/
structure Act where
  at_ : Nat
  cfg : Option (Nat × Option Nat)
  deriving DecidableEq, Repr

structure TwinState where
  /-- TWIN.CTL (32 bits; 17 Table 17-10; reset 0x4) -/
  ctl : Reg
  /-- STAT.CFG_ERR (1 bit w1c; 17 R460; reset 0) -/
  cfgErr : Bool
  /-- STAT.ROLE (2 bits; 17 Table 17-11; reset standalone) -/
  role : Role
  /-- found faulty, kept until PORST_N (1 bit; 17 R454; reset 0) -/
  faulty : Bool
  /-- TWIN_LIT_OUT level (1 bit; 17 R435; reset low) -/
  pinOut : Bool
  /-- TWIN_LIT_IN level (1 bit; 17 R435; reset low, pulled down) -/
  pinIn : Bool
  /-- the instant TWIN_LIT_IN last fell or EN was set (17 R437; reset 0, log 3) -/
  pinLowAt : Nat
  /-- the output gate is open (1 bit; 17 R436; reset 0) -/
  gate : Bool
  /-- the time word at which the gap started (17 R452; reset none) -/
  gapAt : Option Nat
  /-- the instant EN was set (17 R438; reset 0, log 3) -/
  enAt : Nat
  /-- the partner has been declared lost (1 bit; 17 R440; reset 0) -/
  lost : Bool
  /-- the partner's latest heartbeat (17 R440; reset none) -/
  partner : Option Partner
  /-- STAT.PARTNER, heartbeats are current (1 bit; 17 R440; reset 0) -/
  present : Bool
  /-- STAT.STEP (1 bit; 17 R455; reset 0) -/
  step : Bool
  /-- the time word at which the member came into step (17 R455; reset 0, log 3) -/
  stepAt : Nat
  /-- STAT.GSTEP (1 bit; 17 R455; reset 0) -/
  gstep : Bool
  /-- counted samples of each beam since the member came into step (256; 17 R455; reset 0) -/
  gcount : Tab Nat
  /-- the instant since which the digests have been equal (17 R455; reset none) -/
  equalAt : Option Nat
  /-- STAT.PIN_ERR (1 bit; 17 R439; reset 0) -/
  pinErr : Bool
  /-- the instant since which a role pin mismatch has held (17 R439; reset none) -/
  mismatchAt : Option Nat
  /-- TWIN.SKEW in ns (s32; 17 R441; reset 0) -/
  skew : Int
  /-- the instant since which the skew has been beyond its bound (17 R441; reset none) -/
  skewBadAt : Option Nat
  /-- the event of this excess of the skew has been posted (1 bit; 17 R441; reset 0) -/
  skewTold : Bool
  /-- the instant since which the skew has been within its bound while the pair is outside the conditions (17 R441; reset none) -/
  skewGoodAt : Option Nat
  /-- the pair is outside the twin conditions for skew (1 bit; 17 R441; reset 0) -/
  skewOut : Bool
  /-- a handover flag has been received and not used (1 bit; 17 R437; reset 0) -/
  handover : Bool
  /-- the handover flag is being sent (1 bit; 17 R440; reset 0) -/
  sendHandover : Bool
  /-- MISMATCH (32 bits, saturating; 17 R460; reset 0) -/
  mismatch : Nat
  /-- ARBS (32 bits, saturating; 17 R460; reset 0) -/
  arbs : Nat
  /-- SWITCHES (32 bits, saturating; 17 R460; reset 0) -/
  switches : Nat
  /-- LATE (32 bits, saturating; 17 R460; reset 0) -/
  late : Nat
  /-- the twin map: pair to node (17 R434; reset none) -/
  map : List (Nat × Nat)
  /-- host-timed commands that wait for their T or their EFFECT (17 R442; reset none) -/
  timed : List Timed
  /-- own digest entries of the last 4 s (17 R445; reset none) -/
  own : List DigestEntry
  /-- the partner's digest entries (17 R445; reset none) -/
  theirs : List DigestEntry
  /-- entries that have not been sent (17 R445; reset none) -/
  unsent : List DigestEntry
  /-- stroke batches that have not closed, by millisecond: engine-strokes and hash sum (17 R443, R444; reset none) -/
  batches : Tab (Nat × Nat)
  /-- hand-offs applied in the batches of the last 4 s, by millisecond, without their sums (17 R444, R449; reset none) -/
  hands : Tab (List Handoff)
  /-- EFFECT frames that came before their command: opcode·2^32 + tag and T (17 R442; reset none) -/
  effects : List (Nat × Nat)
  /-- a member of the pair has been lit since EN was set (1 bit; 17 R438; reset 0) -/
  everLit : Bool
  /-- bindings that have published no record since the gap (17 Table 17-7; reset none) -/
  awaitPub : List Nat
  /-- the open arbitration (17 R449; reset none) -/
  arb : Option Arb
  /-- arbitrations that wait (17 R449; reset none) -/
  arbQ : List Arb
  /-- agree codes that arbitration has fixed, by class and subject (17 R447; reset none) -/
  verdicts : List (Nat × Nat × Nat)
  /-- windows of the last verdicts: first, last and agree code (17 R447; reset none) -/
  windows : List (Nat × Nat × Nat)
  /-- records the shadow discarded from its staging (17 R448; reset 0) -/
  discarded : Nat
  /-- recoveries of Table 17-7 (17 R457; reset none) -/
  recov : List Recovery
  /-- the time word since which the partner has been in step (17 R455; reset none) -/
  partnerStepAt : Option Nat
  /-- accepted commands whose effect has not been entered in the digest and the windows of recoveries, by instant (17 R440, R458; reset none) -/
  acts : List Act
  /-- CRC-32C of every image, descriptor, table and binding in effect, key kind·2^20 + id (17 R440; reset none) -/
  cfgCrc : Tab Nat
  deriving DecidableEq, Repr

def TwinState.reset : TwinState where
  ctl := 4
  cfgErr := false
  role := .standalone
  faulty := false
  pinOut := false
  pinIn := false
  pinLowAt := 0
  gate := false
  gapAt := none
  enAt := 0
  lost := false
  partner := none
  present := false
  step := false
  stepAt := 0
  gstep := false
  gcount := []
  equalAt := none
  pinErr := false
  mismatchAt := none
  skew := 0
  skewBadAt := none
  skewTold := false
  skewGoodAt := none
  skewOut := false
  handover := false
  sendHandover := false
  mismatch := 0
  arbs := 0
  switches := 0
  late := 0
  map := []
  timed := []
  own := []
  theirs := []
  unsent := []
  batches := []
  hands := []
  effects := []
  everLit := false
  awaitPub := []
  arb := none
  arbQ := []
  verdicts := []
  windows := []
  discarded := 0
  recov := []
  partnerStepAt := none
  acts := []
  cfgCrc := []

end Sys2Proof.Machine
end

