-- ==== Sys2Proof/Machine/StTx.lean ====
section
/-!
DEFINITION. State of the transmit path (08_transmit.md): drive map and groups, tables, programs, the start queue, running
beams, echo calibration, sense blocks and the load watch.
-/
namespace Sys2Proof.Machine

/-- A drive group descriptor (Table 08-1) and its activation instant once started (R200). -/
structure DriveGroup where
  mode : Nat
  ratio : Nat
  rate : Nat
  ifloor : Nat
  fade : Nat
  lead : Nat
  t0 : Option Nat
  deriving DecidableEq, Repr

/-- A drive map entry (Table 08-2). -/
structure DriveEntry where
  element : Nat
  group : Nat
  flags : Nat
  stream : Nat
  channel : Nat
  zNom : Nat
  sv : Nat
  si : Nat
  deriving DecidableEq, Repr

/-- A program beam entry (Table 08-4). -/
structure ProgBeam where
  slot : Nat
  kind : Nat
  source : Nat
  group : Nat
  f : P3
  firstOrd : Nat
  countOrd : Nat
  speed : Nat
  radius : Nat
  offset : Nat
  length : Nat
  srcId : Nat
  env : Nat
  f0 : Nat
  f1 : Nat
  level : Nat
  deriving DecidableEq, Repr

/-- A transmit program image (R208). -/
structure Program where
  tbase : Nat
  beams : List ProgBeam
  deriving DecidableEq, Repr

/-- The echo calibration command (Table 08-7) with its receiver list. -/
structure EchoCmd where
  drive : Nat
  probe : Nat
  ref : Nat
  repeats : Nat
  spacing : Nat
  lag0 : Int
  lags : Nat
  guard_ : Nat
  psr : Nat
  speed : Nat
  target : Int
  tbase : Nat
  recv : List Nat
  deriving DecidableEq, Repr

/-- Who queued a start (R209, R210, R216); a glint response with its entry as it stood then. -/
inductive Origin where
  | command (ring : BitVec 32)
  | glint (entry : Nat) (event : Nat) (resp : Response)
  | echo (ring : BitVec 32) (c : EchoCmd)
  deriving DecidableEq, Repr

/-- A start that is pending, held or running. -/
structure Start where
  origin : Origin
  program : Nat
  /-- requested start; `none` immediate -/
  tS : Option Nat
  /-- bit 0 start-when-ready, bit 1 preempt -/
  flags : Nat
  /-- when it was queued, a time word -/
  at_ : Nat
  held : Bool
  /-- the program has started, at this instant -/
  running : Option Nat
  /-- a participant was muted during the run (Table 08-6) -/
  muted : Bool
  deriving DecidableEq, Repr

/-- A participant of a running beam (R203, R204). -/
structure Part_ where
  elem : Nat
  di : Nat
  mu : Nat
  gain : Nat
  deriving DecidableEq, Repr

/-- A running beam in its slot (R205). -/
structure TxBeam where
  start : Nat
  entry : ProgBeam
  parts : List Part_
  /-- k_s of R202 -/
  kS : Nat
  /-- first audio index of a sink source (09 R238) -/
  aS : Nat
  /-- first sample of a ring source -/
  ring0 : Nat
  /-- synthesiser phase (32 bits; 08 R207) -/
  phase : Nat
  /-- program samples taken so far -/
  n : Nat
  /-- preset stages: inputs with their inserted zeros, newest first (08 R201) -/
  stages : List (List Int)
  /-- compensator inputs, newest first (08 R201) -/
  comp : List Int
  /-- combs and integrators (5 x 72 bits each; 08 R201) -/
  comb : List Int
  integ : List Int
  /-- interpolated stream, counted from the drive index at which its interpolator starts: the 65,536 samples before the last index sent,
  and those computed ahead of it (08 R205) -/
  hist : Tab Int
  /-- next entry of `hist` -/
  next : Nat
  /-- saturations of the last stage (08 R201) -/
  sat : Nat
  /-- samples not fetched, absent or poisoned (08 Table 08-3) -/
  under : Nat
  absent : Bool
  /-- drive index at which a ramp to zero begins (08 R223) -/
  rampAt : Option Nat
  /-- the beam has started: its participants are latched (08 R203) -/
  latched : Bool
  deriving DecidableEq, Repr

/-- A sense sample (R314). -/
structure Sense where
  v : Int
  i : Int
  flags : Nat
  deriving DecidableEq, Repr

/-- One drive element: output saturation, mute and ramp, and its load watch. -/
structure DriveRun where
  /-- saturations (08 R205) -/
  sat : Nat
  /-- mute cause while muted: 0 over-current, 1 short, 2 blind, 3 unset (08 R224) -/
  mute : Option Nat
  /-- first drive index of the ramp in force, and whether it is up (08 R223, R224) -/
  ramp : Option (Nat × Bool)
  /-- consecutive short blocks (08 R222) -/
  short : Nat
  /-- consecutive blind blocks, up to the last one (08 R225) -/
  blind : Nat
  /-- the last blind block (08 R225; reset none) -/
  blindAt : Option Nat
  /-- in a run of open-load blocks (08 R222) -/
  open_ : Bool
  /-- oldest sense block not yet evaluated; none while the channel's load watch has nothing to watch (08 R222) -/
  block : Option Nat
  /-- later sense blocks that were complete and have been evaluated (08 R222) -/
  ahead : List Nat
  /-- sense samples by index (08 R222) -/
  sense : Tab Sense
  overTemp : Nat
  ampFault : Nat
  /-- next drive index to send; none while its stream does not run: the first frame that carries it again sets it (08 R200) -/
  next : Option Nat
  deriving DecidableEq, Repr

def DriveRun.reset : DriveRun := ⟨0, none, none, 0, 0, none, false, none, [], [], 0, 0, none⟩

/-- A running echo calibration (R216, R217). -/
structure EchoRun where
  start : Nat
  cmd : EchoCmd
  /-- t_0 -/
  t0 : Nat
  /-- next repeat -/
  rep : Nat
  /-- cal_delay of the drive element as the last repeat used it (08 Table 08-8) -/
  used : Int
  /-- the drive element was muted during the run -/
  muted : Bool
  /-- conditioning outputs of the receivers since it started, by element, then index -/
  taps : Tab (Tab CondWord)
  deriving DecidableEq, Repr

structure TxState where
  /-- drive map (4,096 entries; 08 R198; reset empty) -/
  map : List DriveEntry
  /-- drive groups (16; 08 R199; reset none) -/
  groups : Tab DriveGroup
  /-- waveform tables by id (08 R207; reset none) -/
  waves : Tab (List Int)
  /-- programs by id (256; 08 R208; reset none) -/
  progs : Tab Program
  /-- starts pending, held or running, by start id in queuing order (64 + 64; 08 R209, R210; reset none) -/
  starts : Tab Start
  /-- id of the next start (model's own; reset 0, log 2) -/
  nextStart : Nat
  /-- running beams by slot (64; 08 R206; reset none); from key 64 on, beams that have left their slot and still sound: the last
  samples of ended programs, ramps of preempted ones, probes of an echo calibration -/
  beams : Tab TxBeam
  /-- drive elements by device-local index (4,096; 08 R198; reset none) -/
  elems : Tab DriveRun
  /-- drive group descriptors loaded while their group runs: they wait for the next drive group start (16; 08 R199, R211; reset none) -/
  newGroups : Tab DriveGroup
  /-- the last switch-over gap of this member, start and end as time words (17 Table 17-6; reset none) -/
  gap : Option (Nat × Nat)
  /-- the last value sent per drive element (08 Table 17-6; reset none) -/
  last : Tab Int
  /-- starts refused, per glint response entry (64; 08 R210; reset 0) -/
  refused : Tab Nat
  /-- the echo calibration that runs (08 R216; reset none) -/
  echo : Option EchoRun
  deriving DecidableEq, Repr

def TxState.reset : TxState where
  map := []
  groups := []
  waves := []
  progs := []
  starts := []
  nextStart := 0
  beams := []
  elems := []
  newGroups := []
  gap := none
  last := []
  refused := []
  echo := none

end Sys2Proof.Machine
end

