-- ==== Sys2Proof/Machine/State.lean ====
section
/-!
DEFINITION. The state of the A16: one field per chapter of the specification, the queue of commands, the model's clock, and
what the device has put out. All of it is plain data.
-/
namespace Sys2Proof.Machine

/-- What the device has put out (log entry 2): the model's own record of its outputs, in order. -/
structure OutState where
  /-- writes into host memory, oldest first (15 R373 to R402; model's own output; reset none, log 2) -/
  host : List HostWrite
  /-- what was put on each lane quad: quad and item, oldest first (13 R307; model's own output; reset none, log 2) -/
  lanes : List (Nat × LaneOut)
  /-- the 66-bit blocks sent, scrambled, as each lane's transmit pins carry them, bit 0 first: lane and block, oldest first (12 R287; model's own output; reset none, log 2) -/
  wire : List (Nat × BitVec 66)
  /-- raw serial bits sent by pattern generators and far-end loops: lane and bits, oldest first (12 R296, R298; model's own output; reset none, log 2) -/
  serial : List (Nat × List Bool)
  /-- flash reads begun: command, 24-bit address, dummy clocks, oldest first (18 R467; model's own output; reset none, log 2) -/
  flash : List (BitVec 8 × BitVec 24 × Nat)
  /-- the value of the last register read that has a command of its own (19 R477, R482; model's own output; reset 0, log 2) -/
  read : BitVec 64
  deriving DecidableEq, Repr

def OutState.reset : OutState := ⟨[], [], [], [], [], 0⟩

/-- The state of the device. -/
structure State where
  /-- commands that wait, first in first out (model's own; reset empty) -/
  pending : List Instr
  /-- the instant, in units of 2⁻³² s since the last release of PORST_N (11 R8; model's own; reset 0, log 1) -/
  now : Nat
  /-- the time word minus `now`, before wrapping to 64 bits (01 R8, 11 R279; reset 0) -/
  tOffset : Int
  /-- free values drawn so far (model's own; reset 0, DESIGN CHOICE, log 2) -/
  free : Nat
  /-- 15_host_interface.md -/
  host : HostState
  /-- 11_timebase.md -/
  tb : TimeState
  /-- 12_lanes.md and 13_link_frames.md -/
  link : LinkState
  /-- 14_memory.md -/
  hbm : HbmState
  /-- 16_management.md -/
  mgmt : MgmtState
  /-- 17_twin_recovery.md -/
  twin : TwinState
  /-- 18_startup.md and 19_registers.md -/
  boot : BootState
  /-- 20_package_electrical.md -/
  pins : PinState
  /-- 02_conditioning.md -/
  cond : CondState
  /-- 03_channeliser.md -/
  chan : ChanState
  /-- 04_correlation_engines.md, 05_inkwells.md, 06_beamforming.md -/
  corr : CorrState
  /-- 07_glint_path.md -/
  glint : GlintState
  /-- 08_transmit.md -/
  tx : TxState
  /-- 09_audio_routing.md -/
  audio : AudioState
  /-- 10_lightbox.md -/
  lbox : LboxState
  /-- outputs -/
  out : OutState
  deriving DecidableEq, Repr

/-- The device right after release of PORST_N (R464): every field at the value the specification gives, or that the
assumption log names. -/
def State.reset : State where
  pending := []
  now := 0
  tOffset := 0
  free := 0
  host := HostState.reset
  tb := TimeState.reset
  link := LinkState.reset
  hbm := HbmState.reset
  mgmt := MgmtState.reset
  twin := TwinState.reset
  boot := BootState.reset
  pins := PinState.reset
  cond := CondState.reset
  chan := ChanState.reset
  corr := CorrState.reset
  glint := GlintState.reset
  tx := TxState.reset
  audio := AudioState.reset
  lbox := LboxState.reset
  out := OutState.reset

/-- Faults. No command of the A16 stops the device: every rule gives an effect, so this type has no constructor. -/
inductive Fault where
  deriving DecidableEq, Repr

/-- Refusals. -/
inductive Refusal where
  /-- Raised by an arm of `exec` alone: the named command has no meaning in the model yet. Safe: nothing can be proved of a
  step that is refused. -/
  | notModelled (mnemonic : String)
  deriving DecidableEq, Repr

end Sys2Proof.Machine
end

