-- ==== Sys2Proof/Machine/Flags.lean ====
section
/-!
DEFINITION. Values that the device computes from its state whenever they are read: the time word, the timebase status
(11_timebase.md), the link and domain status, the status flags of Table 15-3.
-/
namespace Sys2Proof.Machine

/-- Field [lo + w - 1 : lo] of a register. -/
def fld (r : Reg) (lo w : Nat) : Nat := bitsOf r.toNat lo w

/-- Bit `i` of a register. -/
def rbit (r : Reg) (i : Nat) : Bool := r.getLsbD i

/-- Entry `i` of a vector, `d` outside it. -/
def vget {α : Type} {n : Nat} (v : Vector α n) (i : Nat) (d : α) : α := if h : i < n then v[i] else d

/-- Replace entry `i` of a vector; outside it nothing changes. -/
def vset {α : Type} {n : Nat} (v : Vector α n) (i : Nat) (a : α) : Vector α n := if h : i < n then v.set i a h else v

/-- The time word (R8): u64 in units of 2⁻³² s. -/
def State.tw (s : State) : Nat := (((s.now : Int) + s.tOffset) % (2 ^ 64 : Int)).toNat

/-! ## Timebase (11_timebase.md) -/

/-- The quality code that counts, from a code as declared or advertised (R262). -/
def qualEff (c : Nat) : Nat := if c = 0 then 15 else if 6 ≤ c ∧ c ≤ 13 then 14 else c

/-- The quality code in effect of reference `n` (Table 11-1, R262). -/
def refQual (s : State) (n : Nat) : Nat :=
  if n < 2 then qualEff (fld (vget s.tb.refCfg n 0) 4 4) else qualEff (vget s.tb.refs n RefState.reset).adv

/-- Reference `n` is time-bearing (R260, R264, R321): its time is valid and, for A and B, its PPS is enabled. -/
def refTime (s : State) (n : Nat) : Bool :=
  (vget s.tb.refs n RefState.reset).timeValid && (decide (2 ≤ n) || rbit (vget s.tb.refCfg n 0) 3)

/-- Reference `n` is selectable (R266): enabled, qualified and not suspect. A reference whose code in effect is 15, do not
use, is not (Table 11-2; log entry 12). -/
def refSelectable (s : State) (n : Nat) : Bool :=
  rbit (vget s.tb.refCfg n 0) 0 && decide ((vget s.tb.refs n RefState.reset).st = .qualified) && decide (refQual s n ≠ 15)

/-- Rank key of reference `n` (R266): quality code, priority, order. Lower is better. -/
def refRank (s : State) (n : Nat) : Nat := (refQual s n * 16 + fld (vget s.tb.refCfg n 0) 8 4) * 4 + n

/-- History entries that count for holdover at trigger instant `tr` (R272): ended at least 60 s before, newest 1,740. -/
def holdEntries (s : State) (tr : Nat) : List Int :=
  ((s.tb.hist.filter (fun p => decide (p.1 + 60 * tickHz ≤ tr))).take 1740).map (·.2)

/-- Holdover would be available for trigger `tr` (R272). -/
def holdOk (s : State) (tr : Nat) : Bool := decide (60 ≤ (holdEntries s tr).length)

/-- The advertised quality code (Table 11-2). Code 15 is never advertised: while a switch away from such a reference waits for a gate
(R267), the device advertises 5, since it then runs from the fallback (log entry 94). -/
def advQual (s : State) : Nat :=
  match s.tb.st with
  | .locked => match s.tb.sel with
    | some n => if refQual s n = 15 then 5 else refQual s n
    | none => 5
  | .holdover => if s.now - s.tb.holdAt < 24 * 3600 * tickHz then 3 else 4
  | _ => 5

/-! ### DPLL (R259, R270, R274, R276, R277) -/

/-- Units of `tb.freq` in one: 10^12 · 2^32. -/
def dpllUnit : Int := 10 ^ 12 * 2 ^ 32

/-- An output gate is closed. -/
def gated (s : State) : Bool := s.tb.gates.toList.any (·.closed)

/-- WALK_RATE in ns for each second, at most 10; 0 is treated as 1 (R274, Table 11-5). -/
def walkRate (s : State) : Nat := min 10 (max 1 (fld s.tb.ctl 1 4))

/-- The frequency offset of a walk, in 10^-12 (R274): O falls when the time word runs faster towards a reference that is ahead. -/
def walkFreq (s : State) : Int :=
  let r : Int := 1000 * walkRate s
  if s.tb.walking then (if 0 < s.tb.oNano then r else if s.tb.oNano < 0 then -r else 0) else 0

/-- The steering by which the loop takes a phase error of `e` units of 2⁻³² s back, in 10^-12: a loop of the first order with a bandwidth of
0.1 Hz has a gain of 2π · 0.1 for each second (R270; log entry 94). -/
def phaseSteer (e : Int) : Int := roundDiv (e * 628319000000) (2 ^ 32)

/-- The frequency that R270 measures errors against, in units of `tb.freq`: the selected reference's offset and the walk. -/
def refFreq (s : State) : Int :=
  match s.tb.sel with
  | some n => ((vget s.tb.refs n.val RefState.reset).offs * 1000 + walkFreq s) * 2 ^ 32
  | none => 0

/-- The frequency the DPLL steers towards (Table 11-3): nominal in FREE-RUN, the holdover value in HOLDOVER, otherwise the selected
reference's offset, the walk and the steering of the phase (log entry 94), clamped to ±50 ppm (R276); steering is frozen while an output is
gated (R277). -/
def dpllGoal (s : State) : Int :=
  if gated s then s.tb.freq
  else
    let f : Int := match s.tb.st with
      | .freeRun => 0
      | .holdover => s.tb.holdVal * 2 ^ 32
      | _ => if s.tb.sel.isSome then refFreq s + phaseSteer s.tb.phaseErr * 2 ^ 32 else 0
    max (-50000000 * 2 ^ 32) (min (50000000 * 2 ^ 32) f)

/-- Units of `tb.freq` by which the frequency may change in one tick (TIMEBASE.SLEW.RATE, R276; 0 is treated as 1). -/
def slewStep (s : State) : Nat := 10000 * min 10000 (max 1 (fld s.tb.slew 0 14))

/-- `dt` ticks of the DPLL from frequency `f` towards `g`, at most `r` for each tick (R276): the new frequency, and twice the sum of the
frequency over the ticks. -/
def dpllRun (f g : Int) (r dt : Nat) : Int × Int :=
  let d := g - f
  let k := min dt (d.natAbs / r)
  let step : Int := if d < 0 then -(r : Int) else r
  if k < dt then (g, 2 * f * k + step * k * k + 2 * g * (dt - k : Nat)) else (f + step * k, 2 * f * k + step * k * k)

/-- SCLKOUTk in Hz, times `dpllUnit` (R259): its rate by the DPLL's frequency, or by the fallback's while it is gated (R277). -/
def sclkOut (s : State) (k : Nat) : Int :=
  if rbit (vget s.tb.sclkCfg k 0) 28 then (fld (vget s.tb.sclkCfg k 0) 0 28 : Int) * (dpllUnit + s.tb.freq) else 0

/-- The lane reference against nominal, times `dpllUnit` (R259). -/
def laneRef (s : State) : Int := dpllUnit + s.tb.freq

/-- The reference offset O in units of 2⁻³² s. -/
def State.offsetO (s : State) : Int := roundDiv s.tb.oNano 1000000000

/-- The selected reference as coded in STATUS.SEL. -/
def selCode (s : State) : Nat :=
  match s.tb.sel with
  | some n => n.val
  | none => 7

/-- TIMEBASE.STATUS (Table 11-6). -/
def tbStatus (s : State) : Nat :=
  s.tb.st.code + 8 * selCode s + 64 * b01 (s.tb.gates.toList.any (·.closed)) + 128 * b01 s.tb.walking + 256 * advQual s +
    4096 * b01 (holdOk s s.now) + 8192 * b01 s.tb.tsetErr + 16384 * b01 s.tb.sclkErr

/-- The number of a reference state as REF_STAT reports it (Table 11-9), QUAL 0 while the reference is off. -/
def refStat (s : State) (n : Nat) : Nat :=
  let r := vget s.tb.refs n RefState.reset
  let off := decide (r.st = .off)
  r.st.code + 8 * (if off then 0 else refQual s n) + 128 * b01 (!off && refTime s n) +
    65536 * (satS 16 r.offs % 65536).toNat

/-! ## Identity, twin and mesh -/

/-- The pair is enabled (R430). -/
def State.twinEn (s : State) : Bool := rbit s.twin.ctl 0

/-- MEMBER of the pair (Table 17-10). -/
def State.member (s : State) : Nat := fld s.twin.ctl 1 1

/-- The chip id in records, events and frames: PAIR while the pair is enabled, otherwise CHIP (R430). -/
def State.chip (s : State) : Nat := if s.twinEn then fld s.twin.ctl 7 10 else fld s.link.meshCfg 0 10

/-- The member is shadow, or has been found faulty and emits nothing (R433, R454). -/
def State.isShadow (s : State) : Bool := decide (s.twin.role = .shadow ∨ s.twin.role = .faulty)

/-- The outputs of R433 are enabled: a standalone device, or an open gate (R436). -/
def State.emits (s : State) : Bool := !s.twinEn || s.twin.gate

/-- TWIN.STAT (Table 17-11). -/
def twinStat (s : State) : Nat :=
  (if s.twin.faulty then 3 else s.twin.role.code) + 4 * b01 s.twin.pinOut + 8 * b01 s.twin.pinIn + 16 * b01 s.twin.present +
    32 * b01 s.twin.step + 64 * b01 s.twin.gstep + 128 * b01 s.twin.pinErr + 256 * b01 s.twin.arb.isSome +
    512 * b01 s.twin.cfgErr

/-! ## Engines and domains -/

/-- The engine domain of an engine (R13). -/
def engineDomain (e : Nat) : Nat := 4 * (((e % 64) / 8) % 4) + (e % 8) / 2

/-- Engine id and domain as an event's subject carries them (R15). -/
def engSubject (e : Nat) : Nat := e + 256 * engineDomain e

/-- The engines of a domain in ascending id (R13). -/
def domainEngines (d : Nat) : List Nat := (List.range 256).filter (fun e => engineDomain e == d)

/-- DOMAIN.VCAP.CAP as it acts (Table 16-10, R417). -/
def vcapEff (s : State) (d : Nat) : Nat :=
  let c := min 20 (fld (vget s.mgmt.dom d (Domain.reset false)).vcap 0 5)
  if d = 16 then max 12 c else c

/-- The effective ceiling of a domain (R414); the hub has no device-power ceiling and no slack loop (R417). -/
def domCeil (s : State) (d : Nat) : Nat :=
  let m := vget s.mgmt.dom d (Domain.reset false)
  if d = 16 then min m.pceil m.tceil else min (vcapEff s d) (min m.pceil m.tceil)

/-- DOMAIN.STAT (Table 16-11); the fields BAND, CAPPED and FENCED of steward 16 read 0 (R428). -/
def domStat (s : State) (d : Nat) : Nat :=
  let m := vget s.mgmt.dom d (Domain.reset false)
  let eng := d < 16
  m.vnow + 32 * domCeil s d + (if eng then 1024 * m.band.code + 8192 * b01 m.capped else 0) +
    16384 * b01 (decide (m.tceil < 20)) +
    (if eng then
      ((domainEngines d).zipIdx.foldl (fun a p =>
        let e := vget s.corr.eng p.1 Engine.reset
        a + (if e.failed || e.fence.isSome then 2 ^ (15 + p.2) else 0)) 0)
     else 0)

/-! ## Part (Tables 00-1, 19-4) -/

/-- ID_BOOT.PART. -/
def partReg (s : State) : Nat :=
  match s.boot.fuses.part with
  | .p96X => 0x00691800
  | .p96C => 0x005F1801
  | .p48X => 0x00690C02

/-- GiB per HBM stack. -/
def stackGib (s : State) : Nat :=
  match s.boot.fuses.part with
  | .p96X => 24
  | .p96C => 24
  | .p48X => 12

/-- Tmax in °C (16_management.md). -/
def tmax (s : State) : Int :=
  match s.boot.fuses.part with
  | .p96X => 105
  | .p96C => 95
  | .p48X => 105

/-- Bytes of HBM of the part. -/
def hbmBytes (s : State) : Nat := 2 ^ 30 * (4 * stackGib s)

/-! ## HBM layout in effect (R345): region bases and sizes in bytes. -/

/-- 256 MiB. -/
def unit256 : Nat := 2 ^ 28

/-- Sizes of afterimage, channel buffer, staging, transmit tables, Lightbox surfaces and logs. -/
def regionSizes (a b : Reg) : List Nat :=
  [fld a 0 9, fld a 9 9, fld a 18 9, fld b 0 9, fld b 9 9, fld b 18 9].map (unit256 * ·)

/-- Size of region `i` of the layout in effect; region 6 is the inkwell region. -/
def regionSize (s : State) (i : Nat) : Nat :=
  let l := regionSizes s.hbm.layA s.hbm.layB
  if i < 6 then l.getD i 0 else hbmBytes s - l.sum

/-- First address of region `i` of the layout in effect. -/
def regionBase (s : State) (i : Nat) : Nat := ((regionSizes s.hbm.layA s.hbm.layB).take i).sum

/-! ## Status block (Table 15-3) -/

/-- The status flags. -/
def statusFlags (s : State) : Nat :=
  b01 (decide (s.host.untrusted ≠ 0)) + 2 * b01 (s.host.outlets.any (fun p => !p.2.queue.isEmpty)) +
    4 * b01 (s.corr.scheds.any (fun r => r.shed.any (fun p => p.2.any (·.hi.isNone)))) + 8 * b01 (decide (s.twin.role = .lit)) +
    16 * b01 (s.twinEn && decide (s.twin.role ≠ .lit)) + 32 * b01 (decide (s.host.width < 16 ∨ s.host.gen < 5))

/-- The word `tb` of the status block. -/
def statusTb (s : State) : Nat := s.tb.st.code + 8 * selCode s + 64 * b01 s.tb.walking + 256 * advQual s

/-- What a record or image of `n` bytes takes in HBM: it is padded to 64 B (R354). -/
def padHbm (n : Nat) : Nat := 64 * ceilDiv n 64

/-- Bytes of one staged record, its trailer included. -/
def Staged.length (r : Staged) : Nat := r.bytes.length + 32

/-- Bytes that it takes in staging. -/
def Staged.size (r : Staged) : Nat := padHbm r.length

/-- Bytes held in product staging: formed records, and dumps that wait for their place (R135). -/
def stagedBytes (s : State) : Nat := (s.host.staged.map (fun p => p.2.size)).sum + (s.corr.readouts.map (·.size)).sum

/-- Bytes 16 to 831 of the status block. -/
def statusBody (s : State) : Bytes :=
  le 4 s.host.cmdCons.toNat ++ le 4 s.host.cplProd.toNat ++ le 4 s.host.evtProd.toNat ++ le 4 (statusFlags s) ++
    leS 8 s.offsetO ++ le 4 (statusTb s) ++ le 4 s.host.untrusted.toNat ++ le 8 (stagedBytes s) ++ zeros 8 ++
    (s.host.prodProd.toList.flatMap (fun v => le 8 v.toNat)) ++ (s.host.srcCons.toList.flatMap (fun v => le 8 v.toNat))

/-- HOSTIF.STAT (Table 15-14). -/
def hostStat (s : State) : Nat :=
  b01 s.host.running + 2 * b01 s.host.cfgErr + 4 * b01 s.host.slow + 8 * s.host.gen + 64 * s.host.width +
    2048 * b01 s.host.perstSeen

end Sys2Proof.Machine
end

