-- ==== Sys2Proof/Machine/Coding.lean ====
section
/-!
DEFINITION. The coding of the lanes (12_lanes.md R286 to R298): 66-bit blocks, the scrambler, the stripe and its markers on the transmit
clock boundary, the block receiver, and the pseudo-random patterns. Everything here works on one quad's or one lane's own part of the
state.
-/
namespace Sys2Proof.Machine

/-- Lanes a quad of this configuration uses (R286). -/
def cfgWidth (cfg : Reg) : Nat :=
  match fld cfg 7 2 with
  | 0 => 4
  | 1 => 2
  | _ => 1

/-! ## Scrambler 1 + x³⁹ + x⁵⁸ (R287) -/

/-- Scramble `n` bits, the lowest first: each bit is added to the sent bits 39 and 58 places before it. The answer is the scrambled bits
and the register, newest bit lowest. -/
def scramN : Nat → Nat → Nat → Nat × Nat
  | 0, _, st => (0, st)
  | k + 1, x, st =>
    let b := (x + st / 2 ^ 38 + st / 2 ^ 57) % 2
    let r := scramN k (x / 2) ((2 * st + b) % 2 ^ 58)
    (b + 2 * r.1, r.2)

/-- Descramble `n` bits, the lowest first: the register holds the received bits. -/
def descramN : Nat → Nat → Nat → Nat × Nat
  | 0, _, st => (0, st)
  | k + 1, x, st =>
    let b := (x + st / 2 ^ 38 + st / 2 ^ 57) % 2
    let r := descramN k (x / 2) ((2 * st + x % 2) % 2 ^ 58)
    (b + 2 * r.1, r.2)

/-! ## Blocks (R287, R288, R290, R307) -/

def dataBlk (p : BitVec 64) : Blk := ⟨2, p⟩
def ctlBlk (p : BitVec 64) : Blk := ⟨1, p⟩

/-- The idle control block (R290). -/
def idleBlk : Blk := ctlBlk 0x1E

/-- An alignment marker (Table 12-2) of lane `l`. -/
def markerBlk (cfg : Reg) (l : Nat) (count : BitVec 32) : Blk :=
  ctlBlk (BitVec.ofNat 64 (0xD1 + 256 * (l + 4 * fld cfg 7 2) + 2 ^ 16 * fld cfg 1 4 + 2 ^ 24 * fld cfg 5 2 + 2 ^ 32 * count.toNat))

/-- The data blocks of a data area (R308). `k` counts them. -/
def dataBlks : Nat → Bytes → List Blk
  | 0, _ => []
  | k + 1, b => dataBlk (BitVec.ofNat 64 (ofLe (b.take 8))) :: dataBlks k (b.drop 8)

/-- A frame as its blocks (R307, Table 13-1). -/
def frameBlks (f : RawFrame) : List Blk :=
  [ctlBlk (BitVec.ofNat 64 (ofLe ([0x78, f.profile, f.kind, f.rsv3] ++ le 2 f.n.toNat ++ le 2 f.rsv6.toNat)))] ++
    dataBlks ((f.data.length + 7) / 8) f.data ++ [ctlBlk (BitVec.ofNat 64 (0x87 + 2 ^ 32 * f.crc.toNat))]

/-- Lay one block on a lane: header, scrambled payload, and the polarity of the pins (LANE_EQ.TX_INV). -/
def layOn (q l : Nat) (inv : Bool) (b : Blk) (c : Coder) : Coder × (Nat × BitVec 66) :=
  let r := scramN 64 b.payload.toNat (vget c.scr l 0)
  let w : BitVec 66 := BitVec.ofNat 66 (b.hdr.toNat + 4 * r.1)
  ({ c with scr := vset c.scr l r.2 }, (4 * q + l, if inv then ~~~ w else w))

/-- Lay a list of (lane, block) pairs in order. -/
def layAll (q : Nat) (inv : Nat → Bool) : List (Nat × Blk) → Coder → Coder × List (Nat × BitVec 66)
  | [], c => (c, [])
  | (l, b) :: rest, c =>
    let r := layOn q l (inv l) b c
    let r' := layAll q inv rest r.1
    (r'.1, r.2 :: r'.2)

/-- A marker set on all W lanes at the same stripe position (R288); the next follows 16,384 positions later. -/
def layMarkers (q : Nat) (cfg : Reg) (inv : Nat → Bool) (c : Coder) : Coder × List (Nat × BitVec 66) :=
  let r := layAll q inv ((List.range (cfgWidth cfg)).map (fun l => (l, markerBlk cfg l c.marker))) c
  ({ r.1 with pos := 0, marker := c.marker + 1 }, r.2)

/-- Lay blocks on the stripe: block k on lane k mod W, a marker set every 16,384 positions (R288). -/
def layStripe (q : Nat) (cfg : Reg) (inv : Nat → Bool) : List Blk → Coder → Coder × List (Nat × BitVec 66)
  | [], c => (c, [])
  | b :: rest, c =>
    let m := if 16384 * cfgWidth cfg ≤ c.pos then layMarkers q cfg inv c else (c, [])
    let l := m.1.pos % cfgWidth cfg
    let r := layOn q l (inv l) b { m.1 with pos := m.1.pos + 1 }
    let r' := layStripe q cfg inv rest r.1
    (r'.1, m.2 ++ r.2 :: r'.2)

/-- Lay one item: the idle blocks that fill the time until it is ready (R290), then its blocks; after a wake the idle blocks and the
marker set of R341. The idle blocks of R290 have filled the stripe under way before the sleep, so the set follows a whole stripe and block k
stays on lane k mod W (R288). -/
def layItem (q : Nat) (cfg : Reg) (inv : Nat → Bool) (x : LaneOut) (c : Coder) : Coder × List (Nat × BitVec 66) :=
  match x with
  | .markerSet _ => layMarkers q cfg inv c
  | .idle n =>
    let p := layStripe q cfg inv (List.replicate ((cfgWidth cfg - c.pos % cfgWidth cfg) % cfgWidth cfg) idleBlk) c
    let r := layAll q inv ((List.range n).flatMap (fun _ => (List.range (cfgWidth cfg)).map (fun l => (l, idleBlk)))) p.1
    (r.1, p.2 ++ r.2)
  | .frame f =>
    layStripe q cfg inv (List.replicate (Config.idleGap q c.items) idleBlk ++ frameBlks f) { c with items := c.items + 1 }
  | .block p =>
    layStripe q cfg inv (List.replicate (Config.idleGap q c.items) idleBlk ++ [ctlBlk p]) { c with items := c.items + 1 }

/-! ## The block receiver of a lane (R287, R291, R292) -/

/-- A block with a valid header of the given kind. -/
def Blk.isCtl (b : Blk) : Bool := b.hdr == 1
def Blk.isData (b : Blk) : Bool := b.hdr == 2

/-- Payload byte 0 of a control block is its type (R306). -/
def Blk.type (b : Blk) : Nat := b.payload.toNat % 256

/-- What one received bit, as a whole 66-bit word or not, does to the receiver: `locked` before and after, and whether a header was
invalid. -/
structure RxStep where
  rx : BlockRx
  locked : Bool
  bad : Nat
  losses : Nat
  /-- block lock was reached -/
  gained : Bool
  /-- bits of the command that are still to come -/
  left : Nat
  deriving DecidableEq, Repr

/-- A header was tested while hunting (R291): a valid one counts; an invalid one sets the count to 0 and moves the boundary one bit. -/
def huntWord (valid : Bool) (x : RxStep) : RxStep :=
  if valid then
    if 63 ≤ x.rx.hunt then { x with locked := true, gained := true, rx := { x.rx with hunt := 0, grpN := 0, grpBad := 0, skip := true, fifo := [] } }
    else { x with rx := { x.rx with hunt := x.rx.hunt + 1 } }
  else { x with bad := x.bad + 1, rx := { x.rx with hunt := 0, slip := 1 } }

/-- Bits for each second of a lane (Table 12-6, RATE). -/
def laneRate (code : Nat) : Nat :=
  match code with
  | 0 => 8000000000
  | 1 => 16000000000
  | 2 => 25781250000
  | _ => 32000000000

/-- The time word of the bit that came `n` bits before the one at time word `tw`. -/
def bitTime (tw rate n : Nat) : Nat := ((tw : Int) - spanTicks n 1 rate).toNat

/-- A whole block arrived in lock (R287, R292): the header is counted in its group of 64, the payload is descrambled, and the first block
after lock is discarded. A marker empties the queue of a quad that is not aligned, since the stripe starts anew behind it (R289), and is
never queued (R288). `at_` is the time word of its first bit. -/
def lockWord (aligned : Bool) (at_ w : Nat) (x : RxStep) : RxStep :=
  let hdr := w % 4
  let valid := decide (hdr = 1 ∨ hdr = 2)
  let d := descramN 64 (w / 4) x.rx.descr
  let b : Blk := ⟨BitVec.ofNat 2 hdr, BitVec.ofNat 64 d.1⟩
  let fifo := if x.rx.skip then x.rx.fifo
    else if b.isCtl && b.type == 0xD1 then (if aligned then x.rx.fifo else [])
    else x.rx.fifo ++ [(at_, b)]
  let badN := x.rx.grpBad + (if valid then 0 else 1)
  let x := { x with bad := x.bad + (if valid then 0 else 1) }
  if 16 ≤ badN then { x with locked := false, losses := x.losses + 1, rx := { x.rx with hunt := 0, grpN := 0, grpBad := 0, fifo := [] } }
  else if 63 ≤ x.rx.grpN then { x with rx := { x.rx with descr := d.2, skip := false, fifo := fifo, grpN := 0, grpBad := 0 } }
  else { x with rx := { x.rx with descr := d.2, skip := false, fifo := fifo, grpN := x.rx.grpN + 1, grpBad := badN } }

/-- One received bit; the time word `clock n` is that of the bit `n` before the last one of the command. -/
def rxBit (aligned : Bool) (clock : Nat → Nat) (x : RxStep) (b : Bool) : RxStep :=
  let x := { x with left := x.left - 1 }
  if 0 < x.rx.slip then { x with rx := { x.rx with slip := x.rx.slip - 1 } }
  else
    let w := x.rx.acc + (if b then 2 ^ x.rx.have_ else 0)
    if x.rx.have_ < 65 then { x with rx := { x.rx with acc := w, have_ := x.rx.have_ + 1 } }
    else
      let x := { x with rx := { x.rx with acc := 0, have_ := 0 } }
      if x.locked then lockWord aligned (clock (x.left + 65)) w x else huntWord (decide (w % 4 = 1 ∨ w % 4 = 2)) x

/-- The bits that arrived on a lane go through its block receiver, in arrival order: none is inserted or deleted (R290). Block lock, also one that
is lost again, ends a fault and the count of retrains in a row (R294). -/
def rxLane (aligned : Bool) (clock : Nat → Nat) (now : Nat) (bits : List Bool) (l : LaneState) : LaneState :=
  let r := bits.foldl (rxBit aligned clock) ⟨l.rx, l.lock, 0, 0, false, bits.length⟩
  { l with
    rx := r.rx, lock := r.locked, hdrErr := bump 32 l.hdrErr r.bad, lockLoss := bump 32 l.lockLoss r.losses
    sig := l.sig || !bits.isEmpty, cdr := l.cdr || !bits.isEmpty
    fault := l.fault && !r.locked && !r.gained, retrains := if r.locked || r.gained then 0 else l.retrains
    outSince := if l.lock && !r.locked then now else l.outSince }

/-! ## Patterns (R296, R297) -/

/-- Degree and second tap of a pattern by its code: xⁿ + xᵐ + 1 (ITU-T O.150; log entry 93). -/
def prbsTaps (code : Nat) : Nat × Nat :=
  match code with
  | 1 => (7, 6)
  | 2 => (9, 5)
  | 3 => (15, 14)
  | 4 => (23, 18)
  | _ => (31, 28)

/-- The pattern is sent inverted by the recommendation (log entry 93). -/
def prbsInv (code : Nat) : Bool := decide (3 ≤ code)

/-- The bit that follows the register's contents. -/
def prbsNext (code reg : Nat) : Nat := (reg / 2 ^ ((prbsTaps code).1 - 1) + reg / 2 ^ ((prbsTaps code).2 - 1)) % 2

/-- Shift a bit into a register of 31 bits. -/
def shiftIn (reg bit : Nat) : Nat := (2 * reg + bit) % 2 ^ 31

/-- `n` bits of the generator (R296): pattern, inversion, and the bits that ERR_INJ inverts. -/
def genBits (code : Nat) (inv : Bool) : Nat → LaneTx → List Bool × LaneTx
  | 0, t => ([], t)
  | k + 1, t =>
    let b := prbsNext code t.gen
    let out := xor (xor (decide (b = 1)) (xor (prbsInv code) inv)) (decide (0 < t.inject))
    let r := genBits code inv k { t with gen := shiftIn t.gen b, inject := t.inject - 1 }
    (out :: r.1, r.2)

/-- One more block of a lane's own stream of idle blocks and markers (R288, R290), as bits in transmission order. -/
def nextOwnBlk (cfg : Reg) (lane : Nat) (t : LaneTx) : LaneTx :=
  let m := decide (16384 ≤ t.pos)
  let b := if m then markerBlk cfg lane t.marker else idleBlk
  let r := scramN 64 b.payload.toNat t.scr
  let w := b.hdr.toNat + 4 * r.1
  { t with
    rest := t.rest ++ (List.range 66).map (fun i => bitOf w i), scr := r.2
    pos := if m then 0 else t.pos + 1, marker := if m then t.marker + 1 else t.marker }

/-- `n` bits of the lane's own stream. -/
def ownBits (cfg : Reg) (lane n : Nat) (t : LaneTx) : List Bool × LaneTx :=
  let t := (List.range ((n - t.rest.length + 65) / 66)).foldl (fun t _ => nextOwnBlk cfg lane t) t
  (t.rest.take n, { t with rest := t.rest.drop n })

/-- One bit at the pattern checker (R297). Out of lock the register loads the received bits; in lock it runs on by itself and each
mismatch counts. -/
def chkBit (code : Nat) (inv : Bool) (x : Checker × Bool × Nat) (bit : Bool) : Checker × Bool × Nat :=
  let (c, locked, errs) := x
  let b := if xor bit (xor (prbsInv code) inv) then 1 else 0
  let p := prbsNext code c.reg
  let miss := if b = p then 0 else 1
  if locked then
    if 128 ≤ c.grpBad + miss then (Checker.reset, false, errs + miss)
    else if 1023 ≤ c.grpN then ({ c with reg := shiftIn c.reg p, grpN := 0, grpBad := 0 }, true, errs + miss)
    else ({ c with reg := shiftIn c.reg p, grpN := c.grpN + 1, grpBad := c.grpBad + miss }, true, errs + miss)
  else if c.loaded < (prbsTaps code).1 then ({ c with reg := shiftIn c.reg b, loaded := c.loaded + 1 }, false, errs)
  else if miss = 1 then ({ c with reg := shiftIn c.reg b, run := 0 }, false, errs)
  else if 1023 ≤ c.run then ({ c with reg := shiftIn c.reg b, run := 0, grpN := 0, grpBad := 0 }, true, errs)
  else ({ c with reg := shiftIn c.reg b, run := c.run + 1 }, false, errs)

/-- The bits go through the pattern checker. -/
def chkLane (bits : List Bool) (l : LaneState) : LaneState :=
  let r := bits.foldl (chkBit (fld l.test 3 3) (rbit l.test 6)) (l.chk, l.prbsLock, 0)
  { l with
    chk := r.1, prbsLock := r.2.1, prbsErr := bump 32 l.prbsErr r.2.2
    sig := l.sig || !bits.isEmpty, cdr := l.cdr || !bits.isEmpty }

end Sys2Proof.Machine
end

