-- ==== Sys2Proof/Machine/Ops.lean ====
section
/-!
DEFINITION. The operations that every command shares: the passing of time, free values, host writes and their jobs, events,
completions, records into staging, twin digest entries, monitor samples.
-/
namespace Sys2Proof.Machine

/-! ## Time -/

/-- Ticks of the next `dt` in which a walk moves the time word: until O has reached 0 (R274). One tick moves it by WALK_RATE of the units of
`oNano`. -/
def walkTicks (s : State) (dt : Nat) : Nat :=
  if s.tb.walking && !gated s then min dt (s.tb.oNano.natAbs / walkRate s) else 0

/-- O, times 10⁹, `dt` ticks later: a walk lowers |O| by WALK_RATE ns for each second until it is 0 exactly (R274). It stands still while
steering is frozen (R277). -/
def walkedO (s : State) (dt : Nat) : Int :=
  let o := s.tb.oNano
  if s.tb.walking && !gated s then
    (if o.natAbs ≤ dt * walkRate s then 0 else if 0 < o then o - dt * walkRate s else o + dt * walkRate s)
  else o

/-- The DPLL over the next `dt` ticks, with the walk as long as it lasts: the new frequency, and twice the sum of it over the ticks. -/
def dpllNext (s : State) (dt : Nat) : Int × Int :=
  let k := walkTicks s dt
  let a := dpllRun s.tb.freq (dpllGoal s) (slewStep s) k
  let s' := if k < dt then { s with tb.freq := a.1, tb.oNano := walkedO s dt } else { s with tb.freq := a.1 }
  let b := dpllRun a.1 (dpllGoal s') (slewStep s) (dt - k)
  (b.1, a.2 + b.2)

/-- Since when the frequency error has been within ±0.05 ppm, `dt` ticks later (R270): it falls at the slew rate. -/
def lockSince (s : State) (dt : Nat) : Nat :=
  let e := (s.tb.freq - refFreq s).natAbs
  let band := 50000 * 2 ^ 32
  if e ≤ band then s.tb.lockFrom else max s.tb.lockFrom (s.now + min dt (ceilDiv (e - band) (slewStep s)))

/-- The instant of a command: time never runs back (log entry 1). The DPLL runs on, and the time word with it (R259), and a walk lowers O
(R274); PPSOUT falls 100 ms after it rose (R280). -/
def State.advance (t : Tick) (s : State) : State :=
  let n := max s.now t
  let dt := n - s.now
  let r := dpllNext s dt
  let p := s.tb.phase + r.2
  { s with
    now := n, tOffset := s.tOffset + p.fdiv (2 * dpllUnit), tb.freq := r.1, tb.phase := p.fmod (2 * dpllUnit)
    tb.freqSum := s.tb.freqSum + r.2, tb.oNano := walkedO s dt, tb.lockFrom := lockSince s dt
    tb.ppsRise := match s.tb.ppsRise with
      | some r => if atLeastMs (n - r) 100 then none else some r
      | none => none }

/-- Draw a free value below `2^bits`. -/
def State.drawFree (bits : Nat) (s : State) : Nat × State :=
  (Config.free s.free % 2 ^ bits, { s with free := s.free + 1 })

/-- The sum of Δ of some switches, and their count (R275). -/
def switchSum (l : List RefSwitch) : Int × Nat := ((l.map (·.delta)).sum, l.length)

/-- Reference switches whose instant lies in a span of time words, counted after `era` time sets (R275). -/
def switchesOf (s : State) (era lo hi : Nat) : Int × Nat :=
  switchSum (s.tb.switches.filter (fun p => decide (p.era = era ∧ lo ≤ p.tw ∧ p.tw ≤ hi)))

/-- Reference switches whose instant lies in a span of time words since the last time set (R275). -/
def switchesIn (s : State) (lo hi : Nat) : Int × Nat := switchesOf s s.tb.sets lo hi

/-- Reference switches in a span of frames of a plan: a record of a group that a time set came after is still counted by the time words of
before it (R275). -/
def planSwitches (s : State) (plan lo hi : Nat) : Int × Nat := switchesOf s (Tab.getD s.chan.eras plan s.tb.sets) lo hi

/-! ## Monitors (R425) -/

/-- Edge `k` of a histogram. -/
def winEdge (mode : Nat) (base : Int) (step k : Nat) : Int := if mode = 0 then base + k * step else base * 2 ^ k

/-- The bin of a sample. -/
def winBin (mode : Nat) (base : Int) (step : Nat) (v : Int) : Nat :=
  if v < winEdge mode base step 0 then 0
  else match (List.range 30).find? (fun k => decide (v < winEdge mode base step (k + 1))) with
    | some k => k + 1
    | none => 31

/-- Add one sample to a running window. -/
def WinAcc.add (a : WinAcc) (v : Int) : WinAcc :=
  let b := winBin a.mode a.base a.step v
  let old := vget a.bins b 0
  let full := decide (old = 0xFFFFFFFF ∨ a.count = 0xFFFFFFFF)
  let sum := a.sum + v
  { a with
    count := bump 32 a.count 1
    min := if a.count = 0 ∨ v < a.min then v else a.min
    max := if a.count = 0 ∨ a.max < v then v else a.max
    sum := satS 64 sum
    bins := vset a.bins b (bump 32 old 1)
    sat := a.sat || full || !inS 64 sum }

/-- One sample of a quantity of Table 16-8 reaches every window that watches it. -/
def winSample {n : Nat} (kind subject : Nat) (v : Int) (l : Vector Window n) : Vector Window n :=
  l.map (fun w =>
    match w.acc with
    | some a => if a.kind = kind ∧ a.subject = subject then { w with acc := some (a.add v) } else w
    | none => w)

/-- One sample of a quantity of Table 16-8. -/
def monSample (kind subject : Nat) (v : Int) (s : State) : State := { s with mgmt.win := winSample kind subject v s.mgmt.win }

/-- Ticks of 2⁻³² s to nanoseconds, rounded convergently. -/
def toNs (dt : Int) : Int := roundDiv (dt * 1000000000) tickHz

/-! ## HBM requests (R344, R350 to R353) -/

/-- Pseudo-channel of an HBM address (R344). -/
def pcOf (a : Nat) : Nat :=
  let p := a / 4096
  (p % 128 + p / 128) % 128

/-- The address of word `w` of what a block reads in region `region`, where the specification fixes only the region. -/
def placeOf (s : State) (region w : Nat) : Nat :=
  regionBase s region + (Config.hbmPlace region w * 32) % max 32 (regionSize s region)

/-- Latency target of a port in ns (Table 14-2). -/
def portTarget (port : Nat) : Nat :=
  match port with
  | 0 => 4000
  | 1 => 50000
  | 2 => 100000
  | 3 => 1000000
  | 4 => 10000
  | 5 => 200000
  | 6 => 20000
  | _ => 1000000

/-- The deadline of a request is its arrival plus its port's target (R350): ticks since arrival against `num`/4 of the target. -/
def HbmReq.old (r : HbmReq) (now num : Nat) : Bool := decide (num * portTarget r.port * tickHz ≤ 4 * (now - r.at_) * 1000000000)

/-- Urgency level (R351). -/
def HbmReq.urgency (r : HbmReq) (now : Nat) : Nat :=
  if r.old now 4 then 3 else if r.old now 3 then 2 else if r.old now 2 then 1 else 0

/-- The request's row is open (R352). -/
def PcQueue.hit (q : PcQueue) (r : HbmReq) : Bool :=
  decide (Tab.get q.rows (Config.hbmRow (r.addr / 4096)).1 = some (Config.hbmRow (r.addr / 4096)).2)

/-- The keys of R352 before age, as one number: urgency, escape class, row hit unless the urgency is 3. -/
def PcQueue.rank (q : PcQueue) (now : Nat) (r : HbmReq) : Nat :=
  4 * r.urgency now + 2 * b01 (decide (r.cls = .escape)) + b01 (q.hit r && decide (r.urgency now < 3))

/-- A request may take a free entry of a buffer of `n` entries that holds `used`: of another class than escape, only when more than `keep`
would remain free (R353). -/
def mayTake (r : HbmReq) (n keep used : Nat) : Bool := if r.cls = .escape then decide (used < n) else decide (used + keep + 1 < n)

/-- The next command of a pseudo-channel (R352): of the requests that may take a retry-buffer entry, the first of the highest rank. -/
def PcQueue.choose (q : PcQueue) (now : Nat) : Option HbmReq :=
  (q.cmd.filter (fun r => mayTake r 32 4 q.held.length)).foldl (fun b r => match b with
    | none => some r
    | some x => if q.rank now x < q.rank now r then some r else some x) none

/-- Front-end requests take command-queue entries as far as R353 lets them, the oldest first. `k` counts them. -/
def PcQueue.seatN : Nat → PcQueue → PcQueue
  | 0, q => q
  | k + 1, q =>
    match q.waiting.find? (fun r => mayTake r 64 8 q.cmd.length) with
    | none => q
    | some r => PcQueue.seatN k { q with cmd := insertBy HbmReq.at_ r q.cmd, waiting := q.waiting.erase r }

/-- Front-end requests take entries. -/
def PcQueue.seat (q : PcQueue) : PcQueue := q.seatN q.waiting.length

/-- Issue commands: each leaves the command queue, opens its row and is held until its alert window passes (R352, R360). -/
def PcQueue.issueN : Nat → Nat → PcQueue → PcQueue
  | 0, _, q => q
  | k + 1, now, q =>
    match q.choose now with
    | none => q
    | some r =>
      let g := Config.hbmRow (r.addr / 4096)
      PcQueue.issueN k now (PcQueue.seat { q with cmd := q.cmd.erase r, held := q.held ++ [r], rows := Tab.put q.rows g.1 g.2 })

/-- What a pseudo-channel has done since it was last looked at (log entry 96): the alert windows of the `a` oldest issued commands passed,
and they completed; `b` commands were issued. The answer also lists the commands that completed. -/
def PcQueue.serve (a b now : Nat) (q : PcQueue) : PcQueue × List HbmReq :=
  (PcQueue.issueN b now (PcQueue.seat { q with held := q.held.drop a }), q.held.take a)

/-- The queues of a pseudo-channel. -/
def pcQueue (s : State) (pc : Nat) : PcQueue := Tab.getD s.hbm.queues pc PcQueue.reset

/-- A pseudo-channel goes on: how far it got is a free value, since the specification gives no timing of the stacks. Each completion is a
sample of its port's latency (R351). `f` is what happens to the queues at this instant. -/
def hbmServe (pc : Nat) (f : PcQueue → PcQueue) (s : State) : State :=
  let r := (pcQueue s pc).serve (Config.free s.free % 2 ^ 6) (Config.free (s.free + 1) % 2 ^ 7) s.now
  { s with
    free := s.free + 2, hbm.queues := Tab.put s.hbm.queues pc (f r.1)
    mgmt.win := r.2.foldl (fun l x => winSample 3 x.port (toNs ((s.now : Int) - x.at_)) l) s.mgmt.win }

/-- A request reaches the controller (R350): it takes a command-queue entry of its pseudo-channel, or waits for one (R353). Reads and writes
are of whole 32-byte words (R354). -/
def hbmRequest (port : Nat) (cls : HbmClass) (a : Nat) (s : State) : State :=
  hbmServe (pcOf a) (fun q => PcQueue.seat { q with waiting := q.waiting ++ [⟨port, cls, 32 * (a / 32), s.now⟩] }) s

/-! ## Host rings (R377) -/

/-- RING_CFG of a ring. -/
def ringCfgOf (s : State) (r : Nat) : Reg := vget s.host.ringCfg r 0

/-- EN of a ring. -/
def ringEn (s : State) (r : Nat) : Bool := rbit (ringCfgOf s r) 6

/-- 2^LOG2 of a ring. -/
def ringSize (s : State) (r : Nat) : Nat := 2 ^ fld (ringCfgOf s r) 0 6

/-- The base address of a ring. -/
def ringBase (s : State) (r : Nat) : Nat := (vget s.host.ringLo r 0).toNat + 2 ^ 32 * (vget s.host.ringHi r 0).toNat

/-- MSI-X vector of a ring. -/
def ringVec (s : State) (r : Nat) : Nat := fld (ringCfgOf s r) 7 6

/-- The base of the status block. -/
def sbBase (s : State) : Nat := s.host.sbLo.toNat + 2 ^ 32 * s.host.sbHi.toNat

/-- The host address of byte offset `o` of a byte ring. -/
def ringAddr (s : State) (r o : Nat) : Nat := ringBase s r + o % ringSize s r

/-- Slots in use between two u32 indices that run freely. -/
def ringUsed (p c : BitVec 32) : Nat := (p - c).toNat

/-- An entry of the completion ring is free (R378, R382). -/
def cplRoom (s : State) : Bool :=
  s.host.running && ringEn s 1 && decide (ringUsed s.host.cplProd s.host.db.cplCons < ringSize s 1)

/-- An entry of the event ring is free (R378, R386). -/
def evtRoom (s : State) : Bool :=
  s.host.running && ringEn s 2 && decide (ringUsed s.host.evtProd s.host.db.evtCons < ringSize s 2)

/-! ## Interrupts (R404) -/

/-- Vector `v` fires: a message into host memory, or a pending bit while it is masked (Table 15-1). -/
def msixFire (v : Nat) (s : State) : State :=
  let w (i : Nat) := (vget s.host.msixTable (4 * v + i) 0).toNat
  let m := vget s.host.msix v ⟨0, none, 0⟩
  let s := { s with host.msix := vset s.host.msix v ⟨0, none, m.fired + 1⟩ }
  if w 3 % 2 = 1 then { s with host.msixPba := s.host.msixPba ||| BitVec.ofNat 64 (2 ^ v) }
  else { s with out.host := s.out.host ++ [⟨w 0 + 2 ^ 32 * w 1, le 4 (w 2)⟩] }

/-- `MSIX_MOD.COUNT` of a vector; 0 is treated as 1 (Table 15-17). -/
def msixCount (s : State) (v : Nat) : Nat := max 1 (fld (vget s.host.msixMod v 0) 0 8)

/-- `MSIX_MOD.TIME` of a vector in µs. -/
def msixTime (s : State) (v : Nat) : Nat := fld (vget s.host.msixMod v 0) 8 12

/-- One item becomes visible on vector `v`. -/
def msixSignal (s : State) (v : Nat) : State :=
  let m := vget s.host.msix v ⟨0, none, 0⟩
  let s' := { s with host.msix := vset s.host.msix v ⟨m.items + 1, some (m.since.getD s.now), m.fired⟩ }
  if msixCount s v ≤ m.items + 1 then msixFire v s' else s'

/-! ## Write jobs (R401) and the status block (R374, R375) -/

/-- A write into host memory as bursts, none of which crosses a 4 KiB boundary (R399, R400). `k` bounds the boundaries. -/
def splitWrite : Nat → HostWrite → List HostWrite
  | 0, w => [w]
  | k + 1, w =>
    let room := 4096 - w.addr % 4096
    if w.bytes.length ≤ room then [w]
    else ⟨w.addr, w.bytes.take room⟩ :: splitWrite k ⟨w.addr + room, w.bytes.drop room⟩

/-- The bursts of a list of writes, in address order within each (R400). -/
def hostBursts (ws : List HostWrite) : List HostWrite := ws.flatMap (fun w => splitWrite (w.bytes.length / 4096 + 1) w)

/-- Put bytes into host memory: both halves of a split burst reach the PCIe controller with their job, so each is released (R400). -/
def hostWrite (ws : List HostWrite) (s : State) : State := { s with out.host := s.out.host ++ hostBursts ws }

/-- Start a write job that awaits its read-back. -/
def startJob (kind : JobKind) (ws : List HostWrite) (items : List Item) (s : State) : State :=
  hostWrite ws { s with
    host.jobs := Tab.put s.host.jobs s.host.nextJob { kind := kind, writes := ws, fails := 0, items := items }
    host.nextJob := s.host.nextJob + 1 }

/-- The status block as a rewrite stores it (Table 15-3). -/
def statusBlock (s : State) (seq : Nat) : Bytes :=
  le 8 seq ++ le 8 s.tw ++ statusBody s ++ zeros 184 ++ le 8 seq

/-- A job whose last write is the status block that publishes it. -/
def publish (kind : JobKind) (ws : List HostWrite) (items : List Item) (s : State) : State :=
  let seq := s.host.sbSeq + 1
  let sb : HostWrite := ⟨sbBase s, statusBlock s seq.toNat⟩
  startJob kind (ws ++ [sb]) (items ++ s.host.unpub)
    { s with host.sbSeq := seq, host.sbAt := s.now, host.sbLast := statusBody s, host.unpub := [] }

/-- Rewrite the status block alone. -/
def statusWrite (s : State) : State := if s.host.running then publish .status [] [] s else s

/-! ## Events (R385, R386) -/

/-- The 16 argument bytes. -/
def evArgs (b : Bytes) : Bytes := b.take 16 ++ zeros (16 - b.length)

/-- Write one event entry into the event ring: it takes its sequence number now. -/
def writeEvent (e : Ev) (s : State) : State :=
  let w : HostWrite := ⟨ringBase s 2 + 32 * (s.host.evtProd.toNat % ringSize s 2),
    le 2 e.code ++ le 2 s.host.evSeq.toNat ++ e.body⟩
  publish (.events (s.host.evtProd + 1) (decide (e.code = 0x100))) [w] [⟨some (ringVec s 2), 2, e.at_⟩]
    { s with host.evtProd := s.host.evtProd + 1, host.evSeq := s.host.evSeq + 1 }

/-- Entries that the scribe log holds: the half of the logs reservation that follows the gap index (R345, R408), 32 B each (log entry 114). -/
def logRoom (s : State) : Nat := regionSize s 5 / 2 / 32

/-- An entry enters the scribe log, which is circular (R408). -/
def noteLog (x : LogEntry) (s : State) : State :=
  { s with mgmt.log := (s.mgmt.log ++ [x]).drop (s.mgmt.log.length + 1 - logRoom s) }

/-- Post an event: into the ring, into the queue while the ring is full, or lost and counted while the queue is full. Every
event enters the scribe log (R408). -/
def pushEvent (e : Ev) (s : State) : State :=
  let s := noteLog (.event e) s
  if s.host.evQueue.isEmpty && decide (s.host.evLost = 0) && evtRoom s then writeEvent e s
  else if s.host.evQueue.length < 4096 then { s with host.evQueue := s.host.evQueue ++ [e] }
  else { s with host.evLost := bump 32 s.host.evLost 1 }

/-- Post an event of Table 15-8 other than a glint publication. -/
def postEvent (code subject : Nat) (args : Bytes) (s : State) : State :=
  pushEvent ⟨code, le 4 subject ++ le 8 s.tw ++ evArgs args, s.now⟩ s

/-- Set an untrusted cause bit and post the untrusted event when it was clear (R376). -/
def setUntrusted (bit : Nat) (s : State) : State :=
  if s.host.untrusted.getLsbD bit then s
  else postEvent 0x0002 (2 ^ bit) [] { s with host.untrusted := s.host.untrusted ||| BitVec.ofNat 4 (2 ^ bit) }

/-! ## Recoveries (R457, R458) -/

/-- The window of a recovery is open at this instant. -/
def Recovery.live (r : Recovery) (tw : Nat) : Bool :=
  match r.fin with
  | none => true
  | some f => decide (tw ≤ f)

/-- Recoveries that lie outside their conditions, and untrusted cause 2 with them (R458). -/
def spoil (p : Recovery → Bool) (s : State) : State :=
  if s.twin.recov.any p then
    setUntrusted 2 { s with twin.recov := s.twin.recov.map (fun r => if p r then { r with outside := true } else r) }
  else s

/-- A fault of Table 17-7, or a command's effect, falls inside every open window (R458). -/
def disturb (s : State) : State := spoil (fun r => r.live s.tw) s

/-- The instant of an effect has come. -/
def Act.due (x : Act) (s : State) : Bool := decide (x.at_ ≤ s.now)

/-- The effect falls inside the window of a recovery. -/
def Act.hits (s : State) (x : Act) (r : Recovery) : Bool :=
  x.due s && decide (r.start + (s.now - x.at_) ≤ s.tw) && r.live (s.tw - (s.now - x.at_))

/-- A recovery lies outside its conditions: found so, or by an effect that has come and is not entered yet. -/
def Recovery.isOut (s : State) (r : Recovery) : Bool := r.outside || s.twin.acts.any (fun x => x.hits s r)

/-- The configuration digest's table with the effects that have come (R440). -/
def cfgNow (s : State) : Tab Nat :=
  (s.twin.acts.filter (fun x => x.due s)).foldl (fun t x => match x.cfg with
    | some (k, some c) => Tab.put t k c
    | some (k, none) => Tab.del t k
    | none => t) s.twin.cfgCrc

/-- Enter the effects that have come: in the digest, and in the windows of the recoveries (R458). -/
def noteActs (s : State) : State :=
  let t := spoil (fun r => s.twin.acts.any (fun x => x.hits s r)) s
  { t with twin.cfgCrc := cfgNow s, twin.acts := s.twin.acts.filter (fun x => !x.due s) }

/-- An accepted command takes effect at time word `T`. -/
def enterAct (T : Nat) (cfg : Option (Nat × Option Nat)) (s : State) : State :=
  { s with twin.acts := insertBy (·.at_) ⟨s.now + (T - s.tw), cfg⟩ s.twin.acts }

/-- The key of the configuration digest (R440). -/
def cfgKey (kind id : Nat) : Nat := kind * 2 ^ 20 + id

/-- Enter it in the configuration digest from time word `T` on. -/
def cfgPutAt (T kind id : Nat) (b : Bytes) (s : State) : State := enterAct T (some (cfgKey kind id, some (crc32c b).toNat)) s

/-- It leaves the configuration digest at time word `T`. -/
def cfgDelAt (T kind id : Nat) (s : State) : State := enterAct T (some (cfgKey kind id, none)) s

/-- Effects that have come, or all of them, no longer enter a key in the digest. -/
def forgetCfg (all : Bool) (k : Nat) (s : State) : List Act :=
  s.twin.acts.map (fun x => if (all || x.due s) && decide (x.cfg.map (·.1) = some k) then { x with cfg := none } else x)

/-- Enter an image, descriptor, table entry or binding in effect into the configuration digest (R440): kinds 0 to 14 are those of
image load (a Lightbox table enters as its kind · 65536 + id), 15 group descriptors, 16 element table entries, 17 bindings, 20 the audio
block, 21 the glint set-up, 22 detector parameters, 23 glint responses. -/
def cfgPut (kind id : Nat) (b : Bytes) (s : State) : State :=
  { s with twin.acts := forgetCfg false (cfgKey kind id) s, twin.cfgCrc := Tab.put s.twin.cfgCrc (cfgKey kind id) (crc32c b).toNat }

/-- Remove it from the configuration digest. -/
def cfgDel (kind id : Nat) (s : State) : State :=
  { s with twin.acts := forgetCfg true (cfgKey kind id) s, twin.cfgCrc := Tab.del s.twin.cfgCrc (cfgKey kind id) }

/-- The digest holds it, or will. -/
def cfgHeld (s : State) (kind id : Nat) : Bool :=
  Tab.has s.twin.cfgCrc (cfgKey kind id) || s.twin.acts.any (fun x => decide (x.cfg.map (·.1) = some (cfgKey kind id)))

/-- Open the window of a recovery (Table 17-7) from time word `start` until `fin` at most: its fault falls inside every window that is open
(R458). -/
def openWindow (kind key start : Nat) (fin : Option Nat) (bad : Bool) (s : State) : State :=
  let s := disturb s
  let s := { s with twin.recov := s.twin.recov ++ [⟨kind, key, start, fin, bad⟩] }
  if bad then setUntrusted 2 s else s

/-- Open the window of a recovery at once. A window of the same fault that is open stays open. -/
def openRecovery (kind key : Nat) (s : State) : State :=
  if s.twin.recov.any (fun r => decide (r.kind = kind ∧ r.key = key) && r.fin.isNone) then s else openWindow kind key s.tw none false s

/-- A recovery that is still under way ends at `fin` instead; no fault is added to it. -/
def moveRecovery (kind key fin : Nat) (s : State) : State :=
  { s with twin.recov := s.twin.recov.map (fun r => if r.kind = kind ∧ r.key = key ∧ r.live s.tw = true then { r with fin := some fin } else r) }

/-- Close the window of a recovery at time word `fin`. -/
def closeRecovery (kind key fin : Nat) (s : State) : State :=
  let l := s.twin.recov.map (fun r => if r.kind = kind ∧ r.key = key ∧ r.fin = none then { r with fin := some fin } else r)
  { s with twin.recov := l }

/-! ## Completions (R381, R382, R384) -/

/-- Status codes (Table 15-7). -/
def stOk : Nat := 0
def stBadOpcode : Nat := 1
def stReserved : Nat := 2
def stRange : Nat := 3
def stCrc : Nat := 4
def stSize : Nat := 5
def stInUse : Nat := 6
def stNotFound : Nat := 7
def stCapacity : Nat := 8
def stLate : Nat := 9
def stBusy : Nat := 10
def stQueueFull : Nat := 11
def stDma : Nat := 12
def stConflict : Nat := 13
def stStopped : Nat := 0x11
def stPreempted : Nat := 0x12
def stRefused : Nat := 0x13

/-- The instant of the poll that first saw a command ring index (Table 16-8 kind 4). -/
def seenAt (s : State) (i : BitVec 32) : Option Nat :=
  ((s.host.polls.filter (fun p => decide (0 < (p.1 - i).toNat ∧ (p.1 - i).toNat < 2 ^ 31))).getLast?).map (·.2)

/-- Write one completion entry and publish it. -/
def writeCompl (c : Compl) (s : State) : State :=
  let w : HostWrite := ⟨ringBase s 1 + 16 * (s.host.cplProd.toNat % ringSize s 1),
    le 4 c.tag.toNat ++ le 2 c.opcode.toNat ++ le 2 c.status ++ le 4 c.info ++ le 4 c.index.toNat⟩
  let cmd : List Item := match seenAt s c.index with
    | some a => [⟨none, 0, a⟩]
    | none => []
  publish (.completions (s.host.cplProd + 1)) [w] (⟨some (ringVec s 1), 1, c.at_⟩ :: cmd) { s with host.cplProd := s.host.cplProd + 1 }

/-- A result block awaits its read-back. -/
def resultInFlight (s : State) : Bool :=
  s.host.jobs.any (fun p => match p.2.kind with
    | .result _ => true
    | _ => false)

/-- Write owed completions in order, as far as the ring has room; a result block due first is written first. -/
def flushOwedN : Nat → State → State
  | 0, s => s
  | n + 1, s =>
    match s.host.owed with
    | [] => s
    | c :: rest =>
      match c.result with
      | some w => if s.host.running && !resultInFlight s then startJob (.result c) [w] [] s else s
      | none => if cplRoom s then flushOwedN n (writeCompl c { s with host.owed := rest }) else s

/-- Write the owed completions. -/
def flushOwed (s : State) : State := flushOwedN s.host.owed.length s

/-- The completion of a command: it is owed, and written when its turn comes. -/
def completeWith (d : Desc) (status info : Nat) (result : Option Bytes) (s : State) : State :=
  let r := match result with
    | some b => if d.resAddr = 0 then none else some ⟨d.resAddr.toNat, b⟩
    | none => none
  flushOwed { s with host.owed := s.host.owed ++ [⟨d.tag, d.opcode, status, info, d.index, r, s.now⟩] }

/-- The completion of a command without a result block. -/
def complete (d : Desc) (status info : Nat) (s : State) : State := completeWith d status info none s

/-! ## Twin digest entries (R443 to R445) -/

/-- The hash of a record for the mirror check: its time field taken as 0 (Table 17-2). -/
def recHash (b : Bytes) : Nat := (itemHash (b.take 16 ++ zeros 8 ++ b.drop 24)).toNat

/-- An own entry stays: for 4 s (R445), and of a glint event for as long as the partner's entries of it do (R451). -/
def keepsEntry (s : State) (x : DigestEntry) : Bool :=
  decide (s.now < x.at_ + 4 * tickHz) || (decide (x.cls = 1) && s.twin.theirs.any (fun y => decide (y.cls = 1 ∧ y.subject = x.subject)))

/-- Record a digest entry of this member; without a pair there is none. `lo` is the start of a record's span. -/
def addDigest (cls aux subject digest lo : Nat) (s : State) : State :=
  if s.twinEn then
    let e : DigestEntry := ⟨cls, aux, subject, digest, s.now, false, lo⟩
    { s with
      twin.own := (s.twin.own.filter (keepsEntry s)) ++ [e]
      twin.unsent := s.twin.unsent ++ [e] }
  else s

/-! ## Records into staging (R28, R387, R391 to R394) -/

/-- The key of an outlet: product ring r, or 64 + quad. -/
def outletKey : Outlet → Nat
  | .ring r => r.val
  | .quad q => 64 + q.val

/-- The state of an outlet. -/
def outletOf (s : State) (o : Outlet) : OutletState := Tab.getD s.host.outlets (outletKey o) OutletState.reset

/-- Replace the state of an outlet. -/
def setOutlet (o : Outlet) (x : OutletState) (s : State) : State :=
  { s with host.outlets := Tab.put s.host.outlets (outletKey o) x }

/-- The staging quota of an outlet in bytes (R393). -/
def outletQuota (s : State) (o : Outlet) : Nat :=
  let q := match o with
    | .ring r => fld (ringCfgOf s (r.val + 3)) 18 6
    | .quad q => fld (vget s.host.quadQuota (q.val / 4) 0) (8 * (q.val % 4)) 6
  (if q = 0 then 64 else q) * regionSize s 2 / 64

/-- The binding of a source (R391). -/
def bindingOf (s : State) (cls source : Nat) : Option (Nat × Binding) :=
  s.host.bindings.find? (fun p => decide (p.2.cls = cls ∧ p.2.source = source))

/-- The outlets of a binding. -/
def bindingOutlets (ring quad : Nat) : List Outlet :=
  (if h : ring < 64 then [Outlet.ring ⟨ring, h⟩] else []) ++ (if h : quad < 16 then [Outlet.quad ⟨quad, h⟩] else [])

/-- The outlets that the next record of a source goes to. -/
def nextOutlets (s : State) (cls source : Nat) : List Outlet :=
  match bindingOf s cls source with
  | none => []
  | some (_, b) => match b.replacement with
    | none => bindingOutlets b.ring b.quad
    | some none => []
    | some (some (_, ring, quad, _)) => bindingOutlets ring quad

/-- Bytes an outlet holds in staging. -/
def outletBytes (s : State) (o : Outlet) : Nat :=
  ((s.host.staged.filter (fun p => p.2.outlets.contains o)).map (fun p => p.2.size)).sum +
    ((s.corr.readouts.filter (fun x => (nextOutlets s 0 x.pool).contains o && !x.denied.contains o)).map (·.size)).sum

/-- An outlet has no room for a further record of `n` bytes, of which staging holds all but `held` already (R393). -/
def noRoom (s : State) (o : Outlet) (n held : Nat) : Bool :=
  decide (outletQuota s o < outletBytes s o + n) || decide (regionSize s 2 < stagedBytes s + held)

/-- One record is dropped at an outlet and joins its pending loss record (R28, R394, Table 15-12): an older record that is dropped later
extends the range downward. -/
def dropAt (o : Outlet) (binding seq time cause : Nat) (s : State) : State :=
  let x := outletOf s o
  let l := match x.loss with
    | none => ⟨binding, 1, 2 ^ cause, seq, seq, time, [binding]⟩
    | some l => { l with
        dropped := bump 32 l.dropped 1
        causes := l.causes ||| 2 ^ cause
        firstSeq := if l.binding = binding then Nat.min l.firstSeq seq else l.firstSeq
        firstTime := if l.binding = binding ∧ seq < l.firstSeq then time else l.firstTime
        lastSeq := if l.binding = binding then Nat.max l.lastSeq seq else l.lastSeq
        bindings := if l.bindings.contains binding then l.bindings else l.bindings ++ [binding] }
  setOutlet o { x with loss := some l } s

/-- The lit member's entry that a record was published (phase 1, with its agree code) or dropped (phase 2), with the record's hash
(Table 17-2). -/
def digestPhase (binding seq phase agree : Nat) (bytes : Bytes) (s : State) : State :=
  if s.twin.role = .lit then addDigest 2 (phase + 256 * agree) (binding * 2 ^ 56 + seq % 2 ^ 56) (recHash bytes) 0 s else s

/-- An outlet is done with a staged record; the record leaves staging when no outlet holds it. A shadow keeps it (R448). -/
def releaseStaged (id : Nat) (o : Outlet) (s : State) : State :=
  match Tab.get s.host.staged id with
  | none => s
  | some r =>
    let outs := r.outlets.filter (fun x => x ≠ o)
    if outs.isEmpty then { s with host.staged := Tab.del s.host.staged id }
    else { s with host.staged := Tab.put s.host.staged id { r with outlets := outs } }

/-- Offer a formed record to one outlet: it is queued there, or dropped whole (R393). A record that the other outlet has staged takes no
further room in staging (R392). -/
def offer (id : Nat) (r : Staged) (o : Outlet) (s : State) : State :=
  let half := match o with
    | .ring k => decide (ringSize s (k.val + 3) / 2 < r.length)
    | .quad _ => false
  let held := if Tab.has s.host.staged id then 0 else r.size
  if half then dropAt o r.binding r.seq r.time 1 s
  else if noRoom s o r.size held then dropAt o r.binding r.seq r.time 0 s
  else
    let x := outletOf s o
    let cur := Tab.getD s.host.staged id { r with outlets := [] }
    setOutlet o { x with queue := x.queue ++ [id] }
      { s with host.staged := Tab.put s.host.staged id { cur with outlets := cur.outlets ++ [o] } }

/-- A shadow discards a kept record, counts it, and adds it to the loss of its outlets (R448). -/
def shadowDiscard (id : Nat) (r : Staged) (s : State) : State :=
  let s := { s with host.staged := Tab.del s.host.staged id, twin.discarded := s.twin.discarded + 1 }
  r.outlets.foldl (fun s o =>
    let x := outletOf s o
    dropAt o r.binding r.seq r.time 0 (setOutlet o { x with queue := x.queue.filter (fun i => i ≠ id) } s)) s

/-- The oldest kept record that must go for a record of `n` bytes to have room: of all where staging is full, else of an outlet that is. -/
def inTheWay (s : State) (n : Nat) (outs : List Outlet) : Option (Nat × Staged) :=
  if regionSize s 2 < stagedBytes s + n then s.host.staged.head?
  else (outs.find? (fun o => noRoom s o n 0)).bind (fun o => s.host.staged.find? (fun p => p.2.outlets.contains o))

/-- A shadow discards its oldest kept records until a new one of `n` bytes has room, at most as many as it keeps (R448). -/
def shadowRoomN : Nat → (n : Nat) → List Outlet → State → State
  | 0, _, _, s => s
  | fuel + 1, n, outs, s =>
    match inTheWay s n outs with
    | some p => shadowRoomN fuel n outs (shadowDiscard p.1 p.2 s)
    | none => s

/-- A shadow makes room for a record. -/
def shadowRoom (n : Nat) (outs : List Outlet) (s : State) : State :=
  if s.isShadow then shadowRoomN s.host.staged.length n outs s else s

/-- A record as its block forms it: class and source of its binding, kind, body, product id, span, trust bit 0. -/
structure RecSpec where
  cls : Nat
  source : Nat
  kind : Nat
  body : Bytes
  product : Nat
  lo : Nat
  hi : Nat
  taint : Bool
  deriving DecidableEq, Repr

/-- A replacement takes over at the source's next record (R391), and so in the configuration digest. -/
def applyReplacement (cls source : Nat) (s : State) : State :=
  match bindingOf s cls source with
  | none => s
  | some (id, b) =>
    match b.replacement with
    | none => s
    | some none => cfgDelAt s.tw 17 (cls * 65536 + source) { s with host.bindings := Tab.del s.host.bindings id }
    | some (some (nid, ring, quad, fmt, fscale)) =>
      let b := le 1 nid ++ le 1 cls ++ le 2 source ++ le 1 ring ++ le 1 quad ++ le 1 fmt ++ le 1 fscale
      cfgPutAt s.tw 17 (cls * 65536 + source) b { s with host.bindings := Tab.put (Tab.del s.host.bindings id) nid ⟨cls, source, ring, quad, fmt, fscale, 0, none⟩ }

/-- The common record header (Table 15-9). -/
def recHeader (kind binding length seq time chip product : Nat) : Bytes :=
  le 2 kind ++ [1] ++ le 1 binding ++ le 4 length ++ le 8 seq ++ le 8 time ++ le 2 chip ++ le 2 product ++ zeros 36

/-- A record that some recovery outside its conditions, or a failed channel, marks untrusted (R361, R458). -/
def spanUntrusted (s : State) (lo hi : Nat) : Bool :=
  s.host.untrusted.getLsbD 0 ||
    s.twin.recov.any (fun r => r.isOut s && decide (r.start ≤ hi) && (match r.fin with
      | none => true
      | some f => decide (lo ≤ f)))

/-- Form a record once in product staging, by an escape-class write (R24), and offer it to the outlets of its binding (R28, R392), but drop
it at those that were found without room for it before. Without a binding it is not formed and is counted against the source class. `time` and
`at_` say when it was formed (Table 15-9). -/
def formRecordBut (denied : List Outlet) (time at_ : Nat) (r : RecSpec) (s : State) : State :=
  if s.mgmt.trip then s else
  let s := applyReplacement r.cls r.source s
  match bindingOf s r.cls r.source with
  | none => { s with host.unbound := Tab.add s.host.unbound r.cls 1 }
  | some (bid, b) =>
    let bytes := recHeader r.kind bid (r.body.length + 96) b.seq time s.chip r.product ++ r.body
    let rec_ : Staged := ⟨bid, r.kind, b.seq, time, at_, bytes, r.lo, r.hi, r.taint || spanUntrusted s r.lo r.hi, []⟩
    let id := s.host.nextRec
    let s := { s with
      host.bindings := Tab.put s.host.bindings bid { b with seq := b.seq + 1 }
      host.nextRec := id + 1 }
    let outs := bindingOutlets b.ring b.quad
    let s := shadowRoom rec_.size outs s
    let s := addDigest 2 0 (bid * 2 ^ 56 + b.seq % 2 ^ 56) (recHash bytes) r.lo s
    let s := hbmRequest 4 .escape (placeOf s 2 id) s
    let s := outs.foldl (fun s o => if denied.contains o then dropAt o bid b.seq time 0 s else offer id rec_ o s) s
    if Tab.has s.host.staged id then s else digestPhase bid b.seq 2 0 bytes s

/-- Form a record and offer it to every outlet of its binding. -/
def formRecordAt (time at_ : Nat) (r : RecSpec) (s : State) : State := formRecordBut [] time at_ r s

/-- Form a record now. -/
def formRecord (r : RecSpec) (s : State) : State := formRecordAt s.tw s.now r s

/-! ## Frames out -/

/-- The QUAD_CFG of a quad. -/
def quadOf (s : State) (q : Nat) : QuadState := vget s.link.quads q QuadState.reset

/-- Replace the state of a quad. -/
def setQuad (q : Nat) (x : QuadState) (s : State) : State := { s with link.quads := vset s.link.quads q x }

/-- Role code of a quad (Table 12-6). -/
def quadRole (s : State) (q : Nat) : Nat := fld (quadOf s q).cfg 1 4

/-- A quad is enabled with a role. -/
def quadHas (s : State) (q role : Nat) : Bool := rbit (quadOf s q).cfg 0 && decide (quadRole s q = role)

/-- The enabled quads with a role, in ascending order. -/
def quadsOf (s : State) (role : Nat) : List Nat := (List.range 16).filter (fun q => quadHas s q role)

/-- Put an item on the lanes of a quad (R287, R288, R290): it is recorded, and laid as scrambled blocks on the stripe. -/
def putOn (q : Nat) (s : State) (x : LaneOut) : State :=
  let r := layItem q (quadOf s q).cfg (fun l => rbit (vget s.link.lanes (4 * q + l) LaneState.reset).eq 15) x (vget s.link.coder q Coder.reset)
  { s with out.lanes := s.out.lanes ++ [(q, x)], out.wire := s.out.wire ++ r.2, link.coder := vset s.link.coder q r.1 }

/-- An item that was queued at instant `at_` goes out; a frame gives a sample of the lane frame latency (Table 16-8 kind 5): its wait, and
a free value for what the lanes take (log entry 113). -/
def sendOn (q at_ : Nat) (x : LaneOut) (s : State) : State :=
  let t := putOn q s x
  match x with
  | .frame _ => monSample 5 (16 + q) (toNs ((s.now : Int) - at_) + Config.frameTime (16 + q) s.out.lanes.length) t
  | _ => t

/-- A received frame is handed to its consumer (Table 16-8 kind 5). -/
def frameTaken (q : Nat) (s : State) : State := monSample 5 q (Config.frameTime q s.now : Nat) s

/-- Hand an item to the transmit direction of a quad: it goes out while the direction is ACTIVE, otherwise it waits at the
clock boundary and wakes the direction (R301). The transmitters of a disabled quad hold electrical idle (R285). -/
def emitOn (q : Nat) (x : LaneOut) (s : State) : State :=
  let u := quadOf s q
  if !rbit u.cfg 0 then s
  else if u.tx.st = .active then sendOn q s.now x (setQuad q { u with tx := { u.tx with idleAt := s.now } } s)
  else setQuad q { u with held := u.held ++ [(s.now, x)], tx := { u.tx with st := .waking } } s

/-- A frame with its SOF fields and CRC (R307, R309): the data area is padded with 0 to whole blocks (R308). -/
def mkFrame (profile kind : Nat) (data : Bytes) : RawFrame :=
  let n := ceilDiv data.length 8
  let d := data ++ zeros (8 * n - data.length)
  let p : Byte := BitVec.ofNat 8 profile
  let k : Byte := BitVec.ofNat 8 kind
  ⟨p, k, 0, BitVec.ofNat 16 n, 0, d, crc32c ([p, k, 0] ++ le 2 n ++ [0, 0] ++ d), false, false⟩

end Sys2Proof.Machine
end

