-- ==== Sys2Proof/Machine/Operands.lean ====
section
/-!
DEFINITION. The operand forms of the commands: frames as they arrive (R307 to R312, Table 13-1), link-control blocks (R310),
command descriptors (Table 15-4) and the fields of images, with the checks that hold for all of them (R7, R379).
-/
namespace Sys2Proof.Machine

/-! ## Frames -/

/-- The frame of R307 arrived whole with a good CRC (R309, R311). -/
def frameGood (f : RawFrame) : Bool :=
  let n := f.n.toNat
  !f.damaged && decide (1 ≤ n ∧ n ≤ 1024 ∧ f.data.length = 8 * n) &&
    decide (f.crc = crc32c ([f.profile, f.kind, f.rsv3] ++ le 2 n ++ le 2 f.rsv6.toNat ++ f.data))

/-- The frame carries the given profile and kind. -/
def frameIs (f : RawFrame) (profile kind : Nat) : Bool :=
  decide (f.profile.toNat = profile ∧ f.kind.toNat = kind)

/-- Credits of 64 data blocks that a frame of `n` data blocks consumes (R319, R328). -/
def credits (n : Nat) : Nat := ceilDiv n 64

/-- Value `q` of a packed 12-bit section that starts at byte `off` (R312). -/
def packed12 (b : Bytes) (off q : Nat) : Int :=
  toS 12 (bitsOf (fieldU b (off + 24 * (q / 16)) 24) (12 * (q % 16)) 12)

/-- Pack 12-bit values in groups of 16 (R312). -/
def pack12Group (vs : List Int) : Bytes :=
  le 24 ((vs.zipIdx.map (fun p => (p.1 % 4096).toNat * 2 ^ (12 * p.2))).sum)

/-- Pack a section; unused positions of the last group are 0. `fuel` is the number of groups. -/
def pack12N : Nat → List Int → Bytes
  | 0, _ => []
  | k + 1, vs => pack12Group (vs.take 16) ++ pack12N k (vs.drop 16)

/-- Pack a section. -/
def pack12 (vs : List Int) : Bytes := pack12N (ceilDiv vs.length 16) vs

/-! ## Link-control blocks -/

/-- Byte `i` of a block payload (R308). -/
def blkByte (p : BitVec 64) (i : Nat) : Nat := bitsOf p.toNat (8 * i) 8

/-- A protected control block (R310). -/
def mkCtl (type b1 param : Nat) : BitVec 64 :=
  let v := b1 + 256 * param
  BitVec.ofNat 64 (type + 256 * v + 2 ^ 40 * (0xFFFFFF - v))

/-- The protected block keeps the rule of R310. -/
def ctlGood (p : BitVec 64) : Bool :=
  decide (blkByte p 4 = 0) && decide (bitsOf p.toNat 8 24 + bitsOf p.toNat 40 24 = 0xFFFFFF)

/-- Low nibble of byte 1: op or virtual channel. -/
def ctlOp (p : BitVec 64) : Nat := bitsOf p.toNat 8 4

/-- High nibble of byte 1: cause, token or 0. -/
def ctlHi (p : BitVec 64) : Nat := bitsOf p.toNat 12 4

/-- Bytes 2 and 3. -/
def ctlParam (p : BitVec 64) : Nat := bitsOf p.toNat 16 16

/-! ## Descriptors (Table 15-4) -/

/-- Read a descriptor from its 64 bytes. -/
def parseDesc (b : Bytes) (index : BitVec 32) : Desc :=
  { opcode := BitVec.ofNat 16 (fieldU b 0 2)
    flags := BitVec.ofNat 16 (fieldU b 2 2)
    tag := BitVec.ofNat 32 (fieldU b 4 4)
    addr := BitVec.ofNat 64 (fieldU b 8 8)
    len := BitVec.ofNat 32 (fieldU b 16 4)
    reserved := BitVec.ofNat 32 (fieldU b 20 4)
    resAddr := BitVec.ofNat 64 (fieldU b 24 8)
    params := slice b 32 32
    index := index }

/-- The parameter of `n` bytes at descriptor offset `off` (offsets count from the descriptor's start, Table 15-5). -/
def par (d : Desc) (off n : Nat) : Nat := fieldU d.params (off - 32) n

/-- A check that failed: status and info. -/
abbrev Chk := Option (Nat × Nat)

/-- A check: `c` must hold, otherwise the command completes with this status and info. -/
def need (c : Bool) (status info : Nat) : Chk := if c then none else some (status, info)

/-- The first check that failed, in order. -/
def firstFail (l : List Chk) : Chk := l.findSome? id

/-- A reserved field must be 0 (R7). -/
def needZero (b : Bytes) (off n base : Nat) : Chk := need (zeroAt b off n) stReserved (base + off)

/-- The reserved fields of a descriptor whose used parameters are the given (offset, length) spans (R7, R379): flags, the
reserved word, and every unused parameter byte, in this order. -/
def descChk (d : Desc) (used : List (Nat × Nat)) : Chk :=
  firstFail [
    need (decide (d.flags.toNat < 2)) stReserved 2,
    need (decide (d.reserved = 0)) stReserved 20,
    ((List.range 32).map (fun i =>
        need (used.any (fun u => decide (u.1 ≤ 32 + i ∧ 32 + i < u.1 + u.2)) || zeroAt d.params i 1) stReserved (32 + i))
      |> firstFail)]

/-- The data of a command holds the expected number of bytes (Table 15-7, SIZE). -/
def sizeChk (d : Desc) (n : Nat) : Chk := need (decide (d.len.toNat = n)) stSize n

/-- The data bytes that count: exactly `len` of them. -/
def dataOf (d : Desc) (data : Bytes) : Bytes := slice data 0 d.len.toNat

/-! ## Versions of a plan and their strokes (R87) -/

/-- The versions of a plan, oldest first. -/
def planVersions (s : State) (plan : Nat) : List Plan := Tab.getD s.chan.plans plan []

/-- The plan version that applies to frame `f`: the last whose `activate` is at or before it (R87). -/
def planAt (s : State) (plan f : Nat) : Option Plan :=
  ((Tab.getD s.chan.plans plan []).filter (fun p => decide (p.activate ≤ f))).getLast?

/-- Stroke length in frames of plan channel `j`. -/
def Plan.stroke (p : Plan) (j : Nat) : Nat := 64 * ((p.chans.getD j ⟨0, 4, false⟩).stroke)

/-- A loaded version of a plan as one number, in order of activation: version numbers need not rise. -/
def Plan.vid (p : Plan) : Nat := p.activate * 2 ^ 32 + p.version

/-- Key of a stroke under the version `ver` (`Plan.vid`): in the order of time. -/
def strokeKey (ver i : Nat) : Nat := ver * 2 ^ 48 + i

/-- The plan version of a stroke key. -/
def keyVersion (key : Nat) : Nat := key / 2 ^ 48

/-- The stroke of a stroke key. -/
def keyStroke (key : Nat) : Nat := key % 2 ^ 48

/-- A loaded version of a plan (`Plan.vid`). -/
def planVer (s : State) (plan ver : Nat) : Option Plan := (planVersions s plan).find? (fun p => decide (p.vid = ver))

/-- The version of a plan that a frame names by its number: the newest loaded under that number. -/
def planNum (s : State) (plan num : Nat) : Option Plan := ((planVersions s plan).filter (fun p => decide (p.version = num))).getLast?

/-- The version that a batch of stroke `i` names by its number: the one in effect for that stroke, if it has that number (R87). -/
def planFor (s : State) (plan j num i : Nat) : Option Plan :=
  (planVersions s plan).find? (fun p => decide (p.version = num) && decide (planAt s plan (p.stroke j * i) = some p))

/-! ## The hub SRAM map (R365) -/

/-- Bytes of a region of the hub SRAM, by its row of Table 14-5: 1 scribe memory, 2 DMA shared buffer, 3 spill table, 4 transmit beam
histories, 5 gap log, 6 Lightbox line buffers, 7 control state, 8 data pool. -/
def hubSize (row : Nat) : Nat :=
  match row with
  | 1 => 1048576
  | 2 => 2097152
  | 3 => 8388608
  | 4 => 8388608
  | 5 => 1048576
  | 6 => 1048576
  | 7 => 3145728
  | 8 => 41943040
  | _ => 0

end Sys2Proof.Machine
end

