-- ==== Sys2Proof/Machine/Lane.lean ====
section
/-!
DEFINITION. Serial lanes and quads (12_lanes.md): quad configuration, lock, alignment, retraining, patterns, and the sleep
handshake of 13_link_frames.md (R336 to R341).
-/
namespace Sys2Proof.Machine

/-! ## Gap causes noted on input blocks (R44) -/

/-- Slots of an input ring (R40). -/
def ringSlots (window rate : Nat) : Nat := 64 * (ceilDiv (window * rate) 6400000 + 4)

/-- Note cause `c` on block `b`. -/
def noteCause (r : ElemRun) (b c : Nat) : ElemRun :=
  { r with causes := Tab.mod r.causes b 0 (fun m => m ||| 2 ^ c) }

/-- Note a link cause on every unreleased block that the ring of every element on quad `q` spans (R44). -/
def noteLink (q : Nat) (s : State) : State :=
  { s with cond.run := s.cond.run.map (fun p =>
      if Tab.get s.cond.onQuad p.1 = some q then
        (p.1, (List.range (p.2.size / 64)).foldl (fun r i => noteCause r (p.2.next + i) 2) p.2)
      else p) }

/-! ## Quads -/

/-- Lane indices of an enabled quad. -/
def quadLanes (s : State) (q : Nat) : List Nat := (List.range (cfgWidth (quadOf s q).cfg)).map (fun l => 4 * q + l)

/-- The lane mask that quad-up and quad-down carry (log entry 20). -/
def laneMask (s : State) (q : Nat) : Nat := 2 ^ cfgWidth (quadOf s q).cfg - 1

/-- State of a lane. -/
def laneOf (s : State) (l : Nat) : LaneState := vget s.link.lanes l LaneState.reset

/-- Replace the state of a lane. -/
def setLane (l : Nat) (x : LaneState) (s : State) : State := { s with link.lanes := vset s.link.lanes l x }

/-- The lane belongs to an enabled quad and is in use. -/
def laneUsed (s : State) (l : Nat) : Bool := rbit (quadOf s (l / 4)).cfg 0 && (quadLanes s (l / 4)).contains l

/-- The receive direction is in a committed DOZE or SLEEP (R339). -/
def rxAsleep (s : State) (q : Nat) : Bool :=
  match (quadOf s q).rx.st with
  | .doze => true
  | .sleep => true
  | _ => false

/-- Role limit (Table 12-1). -/
def roleLimit (role : Nat) : Nat :=
  match role with
  | 4 => 4
  | 5 => 1
  | 8 => 2
  | _ => 16

/-- Block payload of a sequence block: op 1 ACK, 2 NAK, 3 late notice (Table 13-1). -/
def seqBlock (op cause seq : Nat) : BitVec 64 := mkCtl 0x33 (op + 16 * cause) (seq % 65536)

/-- Credit block. -/
def creditBlock (vc n : Nat) : BitVec 64 := mkCtl 0x2D vc (n % 65536)

/-- Sleep block (Table 13-9). -/
def sleepBlock (op token param : Nat) : BitVec 64 := mkCtl 0x55 (op + 16 * (token % 16)) (param % 65536)

/-- Send the cumulative grant of a virtual channel (R328). -/
def sendCredit (q vc : Nat) (s : State) : State := emitOn q (.block (creditBlock vc (vget (quadOf s q).crOut vc 0))) s

/-- A mesh frame discarded against its destination is counted. -/
def countDiscard (dest : Nat) (s : State) : State := { s with link.discards := Tab.add s.link.discards dest 1 }

/-- Return credit for a disposed frame of `n` data blocks on an incoming channel, and send the grant (R328, R331). -/
def returnCredit (q vc n : Nat) (s : State) : State :=
  let u := quadOf s q
  sendCredit q vc (setQuad q { u with crOut := vset u.crOut vc ((vget u.crOut vc 0 + ceilDiv n 64) % 65536) } s)

/-- Send a late notice for an accepted frame while it is among the last 64 (R334). -/
def lateNotice (q cause seq : Nat) (s : State) : State :=
  let u := quadOf s q
  if u.accepted.contains seq then
    emitOn q (.block (seqBlock 3 cause seq)) (setQuad q { u with late := bump 32 u.late 1 } s)
  else s

/-- Discard a frame that waits to be forwarded: its credit goes back and it is counted against its destination; when its route is lost,
its sender is told (R329, R334). -/
def dropFwd (routeLost : Bool) (id : Nat) (s : State) : State :=
  match Tab.get s.link.fwd id with
  | none => s
  | some f =>
    let s := returnCredit f.inQuad f.inVc (ceilDiv f.data.length 8) (countDiscard f.dest { s with link.fwd := Tab.del s.link.fwd id })
    if routeLost then lateNotice f.inQuad 2 f.inSeq s else s

/-- The next link of every frame that waits for quad `q` is down (R329). -/
def dropFwds (q : Nat) (s : State) : State :=
  ((s.link.fwd.filter (fun p => decide (p.2.outQuad = q))).map (·.1)).foldl (fun s id => dropFwd true id s) s

/-- Distance forward from `a` to `b` modulo 65,536. -/
def seqDist (a b : Nat) : Nat := (b % 65536 + 65536 - a % 65536) % 65536

/-- What the receiver does with an arriving mesh or twin frame (R333). `good` says that R311 does not discard it. The answer
says whether its payload is accepted. -/
def linkReceive (q : Nat) (good : Bool) (seq : Nat) (s : State) : Bool × State :=
  let u := quadOf s q
  if good && decide (seq = u.expect) then
    let e := (u.expect + 1) % 65536
    (true, emitOn q (.block (seqBlock 1 0 (e + 65535)))
      (setQuad q { u with expect := e, accepted := (seq :: u.accepted).take 64 } s))
  else if good && decide (1 ≤ seqDist seq u.expect ∧ seqDist seq u.expect ≤ 64) then
    (false, emitOn q (.block (seqBlock 1 0 (u.expect + 65535))) (setQuad q { u with dup := bump 32 u.dup 1 } s))
  else
    let again := match u.nakAt with
      | some (e, a) => decide (e = u.expect) && !atLeastUs (s.now - a) (max 1 (fld u.linkCfg 0 14))
      | none => false
    if again then (false, s)
    else (false, emitOn q (.block (seqBlock 2 0 u.expect)) (setQuad q { u with nakAt := some (u.expect, s.now) } s))

/-- A frame that R311 discards is counted. -/
def crcErr (q : Nat) (s : State) : State :=
  let u := quadOf s q
  setQuad q { u with crcErr := bump 32 u.crcErr 1 } s

/-- A frame under way is lost with the alignment of its quad: it is discarded and counted (R311), and on a link with retry it owes its
NAK and its credit (R328, R331, R333). -/
def dropPartial (q : Nat) (s : State) : State :=
  let u := quadOf s q
  match u.rxFrame with
  | none => s
  | some f =>
    let s := crcErr q (setQuad q { u with rxFrame := none } s)
    let role := quadRole s q
    if role = 4 ∨ role = 5 then
      let vc := if role = 4 then bitsOf (f.data.headD 0).toNat 48 8 % 2 else 0
      returnCredit q vc (bitsOf f.sof.toNat 32 16) (linkReceive q false 0 s).2
    else s

/-- A quad stops being up (R293): the event, a link cause on its unreleased ingest blocks (R44), and the end of what it was to forward
(R329). A frame under way is discarded and counted (R311), and what its lanes have queued is lost. -/
def quadDown (q : Nat) (s : State) : State :=
  let s := dropPartial q s
  let u := { quadOf s q with aligned := false, rxK := 0 }
  if u.up then
    dropFwds q (noteLink q (postEvent 0x61 q [BitVec.ofNat 8 (quadRole s q), BitVec.ofNat 8 (laneMask s q)]
      (setQuad q { u with up := false } s)))
  else setQuad q u s

/-- Virtual channels of a role: two on mesh, one on twin. -/
def roleVcs (role : Nat) : List Nat := if role = 4 then [0, 1] else if role = 5 then [0] else []

/-- The receive credit a quad grants from the setting of EN (R328, R331). -/
def initialCredit (role : Nat) : Vector Nat 2 :=
  if role = 4 then #v[Config.meshCredit % 65536, Config.meshCredit % 65536]
  else if role = 5 then #v[(64 + Config.twinCredit) % 65536, 0]
  else #v[0, 0]

/-- A lane starts to adapt from its start values and hunts anew (R294, R295). -/
def startAdapt (now : Nat) (x : LaneState) : LaneState :=
  { x with adapting := true, lock := false, cdr := false, outSince := now, eqSet := 0, rx := BlockRx.reset }

/-- Enable a quad with a configuration (R285, R328, R331, R332): sequences, credits, power states and the stripe start afresh. -/
def enableQuad (q : Nat) (cfg : Reg) (s : State) : State :=
  let u := quadOf s q
  let role := fld cfg 1 4
  let s := setQuad q { QuadState.reset with
    cfg := cfg, sleepCfg := u.sleepCfg, linkCfg := u.linkCfg, pll := true, cfgErr := u.cfgErr,
    crcErr := u.crcErr, ctlErr := u.ctlErr, replay := u.replay, dup := u.dup, late := u.late,
    unmatched := u.unmatched, ackStray := u.ackStray, glintLost := u.glintLost, gseq := u.gseq,
    crOut := initialCredit role, ackAt := s.now,
    tx := ⟨.active, 0, none, false, 0, 0, s.now, s.now⟩, rx := ⟨.active, 0, none, 0, 0, s.now⟩ } s
  let c := vget s.link.coder q Coder.reset
  let s := { s with link.coder := vset s.link.coder q { Coder.reset with items := c.items } }
  let s := (quadLanes s q).foldl (fun s l =>
    let x := laneOf s l
    setLane l { startAdapt s.now x with retrains := 0, prbsLock := false, chk := Checker.reset } s) s
  (roleVcs role).foldl (fun s vc => sendCredit q vc s) s

/-- Take a quad down at once and store the other fields (R285, R486). Frames that came in on it and wait to be forwarded owe it no
credit any more (R328). -/
def disableQuad (q : Nat) (cfg : Reg) (s : State) : State :=
  let s := quadDown q s
  let s := { s with link.fwd := s.link.fwd.map (fun p => (p.1, if p.2.inQuad = q then { p.2 with inQuad := 16 } else p.2)) }
  let s := (List.range 4).foldl (fun s l =>
    let x := laneOf s (4 * q + l)
    setLane (4 * q + l) { x with
      lock := false, cdr := false, sig := false, adapting := false, prbsLock := false, rx := BlockRx.reset, chk := Checker.reset
      lockLoss := if x.lock then bump 32 x.lockLoss 1 else x.lockLoss } s) s
  let u := quadOf s q
  setQuad q { u with
    cfg := cfg, pll := false, aligned := false, ssc := false, held := [], txq := [], replayBuf := [], resend := []
    tx := { u.tx with st := .active, reqAt := none }, rx := { u.rx with st := .active, ackAt := none } } s

/-- A QUAD_CFG write that no reserved code refuses (R284, R285, R298). -/
def writeQuadCfg (q : Nat) (v : Reg) (s : State) : State :=
  let u := quadOf s q
  let v := v &&& 0x7FF
  let role := fld v 1 4
  let err := setQuad q { u with cfgErr := true } s
  let changed := decide (bitsOf v.toNat 1 10 ≠ bitsOf u.cfg.toNat 1 10)
  if rbit u.cfg 0 && rbit v 0 && changed then err
  else if decide (role ≠ 0) && decide (fld v 9 2 ≠ 0) then err
  else if rbit u.cfg 0 && rbit v 0 then s
  else if rbit u.cfg 0 then disableQuad q v s
  else if rbit v 0 then
    if roleLimit role ≤ ((quadsOf s role).filter (fun p => p ≠ q)).length then err else enableQuad q v s
  else setQuad q { u with cfg := v } s

/-! ## Lock, alignment, retraining -/

/-- The loop of a lane's quad (Table 12-3); it acts only while the role is 0 (R298). -/
def loopOf (s : State) (lane : Nat) : Nat := if quadHas s (lane / 4) 0 then fld (quadOf s (lane / 4)).cfg 9 2 else 0

/-- The pattern generator of a lane runs (R296). -/
def genOn (s : State) (lane : Nat) : Bool := quadHas s (lane / 4) 0 && laneUsed s lane && decide (fld (laneOf s lane).test 0 3 ≠ 0)

/-- `n` serial bits of a lane of a role 0 quad: its pattern, or its own stream of idle blocks. -/
def serialBits (s : State) (lane n : Nat) : List Bool × LaneTx :=
  let x := laneOf s lane
  if genOn s lane then genBits (fld x.test 0 3) (rbit x.test 6) n x.tx else ownBits (quadOf s (lane / 4)).cfg (lane % 4) n x.tx

/-- Bits leave on the transmit pins of a lane, with its polarity (LANE_EQ.TX_INV). -/
def putSerial (lane : Nat) (bits : List Bool) (s : State) : State :=
  { s with out.serial := s.out.serial ++ [(lane, bits.map (fun b => xor b (rbit (laneOf s lane).eq 15)))] }

/-- What the receiver of a lane gets when `bits` arrive on its pins (Table 12-3, LANE_EQ.RX_INV): in the near-end serial loop the lane's
own serial bits; in the near-end parallel loop its own blocks, for the block path alone, since the pins are ignored; in the far-end loop the
received bits also leave again. The transmit pins drive the same bits, or the pattern of a generator that runs (R296): as many as arrive. -/
def receiveBits (lane : Nat) (forBlocks : Bool) (bits : List Bool) (s : State) : List Bool × State :=
  let x := laneOf s lane
  let rxd := bits.map (fun b => xor b (rbit x.eq 16))
  match loopOf s lane with
  | 1 =>
    let r := serialBits s lane bits.length
    (r.1, putSerial lane r.1 (setLane lane { x with tx := r.2 } s))
  | 2 =>
    let own := ownBits (quadOf s (lane / 4)).cfg (lane % 4) bits.length x.tx
    let gen := if genOn s lane then genBits (fld x.test 0 3) (rbit x.test 6) bits.length own.2 else own
    (if forBlocks then own.1 else [], putSerial lane gen.1 (setLane lane { x with tx := gen.2 } s))
  | 3 => (rxd, putSerial lane rxd s)
  | _ =>
    if genOn s lane then
      let r := serialBits s lane bits.length
      (rxd, putSerial lane r.1 (setLane lane { x with tx := r.2 } s))
    else (rxd, s)

/-- The quad delivers blocks (R289, R293): it is up, and its receive direction has not to be deskewed anew after a wake (R341). -/
def delivers (s : State) (q : Nat) : Bool := (quadOf s q).up && decide ((quadOf s q).rx.st ≠ .waking)

/-- Bits go through the block receiver of a lane (R287, R290 to R293): a lane that adapts does not hunt (R294); while LANE_EQ.ADAPT is 0 a
lane in lock keeps adapting, so its equaliser settings are a new free value (R295). A loss of lock takes the quad down (R293). -/
def blockBits (lane : Nat) (bits : List Bool) (s : State) : State :=
  if laneUsed s lane && !rxAsleep s (lane / 4) then
    let (bits, s) := receiveBits lane true bits s
    let x := laneOf s lane
    if x.adapting then setLane lane { x with sig := x.sig || !bits.isEmpty, cdr := x.cdr || !bits.isEmpty } s
    else
    let clock := bitTime s.tw (laneRate (fld (quadOf s (lane / 4)).cfg 5 2))
    let y := rxLane (delivers s (lane / 4)) clock s.now bits x
    let lost := x.lock &&
      decide (0 < (bits.foldl (rxBit (delivers s (lane / 4)) clock) ⟨x.rx, x.lock, 0, 0, false, bits.length⟩).losses)
    let (e, s) := if y.lock && !rbit x.eq 13 then s.drawFree 32 else (x.eqSet, s)
    let s := if lost then openRecovery 0 (lane / 4) s else s
    let s := setLane lane { y with eqSet := e } s
    if lost then quadDown (lane / 4) s else s
  else s

/-- The marker set satisfies R289 on the lanes of the quad. -/
def markersGood (s : State) (q : Nat) (ms : List MarkerSeen) : Bool :=
  let w := cfgWidth (quadOf s q).cfg
  let code := fld (quadOf s q).cfg 7 2
  let seen (l : Nat) := ms.find? (fun m => m.lane.val == l)
  let skews := ms.map (·.skew)
  let count (m : MarkerSeen) := bitsOf m.payload.toNat 32 32
  let c0 := (ms.head?.map count).getD 0
  (List.range w).all (fun l => (laneOf s (4 * q + l)).lock && (match seen l with
    | some m => decide (blkByte m.payload 0 = 0xD1) && decide (bitsOf m.payload.toNat 8 4 = l + 4 * code) &&
        decide (count m = c0)
    | none => false)) &&
    decide (ms.length = w) && decide (skews.foldl max 0 - skews.foldl min (skews.headD 0) ≤ 32)

/-- Send ACK(E − 1) at once after quad up (R333). -/
def ackNow (q : Nat) (s : State) : State :=
  if quadHas s q 4 || quadHas s q 5 then
    emitOn q (.block (seqBlock 1 0 ((quadOf s q).expect + 65535))) s
  else s

/-- A quad becomes up (R293): the stripe starts at lane 0 behind the marker set (R289). -/
def quadUp (q : Nat) (s : State) : State :=
  let u := { quadOf s q with rxK := 0, rxFrame := none }
  ackNow q (postEvent 0x60 q [BitVec.ofNat 8 (quadRole s q), BitVec.ofNat 8 (laneMask s q)]
    (setQuad q { u with up := true, aligned := true } (closeRecovery 0 q (s.tw + tickHz) s)))

/-- A lane is retrained (R294): the third retrain in a row that ended without block lock set FAULT (log entry 21). -/
def retrain (lane : Nat) (s : State) : State :=
  let x := laneOf s lane
  let faulted := decide (3 ≤ x.retrains) && !x.fault
  let s := setLane lane { startAdapt s.now x with
    retrain := bump 32 x.retrain 1, retrains := x.retrains + 1, fault := x.fault || faulted
    lockLoss := if x.lock then bump 32 x.lockLoss 1 else x.lockLoss } s
  if faulted then postEvent 0x62 lane [] s else s

/-- LANE_RETRAIN (R294): 1 ms out of block lock, not counting the adaptation of at most 50 ms, or once a second when faulted. -/
def execLaneRetrain (t : Tick) (lane : Fin 64) (s : State) : Host.Outcome State Fault Refusal :=
  let s := s.advance t
  let x := laneOf s lane.val
  let due := atLeastMs (s.now - x.outSince) (if x.fault then 1000 else if x.adapting then 51 else 1)
  if laneUsed s lane.val && !x.lock && !rxAsleep s (lane.val / 4) && due then .next (retrain lane.val s) else .next s

/-- ADAPTATION_DONE (R294, R295): the lane hunts again, with the settings that adaptation found, a free value. A faulted lane keeps its
second from retrain to retrain. -/
def execAdaptationDone (t : Tick) (lane : Fin 64) (s : State) : Host.Outcome State Fault Refusal :=
  let s := s.advance t
  let x := laneOf s lane.val
  let (e, s') := s.drawFree 32
  if x.adapting then
    .next (setLane lane.val { x with adapting := false, outSince := if x.fault then x.outSince else s.now, eqSet := e + 1 } s')
  else .next s

/-- Writing LANE_EQ.RESTART starts a retrain (R295); the receivers of a disabled quad are off. -/
def restartLane (lane : Nat) (s : State) : State :=
  if laneUsed s lane then
    let was := (laneOf s lane).lock
    let s := retrain lane s
    if was then quadDown (lane / 4) s else s
  else s

/-! ## Patterns (R296, R297) -/

/-- The checker of a lane runs: its quad is enabled with role 0 and CHK names a pattern. -/
def checkerOn (s : State) (lane : Nat) : Bool :=
  quadHas s (lane / 4) 0 && laneUsed s lane && decide (fld (laneOf s lane).test 3 3 ≠ 0)

/-- Bits go to the pattern checker of a lane (R297, R298). -/
def checkBits (lane : Nat) (bits : List Bool) (s : State) : State :=
  if checkerOn s lane then
    let r := receiveBits lane false bits s
    setLane lane (chkLane r.1 (laneOf r.2 lane)) r.2
  else s

/-- PRBS_LOCK_ACQUIRED (R297): the bits that bring pattern lock, 1,024 in a row that match the prediction. -/
def execPrbsLockAcquired (t : Tick) (b : LaneBits) (s : State) : Host.Outcome State Fault Refusal :=
  .next (checkBits b.lane.val b.bits (s.advance t))

/-- PRBS_LOCK_LOST (R297): the bits that lose it, 128 mismatches in a group of 1,024; every mismatch in lock is counted. -/
def execPrbsLockLost (t : Tick) (lane : Fin 64) (bits : List Bool) (s : State) : Host.Outcome State Fault Refusal :=
  .next (checkBits lane.val bits (s.advance t))

/-- One bit of the generator's output is inverted (R296): the next one it sends. -/
def injectError (lane : Nat) (s : State) : State :=
  let x := laneOf s lane
  if genOn s lane then setLane lane { x with injected := x.injected + 1, tx := { x.tx with inject := x.tx.inject + 1 } } s else s

/-- Clear the four lane counters (R299, R305). -/
def clearLane (lane : Nat) (s : State) : State :=
  setLane lane { laneOf s lane with hdrErr := 0, lockLoss := 0, retrain := 0, prbsErr := 0 } s

/-- Clear the five link counters (R342). -/
def clearLink (q : Nat) (s : State) : State :=
  setQuad q { quadOf s q with crcErr := 0, ctlErr := 0, replay := 0, dup := 0, late := 0 } s

/-! ## Sleep (R300 to R302, R336 to R341) -/

/-- A product quad that carries a trigger outlet (R190). -/
def triggerQuad (s : State) (q : Nat) : Bool := s.host.bindings.any (fun p => decide (p.2.cls = 8 ∧ p.2.quad = q))

/-- The quad holds a lane designated for reference C or D (R281). -/
def designated (s : State) (q : Nat) : Bool :=
  [2, 3].any (fun n => decide (fld (vget s.tb.refCfg n 0) 12 6 / 4 = q))

/-- Deepest state a transmit direction may take: 0 none, 1 doze, 2 sleep (Table 12-5). -/
def txAllowed (s : State) (q : Nat) : Nat :=
  match quadRole s q with
  | 1 => 2
  | 2 => 2
  | 4 => 1
  | 6 => if triggerQuad s q then 0 else 2
  | 7 => 1
  | _ => 0

/-- Deepest state a receive direction may take (Table 12-5). -/
def rxAllowed (s : State) (q : Nat) : Nat :=
  match quadRole s q with
  | 1 => 2
  | 4 => 1
  | 6 => 2
  | 7 => 2
  | 8 => if designated s q then 0 else 1
  | _ => 0

/-- A transmit direction in DOZE or SLEEP starts to wake (R301). -/
def startWake (q : Nat) (s : State) : State :=
  let u := quadOf s q
  match u.tx.st with
  | .doze => setQuad q { u with tx := { u.tx with st := .waking } } s
  | .sleep => setQuad q { u with tx := { u.tx with st := .waking } } s
  | _ => s

/-- Send WAKE: Table 12-5 or the policy no longer allows the state that the direction holds (R302, R340). -/
def sendWake (q : Nat) (s : State) : State := emitOn q (.block (sleepBlock 6 (quadOf s q).rx.token 0)) s

/-- SLEEP_CFG takes a new value: TX_MODE 0 wakes the transmit direction (R301), and a change of RX_ACCEPT that no longer
allows the state of the receive direction sends WAKE (R340). -/
def writeSleepCfg (q : Nat) (v : Reg) (s : State) : State :=
  let s := setQuad q { quadOf s q with sleepCfg := v } s
  let s := if fld v 0 2 = 0 then startWake q s else s
  let rx := (quadOf s q).rx
  let depth := match rx.st with
    | .doze => 1
    | .sleep => 2
    | _ => 0
  if fld v 16 2 < depth then sendWake q s else s

/-- SLEEP_REQUEST (R336): the direction has been idle for TX_IDLE. -/
def execSleepRequest (t : Tick) (q : Fin 16) (s : State) : Host.Outcome State Fault Refusal :=
  let s := s.advance t
  let u := quadOf s q.val
  let mode := min (fld u.sleepCfg 0 2) (txAllowed s q.val)
  let idle := max 1 (fld u.sleepCfg 2 14)
  if rbit u.cfg 0 && decide (1 ≤ mode) && decide (u.tx.st = .active) && u.tx.reqAt.isNone && u.txq.isEmpty &&
      atLeastUs (s.now - u.tx.idleAt) idle then
    let token := (u.tx.token + 1) % 16
    let after := if mode = 2 then max 1 (fld u.sleepCfg 18 14) else 0
    let s := emitOn q.val (.block (sleepBlock 1 token (mode + 4 * after))) s
    let u := quadOf s q.val
    .next (setQuad q.val { u with tx := { u.tx with token := token, reqAt := some s.now, wakeSeen := false } } s)
  else .next s

/-- Control block types of Table 13-1. -/
def ctlTypes : List Nat := [0x1E, 0xD1, 0x78, 0x87, 0x2D, 0x33, 0x55]

/-- A control block of another type, or a protected block that breaks R310, is discarded and counted in CTL_ERR (R306, R310). -/
def ctlBad (b : BitVec 64) : Bool :=
  !ctlTypes.contains (blkByte b 0) || ([0x2D, 0x33, 0x55].contains (blkByte b 0) && !ctlGood b)

/-- A control block that the receiver discards is counted. -/
def ctlErr (q : Nat) (s : State) : State :=
  let u := quadOf s q
  setQuad q { u with ctlErr := bump 32 u.ctlErr 1 } s

/-- The block is a sleep block with the given op. -/
def isSleep (b : BitVec 64) (op : Nat) : Bool := decide (blkByte b 0 = 0x55 ∧ ctlOp b = op)

/-- SLEEP_REQ_RECEIVED (R337): answer with the lowest of the requested state, RX_ACCEPT and Table 12-5. -/
def execSleepReqReceived (t : Tick) (q : Fin 16) (b : BitVec 64) (s : State) : Host.Outcome State Fault Refusal :=
  let s := s.advance t
  if !(quadOf s q.val).up then .next s
  else if ctlBad b then .next (ctlErr q.val s)
  else if !isSleep b 1 then .next s
  else
    let req := ctlParam b % 4
    let after := ctlParam b / 4
    let g := if req = 3 then 0 else min req (min (fld (quadOf s q.val).sleepCfg 16 2) (rxAllowed s q.val))
    if 1 ≤ g then
      let s := emitOn q.val (.block (sleepBlock 2 (ctlHi b) (g + 4 * after))) s
      let u := quadOf s q.val
      .next (setQuad q.val { u with
        rx := { u.rx with token := ctlHi b, ackAt := some s.now, granted := g, sleepAfter := after } } s)
    else
      let s := emitOn q.val (.block (sleepBlock 3 (ctlHi b) 0)) s
      let u := quadOf s q.val
      .next (setQuad q.val { u with rx := { u.rx with token := ctlHi b } } s)

/-- The transmit direction gives its request up: ABORT, and no new REQ for another TX_IDLE (R338). -/
def abortReq (q : Nat) (s : State) : State :=
  let s := emitOn q (.block (sleepBlock 5 (quadOf s q).tx.token 0)) s
  let u := quadOf s q
  setQuad q { u with tx := { u.tx with reqAt := none, idleAt := s.now } } s

/-- SLEEP_ACK_RECEIVED (R338): COMMIT and DOZE, or ABORT; a direction that Table 12-5 no longer lets sleep aborts (R302). -/
def execSleepAckReceived (t : Tick) (q : Fin 16) (b : BitVec 64) (s : State) : Host.Outcome State Fault Refusal :=
  let s := s.advance t
  let u := quadOf s q.val
  if !u.up then .next s
  else if ctlBad b then .next (ctlErr q.val s)
  else if isSleep b 2 && u.tx.reqAt.isSome && decide (ctlHi b = u.tx.token) then
    let g := min (ctlParam b % 4) (txAllowed s q.val)
    if u.held.isEmpty && u.txq.isEmpty && !u.tx.wakeSeen && decide (1 ≤ g) then
      let s := emitOn q.val (.block (sleepBlock 4 u.tx.token (ctlParam b))) s
      let u := quadOf s q.val
      .next (setQuad q.val { u with tx := { u.tx with
        st := .doze, reqAt := none, granted := g, sleepAfter := ctlParam b / 4, since := s.now } } s)
    else .next (abortReq q.val s)
  else .next s

/-- SLEEP_NAK_RECEIVED (R338). -/
def execSleepNakReceived (t : Tick) (q : Fin 16) (b : BitVec 64) (s : State) : Host.Outcome State Fault Refusal :=
  let s := s.advance t
  let u := quadOf s q.val
  if !u.up then .next s
  else if ctlBad b then .next (ctlErr q.val s)
  else if isSleep b 3 && u.tx.reqAt.isSome && decide (ctlHi b = u.tx.token) then
    .next (setQuad q.val { u with tx := { u.tx with reqAt := none, idleAt := s.now } } s)
  else .next s

/-- SLEEP_REQ_TIMEOUT (R338): no answer within 250 µs. -/
def execSleepReqTimeout (t : Tick) (q : Fin 16) (s : State) : Host.Outcome State Fault Refusal :=
  let s := s.advance t
  match (quadOf s q.val).tx.reqAt with
  | some r => if atLeastUs (s.now - r) 250 then .next (abortReq q.val s) else .next s
  | none => .next s

/-- The lanes of a quad detect a signal, or none (LANE_STAT.SIG, R305). -/
def setSig (q : Nat) (b : Bool) (s : State) : State := (quadLanes s q).foldl (fun s l => setLane l { laneOf s l with sig := b } s) s

/-- The receive direction commits to DOZE, and its signal ends (R339, R305). One that Table 12-5 no longer lets sleep stays ACTIVE and wakes the
far end (R302). -/
def rxDoze (q : Nat) (s : State) : State :=
  let u := quadOf s q
  if 1 ≤ rxAllowed s q then setSig q false (setQuad q { u with rx := { u.rx with st := .doze, ackAt := none, since := s.now } } s)
  else sendWake q (setQuad q { u with rx := { u.rx with ackAt := none } } s)

/-- COMMIT_RECEIVED (R339). -/
def execCommitReceived (t : Tick) (q : Fin 16) (b : BitVec 64) (s : State) : Host.Outcome State Fault Refusal :=
  let s := s.advance t
  let u := quadOf s q.val
  if !u.up then .next s
  else if ctlBad b then .next (ctlErr q.val s)
  else if isSleep b 4 && u.rx.ackAt.isSome && decide (ctlHi b = u.rx.token) then .next (rxDoze q.val s)
  else .next s

/-- ABORT_RECEIVED (R339): the receive direction stays ACTIVE. -/
def execAbortReceived (t : Tick) (q : Fin 16) (b : BitVec 64) (s : State) : Host.Outcome State Fault Refusal :=
  let s := s.advance t
  let u := quadOf s q.val
  if !u.up then .next s
  else if ctlBad b then .next (ctlErr q.val s)
  else if isSleep b 5 then .next (setQuad q.val { u with rx := { u.rx with ackAt := none } } s)
  else .next s

/-- SIGNAL_LOST_AFTER_ACK (R339): signal lost within 250 µs after the ACK; a direction that sleeps already only detects none (R305). -/
def execSignalLostAfterAck (t : Tick) (q : Fin 16) (s : State) : Host.Outcome State Fault Refusal :=
  let s := s.advance t
  match (quadOf s q.val).rx.ackAt with
  | some a =>
    if decide ((s.now - a) * 1000000 ≤ 250 * tickHz) then
      .next (setSig q.val false (rxDoze q.val s))
    else .next s
  | none => .next (if rxAsleep s q.val then setSig q.val false s else s)

/-- SLEEP_AFTER_EXPIRY (R338, R339): sleep-after ms in DOZE with granted state 2. -/
def execSleepAfterExpiry (t : Tick) (q : Fin 16) (transmit : Bool) (s : State) : Host.Outcome State Fault Refusal :=
  let s := s.advance t
  let u := quadOf s q.val
  if transmit then
    if u.tx.st = .doze ∧ u.tx.granted = 2 ∧ txAllowed s q.val = 2 ∧ atLeastMs (s.now - u.tx.since) u.tx.sleepAfter then
      .next (setQuad q.val { u with tx := { u.tx with st := .sleep } } s)
    else .next s
  else
    if u.rx.st = .doze ∧ u.rx.granted = 2 ∧ rxAllowed s q.val = 2 ∧ atLeastMs (s.now - u.rx.since) u.rx.sleepAfter then
      .next (setQuad q.val { u with rx := { u.rx with st := .sleep } } s)
    else .next s

/-- WAKE_RECEIVED (R340). -/
def execWakeReceived (t : Tick) (q : Fin 16) (b : BitVec 64) (s : State) : Host.Outcome State Fault Refusal :=
  let s := s.advance t
  let u := quadOf s q.val
  if !u.up then .next s
  else if ctlBad b then .next (ctlErr q.val s)
  else if !isSleep b 6 then .next s
  else if u.tx.reqAt.isSome then .next (setQuad q.val { u with tx := { u.tx with wakeSeen := true } } s)
  else .next (startWake q.val s)

/-- TX_WAKE (R301, R341): 128 idle blocks on each lane, a marker set, then what waits. -/
def execTxWake (t : Tick) (q : Fin 16) (s : State) : Host.Outcome State Fault Refusal :=
  let s := s.advance t
  let u := quadOf s q.val
  let must := !u.held.isEmpty || decide (fld u.sleepCfg 0 2 = 0) || decide (txAllowed s q.val = 0)
  let go := match u.tx.st with
    | .waking => true
    | .active => false
    | _ => must
  if go then
    let items := [(s.now, LaneOut.idle 128), (s.now, LaneOut.markerSet (vget s.link.coder q.val Coder.reset).marker)] ++ u.held
    .next (items.foldl (fun s x => sendOn q.val x.1 x.2 s) (setQuad q.val { u with
      held := [], tx := { u.tx with st := .active, since := s.now, idleAt := s.now } } s))
  else .next s

/-- SIGNAL_DETECT (R300, R339): a sleeping receive direction wakes; it is ACTIVE with the marker set that follows (R341). -/
def execSignalDetect (t : Tick) (q : Fin 16) (s : State) : Host.Outcome State Fault Refusal :=
  let s := s.advance t
  let u := quadOf s q.val
  if rxAsleep s q.val then
    .next (setSig q.val true (setQuad q.val { u with rx := { u.rx with st := .waking, ackAt := none } } s))
  else .next s

end Sys2Proof.Machine
end

