-- ==== Sys2Proof/Machine/Link.lean ====
section
/-!
DEFINITION. The link protocol of mesh and twin quads (13_link_frames.md R324 to R335): credit, retry, routing, forwarding,
link state, and the credit of product and map quads (R319).
-/
namespace Sys2Proof.Machine

/-- Credit left on a virtual channel (R319, R328): cumulative received less consumed, modulo 65,536. -/
def creditLeft (u : QuadState) (vc : Nat) : Nat := seqDist (vget u.crUsed vc 0) (vget u.crIn vc 0)

/-- Consume credit. -/
def useCredit (u : QuadState) (vc n : Nat) : QuadState :=
  { u with crUsed := vset u.crUsed vc ((vget u.crUsed vc 0 + n) % 65536) }

/-- Data blocks of a data area. -/
def blocksOf (data : Bytes) : Nat := ceilDiv data.length 8

/-- Bytes 0 and 1 of a mesh or twin data area hold the link sequence. -/
def withSeq (data : Bytes) (seq : Nat) : Bytes := le 2 seq ++ data.drop 2

/-- Resend, in sequence order, what is due and covered by credit. -/
def pumpResendN : Nat → Nat → State → State
  | 0, _, s => s
  | k + 1, q, s =>
    let u := quadOf s q
    match u.resend with
    | [] => s
    | e :: rest =>
      match u.replayBuf.find? (fun r => r.seq = e) with
      | none => pumpResendN k q (setQuad q { u with resend := rest } s)
      | some r =>
        let c := credits (blocksOf r.data)
        if c ≤ creditLeft u r.vc then
          let u := { useCredit u r.vc c with resend := rest, replay := bump 32 u.replay 1 }
          pumpResendN k q (emitOn q (.frame (mkFrame (quadRole s q) r.kind (withSeq r.data r.seq))) (setQuad q u s))
        else s

/-- Send one new frame under the next sequence (R332): the window and the credit must cover it. -/
def sendNew (q vc kind : Nat) (data : Bytes) (s : State) : Option State :=
  let u := quadOf s q
  let c := credits (blocksOf data)
  if u.up && decide (seqDist u.oldest u.txSeq < 64) && decide (c ≤ creditLeft u vc) then
    let seq := u.txSeq
    let u := { useCredit u vc c with
      txSeq := (seq + 1) % 65536
      ackAt := if u.oldest = seq then s.now else u.ackAt
      replayBuf := u.replayBuf ++ [⟨seq, vc, kind, data, false, false⟩] }
    some (emitOn q (.frame (mkFrame (quadRole s q) kind (withSeq data seq))) (setQuad q u s))
  else none

/-- Send the new frames that wait, in order on each virtual channel. `shut` are the channels on which an earlier one waits. -/
def pumpNew (q : Nat) : List TxWait → List Nat → State → State
  | [], _, s => s
  | w :: rest, shut, s =>
    let u := quadOf s q
    match (if shut.contains w.vc then none else sendNew q w.vc w.kind w.data s) with
    | none => pumpNew q rest (w.vc :: shut) (setQuad q { u with txq := u.txq ++ [w] } s)
    | some s' => pumpNew q rest shut s'

/-- Forward what waits for an outgoing quad, in order of arrival on each virtual channel, as far as window and credit go (R328, R329). `shut`
are the channels on which an earlier one waits. -/
def pumpFwd (q : Nat) : List (Nat × FwdFrame) → List Nat → State → State
  | [], _, s => s
  | (id, f) :: rest, shut, s =>
    match (if shut.contains f.vc then none else sendNew q f.vc f.kind f.data s) with
    | none => pumpFwd q rest (f.vc :: shut) s
    | some s' => pumpFwd q rest shut (returnCredit f.inQuad f.inVc (blocksOf f.data) { s' with link.fwd := Tab.del s'.link.fwd id })

/-- Send everything a mesh or twin quad may send now: resends first, in sequence order, and only when none is left new frames and then
forwarded ones. -/
def pump (q : Nat) (s : State) : State :=
  if (quadOf s q).up then
    let s := pumpResendN (quadOf s q).resend.length q s
    if (quadOf s q).resend.isEmpty then
      let s := pumpNew q (quadOf s q).txq [] (setQuad q { quadOf s q with txq := [] } s)
      pumpFwd q (s.link.fwd.filter (fun p => decide (p.2.outQuad = q))) [] s
    else s
  else s

/-- Hand a frame of this device to a mesh or twin quad. -/
def linkSend (q vc kind : Nat) (data : Bytes) (s : State) : State :=
  let u := quadOf s q
  pump q (setQuad q { u with txq := u.txq ++ [⟨vc, kind, data⟩] } s)

/-! ## Acknowledgement (R332, R333) -/

/-- Mark every frame before `upto` acknowledged. Mesh frames stay until 64 later sequences are acknowledged (R335). -/
def ackUpTo (q upto : Nat) (s : State) : State :=
  let u := quadOf s q
  let advanced := decide (u.oldest ≠ upto)
  let u := { u with
    oldest := upto
    ackAt := if advanced then s.now else u.ackAt
    resend := u.resend.filter (fun e => decide (seqDist upto e < 64)) }
  let keep (r : Replay) : Bool :=
    let d := seqDist r.seq upto
    decide (d = 0 ∨ 32768 ≤ d) || (decide (quadRole s q = 4) && decide (d ≤ 64))
  let mark (r : Replay) : Replay :=
    if 0 < seqDist r.seq upto ∧ seqDist r.seq upto < 32768 then { r with acked := true } else r
  setQuad q { u with replayBuf := (u.replayBuf.map mark).filter keep } s

/-- The block is a sequence block with the given op (Table 13-1). -/
def isSeq (b : BitVec 64) (op : Nat) : Bool := decide (blkByte b 0 = 0x33 ∧ ctlOp b = op)

/-- The quad runs the retry protocol. -/
def retries (s : State) (q : Nat) : Bool := quadHas s q 4 || quadHas s q 5

/-- ACK_RECEIVED (R332). -/
def execAckReceived (t : Tick) (q : Fin 16) (b : BitVec 64) (s : State) : Host.Outcome State Fault Refusal :=
  let s := s.advance t
  if !(quadOf s q.val).up then .next s
  else if ctlBad b then .next (ctlErr q.val s)
  else if retries s q.val && isSeq b 1 then
    let u := quadOf s q.val
    if seqDist u.oldest (ctlParam b) < seqDist u.oldest u.txSeq then
      .next (pump q.val (ackUpTo q.val ((ctlParam b + 1) % 65536) s))
    else .next (setQuad q.val { u with ackStray := u.ackStray + 1 } s)
  else .next s

/-- The sequences from `a` up to but not including `b`. -/
def seqRange (a b : Nat) : List Nat := (List.range (seqDist a b)).map (fun i => (a + i) % 65536)

/-- Resend every unacknowledged frame from the oldest. -/
def resendAll (q : Nat) (s : State) : State :=
  let u := quadOf s q
  pump q (setQuad q { u with resend := seqRange u.oldest u.txSeq } s)

/-- NAK_RECEIVED (R332). -/
def execNakReceived (t : Tick) (q : Fin 16) (b : BitVec 64) (s : State) : Host.Outcome State Fault Refusal :=
  let s := s.advance t
  if !(quadOf s q.val).up then .next s
  else if ctlBad b then .next (ctlErr q.val s)
  else if retries s q.val && isSeq b 2 then
    let u := quadOf s q.val
    if seqDist u.oldest (ctlParam b) ≤ seqDist u.oldest u.txSeq then
      .next (resendAll q.val (ackUpTo q.val (ctlParam b) s))
    else .next s
  else .next s

/-- RETRY_TIMEOUT (R332): unacknowledged frames exist and no acknowledgement has advanced for RTO, which then runs anew. -/
def execRetryTimeout (t : Tick) (q : Fin 16) (s : State) : Host.Outcome State Fault Refusal :=
  let s := s.advance t
  let u := quadOf s q.val
  if retries s q.val && decide (u.oldest ≠ u.txSeq) && atLeastUs (s.now - u.ackAt) (max 1 (fld u.linkCfg 0 14)) then
    .next (resendAll q.val (setQuad q.val { u with ackAt := s.now } s))
  else .next s

/-! ## Credit -/

/-- CREDIT_BLOCK (R319, R328, R331). -/
def execCreditBlock (t : Tick) (q : Fin 16) (b : BitVec 64) (s : State) : Host.Outcome State Fault Refusal :=
  let s := s.advance t
  let u := quadOf s q.val
  let role := quadRole s q.val
  let vcs := if role = 4 then 2 else if role = 5 ∨ role = 6 ∨ role = 7 then 1 else 0
  if !u.up then .next s
  else if ctlBad b then .next (ctlErr q.val s)
  else if decide (blkByte b 0 = 0x2D) && decide (ctlHi b = 0) && decide (ctlOp b < vcs) then
    let s := setQuad q.val { u with crIn := vset u.crIn (ctlOp b) (ctlParam b) } s
    .next (if retries s q.val then pump q.val s else s)
  else .next s

/-- CREDIT_GRANT_SEND (R328, R331): the cumulative grant, at least every 10 µs. -/
def execCreditGrantSend (t : Tick) (q : Fin 16) (vc : Fin 2) (s : State) : Host.Outcome State Fault Refusal :=
  let s := s.advance t
  if rbit (quadOf s q.val).cfg 0 && (roleVcs (quadRole s q.val)).contains vc.val then .next (sendCredit q.val vc.val s)
  else .next s

/-- ALIGNMENT_MARKER (R289, R293): the set is checked; the quad gains or loses alignment, and the lanes say whether spread is detected on
the receive direction (R303). Frames that wait go out once the quad is up. A receive direction that sleeps keeps its state (R339), one that
wakes is ACTIVE with a good set, behind which its stripe starts anew (R289, R341). -/
def execAlignmentMarker (t : Tick) (q : Fin 16) (ms : List MarkerSeen) (s : State) : Host.Outcome State Fault Refusal :=
  let s := s.advance t
  if !rbit (quadOf s q.val).cfg 0 || rxAsleep s q.val then .next s
  else
    let u := { quadOf s q.val with ssc := ms.any (·.spread) }
    if markersGood s q.val ms then
      let s := setQuad q.val { u with rx := { u.rx with st := .active }, rxK := if u.rx.st = .waking then 0 else u.rxK } s
      if u.up then .next s
      else
        let s := quadUp q.val s
        .next (if retries s q.val then pump q.val s else s)
    else .next (quadDown q.val (setQuad q.val u s))

/-! ## Mesh routing (R322, R325 to R329) -/

/-- Torus columns and rows (Table 13-12). -/
def xdim (s : State) : Nat := fld s.link.meshCfg 10 6
def ydim (s : State) : Nat := fld s.link.meshCfg 16 6

/-- The routing id of this device: MESH_CFG.CHIP (R430). -/
def routeChip (s : State) : Nat := fld s.link.meshCfg 0 10

/-- The quad of mesh port `p` when it is in use (Table 13-13): 0 +x, 1 −x, 2 +y, 3 −y. -/
def portQuad (s : State) (p : Nat) : Option Nat :=
  let f := fld s.link.meshPort (5 * p) 5
  if f / 16 = 1 then some (f % 16) else none

/-- Mesh port `p` of this device is up. -/
def portUp (s : State) (p : Nat) : Bool :=
  match portQuad s p with
  | some q => quadHas s q 4 && (quadOf s q).up
  | none => false

/-- The port of a device at `c` towards `dest` (R325): x first, then y, the shorter way, + on a tie. -/
def routePort (xd yd c dest : Nat) : Option Nat :=
  let dx := (dest % xd + xd - c % xd) % xd
  let dy := (dest / xd + yd - c / xd) % yd
  if dx ≠ 0 then some (if 2 * dx ≤ xd then 0 else 1)
  else if dy ≠ 0 then some (if 2 * dy ≤ yd then 2 else 3)
  else none

/-- The neighbour through a port. -/
def neighbour (xd yd c p : Nat) : Nat :=
  let x := c % xd
  let y := c / xd
  match p with
  | 0 => (x + 1) % xd + xd * y
  | 1 => (x + xd - 1) % xd + xd * y
  | 2 => x + xd * ((y + 1) % yd)
  | _ => x + xd * ((y + yd - 1) % yd)

/-- The link out of port `p` at coordinate `c` is a dateline link (R326). -/
def datelineOut (xd yd c p : Nat) : Bool :=
  match p with
  | 0 => decide (c % xd = xd - 1)
  | 1 => decide (c % xd = 0)
  | 2 => decide (c / xd = yd - 1)
  | _ => decide (c / xd = 0)

/-- Port `p` at coordinate `c` is up by the device's latest link-state frame, at most 30 ms old (R327); this device knows its own ports. -/
def portSeen (s : State) (c p : Nat) : Bool :=
  if c = routeChip s then portUp s p
  else match Tab.get s.link.links c with
    | some l => bitOf l.ports p && decide ((s.now - l.at_) * 1000 ≤ 30 * tickHz)
    | none => false

/-- The port at the other end of a link: − for +, + for −. -/
def farPort (p : Nat) : Nat := if p % 2 = 0 then p + 1 else p - 1

/-- Every link from `c` to `dest` is up by the frames of the devices at both its ends, the destination among them (R327). -/
def pathUpN (s : State) : Nat → Nat → Nat → Bool
  | 0, _, _ => false
  | k + 1, c, dest =>
    match routePort (xdim s) (ydim s) c dest with
    | none => true
    | some p =>
      let n := neighbour (xdim s) (ydim s) c p
      portSeen s c p && portSeen s n (farPort p) && pathUpN s k n dest

/-- An owner is reachable (R327), and its port is not cut off by a plan mismatch (R86). -/
def reachable (s : State) (dest : Nat) : Bool :=
  decide (0 < xdim s ∧ 0 < ydim s ∧ dest < xdim s * ydim s) && pathUpN s 128 (routeChip s) dest

/-- The mesh port a quad serves. -/
def quadPort (s : State) (q : Nat) : Option Nat := (List.range 4).find? (fun p => portQuad s p = some q)

/-- Forward an accepted frame, or discard it when its next link is down (R326, R329, R334). -/
def forward (inQuad seq kind : Nat) (data : Bytes) (s : State) : State :=
  let n := blocksOf data
  let dest := fieldU data 2 2 % 1024
  let inVc := fieldU data 6 1
  let c := routeChip s
  match routePort (xdim s) (ydim s) c dest with
  | none => returnCredit inQuad inVc n (countDiscard dest s)
  | some p =>
    match portQuad s p with
    | none => lateNotice inQuad 2 seq (returnCredit inQuad inVc n (countDiscard dest s))
    | some oq =>
      if !portUp s p then lateNotice inQuad 2 seq (returnCredit inQuad inVc n (countDiscard dest s))
      else
        let inPort := (quadPort s inQuad).getD 0
        -- the frame came over the link out of the neighbour's opposite port
        let came := farPort inPort
        let crossed := datelineOut (xdim s) (ydim s) (neighbour (xdim s) (ydim s) c inPort) came
        let vc := if came / 2 = p / 2 then (if crossed then 1 else inVc) else 0
        let d := data.take 6 ++ le 1 vc ++ le 1 (fieldU data 7 1 + 1) ++ data.drop 8
        pump oq { s with
          link.fwd := Tab.put s.link.fwd s.link.nextFwd ⟨inQuad, seq, inVc, oq, vc, kind, d, dest, s.now⟩
          link.nextFwd := s.link.nextFwd + 1 }

/-- The mesh header (Table 13-5) with seq 0. -/
def meshHeader (dest src vc : Nat) : Bytes := le 2 0 ++ le 2 dest ++ le 2 src ++ le 1 vc ++ le 1 0 ++ zeros 8

/-- The header of a frame that has crossed `n` links. -/
def withHops (n : Nat) (h : Bytes) : Bytes := h.take 7 ++ le 1 n ++ h.drop 8

/-- Send a mesh frame of this device towards `dest`; `false` when its first link is not there. -/
def meshSend (dest kind : Nat) (body : Bytes) (s : State) : State :=
  match (routePort (xdim s) (ydim s) (routeChip s) dest).bind (portQuad s) with
  | some q => linkSend q 0 kind (meshHeader dest s.chip 0 ++ body) s
  | none => countDiscard dest s

/-- FORWARD_TIMEOUT (R329): not forwarded within 1 ms, for lack of credit on the outgoing channel. -/
def execForwardTimeout (t : Tick) (frame : Nat) (s : State) : Host.Outcome State Fault Refusal :=
  let s := s.advance t
  match Tab.get s.link.fwd frame with
  | some f =>
    if atLeastMs (s.now - f.at_) 1 ∧ creditLeft (quadOf s f.outQuad) f.vc < credits (blocksOf f.data) then
      .next (dropFwd false frame s)
    else .next s
  | none => .next s

/-- Header fields of a mesh frame lie in their ranges (Table 13-5, R311). -/
def meshFieldsOk (f : RawFrame) : Bool :=
  decide (fieldU f.data 2 2 < 1024 ∧ fieldU f.data 4 2 < 1024 ∧ fieldU f.data 6 1 < 2) && decide (2 ≤ f.n.toNat)

/-- The body of a mesh frame is one of its kinds, with every field in its range (R322 to R324, R311). -/
def meshBodyOk (f : RawFrame) : Bool :=
  match f.kind.toNat with
  | 0 =>
    let n := fieldU f.data 36 2
    decide (1 ≤ n ∧ n ≤ 32 ∧ f.n.toNat = 8 + 26 * n ∧ fieldU f.data 16 1 < 16 ∧ fieldU f.data 24 8 < 2 ^ 48)
  | 1 => decide (f.n.toNat = 4 ∧ fieldU f.data 16 1 < 16)
  | 2 => decide (f.n.toNat = 4 ∧ fieldU f.data 16 2 < 1024 ∧ fieldU f.data 24 1 < 16)
  | _ => false

/-- A frame that belongs on a mesh quad, whole and in range (R311). -/
def meshFits (f : RawFrame) : Bool := frameGood f && decide (f.profile.toNat = 4) && meshFieldsOk f && meshBodyOk f

/-- Receive a mesh frame (R311, R325, R333): one that R311 discards is counted, a frame for another device is forwarded, and `deliver`
takes one of this kind for this device, which its torus id names (R430). One that is found damaged in the buffer after its acknowledgement is
dropped with a late notice of cause 1 (R334). A good frame of another kind is the operand of another command (log entry 95). -/
def meshReceive (q : Nat) (f : RawFrame) (kind : Nat) (deliver : State → State) (s : State) : State :=
  if !quadHas s q 4 || !(quadOf s q).up then s else
  let good := meshFits f
  if good && decide (f.kind.toNat ≠ kind) then s else
  let seq := fieldU f.data 0 2
  let vc := fieldU f.data 6 1 % 2
  let s := if good then s else crcErr q s
  let (acc, s) := linkReceive q good seq s
  if !acc then returnCredit q vc f.n.toNat s
  else
    let dest := fieldU f.data 2 2
    if f.spoilt then lateNotice q 1 seq (returnCredit q vc f.n.toNat s)
    else if xdim s * ydim s ≤ dest then returnCredit q vc f.n.toNat (countDiscard dest s)
    else if dest = routeChip s then returnCredit q vc f.n.toNat (deliver (frameTaken q s))
    else forward q seq f.kind.toNat f.data s

/-! ## Link state (R324) -/

/-- Ports of this device that are up, as a mask. -/
def ownPorts (s : State) : Nat := ((List.range 4).map (fun p => if portUp s p then 2 ^ p else 0)).sum

/-- Body of a link-state frame from offset 16. -/
def linkStateBody (origin lseq ports : Nat) : Bytes := le 2 origin ++ zeros 2 ++ le 4 lseq ++ le 1 ports ++ zeros 7

/-- Send a link-state frame that crossed `hops` links so far on every up port except `skip`. -/
def sendLinkState (src hops origin lseq ports : Nat) (skip : Option Nat) (s : State) : State :=
  (List.range 4).foldl (fun s p =>
    match portQuad s p with
    | some q =>
      if portUp s p && decide (skip ≠ some q) then
        linkSend q 0 2 (withHops hops (meshHeader (neighbour (xdim s) (ydim s) (routeChip s) p) src 0) ++ linkStateBody origin lseq ports) s
      else s
    | none => s) s

/-- LINK_STATE_ORIGINATE: at every change of ports and every 10 ms, with lseq incremented. -/
def execLinkStateOriginate (t : Tick) (s : State) : Host.Outcome State Fault Refusal :=
  let s := s.advance t
  let lseq := (s.link.lseq + 1) % 2 ^ 32
  .next (sendLinkState s.chip 0 (routeChip s) lseq (ownPorts s) none { s with link.lseq := lseq })

/-- LINK_STATE_FRAME: the newest is held and forwarded on the other up ports. -/
def execLinkStateFrame (t : Tick) (q : Fin 16) (f : RawFrame) (s : State) : Host.Outcome State Fault Refusal :=
  let s := s.advance t
  .next (meshReceive q.val f 2 (fun s =>
    let origin := fieldU f.data 16 2
    let lseq := fieldU f.data 20 4
    let ports := fieldU f.data 24 1
    let newer := match Tab.get s.link.links origin with
      | none => true
      | some l => decide (0 < (lseq + 2 ^ 32 - l.lseq) % 2 ^ 32 ∧ (lseq + 2 ^ 32 - l.lseq) % 2 ^ 32 < 2 ^ 31)
    if newer && decide (origin ≠ routeChip s) then
      sendLinkState (fieldU f.data 4 2) (fieldU f.data 7 1 + 1) origin lseq ports (some q.val)
        { s with link.links := Tab.put s.link.links origin ⟨lseq, ports, s.now⟩ }
    else s) s)

/-- LATE_NOTICE_RECEIVED (R335): it always finds its frame, once, whether or not the acknowledgement has come; cause 1 resends the content
once as a new frame; cause 2 is counted, and for a source the owner is unreachable for the rest of that contribution (R91). -/
def execLateNoticeReceived (t : Tick) (q : Fin 16) (b : BitVec 64) (s : State) : Host.Outcome State Fault Refusal :=
  let s := s.advance t
  let u := quadOf s q.val
  if !u.up then .next s
  else if ctlBad b then .next (ctlErr q.val s)
  else if quadHas s q.val 4 && isSeq b 3 then
    match u.replayBuf.find? (fun r => decide (r.seq = ctlParam b) && !r.told) with
    | none => .next s
    | some r =>
      let s := setQuad q.val { u with replayBuf := u.replayBuf.map (fun x => if x.seq = r.seq then { x with told := true } else x) } s
      if ctlHi b = 1 then .next (linkSend q.val r.vc r.kind r.data s)
      else if ctlHi b = 2 then
        let dest := fieldU r.data 2 2
        let s := countDiscard dest s
        if decide (fieldU r.data 4 2 = s.chip) && decide (r.kind = 0) then
          let key := fieldU r.data 16 1 * 65536 + fieldU r.data 18 2
          let i := fieldU r.data 24 8
          match Tab.get s.chan.send key, planFor s (key / 65536) (key % 65536) (fieldU r.data 20 4) i with
          | some x, some p =>
            let k := strokeKey p.vid i
            .next { s with chan.send := Tab.put s.chan.send key { x with cut := Tab.put x.cut dest k } }
          | _, _ => .next s
        else .next s
      else .next s
  else .next s

end Sys2Proof.Machine
end

