-- ==== Sys2Proof/Machine/Time.lean ====
section
/-!
DEFINITION. The timebase (11_timebase.md) and its time frames (13_link_frames.md R320, R321).
-/
namespace Sys2Proof.Machine

/-- State of reference `n`. -/
def refOf (s : State) (n : Nat) : RefState := vget s.tb.refs n RefState.reset

/-- Replace the state of reference `n`. -/
def setRef (n : Nat) (r : RefState) (s : State) : State := { s with tb.refs := vset s.tb.refs n r }

/-- Bytes of a signed value that saturates at 32 bits (R515). -/
def s32 (v : Int) : Bytes := leS 4 (satS 32 v)

/-! ## The walk (R274) -/

/-- End a walk with cause 0 O reached 0, 1 time set, 2 WALK cleared. -/
def endWalk (cause : Nat) (s : State) : State :=
  if s.tb.walking then
    postEvent 0x58 0 (leS 8 s.offsetO ++ le 1 cause) { s with tb.walking := false }
  else s

/-- Start or end a walk as CTL.WALK and O call for. -/
def walkCheck (s : State) : State :=
  if rbit s.tb.ctl 0 && decide (s.tb.oNano ≠ 0) then
    if s.tb.walking then s else postEvent 0x57 0 (leS 8 s.offsetO) { s with tb.walking := true }
  else if s.tb.oNano = 0 then endWalk 0 s
  else endWalk 2 s

/-- Set O, in units of 2⁻³² s, to what the selected reference measures now: no phase error is left. -/
def setO (o : Int) (s : State) : State := walkCheck { s with tb.oNano := o * 1000000000, tb.phaseErr := 0 }

/-- WALK_STEP: |O| has fallen by WALK_RATE ns for each second of the walk (`State.advance`, with the frequency offset `walkFreq` that moves the
time word by as much); the walk ends when O has reached 0 (R274). -/
def execWalkStep (t : Tick) (s : State) : Host.Outcome State Fault Refusal :=
  let s := s.advance t
  if s.tb.walking then .next (walkCheck s) else .next s

/-! ## Selection and states (R266, R272, R273) -/

/-- Enter a timebase state: the state event when it changes (Table 11-4). The first second of the history begins with LOCKED (R271). -/
def enterState (new : TbSt) (s : State) : State :=
  let old := s.tb.st
  if old = new then s
  else
    let s := { s with tb.st := new, tb.freqSum := 0, tb.histFrom := s.now }
    postEvent 0x56 (old.code + 256 * new.code) [BitVec.ofNat 8 (b01 (holdOk s s.now)), BitVec.ofNat 8 (selCode s)] s

/-- O as a newly selected reference gives it (R273). -/
def newO (s : State) (n : Nat) : Int := if refTime s n then (refOf s n).diff else 0

/-- Select reference `n`: Δ is absorbed into O and reported. -/
def selectRef (n : Fin 4) (cause : Nat) (s : State) : State :=
  let old := selCode s
  let delta := newO s n.val - s.offsetO
  let s := if s.tb.sel.isSome then openRecovery 4 0 s else s
  let s := { s with
    tb.sel := some n, tb.trigger := none, tb.lockFrom := s.now
    tb.switches := s.tb.switches ++ [⟨s.tb.sets, s.tw, s.now, delta⟩] }
  let s := postEvent 0x55 (old + 256 * n.val) (leS 8 delta ++ le 1 cause) s
  setO (newO s n.val) s

/-- The selectable references. -/
def candidates (s : State) : List (Fin 4) := ([0, 1, 2, 3] : List (Fin 4)).filter (fun n => refSelectable s n.val)

/-- The best-ranked reference of a list (R266). -/
def bestRef (s : State) (l : List (Fin 4)) : Option (Fin 4) :=
  l.foldl (fun b n => match b with
    | none => some n
    | some m => if refRank s n.val < refRank s m.val then some n else some m) none

/-- The selected reference is lost with no alternative in force: HOLDOVER when it is available for the trigger instant,
otherwise FREE-RUN (R272, Table 11-3). -/
def loseRef (s : State) : State :=
  let tr := s.tb.trigger.getD s.now
  let s := openRecovery 4 0 s
  let s := { s with tb.sel := none, tb.trigger := none }
  let s := setO 0 s
  if holdOk s tr then
    let l := holdEntries s tr
    enterState .holdover { s with tb.holdVal := roundDiv l.sum l.length, tb.holdAt := s.now }
  else enterState .freeRun s

/-- Select from no selection: PULL-IN (Table 11-3). A switch that is decided while an output is gated waits until the gate opens (R267). -/
def pullIn (s : State) : State :=
  if gated s then s else
  match bestRef s (candidates s) with
  | none => s
  | some n => enterState .pullIn (selectRef n 3 s)

/-- A switch that is called for while an output is gated waits until the gate opens (R267); the window of the recovery opens now (Table 17-7). -/
def switchTo (n : Fin 4) (cause : Nat) (s : State) : State := if gated s then openRecovery 4 0 s else selectRef n cause s

/-- Evaluate selection (R266). A suspect reference gives way to the best selectable one in any state (R269); one that is lost in PULL-IN
goes by HOLDOVER or FREE-RUN (Table 11-3). While the selected reference is selectable there is no trigger instant (R272). -/
def reselect (s : State) : State :=
  match s.tb.sel with
  | none => pullIn s
  | some c =>
    if refSelectable s c.val then
      let s := { s with tb.trigger := none }
      match bestRef s ((candidates s).filter (fun n => n ≠ c)) with
      | none => s
      | some n =>
        if refQual s n.val < refQual s c.val then switchTo n 0 s
        else if refQual s n.val = refQual s c.val ∧ refRank s n.val < refRank s c.val ∧ rbit s.tb.ctl 5 then switchTo n 2 s
        else s
    else if s.tb.st = .locked ∨ (refOf s c.val).st = .suspect then
      match bestRef s (candidates s) with
      | some n => switchTo n 1 s
      | none => loseRef s
    else pullIn (loseRef s)

/-- A reference's time became valid or invalid (Table 11-4): the event, and O of the selected reference follows (section
Switching references; log entry 13). -/
def timeChange (n : Nat) (cause : Nat) (was : Bool) (s : State) : State :=
  let is := refTime s n
  if was = is then s
  else
    let s := postEvent 0x52 n [BitVec.ofNat 8 (b01 is), BitVec.ofNat 8 (if is then 0 else cause)] s
    if selCode s = n then setO (newO s n) s else s

/-- A reference is disqualified or becomes inactive: the event, and selection. -/
def dropRef (n : Nat) (st : RefSt) (cause : Nat) (s : State) : State :=
  let r := refOf s n
  let trig := if selCode s = n ∧ s.tb.trigger.isNone then some s.now else s.tb.trigger
  let s := setRef n { r with st := st, inBand := 0, means := [] } { s with tb.trigger := trig }
  reselect (postEvent 0x51 n (le 1 cause ++ zeros 3 ++ s32 r.offs) s)

/-! ## Events of references -/

/-- The code of Table 11-4 of a cause. -/
def inactiveCode : InactiveCause → Nat
  | .noEdge => 0
  | .outOfLock => 1
  | .noFrame => 2
  | .code15 => 3

/-- The designated lane of reference C or D. -/
def refLane (s : State) (n : Nat) : Nat := fld (vget s.tb.refCfg n 0) 12 6

/-- The designated lane is in block lock: a quad that is not up counts as out of it (R293). -/
def refLocked (s : State) (n : Nat) : Bool := (laneOf s (refLane s n)).lock && (quadOf s (refLane s n / 4)).up

/-- The case of R263 holds for the reference. -/
def inactiveHolds (s : State) (n : Nat) (c : InactiveCause) : Bool :=
  match c with
  | .noEdge => decide (n < 2)
  | .outOfLock => decide (2 ≤ n) && !refLocked s n
  | .noFrame => decide (2 ≤ n) && (match (refOf s n).lastAt with
    | some a => atLeastMs (s.now - a) 10
    | none => true)
  | .code15 => decide (2 ≤ n) && decide (qualEff (refOf s n).adv = 15)

/-- A reference becomes inactive (R263). A time reference without frames has no valid time either (R264, R321). -/
def makeInactive (n : Nat) (c : InactiveCause) (s : State) : State :=
  let was := refTime s n
  let r := refOf s n
  let s := if 2 ≤ n ∧ c ≠ .code15 then timeChange n 4 was (setRef n { r with timeValid := false, good := 0 } s) else s
  match r.st with
  | .off => s
  | .inactive => s
  | _ => dropRef n .inactive (inactiveCode c) s

/-- REF_INACTIVE. -/
def execRefInactive (t : Tick) (n : Fin 4) (c : InactiveCause) (s : State) : Host.Outcome State Fault Refusal :=
  let s := s.advance t
  if inactiveHolds s n.val c then .next (makeInactive n.val c s) else .next s

/-- What was measured of reference `n` against the time word, once the time word has moved by `d` (R273): a PPS says nothing but the
fraction of a second. -/
def RefState.shift (r : RefState) (n : Nat) (d : Int) : RefState :=
  { r with diff := if n < 2 then wrapS 32 (r.diff - d) else r.diff - d, lastArr := ((r.lastArr : Int) + d).toNat }

/-- Load an armed time set (R278): the time word takes the value and what has passed since its second, ARM clears, O becomes 0 and any
walk ends. Switches of before keep their time words, in the count before the set (R275). -/
def loadTime (past : Nat) (s : State) : State :=
  let v : Nat := s.tb.tsetLo.toNat + 2 ^ 32 * s.tb.tsetHi.toNat + past
  let d : Int := (v : Int) - s.tw
  endWalk 1 { s with
    tOffset := (v : Int) - s.now, tb.armed := false, tb.oNano := 0, tb.phase := 0, tb.phaseErr := 0
    tb.sets := s.tb.sets + 1
    tb.refs := Vector.ofFn (fun i => (vget s.tb.refs i.val RefState.reset).shift i.val d) }

/-- A time set waits for the next second of the selected time-bearing reference `n`. -/
def armedFor (s : State) (n : Nat) : Bool := s.tb.armed && decide (selCode s = n) && refTime s n

/-- An element group, drive group, glint set-up, audio block or scene is active (R278). -/
def anyActive (s : State) : Bool :=
  !s.cond.started.isEmpty || s.tx.groups.any (fun p => p.2.t0.isSome) || s.glint.cfg.isSome || s.audio.t0.isSome ||
    s.lbox.scene.isSome

/-- The second of a pending set has come: it is loaded, or ignored when something has become active since it was armed (R278). -/
def loadPending (past : Nat) (s : State) : State :=
  if anyActive s then { s with tb.armed := false, tb.tsetErr := true } else loadTime past s

/-- The phase error that a time-bearing reference has shown (R270), if it is the selected one: what its time indication, less O, is ahead of
the time word, for a PPS within half a second. An error beyond ±50 ns starts the 10 s of the criterion anew; 1 ns is 2³² / 10⁹ units. -/
def showPhase (n : Nat) (s : State) : State :=
  if selCode s = n && refTime s n then
    let d := (refOf s n).diff - s.offsetO
    let e := if n < 2 then wrapS 32 d else d
    { s with tb.phaseErr := e, tb.lockFrom := if e.natAbs * 1000000000 ≤ 50 * tickHz then s.tb.lockFrom else s.now }
  else s

/-- PPS_EDGE (R264, R278): ten intervals of one second ± 10 µs in a row make the time valid. -/
def execPpsEdge (t : Tick) (r : Fin 2) (s : State) : Host.Outcome State Fault Refusal :=
  let s := s.advance t
  let n := r.val
  let was := refTime s n
  let x := refOf s n
  let inTol := match x.lastAt with
    | some a => decide (((s.now : Int) - (a : Int) - (tickHz : Int)).natAbs * 100000 ≤ tickHz)
    | none => false
  let good := if inTol then x.good + 1 else 0
  let valid := if inTol then x.timeValid || decide (10 ≤ good) else false
  let s := if armedFor s n && valid then loadPending 0 s else s
  let diff : Int := wrapS 32 (-(s.tw : Int))
  let s := setRef n { x with lastAt := some s.now, good := good, timeValid := valid, diff := diff } s
  .next (showPhase n (timeChange n 2 was s))

/-- PPS_MISSING (R264): an edge missing for 1.1 s. -/
def execPpsMissing (t : Tick) (r : Fin 2) (s : State) : Host.Outcome State Fault Refusal :=
  let s := s.advance t
  let x := refOf s r.val
  match x.lastAt with
  | some a =>
    if atLeastMs (s.now - a) 1100 then
      let was := refTime s r.val
      .next (timeChange r.val 1 was (setRef r.val { x with timeValid := false, good := 0 } s))
    else .next s
  | none => .next s

/-- A reference is active: for C and D the designated lane is in lock and a frame that does not advertise 15 came within 10 ms. -/
def refActive (s : State) (n : Nat) : Bool :=
  if n < 2 then true
  else refLocked s n && decide (qualEff (refOf s n).adv ≠ 15) && (match (refOf s n).lastAt with
    | some a => !atLeastMs (s.now - a) 10
    | none => false)

/-- One 100 ms mean offset, in 0.001 ppm, moves a reference among its states (R265). -/
def qualify (n : Nat) (off : Int) (s : State) : State :=
  let r := { refOf s n with offs := off }
  let inBand := decide (off.natAbs ≤ 2000)
  let start : RefState := { r with st := .qualifying, inBand := b01 inBand }
  match r.st with
  | .off => setRef n r s
  | .inactive => setRef n (if refActive s n then start else r) s
  | .disqualified => setRef n (if refActive s n then start else r) s
  | .qualifying =>
    let k := if inBand then r.inBand + 1 else 0
    if 100 ≤ k then
      let s := setRef n { r with st := .qualified, inBand := 100, means := [] } s
      reselect (postEvent 0x50 n (le 1 (refQual s n)) s)
    else setRef n { r with inBand := k } s
  | .qualified => if 4000 < off.natAbs then dropRef n .disqualified 4 (setRef n r s) else setRef n r s
  | .suspect => if 4000 < off.natAbs then dropRef n .disqualified 4 (setRef n r s) else setRef n r s

/-- REF_QUALIFY_EVAL. -/
def execRefQualifyEval (t : Tick) (r : Fin 4) (offset : Int) (s : State) : Host.Outcome State Fault Refusal :=
  .next (qualify r.val offset (s.advance t))

/-- A one-second mean of a qualified reference, suspect or not, joins its last 101; any other reference keeps none: samples from before its last
qualification are not used (R268). -/
def keepMean (n : Nat) (off : Int) (s : State) : State :=
  let r := refOf s n
  match r.st with
  | .qualified => setRef n { r with means := (off :: r.means).take 101 } s
  | .suspect => setRef n { r with means := (off :: r.means).take 101 } s
  | _ => setRef n { r with means := [] } s

/-- DRIFT_GUARD (R268, R269): once per second, on the 10 s means in 0.001 ppm. -/
def execDriftGuard (t : Tick) (offs : Vector Int 4) (s : State) : Host.Outcome State Fault Refusal :=
  let s := s.advance t
  let s := (List.range 4).foldl (fun s n => keepMean n (vget offs n 0) s) s
  match s.tb.sel with
  | none => .next s
  | some c =>
    let ms := (refOf s c.val).means
    let other := bestRef s ((candidates s).filter (fun n => n ≠ c))
    match ms.head?, ms[100]? with
    | some x0, some x1 =>
      let driftX : Int := (x0 - x1).natAbs
      match other with
      | none =>
        if 1000 < driftX then
          let s := setRef c.val { refOf s c.val with st := .suspect } { s with tb.trigger := some s.now }
          .next (reselect (postEvent 0x53 c.val (s32 driftX ++ s32 0 ++ le 1 7) s))
        else .next s
      | some o =>
        let mo := (refOf s o.val).means
        match mo.head?, mo[100]? with
        | some y0, some y1 =>
          let driftR : Int := ((x0 - y0) - (x1 - y1)).natAbs
          if 1000 < driftX ∧ 1000 < driftR then
            let s := setRef c.val { refOf s c.val with st := .suspect } { s with tb.trigger := some s.now }
            .next (reselect (postEvent 0x53 c.val (s32 driftX ++ s32 driftR ++ le 1 o.val) s))
          else if 1000 < driftR then
            .next (postEvent 0x54 (c.val + 256 * o.val) (s32 driftX ++ s32 driftR) s)
          else .next s
        | _, _ => .next s
    | _, _ => .next s

/-- The criterion of R270: for 10 s since the reference was selected the DPLL's frequency has stayed within ±0.05 ppm of the reference's and
the walk's (`lockSince`) and, for a time-bearing reference, the phase error within ±50 ns (`showPhase`); and the same of the largest errors
that the loop measured in those 10 s, in 0.001 ppm and in ns. -/
def lockMet (s : State) (freqErr phaseErr : Int) : Bool :=
  match s.tb.sel with
  | none => false
  | some n =>
    decide (freqErr.natAbs ≤ 50) && decide ((s.tb.freq - refFreq s).natAbs ≤ 50000 * 2 ^ 32) && (!refTime s n.val || decide (phaseErr.natAbs ≤ 50)) && atLeastMs (s.now - s.tb.lockFrom) 10000

/-- LOCK_ACHIEVED (R270). -/
def execLockAchieved (c : LockCheck) (s : State) : Host.Outcome State Fault Refusal :=
  let s := s.advance c.at_
  if lockMet s c.freqErr c.phaseErr then
    let s := if s.tb.st = .pullIn ∨ s.tb.st = .locked then closeRecovery 4 0 s.tw s else s
    if s.tb.st = .pullIn then .next (enterState .locked s) else .next s
  else .next s

/-- The mean DPLL frequency since the last history entry, or since LOCKED, in 10^-12 (R271). -/
def meanFreq (s : State) : Int := roundDiv s.tb.freqSum (2 * (s.now - s.tb.histFrom) * 2 ^ 32 : Nat)

/-- HISTORY_ENTRY (R271): each second while LOCKED, the mean DPLL frequency over that second. The instant comes as the second and its
fraction. -/
def execHistoryEntry (sec : Nat) (frac : BitVec 32) (s : State) : Host.Outcome State Fault Refusal :=
  let s := s.advance (secTick sec frac)
  if s.tb.st = .locked ∧ tickHz ≤ s.now - s.tb.histFrom then
    .next { s with tb.hist := ((s.now, meanFreq s) :: s.tb.hist).take 1800, tb.freqSum := 0, tb.histFrom := s.now }
  else .next s

/-! ## Synthesiser gates (R277) -/

/-- Gate an output. A gate that is closed already only starts its 10 ms anew. -/
def closeGate (o cause : Nat) (s : State) : State :=
  let g := vget s.tb.gates o ⟨false, 0, 0⟩
  let s' := { s with tb.gates := vset s.tb.gates o ⟨true, cause, s.now⟩ }
  if g.closed then s' else postEvent 0x59 o [1, BitVec.ofNat 8 cause] s'

/-- SYNTH_LOCK_LOST. -/
def execSynthLockLost (t : Tick) (o : Fin 3) (s : State) : Host.Outcome State Fault Refusal :=
  .next (closeGate o.val 3 (s.advance t))

/-- GATE_OPEN: 10 ms within ±50 ppm with the lock detector asserted. Deferred switches take effect (R267). -/
def execGateOpen (t : Tick) (o : Fin 3) (s : State) : Host.Outcome State Fault Refusal :=
  let s := s.advance t
  let g := vget s.tb.gates o.val ⟨false, 0, 0⟩
  if g.closed && atLeastMs (s.now - g.since) 10 then
    let s := postEvent 0x59 o.val [0, 0] { s with tb.gates := vset s.tb.gates o.val ⟨false, 0, s.now⟩ }
    .next (if gated s then s else reselect s)
  else .next s

/-- PPSOUT_PULSE (R280): the fraction of the time word is 0 within ±5 ns (21 units of 2⁻³² s). A device whose boot has failed keeps the output
at reset (R469). -/
def execPpsoutPulse (t : Tick) (s : State) : Host.Outcome State Fault Refusal :=
  let s := s.advance t
  let f := s.tw % tickHz
  if s.boot.phase ≠ 15 ∧ (f ≤ 21 ∨ tickHz - 21 ≤ f) then .next { s with tb.ppsRise := some s.now } else .next s

/-! ## Time frames (Table 13-4, R320, R321) -/

/-- TIME_FRAME_SEND. -/
def execTimeFrameSend (t : Tick) (q : Fin 16) (s : State) : Host.Outcome State Fault Refusal :=
  let s := s.advance t
  if quadHas s q.val 8 then
    let u := quadOf s q.val
    let (te, tr) := u.lastT.getD (0, 0)
    let body := le 1 (advQual s) ++ le 1 s.tb.st.code ++ le 2 (b01 u.lastT.isSome) ++ zeros 4 ++ le 8 s.tw ++ le 8 te ++ le 8 tr
    let recent := u.sentT.filter (fun x => decide ((s.tw - x) * 10 ≤ tickHz))
    .next (emitOn q.val (.frame (mkFrame 8 0 body)) (setQuad q.val { u with sentT := s.tw :: recent } s))
  else .next s

/-- What a good time frame does to the reference it carries: quality code, time validity, measured difference. An armed time is loaded
with the first frame at which the reference time, t_tx + d, has passed a whole second since ARM was set; the time word then stands as far
behind that second as the reference time does (R278, R321). -/
def timeRef (n : Nat) (f : RawFrame) (arrival : Nat) (echo : Option Int) (s : State) : State :=
  let x := refOf s n
  let was := refTime s n
  let tTx := fieldU f.data 8 8
  let consistent := match x.lastAt with
    | none => none
    | some _ =>
      some (decide (x.lastWord < tTx) &&
        decide ((((tTx : Int) - x.lastWord) - ((arrival : Int) - x.lastArr)).natAbs * 100000 ≤ tickHz))
  let ok := consistent = some true
  let diff := match echo with
    | some d => (tTx : Int) + d - arrival
    | none => x.diff
  let valid := ok && echo.isSome
  let cause := if consistent = some false then 3 else 4
  let code := fieldU f.data 0 1 % 16
  let refNow : Int := arrival + diff
  let past := (refNow % (tickHz : Int)).toNat
  let second := decide (((x.lastArr : Int) + x.diff) / (tickHz : Int) < refNow / (tickHz : Int) ∧ past ≤ s.now - s.tb.armedAt)
  let load := armedFor s n && valid && second
  let s := setRef n { x with
    adv := code, timeValid := valid, lastAt := some s.now, lastWord := tTx, lastArr := arrival, diff := diff
    good := if ok then x.good + 1 else 0 } s
  let s := if load then loadPending past s else s
  let s := showPhase n (timeChange n cause was s)
  if qualEff code = 15 then makeInactive n .code15 s else reselect s

/-- TIME_FRAME: the path delay is measured when the frame carries a valid echo of a frame sent within 100 ms (R321). A frame that
R311 discards makes the time of its references invalid (R264). -/
def execTimeFrame (t : Tick) (q : Fin 16) (arrival : BitVec 64) (f : RawFrame) (s : State) : Host.Outcome State Fault Refusal :=
  let s := s.advance t
  if !quadHas s q.val 8 || !(quadOf s q.val).up then .next s
  else
    let refs := [2, 3].filter (fun n => refLane s n / 4 = q.val && rbit (vget s.tb.refCfg n 0) 0)
    if frameGood f && frameIs f 8 0 && decide (f.n.toNat = 4) && decide (fieldU f.data 0 1 < 16 ∧ fieldU f.data 1 1 < 4) &&
        decide (fieldU f.data 2 2 < 2) then
      let u := quadOf s q.val
      let t4 := arrival.toNat
      let tTx := fieldU f.data 8 8
      let tEcho := fieldU f.data 16 8
      let tRx := fieldU f.data 24 8
      let fresh := decide (fieldU f.data 2 2 = 1) &&
        u.sentT.any (fun x => decide (x = tEcho ∧ (t4 - x) * 10 ≤ tickHz))
      let d := roundDiv (((t4 : Int) - tEcho) - ((tTx : Int) - tRx)) 2
      let echoAt := if fresh then some s.now else u.echoAt
      let live := match echoAt with
        | some a => !atLeastMs (s.now - a) 10
        | none => false
      let s := setQuad q.val { u with lastT := some (tTx, t4), echoAt := echoAt } (frameTaken q.val s)
      .next (refs.foldl (fun s n =>
        let e := if fresh then some d else if live then some ((refOf s n).diff + (t4 : Int) - (tTx : Int)) else none
        timeRef n f t4 e s) s)
    else
      .next (refs.foldl (fun s n =>
        let was := refTime s n
        timeChange n 3 was (setRef n { refOf s n with timeValid := false } s)) (crcErr q.val s))

/-! ## Registers with rows of their own -/

/-- A TSET_CTL write (R278). Writing 0 takes a pending set back (log entry 14). -/
def writeTsetCtl (v : Reg) (s : State) : State :=
  if rbit v 0 then
    if anyActive s || s.tb.armed then { s with tb.tsetErr := true }
    else
      match s.tb.sel with
      | some n => if refTime s n.val then { s with tb.armed := true, tb.armedAt := s.now } else loadTime 0 s
      | none => loadTime 0 s
  else { s with tb.armed := false }

/-- A REF_CFG write that no reserved code refuses (Table 11-8). A lane that it designates may not sleep, so its far end is woken (R281,
R302). -/
def writeRefCfg (n : Nat) (v : Reg) (s : State) : State :=
  let was := refTime s n
  let old := vget s.tb.refCfg n 0
  let v' := v &&& 0x3FFFF
  let s := { s with tb.refCfg := vset s.tb.refCfg n v' }
  let r := refOf s n
  let r := if rbit v 18 && decide (r.st = .suspect) then { r with st := .qualified } else r
  let r := if rbit v' 0 then (if r.st = .off then { r with st := .inactive, inBand := 0 } else r)
    else { r with st := .off, inBand := 0, means := [] }
  let trig := if selCode s = n ∧ rbit old 0 ∧ ¬ rbit v' 0 then some s.now else s.tb.trigger
  let s := reselect (timeChange n 5 was (setRef n r { s with tb.trigger := trig }))
  let q := refLane s n / 4
  if decide (2 ≤ n) && quadHas s q 8 && rxAsleep s q then sendWake q s else s

/-- An element group or a drive group is active (Table 11-10). -/
def groupsActive (s : State) : Bool := !s.cond.started.isEmpty || s.tx.groups.any (fun p => p.2.t0.isSome)

/-- An SCLK_CFG write (Table 11-10, R277). -/
def writeSclkCfg (k : Nat) (v : Reg) (s : State) : State :=
  let old := vget s.tb.sclkCfg k 0
  let v := v &&& 0x1FFFFFFF
  if v = old then s
  else if groupsActive s then { s with tb.sclkErr := true }
  else
    let s := { s with tb.sclkCfg := vset s.tb.sclkCfg k v }
    if fld v 0 28 = fld old 0 28 then s else closeGate (k + 1) 2 s

/-- A TIMEBASE.CTL write (Table 11-5). -/
def writeTbCtl (v : Reg) (s : State) : State := reselect (walkCheck { s with tb.ctl := v &&& 0x3F })

end Sys2Proof.Machine
end

