-- ==== Sys2Proof/Machine/Hbm.lean ====
section
/-!
DEFINITION. The HBM controller (14_memory.md): layout, ECC, refresh, parity replay, paired bursts, scrub, training.
-/
namespace Sys2Proof.Machine

/-- Channel of an HBM address: two pseudo-channels each (R343, R367). -/
def channelOf (a : Nat) : Nat := pcOf a / 2

/-- Counters of a stack. -/
def stackCnt (s : State) (k : Nat) : StackCnt := vget s.hbm.cnt k ⟨0, 0, 0, 0⟩

/-- Replace the counters of a stack. -/
def setStackCnt (k : Nat) (c : StackCnt) (s : State) : State := { s with hbm.cnt := vset s.hbm.cnt k c }

/-- A word at address `a` was read with an ECC report: a correction is counted and left for the scrubber (R362), and falls inside every
open recovery window (Table 17-7); an
uncorrectable word is poisoned, counted and reported (R363). A failed channel returns poisoned words that are neither counted nor
reported (R361). `port` is the row of Table 14-2. -/
def eccWord (port a : Nat) (corrected : Bool) (s : State) : State :=
  let ch := channelOf a
  let c := stackCnt s (ch / 16)
  let w := a / 32
  if s.hbm.chFail.getLsbD ch then s
  else if corrected then
    let s := setStackCnt (ch / 16) { c with corr := bump 32 c.corr 1 } (disturb s)
    { s with hbm.soft := if s.hbm.soft.contains w then s.hbm.soft else s.hbm.soft ++ [w] }
  else
    let s := setStackCnt (ch / 16) { c with uncorr := bump 32 c.uncorr 1 } s
    let s := { s with hbm.poisoned := if s.hbm.poisoned.contains w then s.hbm.poisoned else s.hbm.poisoned ++ [w] }
    setUntrusted 1 (postEvent 0xB1 port (le 8 a) s)

/-- What a read of words `lo` to `lo + n − 1`, word `w` at address `at_ w`, is told: the reports of the stacks, a poisoned word for each that lies on a failed
channel (R361), and a correction for each that was corrected before and has not been rewritten (R362). -/
def eccSeen (s : State) (at_ : Nat → Nat) (lo n : Nat) (l : List Ecc) : List Ecc :=
  if s.hbm.chFail = 0 ∧ s.hbm.soft = [] then l
  else l ++ (((List.range n).map (lo + ·)).filter (fun w => !l.any (fun e => decide (e.word = w)))).filterMap (fun w =>
    if s.hbm.chFail.getLsbD (channelOf (at_ w)) then some (⟨w, false⟩ : Ecc)
    else if s.hbm.soft.contains (at_ w / 32) then some ⟨w, true⟩
    else none)

/-- What a read of words `lo` to `lo + n − 1` of a region is told (log entry 68). -/
def regionSeen (s : State) (region lo n : Nat) (l : List Ecc) : List Ecc := eccSeen s (placeOf s region) lo n l

/-- One read of a region: its request, and the ECC reports of its words. -/
def eccRead (port region : Nat) (l : List Ecc) (s : State) : State :=
  let s := hbmRequest port .reads (placeOf s region 0) s
  l.foldl (fun s e => eccWord port (placeOf s region e.word) e.corrected s) s

/-- `n` bytes from address `a` have been rewritten, in whole words (R354): no correction waits there, and no word is poisoned. Writes to a
failed channel are dropped (R361). -/
def hbmWritten (a n : Nat) (s : State) : State :=
  let out (w : Nat) : Bool := decide (w < a / 32 ∨ (a + n) / 32 ≤ w) || s.hbm.chFail.getLsbD (channelOf (32 * w))
  { s with hbm.soft := s.hbm.soft.filter out, hbm.poisoned := s.hbm.poisoned.filter out }

/-- A word of the read was poisoned. -/
def poisonedIn (l : List Ecc) : Bool := l.any (fun e => !e.corrected)

/-! ## Layout (R345, R346) -/

/-- The conditions under which an apply is ignored (R346). -/
def applyBlocked (s : State) : Bool :=
  decide (hbmBytes s < (regionSizes s.hbm.rsvA s.hbm.rsvB).sum) || decide (fld s.hbm.rsvB 18 9 = 0) ||
    !s.cond.started.isEmpty || !s.corr.scheds.isEmpty || !s.corr.weights.isEmpty || !s.tx.waves.isEmpty ||
    !s.lbox.tables.isEmpty || s.lbox.scene.isSome || !s.lbox.pending.isEmpty || !s.host.bindings.isEmpty

/-- The contents of product staging are undefined: free values (R346). -/
def undefineStaged (s : State) : State :=
  s.host.staged.foldl (fun s p =>
    let f := s.drawFree (8 * p.2.bytes.length)
    { f.2 with host.staged := Tab.put f.2.host.staged p.1 { p.2 with bytes := le p.2.bytes.length f.1 } }) s

/-- The contents of the scribe log are undefined: free values (R346). -/
def undefineLog (s : State) : State :=
  s.mgmt.log.foldl (fun s _ =>
    let f := s.drawFree 256
    { f.2 with mgmt.log := f.2.mgmt.log ++ [.undefined f.1] }) { s with mgmt.log := [] }

/-- Apply the layout: what the regions hold is undefined, and the afterimage and the gap index start empty (R346). -/
def applyLayout (s : State) : State :=
  if applyBlocked s then { s with hbm.layoutErr := true }
  else
    let s := undefineLog (undefineStaged s)
    { s with
    hbm.layA := s.hbm.rsvA, hbm.layB := s.hbm.rsvB
    cond.after := [], cond.gapIndex := [], cond.gapLost := none, cond.gapGone := [], hbm.soft := [], hbm.poisoned := [], hbm.skipped := [] }

/-- Clear every HBM counter (R367). -/
def clearHbmCnt (s : State) : State := { s with hbm.cnt := Vector.replicate 4 ⟨0, 0, 0, 0⟩ }

/-- An HBM.CTL write (Table 14-9). An apply that is ignored has no effect on any field (R346, R486). -/
def writeHbmCtl (v : Reg) (s : State) : State :=
  if rbit v 0 && applyBlocked s then { s with hbm.layoutErr := true }
  else
    let s := { s with hbm.ctl := v &&& 0x3FE }
    let s := if rbit v 10 then clearHbmCnt s else s
    if rbit v 0 then applyLayout s else s

/-! ## Channels (R360, R361) -/

/-- A channel fails (R361): CH_FAIL, the event, and untrusted cause 0 until PORST_N. -/
def failChannel (c : Nat) (s : State) : State :=
  if s.hbm.chFail.getLsbD c then s
  else setUntrusted 0 (postEvent 0xB0 c [] { s with hbm.chFail := s.hbm.chFail ||| BitVec.ofNat 64 (2 ^ c) })

/-- A pseudo-channel precharges all banks and issues the commands it still holds again, in their order (R360). -/
def PcQueue.replay (q : PcQueue) : PcQueue :=
  { q with rows := q.held.foldl (fun t r => Tab.put t (Config.hbmRow (r.addr / 4096)).1 (Config.hbmRow (r.addr / 4096)).2) [] }

/-- HBM_ALERT (R360, R361): a replay, or the failure of the channel when alert recurs after the third. -/
def execHbmAlert (t : Tick) (ch : Fin 64) (recurs : Bool) (s : State) : Host.Outcome State Fault Refusal :=
  let s := s.advance t
  if s.hbm.chFail.getLsbD ch.val then .next s
  else
    let n := if recurs then Tab.getD s.hbm.replays ch.val 0 else 0
    if 3 ≤ n then
      .next (failChannel ch.val { s with hbm.replays := Tab.del s.hbm.replays ch.val })
    else
      let c := stackCnt s (ch.val / 16)
      let fin := s.tw + tickHz / 1000
      let s := if 0 < n then moveRecovery 1 ch.val fin s else closeRecovery 1 ch.val fin (openRecovery 1 ch.val s)
      let s := setStackCnt (ch.val / 16) { c with replay := bump 32 c.replay 1 } s
      let s := hbmServe (2 * ch.val + 1) PcQueue.replay (hbmServe (2 * ch.val) PcQueue.replay s)
      .next { s with
        hbm.replays := Tab.put s.hbm.replays ch.val (n + 1)
        hbm.replayAt := Tab.put s.hbm.replayAt ch.val s.now }

/-- The controller refreshes per bank: until training has ended, and for 1 ms after a replay of the channel (R359). -/
def perBankNow (s : State) (pc : Nat) : Bool :=
  !s.hbm.trainDone || (match Tab.get s.hbm.replayAt (pc / 2) with
    | some a => !atLeastMs (s.now - a) 1
    | none => false)

/-- The refresh interval of a stack is halved (R358): hot at its last read, never read, or three failed reads in a row. -/
def halved (s : State) (k : Nat) : Bool :=
  s.hbm.trainDone &&
    (vget s.hbm.hot k false || (vget s.hbm.temps k none).isNone || decide (3 ≤ vget s.hbm.readFails k 0))

/-- Banks of a pseudo-channel: their number is not stated (log entry 96). -/
def hbmBanks : Nat := Nat.max 1 Config.hbmBanks

/-- The bank that a per-bank refresh takes: the next one round that no queued request needs; the next one where every bank has one (R359). -/
def refreshBank (s : State) (pc : Nat) : Nat :=
  let q := pcQueue s pc
  let at_ := match Tab.get s.hbm.refreshBank pc with
    | some b => b + 1
    | none => 0
  let l := (List.range hbmBanks).map (fun i => (at_ + i) % hbmBanks)
  (l.find? (fun b => !(q.cmd ++ q.waiting).any (fun r => decide ((Config.hbmRow (r.addr / 4096)).1 = b)))).getD (at_ % hbmBanks)

/-- A refresh of the pseudo-channel is due: 3.9 µs after the last, 1.95 µs while the interval is halved; refreshes of single banks keep the
overall rate (R358, R359). -/
def refreshDue (s : State) (pc : Nat) : Bool :=
  match Tab.get s.hbm.refreshAt pc with
  | none => true
  | some a =>
    let ns := if halved s (pc / 32) then 1950 else 3900
    decide (ns * tickHz ≤ (s.now - a) * 1000000000 * (if perBankNow s pc then hbmBanks else 1))

/-- HBM_REFRESH (R358, R359): the refresh, while the pseudo-channel goes on with its commands. -/
def execHbmRefresh (t : Tick) (pc : Fin 128) (s : State) : Host.Outcome State Fault Refusal :=
  let s := s.advance t
  if refreshDue s pc.val then
    let s := hbmServe pc.val (fun q => q) s
    .next { s with
      hbm.refreshAt := Tab.put s.hbm.refreshAt pc.val s.now
      hbm.refreshBank := if perBankNow s pc.val then Tab.put s.hbm.refreshBank pc.val (refreshBank s pc.val) else s.hbm.refreshBank
      hbm.perBank := s.hbm.perBank + b01 (perBankNow s pc.val) }
  else .next s

/-- HBM.STAT (Table 14-10). -/
def hbmStat (s : State) : Nat :=
  s.hbm.trained.toNat + ((List.range 4).map (fun k =>
    (if (vget s.hbm.temps k none).isSome then 2 ^ (4 + k) else 0) + (if halved s k then 2 ^ (8 + k) else 0))).sum +
    4096 * b01 s.hbm.layoutErr + 8192 * b01 (decide (s.hbm.chFail ≠ 0))

/-- HBM.TEMP (R367). -/
def hbmTemp (s : State) : Nat :=
  ((List.range 4).map (fun k => (match vget s.hbm.temps k none with
    | some v => (satS 8 v % 256).toNat
    | none => 0x80) * 2 ^ (8 * k))).sum

/-- A stack's temperature is read every 1 ms (R358). -/
def tempDue (s : State) (k : Nat) : Bool :=
  match Tab.get s.hbm.tempAt k with
  | some a => atLeastMs (s.now - a) 1
  | none => true

/-- A stack temperature is read, or the read fails (R358). -/
def readTemp (k : Nat) (reading : Option Int) (s : State) : State :=
  let s := { s with hbm.tempAt := Tab.put s.hbm.tempAt k s.now }
  match reading with
  | none => { s with hbm.readFails := vset s.hbm.readFails k (vget s.hbm.readFails k 0 + 1) }
  | some v =>
    let hot := if 85 < v then true else if v < 80 then false else vget s.hbm.hot k false
    { s with
      hbm.temps := vset s.hbm.temps k (some v), hbm.readFails := vset s.hbm.readFails k 0
      hbm.hot := vset s.hbm.hot k hot }

/-- HBM_TRAINING_DONE (R475): a stack that failed has all 16 channels failed. -/
def execHbmTrainingDone (t : Tick) (trained : BitVec 4) (s : State) : Host.Outcome State Fault Refusal :=
  let s := s.advance t
  if s.hbm.trainDone then .next s
  else
    let s := { s with hbm.trained := trained, hbm.trainDone := true }
    .next ((List.range 64).foldl (fun s c => if trained.getLsbD (c / 16) then s else failChannel c s) s)

/-! ## Paired bursts (R355 to R357, R400) -/

/-- An inkwell update pair of the tile is OPEN (R356). -/
def tileOpen (s : State) (tile : Nat) : Bool :=
  s.hbm.pairs.any (fun p => decide (p.2.st = .opened ∧ p.2.kind = .inkwellUpdate tile))

/-- The half may take an entry: 32 of the 256 are reserved for escape-class split writes (R355). -/
def pairRoom (s : State) (h : PairHalf) : Bool :=
  let used := s.hbm.pairs.length
  if h.escape ∧ h.kind = .splitWrite then decide (used < 256) else decide (used < 224)

/-- The half waits for an entry or for its tile (R356). -/
def mustWait (s : State) (h : PairHalf) : Bool :=
  !pairRoom s h || (match h.kind with
    | .inkwellUpdate tile => tileOpen s tile
    | _ => false)

/-- The bursts of a pair are requests (R350, R355): the read of an inkwell update on its arrival, its write-back as an escape-class
request, the two bursts of a split write together. A pair of the host write path is no request of the controller (R400). -/
def pairRequests (first : Bool) (h : PairHalf) (s : State) : State :=
  match h.kind with
  | .inkwellUpdate tile => hbmRequest 0 (if first then .reads else .escape) (regionBase s 6 + 12288 * tile) s
  | .splitWrite =>
    if first then s
    else
      let r := if h.escape then 2 else 3
      let c : HbmClass := if h.escape then .escape else .outside
      hbmRequest 4 c (placeOf s r (2 * h.tag.toNat + 1)) (hbmRequest 4 c (placeOf s r (2 * h.tag.toNat)) s)
  | .hostSplit _ => s

/-- A first half that arrived at `a` opens a pair. -/
def openPair (a : Nat) (h : PairHalf) (s : State) : State :=
  pairRequests true h
    { s with hbm.pairs := Tab.put s.hbm.pairs h.tag.toNat ⟨h.kind, h.escape, h.stack.val, h.payload, h.second, a, .opened⟩ }

/-- A pair is applied: the entry leaves the table with the requester's acknowledgement; whether that comes with the completion, or only with
a later query, is a free value (R355, R357; log entry 41). A split write burst leaves for host memory, in address order (R400). -/
def applyPair (tag : Nat) (e : PairEntry) (bursts : List Bytes) (s : State) : State :=
  let p := s.drawFree 1
  let s := match e.kind with
    | .hostSplit addr => hostWrite [⟨addr.toNat, bursts.flatten⟩] p.2
    | _ => p.2
  { s with
    hbm.done := s.hbm.done ++ [⟨tag, e.kind, bursts⟩]
    hbm.pairs := if p.1 = 0 then Tab.del s.hbm.pairs tag else Tab.put s.hbm.pairs tag { e with st := .applied, first := [] } }

/-- The timeout of an open pair passes: its requester has to issue it again (R355, R357). -/
def discardPair (tag : Nat) (e : PairEntry) (s : State) : State :=
  { s with
    hbm.pairs := Tab.put s.hbm.pairs tag { e with st := .discarded, first := [] }
    hbm.reissue := s.hbm.reissue ++ [(tag, e.kind)] }

/-- A late half is dropped and counted (Table 14-3). -/
def lateHalf (h : PairHalf) (s : State) : State :=
  match h.kind with
  | .hostSplit _ => s
  | _ => setStackCnt h.stack.val { stackCnt s h.stack.val with pairDisc := bump 32 (stackCnt s h.stack.val).pairDisc 1 } s

/-- A half that arrived at `a` reaches the front end (R355, R356): it opens its pair, waits, completes the pair, or comes too late. -/
def takeHalf (a : Nat) (h : PairHalf) (s : State) : State :=
  match Tab.get s.hbm.pairs h.tag.toNat with
  | none =>
    if mustWait s h || s.hbm.waiting.any (fun x => decide (x.2.tag = h.tag)) then { s with hbm.waiting := s.hbm.waiting ++ [(a, h)] }
    else openPair a h s
  | some e =>
    match e.st with
    | .opened =>
      if atLeastUs (a - e.at_) 64 then lateHalf h (discardPair h.tag.toNat e s)
      else if h.second = e.firstSecond then s
      else
        let both := if e.firstSecond then [h.payload, e.first] else [e.first, h.payload]
        let bursts := match e.kind with
          | .inkwellUpdate _ => [h.payload]
          | _ => both
        pairRequests false { h with kind := e.kind, escape := e.escape } (applyPair h.tag.toNat e bursts s)
    | .discarded => lateHalf h s
    | .applied => s

/-- The halves that wait try again, each on its own, in order: one that must go on waiting holds up none that need not (R24). `k` counts
the passes. -/
def retryHalvesN : Nat → State → State
  | 0, s => s
  | k + 1, s => retryHalvesN k (s.hbm.waiting.foldl (fun s x => takeHalf x.1 x.2 s) { s with hbm.waiting := [] })

/-- PAIR_HALF_ARRIVAL (R355): the pair opens, or is applied in address order. -/
def execPairHalfArrival (t : Tick) (h : PairHalf) (s : State) : Host.Outcome State Fault Refusal :=
  let s := s.advance t
  let s := takeHalf s.now h s
  .next (retryHalvesN s.hbm.waiting.length s)

/-- PAIR_TIMEOUT (R355): 64 µs after its first half. -/
def execPairTimeout (t : Tick) (tag : BitVec 16) (s : State) : Host.Outcome State Fault Refusal :=
  let s := s.advance t
  match Tab.get s.hbm.pairs tag.toNat with
  | some e =>
    if e.st = .opened ∧ atLeastUs (s.now - e.at_) 64 then
      .next (retryHalvesN s.hbm.waiting.length (discardPair tag.toNat e s))
    else .next s
  | none => .next s

/-- PAIR_QUERY (R357), 128 µs after the pair opened: the front end answers with the entry's state; the requester acknowledges a final
state, and re-issues a discarded pair under a new tag. -/
def execPairQuery (t : Tick) (tag : BitVec 16) (s : State) : Host.Outcome State Fault Refusal :=
  let s := s.advance t
  match Tab.get s.hbm.pairs tag.toNat with
  | some e =>
    if !atLeastUs (s.now - e.at_) 128 then .next s
    else
      let s := { s with hbm.answer := some (tag.toNat, some e.st) }
      if e.st = .opened then .next s
      else .next (retryHalvesN s.hbm.waiting.length { s with
        hbm.pairs := Tab.del s.hbm.pairs tag.toNat, hbm.reissue := s.hbm.reissue.filter (fun x => decide (x.1 ≠ tag.toNat)) })
  | none => .next { s with hbm.answer := some (tag.toNat, none) }

/-! ## Scrub (R364) -/

/-- The tile a word of the inkwell region lies in (R122): 12,288 B each. -/
def wordTile (s : State) (word : Nat) : Option Nat :=
  let a := 32 * word
  if regionBase s 6 ≤ a then some ((a - regionBase s 6) / 12288) else none

/-- Length of a scrub pass in ticks: SCRUB_HOURS, 0 counting as 1 (Table 14-9). -/
def scrubTicks (s : State) : Nat := tickHz * (3600 * Nat.max 1 (fld s.hbm.ctl 2 8))

/-- A new pass begins once the last one has read every word and SCRUB_HOURS have passed since it began (R364). -/
def scrubPass (s : State) : State :=
  if decide (hbmBytes s ≤ 32 * s.hbm.scrubNext) && s.hbm.skipped.isEmpty && decide (s.hbm.scrubAt + scrubTicks s ≤ s.now) then
    { s with hbm.scrubAt := s.now, hbm.scrubNext := 0 }
  else s

/-- The scrubber takes a word: the next one of its pass, in its time, words in ascending order (log entry 96), or one that it left for later. -/
def scrubDue (s : State) (word : Nat) : Bool :=
  rbit s.hbm.ctl 1 && decide (32 * word < hbmBytes s) && (s.hbm.skipped.contains word ||
    decide (word = s.hbm.scrubNext ∧ 32 * word * scrubTicks s ≤ (s.now - s.hbm.scrubAt) * hbmBytes s))

/-- SCRUB_STEP: read and rewrite as one locked pair, which is one request; a word of a tile with an open pair is left for later in the pass. A poisoned
word of the scribe log is skipped there and counted (R408). -/
def execScrubStep (t : Tick) (word : Nat) (ecc : List Ecc) (s : State) : Host.Outcome State Fault Refusal :=
  let s := scrubPass (s.advance t)
  if !scrubDue s word then .next s
  else
    let s := { s with hbm.scrubNext := Nat.max s.hbm.scrubNext (word + 1), hbm.skipped := s.hbm.skipped.filter (fun w => w ≠ word) }
    let busy := match wordTile s word with
      | some tile => tileOpen s tile
      | none => false
    if busy then .next { s with hbm.skipped := s.hbm.skipped ++ [word] }
    else
      let ecc := eccSeen s (fun _ => 32 * word) 0 1 ecc
      let s := hbmRequest 7 .outside (32 * word) s
      let s := ecc.foldl (fun s e => eccWord 7 (32 * word) e.corrected s) s
      let bad := b01 (poisonedIn ecc && decide (regionBase s 5 + regionSize s 5 / 2 ≤ 32 * word ∧ 32 * word < regionBase s 6))
      .next { s with mgmt.logSkipped := s.mgmt.logSkipped + bad, hbm.soft := s.hbm.soft.filter (fun w => w ≠ word) }

end Sys2Proof.Machine
end

