-- ==== Sys2Proof/Machine/Trig.lean ====
section
/-!
DEFINITION. The two places where the manual fixes numbers by trigonometry: the unit-circle table of R77 and the Butterworth
coefficients of R38. Both are computed in fixed point with 96 fraction bits (log entry 6).
-/
namespace Sys2Proof.Machine

/-- π in units of 2⁻⁹⁶. -/
def pi96 : Nat := 248902613312231085230521944622

/-- `x^2` scaled. -/
def mul96 (a b : Int) : Int := roundShift (a * b) 96

/-- The Taylor sum of sine (start 1) or cosine (start 0) at `x` in units of 2⁻⁹⁶: `term` is the next term, `k` its degree. -/
def taylor (x2 : Int) : Nat → Nat → Int → Int
  | 0, _, _ => 0
  | n + 1, k, term => term + taylor x2 n (k + 2) (-(mul96 term x2) / ((k + 1) * (k + 2) : Nat))

/-- Sine of `x`, 0 ≤ x ≤ π/4, both in units of 2⁻⁹⁶. -/
def sin96 (x : Int) : Int := taylor (mul96 x x) 14 1 x

/-- Cosine of `x`, 0 ≤ x ≤ π/4. -/
def cos96 (x : Int) : Int := taylor (mul96 x x) 14 0 (2 ^ 96)

/-- The first octant: cosine and sine of 2π·j ÷ 65,536 for j ≤ 8,192, times 2¹⁷, rounded convergently. -/
def octant (j : Nat) : Int × Int :=
  let x : Int := roundDiv ((2 * pi96 * j : Nat) : Int) 65536
  (roundShift (cos96 x) 79, roundShift (sin96 x) 79)

/-- The first quadrant, j ≤ 16,384. -/
def quadrant (j : Nat) : Int × Int :=
  if j ≤ 8192 then octant j else let p := octant (16384 - j); (p.2, p.1)

/-- U[j] (R77): cosine and sine of 2π·j ÷ 65,536, s19 with 17 fraction bits. -/
def unitCircle (j : Nat) : Int × Int :=
  let q := (j % 65536) / 16384
  let p := quadrant (j % 16384)
  if q = 0 then p else if q = 1 then (-p.2, p.1) else if q = 2 then (-p.1, -p.2) else (p.2, -p.1)

/-- √2 in units of 2⁻⁹⁶. -/
def sqrt2 : Nat := isqrtAux (2 ^ 193) 98 0

/-- A positive value in units of 2⁻⁹⁶, rounded convergently to the 53 significant bits of IEEE 754 binary64. -/
def toB64 (v : Int) : Int :=
  let k := Nat.log2 v.toNat - 52
  roundShift v k * 2 ^ k

/-- The Butterworth coefficients of R38 for rate `fs` and corner `c` in tenths of a hertz, with 30 fraction bits. -/
def butterworth (fs c : Nat) : List Int :=
  let x : Int := roundDiv ((pi96 * c : Nat) : Int) (10 * fs : Nat)
  let one : Int := 2 ^ 96
  let k := toB64 (roundDiv (sin96 x * one) (cos96 x))
  let k2 := mul96 k k
  let rk := mul96 sqrt2 k
  let g := toB64 (one + rk + k2)
  let q (n : Int) := roundDiv (n * 2 ^ 30) g
  [q one, q (-2 * one), q one, q (2 * (k2 - one)), q (one - rk + k2)]

end Sys2Proof.Machine
end

