-- ==== Sys2Proof/Machine/Group.lean ====
section
/-!
DEFINITION. Element table entries and element group descriptors (02_conditioning.md, 03_channeliser.md): how they are read from
command data, what follows from them, the views that pending changes produce (R39, R511), sample instants and stamps.
-/
namespace Sys2Proof.Machine

/-! ## Derived values of a descriptor -/

/-- The group runs a decimation preset (Table 02-3). -/
def GroupDesc.preset (g : GroupDesc) : Bool := decide (g.decMode < 3)

/-- Taps of every stage but the last, and of the last (Table 02-6). -/
def presetTaps (mode : Nat) : Nat × Nat := if mode = 0 then (23, 127) else if mode = 1 then (19, 79) else (11, 43)

/-- Twice the group delay in input samples: 2·D (R57) or 2·G (R60). -/
def GroupDesc.delay2 (g : GroupDesc) : Nat :=
  if g.preset then
    let p := presetTaps g.decMode
    (p.1 - 1) * (g.ratio / 2 - 1) + (p.2 - 1) * (g.ratio / 2)
  else if g.ratio ≤ 1 then 0 else 35 * g.ratio - 5

/-- Support S of an output in input samples. -/
def GroupDesc.support (g : GroupDesc) : Nat := g.delay2 + 1

/-- Transform size n2 (R70). -/
def GroupDesc.n2 (g : GroupDesc) : Nat := 2 * 2 ^ g.chanLog2

/-- Prototype length L. -/
def GroupDesc.len (g : GroupDesc) : Nat := g.n2 * g.taps

/-- Hop H. -/
def GroupDesc.hop (g : GroupDesc) : Nat := if g.mode = 0 then g.n2 else g.n2 / 2

/-- The group feeds a channeliser. -/
def GroupDesc.channelised (g : GroupDesc) : Bool := decide (g.plan < 16)

/-- Slots of an element's input ring (R40). -/
def GroupDesc.slots (g : GroupDesc) : Nat := ringSlots g.window g.rate

/-- The settings that restart an element's chain when they change (R39). -/
def GroupDesc.chainKey (g : GroupDesc) : List Nat := [g.rate, g.dcK, g.hpCorner, g.decMode, g.ratio]

/-- The settings that restart an element's filterbank when they change (R73, R514). -/
def GroupDesc.bankKey (g : GroupDesc) : List Nat := [g.chanLog2, g.taps, g.mode, g.proto, b01 g.channelised]

/-- The band fields a plan shares with its groups (R84). -/
def GroupDesc.band (g : GroupDesc) : List Nat :=
  [g.mode, g.chanLog2, g.taps, g.rate, g.decMode, g.ratio, g.first, g.count]

/-- The band fields of a plan header (Table 03-6). -/
def Plan.band (p : Plan) : List Nat := [p.mode, p.chanLog2, p.taps, p.rate, p.decMode, p.ratio, p.first, p.count]

/-- Hop of a plan's band. -/
def Plan.hop (p : Plan) : Nat := if p.mode = 0 then 2 * 2 ^ p.chanLog2 else 2 ^ p.chanLog2

/-! ## Element entries -/

/-- Receive is enabled. -/
def ElemEntry.rx (e : ElemEntry) : Bool := bitOf e.flags 0

/-- Drive is enabled. -/
def ElemEntry.drive (e : ElemEntry) : Bool := bitOf e.flags 1

/-- The DC estimate is frozen. -/
def ElemEntry.frozen (e : ElemEntry) : Bool := bitOf e.flags 2

/-- The element is tapped for the glint path (R167). -/
def ElemEntry.tapped (e : ElemEntry) : Bool := bitOf e.flags 0 && bitOf e.flags 3

/-- Slots of the integer delay line (R63). -/
def ElemEntry.lineSlots (e : ElemEntry) : Nat := 16 * ceilDiv e.delayInt 16

/-- Read an entry (Table 02-2) at offset `o`. -/
def parseElem (b : Bytes) (o : Nat) : ElemEntry where
  group := fieldU b o 1
  flags := fieldU b (o + 1) 1
  stream := fieldU b (o + 2) 2
  channel := fieldU b (o + 4) 2
  delayInt := fieldU b (o + 6) 2
  posX := fieldS b (o + 8) 4
  posY := fieldS b (o + 12) 4
  posZ := fieldS b (o + 16) 4
  calDelay := fieldS b (o + 20) 4
  rxGain := fieldU b (o + 24) 2
  driveGain := fieldU b (o + 26) 2

/-- Read a descriptor (Tables 02-3, 03-1). -/
def parseGroup (b : Bytes) : GroupDesc where
  rate := fieldU b 0 4
  window := fieldU b 4 2
  dcK := fieldU b 6 1
  hpCorner := fieldU b 7 1
  decMode := fieldU b 8 1
  ratio := fieldU b 10 2
  b0 := fieldS b 12 4
  b1 := fieldS b 16 4
  b2 := fieldS b 20 4
  a1 := fieldS b 24 4
  a2 := fieldS b 28 4
  chanLog2 := fieldU b 32 1
  taps := fieldU b 33 1
  mode := fieldU b 34 1
  outShift := fieldU b 35 1
  proto := fieldU b 36 2
  gain := fieldU b 38 2
  first := fieldU b 40 2
  count := fieldU b 42 2
  plan := fieldU b 44 1

/-- Corner frequencies of Table 02-3, code 1 first, in tenths of a hertz. -/
def corners : List Nat := [1, 2, 5, 10, 20, 50, 100, 200]

/-- Corner of a descriptor in tenths of a hertz. -/
def GroupDesc.corner (g : GroupDesc) : Nat := corners.getD (g.hpCorner - 1) 1

/-- Input samples until the DC block has settled (Table 02-11). -/
def GroupDesc.dcEnd (g : GroupDesc) : Nat := if g.dcK = 0 then 0 else 8 * 2 ^ g.dcK

/-- Input samples until the high-pass has settled (Table 02-11). -/
def GroupDesc.hpEnd (g : GroupDesc) : Nat := if g.hpCorner = 0 then 0 else ceilDiv (20 * g.rate) g.corner

/-- The high-pass coefficients meet R38. -/
def hpChk (g : GroupDesc) : Chk :=
  let cs := [g.b0, g.b1, g.b2, g.a1, g.a2]
  let own := if g.hpCorner = 0 then [0, 0, 0, 0, 0] else butterworth g.rate g.corner
  let tol : Nat := if g.hpCorner = 0 then 0 else 2
  firstFail [
    need (g.hpCorner == 0 || (decide (10 * g.rate ≤ 16777216 * g.corner) && decide (10 * g.corner ≤ g.rate))) stRange 7,
    firstFail ((cs.zip own).zipIdx.map (fun p => need (decide ((p.1.1 - p.1.2).natAbs ≤ tol)) stRange (12 + 4 * p.2)))]

/-- The fields of a descriptor lie in their ranges (R37, R38, R70, R514) and its reserved bytes are 0. -/
def groupChk (b : Bytes) : Chk :=
  let g := parseGroup b
  let presetRatios := (List.range 10).map (fun i => 2 ^ (i + 1))
  firstFail [
    need (decide (1000 ≤ g.rate ∧ g.rate ≤ 50000000)) stRange 0,
    need (decide (1 ≤ g.window ∧ g.window ≤ 1000)) stRange 4,
    need (g.dcK == 0 || decide (8 ≤ g.dcK ∧ g.dcK ≤ 24)) stRange 6,
    need (decide (g.hpCorner ≤ 8)) stRange 7,
    need (decide (g.decMode ≤ 3)) stRange 8,
    needZero b 9 1 0,
    need (if g.decMode = 3 then decide (1 ≤ g.ratio ∧ g.ratio ≤ 4096) else presetRatios.contains g.ratio) stRange 10,
    hpChk g,
    need (decide (6 ≤ g.chanLog2 ∧ g.chanLog2 ≤ 14)) stRange 32,
    need ([4, 8, 16].contains g.taps) stRange 33,
    need (decide (g.mode ≤ 1)) stRange 34,
    need (decide (g.outShift ≤ 24)) stRange 35,
    need (decide (g.proto ≤ 1023)) stRange 36,
    need (decide (g.gain ≤ 1023) || g.gain == 0xFFFF) stRange 38,
    need (decide (g.first < 2 ^ g.chanLog2)) stRange 40,
    need (decide (1 ≤ g.count ∧ g.first + g.count ≤ 2 ^ g.chanLog2)) stRange 42,
    need (decide (g.plan ≤ 15) || g.plan == 0xFF) stRange 44,
    needZero b 45 19 0]

/-! ## Views (R39, R511) -/

/-- Element table and descriptors at some moment. -/
structure View where
  elems : Tab ElemEntry
  groups : Tab GroupDesc
  deriving DecidableEq, Repr

/-- The view in effect, pending changes aside. -/
def State.view (s : State) : View := ⟨s.cond.elems, s.cond.groups⟩

/-- Entry of an element. -/
def View.elem (v : View) (e : Nat) : ElemEntry := Tab.getD v.elems e ElemEntry.reset

/-- Descriptor of an element's group. -/
def View.desc (v : View) (e : Nat) : Option GroupDesc := Tab.get v.groups (v.elem e).group

/-- A receive-enabled element with a descriptor. -/
def View.active (v : View) (e : Nat) : Option (ElemEntry × GroupDesc) :=
  let x := v.elem e
  if x.rx then (Tab.get v.groups x.group).map (fun g => (x, g)) else none

/-- Store entries; an entry of all zero is not listed. -/
def putElems (t : Tab ElemEntry) (es : List (Nat × ElemEntry)) : Tab ElemEntry :=
  es.foldl (fun t p => if p.2 = ElemEntry.reset then Tab.del t p.1 else Tab.put t p.1 p.2) t

/-- The view after a change. -/
def PendKind.apply (k : PendKind) (v : View) : View :=
  match k with
  | .elems es => { v with elems := putElems v.elems es }
  | .group g d => { v with groups := Tab.put v.groups g d }

/-- First block for which a pending change holds (R39). -/
def Pend.block (p : Pend) : Nat := ceilDiv p.activate 64

/-- The view that holds for block `b` of an element: pending changes whose first block is at or before it, in order of activation. A
change whose activation index has passed acts from the first block that none of its elements has conditioned (`clampPend`; log entry 97). -/
def viewAt (s : State) (b : Nat) : View :=
  s.cond.pending.foldl (fun v p => if p.block ≤ b then p.kind.apply v else v) s.view

/-- Entry and descriptor of element `e` for its block `b`. -/
def elemAt (s : State) (e b : Nat) : ElemEntry := (viewAt s b).elem e

/-- Descriptor of element `e`'s group for its block `b`. -/
def descAt (s : State) (e b : Nat) : Option GroupDesc := (viewAt s b).desc e

/-- The elements of a group in a view, in ascending order. -/
def View.members (v : View) (g : Nat) : List Nat := (v.elems.filter (fun p => decide (p.2.group = g))).map (·.1)

/-- Receive-enabled elements of a view, in ascending order. -/
def View.receivers (v : View) : List Nat := (v.elems.filter (fun p => p.2.rx)).map (·.1)

/-- Tapped elements of a view, in ascending order: the position is the glint ordinal (R167). -/
def View.taps (v : View) : List Nat := (v.elems.filter (fun p => p.2.tapped)).map (·.1)

/-- The activation instant of a change of group `g` in units of 2⁻³² s as an exact fraction times the rate is awkward to compare;
this is the instant rounded down. A group that is not started has none. -/
def changeInstant (s : State) (v : View) (g activate : Nat) : Option Nat :=
  match Tab.get s.cond.started g, Tab.get v.groups g with
  | some r, some d => some (r.tOrg + 64 * ceilDiv activate 64 * tickHz / max 1 d.rate)
  | _, _ => none

/-- The group whose started timeline a change of element entries follows: the one the element is in before it, if that is started,
otherwise the one it is in after it. -/
def elemGroup (s : State) (v : View) (e : Nat) (x : ElemEntry) : Nat :=
  let g := (v.elem e).group
  if Tab.has s.cond.started g then g else x.group

/-- The group a pending change follows. -/
def Pend.group (s : State) (v : View) (p : Pend) : Nat :=
  match p.kind with
  | .group g _ => g
  | .elems es => match es with
    | (e, x) :: _ => elemGroup s v e x
    | [] => 0

/-- The activation instant of a pending change; a change of a group that is not started acts at once. -/
def Pend.instant (s : State) (p : Pend) : Nat := (changeInstant s s.view (p.group s s.view) p.activate).getD 0

/-- A pending list with one more change, in the order of activation that every view of it folds in (R39, R511). -/
def withPend (s : State) (ps : List Pend) (p : Pend) : List Pend := insertBy (Pend.instant s) p ps

/-- The view that holds at this instant: pending changes whose activation instant has come (R349, R511). -/
def viewNow (s : State) : View :=
  s.cond.pending.foldl (fun v p =>
    match changeInstant s s.view (p.group s s.view) p.activate with
    | some t => if t ≤ s.tw then p.kind.apply v else v
    | none => p.kind.apply v) s.view

/-- The instant at which a change of a list counts: one entered before keeps its own; a new one whose instant has passed acts now. -/
def stepInstant (s : State) (p : Pend) : Nat :=
  if s.cond.pending.contains p then p.instant s else Nat.max s.tw (p.instant s)

/-- The changes of a list with the instants at which they count, in order; equal instants keep the order of command. -/
def ordered (s : State) (ps : List Pend) : List (Nat × Pend) := ps.foldl (fun l p => insertBy (·.1) (stepInstant s p, p) l) []

/-- One step of R511: the view before and the view after an activation instant, and the slots of the old input rings of earlier changes of
window that are not empty yet (R40). -/
structure Step where
  before : View
  after : View
  at_ : Nat
  draining : Nat
  deriving DecidableEq, Repr

/-- The elements of started groups whose window changes between two views (R40). -/
def windowChanged (s : State) (v v' : View) (e : Nat) : Bool :=
  match v.active e, v'.active e with
  | some (x, g), some (_, h) => decide (g.window ≠ h.window) && Tab.has s.cond.started x.group
  | _, _ => false

/-- Every element that either view lists. -/
def bothElems (v0 v1 : View) : List Nat :=
  v1.elems.map (·.1) ++ ((v0.elems.map (·.1)).filter (fun e => !Tab.has v1.elems e))

/-- The old rings that a change at instant `t` leaves to drain: slots, and the instant by which their last block is released, the old
window after `t` (R42; log entry 97). -/
def drains (s : State) (v v' : View) (t : Nat) : List (Nat × Nat) :=
  ((bothElems v v').filter (windowChanged s v v')).filterMap (fun e =>
    (v.active e).map (fun p => (p.2.slots, t + ceilDiv (p.2.window * tickHz) 100000)))

/-- Slots of the rings that still drain at instant `t`. -/
def drainSlots (t : Nat) (l : List (Nat × Nat)) : Nat := ((l.filter (fun x => decide (t < x.2))).map (·.1)).sum

/-- The steps of R511: at each activation instant the views before and after. `l` is ordered, `old` are the rings that drain. -/
def stepsN (s : State) : Nat → View → List (Nat × Nat) → List (Nat × Pend) → List Step
  | 0, _, _, _ => []
  | k + 1, v, old, l =>
    match l with
    | [] => []
    | (t, _) :: _ =>
      let now := l.filter (fun x => decide (x.1 = t))
      let rest := l.filter (fun x => decide (x.1 ≠ t))
      let v' := now.foldl (fun v x => x.2.kind.apply v) v
      ⟨v, v', t, drainSlots t old⟩ :: stepsN s k v' (old ++ drains s v v' t) rest

/-- The view that changes of the past have left, and the old rings they left to drain. -/
def stepsPast (s : State) (l : List (Nat × Pend)) : View × List (Nat × Nat) :=
  l.foldl (fun a x => let v := x.2.kind.apply a.1; (v, a.2 ++ drains s a.1 v x.1)) (s.view, [])

/-- The steps from this instant on, for a list of pending changes and changes `now` that act at once (R511): an activation that has passed
is no step any more. -/
def changeSteps (s : State) (now : List PendKind) (ps : List Pend) : List Step :=
  let l := ordered s ps
  let past := stepsPast s (l.filter (fun x => decide (x.1 < s.tw)))
  let v0 := (l.filter (fun x => decide (x.1 = s.tw))).foldl (fun v x => x.2.kind.apply v) (now.foldl (fun v k => k.apply v) past.1)
  let rest := l.filter (fun x => decide (s.tw < x.1))
  ⟨past.1, v0, s.tw, drainSlots s.tw past.2⟩ :: stepsN s rest.length v0 (past.2 ++ drains s past.1 v0 s.tw) rest

/-! ## Instants and stamps -/

/-- t(n) of a group (R279). -/
def sampleTime (tOrg rate n : Nat) : Int := (tOrg : Int) + spanTicks n 1 (max 1 rate)

/-- t(n) of element `e` under the descriptor of block `b`. -/
def elemTime (s : State) (e b n : Nat) : Int :=
  let v := viewAt s b
  let x := v.elem e
  let org := match Tab.get s.cond.started x.group with
    | some r => r.tOrg
    | none => 0
  let rate := match Tab.get v.groups x.group with
    | some d => d.rate
    | none => 1
  sampleTime org rate n

/-- The stamp t_c(m) of conditioning output `m` (R66). -/
def condStamp (tOrg : Nat) (d : GroupDesc) (m : Nat) : Int :=
  sampleTime tOrg d.rate (d.ratio * m) - spanTicks d.delay2 1 (2 * max 1 d.rate)

/-- The stamp of frame `b` of a group (R82). -/
def frameStamp (tOrg : Nat) (d : GroupDesc) (b : Nat) : Int :=
  let m0 : Int := ((b + 1) * d.hop : Nat) - (d.len : Int)
  let base : Int := if m0 < 0 then (tOrg : Int) + spanTicks (d.ratio * m0) 1 (max 1 d.rate) - spanTicks d.delay2 1 (2 * max 1 d.rate)
    else condStamp tOrg d m0.toNat
  base + spanTicks (d.len - 1 : Nat) d.ratio (2 * max 1 d.rate)

/-- The stamp of plan frame `f` (R512). -/
def planStamp (p : Plan) (f : Nat) : Int := (p.t0 : Int) + spanTicks (f * p.hop : Nat) p.ratio (max 1 p.rate)

/-- This device's entries in a plan. -/
def ownEntry (s : State) (p : Plan) : Option PlanDev := p.devs.find? (fun d => decide (d.chip = s.chip))

/-- System index of a local element under a plan (R84). -/
def sysIndex (d : PlanDev) (e : Nat) : Option Nat :=
  if d.localBase ≤ e ∧ e < d.localBase + d.elements then some (d.sysBase + (e - d.localBase)) else none

/-! ## Counters of an element -/

/-- Counters of element `e`. -/
def cntOf (s : State) (e : Nat) : ElemCnt := Tab.getD s.cond.cnt e ElemCnt.reset

/-- Change the counters of element `e`. -/
def modCnt (e : Nat) (f : ElemCnt → ElemCnt) (s : State) : State :=
  { s with cond.cnt := Tab.put s.cond.cnt e (f (cntOf s e)) }

/-- Complete a command that took effect: it falls inside every open recovery window (R458). -/
def accept (d : Desc) (s : State) : State := complete d stOk 0 (disturb s)

/-- Complete a command that takes effect at time word `T`: it falls inside the windows that are open then (R458). -/
def acceptAt (T : Nat) (d : Desc) (s : State) : State := if T ≤ s.tw then accept d s else complete d stOk 0 (enterAct T none s)

/-- Refuse with a status whose info the manual does not state: the info is a free value. -/
def completeFree (d : Desc) (status : Nat) (s : State) : State :=
  let p := s.drawFree 32
  complete d status p.1 p.2

/-- The info a check gives when the manual states none. -/
def freeInfo : Nat := 2 ^ 32

/-- Complete a command whose checks failed. -/
def refuse (d : Desc) (c : Nat × Nat) (s : State) : State :=
  if c.2 = freeInfo then completeFree d c.1 s else complete d c.1 c.2 s

end Sys2Proof.Machine
end

