-- ==== Sys2Proof/Machine/Budget.lean ====
section
/-!
DEFINITION. The checks a change of the element table or of a group descriptor must pass around each activation (R511): stream
conflicts (R36), tap rules (R167), budgets (R41, R51, R63, R71, R72, R169, R229, R347, R366), drive elements (R198), plans (R84,
R85). The codes of CAPACITY are those of R509.
-/
namespace Sys2Proof.Machine

/-- Bytes of a data pool structure: rounded up to 4 KiB (R366). -/
def poolBytes (n : Nat) : Nat := 4096 * ceilDiv n 4096

/-- The data pool (R366). -/
def poolLimit : Nat := hubSize 8

/-- The check code of row `row` of table `tab` (Table 15-7). -/
def checkCode (row tab : Nat) : Nat := row * 65536 + tab

/-- What one element needs (Table 14-6). -/
structure Need where
  rings : Nat
  hist : Nat
  delay : Nat
  glint : Nat
  audio : Nat
  ints : Nat
  /-- fo as numerator and ratio -/
  fo : Nat
  ratio : Nat
  deriving DecidableEq, Repr

def Need.zero : Need := ⟨0, 0, 0, 0, 0, 0, 0, 1⟩

/-- Slots of a glint history (R169). -/
def glintSlots (s : State) : Nat :=
  match s.glint.cfg with
  | some c => 2 ^ c.histLog2
  | none => 0

/-- Slots of the audio history of an element that a configured source names (R229): `⌈Ls·fo⌉ + 64` with fo = rate ÷ ratio. -/
def audioSlots (lag rate ratio : Nat) : Nat := ceilDiv (lag * rate) (1000000 * max 1 ratio) + 64

/-- What element `e` needs under a view. Delay lines count for all elements (R63), glint histories for all tapped ones
(R169), everything else for those that receive. -/
def elemNeed (s : State) (v : View) (e : Nat) : Need :=
  match v.active e with
  | none => { Need.zero with delay := (v.elem e).lineSlots, glint := if (v.elem e).tapped then glintSlots s else 0 }
  | some (x, g) =>
    let ch := g.channelised
    { rings := g.slots
      hist := if ch then g.len - g.hop else 0
      delay := x.lineSlots
      glint := if x.tapped then glintSlots s else 0
      audio := (s.audio.srcs.map (fun a => if a.kind = 0 ∧ a.index = e then audioSlots a.lag g.rate g.ratio else 0)).sum
      ints := if g.preset then 0 else 1
      fo := if ch then g.rate * (if g.mode = 0 then 1 else 2) else 0
      ratio := g.ratio }

/-- `a ÷ b < c ÷ d` for positive denominators. -/
def ratLt (a b c d : Nat) : Bool := decide (a * d < c * b)

/-- The larger of two needs, with both rings while a window changes (R511). -/
def Need.max (a b : Need) (both : Bool) : Need :=
  let f := ratLt a.fo a.ratio b.fo b.ratio
  { rings := if both then a.rings + b.rings else Nat.max a.rings b.rings
    hist := Nat.max a.hist b.hist
    delay := Nat.max a.delay b.delay
    glint := Nat.max a.glint b.glint
    audio := Nat.max a.audio b.audio
    ints := Nat.max a.ints b.ints
    fo := if f then b.fo else a.fo
    ratio := if f then b.ratio else a.ratio }

/-- What element `e` needs around an activation. -/
def needAround (s : State) (v0 v1 : View) (e : Nat) : Need :=
  let a := elemNeed s v0 e
  let b := elemNeed s v1 e
  a.max b (windowChanged s v0 v1 e)

/-- The sum of `fo` of the needs is at most `lim`: the values are summed by ratio, then compared as fractions. -/
def foWithin (l : List Need) (lim : Nat) : Bool :=
  let t : Tab Nat := l.foldl (fun t n => Tab.add t n.ratio n.fo) []
  let p := t.foldl (fun (a : Nat × Nat) r => (a.1 * r.1 + r.2 * a.2, a.2 * r.1)) (0, 1)
  decide (p.1 ≤ lim * p.2)

/-- The engine with the lowest load, lower number first. -/
def leastLoaded (l : List Nat) : Nat :=
  (l.zipIdx.foldl (fun (b : Nat × Nat) p => if p.1 < b.1 then p else b) (l.headD 0, 0)).2

/-- Assignment of elements to the 32 conditioning engines (R51): each element with its engine, and the load of each engine. Each
element comes with its rate and whether it runs a preset, in ascending index; the rule gives the order of the presets, and the model takes
the others in the same order (DESIGN CHOICE, log entry 98). -/
def assignEngines (l : List (Nat × Nat × Bool)) : List (Nat × Nat) × List Nat :=
  let pre := l.filter (·.2.2)
  let other := l.filter (fun x => !x.2.2)
  let a := pre.zipIdx.foldl (fun (acc : List (Nat × Nat) × List Nat) p =>
    let k := p.2 / 64
    (acc.1 ++ [(p.1.1, k)], acc.2.set k (acc.2.getD k 0 + p.1.2.1))) ([], List.replicate 32 0)
  other.foldl (fun acc p =>
    let k := leastLoaded acc.2
    (acc.1 ++ [(p.1, k)], acc.2.set k (acc.2.getD k 0 + p.2.1))) a

/-- The assignment under a view. -/
def engineOf (v : View) : List (Nat × Nat) :=
  (assignEngines (v.receivers.filterMap (fun e => (v.active e).map (fun p => (e, p.2.rate, p.2.preset))))).1

/-- No conditioning engine takes more than 2 GS/s or 64 presets; each element counts with the larger rate, and as a preset when it is one on
either side of the activation (R511). Elements that the change removes are placed last (log entry 98). -/
def enginesOk (v0 v1 : View) : Bool :=
  let l := (bothElems v0 v1).filterMap (fun e => match v1.active e, v0.active e with
    | some p, some q => some (e, Nat.max p.2.rate q.2.rate, p.2.preset || q.2.preset)
    | some p, none => some (e, p.2.rate, p.2.preset)
    | none, some q => some (e, q.2.rate, q.2.preset)
    | none, none => none)
  let a := assignEngines l
  decide ((l.filter (·.2.2)).length ≤ 2048) && a.2.all (fun x => decide (x ≤ 2000000000))

/-- Samples of the audio delay lines that the loaded routing sets name: each line at the larger of its lengths (R233). -/
def lineSamples (sets : List RoutingSet) : Nat :=
  let t : Tab Nat := sets.foldl (fun t rs => rs.instrs.foldl (fun t i =>
    if i.op = 6 then
      let p := rs.params.getD i.param (0, 0)
      Tab.put t p.2 (Nat.max (Tab.getD t p.2 0) p.1.toNat)
    else t) t) []
  (t.map (·.2)).sum

/-- The routing sets held. -/
def heldSets (s : State) : List RoutingSet := s.audio.active.toList ++ s.audio.idle.toList

/-- Inkwells in hub SRAM of a schedule image (Table 04-7), jobs × 1,024, doubled for dump 1. -/
def Sched.hubInk (c : Sched) : Nat :=
  (c.pools.map (fun p => if p.mode = 0 ∧ p.ink = 1 then p.jobs * 1024 * (if p.dump = 1 then 2 else 1) else 0)).sum

/-- Inkwells in hub SRAM that the loaded schedules need, the larger around a takeover (R511). -/
def hubInkwells (rs : List SchedRun) : Nat := (rs.map (fun r => r.sched.hubInk)).foldl Nat.max 0

/-- The bytes the data pool holds for given needs (Table 14-6). -/
def poolUse (rings hist delay ints glint audio lines ink : Nat) : Nat :=
  poolBytes (ceilDiv (13 * rings) 8) + poolBytes (2 * hist) + poolBytes (ceilDiv (36 * delay) 16) + poolBytes (256 * ints) +
    poolBytes (ceilDiv (36 * glint) 16) + poolBytes (ceilDiv (36 * audio) 16) + poolBytes (3 * lines) + poolBytes (12 * ink)

/-- Sum of a need over elements. -/
def sumNeed (f : Need → Nat) (l : List Need) : Nat := (l.map f).sum

/-- The data pool with the needs of a view and the loads given. -/
def poolTotal (l : List Need) (lines ink : Nat) : Nat :=
  poolUse (sumNeed (·.rings) l) (sumNeed (·.hist) l) (sumNeed (·.delay) l) (sumNeed (·.ints) l) (sumNeed (·.glint) l)
    (sumNeed (·.audio) l) lines ink

/-- The needs of every element around a step; the rings that still drain stand as one more entry (R511, R40). -/
def stepNeeds (s : State) (st : Step) : List Need :=
  { Need.zero with rings := st.draining } :: (bothElems st.before st.after).map (needAround s st.before st.after)

/-- A property of the needs holds around every step that the pending changes will make (R511). -/
def allSteps (s : State) (ok : List Need → Bool) : Bool := (changeSteps s [] s.cond.pending).all (fun st => ok (stepNeeds s st))

/-- The data pool stays within its limit with other sizes for audio delay lines or hub inkwells, around every step that the pending changes
will make (R366, R511). -/
def poolFits (s : State) (lines ink : Nat) : Bool := allSteps s (fun l => decide (poolTotal l lines ink ≤ poolLimit))

/-- The budgets around one activation, in the order of R509. -/
def budgetChk (s : State) (st : Step) : Chk :=
  let l := stepNeeds s st
  firstFail [
    need (decide (sumNeed (·.rings) l ≤ 16777216)) stCapacity (checkCode 1 0x0E06),
    need (decide (sumNeed (·.hist) l ≤ 8388608)) stCapacity (checkCode 2 0x0E06),
    need (decide (sumNeed (·.delay) l ≤ 2097152)) stCapacity (checkCode 3 0x0E06),
    need (decide (sumNeed (·.glint) l ≤ 2097152)) stCapacity (checkCode 5 0x0E06),
    need (decide (sumNeed (·.audio) l ≤ 1048576)) stCapacity (checkCode 6 0x0E06),
    need (decide (poolTotal l (lineSamples (heldSets s)) (hubInkwells s.corr.scheds) ≤ poolLimit)) stCapacity
      (checkCode 8 0x0E05),
    need (enginesOk st.before st.after) stCapacity (checkCode 12 0x0107),
    need (foWithin l 64000000000) stCapacity (checkCode 13 0x0107)]

/-! ## Afterimage blocks (R347) -/

/-- Σfs over the receive-enabled elements of a view. -/
def sumRates (v : View) : Nat := (v.receivers.map (fun e => match v.active e with
  | some p => p.2.rate
  | none => 0)).sum

/-- Be of an element. -/
def afterBlocks (s : State) (v : View) (e : Nat) : Nat :=
  match v.active e with
  | some p => if sumRates v = 0 then 0 else regionSize s 0 * p.2.rate / (96 * sumRates v)
  | none => 0

/-- The HBM address of block `b` of element `e` in the afterimage (R347, R348): the rings follow one another in ascending index. -/
def afterAddr (s : State) (v : View) (e b : Nat) : Nat :=
  regionBase s 0 + ((v.receivers.filter (fun x => decide (x < e))).map (fun x => 96 * afterBlocks s v x)).sum +
    96 * (b % max 1 (afterBlocks s v e))

/-- No element would have Be < 2 (R347). The status of this refusal is that of a budget; no table row states the limit, so its info
is free (log entry 22). -/
def afterChk (s : State) (v : View) : Chk :=
  need (regionSize s 0 == 0 || v.receivers.all (fun e => (v.active e).isNone || decide (2 ≤ afterBlocks s v e))) stCapacity freeInfo

/-! ## Rules on the state after an activation -/

/-- Two receive-enabled elements with the same stream and channel (R36): the second one. -/
def streamClashN : List (Nat × ElemEntry) → List (Nat × Nat) → Option Nat
  | [], _ => none
  | (e, x) :: l, seen =>
    if x.rx then (if seen.contains (x.stream, x.channel) then some e else streamClashN l ((x.stream, x.channel) :: seen))
    else streamClashN l seen

/-- R36. -/
def streamChk (v : View) : Chk :=
  match streamClashN v.elems [] with
  | some e => some (stConflict, e)
  | none => none

/-- The first tapped element that breaks R167, with started groups `run`. `first` is the first tapped element's setting. -/
def tapBreakN (v : View) (run : Tab GroupRun) :
    List Nat → Nat → Option (List Nat) → Option Nat → Option Nat
  | [], _, _, _ => none
  | e :: l, i, key, org =>
    if 4096 ≤ i then some e
    else match v.desc e with
    | none => tapBreakN v run l (i + 1) key org
    | some g =>
      let k := [g.rate, g.decMode, g.ratio]
      let o := (Tab.get run (v.elem e).group).map (·.tOrg)
      let fast := decide (250000 * g.ratio < g.rate)
      let differs := (match key with
        | some k' => decide (k ≠ k')
        | none => false) || (match o, org with
        | some a, some b => decide (a ≠ b)
        | _, _ => false)
      if fast || differs then some e
      else tapBreakN v run l (i + 1) (some k) (match org with
        | some b => some b
        | none => o)

/-- R167. -/
def tapBreak (v : View) (run : Tab GroupRun) : Option Nat := tapBreakN v run v.taps 0 none none

/-- R167 for a change. -/
def tapChk (v : View) (run : Tab GroupRun) : Chk := (tapBreak v run).map (fun e => (stConflict, e))

/-- Drive elements of a view under a drive map (R198), in ascending device-local index. -/
def driveEntries (v : View) (map : List DriveEntry) : List DriveEntry :=
  (map.filter (fun m => (v.elem m.element).drive)).foldl (fun l m => insertBy (·.element) m l) []

/-- Two drive entries with one stream and channel. -/
def driveClashN : List DriveEntry → List (Nat × Nat) → Option Nat
  | [], _ => none
  | m :: l, seen => if seen.contains (m.stream, m.channel) then some m.element else driveClashN l ((m.stream, m.channel) :: seen)

/-- R198: the count and rate limits refuse with a budget's status and a free info, the clash as R36 does (log entry 23). -/
def driveChk (v : View) (map : List DriveEntry) (groups : Tab DriveGroup) : Chk :=
  let l := driveEntries v map
  firstFail [
    need (decide (l.length ≤ 4096)) stCapacity freeInfo,
    match driveClashN l [] with
    | some e => some (stConflict, e)
    | none => none,
    need (decide ((l.map (fun m => match Tab.get groups m.group with
      | some g => g.rate
      | none => 0)).sum ≤ 16384000000)) stCapacity freeInfo]

/-- A view keeps plan `p` whole (R84, R85): every group bound to it has its band, and every local element of its own entry is
receive-enabled in a group bound to it. -/
def viewKeepsPlan (s : State) (v : View) (p : Nat) (pl : Plan) : Bool :=
  v.groups.all (fun g => decide (g.2.plan ≠ p) || decide (g.2.band = pl.band)) &&
    (match ownEntry s pl with
    | none => true
    | some d => (List.range d.elements).all (fun i => match v.active (d.localBase + i) with
      | some x => decide (x.2.plan = p)
      | none => false))

/-- The versions of a plan that still act or will act: one that a later version has replaced is left out. -/
def liveVersions (s : State) : List Plan → List Plan
  | [] => []
  | [p] => [p]
  | p :: q :: l => if planStamp q q.activate ≤ (s.tw : Int) then liveVersions s (q :: l) else p :: q :: l

/-- The first frame that a change from descriptor `old` to `new` at block `b` reaches (R73): the first after a restart of the filterbank, or
the first whose oldest input lies at or after the change. -/
def effectFrame (old : Option GroupDesc) (new : GroupDesc) (b : Nat) : Nat :=
  let m := ceilDiv (64 * b) (max 1 new.ratio)
  let keeps := match old with
    | some o => decide (o.chainKey = new.chainKey ∧ o.bankKey = new.bankKey)
    | none => false
  if keeps then ceilDiv (m + new.len) (max 1 new.hop) - 1 else m / max 1 new.hop

/-- The frame at which a pending change takes effect, between the views before and after it; one of a group that is not started acts at
once. -/
def planFrame (s : State) (v v' : View) (p : Pend) : Nat :=
  if !Tab.has s.cond.started (p.group s v) then 0
  else match p.kind with
  | .group g d => effectFrame (Tab.get v.groups g) d p.block
  | .elems es => match es with
    | (e, _) :: _ => match v'.active e, v.active e with
      | some x, o => effectFrame (o.map (·.2)) x.2 p.block
      | none, some o => effectFrame none o.2 p.block
      | none, none => 0
    | [] => 0

/-- A pending change bears on a plan: on a group bound to it, or on an element of this device's entry in it. -/
def bearsOn (s : State) (id : Nat) (v : View) (p : Pend) : Bool :=
  match p.kind with
  | .group g d => decide (d.plan = id) || (match Tab.get v.groups g with
    | some o => decide (o.plan = id)
    | none => false)
  | .elems es => (planVersions s id).any (fun q => match ownEntry s q with
    | some o => es.any (fun x => (sysIndex o x.1).isSome)
    | none => false)

/-- The views a plan meets, each with the frame from which it holds. -/
def planSeq (s : State) (id : Nat) (v1 : View) (ps : List Pend) : List (Nat × View) :=
  (0, v1) :: (ps.foldl (fun (a : List (Nat × View) × View) p =>
    let v' := p.kind.apply a.2
    (if bearsOn s id a.2 p then a.1 ++ [(planFrame s a.2 v' p, v')] else a.1, v')) ([], v1)).1

/-- Each of the views matches every version that is in force while it holds (R85): a version and a change that take effect at the same frame
meet. -/
def planSeqChk (s : State) (id : Nat) (vs : List (Nat × View)) : List Plan → Chk
  | [] => none
  | q :: rest =>
    let stop := rest.head?.map (·.activate)
    let before (a : Nat) (b : Option Nat) : Bool := match b with
      | some b => decide (a < b)
      | none => true
    let meets (x : (Nat × View) × Option Nat) : Bool := before x.1.1 x.2 && before x.1.1 stop && before q.activate x.2
    let l := vs.zip ((vs.drop 1).map (fun x => some x.1) ++ [none])
    firstFail [need (l.all (fun x => !meets x || viewKeepsPlan s x.1.2 id q)) stConflict id, planSeqChk s id vs rest]

/-- R85 for the changes `now`, which act at once, and the pending list `ps`. -/
def plansChk (s : State) (now : List PendKind) (ps : List Pend) : Chk :=
  let v1 := now.foldl (fun v k => k.apply v) s.view
  firstFail (s.chan.plans.map (fun x => planSeqChk s x.1 (planSeq s x.1 v1 ps) (liveVersions s x.2)))

/-- Every check of R511 for the changes `now`, which act at once, and the pending list `ps`. -/
def changeChk (s : State) (now : List PendKind) (ps : List Pend) : Chk :=
  let l := changeSteps s now ps
  firstFail [
    firstFail (l.map (fun st => firstFail [streamChk st.after, tapChk st.after s.cond.started, driveChk st.after s.tx.map s.tx.groups])),
    plansChk s now ps,
    firstFail (l.map (fun st => firstFail [budgetChk s st, afterChk s st.after]))]

end Sys2Proof.Machine
end

