-- ==== Sys2Proof/Machine/Cond.lean ====
section
/-!
DEFINITION. Ingest alignment and conditioning (02_conditioning.md) with the afterimage writes of 14_memory.md (R347 to R349):
element table, group descriptors, group start and stop, ingest frames, block release, conditioning slices.
-/
namespace Sys2Proof.Machine

/-! ## Runs -/

/-- A receive element that starts at block `b` with integer delay `delay`. -/
def newRun (tOrg : Nat) (d : GroupDesc) (b delay : Nat) : ElemRun where
  tOrg := tOrg
  next := b
  stop := none
  slots := []
  size := d.slots
  causes := []
  arrs := []
  ready := []
  condNext := b
  chain := Chain.restart (64 * b)
  chainAt := none
  line := []
  delay := delay
  stepWarm := 0
  fb := []
  fbNext := 0
  fbStart := 0
  gapOuts := []
  frame := 0

/-- Replace the run of an element. -/
def setRun (e : Nat) (r : ElemRun) (s : State) : State := { s with cond.run := Tab.put s.cond.run e r }

/-- The first block that the element has neither released nor conditioned. -/
def ElemRun.base (r : ElemRun) : Nat :=
  match r.ready.getLast? with
  | some x => x.b + 1
  | none => r.condNext

/-- While the quad of an element is out of block lock, every block that enters its span takes a link cause (R44): those from `from_` on. -/
def enterSpan (e from_ : Nat) (s : State) : State :=
  match Tab.get s.cond.run e, Tab.get s.cond.onQuad e with
  | some r, some q =>
    if (quadOf s q).up then s
    else
      let lo := Nat.max from_ r.next
      setRun e ((List.range (r.next + r.size / 64 - lo)).foldl (fun r i => noteCause r (lo + i) 2) r) s
  | _, _ => s

/-- An element whose outputs are not tapped: nothing is due, and the history starts anew with the output that is tapped next (R170). -/
def glintSkip (e next : Nat) (s : State) : State :=
  match Tab.get s.glint.hist e with
  | some h => { s with glint.hist := Tab.put s.glint.hist e { h with words := [], next := next } }
  | none => s

/-- The chain of an element restarts: the audio histories that hold its outputs start empty (R229, R230). -/
def audioSkip (e : Nat) (s : State) : State :=
  { s with audio.srcs := s.audio.srcs.map (fun a => if a.kind = 0 ∧ a.index = e then { a with hist := [] } else a) }

/-- The glint and audio histories of an element start with its first output after block `b`; their counts go on (R170, R230). -/
def skipTo (e : Nat) (d : GroupDesc) (b : Nat) (s : State) : State := audioSkip e (glintSkip e (ceilDiv (64 * b) (max 1 d.ratio)) s)

/-- A run starts at block `b`: its whole span is entered, and its histories start with it. -/
def beginRun (e tOrg : Nat) (d : GroupDesc) (b delay : Nat) (s : State) : State :=
  enterSpan e b (setRun e (newRun tOrg d b delay) (skipTo e d b s))

/-- Entry, descriptor and activity of element `e` for block `b`: receive enabled, its group described and started, and the block not
after the group's stop (R313, R510). -/
def activeAt (s : State) (e b : Nat) : Option (ElemEntry × GroupDesc) :=
  match (viewAt s b).active e, Tab.get s.cond.run e with
  | some (x, g), some r =>
    let going := match Tab.get s.cond.started x.group with
      | some u => match u.stopAt, r.stop with
        | none, _ => true
        | some _, some k => decide (b < k)
        | some n, none => decide (b < ceilDiv n 64)
      | none => false
    if going then some (x, g) else none
  | _, _ => none

/-- The oldest unreleased block of a run that is active: the first one not released, or the first block at which a pending change enables the
element again. -/
def oldestBlock (s : State) (e : Nat) (r : ElemRun) : Option Nat :=
  let cs := r.base :: ((s.cond.pending.map (·.block)).filter (fun b => decide (r.base < b))).foldl (fun l b => insertBy id b l) []
  cs.find? (fun b => (activeAt s e b).isSome)

/-- A run stands at the oldest block that is still to be released (R44): an element that was disabled and is enabled again has no blocks
between. -/
def jumpRun (e : Nat) (s : State) : State :=
  match Tab.get s.cond.run e with
  | none => s
  | some r =>
    let b := (oldestBlock s e r).getD r.base
    if b = r.next then s
    else
      let s := match r.ready, activeAt s e b with
        | [], some (_, g) => skipTo e g b s
        | _, _ => s
      enterSpan e b (setRun e { r with next := b } s)

/-- The run of an element under the origin of the started group that its block `b` belongs to (R279, R39). -/
def originAt (s : State) (e b : Nat) (r : ElemRun) : ElemRun :=
  match Tab.get s.cond.started (elemAt s e b).group with
  | some u => { r with tOrg := u.tOrg }
  | none => r

/-- Input rates of the receive-enabled elements of a view. -/
def ratesOf (v : View) : Tab Nat := v.receivers.filterMap (fun e => (v.active e).map (fun p => (e, p.2.rate)))

/-- The instant at which the rates took their present values: the activation of the last change that moved them, or now (R349). -/
def ratesSince (s : State) : Nat :=
  ((s.cond.pending.filter (fun p => decide (p.instant s ≤ s.tw))).foldl (fun (a : View × Option Nat) p =>
    let v := p.kind.apply a.1
    (v, if ratesOf v = ratesOf a.1 then a.2 else some (p.instant s))) (s.view, none)).2.getD s.tw

/-- When Σfs or an element's rate has changed, the afterimage and the gap index restart empty at the activation of the change (R349). -/
def afterCheck (s : State) : State :=
  let r := ratesOf (viewNow s)
  if r = s.cond.afterRates then s
  else { s with
    cond.after := [], cond.afterWait := [], cond.gapIndex := [], cond.gapLost := none, cond.gapGone := [], cond.afterRates := r
    cond.afterFrom := ratesSince s }

/-- The elements a pending change concerns. -/
def Pend.elements (s : State) (p : Pend) : List Nat :=
  match p.kind with
  | .elems l => l.map (·.1)
  | .group g _ => (s.cond.run.map (·.1)).filter (fun e => decide ((s.view.elem e).group = g ∨ (elemAt s e p.block).group = g))

/-- An element no longer sees what a pending change replaced: it has conditioned past the first block of the change and formed every frame
whose oldest input lies before it (a restart of the filterbank waits for those frames: R73, Table 01-9); or, once the change's instant has
come, it has conditioned every block it has, takes none before or at that block, and can form no further frame. -/
def Pend.passedBy (s : State) (p : Pend) (e : Nat) (r : ElemRun) : Bool :=
  let idle := r.ready.isEmpty && decide (p.instant s ≤ s.tw) && (match oldestBlock s e r with
    | some k => decide (p.block < k)
    | none => true)
  let past := match descAt s e (p.block - 1), descAt s e p.block with
    | some d, some d' => !d.channelised || decide (d.chainKey ≠ d'.chainKey ∨ d.bankKey ≠ d'.bankKey) ||
        decide (64 * p.block + d.ratio * d.len ≤ d.ratio * ((r.frame + 1) * d.hop)) ||
        (idle && decide (r.fbNext < (r.frame + 1) * d.hop))
    | _, _ => true
  (decide (p.block < r.condNext ∧ p.block < r.next) || idle) && past

/-- Conditioning and channeliser no longer see what a pending change replaced. -/
def descDone (s : State) (p : Pend) : Bool :=
  (p.elements s).all (fun e => match Tab.get s.cond.run e with
    | none => true
    | some r => p.passedBy s e r)

/-- A pending change no longer matters at all: the glint path, which reads positions and delays at its own index (R173), has passed it
too. -/
def settled (s : State) (p : Pend) : Bool :=
  descDone s p && (p.elements s).all (fun e => s.glint.set_.isNone || (!(s.view.elem e).tapped && !(elemAt s e p.block).tapped) ||
    (match descAt s e p.block with
      | some d => decide (64 * p.block ≤ d.ratio * s.glint.m)
      | none => true))

/-- Merge settled changes at the head of the list. -/
def settleN : Nat → State → State
  | 0, s => s
  | k + 1, s =>
    match s.cond.pending with
    | [] => s
    | p :: rest =>
      if settled s p then
        let v := p.kind.apply s.view
        settleN k { s with cond.elems := v.elems, cond.groups := v.groups, cond.pending := rest }
      else s

/-- Merge settled changes. -/
def settle (s : State) : State := settleN s.cond.pending.length s

/-- The group an element belongs to at its oldest unreleased block (R39). -/
def groupNow (s : State) (e : Nat) (r : ElemRun) : Nat := (elemAt s e r.next).group

/-- A group whose stop is pending has stopped once every element that belongs to it has released and conditioned its last block. -/
def finishStops (s : State) : State :=
  let done := s.cond.started.filter (fun p => p.2.stopAt.isSome && (s.cond.run.all (fun x =>
    if groupNow s x.1 x.2 = p.1 ∧ (elemAt s x.1 x.2.next).rx then x.2.ready.isEmpty && (match x.2.stop with
      | some k => decide (k ≤ x.2.next)
      | none => true)
    else x.2.ready.all (fun b => decide ((elemAt s x.1 b.b).group ≠ p.1)))))
  done.foldl (fun s p =>
    let mine := s.cond.pending.filter (fun x => decide (x.group s s.view = p.1))
    let v := mine.foldl (fun v x => x.kind.apply v) s.view
    { s with
      glint.org := if v.taps.any (fun e => decide ((v.elem e).group = p.1)) then some p.2.tOrg else s.glint.org
      cond.started := Tab.del s.cond.started p.1, cond.elems := v.elems, cond.groups := v.groups
      cond.pending := s.cond.pending.filter (fun x => decide (x.group s s.view ≠ p.1)) }) s

/-! ## Commands -/

/-- The view just before a pending change. -/
def viewBefore (s : State) (p : Pend) : View :=
  (s.cond.pending.takeWhile (fun x => decide (x ≠ p))).foldl (fun v x => x.kind.apply v) s.view

/-- An element for which a pending change holds from block `b` on, in the started group `g` with descriptor `d`: one that comes from no
started group has no run of this start yet, and takes one when it receives; one that had nothing more to release (`s0` is the state before
the change) holds no samples. -/
def ensureRun (s0 : State) (was : ElemEntry) (e : Nat) (x : ElemEntry) (g : GroupRun) (d : GroupDesc) (b : Nat) (s : State) : State :=
  let fresh (s : State) : State := if x.rx then beginRun e g.tOrg d b x.delayInt s else s
  if !Tab.has s.cond.started was.group then fresh { s with cond.run := Tab.del s.cond.run e }
  else match Tab.get s.cond.run e with
  | none => fresh s
  | some r => if x.rx && (oldestBlock s0 e r).isNone then setRun e { r with slots := [], causes := [], arrs := [] } s else s

/-- Every element that an accepted pending change makes receive has a run from the change's first block. -/
def ensureRuns (s0 : State) (p : Pend) (s : State) : State :=
  match p.kind with
  | .group _ _ => s
  | .elems es => es.foldl (fun s x =>
      match Tab.get s.cond.started x.2.group, Tab.get s.cond.groups x.2.group with
      | some g, some d => ensureRun s0 ((viewBefore s p).elem x.1) x.1 x.2 g d p.block s
      | _, _ => s) s

/-- The entries of an element table change, a later item for an index replacing an earlier one. -/
def changeItems (b : Bytes) (n : Nat) : List (Nat × ElemEntry) :=
  (List.range n).foldl (fun (t : Tab ElemEntry) i => Tab.put t (fieldU b (16 + 48 * i) 2) (parseElem b (32 + 48 * i))) []

/-- Checks of one item of an element table change. -/
def itemChk (b : Bytes) (i : Nat) : Chk :=
  let o := 16 + 48 * i
  firstFail [need (decide (fieldU b o 2 < 16384)) stRange o, needZero b (o + 2) 14 0,
    need (decide (fieldU b (o + 17) 1 < 16)) stReserved (o + 17), needZero b (o + 44) 4 0]

/-- The checks of ELEMENT_TABLE_CHANGE, in order. -/
def elementTableChangeChk (d : Desc) (data : Bytes) (_s : State) : Chk :=
  let b := dataOf d data
  let n := fieldU b 0 4
  firstFail [descChk d [(32, 8)], need (decide (16 ≤ d.len.toNat)) stSize 16, sizeChk d (16 + 48 * n),
    needZero b 4 12 0, firstFail ((List.range n).map (itemChk b))]

/-- What a change does at once, and what waits for block `activate ÷ 64`: an item concerns a started group when its element leaves or
enters one (R39). -/
def splitChange (act : Nat) (items : List (Nat × ElemEntry)) (s : State) : PendKind × List Pend :=
  let v := viewNow s
  let live (p : Nat × ElemEntry) : Bool :=
    Tab.has s.cond.started (v.elem p.1).group || Tab.has s.cond.started p.2.group
  let later := items.filter live
  let gs := (later.map (fun p => elemGroup s v p.1 p.2)).eraseDups
  (.elems (items.filter (fun p => !live p)),
    gs.map (fun g => ⟨act, .elems (later.filter (fun p => decide (elemGroup s v p.1 p.2 = g)))⟩))

/-- A change whose activation index has passed acts from the first block that none of its elements has conditioned since their group
started (log entry 97). -/
def clampPend (s : State) (p : Pend) : Pend :=
  let b := ((p.elements s).filterMap (fun e =>
    if Tab.has s.cond.started ((viewNow s).elem e).group then (Tab.get s.cond.run e).map (·.condNext) else none)).foldl Nat.max 0
  if p.block < b then { p with activate := 64 * b } else p

/-- The pending list with more changes, each at its place (R511). -/
def withPends (s : State) (l : List Pend) : List Pend := l.foldl (withPend s) s.cond.pending

/-- The old ring gives way to one of a new size at block `b` (R40): held samples of that block and later move, lower index first; where two
meet in one slot the other is early. -/
def resizeRing (e b size : Nat) (s : State) : State :=
  match Tab.get s.cond.run e with
  | none => s
  | some r =>
    let held := (r.slots.map (·.2)).foldl (fun l x => insertBy (·.1) x l) []
    let keep := held.filter (fun x => decide (64 * b ≤ x.1))
    let go := keep.foldl (fun (a : Tab (Nat × Int) × List Nat) x =>
      if Tab.has a.1 (x.1 % max 1 size) then (a.1, a.2 ++ [x.1 / 64]) else (Tab.put a.1 (x.1 % max 1 size) x, a.2)) ([], [])
    let r := go.2.foldl (fun r k => noteCause r k 4) { r with slots := go.1, size := size }
    modCnt e (fun c => { c with early := c.early + go.2.length }) (setRun e r s)

/-- The run stands at its oldest unreleased block, and the ring takes the size that this block asks for (R40). -/
def fitRing (e : Nat) (s : State) : State :=
  let s := jumpRun e s
  match Tab.get s.cond.run e with
  | none => s
  | some r => match activeAt s e r.next with
    | some (_, g) => if g.slots = r.size then s else enterSpan e (r.next + r.size / 64) (resizeRing e r.next g.slots s)
    | none => s

/-- Every ring takes its size: a change may act on blocks whose predecessor has been released already. -/
def fitRings (s : State) : State := (s.cond.run.map (·.1)).foldl (fun s e => fitRing e s) s

/-- Enter an accepted change: the part that acts at once, and the pending part with runs for the elements it adds. -/
def enterChange (now : PendKind) (pend : List Pend) (s : State) : State :=
  let s1 := { s with cond.elems := (now.apply s.view).elems, cond.pending := withPends s pend }
  fitRings (pend.foldl (fun v p => ensureRuns s p v) s1)

/-- The time word at which a change of an element acts, by the pending changes that hold it; one in none of them acts now. -/
def itemTime (s : State) (pend : List Pend) (e : Nat) : Nat :=
  match pend.find? (fun p => match p.kind with
    | .elems es => Tab.has es e
    | .group _ _ => false) with
  | some p => p.instant s
  | none => s.tw

/-- The entries of a change in the configuration digest, each from the time word at which it acts. -/
def digestItems (b : Bytes) (n : Nat) (items : List (Nat × ElemEntry)) (at_ : Nat → Nat) (s : State) : State :=
  items.foldl (fun s p => if p.2 = ElemEntry.reset then cfgDelAt (at_ p.1) 16 p.1 s
    else cfgPutAt (at_ p.1) 16 p.1 (slice b (32 + 48 * (((List.range n).filter (fun i => fieldU b (16 + 48 * i) 2 = p.1)).getLastD 0)) 32) s) s

/-- ELEMENT_TABLE_CHANGE (R35, R36, R39, R511). -/
def runElementTableChange (d : Desc) (data : Bytes) (s : State) : State :=
  let b := dataOf d data
  let n := fieldU b 0 4
  match elementTableChangeChk d data s with
  | some c => refuse d c s
  | none =>
    let items := changeItems b n
    let c := splitChange (par d 32 8) items s
    let pend := c.2.map (clampPend s)
    match changeChk s [c.1] (withPends s pend) with
    | some x => refuse d x s
    | none =>
      let s' := afterCheck (digestItems b n items (itemTime s pend) (enterChange c.1 pend s))
      if pend.isEmpty then accept d s' else
        let now : Bool := match c.1 with
          | .elems es => !es.isEmpty
          | .group _ _ => true
        complete d stOk 0 (if now then disturb s' else s')

def execElementTableChange (t : Tick) (d : Desc) (data : Bytes) (s : State) : Host.Outcome State Fault Refusal :=
  .next (runElementTableChange d data (s.advance t))

/-- The images a descriptor names are loaded and match it (R514). -/
def imagesChk (s : State) (g : GroupDesc) : Chk :=
  if !g.channelised then none
  else match Tab.get s.chan.protos g.proto with
  | none => some (stNotFound, g.proto)
  | some p =>
    if p.chanLog2 ≠ g.chanLog2 ∨ p.taps ≠ g.taps then some (stConflict, g.proto)
    else if g.gain = 0xFFFF then none
    else match Tab.get s.chan.gains g.gain with
    | none => some (stNotFound, g.gain)
    | some l => need (decide (l.length = g.count)) stConflict g.gain

/-- GROUP_DESCRIPTOR (R37, R39, R70, R514, R511). -/
def runGroupDescriptor (d : Desc) (data : Bytes) (s : State) : State :=
  let b := dataOf d data
  match firstFail [descChk d [(32, 1), (40, 8)], sizeChk d 64, groupChk b, imagesChk s (parseGroup b)] with
  | some c => refuse d c s
  | none =>
    let g := par d 32 1
    let k := PendKind.group g (parseGroup b)
    if Tab.has s.cond.started g then
      let p := clampPend s ⟨par d 40 8, k⟩
      match changeChk s [] (withPends s [p]) with
      | some c => refuse d c s
      | none => complete d stOk 0 (cfgPutAt (p.instant s) 15 g b (fitRings { s with cond.pending := withPends s [p] }))
    else
      match changeChk s [k] s.cond.pending with
      | some c => refuse d c s
      | none => accept d (afterCheck (cfgPut 15 g b { s with cond.groups := (k.apply s.view).groups }))

def execGroupDescriptor (t : Tick) (d : Desc) (data : Bytes) (s : State) : Host.Outcome State Fault Refusal :=
  .next (runGroupDescriptor d data (s.advance t))

/-- A start of group `g` at `tOrg` would give tapped elements different origins (R167, R510), now or in a state that a pending change will
produce, as R511 checks every conflict rule (log entry 99). -/
def originClash (s : State) (g tOrg : Nat) : Bool :=
  let run := Tab.put s.cond.started g ⟨tOrg, none⟩
  let v := viewNow s
  v.taps.any (fun e => decide ((v.elem e).group = g)) &&
    (changeSteps s [] s.cond.pending).any (fun st => (tapBreak st.after run).isSome)

/-- An element's changes whose instant has come are merged; the pending list keeps the others. -/
def commitElem (e : Nat) (s : State) : State :=
  let past (p : Pend) : Bool := decide (p.instant s ≤ s.tw)
  { s with
    cond.elems := putElems s.cond.elems [(e, (viewNow s).elem e)]
    cond.pending := s.cond.pending.filterMap (fun p => match p.kind with
      | .group _ _ => some p
      | .elems es =>
        let es := if past p then es.filter (fun x => decide (x.1 ≠ e)) else es
        if es.isEmpty then none else some { p with kind := .elems es }) }

/-- Start every receive element of a group at block 0. What runs stand of elements of the group from an earlier start end. -/
def startGroup (g tOrg : Nat) (s : State) : State :=
  let s := ((viewNow s).members g).foldl (fun s e => commitElem e s) s
  let s := { s with
    cond.started := Tab.put s.cond.started g ⟨tOrg, none⟩
    cond.run := s.cond.run.filter (fun x => decide (((viewNow s).elem x.1).group ≠ g)) }
  let es := ((viewNow s).members g).filter (fun e => ((viewNow s).elem e).rx)
  -- the first tapped group to start begins the index of the beam samples (R167)
  let taps (k : Nat) : Bool := (s.view.members k).any (fun e => (s.view.elem e).tapped)
  let s := if taps g && !s.cond.started.any (fun p => p.1 ≠ g && taps p.1) then { s with glint.m := 0 } else s
  match Tab.get s.cond.groups g with
  | none => s
  | some d =>
    es.foldl (fun s e => beginRun e tOrg d 0 ((viewNow s).elem e).delayInt s)
      { s with chan.eras := Tab.put s.chan.eras d.plan s.tb.sets }

/-- GROUP_START (R510). -/
def runGroupStart (d : Desc) (_data : Bytes) (s : State) : State :=
  let g := par d 32 1
  let tOrg := par d 40 8
  match firstFail [descChk d [(32, 1), (40, 8)], need (Tab.has s.cond.groups g) stNotFound g,
      need (!Tab.has s.cond.started g) stBusy 0, need (!originClash s g tOrg) stConflict g] with
  | some c => refuse d c s
  | none => acceptAt tOrg d (startGroup g tOrg s)

def execGroupStart (t : Tick) (d : Desc) (data : Bytes) (s : State) : Host.Outcome State Fault Refusal :=
  .next (runGroupStart d data (s.advance t))

/-- Stop a group at sample index `at_`: each element stops before the first block whose first index is at or after it, or at its oldest
unreleased block when that one has been released (R510). -/
def stopGroup (g at_ : Nat) (s : State) : State :=
  let s := { s with cond.started := match Tab.get s.cond.started g with
    | some r => Tab.put s.cond.started g { r with stopAt := some at_ }
    | none => s.cond.started }
  let es := (s.cond.run.filter (fun x => decide (groupNow s x.1 x.2 = g))).map (·.1)
  finishStops (es.foldl (fun s e => match Tab.get s.cond.run e with
    | some r => setRun e { r with stop := some (Nat.max (ceilDiv at_ 64) r.next) } s
    | none => s) s)

/-- The time word at which a group's sample index `at_` falls. -/
def stopTime (s : State) (g at_ : Nat) : Nat :=
  match Tab.get s.cond.started g, Tab.get (viewNow s).groups g with
  | some r, some d => (sampleTime r.tOrg d.rate at_).toNat
  | _, _ => s.tw

/-- GROUP_STOP (R510). -/
def runGroupStop (d : Desc) (_data : Bytes) (s : State) : State :=
  let g := par d 32 1
  let going := match Tab.get s.cond.started g with
    | some r => r.stopAt.isNone
    | none => false
  match firstFail [descChk d [(32, 1), (40, 8)], need going stNotFound g] with
  | some c => refuse d c s
  | none => acceptAt (stopTime s g (par d 40 8)) d (stopGroup g (par d 40 8) s)

def execGroupStop (t : Tick) (d : Desc) (data : Bytes) (s : State) : Host.Outcome State Fault Refusal :=
  .next (runGroupStop d data (s.advance t))

/-! ## Ingest (R313, R43 to R46) -/

/-- The release deadline of block `b` has passed at time word `tw` (R42): t(64·b + 63) + W, exactly. -/
def deadlineDue (tOrg : Nat) (g : GroupDesc) (b tw : Nat) (strict : Bool) : Bool :=
  let d : Int := ((tw : Int) - sampleTime tOrg g.rate (64 * b + 63)) * 100000
  let w : Int := ((g.window * tickHz : Nat) : Int)
  if strict then decide (w < d) else decide (w ≤ d)

/-- The cause of R25, R45 or R46, or placement, for a sample that meets slot contents. -/
def placeSample (e n : Nat) (v : Int) (r : ElemRun) (s : State) : State :=
  let sl := n % max 1 r.size
  let b := n / 64
  let here (r : ElemRun) : ElemRun := { r with arrs := Tab.put r.arrs b s.now }
  match Tab.get r.slots sl with
  | none => setRun e (here { r with slots := Tab.put r.slots sl (n, v) }) s
  | some (m, w) =>
    if m = n then
      let s := modCnt e (fun c => { c with dup := c.dup + 1, conflict := c.conflict + b01 (decide (w ≠ v)) }) s
      setRun e r s
    else if m / 64 < r.next then setRun e (noteCause r b 3) s
    else if m < n then modCnt e (fun c => { c with early := c.early + 1 }) (setRun e (noteCause r b 4) s)
    else
      modCnt e (fun c => { c with early := c.early + 1 })
        (setRun e (here (noteCause { r with slots := Tab.put r.slots sl (n, v) } (m / 64) 4)) s)

/-- One sample of a good ingest frame. -/
def takeSample (q stream channel n : Nat) (v : Int) (s : State) : State :=
  let b := n / 64
  let hit := (viewAt s b).elems.find? (fun p => p.2.rx && decide (p.2.stream = stream ∧ p.2.channel = channel))
  let unmatched (s : State) : State :=
    let u := quadOf s q
    setQuad q { u with unmatched := u.unmatched + 1 } s
  match hit with
  | none => unmatched s
  | some (e, _) =>
    let s := { s with cond.onQuad := Tab.put s.cond.onQuad e q }
    match activeAt s e b, Tab.get s.cond.run e with
    | some (_, g), some r =>
      let r := originAt s e b r
      if decide (b < r.next) || deadlineDue r.tOrg g b s.tw true then
        modCnt e (fun c => { c with late := c.late + 1 }) (setRun e r s)
      else placeSample e n v r s
    | _, _ => unmatched s

/-- Field checks of an ingest frame (Table 13-2, R311). -/
def ingestOk (f : RawFrame) : Bool :=
  let nch := fieldU f.data 4 2
  let ns := fieldU f.data 6 2
  frameGood f && frameIs f 1 0 &&
    decide (1 ≤ nch ∧ 1 ≤ ns ∧ nch * ns ≤ 5440 ∧ fieldU f.data 16 1 < 2 ∧ f.n.toNat = 3 + 3 * ceilDiv (nch * ns) 16)

/-- INGEST_FRAME (R313, R316): a frame that R311 discards is counted, and notes a link cause (R44). -/
def execIngestFrame (t : Tick) (q : Fin 16) (f : RawFrame) (s : State) : Host.Outcome State Fault Refusal :=
  let s := s.advance t
  if !quadHas s q.val 1 || !(quadOf s q.val).up then .next s
  else if !ingestOk f then .next (noteLink q.val (crcErr q.val s))
  else
    let s := frameTaken q.val s
    let nch := fieldU f.data 4 2
    let ns := fieldU f.data 6 2
    let major := decide (fieldU f.data 16 1 = 1)
    let first := fieldU f.data 8 8
    .next ((List.range (nch * ns)).foldl (fun s i =>
      let c := if major then i % nch else i / ns
      let k := if major then i / nch else i % ns
      takeSample q.val (fieldU f.data 0 2) (fieldU f.data 2 2 + c) (first + k) (packed12 f.data 24 i) s) s)

/-! ## Block release (R42, R47, R48, R348) -/

/-- The highest-priority cause of a mask (Table 02-4): overrun, early, link, missing. -/
def topCause (m : Nat) : Nat := if bitOf m 3 then 3 else if bitOf m 4 then 4 else if bitOf m 2 then 2 else 1

/-- Cause of the sample before block `b`, 0 when it is present or unknown. -/
def causeBefore (r : ElemRun) (b : Nat) : Nat :=
  match r.ready.getLast? with
  | some x => if x.b + 1 = b then (x.vals.getLastD (0, 0)).2 else 0
  | none => match r.chain.gaps with
    | (_, last, c) :: _ => if last + 1 = 64 * b then c else 0
    | [] => 0

/-- Runs of equal non-zero causes: first index, length, cause. -/
def runsOf (first : Nat) : List Nat → List (Nat × Nat × Nat)
  | [] => []
  | c :: l =>
    match runsOf (first + 1) l with
    | (f, n, d) :: rest => if c = d ∧ c ≠ 0 ∧ f = first + 1 then (first, n + 1, d) :: rest
      else if c = 0 then (f, n, d) :: rest else (first, 1, c) :: (f, n, d) :: rest
    | [] => if c = 0 then [] else [(first, 1, c)]

/-- Places of the gap index: the first half of the logs reservation (R345), 16 bytes each. -/
def gapPlaces (s : State) : Nat := regionSize s 5 / 2 / 16

/-- Enter a run into the gap index through the management port; a full index overwrites its oldest run (R348). -/
def gapEnter (g : GapRun) (s : State) : State :=
  let s := hbmRequest 7 .outside (placeOf s 5 s.cond.gapIndex.length) s
  if s.cond.gapIndex.length < gapPlaces s then { s with cond.gapIndex := s.cond.gapIndex ++ [g] }
  else match s.cond.gapIndex with
  | [] => s
  | o :: rest => { s with
      cond.gapIndex := rest ++ [g], cond.gapGone := s.cond.gapGone ++ [o], cond.gapLost := some (match s.cond.gapLost with
        | some m => Nat.max m o.first
        | none => o.first) }

/-- Key of an afterimage block. -/
def afterKey (e b : Nat) : Nat := e * 2 ^ 48 + b

/-- An afterimage write reaches uncopied pinned samples: their spans are noted (R196). -/
def yieldPins (e b : Nat) (s : State) : State :=
  { s with glint.pins := s.glint.pins.map (fun p =>
      if p.2.elems.contains e ∧ p.2.first ≤ 64 * b + 63 ∧ 64 * b ≤ p.2.last then
        (p.1, { p.2 with yields := p.2.yields ++ [(e, Nat.max p.2.first (64 * b), Nat.min p.2.last (64 * b + 63))] })
      else p) }

/-- Runs of samples that are gaps enter the gap index (R348). -/
def gapsEnter (e : Nat) (l : List (Nat × Nat × Nat)) (s : State) : State :=
  l.foldl (fun s x => gapEnter ⟨x.1, x.2.1, e, x.2.2, false⟩ s) s

/-- Block `b` of an element leaves the afterimage (R348). -/
def afterEvict (e b : Nat) (s : State) : State :=
  let old := afterKey e b
  if Tab.has s.cond.after old then
    let held (g : GapRun) : Bool := s.glint.pins.any (fun p => p.2.elems.contains e && decide (p.2.first < g.first + g.len))
    yieldPins e b { s with
      cond.after := Tab.del s.cond.after old
      cond.gapGone := s.cond.gapGone.filter (fun g => decide (g.elem ≠ e ∨ 64 * b + 63 < g.first + g.len) || held g) }
  else s

/-- A write of the afterimage retires: it replaces block b − Be (R348). -/
def afterLand (e b : Nat) (s : State) : State :=
  match Tab.get s.cond.afterWait (afterKey e b) with
  | none => s
  | some w =>
    let s := hbmWritten w.addr 96 (if w.be ≤ b then afterEvict e (b - w.be) s else s)
    { s with
      cond.after := Tab.put s.cond.after (afterKey e b) w.vals, cond.afterWait := Tab.del s.cond.afterWait (afterKey e b) }

/-- The requests of a pseudo-channel that have not been issued and are those of this write. -/
def AfterWrite.queued (w : AfterWrite) (q : PcQueue) : Bool :=
  (q.cmd ++ q.waiting).any (fun r => decide (r.port = 2 ∧ r.addr = w.addr ∧ r.at_ = w.at_))

/-- The writes whose request the controller has issued retire. -/
def afterLanded (s : State) : State :=
  (s.cond.afterWait.filter (fun x => !x.2.queued (pcQueue s (pcOf x.2.addr)))).foldl
    (fun s x => afterLand (x.1 / 2 ^ 48) (x.1 % 2 ^ 48) s) s

/-- The afterimage write of a released block is asked of the controller; the gap runs enter the gap index (R348). -/
def afterWrite (e b : Nat) (vals : List (Int × Nat)) (s : State) : State :=
  let be := afterBlocks s (viewNow s) e
  let s := gapsEnter e (runsOf (64 * b) (vals.map (·.2))) (afterLanded s)
  if be = 0 then s
  else
    let a := afterAddr s (viewNow s) e b
    hbmRequest 2 .outside a { s with cond.afterWait := Tab.put s.cond.afterWait (afterKey e b) ⟨be, s.now, a, vals.map (·.1)⟩ }

/-- Release block `b` of element `e` (R42, R47). -/
def releaseBlock (e b : Nat) (r : ElemRun) (s : State) : State :=
  let m := Tab.getD r.causes b 0
  let vals := (List.range 64).map (fun i =>
    match Tab.get r.slots ((64 * b + i) % max 1 r.size) with
    | some (n, v) => if n = 64 * b + i then (v, 0) else (0, topCause m)
    | none => ((0 : Int), topCause m))
  let cs := vals.map (·.2)
  let runs := runsOf (64 * b) cs
  let joined := match runs with
    | (f, _, c) :: _ => decide (f = 64 * b ∧ c = causeBefore r b)
    | [] => false
  let gaps := (cs.filter (· ≠ 0)).length
  let s := modCnt e (fun c => { c with gaps := c.gaps + gaps, gapRuns := c.gapRuns + runs.length - b01 joined }) s
  let entered := r.next + r.size / 64
  let r := { r with next := b + 1, causes := Tab.del r.causes b, ready := r.ready ++ [⟨b, s.now, vals⟩] }
  fitRing e (enterSpan e entered (afterWrite e b vals (afterCheck (setRun e r s))))

/-- BLOCK_RELEASE (R42): at the arrival of its last missing sample, or at its deadline. -/
def execBlockRelease (t : Tick) (e : Fin 16384) (s : State) : Host.Outcome State Fault Refusal :=
  let s := s.advance t
  match Tab.get s.cond.run e.val with
  | none => .next s
  | some r =>
    match oldestBlock s e.val r with
    | none => .next (finishStops s)
    | some b =>
      match activeAt s e.val b with
      | none => .next s
      | some (_, g) =>
        let r := originAt s e.val b r
        let full := (List.range 64).all (fun i => match Tab.get r.slots ((64 * b + i) % max 1 r.size) with
          | some (n, _) => decide (n = 64 * b + i)
          | none => false)
        if full || deadlineDue r.tOrg g b s.tw false then .next (finishStops (settle (releaseBlock e.val b r s))) else .next s

/-- A write of the afterimage is given up: its request leaves the queues, the block it would have replaced stays, and its span is a hole
(R30, R348). -/
def afterDrop (e b : Nat) (w : AfterWrite) (s : State) : State :=
  let mine (r : HbmReq) : Bool := decide (r.port = 2 ∧ r.addr = w.addr ∧ r.at_ = w.at_)
  let q := pcQueue s (pcOf w.addr)
  gapEnter ⟨64 * b, 64, e, 6, false⟩ (modCnt e (fun c => { c with holes := c.holes + 1 }) { s with
    cond.afterWait := Tab.del s.cond.afterWait (afterKey e b)
    hbm.queues := Tab.put s.hbm.queues (pcOf w.addr) { q with
      cmd := q.cmd.filter (fun r => !mine r), waiting := q.waiting.filter (fun r => !mine r) } })

/-- AFTERIMAGE_WRITE_TIMEOUT (R30, R348): a write that the port has not placed 100 µs after its release is dropped, and a run with cause 6
enters the gap index. -/
def execAfterimageWriteTimeout (t : Tick) (e : Fin 16384) (block : Nat) (s : State) : Host.Outcome State Fault Refusal :=
  let s := afterLanded (s.advance t)
  match Tab.get s.cond.afterWait (afterKey e.val block) with
  | some w => if atLeastUs (s.now - w.at_) 100 then .next (afterDrop e.val block w s) else .next s
  | none => .next s

/-! ## The chain (R53 to R65) -/

/-- What the chain reports beside its state. -/
structure ChainOut where
  chain : Chain
  front : Nat
  sat : Nat
  /-- outputs with their index -/
  outs : List (Nat × CondWord)
  deriving DecidableEq, Repr

/-- The boot ROM coefficients of preset stage `last` (R56): the stages but the last first, then the last. -/
def presetCoef (mode : Nat) (last : Bool) (i : Nat) : Int :=
  wrapS 20 (Config.bootRom mode ((if last then (presetTaps mode).1 else 0) + i))

/-- A compensator coefficient of the boot ROM (R59), s20. -/
def compCoef (i : Nat) : Int := wrapS 20 (Config.bootRom 3 i)

/-- The sum of taps times a history, newest first; positions before the history are 0. -/
def firSum (h : Nat → Int) (w : List Int) : Int := (w.zipIdx.map (fun p => h p.2 * p.1)).sum

/-- One input `w` with index `n` into the half-band stages that remain; `k` stages are left. The exact accumulator of the last stage, when
the input completes an output. -/
def halfbands (mode : Nat) : Nat → Nat → Int → List (List Int) → List (List Int) × Option Int
  | 0, _, _, st => (st, none)
  | k + 1, n, w, st =>
    let last := decide (k = 0)
    let taps := if last then (presetTaps mode).2 else (presetTaps mode).1
    let h := (w :: st.headD []).take taps
    if n % 2 ≠ 0 then (h :: st.tail, none)
    else
      let acc := firSum (presetCoef mode last) h
      if last then (h :: st.tail, some acc)
      else
        let r := halfbands mode k (n / 2) (wrapS 24 (roundShift acc 18)) st.tail
        (h :: r.1, r.2)

/-- Running sums of the integrators, modulo 2⁷² (R58). -/
def integrate (v : Int) : List Int → List Int
  | [] => []
  | x :: l => let y := wrapS 72 (x + v); y :: integrate y l

/-- Combs, modulo 2⁷²: the new registers and the output. -/
def combs (v : Int) : List Int → List Int × Int
  | [] => ([], v)
  | x :: l => let r := combs (wrapS 72 (v - x)) l; (v :: r.1, r.2)

/-- The normaliser of R59. -/
def normalise (ratio : Nat) (c : Int) : Int :=
  let r5 := ratio ^ 5
  let b := Nat.log2 (r5 - 1) + 1
  let nR := roundDiv (2 ^ (b + 17) : Nat) r5
  roundShift (c * nR) (b + 9)

/-- One front output `f` of input index `n` into the decimation: new state, and the exact accumulator with 26 fraction bits when an output
is complete. -/
def decimate (g : GroupDesc) (n : Nat) (f : Int) (c : Chain) : Chain × Option Int :=
  if g.preset then
    let r := halfbands g.decMode (Nat.log2 g.ratio) n (256 * f) c.stages
    ({ c with stages := r.1 }, r.2)
  else if g.ratio ≤ 1 then (c, some (2 ^ 26 * f))
  else
    let i := integrate f c.integ
    if n % g.ratio ≠ 0 then ({ c with integ := i }, none)
    else
      let r := combs (i.getLastD 0) c.comb
      let h := (normalise g.ratio r.2 :: c.comp).take 31
      ({ c with integ := i, comb := r.1, comp := h }, some (firSum compCoef h))

/-- The front stages of R53 on a present sample: new state, front output, whether it saturated. -/
def front (g : GroupDesc) (frozen : Bool) (x : Int) (c : Chain) : Chain × Int × Bool :=
  let est := roundShift c.m 28
  let d := if g.dcK = 0 then x else x - est
  let m := if g.dcK = 0 ∨ frozen then c.m else c.m + (x * 2 ^ 28 - c.m).fdiv (2 ^ g.dcK)
  let c := { c with m := m, dcCnt := if frozen then c.dcCnt else c.dcCnt + 1, hpCnt := c.hpCnt + 1 }
  if g.hpCorner = 0 then (c, satS 12 d, !inS 12 d)
  else
    let acc := (g.b0 * d + g.b1 * c.d1 + g.b2 * c.d2) * 2 ^ 16 - g.a1 * c.y1 - g.a2 * c.y2
    let y := roundShift acc 30
    let f := roundShift y 16
    ({ c with d2 := c.d1, d1 := d, y2 := c.y1, y1 := y }, satS 12 f, !inS 12 f)

/-- Keep the gap runs that a later support can reach, newest first; extend the newest. -/
def addGap (n cause keep : Nat) (l : List (Nat × Nat × Nat)) : List (Nat × Nat × Nat) :=
  let l := match l with
    | (f, la, c) :: rest => if la + 1 = n ∧ c = cause then (f, n, c) :: rest else (n, n, cause) :: l
    | [] => [(n, n, cause)]
  l.filter (fun x => decide (n ≤ x.2.1 + keep))

/-- The highest-priority cause of the gaps in a span, 0 none. -/
def spanCause (l : List (Nat × Nat × Nat)) (lo hi : Int) : Nat :=
  let m := l.foldl (fun m x => if lo ≤ (x.2.1 : Int) ∧ (x.1 : Int) ≤ hi then m ||| 2 ^ x.2.2 else m) 0
  if m = 0 then 0 else topCause m

/-- One input sample through front stages, decimation and output rounding (R53 to R61, R65, R68). -/
def chainStep (g : GroupDesc) (frozen : Bool) (gain : Nat) (o : ChainOut) (n : Nat) (x : Int) (cause : Nat) : ChainOut :=
  let c := o.chain
  let warmEnd := match c.warmEnd with
    | some w => some w
    | none => if g.dcEnd ≤ c.dcCnt ∧ g.hpEnd ≤ c.hpCnt then some n else none
  let c := { c with warmEnd := warmEnd }
  let r := if cause ≠ 0 then (({ c with gaps := addGap n cause (2 * g.support + 64) c.gaps }, 0, false) : Chain × Int × Bool)
    else front g frozen x c
  let q := decimate g n r.2.1 r.1
  let o := { o with chain := q.1, front := o.front + b01 r.2.2 }
  match q.2 with
  | none => o
  | some acc =>
    let y := roundShift ((gain : Int) * acc) 36
    let lo : Int := (n : Int) - (g.support : Int) + 1
    let warm := match q.1.warmEnd with
      | some w => decide (lo < (w : Int))
      | none => true
    let w : CondWord := ⟨satS 16 y, spanCause q.1.gaps lo n, warm⟩
    { o with sat := o.sat + b01 (!inS 16 y), outs := o.outs ++ [(n / max 1 g.ratio, w)] }

/-- A block of 64 samples through the chain. -/
def chainBlock (g : GroupDesc) (x : ElemEntry) (c : Chain) (b : Nat) (vals : List (Int × Nat)) : ChainOut :=
  vals.zipIdx.foldl (fun o p => chainStep g x.frozen x.rxGain o (64 * b + p.2) p.1.1 p.1.2) ⟨c, 0, 0, []⟩

/-! ## Taps of the conditioning output (R62, R170, R229, R217) -/

/-- Due instant of conditioning output `m` of a tapped element has passed (R170). -/
def glintDue (s : State) (r : ElemRun) (g : GroupDesc) (c : GlintCfg) (m : Nat) (strict : Bool) : Bool :=
  let nb := 64 * (g.ratio * m / 64) + 63
  let d : Int := ((s.tw : Int) - sampleTime r.tOrg g.rate nb) * 100000
  let w : Int := ((c.window * tickHz : Nat) : Int)
  if strict then decide (w < d) else decide (w ≤ d)

/-- A word that stands for a gap in the glint history. -/
def gapWord : CondWord := ⟨0, 1, false⟩

/-- Keep the newest `n` entries of a history. -/
def keepNewest {α : Type} (n : Nat) (t : Tab α) : Tab α := t.drop (t.length - n)

/-- Move `next` past the outputs that are present. -/
def History.settleN : Nat → History → History
  | 0, h => h
  | n + 1, h => if Tab.has h.words h.next then History.settleN n { h with next := h.next + 1 } else h

/-- The glint history of an element; one that is not there yet starts with output `first`. -/
def historyOf (s : State) (e first : Nat) : History := Tab.getD s.glint.hist e ⟨[], first, 0, 0, 0⟩

/-- Store outputs in the glint history of an element. -/
def glintStore (e : Nat) (r : ElemRun) (g : GroupDesc) (accepts : Bool) (outs : List (Nat × CondWord)) (s : State) : State :=
  match s.glint.cfg with
  | none => s
  | some c =>
    let h0 := historyOf s e ((outs.head?.map (·.1)).getD r.fbNext)
    let h := outs.foldl (fun (h : History) p =>
      if Tab.has h.words p.1 ∨ p.1 < h.next then { h with discarded := h.discarded + 1 }
      else if glintDue s r g c p.1 true then
        { h with words := Tab.put h.words p.1 gapWord, late := h.late + 1, discarded := h.discarded + 1 }
      else if accepts then { h with words := Tab.put h.words p.1 p.2 }
      else { h with words := Tab.put h.words p.1 gapWord, pathGaps := h.pathGaps + 1 }) h0
    let h := History.settleN h.words.length h
    let h := { h with words := keepNewest (2 ^ c.histLog2) h.words }
    let s := { s with glint.hist := Tab.put s.glint.hist e h }
    match accepts, outs with
    | false, (m, _) :: _ => postEvent 0x40 e (le 8 m) s
    | _, _ => s

/-- Store outputs in the audio histories that name the element. -/
def audioStore (e : Nat) (g : GroupDesc) (outs : List (Nat × CondWord)) (s : State) : State :=
  { s with audio.srcs := s.audio.srcs.map (fun a =>
      if a.kind = 0 ∧ a.index = e then
        { a with hist := keepNewest (audioSlots a.lag g.rate g.ratio) (outs.foldl (fun t p => Tab.put t p.1 p.2) a.hist) }
      else a) }

/-- Give outputs to a running echo calibration. -/
def echoStore (e : Nat) (outs : List (Nat × CondWord)) (s : State) : State :=
  match s.tx.echo with
  | none => s
  | some x =>
    if x.cmd.recv.contains e then
      { s with tx.echo := some { x with taps := Tab.put x.taps e (outs.foldl (fun t p => Tab.put t p.1 p.2) (Tab.getD x.taps e [])) } }
    else s

/-! ## Slices (R50 to R52, R63, R64) -/

/-- The longest prototype: 2·2¹⁴·16 outputs (R70). -/
def maxSupport : Nat := 524288

/-- One output through the integer delay line (R63, R64). -/
def delayStep (x : ElemEntry) (r : ElemRun) (p : Nat × CondWord) : ElemRun :=
  let line := (p.2 :: r.line).take (x.lineSlots + 1)
  let w := line.getD x.delayInt ⟨0, 0, true⟩
  let w := if r.stepWarm = 0 then w else { w with warm := true }
  { r with
    line := line, fb := w :: r.fb, fbNext := p.1 + 1, stepWarm := r.stepWarm - 1
    gapOuts := if w.gap = 0 then r.gapOuts else (p.1, w.gap) :: r.gapOuts }

/-- The delay takes a new value (R64): a delay step is counted; the line keeps what its old length held; the outputs that an earlier step
still has to flag stay flagged. -/
def delayChange (e : Nat) (x : ElemEntry) (r : ElemRun) (s : State) : ElemRun × State :=
  if x.delayInt = r.delay then (r, s)
  else
    let r := { r with
      line := r.line.take (16 * ceilDiv r.delay 16), delay := x.delayInt
      stepWarm := Nat.max r.stepWarm (Nat.max (x.delayInt - r.delay) 1) }
    (r, modCnt e (fun c => { c with delaySteps := c.delaySteps + 1 }) s)

/-- Restart the chain at block `b` (R39, R68): filter state, delay line and filterbank start empty; `same` says that the outputs keep their
indices, so that the gap flags of those before the restart still stand in the support of a frame (R80). -/
def restartChain (b : Nat) (g : GroupDesc) (same : Bool) (r : ElemRun) : ElemRun :=
  let m := ceilDiv (64 * b) (max 1 g.ratio)
  { r with
    chain := { Chain.restart (64 * b) with gaps := r.chain.gaps }, line := []
    fb := [], fbNext := m, fbStart := m, frame := m / max 1 g.hop, gapOuts := if same then r.gapOuts else [] }

/-- Restart the filterbank (R73). -/
def restartBank (g : GroupDesc) (r : ElemRun) : ElemRun :=
  { r with fb := [], fbStart := r.fbNext, frame := r.fbNext / max 1 g.hop }

/-- What starts anew at block `b` (R39, R73): the chain with the filterbank, or the filterbank alone. -/
def restartsAt (s : State) (e b : Nat) (g : GroupDesc) (r : ElemRun) : Bool × Bool :=
  let old := (viewAt s (b - 1)).desc e
  (decide (b ≠ r.condNext) || decide (64 * b = r.chain.start) || (match old with
    | some o => decide (o.chainKey ≠ g.chainKey)
    | none => true),
   match old with
    | some o => decide (o.bankKey ≠ g.bankKey)
    | none => false)

/-- Conditioning waits for the channeliser (Table 01-9): the block restarts the filterbank while a frame before it is still to be
formed. -/
def bankWaits (s : State) (e : Nat) : Bool :=
  match Tab.get s.cond.run e with
  | none => false
  | some r =>
    match r.ready with
    | [] => false
    | blk :: _ =>
      match (viewAt s blk.b).desc e, (viewAt s (r.condNext - 1)).desc e with
      | some g, some o =>
        let k := restartsAt s e blk.b g r
        (k.1 || k.2) && o.channelised && decide ((r.frame + 1) * o.hop ≤ r.fbNext)
      | _, _ => false

/-- Process the oldest released block of element `e` (R52): chain, taps, delay, filterbank history. -/
def sliceBlock (e : Nat) (accepts : Bool) (s : State) : State :=
  match Tab.get s.cond.run e with
  | none => s
  | some r =>
    match r.ready with
    | [] => s
    | blk :: rest =>
      let b := blk.b
      let v := viewAt s b
      let free (r : ElemRun) : ElemRun :=
        { r with ready := rest, condNext := b + 1, slots := r.slots.filter (fun p => decide (p.2.1 / 64 ≠ b)) }
      match v.desc e with
      | none => setRun e (free r) s
      | some g =>
        let x := v.elem e
        let (fresh, bank) := restartsAt s e b g r
        let blk0 := r.condNext
        let (r, s) := delayChange e x r (if fresh then audioSkip e s else s)
        let same := decide (((viewAt s (b - 1)).desc e).map (·.ratio) = some g.ratio)
        let r := if fresh then restartChain b g same { r with chainAt := some ((originAt s e b r).tOrg, g) } else if bank then restartBank g r else r
        let o := chainBlock g x r.chain b blk.vals
        let s := modCnt e (fun c => { c with
          frontSat := c.frontSat + o.front, outSat := c.outSat + o.sat
          gapOut := c.gapOut + (o.outs.filter (fun p => p.2.gap ≠ 0)).length
          warmOut := c.warmOut + (o.outs.filter (fun p => p.2.warm)).length }) s
        let r := o.outs.foldl (delayStep x) (free { r with chain := o.chain })
        let r := if g.channelised then r else { r with fb := [] }
        let r := { r with gapOuts := r.gapOuts.filter (fun p => decide (r.fbNext < p.1 + maxSupport)) }
        let s := if fresh && (!same || decide (b ≠ blk0)) then glintSkip e (ceilDiv (64 * b) (max 1 g.ratio)) s else s
        let s := if x.tapped then glintStore e r g accepts o.outs s else glintSkip e r.fbNext s
        settle (finishStops (setRun e r (echoStore e o.outs (audioStore e g o.outs s))))

/-- The engine that conditions an element (R51); an element that the present view does not assign finishes on engine `e mod 32`. -/
def engineFor (s : State) (e : Nat) : Nat := ((engineOf (viewNow s)).lookup e).getD (e % 32)

/-- The element whose released block an engine takes next (R52): earliest release instant, lower element first. -/
def nextSlice (s : State) (engine : Nat) : Option Nat :=
  let asg := engineOf (viewNow s)
  let l := s.cond.run.filterMap (fun p => match p.2.ready with
    | blk :: _ => if (asg.lookup p.1).getD (p.1 % 32) = engine then some (blk.at_, p.1) else none
    | [] => none)
  (l.foldl (fun (best : Option (Nat × Nat)) x => match best with
    | some y => if x.1 < y.1 then some x else some y
    | none => some x) none).map (·.2)

/-- CONDITIONING_SLICE (R52). -/
def execConditioningSlice (t : Tick) (engine : Fin 32) (accepts : Bool) (s : State) : Host.Outcome State Fault Refusal :=
  let s := s.advance t
  if s.mgmt.trip then .next s
  else match nextSlice s engine.val with
  | none => .next s
  | some e => if bankWaits s e then .next s else .next (sliceBlock e accepts s)

/-! ## Group-delay read-back (R67) -/

/-- MONITOR.GDLY and MONITOR.GDLY_INFO of an element. -/
def gdlyOf (s : State) (e : Nat) : Nat × Nat :=
  let v := match Tab.get s.cond.run e with
    | some r => viewAt s r.condNext
    | none => s.view
  let x := v.elem e
  match x.rx, v.desc e with
  | true, some g => (g.delay2 + 2 * x.delayInt * g.ratio, g.ratio + g.decMode * 2 ^ 13 + 2 ^ 15 + x.delayInt * 2 ^ 16)
  | true, none => (0, 2 ^ 15 + x.delayInt * 2 ^ 16)
  | false, d => (0, (match d with
    | some g => g.decMode * 2 ^ 13
    | none => 0) + x.delayInt * 2 ^ 16)

/-- A write of MONITOR.GDLY_SEL (R67). -/
def writeGdlySel (v : Reg) (s : State) : State :=
  let v := v &&& 0x3FFF
  let p := gdlyOf s v.toNat
  { s with mgmt.gdlySel := v, mgmt.gdly := BitVec.ofNat 32 p.1, mgmt.gdlyInfo := BitVec.ofNat 32 p.2 }

end Sys2Proof.Machine
end

