-- ==== Sys2Proof/Machine/Chan.lean ====
section
/-!
DEFINITION. The channeliser and the corner turn (03_channeliser.md), the gap log that records draw on (02 R49, 03 R95, 05 R138), source
statistics (05 R142), plan digest and batch frames (13 R322 to R324).
-/
namespace Sys2Proof.Machine

/-! ## Images -/

/-- Group descriptors in effect and pending: one that a change has superseded is in effect until every element has formed its last frame
under it. -/
def allDescs (s : State) : List GroupDesc :=
  let v := (s.cond.pending.filter (descDone s)).foldl (fun v p => p.kind.apply v) s.view
  v.groups.map (·.2) ++ s.cond.pending.filterMap (fun p => match p.kind with
    | .group _ d => if descDone s p then none else some d
    | .elems _ => none)

/-- A descriptor in effect or pending names the prototype (R76). -/
def protoNamed (s : State) (id : Nat) : Bool := (allDescs s).any (fun g => g.channelised && decide (g.proto = id))

/-- A descriptor in effect or pending names the gain table (R76). -/
def gainNamed (s : State) (id : Nat) : Bool := (allDescs s).any (fun g => g.channelised && decide (g.gain = id))

/-- Stored values of the other loaded images of a kind. -/
def storedOther {α : Type} (t : Tab α) (id : Nat) (f : α → Nat) : Nat := ((Tab.del t id).map (fun p => f p.2)).sum

/-- The CRC-32C field at `off` covers the bytes from `start` on. -/
def crcChk (b : Bytes) (off start : Nat) : Chk := need (decide (fieldU b off 4 = (crc32c (b.drop start)).toNat)) stCrc 0

/-- The checks of PROTOTYPE_LOAD, in order. -/
def prototypeLoadChk (d : Desc) (data : Bytes) (s : State) : Chk :=
  let b := dataOf d data
  let id := fieldU b 0 2
  let cl := fieldU b 2 1
  let taps := fieldU b 3 1
  let n := 2 ^ cl * taps
  let cs := (List.range n).map (fun i => fieldS b (16 + 4 * i) 4)
  firstFail [descChk d [(32, 1)], need (decide (16 ≤ d.len.toNat)) stSize 16,
    need (decide (id ≤ 1023)) stRange 0, need (decide (6 ≤ cl ∧ cl ≤ 14)) stRange 2, need ([4, 8, 16].contains taps) stRange 3,
    need (decide (fieldU b 4 4 = n)) stSize (16 + 4 * n), sizeChk d (16 + 4 * n), needZero b 12 4 0, crcChk b 8 16,
    firstFail (cs.zipIdx.map (fun p => need (inS 18 p.1) stRange (16 + 4 * p.2))),
    need (!protoNamed s id) stInUse id,
    need (decide (storedOther s.chan.protos id (fun p => p.coefs.length) + n ≤ 1048576)) stCapacity (checkCode 0 0x0302)]

/-- PROTOTYPE_LOAD (R74, R76). -/
def runPrototypeLoad (d : Desc) (data : Bytes) (s : State) : State :=
  let b := dataOf d data
  let id := fieldU b 0 2
  let cl := fieldU b 2 1
  let taps := fieldU b 3 1
  let n := 2 ^ cl * taps
  let cs := (List.range n).map (fun i => fieldS b (16 + 4 * i) 4)
  match prototypeLoadChk d data s with
  | some c => refuse d c s
  | none => accept d (cfgPut 0 id b { s with chan.protos := Tab.put s.chan.protos id ⟨cl, taps, cs⟩ })

def execPrototypeLoad (t : Tick) (d : Desc) (data : Bytes) (s : State) : Host.Outcome State Fault Refusal :=
  .next (runPrototypeLoad d data (s.advance t))

/-- The checks of GAIN_TABLE_LOAD, in order. -/
def gainTableLoadChk (d : Desc) (data : Bytes) (s : State) : Chk :=
  let b := dataOf d data
  let id := fieldU b 0 2
  let n := fieldU b 2 2
  firstFail [descChk d [(32, 1)], need (decide (16 ≤ d.len.toNat)) stSize 16,
    need (decide (id ≤ 1023)) stRange 0, need (decide (1 ≤ n ∧ n ≤ 16384)) stRange 2, sizeChk d (16 + 4 * n), needZero b 8 8 0,
    crcChk b 4 16, need (!gainNamed s id) stInUse id,
    need (decide (storedOther s.chan.gains id List.length + n ≤ 262144)) stCapacity (checkCode 0 0x0303)]

/-- GAIN_TABLE_LOAD (R75, R76). -/
def runGainTableLoad (d : Desc) (data : Bytes) (s : State) : State :=
  let b := dataOf d data
  let id := fieldU b 0 2
  let n := fieldU b 2 2
  match gainTableLoadChk d data s with
  | some c => refuse d c s
  | none =>
    let l := (List.range n).map (fun i => (fieldS b (16 + 4 * i) 2, fieldS b (18 + 4 * i) 2))
    accept d (cfgPut 1 id b { s with chan.gains := Tab.put s.chan.gains id l })

def execGainTableLoad (t : Tick) (d : Desc) (data : Bytes) (s : State) : Host.Outcome State Fault Refusal :=
  .next (runGainTableLoad d data (s.advance t))

/-! ## Plans (R83 to R87) -/

/-- Read a plan image. -/
def parsePlan (b : Bytes) : Plan :=
  let nd := fieldU b 20 2
  let p := fieldU b 14 2
  { mode := fieldU b 1 1
    chanLog2 := fieldU b 2 1
    taps := fieldU b 3 1
    rate := fieldU b 4 4
    decMode := fieldU b 8 1
    ratio := fieldU b 10 2
    first := fieldU b 12 2
    count := p
    version := fieldU b 16 4
    ctWindow := fieldU b 22 2
    activate := fieldU b 24 8
    t0 := fieldU b 32 8
    devs := (List.range nd).map (fun i =>
      let o := 40 + 8 * i
      ⟨fieldU b o 2, fieldU b (o + 2) 2, fieldU b (o + 4) 2, fieldU b (o + 6) 2⟩)
    chans := (List.range p).map (fun j =>
      let o := 40 + 8 * nd + 8 * j
      ⟨fieldU b o 2, fieldU b (o + 2) 2, bitOf (fieldU b (o + 4) 2) 0⟩)
    digest := BitVec.ofNat 32 (fieldU b (40 + 8 * nd + 8 * p) 4) }

/-- Owner of plan channel `j`. -/
def Plan.owner (p : Plan) (j : Nat) : Nat := (p.chans.getD j ⟨0, 4, false⟩).owner

/-- Plan channel `j` is enabled. -/
def Plan.on (p : Plan) (j : Nat) : Bool := (p.chans.getD j ⟨0, 4, false⟩).enabled

/-- Elements of a plan (R100). -/
def Plan.size (p : Plan) : Nat := (p.devs.map (·.elements)).sum

/-- Fields of a plan header and its entries in their ranges. -/
def planFieldChk (b : Bytes) : Chk :=
  let p := parsePlan b
  let nd := fieldU b 20 2
  let presetRatios := (List.range 10).map (fun i => 2 ^ (i + 1))
  firstFail [
    need (decide (fieldU b 0 1 ≤ 15)) stRange 0, need (decide (p.mode ≤ 1)) stRange 1,
    need (decide (6 ≤ p.chanLog2 ∧ p.chanLog2 ≤ 14)) stRange 2, need ([4, 8, 16].contains p.taps) stRange 3,
    need (decide (1000 ≤ p.rate ∧ p.rate ≤ 50000000)) stRange 4, need (decide (p.decMode ≤ 3)) stRange 8, needZero b 9 1 0,
    need (if p.decMode = 3 then decide (1 ≤ p.ratio ∧ p.ratio ≤ 4096) else presetRatios.contains p.ratio) stRange 10,
    need (decide (p.first < 2 ^ p.chanLog2)) stRange 12,
    need (decide (1 ≤ p.count ∧ p.first + p.count ≤ 2 ^ p.chanLog2)) stRange 14,
    need (decide (1 ≤ p.version)) stRange 16, need (decide (1 ≤ nd ∧ nd ≤ 1024)) stRange 20,
    need (decide (1 ≤ p.ctWindow ∧ p.ctWindow ≤ 10000)) stRange 22,
    firstFail (p.devs.zipIdx.map (fun x => firstFail [need (decide (x.1.chip ≤ 1023)) stRange (40 + 8 * x.2),
      need (decide (x.1.elements ≤ 16384)) stRange (46 + 8 * x.2),
      need (decide (x.1.sysBase + x.1.elements ≤ 65536)) stRange (42 + 8 * x.2)])),
    firstFail (p.chans.zipIdx.map (fun x =>
      let o := 40 + 8 * nd + 8 * x.2
      firstFail [need (decide (4 ≤ x.1.stroke ∧ x.1.stroke ≤ 512)) stRange (o + 2),
        need (decide (fieldU b (o + 4) 2 < 2)) stReserved (o + 4), needZero b (o + 6) 2 0]))]

/-- Two system ranges overlap. -/
def rangesMeet (a b : PlanDev) : Bool :=
  decide (0 < a.elements ∧ 0 < b.elements ∧ a.sysBase < b.sysBase + b.elements ∧ b.sysBase < a.sysBase + a.elements)

/-- Some pair of a list, in order, satisfies `f`. -/
def anyPair {α : Type} (f : α → α → Bool) : List α → Bool
  | [] => false
  | a :: l => l.any (f a) || anyPair f l

/-- The views that a plan being loaded is held against (R84): the one in effect and those that pending changes produce, or, where a change
that `hit` picks takes effect at the frame `activate` of this version, those from that change on. -/
def loadViews (s : State) (p : Plan) (hit : View → Pend → Bool) : List View :=
  (s.cond.pending.foldl (fun (a : List View × View) c =>
    let v' := c.kind.apply a.2
    (if hit a.2 c && decide (planFrame s a.2 v' c = p.activate) then [v'] else a.1 ++ [v'], v')) ([s.view], s.view)).1

/-- A change of group `g`. -/
def changesGroup (g : Nat) (_v : View) (c : Pend) : Bool :=
  match c.kind with
  | .group k _ => decide (k = g)
  | .elems _ => false

/-- A change of element `e` or of its group. -/
def changesElem (e : Nat) (v : View) (c : Pend) : Bool :=
  match c.kind with
  | .group k _ => decide (k = (v.elem e).group)
  | .elems es => es.any (fun x => decide (x.1 = e))

/-- The first local element of the own entry that is not receive-enabled in a group bound to the plan. -/
def badLocal (s : State) (id : Nat) (p : Plan) : Option Nat :=
  match ownEntry s p with
  | none => none
  | some d => ((List.range d.elements).map (· + d.localBase)).find? (fun e =>
    (loadViews s p (changesElem e)).any (fun v => match v.active e with
      | some x => decide (x.2.plan ≠ id)
      | none => true))

/-- Groups described now or by a pending change. -/
def allGroups (s : State) : List Nat :=
  s.cond.groups.map (·.1) ++ s.cond.pending.filterMap (fun c => match c.kind with
    | .group g _ => some g
    | .elems _ => none)

/-- A group bound to the plan has other band fields (R84). -/
def badBand (s : State) (id : Nat) (p : Plan) : Bool :=
  (allGroups s).any (fun g => (loadViews s p (changesGroup g)).any (fun v => match Tab.get v.groups g with
    | some d => decide (d.plan = id ∧ d.band ≠ p.band)
    | none => false))

/-- The refusals of R84 and R87. -/
def planRuleChk (s : State) (id : Nat) (p : Plan) : Chk :=
  firstFail [
    need (decide (p.devs.map (·.chip)).Nodup) stConflict id,
    need (!anyPair rangesMeet p.devs) stConflict id,
    need (!s.chan.plans.any (fun x => decide (x.1 ≠ id) && (liveVersions s x.2).any (fun q =>
      q.devs.any (fun a => p.devs.any (fun c => rangesMeet a c))))) stConflict id,
    need (p.chans.all (fun c => p.devs.any (fun d => decide (d.chip = c.owner)))) stConflict id,
    need ((List.range p.count).all (fun j => !p.on j || decide (p.activate % p.stroke j = 0))) stRange 24,
    need ((List.range p.count).all (fun j => !p.on j ||
      decide (p.ctWindow * 10 * p.rate < p.stroke j * p.hop * p.ratio * 1000000))) stRange 22,
    (badLocal s id p).map (fun e => (stConflict, e)),
    need (!badBand s id p) stConflict id,
    need (decide ((s.tw : Int) < planStamp p p.activate)) stLate 0]

/-- Insert a version in order of activation; one with the same frame replaces it. -/
def addVersion (p : Plan) (l : List Plan) : List Plan :=
  insertBy (·.activate) p (l.filter (fun q => decide (q.activate ≠ p.activate)))

/-- Plan channels of a first version start at its frame `activate`. -/
def openPlan (id : Nat) (p : Plan) (s : State) : State :=
  { s with corr.stats := Tab.put s.corr.stats id ⟨p.activate, [], [], []⟩ }

/-- The checks of PLAN_LOAD, in order. -/
def planLoadChk (d : Desc) (data : Bytes) (s : State) : Chk :=
  let b := dataOf d data
  let id := fieldU b 0 1
  let n := 40 + 8 * fieldU b 20 2 + 8 * fieldU b 14 2
  let p := parsePlan b
  firstFail [descChk d [(32, 1)], need (decide (40 ≤ d.len.toNat)) stSize 40, sizeChk d (n + 4), planFieldChk b,
    need (decide (fieldU b n 4 = (crc32c (b.take n)).toNat)) stCrc 0, planRuleChk s id p]

/-- PLAN_LOAD (R83 to R87). -/
def runPlanLoad (d : Desc) (data : Bytes) (s : State) : State :=
  let b := dataOf d data
  let id := fieldU b 0 1
  let p := parsePlan b
  match planLoadChk d data s with
  | some c => refuse d c s
  | none =>
    let had := planVersions s id
    let s := if had.isEmpty then openPlan id p s else s
    complete d stOk 0 (cfgPutAt (planStamp p p.activate).toNat 2 id b { s with
      chan.plans := Tab.put s.chan.plans id (addVersion p had)
      chan.digestSent := s.chan.digestSent.filter (fun x => !(decide (x.1 = id) && decide (x.2.1 = p.version))) })

def execPlanLoad (t : Tick) (d : Desc) (data : Bytes) (s : State) : Host.Outcome State Fault Refusal :=
  .next (runPlanLoad d data (s.advance t))

/-! ## Counters of Table 03-10 -/

/-- Add one to a row of R513. -/
def chanCount (row plan key : Nat) (s : State) : State :=
  { s with chan.cnt := vset s.chan.cnt row (Tab.add (vget s.chan.cnt row []) (plan * 65536 + key) 1) }

/-! ## The gap log (R49, R95, R137) -/

/-- Runs that hold a place. -/
def listedRuns (s : State) : Nat := (s.cond.log.filter (·.listed)).length

/-- The run overlaps or touches frames `first` to `first + len − 1` of the same plan, channel, element and cause. -/
def LogRun.joins (l : LogRun) (plan : Nat) (pchan : Option Nat) (elem cause first len : Nat) : Bool :=
  decide (l.plan = plan ∧ l.pchan = pchan ∧ l.run.elem = elem ∧ l.run.cause = cause ∧ l.run.first ≤ first + len ∧
    first ≤ l.run.first + l.run.len)

/-- The union of two runs that touch. -/
def LogRun.grow (l : LogRun) (first len : Nat) : LogRun :=
  let lo := Nat.min l.run.first first
  { l with run := { l.run with first := lo, len := Nat.max (l.run.first + l.run.len) (first + len) - lo } }

/-- The oldest run that joins takes in the others and the new frames. -/
def mergeRuns (f : LogRun → Bool) (first len : Nat) (l : List LogRun) : List LogRun :=
  let u := (l.filter f).foldl (fun (u : Nat × Nat) x =>
    let y := x.grow u.1 u.2
    (y.run.first, y.run.len)) (first, len)
  match l.find? f with
  | none => l
  | some x => l.takeWhile (fun y => !f y) ++
      [{ x with run := { x.run with first := u.1, len := u.2 }, listed := l.any (fun y => f y && y.listed) }] ++
      ((l.dropWhile (fun y => !f y)).filter (fun y => !f y))

/-- Log frames `first` to `first + len − 1` of an element: a run is held once, a contiguous run grows, and a full log of 16 B runs
lists no further one (R49, Table 14-5). -/
def logRun (plan : Nat) (pchan : Option Nat) (elem cause first len : Nat) (s : State) : State :=
  if s.cond.log.any (fun l => l.joins plan pchan elem cause first len) then
    { s with cond.log := mergeRuns (fun l => l.joins plan pchan elem cause first len) first len s.cond.log }
  else if listedRuns s < hubSize 5 / 16 then
    let lost := s.cond.lostMark.contains elem
    { s with
      cond.log := s.cond.log ++ [⟨plan, pchan, ⟨first, len, elem, cause, lost⟩, true⟩]
      cond.lostMark := s.cond.lostMark.filter (fun e => decide (e ≠ elem)) }
  else { s with
    cond.log := s.cond.log ++ [⟨plan, pchan, ⟨first, len, elem, cause, false⟩, false⟩]
    cond.lostMark := if s.cond.lostMark.contains elem then s.cond.lostMark else s.cond.lostMark ++ [elem] }

/-! ## Strokes -/

/-- Key of a plan channel. -/
def pchanKey (plan j : Nat) : Nat := plan * 65536 + j

/-- The stroke that follows stroke `i` of channel `j` under version `p`: under the next version once that has taken effect (R87). -/
def nextStroke (s : State) (plan j : Nat) (p : Plan) (i : Nat) : Nat × Nat :=
  match (planVersions s plan).find? (fun q => decide (p.activate < q.activate)) with
  | some q => if q.activate ≤ p.stroke j * (i + 1) then (q.vid, q.activate / max 1 (q.stroke j)) else (p.vid, i + 1)
  | none => (p.vid, i + 1)

/-- The first stroke of channel `j` under version `p`. -/
def firstStroke (p : Plan) (j : Nat) : Nat × Nat := (p.vid, p.activate / max 1 (p.stroke j))

/-- Stroke `x`, or where its version is none that `ok` picks, the first stroke of the next version that `ok` does pick (R87): a channel has
no stroke here under a version that gives it to another owner or does not enable it. -/
def seekStroke (s : State) (plan j : Nat) (ok : Plan → Bool) (x : Nat × Nat) : Nat × Nat :=
  let from_ : Nat := match planVer s plan x.1 with
    | some p => p.activate
    | none => 0
  match (planVersions s plan).find? (fun q => decide (from_ ≤ q.activate) && ok q) with
  | some q => if q.vid = x.1 then x else firstStroke q j
  | none => x

/-- The position before any stroke: the first of the plan's first version. -/
def startStroke (s : State) (plan j : Nat) : Nat × Nat :=
  match (planVersions s plan).head? with
  | some p => firstStroke p j
  | none => (0, 0)

/-- This chip owns the channel under the version (R88). -/
def ownsChan (s : State) (j : Nat) (p : Plan) : Bool := decide (j < p.count) && p.on j && decide (p.owner j = s.chip)

/-- The state of a plan channel at its owner. -/
def pchanOf (s : State) (plan j : Nat) : PChanState :=
  let x := match Tab.get s.chan.owned (pchanKey plan j) with
    | some x => x
    | none =>
      let k := startStroke s plan j
      ⟨k.1, k.2, [], []⟩
  let k := seekStroke s plan j (ownsChan s j) (x.ver, x.next)
  { x with ver := k.1, next := k.2 }

/-- Replace it. -/
def setPchan (plan j : Nat) (x : PChanState) (s : State) : State :=
  { s with chan.owned := Tab.put s.chan.owned (pchanKey plan j) x }

/-- The two open strokes of a plan channel (R93). -/
def openStrokes (s : State) (plan j : Nat) : List (Nat × Nat) :=
  let x := pchanOf s plan j
  match planVer s plan x.ver with
  | some p => [(x.ver, x.next), seekStroke s plan j (ownsChan s j) (nextStroke s plan j p x.next)]
  | none => []

/-- Frames a stroke buffer keeps beside two strokes: 64·⌈Wc·fr ÷ 64⌉ (R110). -/
def Plan.slackFrames (p : Plan) : Nat := 64 * ceilDiv (p.ctWindow * 10 * p.rate) (64 * p.hop * p.ratio * 1000000)

/-- The buffer area for frame `f` of a plan channel is still held (R106): the stroke of the frame it replaces has not been freed. -/
def areaHeld (s : State) (plan j : Nat) (p : Plan) (f : Nat) : Bool :=
  let x := pchanOf s plan j
  let ring := 2 * p.stroke j + p.slackFrames
  if f < ring then false
  else
    let g := f - ring
    x.released.any (fun r => !r.2.free && (
      let i := keyStroke r.1
      let S := match planVer s plan (keyVersion r.1) with
        | some q => q.stroke j
        | none => p.stroke j
      decide (S * i ≤ g ∧ g < S * (i + 1))))

/-- A frame that arrives overwrites the freed stroke whose area it takes. -/
def overwrite (s : State) (plan j : Nat) (p : Plan) (f : Nat) (x : PChanState) : PChanState :=
  let ring := 2 * p.stroke j + p.slackFrames
  if f < ring then x
  else { x with released := x.released.filter (fun r =>
    let i := keyStroke r.1
    let S := match planVer s plan (keyVersion r.1) with
      | some q => q.stroke j
      | none => p.stroke j
    !(r.2.free && decide (S * i + ring ≤ f))) }

/-- The descriptor that frame `f` of element `e` is formed under: that of its oldest input (R73). A change of plan alone, from one plan id to
another, takes effect in the same way, without a restart: R73 does not list the field (DESIGN CHOICE, log entry 118). -/
def frameDesc (s : State) (e f : Nat) (r : ElemRun) : Option (Nat × GroupDesc) :=
  (descAt s e (r.condNext - 1)).map (fun g =>
    let blk := g.ratio * Nat.max ((f + 1) * g.hop - g.len) r.fbStart / 64
    (blk, (descAt s e blk).getD g))

/-- Key of the stamp of a batch whose first frame is `frame`. -/
def stampKey (plan ver frame : Nat) : Nat := (plan * 2 ^ 96 + ver) * 2 ^ 64 + frame

/-- The stamp of a batch formed here (Table 03-9): R82 at the lowest system index of the own entry, as that element formed its first frame
`frame`; for an element that is ahead of it, the stamp that frame will have there under the descriptor `g`. -/
def batchStamp (s : State) (plan : Nat) (p : Plan) (d : PlanDev) (g : GroupDesc) (frame : Nat) : Int :=
  match Tab.get s.chan.stamps (stampKey plan p.vid frame), Tab.get s.cond.run d.localBase with
  | some x, _ => x
  | none, some r => frameStamp r.tOrg g frame
  | none, none => planStamp p frame

/-- The lowest element has formed the first frame of a batch: its stamp is kept until every element of the own entry has passed the batch. -/
def keepStamp (plan : Nat) (p : Plan) (d : PlanDev) (frame : Nat) (stamp : Int) (s : State) : State :=
  let lo := ((List.range d.elements).filterMap (fun k => (Tab.get s.cond.run (d.localBase + k)).map (·.frame))).foldl Nat.min frame
  let kept := s.chan.stamps.filter (fun x => decide (x.1 / 2 ^ 160 ≠ plan ∨ (lo < x.1 % 2 ^ 64 + 64 ∧ x.1 % 2 ^ 64 < frame)))
  { s with chan.stamps := Tab.put kept (stampKey plan p.vid frame) stamp }

/-- A stamp lies within a quarter of the frame period of the plan's (R93). -/
def stampOk (p : Plan) (frame : Nat) (stamp : Int) : Bool :=
  decide (4 * (stamp - planStamp p frame).natAbs * p.rate ≤ p.hop * p.ratio * tickHz)

/-- What the owner does with a batch (R93). -/
inductive BatchFate where
  | take
  | early
  | late
  | misaligned
  | misversioned
  deriving DecidableEq, Repr

/-- Classify a batch of stroke `i`, batch `b`, under the loaded version `ver` (`Plan.vid`) with a stamp. -/
def batchFate (s : State) (plan j ver i b : Nat) (stamp : Int) : BatchFate :=
  match planVer s plan ver with
  | none => .misversioned
  | some p =>
    if planAt s plan (p.stroke j * i) ≠ some p then .misversioned
    else if !stampOk p (p.stroke j * i + 64 * b) stamp then .misaligned
    else if (openStrokes s plan j).contains (ver, i) then .take
    else
      let x := pchanOf s plan j
      match planVer s plan x.ver with
      | some q => if p.stroke j * i < q.stroke j * x.next then .late else .early
      | none => .early

/-- Put the samples of one element into a stroke buffer; frames are given within the stroke. -/
def StrokeBuf.add (u : StrokeBuf) (elem : Nat) (l : List (Nat × CSample)) (at_ : Nat) : StrokeBuf :=
  { u with
    samples := l.foldl (fun t p => Tab.put t (elem * 2 ^ 32 + p.1) p.2) u.samples
    lastAt := Nat.max u.lastAt at_ }

/-- Note that a source has delivered an element of a batch. -/
def StrokeBuf.mark (u : StrokeBuf) (src b elem : Nat) : StrokeBuf :=
  { u with parts := Tab.mod u.parts (src * 65536 + b) [] (fun l => if l.contains elem then l else l ++ [elem]) }

/-- A source's contribution to a stroke is complete (R94, R323). -/
def srcComplete (p : Plan) (j : Nat) (u : StrokeBuf) (d : PlanDev) : Bool :=
  (List.range (p.stroke j / 64)).all (fun b => decide ((Tab.getD u.parts (d.chip * 65536 + b) []).length = d.elements))

/-- Elements `els` have their samples of the batch that holds `frame` written to the channel buffer (R350). -/
def chbufWrite (plan j frame : Nat) (els : List Nat) (s : State) : State :=
  els.foldl (fun s e => hbmRequest 0 .rank3 (placeOf s 1 ((pchanKey plan j * 65536 + e) * 2 ^ 48 + frame / 64)) s) s

/-- Put samples into the owner's open stroke. -/
def ownerTake (plan j ver i frame : Nat) (f : StrokeBuf → StrokeBuf) (s : State) : State :=
  let x := match planVer s plan ver with
    | some p => overwrite s plan j p frame (pchanOf s plan j)
    | none => pchanOf s plan j
  setPchan plan j { x with opened := Tab.mod x.opened (strokeKey ver i) StrokeBuf.empty f } s

/-! ## The filterbank (R78 to R82) -/

/-- Every stored prototype coefficient and its mirror image: h[0] to h[L − 1]. -/
def Proto.full (p : Proto) : List Int := p.coefs ++ p.coefs.reverse

/-- Sums over the taps: v[p] for p < n2; `k` taps are left. -/
def foldTaps (n2 : Nat) : Nat → List Int → List Int
  | 0, _ => []
  | 1, l => l.take n2
  | k + 1, l => List.zipWith (· + ·) (l.take n2) (foldTaps n2 k (l.drop n2))

/-- Complex product. -/
def cmul (a b : Int × Int) : Int × Int := (a.1 * b.1 - a.2 * b.2, a.1 * b.2 + a.2 * b.1)

/-- Complex conjugate. -/
def conj (a : Int × Int) : Int × Int := (a.1, -a.2)

/-- The transform sum of channel `k`. -/
def dftAt (n2 k : Nat) (v : List Int) : Int × Int :=
  v.zipIdx.foldl (fun (a : Int × Int) p =>
    let u := unitCircle (p.2 * k * (65536 / n2))
    (a.1 + p.1 * u.1, a.2 - p.1 * u.2)) (0, 0)

/-- The rotation index of R79. -/
def rotIdx (g : GroupDesc) (cal : Int) (k : Nat) : Nat :=
  let st := (roundDiv ((g.rate : Int) * cal * tickHz) ((g.ratio * g.n2 : Nat) * 10 ^ 12)) % (2 ^ 32 : Int)
  let th := ((k : Int) * st) % (2 ^ 32 : Int)
  ((roundShift th 16) % 65536).toNat

/-- One channel sample of a computed frame, and whether it saturated. -/
def chanSample (g : GroupDesc) (gains : List (Int × Int)) (cal : Int) (b k : Nat) (v : List Int) : (Int × Int) × Bool :=
  let x := dftAt g.n2 k v
  let x := if g.mode = 1 ∧ k * (b + 1) % 2 = 1 then (-x.1, -x.2) else x
  let gk := if g.gain = 0xFFFF then (0x4000, 0) else gains.getD (k - g.first) (0, 0)
  let y := cmul (cmul x gk) (conj (unitCircle (rotIdx g cal k)))
  let re := roundShift y.1 (65 - g.outShift)
  let im := roundShift y.2 (65 - g.outShift)
  ((satS 12 re, satS 12 im), !(inS 12 re && inS 12 im))

/-- The sideband of a frame (Table 03-4): gap cause, warming, and whether it is withheld for tap fill. The support is `words` and, before the
last restart of the filterbank, the outputs whose gap flags still stand. -/
def frameFlags (r : ElemRun) (m0 : Int) (words : List CondWord) : Nat × Bool × Bool :=
  let old := (r.gapOuts.filter (fun p => decide (m0 ≤ (p.1 : Int) ∧ p.1 < r.fbStart))).map (·.2)
  let mask := (words.map (·.gap) ++ old).foldl (fun m c => if c = 0 then m else m ||| 2 ^ c) 0
  let fill := decide (m0 < (r.fbStart : Int))
  (if mask = 0 then 0 else topCause mask, fill || words.any (·.warm), fill)

/-- Span of source statistics that holds frame `f`: its first frame (R142). -/
def statSpan (s : State) (plan f : Nat) : Nat :=
  let acts := ((planVersions s plan).map (·.activate)).filter (fun a => decide (a ≤ f))
  (f / 65536 * 65536 :: acts).foldl Nat.max 0

/-- Count the saturated samples of one frame, kept channels `ks`, in the two arrays of R81. -/
def countSats (e g : Nat) (ks : List Nat) (s : State) : State :=
  let s := if ks.isEmpty then s else modCnt e (fun c => { c with chanSat := c.chanSat + ks.length }) s
  { s with chan.chanSat := ks.foldl (fun t k => Tab.add t (g * 16384 + k) 1) s.chan.chanSat }

/-- Count them in the source statistics of the plan, by plan channel (R142). -/
def noteStats (e plan sys frame : Nat) (js : List Nat) (s : State) : State :=
  match Tab.get s.corr.stats plan with
  | none => s
  | some st =>
    let key := statSpan s plan frame * 65536
    { s with corr.stats := Tab.put s.corr.stats plan { st with
        chans := js.foldl (fun t j => Tab.add t (key + j) 1) st.chans
        elems := Tab.add st.elems (key + sys) js.length
        next := Tab.put st.next e (frame + 1) } }

/-- An element has delivered batch `b` once all its 64 samples are there. -/
def StrokeBuf.close (u : StrokeBuf) (src b elem : Nat) : StrokeBuf :=
  if (List.range 64).all (fun f => Tab.has u.samples (elem * 2 ^ 32 + (64 * b + f))) then u.mark src b elem else u

/-- Deliver one channel sample of a local element (R88): into the own channel buffer, or into the contribution being formed. A local
contribution travels in no batch: each of its samples keeps the cause of its own frame (DESIGN CHOICE, log entry 102). -/
def deliverSample (plan : Nat) (p : Plan) (dv : PlanDev) (sys frame at_ : Nat) (stamp : Int) (x : Nat × CSample) (s : State) : State :=
  let j := x.1
  if !p.on j then s
  else
    let S := p.stroke j
    let i := frame / S
    let fr := frame % S
    let last := decide (frame % 64 = 63)
    let put (u : StrokeBuf) : StrokeBuf :=
      let u := u.add sys [(fr, x.2)] (if fr + 1 = S then at_ else 0)
      if last then u.close dv.chip (fr / 64) sys else u
    if p.owner j = s.chip then
      match batchFate s plan j p.vid i (fr / 64) stamp with
      | .take => ownerTake plan j p.vid i frame put (if last then chbufWrite plan j frame [sys] s else s)
      | fate =>
        if last && decide (sys = dv.sysBase) then
          chanCount (match fate with
            | .early => 4
            | .late => 5
            | .misaligned => 7
            | _ => 8) plan dv.chip s
        else s
    else
      let key := pchanKey plan j
      let sd := Tab.getD s.chan.send key SendState.empty
      let noteStamp (u : StrokeBuf) : StrokeBuf :=
        if frame % 64 = 0 ∧ sys = dv.sysBase then { u with stamps := Tab.put u.stamps (fr / 64) stamp } else u
      let sd := { sd with forming := Tab.mod sd.forming (strokeKey p.vid i) StrokeBuf.empty (fun u => noteStamp (put u)) }
      { s with chan.send := Tab.put s.chan.send key sd }

/-- Plan channel `j` has frame `b` in a stroke that began under version `p` (R87): a stroke that straddles the activation of a later version
is completed under `p`. -/
def strokeUnder (s : State) (plan : Nat) (p : Plan) (j b : Nat) : Bool :=
  decide (j < p.count) && p.on j && decide (planAt s plan (p.stroke j * (b / p.stroke j)) = some p)

/-- The channeliser must wait for the own channel buffer (R106): a stroke that cannot be opened yet, or an area still held. -/
def mustHold (s : State) (plan frame : Nat) : Bool :=
  (planVersions s plan).any (fun p => (List.range p.count).any (fun j =>
    strokeUnder s plan p j frame && decide (p.owner j = s.chip) &&
      (areaHeld s plan j p frame || decide (batchFate s plan j p.vid (frame / p.stroke j) (frame % p.stroke j / 64)
        (planStamp p (frame / 64 * 64)) = .early))))

/-- The first block of which a glint beam may still need an arrival (R185): that of the oldest output its history can hold. -/
def glintKeep (s : State) (g : GroupDesc) : Nat :=
  match s.glint.cfg with
  | some c => g.ratio * (s.glint.m - 2 ^ c.histLog2) / 64
  | none => 2 ^ 64

/-- Drop history that no later frame reads, and arrivals of blocks before it and before `keep`. -/
def trimRun (keep : Nat) (g : GroupDesc) (r : ElemRun) : ElemRun :=
  let m0 := (r.frame + 1) * g.hop - g.len
  let lo := (g.ratio * m0 - g.support) / 64
  { r with fb := r.fb.take (r.fbNext - m0), arrs := r.arrs.filter (fun p => decide (Nat.min lo keep ≤ p.1)) }

/-- Note the position and delay_int of an element for a frame that starts a stroke of a B pool (R156). -/
def noteGeom (plan b sys : Nat) (x : ElemEntry) (s : State) : State :=
  if s.corr.scheds.any (fun r => r.sched.pools.any (fun q => decide (q.mode = 1 ∧ q.plan = plan ∧ b % q.stroke = 0))) then
    let g : ElemGeom := ⟨sys, ⟨x.posX, x.posY, x.posZ⟩, x.delayInt⟩
    let l := insertBy (·.elem) g ((Tab.getD s.corr.beamGeom (plan * 2 ^ 64 + b) []).filter (fun y => decide (y.elem ≠ sys)))
    { s with corr.beamGeom := Tab.put s.corr.beamGeom (plan * 2 ^ 64 + b) l }
  else s

/-- Deliver the kept channels of frame `b` of element `e`, formed under the descriptor `gd`, to every loaded version under which a stroke that
holds the frame began, where that version shares the band (R87, R88). -/
def deliverFrame (e b : Nat) (gd : GroupDesc) (tOrg at_ : Nat) (out : List CSample) (s : State) : State :=
  (planVersions s gd.plan).foldl (fun s p =>
    match ownEntry s p with
    | none => s
    | some dv =>
      match sysIndex dv e with
      | none => s
      | some sys =>
        let xs := (out.zipIdx.map (fun y => (gd.first + y.2, y.1))).filter (fun y =>
          decide (p.first ≤ y.1) && strokeUnder s gd.plan p (y.1 - p.first) b)
        if xs.isEmpty || decide (p.band.take 6 ≠ gd.band.take 6) then s
        else
          let s := if b % 64 = 0 ∧ sys = dv.sysBase then keepStamp gd.plan p dv b (frameStamp tOrg gd b) s else s
          let stamp := batchStamp s gd.plan p dv gd (b / 64 * 64)
          xs.foldl (fun s y => deliverSample gd.plan p dv sys b at_ stamp (y.1 - p.first, y.2) s) s) s

/-- Compute frame `r.frame` of element `e` and deliver it. `g` is the band in force, `gd` the descriptor for the frame, `x` the element entry
for it: that of the block of the frame's oldest input. A stroke of a B pool takes the positions and delay_int of that entry for its first frame
(R156; which block decides when a change falls inside the frame's support is a DESIGN CHOICE, log entry 119). -/
def formFrame (e : Nat) (r : ElemRun) (g gd : GroupDesc) (x : ElemEntry) (s : State) : State :=
  let b := r.frame
  let m0 : Int := ((b + 1) * g.hop : Nat) - (g.len : Int)
  let words := (r.fb.drop (r.fbNext - (b + 1) * g.hop)).take (if m0 < r.fbStart then (b + 1) * g.hop - r.fbStart else g.len)
  let fl := frameFlags r m0 words
  let compute := decide (fl.1 = 0) && !fl.2.2
  let v := match compute, Tab.get s.chan.protos gd.proto with
    | true, some pr => foldTaps g.n2 g.taps (List.zipWith (· * ·) pr.full (words.reverse.map (·.v)))
    | _, _ => []
  let gains := Tab.getD s.chan.gains gd.gain []
  let out := (List.range gd.count).map (fun j =>
    let y := if compute then chanSample gd gains x.calDelay b (gd.first + j) v else ((0, 0), false)
    (j, (⟨y.1.1, y.1.2, fl.1, fl.2.1⟩ : CSample), y.2))
  let lo := (g.ratio * m0.toNat - g.support) / 64
  let at_ := ((r.arrs.filter (fun p => decide (lo ≤ p.1 ∧ p.1 ≤ g.ratio * ((b + 1) * g.hop - 1) / 64))).map (·.2)).foldl Nat.max 0
  let sats := (out.filter (fun y => y.2.2)).map (·.1)
  let s := countSats e x.group (sats.map (gd.first + ·)) (setRun e (trimRun (glintKeep s g) g { r with frame := b + 1 }) s)
  let sys := (planAt s gd.plan b).bind (fun p => (ownEntry s p).bind (fun dv => sysIndex dv e))
  let s := match sys with
    | some k => noteStats e gd.plan k b sats (noteGeom gd.plan b k x s)
    | none => s
  deliverFrame e b gd r.tOrg at_ (out.map (·.2.1)) s

/-- CHANNELISER_FRAME (R78): when the inputs of the element's next frame are present. A changed cal_delay first acts on the frame whose oldest
input lies at or after the block of the change, as R73 says of the other fields (DESIGN CHOICE, log entry 100). -/
def execChanneliserFrame (t : Tick) (e : Fin 16384) (s : State) : Host.Outcome State Fault Refusal :=
  let s := s.advance t
  match Tab.get s.cond.run e.val with
  | none => .next s
  | some r =>
    match descAt s e.val (r.condNext - 1), frameDesc s e.val r.frame r with
    | some g, some (blk, gd) =>
      if !g.channelised || decide (r.fbNext < (r.frame + 1) * g.hop) then .next s
      else
        if mustHold s gd.plan r.frame then .next s else .next (settle (formFrame e.val r g gd (elemAt s e.val blk) s))
    | _, _ => .next s

/-! ## Sending (R89 to R92) -/

/-- Destinations of batches for an owner: its chip, and the node of a twinned owner (R434). -/
def sendDests (s : State) (owner : Nat) : List Nat :=
  owner :: ((s.twin.map.filter (fun p => decide (p.1 = owner))).map (·.2))

/-- The mesh port over which a destination is reached. -/
def firstPort (s : State) (dest : Nat) : Option Nat := routePort (xdim s) (ydim s) (routeChip s) dest

/-- The neighbour through a mesh port of this device. -/
def peerOf (s : State) (port : Nat) : Nat := neighbour (xdim s) (ydim s) (routeChip s) port

/-- A destination is unreachable for a plan (R91). -/
def unreachable (s : State) (plan dest : Nat) : Bool :=
  !reachable s dest || (match firstPort s dest with
    | some p => !portUp s p || s.chan.mismatch.contains (plan, peerOf s p)
    | none => true)

/-- The digest of a version goes to the neighbour over the link of a port, once (R85, R324). -/
def sendDigest (plan : Nat) (p : Plan) (port : Nat) (s : State) : State :=
  match portQuad s port with
  | none => s
  | some q =>
    if s.chan.digestSent.contains (plan, p.version, port) then s
    else
      linkSend q 0 1 (meshHeader (peerOf s port) s.chip 0 ++ le 1 plan ++ zeros 3 ++ le 4 p.version ++ le 4 p.digest.toNat ++ zeros 4)
        { s with chan.digestSent := s.chan.digestSent ++ [(plan, p.version, port)] }

/-- The digests of the versions of a plan that act or will act are exchanged over a port that carries its traffic (R85). -/
def sendDigests (plan port : Nat) (s : State) : State :=
  (liveVersions s (planVersions s plan)).foldl (fun s p => sendDigest plan p port s) s

/-- The sample of an element and frame of a stroke buffer; what was never delivered is a corner-turn loss (R94). -/
def StrokeBuf.sample (u : StrokeBuf) (elem frame : Nat) : CSample := Tab.getD u.samples (elem * 2 ^ 32 + frame) ⟨0, 0, 5, false⟩

/-- A mask over 64 frames. -/
def maskOf (l : List Bool) : Nat := (l.zipIdx.map (fun p => if p.1 then 2 ^ p.2 else 0)).sum

/-- One batch frame body of up to 32 elements (Table 13-6), after the mesh header. -/
def batchBody (plan j : Nat) (p : Plan) (i b : Nat) (stamp : Int) (u : StrokeBuf) (els : List Nat) : Bytes :=
  let smp (e : Nat) : List CSample := (List.range 64).map (fun f => u.sample e (64 * b + f))
  let cause (e : Nat) : Nat :=
    let m := (smp e).foldl (fun m x => if x.gap = 0 then m else m ||| 2 ^ x.gap) 0
    if m = 0 then 0 else topCause m
  le 1 plan ++ zeros 1 ++ le 2 j ++ le 4 p.version ++ le 8 i ++ le 2 b ++ le 2 (els.headD 0) ++ le 2 els.length ++ zeros 2 ++
    leS 8 stamp ++ le 16 ((els.zipIdx.map (fun x => cause x.1 * 2 ^ (3 * x.2))).sum) ++
    els.flatMap (fun e => le 8 (maskOf ((smp e).map (fun x => decide (x.gap ≠ 0)))) ++ le 8 (maskOf ((smp e).map (·.warm))) ++
      pack12 ((smp e).flatMap (fun x => [x.re, x.im])))

/-- Groups of 32 elements; `fuel` groups at most. -/
def groups32 : Nat → List Nat → List (List Nat)
  | 0, _ => []
  | k + 1, l => if l.isEmpty then [] else l.take 32 :: groups32 k (l.drop 32)

/-- This chip sends the channel to the destination under the version (R88). -/
def sendsChan (s : State) (j dest : Nat) (p : Plan) : Bool :=
  decide (j < p.count) && p.on j && decide (p.owner j ≠ s.chip) && (sendDests s (p.owner j)).contains dest && (ownEntry s p).isSome

/-- The stroke and batch that a destination is sent next; a destination that has had none yet begins with the oldest stroke that is kept. -/
def sendPos (s : State) (plan j dest : Nat) (sd : SendState) : Nat × Nat :=
  let x := match Tab.get sd.pos dest with
    | some p => p
    | none => match sd.forming with
      | (key, _) :: _ => (key, 0)
      | [] =>
        let k := startStroke s plan j
        (strokeKey k.1 k.2, 0)
  let k := seekStroke s plan j (sendsChan s j dest) (keyVersion x.1, keyStroke x.1)
  if strokeKey k.1 k.2 = x.1 then x else (strokeKey k.1 k.2, 0)

/-- The position after a batch. -/
def afterBatch (s : State) (plan j : Nat) (p : Plan) (i b : Nat) : Nat × Nat :=
  if 64 * (b + 1) < p.stroke j then (strokeKey p.vid i, b + 1)
  else
    let n := nextStroke s plan j p i
    (strokeKey n.1 n.2, 0)

/-- Every element of the own entry has delivered batch `b` of the contribution. -/
def batchReady (dv : PlanDev) (u : StrokeBuf) (b : Nat) : Bool :=
  decide ((Tab.getD u.parts (dv.chip * 65536 + b) []).length = dv.elements)

/-- The frame time of the batch that a destination is sent next, once that batch is formed: the stamp of its first frame (R512). -/
def sendTime (s : State) (plan j dest : Nat) (sd : SendState) : Option Int :=
  let (key, b) := sendPos s plan j dest sd
  match planVer s plan (keyVersion key), Tab.get sd.forming key with
  | some p, some u =>
    if sendsChan s j dest p && (ownEntry s p).any (fun dv => batchReady dv u b) then
      some (planStamp p (p.stroke j * keyStroke key + 64 * b))
    else none
  | _, _ => none

/-- Every destination that some version of a plan sends channel `j` to. -/
def chanDests (s : State) (plan j : Nat) : List Nat := (planVersions s plan).flatMap (fun p => sendDests s (p.owner j))

/-- No other formed batch goes before one of channel `j` with frame time `t` to `dest`: the order of R90 within a channel over all its
destinations, and across channels and plans, ties to the lower plan channel, then to the lower plan. -/
def sendTurn (s : State) (plan j dest : Nat) (t : Int) : Bool :=
  s.chan.send.all (fun q =>
    let k := q.1 % 65536
    let pl := q.1 / 65536
    (chanDests s pl k).all (fun x => match sendTime s pl k x q.2 with
      | some g =>
        if pl = plan ∧ k = j then decide (x = dest ∨ t ≤ g) else decide (t < g ∨ (t = g ∧ (j < k ∨ (j = k ∧ plan < pl))))
      | none => true))

/-- The strokes that destinations of a channel are sent next. -/
def sendKeys (s : State) (plan j : Nat) (sd : SendState) : List Nat :=
  (chanDests s plan j).filterMap (fun x =>
    let key := (sendPos s plan j x sd).1
    if (planVer s plan (keyVersion key)).any (sendsChan s j x) then some key else none)

/-- Store a send state; strokes that every destination of the channel, under any version, has passed are freed. -/
def putSend (plan j : Nat) (sd : SendState) (s : State) : State :=
  let keys := sendKeys s plan j sd
  let sd := { sd with forming := sd.forming.filter (fun q => keys.any (fun k => decide (k ≤ q.1))) }
  { s with chan.send := Tab.put s.chan.send (pchanKey plan j) sd }

/-- Loss state of a destination for a plan. -/
def lossOf (s : State) (plan dest : Nat) : OwnerLoss := Tab.getD s.chan.loss (pchanKey plan dest) ⟨false, 0⟩

/-- A dropped contribution (R91, R92). -/
def dropContribution (plan j dest : Nat) (s : State) : State :=
  let l := lossOf s plan dest
  let s := chanCount 0 plan dest (chanCount 1 plan j s)
  let s := { s with chan.loss := Tab.put s.chan.loss (pchanKey plan dest) ⟨true, l.dropped + 1⟩ }
  if l.lost then s else postEvent 0x30 dest (le 1 plan) s

/-- A contribution was sent whole: after a loss the owner is regained (R92). -/
def wholeContribution (plan dest : Nat) (s : State) : State :=
  let l := lossOf s plan dest
  if l.lost then
    postEvent 0x31 dest (le 1 plan ++ zeros 3 ++ le 4 l.dropped) { s with chan.loss := Tab.put s.chan.loss (pchanKey plan dest) ⟨false, 0⟩ }
  else s

/-- Send batch `b` of stroke `i` to a destination: the plan digests first where they are owed, then one frame for every 32 elements. -/
def sendBatch (plan j dest : Nat) (p : Plan) (dv : PlanDev) (i b : Nat) (u : StrokeBuf) (s : State) : State :=
  let s := match firstPort s dest with
    | some port => sendDigests plan port s
    | none => s
  let els := (List.range dv.elements).map (· + dv.sysBase)
  let stamp := Tab.getD u.stamps b (planStamp p (p.stroke j * i + 64 * b))
  (groups32 els.length els).foldl (fun s l => meshSend dest 0 (batchBody plan j p i b stamp u l) s) s

/-- The owner's release instant of stroke `i` (R94, R103) has come at time word `tw`. -/
def releaseDue (p : Plan) (j i tw : Nat) : Bool :=
  let d : Int := ((tw : Int) - planStamp p (p.stroke j * i + p.stroke j - 1)) * 100000
  decide (((p.ctWindow * tickHz : Nat) : Int) ≤ d)

/-- One turn of a destination at stroke `i`, batch `b` of a formed batch (R91, R92). A shadow sends nothing (R433), and a contribution of which a batch was not sent for
that is not taken up again (Table 17-6). -/
def sendOne (plan j dest : Nat) (p : Plan) (dv : PlanDev) (key b : Nat) (u : StrokeBuf) (room : Bool) (sd : SendState) (s : State) : State :=
  let i := keyStroke key
  let sd := { sd with pos := Tab.put sd.pos dest (afterBatch s plan j p i b) }
  if s.isShadow || !s.emits then putSend plan j { sd with dropping := Tab.put sd.dropping dest key } s
  else if Tab.get sd.dropping dest = some key then putSend plan j sd s
  else if unreachable s plan dest || !room || decide (Tab.get sd.cut dest = some key) then
    dropContribution plan j dest (putSend plan j { sd with dropping := Tab.put sd.dropping dest key } s)
  else
    let s := sendBatch plan j dest p dv i b u (putSend plan j sd s)
    if p.stroke j ≤ 64 * (b + 1) then wholeContribution plan dest s else s

/-- The turn of a destination at batch `b` of a stroke: the batch is sent once every local element has formed it and no other formed batch
goes before it. A stroke that the elements leave unformed until its owner has released it is passed over (log entry 101). -/
def sendStroke (plan j dest : Nat) (p : Plan) (dv : PlanDev) (key b : Nat) (room : Bool) (sd : SendState) (s : State) : State :=
  let i := keyStroke key
  let u := Tab.getD sd.forming key StrokeBuf.empty
  if batchReady dv u b then
    if sendTurn s plan j dest (planStamp p (p.stroke j * i + 64 * b)) then sendOne plan j dest p dv key b u room sd s else s
  else if releaseDue p j i s.tw then
    let n := nextStroke s plan j p i
    putSend plan j { sd with pos := Tab.put sd.pos dest (strokeKey n.1 n.2, 0) } s
  else s

/-- The next batch of channel `j` of a plan towards a destination, where this device sends the channel there. -/
def cornerTurn (plan j dest : Nat) (room : Bool) (s : State) : State :=
  let sd := Tab.getD s.chan.send (pchanKey plan j) SendState.empty
  let at_ := sendPos s plan j dest sd
  match planVer s plan (keyVersion at_.1) with
  | none => s
  | some p =>
    match ownEntry s p with
    | none => s
    | some dv => if sendsChan s j dest p then sendStroke plan j dest p dv at_.1 at_.2 room sd s else s

/-- CORNER_TURN_SEND (R89 to R92): the next batch of a contribution is sent, or its rest dropped. -/
def execCornerTurnSend (t : Tick) (plan : Fin 16) (j : Nat) (dest : BitVec 10) (room : Bool) (s : State) :
    Host.Outcome State Fault Refusal :=
  .next (cornerTurn plan.val j dest.toNat room (s.advance t))

/-! ## Receiving (R93, R323) -/

/-- Element `k` of a batch frame: its 64 samples. -/
def batchElem (f : RawFrame) (k : Nat) : List CSample :=
  let o := 64 + 208 * k
  let gap := fieldU f.data o 8
  let warm := fieldU f.data (o + 8) 8
  let cause := bitsOf (fieldU f.data 48 16) (3 * k) 3
  (List.range 64).map (fun i => ⟨packed12 f.data (o + 16) (2 * i), packed12 f.data (o + 16) (2 * i + 1),
    if bitOf gap i then Nat.max cause 1 else 0, bitOf warm i⟩)

/-- A batch frame for this owner (R93, R106, R323). -/
def takeBatch (f : RawFrame) (s : State) : State :=
  let plan := fieldU f.data 16 1
  let j := fieldU f.data 18 2
  let ver := fieldU f.data 20 4
  let i := fieldU f.data 24 8
  let b := fieldU f.data 32 2
  let first := fieldU f.data 34 2
  let n := fieldU f.data 36 2
  let src := fieldU f.data 4 2
  match planFor s plan j ver i with
  | none => chanCount 8 plan src s
  | some p =>
    if p.owner j ≠ s.chip ∨ p.count ≤ j ∨ !p.on j ∨ p.stroke j ≤ 64 * b then chanCount 8 plan src s
    else match batchFate s plan j p.vid i b (fieldS f.data 40 8) with
    | .early => chanCount 4 plan src s
    | .late => chanCount 5 plan src s
    | .misaligned => chanCount 7 plan src s
    | .misversioned => chanCount 8 plan src s
    | .take =>
      let x := pchanOf s plan j
      let u := Tab.getD x.opened (strokeKey p.vid i) StrokeBuf.empty
      if (Tab.getD u.parts (src * 65536 + b) []).contains first then chanCount 6 plan src s
      else if areaHeld s plan j p (p.stroke j * i + 64 * b) then
        { s with corr.chbufOver := Tab.add s.corr.chbufOver (plan * 2 ^ 32 + src * 65536 + j) 1 }
      else
        let inSrc (e : Nat) : Bool := p.devs.any (fun d => decide (d.chip = src ∧ d.sysBase ≤ e ∧ e < d.sysBase + d.elements))
        let frame := p.stroke j * i + 64 * b
        let els := ((List.range n).map (first + ·)).filter inSrc
        ownerTake plan j p.vid i frame (fun u => (List.range n).foldl (fun u k =>
          if inSrc (first + k) then
            (u.add (first + k) ((batchElem f k).zipIdx.map (fun q => (64 * b + q.2, q.1)))
              (if 64 * (b + 1) = p.stroke j then s.now else 0)).mark src b (first + k)
          else u) u) (chbufWrite plan j frame els s)

/-- A good frame that shows traffic of a plan makes this device exchange digests over the link it came by and, when it goes on, over the
link it leaves by (R85). -/
def noteTraffic (q : Nat) (f : RawFrame) (s : State) : State :=
  if quadHas s q 4 && (quadOf s q).up && meshFits f then
    let plan := fieldU f.data 16 1
    let s := match quadPort s q with
      | some port => sendDigests plan port s
      | none => s
    match firstPort s (fieldU f.data 2 2) with
    | some port => if decide (f.kind.toNat = 0) && decide (fieldU f.data 2 2 < xdim s * ydim s) then sendDigests plan port s else s
    | none => s
  else s

/-- BATCH_FRAME (R323, R325, R333). -/
def execBatchFrame (t : Tick) (q : Fin 16) (f : RawFrame) (s : State) : Host.Outcome State Fault Refusal :=
  let s := s.advance t
  if f.kind.toNat ≠ 0 ∧ meshFits f then .next s
  else .next (noteTraffic q.val f (meshReceive q.val f 0 (takeBatch f) s))

/-- A plan digest from the neighbour (R86). A mismatch ends at the next digest of the plan from that neighbour, of any version, that agrees
(DESIGN CHOICE, log entry 103). -/
def takeDigest (q : Nat) (f : RawFrame) (s : State) : State :=
  let plan := fieldU f.data 16 1
  let ver := fieldU f.data 20 4
  match quadPort s q, planNum s plan ver with
  | some port, some p =>
    let bad := decide (fieldU f.data 24 4 ≠ p.digest.toNat)
    let peer := peerOf s port
    let rest := s.chan.mismatch.filter (fun x => decide (x ≠ (plan, peer)))
    if bad then
      postEvent 0x32 q (le 1 plan ++ zeros 3 ++ le 4 ver) (chanCount 9 plan port { s with chan.mismatch := rest ++ [(plan, peer)] })
    else { s with chan.mismatch := rest }
  | _, _ => s

/-- PLAN_DIGEST_FRAME (R86, R324). -/
def execPlanDigestFrame (t : Tick) (q : Fin 16) (f : RawFrame) (s : State) : Host.Outcome State Fault Refusal :=
  let s := s.advance t
  if f.kind.toNat ≠ 1 ∧ meshFits f then .next s
  else .next (noteTraffic q.val f (meshReceive q.val f 1 (takeDigest q.val f) s))

/-! ## Release (R94, R95) -/

/-- Log the gaps and warming frames of one element of a released stroke. -/
def logElem (plan j base : Nat) (u : StrokeBuf) (S elem : Nat) (s : State) : State :=
  let xs := (List.range S).map (fun f => u.sample elem f)
  let s := (runsOf base (xs.map (·.gap))).foldl (fun s r =>
    logRun plan (if r.2.2 = 5 ∨ r.2.2 = 8 then some j else none) elem r.2.2 r.1 r.2.1 s) s
  (runsOf base (xs.map (fun x => if x.gap = 0 ∧ x.warm then 1 else 0))).foldl (fun s r => logRun plan none elem 0 r.1 r.2.1 s) s

/-- Release the oldest stroke of a plan channel: incomplete contributions are discarded whole and become gaps with cause 5. -/
def releaseStrokeOf (plan j : Nat) (p : Plan) (s : State) : State :=
  let x := pchanOf s plan j
  let key := strokeKey x.ver x.next
  let u := Tab.getD x.opened key StrokeBuf.empty
  let bad := p.devs.filter (fun d => decide (0 < d.elements) && !srcComplete p j u d)
  let lost (e : Nat) : Bool := bad.any (fun d => decide (d.sysBase ≤ e ∧ e < d.sysBase + d.elements))
  let u := { u with samples := u.samples.filter (fun q => !lost (q.1 / 2 ^ 32)) }
  let s := bad.foldl (fun s d => chanCount 3 plan j (chanCount 2 plan d.chip s)) s
  let n := nextStroke s plan j p x.next
  let s := setPchan plan j { x with
    ver := n.1, next := n.2, opened := Tab.del x.opened key, released := Tab.put x.released key ⟨u, s.tw, false⟩ } s
  let S := p.stroke j
  (p.devs.flatMap (fun d => (List.range d.elements).map (· + d.sysBase))).foldl
    (fun s e => logElem plan j (S * x.next) u S e s) s

/-- The oldest stroke of a plan channel owned here may be released (R94). -/
def releasable (s : State) (plan j : Nat) : Option Plan :=
  let x := pchanOf s plan j
  match planVer s plan x.ver with
  | none => none
  | some p =>
    let u := Tab.getD x.opened (strokeKey x.ver x.next) StrokeBuf.empty
    let whole := p.devs.all (fun d => decide (d.elements = 0) || srcComplete p j u d)
    if j < p.count ∧ p.on j ∧ p.owner j = s.chip ∧ (whole ∨ releaseDue p j x.next s.tw) then some p else none

/-! ## Source statistics (R142) -/

/-- The boundary that ends the span starting at `first`. -/
def statEnd (s : State) (plan first : Nat) : Nat :=
  ((planVersions s plan).tail.map (·.activate)).foldl (fun m a => if first < a then Nat.min m a else m) ((first / 65536 + 1) * 65536)

/-- The last channel sample of the span has been formed for every local element; a device with none waits for the corner-turn window after the
stamp of the span's last frame (DESIGN CHOICE, log entry 104). -/
def statDue (s : State) (st : SrcStats) (p : Plan) (stop : Nat) : Bool :=
  match ownEntry s p with
  | none => decide ((s.tw : Int) * 100000 ≥ planStamp p (stop - 1) * 100000 + (p.ctWindow * tickHz : Nat))
  | some d =>
    if d.elements = 0 then decide ((s.tw : Int) * 100000 ≥ planStamp p (stop - 1) * 100000 + (p.ctWindow * tickHz : Nat))
    else (List.range d.elements).all (fun k => decide (stop ≤ Tab.getD st.next (d.localBase + k) 0))

/-- The body of a source statistics record (R142). -/
def statsBody (s : State) (plan : Nat) (p : Plan) (st : SrcStats) (stop : Nat) : Bytes :=
  let els := st.elems.filter (fun q => decide (q.1 / 65536 = st.first ∧ q.2 ≠ 0))
  le 1 plan ++ zeros 3 ++ le 4 p.version ++ le 8 st.first ++ le 4 (stop - st.first) ++ le 2 p.count ++
    le 2 els.length ++ le 2 s.chip ++ zeros 6 ++
    (List.range p.count).flatMap (fun j => le 4 (satU 32 (Tab.getD st.chans (st.first * 65536 + j) 0))) ++
    els.flatMap (fun q => le 2 (q.1 % 65536) ++ zeros 2 ++ le 4 (satU 32 q.2))

/-- SOURCE_STATS_RECORD (R142). -/
def execSourceStatsRecord (t : Tick) (plan : Fin 16) (s : State) : Host.Outcome State Fault Refusal :=
  let s := s.advance t
  match Tab.get s.corr.stats plan.val with
  | none => .next s
  | some st =>
    match planAt s plan.val st.first with
    | none => .next s
    | some p =>
      let stop := statEnd s plan.val st.first
      if !statDue s st p stop then .next s
      else
        let next := { st with
          first := stop
          chans := st.chans.filter (fun q => decide (stop ≤ q.1 / 65536)), elems := st.elems.filter (fun q => decide (stop ≤ q.1 / 65536)) }
        .next (formRecord ⟨1, plan.val, 0x0011, statsBody s plan.val p st stop, 0xFFFF, (planStamp p st.first).toNat,
          (planStamp p (stop - 1)).toNat, false⟩ { s with corr.stats := Tab.put s.corr.stats plan.val next })

end Sys2Proof.Machine
end

