-- ==== Sys2Proof/Machine/Sched.lean ====
section
/-!
DEFINITION. The compiled schedule (04_correlation_engines.md): tiles and jobs, the schedule image and its checks, due times and
deadlines, entries in force, engine failure, spares and fallbacks, shedding and restoring.
-/
namespace Sys2Proof.Machine

/-! ## Plans as pools see them -/

/-- The system elements of a plan in plan ordinal order (R100). -/
def planOrds (p : Plan) : List Nat :=
  (p.devs.foldl (fun l d => insertBy (·.1) (d.sysBase, d.elements) l) []).flatMap (fun r => (List.range r.2).map (· + r.1))

/-- M tiles or element blocks per side (R100). -/
def Plan.tiles (p : Plan) : Nat := ceilDiv p.size 32

/-- nt tiles per channel (R101). -/
def Plan.nt (p : Plan) : Nat := p.tiles * (p.tiles + 1) / 2

/-- Coordinates of tile `t` with `m` tiles in the first row left and row `i` reached. -/
def tileAt : Nat → Nat → Nat → Nat × Nat
  | 0, i, t => (i, i + t)
  | m + 1, i, t => if t < m + 1 then (i, i + t) else tileAt m (i + 1) (t - (m + 1))

/-- Sections Ns of a plan (R144). -/
def Plan.sections (p : Plan) : Nat := ceilDiv p.tiles 64

/-- Element blocks Mb(σ) of a section (R144). -/
def Plan.secBlocks (p : Plan) (sec : Nat) : Nat := min 64 (p.tiles - 64 * sec)

/-- Beam blocks Bb of a B pool under a plan (R144). -/
def Pool.blocks (q : Pool) (p : Plan) : Nat := q.jobs / max 1 (q.channels * p.sections)

/-- Jobs per channel of a pool. -/
def Pool.perChan (q : Pool) : Nat := q.jobs / max 1 q.channels

/-- The plan version for stroke `i` of a pool. -/
def poolPlan (s : State) (q : Pool) (i : Nat) : Option Plan := planAt s q.plan (q.stroke * i)

/-- Stroke at which the pool starts. -/
def Pool.first (q : Pool) : Nat := q.activate / max 1 q.stroke

/-- Channel position of a job in its pool (R103, R144). -/
def Pool.chanPos (q : Pool) (job : Nat) : Nat := job / max 1 q.perChan

/-- Plan channel of a job. -/
def Pool.chanOf (q : Pool) (job : Nat) : Nat := q.firstCh + q.chanPos job

/-- A plan channel is in a pool. -/
def Pool.hasChan (q : Pool) (j : Nat) : Bool := decide (q.firstCh ≤ j ∧ j < q.firstCh + q.channels)

/-- Handshakes of an engine-stroke (R99, R145). -/
def Pool.handshakes (q : Pool) (p : Plan) (job : Nat) : Nat :=
  if q.mode = 0 then q.stroke else p.secBlocks (job % max 1 p.sections) * (q.stroke + 32)

/-- The corner-turn window Wc in ticks. -/
def Plan.wcTicks (p : Plan) : Int := roundDiv (p.ctWindow * tickHz) 100000

/-- rel(i), the latest release instant of a stroke of a pool, a time word (R103). -/
def relOf (s : State) (q : Pool) (i : Nat) : Int :=
  match poolPlan s q i with
  | some p => planStamp p (q.stroke * i + q.stroke - 1) + p.wcTicks
  | none => 0

/-- Nanoseconds to ticks: j·A, like Wc, is rounded convergently before it is added to rel(i) (DESIGN CHOICE, log entry 105). -/
def nsTicks (n : Nat) : Int := roundDiv (n * tickHz) 1000000000

/-- Due time of a slot (R104). -/
def dueOf (s : State) (q : Pool) (e : EngEntry) (pos : Nat × Nat) : Int := relOf s q pos.1 + nsTicks (pos.2 * e.allot)

/-- Deadline of a slot (R104). -/
def deadlineOf (s : State) (q : Pool) (e : EngEntry) (pos : Nat × Nat) : Int :=
  if pos.2 + 1 < e.count then relOf s q pos.1 + nsTicks ((pos.2 + 1) * e.allot) else relOf s q (pos.1 + 1)

/-- Order of positions. -/
def posLt (a b : Nat × Nat) : Bool := decide (a.1 < b.1 ∨ (a.1 = b.1 ∧ a.2 < b.2))

/-- The position after one, in an entry of `count` slots. -/
def posNext (count : Nat) (a : Nat × Nat) : Nat × Nat := if a.2 + 1 < count then (a.1, a.2 + 1) else (a.1 + 1, 0)

/-! ## Access to schedules and their runs -/

/-- The schedule with a number. -/
def schedOf (s : State) (gen : Nat) : Option SchedRun := s.corr.scheds.find? (fun r => decide (r.gen = gen))

/-- Replace a schedule. -/
def setSched (r : SchedRun) (s : State) : State :=
  { s with corr.scheds := s.corr.scheds.map (fun x => if x.gen = r.gen then r else x) }

/-- A pool of a schedule. -/
def SchedRun.pool? (r : SchedRun) (p : Nat) : Option Pool := r.sched.pools[p]?

/-- Replace a run of a schedule. -/
def setRunOf (gen k : Nat) (f : EntryRun → EntryRun) (s : State) : State :=
  { s with corr.scheds := s.corr.scheds.map (fun x => if x.gen = gen then { x with runs := x.runs.modify k f } else x) }

/-- The first stroke that a run does not run: its own limit and its pool's stop. -/
def SchedRun.limit (r : SchedRun) (x : EntryRun) : Option Nat :=
  match x.hi, Tab.get r.stops x.entry.pool with
  | some a, some b => some (min a b)
  | some a, none => some a
  | none, b => b

/-- A position lies within a run. -/
def SchedRun.within (r : SchedRun) (x : EntryRun) (pos : Nat × Nat) : Bool :=
  match r.limit x with
  | some h => decide (pos.1 < h)
  | none => true

/-- The first position of a run that is not done. -/
def EntryRun.undone (x : EntryRun) : Nat × Nat :=
  match x.done with
  | some p => posNext x.entry.count p
  | none => (x.lo, 0)

/-- The engine-stroke of job `job` in stroke `i` is done: applied, skipped or declared, or its run has no such slot left. -/
def EntryRun.isDone (x : EntryRun) (job i : Nat) : Bool :=
  match x.done with
  | some d => !posLt d (i, job - x.entry.firstJob)
  | none => false

/-- A run serves a job of a pool in a stroke. -/
def SchedRun.serves (r : SchedRun) (x : EntryRun) (pool job i : Nat) : Bool :=
  decide (x.entry.pool = pool ∧ x.entry.firstJob ≤ job ∧ job < x.entry.firstJob + x.entry.count ∧ x.lo ≤ i) && r.within x (i, 0)

/-- The schedule in effect: the newest one of which a pool has started, otherwise the newest one. -/
def curSched (s : State) : Option SchedRun :=
  let started (r : SchedRun) : Bool := r.sched.pools.any (fun q => match planAt s q.plan q.activate with
    | some p => decide (planStamp p q.activate ≤ (s.tw : Int))
    | none => false)
  match (s.corr.scheds.filter started).getLast? with
  | some r => some r
  | none => s.corr.scheds.getLast?

/-- The next stroke that the pool has still to release: one past the newest released in any of its channels. -/
def nextRelease (s : State) (q : Pool) : Nat :=
  ((List.range q.channels).map (fun k =>
    let x := pchanOf s q.plan (q.firstCh + k)
    match planVer s q.plan x.ver with
    | some p => ceilDiv (p.stroke (q.firstCh + k) * x.next) (max 1 q.stroke)
    | none => 0)).foldl Nat.max q.first

/-- The first stroke from `i` on whose latest release instant is at or after time word `T` (Table 17-1). -/
def strokeFrom (s : State) (q : Pool) (T : Nat) : Nat → Nat → Nat
  | 0, i => i
  | k + 1, i => if (T : Int) ≤ relOf s q i then i else strokeFrom s q T k (i + 1)

/-- The effect point of a shed (R116, Table 17-1): the next release whose latest release instant is at or after `T`. -/
def shedPoint (s : State) (q : Pool) (T : Nat) : Nat := strokeFrom s q T 4096 (nextRelease s q)

/-! ## Shed entries -/

/-- Sheddings of an entry. -/
def SchedRun.sheds (r : SchedRun) (n : Nat) : List ShedSt := Tab.getD r.shed n []

/-- The entry is shed and has not been restored. -/
def SchedRun.isShed (r : SchedRun) (n : Nat) : Bool := match (r.sheds n).head? with
  | some x => x.hi.isNone
  | none => false

/-- Shed-list entry `n` sheds a plan channel of a pool in strokes `i` to `i + len − 1`. -/
def SchedRun.shedsAll (r : SchedRun) (n pool chan i len : Nat) : Bool :=
  match r.sched.shed[n]? with
  | some e => decide (e.pool = pool ∧ e.firstCh ≤ chan ∧ chan < e.firstCh + e.channels) &&
      (r.sheds n).any (fun x => decide (x.lo ≤ i) && (match x.hi with
        | some h => decide (i + len ≤ h)
        | none => true))
  | none => false

/-- The shed-list entry by which a plan channel of a pool is shed in a stroke. -/
def SchedRun.shedBy (r : SchedRun) (pool chan i : Nat) : Option Nat :=
  (List.range r.sched.shed.length).find? (fun n => r.shedsAll n pool chan i 1)

/-- The product id of a plan channel of a pool, 0xFFFF without a shed entry (Table 15-9). -/
def SchedRun.productOf (r : SchedRun) (pool chan : Nat) : Nat :=
  match r.sched.shed.find? (fun e => decide (e.pool = pool ∧ e.firstCh ≤ chan ∧ chan < e.firstCh + e.channels)) with
  | some e => e.product
  | none => 0xFFFF

/-! ## The image (R107) -/

/-- A pool descriptor. -/
def parsePool (b : Bytes) (o : Nat) : Pool where
  plan := fieldU b o 1
  mode := fieldU b (o + 1) 1
  engines := fieldU b (o + 2) 2
  stroke := 64 * fieldU b (o + 4) 2
  firstCh := fieldU b (o + 8) 2
  channels := fieldU b (o + 10) 2
  activate := fieldU b (o + 16) 8
  jobs := fieldU b (o + 24) 4
  ink := fieldU b (o + 6) 1
  dump := fieldU b (o + 7) 1
  integ := if fieldU b (o + 1) 1 = 0 then fieldU b (o + 12) 4 else 1
  product := fieldU b (o + 6) 1
  bset := fieldU b (o + 7) 1
  pint := fieldU b (o + 12) 2
  bshift := fieldU b (o + 14) 1
  pshift := fieldU b (o + 15) 1
  band := fieldU b (o + 28) 1
  pfmt := fieldU b (o + 29) 1

/-- An engine entry. -/
def parseEng (b : Bytes) (o : Nat) : EngEntry :=
  ⟨fieldU b o 1, fieldU b (o + 1) 1, fieldU b (o + 4) 4, fieldU b (o + 8) 4, fieldU b (o + 12) 4⟩

/-- Offsets of the fallbacks and the offset behind the last. -/
def fbOffsets (b : Bytes) : Nat → Nat → List Nat × Nat
  | 0, o => ([], o)
  | k + 1, o =>
    let r := fbOffsets b k (o + 48 + 16 * fieldU b (o + 32) 2)
    (o :: r.1, r.2)

/-- Where the sections of an image lie: entries, spares, shed list, fallbacks, CRC. -/
structure SchedAt where
  ents : Nat
  nEnts : Nat
  spares : Nat
  shed : Nat
  fbs : List Nat
  crc : Nat
  deriving DecidableEq, Repr

/-- The layout of an image. -/
def schedAt (b : Bytes) : SchedAt :=
  let np := fieldU b 2 1
  let ents := 64 + 32 * np
  let ne := ((List.range np).map (fun i => fieldU b (64 + 32 * i + 2) 2)).sum
  let spares := ents + 16 * ne
  let shed := spares + 8 * ceilDiv (fieldU b 4 1) 8
  let f := fbOffsets b (fieldU b 3 1) (shed + 8 * fieldU b 6 2)
  ⟨ents, ne, spares, shed, f.1, f.2⟩

/-- Read an image. -/
def parseSched (b : Bytes) : Sched :=
  let a := schedAt b
  { id := fieldU b 0 2
    warm := fieldU b 5 1
    pools := (List.range (fieldU b 2 1)).map (fun i => parsePool b (64 + 32 * i))
    entries := (List.range a.nEnts).map (fun i => parseEng b (a.ents + 16 * i))
    spares := (List.range (fieldU b 4 1)).map (fun i => fieldU b (a.spares + i) 1)
    shed := (List.range (fieldU b 6 2)).map (fun i =>
      let o := a.shed + 8 * i
      ⟨fieldU b o 1, fieldU b (o + 2) 2, fieldU b (o + 4) 2, fieldU b (o + 6) 2⟩)
    fallbacks := a.fbs.map (fun o =>
      { exclude := BitVec.ofNat 256 (fieldU b o 32)
        preshed := fieldU b (o + 34) 2
        entries := (List.range (fieldU b (o + 32) 2)).map (fun i => parseEng b (o + 48 + 16 * i)) }) }

/-! ## Checks (R108, R109, R147) -/

/-- A check code of Table 04-7. -/
def capX (row : Nat) : Nat × Nat := (stCapacity, checkCode row 0x0407)

/-- A check code of Table 06-2. -/
def capB (row : Nat) : Nat × Nat := (stCapacity, checkCode row 0x0602)

/-- A check with a whole refusal. -/
def needC (c : Bool) (r : Nat × Nat) : Chk := if c then none else some r

/-- Reserved bytes of an image. -/
def schedZeros (b : Bytes) : Chk :=
  let a := schedAt b
  let zeroEnt (o : Nat) : Chk := needZero b (o + 2) 2 0
  firstFail [needZero b 44 20 0,
    firstFail ((List.range (fieldU b 2 1)).map (fun i =>
      let o := 64 + 32 * i
      if fieldU b (o + 1) 1 = 0 then needZero b (o + 28) 4 0
      else firstFail [need (decide (fieldU b (o + 6) 1 < 4)) stReserved (o + 6), needZero b (o + 30) 2 0])),
    firstFail ((List.range a.nEnts).map (fun i => zeroEnt (a.ents + 16 * i))),
    firstFail ((List.range (fieldU b 6 2)).map (fun i => needZero b (a.shed + 8 * i + 1) 1 0)),
    firstFail (a.fbs.map (fun o => firstFail [needZero b (o + 36) 12 0,
      firstFail ((List.range (fieldU b (o + 32) 2)).map (fun i => zeroEnt (o + 48 + 16 * i)))]))]

/-- The fields of a pool and the channels it names. `o` is its offset. -/
def poolChk (s : State) (q : Pool) (o : Nat) : Chk :=
  match planAt s q.plan q.activate with
  | none => some (stRange, o)
  | some p => firstFail [
      need (decide (q.mode ≤ 1)) stRange (o + 1),
      need (decide (1 ≤ q.engines ∧ q.engines ≤ 256)) stRange (o + 2),
      needC (decide (256 ≤ q.stroke ∧ q.stroke ≤ 32768)) (capX 1),
      need (decide (1 ≤ q.channels ∧ q.channels ≤ 16384)) stRange (o + 10),
      need (decide (q.firstCh + q.channels ≤ p.count)) stRange (o + 8),
      need ((List.range q.channels).all (fun k =>
        let j := q.firstCh + k
        p.on j && decide (p.owner j = s.chip ∧ p.stroke j = q.stroke))) stRange (o + 8),
      if q.mode = 0 then firstFail [
        need (decide (q.ink ≤ 1)) stRange (o + 6), need (decide (q.dump ≤ 1)) stRange (o + 7),
        need (decide (1 ≤ q.integ ∧ q.integ ≤ 16777216)) stRange (o + 12),
        need (decide (q.activate % (q.stroke * q.integ) = 0)) stRange (o + 16),
        need (decide (q.jobs = q.channels * p.nt)) stRange (o + 24)]
      else firstFail [
        need (decide (1 ≤ q.product ∧ q.product ≤ 3)) stRange (o + 6),
        need (decide (1 ≤ q.pint ∧ q.stroke / 64 % q.pint = 0)) stRange (o + 12),
        need (decide (q.bshift ≤ 32)) stRange (o + 14), need (decide (q.pshift ≤ 63)) stRange (o + 15),
        need (decide (q.activate % q.stroke = 0)) stRange (o + 16),
        need (decide (1 ≤ q.jobs ∧ q.jobs % (q.channels * p.sections) = 0)) stRange (o + 24),
        need (decide (q.band ≤ 1)) stRange (o + 28), need (decide (q.pfmt ≤ 1)) stRange (o + 29)]]

/-- Merge contiguous ranges of a sorted list; `none` when two overlap. -/
def mergeSpans : List (Nat × Nat) → Option (List (Nat × Nat))
  | [] => some []
  | (a, n) :: l =>
    match mergeSpans l with
    | none => none
    | some [] => some [(a, n)]
    | some ((c, m) :: r) => if c < a + n then none else if c = a + n then some ((a, n + m) :: r) else some ((a, n) :: (c, m) :: r)

/-- Entries cover the jobs of every channel of a pool but those skipped, none twice (R108). -/
def covers (q : Pool) (k : Nat) (es : List EngEntry) (skip : Nat → Bool) : Bool :=
  let l := (es.filter (fun e => decide (e.pool = k))).foldl (fun l e => insertBy (·.1) (e.firstJob, e.count) l) []
  match mergeSpans l with
  | none => false
  | some m => m.all (fun r => decide (r.1 + r.2 ≤ q.jobs)) && (List.range q.channels).all (fun c =>
      skip (q.firstCh + c) || m.any (fun r => decide (r.1 ≤ c * q.perChan ∧ (c + 1) * q.perChan ≤ r.1 + r.2)))

/-- The first value that stands twice in a list. -/
def twice : List Nat → Option Nat
  | [] => none
  | a :: l => if l.contains a then some a else twice l

/-- Channels of the X pools, as plan·65536 + channel. -/
def xChannels (c : Sched) : List Nat :=
  (c.pools.filter (fun q => decide (q.mode = 0))).flatMap (fun q => (List.range q.channels).map (fun k => q.plan * 65536 + q.firstCh + k))

/-- The rules of R108 on who is covered by whom. -/
def coverChk (s : State) (c : Sched) (a : SchedAt) : Chk :=
  let names := c.entries.map (·.engine)
  firstFail [
    firstFail (c.entries.zipIdx.map (fun e => firstFail [
      need (decide ((((c.pools.map (·.engines)).zipIdx.flatMap (fun p => List.replicate p.1 p.2)).getD e.2 0) = e.1.pool)) stRange
        (a.ents + 16 * e.2 + 1),
      need (decide (1 ≤ e.1.count)) stRange (a.ents + 16 * e.2 + 8)])),
    match twice (xChannels c) with
    | some k => some (stConflict, k % 65536)
    | none => none,
    firstFail (s.chan.plans.map (fun x => match x.2.getLast? with
      | none => none
      | some p => need ((List.range p.count).all (fun j => !p.on j || decide (p.owner j ≠ s.chip) ||
          c.pools.any (fun q => decide (q.plan = x.1) && q.hasChan j))) stRange 2)),
    firstFail (c.pools.zipIdx.map (fun q => need (covers q.1 q.2 c.entries (fun _ => false)) stRange (64 + 32 * q.2 + 24))),
    match twice names with
    | some e => some (stConflict, e)
    | none => (names.find? (fun e => c.spares.contains e)).map (fun e => (stConflict, e)),
    firstFail (c.shed.zipIdx.map (fun x =>
      let o := a.shed + 8 * x.2
      match c.pools[x.1.pool]? with
      | none => some (stRange, o)
      | some q => need (decide (1 ≤ x.1.channels ∧ q.firstCh ≤ x.1.firstCh ∧
          x.1.firstCh + x.1.channels ≤ q.firstCh + q.channels)) stRange (o + 2))),
    firstFail ((c.fallbacks.zip a.fbs).map (fun f => firstFail [
      need (decide (f.1.preshed ≤ c.shed.length)) stRange (f.2 + 34),
      firstFail (f.1.entries.zipIdx.map (fun e =>
        let o := f.2 + 48 + 16 * e.2
        firstFail [need (decide (e.1.pool < c.pools.length)) stRange (o + 1),
          need (!f.1.exclude.getLsbD e.1.engine && !c.spares.contains e.1.engine) stRange o,
          need (decide (1 ≤ e.1.count)) stRange (o + 8)])),
      firstFail (c.pools.zipIdx.map (fun q => need (covers q.1 q.2 f.1.entries (fun j =>
        (c.shed.take f.1.preshed).any (fun x => decide (x.pool = q.2 ∧ x.firstCh ≤ j ∧ j < x.firstCh + x.channels)))) stRange f.2))]))]

/-- A sum of fractions as numerator and denominator. -/
def fracSum (l : List (Nat × Nat)) : Nat × Nat := l.foldl (fun a x => (a.1 * x.2 + x.1 * a.2, a.2 * x.2)) (0, 1)

/-- `⌈n ÷ d⌉` of a fraction. -/
def fracCeil (x : Nat × Nat) : Nat := ceilDiv x.1 (max 1 x.2)

/-- A fraction is at most a limit. -/
def fracLe (x : Nat × Nat) (lim : Nat) : Bool := decide (x.1 ≤ lim * x.2)

/-- Pools of a mode with their plan versions at `activate`. -/
def poolsWith (s : State) (c : Sched) (mode : Nat) : List (Pool × Plan) :=
  c.pools.filterMap (fun q => if q.mode = mode then (planAt s q.plan q.activate).map (fun p => (q, p)) else none)

/-- fr as a fraction: handshakes per second of one tile. -/
def Plan.fr (p : Plan) : Nat × Nat := (p.rate, p.ratio * p.hop)

/-- X load in handshakes per second (Table 04-2). -/
def demandOf (l : List (Pool × Plan)) : Nat × Nat := fracSum (l.map (fun x => (x.1.channels * x.2.nt * x.2.fr.1, x.2.fr.2)))

/-- HBM inkwell update bytes per second (Table 04-2). -/
def updateOf (l : List (Pool × Plan)) : Nat × Nat :=
  fracSum (l.map (fun x => if x.1.ink = 0 then (x.1.channels * x.2.nt * x.2.fr.1 * 24576, x.2.fr.2 * x.1.stroke) else (0, 1)))

/-- Inkwells of pools, doubled for dump 1. -/
def inkOf (l : List (Pool × Plan)) (ink : Option Nat) : Nat :=
  (l.map (fun x => if ink = none ∨ ink = some x.1.ink then x.1.channels * x.2.nt * 1024 * (1 + x.1.dump) else 0)).sum

/-- Channel-buffer bytes (R110), each channel once. -/
def chbufOf (l : List (Pool × Plan)) : Nat :=
  let t : Tab Nat := l.foldl (fun t x => (List.range x.1.channels).foldl (fun t k =>
    Tab.put t (x.1.plan * 65536 + x.1.firstCh + k) (13 * x.2.size * (2 * x.1.stroke + x.2.slackFrames))) t) []
  ceilDiv (t.map (·.2)).sum 4

/-- Slot conditions of an entry of an X pool (R108, R109). -/
def slotChkX (q : Pool) (p : Plan) (e : EngEntry) : Chk :=
  needC (decide (2 * q.stroke ≤ e.allot) && decide (e.count * e.allot * p.rate ≤ q.stroke * p.hop * p.ratio * 1000000000)) (capX 2)

/-- Slot conditions of an entry of a B pool (R147). -/
def slotChkB (q : Pool) (p : Plan) (e : EngEntry) : Chk :=
  let h := ((List.range (min e.count p.sections)).map (fun i => q.handshakes p (e.firstJob + i))).foldl Nat.max 0
  firstFail [needC (decide (2 * h ≤ e.allot)) (capB 1),
    needC (decide (e.count * e.allot * p.rate ≤ q.stroke * p.hop * p.ratio * 1000000000)) (capB 2)]

/-- Slot conditions of every entry of pools of a mode, main and fallbacks. -/
def slotsChk (s : State) (c : Sched) (mode : Nat) : Chk :=
  firstFail ((c.entries ++ c.fallbacks.flatMap (·.entries)).map (fun e => match c.pools[e.pool]? with
    | none => none
    | some q => if q.mode ≠ mode then none else match planAt s q.plan q.activate with
      | none => none
      | some p => if mode = 0 then slotChkX q p e else slotChkB q p e))

/-- The set match of Table 06-2. -/
def setMatch (s : State) (q : Pool) (p : Plan) (id : Nat) : Bool :=
  match Tab.get s.corr.bsets id with
  | none => false
  | some b => decide (b.plan = q.plan ∧ ceilDiv b.beams 32 = q.blocks p) &&
      (decide (b.source ≠ 1) || (match Tab.get s.corr.weights b.table with
        | some w => decide (w.plan = b.plan ∧ w.beams = b.beams ∧ w.elements = p.size)
        | none => false)) &&
      (decide (b.apod ≠ 2) || (match Tab.get s.corr.tapers b.taper with
        | some t => decide (t.length = p.size)
        | none => false))

/-- The budgets of Tables 04-7 and 06-2 and the stated figures, in the order of R509. -/
def capChk (s : State) (c : Sched) (b : Bytes) : Chk :=
  let xs := poolsWith s c 0
  let bs := poolsWith s c 1
  let nb := ((c.entries.filter (fun e => match c.pools[e.pool]? with
    | some q => decide (q.mode = 1)
    | none => false)).map (·.engine)).length
  firstFail [slotsChk s c 0,
    need (decide (fieldU b 8 8 = chbufOf (xs ++ bs))) stRange 8,
    need (decide (fieldU b 16 8 = inkOf xs none)) stRange 16,
    need (decide (fieldU b 24 8 = fracCeil (updateOf xs))) stRange 24,
    need (decide (fieldU b 32 8 = fracCeil (demandOf xs))) stRange 32,
    needC (fracLe (demandOf xs) (500000000 * (256 - c.spares.length - nb))) (capX 3),
    needC (fracLe (updateOf xs) 1536000000000) (capX 4),
    needC (decide (inkOf xs (some 0) * 12 ≤ regionSize s 6)) (capX 5),
    needC (poolFits s (lineSamples (heldSets s)) (Nat.max (hubInkwells s.corr.scheds) (inkOf xs (some 1)))) (capX 6),
    needC (decide (chbufOf (xs ++ bs) ≤ regionSize s 1)) (capX 7),
    slotsChk s c 1,
    needC (decide ((bs.map (fun x => 32 * x.1.blocks x.2)).sum ≤ 8192)) (capB 3),
    needC (fracLe (fracSum (bs.map (fun x => (x.1.channels * x.1.blocks x.2 * x.2.sections * 32 * 12 * x.2.fr.1, x.2.fr.2))))
      400000000000) (capB 4),
    needC (fracLe (fracSum (bs.map (fun x =>
      if (match Tab.get s.corr.bsets x.1.bset with
        | some t => decide (t.source = 1)
        | none => false) then
        (x.1.channels * x.1.blocks x.2 * x.2.tiles * 3072 * x.2.fr.1, x.1.stroke * x.2.fr.2)
      else (0, 1)))) 400000000000) (capB 5),
    needC (bs.all (fun x => setMatch s x.1 x.2 x.1.bset)) (capB 6)]

/-! ## Taking over (R111) -/

/-- The stroke at which a pool of a loaded schedule stops for a new one: the first at or after the earliest `activate` of a new pool of
its plan. -/
def takeover (c : Sched) (q : Pool) : Option Nat :=
  let l := (c.pools.filter (fun n => decide (n.plan = q.plan))).map (fun n => ceilDiv n.activate (max 1 q.stroke))
  match l with
  | [] => none
  | a :: r => some (r.foldl Nat.min a)

/-- The stops of a loaded schedule once a new one takes over. -/
def stopsFor (r : SchedRun) (c : Sched) : Tab Nat :=
  r.sched.pools.zipIdx.foldl (fun t q => match takeover c q.1 with
    | none => t
    | some a => Tab.put t q.2 (match Tab.get t q.2 with
      | some b => min a b
      | none => a)) r.stops

/-- The instant a stroke of a pool starts, by the stamp of its first frame. -/
def strokeStart (s : State) (q : Pool) (i : Nat) : Int :=
  match planAt s q.plan (q.stroke * i) with
  | some p => planStamp p (q.stroke * i)
  | none => 0

/-- An engine that a new pool needs before the old pool that holds it has stopped, or has left it at a switch to a fallback. -/
def takeConflict (s : State) (c : Sched) : Option Nat :=
  (c.entries.find? (fun e => match c.pools[e.pool]? with
    | none => false
    | some n => s.corr.scheds.any (fun r =>
        let r' := { r with stops := stopsFor r c }
        r.runs.any (fun x => decide (x.entry.engine = e.engine) && (match r.pool? x.entry.pool with
          | none => false
          | some q => match r'.limit x with
            | none => true
            | some h => decide (strokeStart s n n.first < strokeStart s q h)))))).map (·.engine)

/-- Main entries of an engine in a schedule. -/
def mainEntries (c : Sched) (e : Nat) : List EngEntry := c.entries.filter (fun x => decide (x.engine = e))

/-- The epoch of a run at a stroke. -/
def EntryRun.epochAt (x : EntryRun) (i : Nat) : Nat :=
  match x.epochs.find? (fun p => decide (p.1 ≤ i)) with
  | some p => p.2
  | none => (x.epochs.getLast?.map (·.2)).getD 0

/-- Every epoch that some run expects. -/
def epochsInUse (s : State) : List Nat := s.corr.scheds.flatMap (fun r => r.runs.flatMap (fun x => x.epochs.map (·.2)))

/-- The first value from `v` on that is not in a list of `n` values. -/
def firstFresh (l : List Nat) : Nat → Nat → Nat
  | 0, v => v % 2 ^ 32
  | n + 1, v => if l.contains (v % 2 ^ 32) then firstFresh l n (v + 1) else v % 2 ^ 32

/-- A new configuration epoch (R420): a free value that no run expects. -/
def newEpoch (s : State) : Nat × State :=
  let p := s.drawFree 32
  let l := epochsInUse s
  (firstFresh l l.length p.1, p.2)

/-- The runs of a new schedule. An engine whose entries do not change keeps its epoch. -/
def startRuns (s : State) (c : Sched) (epoch : Nat) : List EntryRun :=
  c.entries.map (fun e =>
    let lo := match c.pools[e.pool]? with
      | some q => q.first
      | none => 0
    let old : Option Nat := match s.corr.scheds.getLast? with
      | some r => if mainEntries r.sched e.engine = mainEntries c e.engine then
          (r.runs.find? (fun (x : EntryRun) => decide (x.entry = e))).bind (fun (x : EntryRun) => x.epochs.head?.map (fun (q : Nat × Nat) => q.2))
        else none
      | none => none
    ⟨e, none, lo, none, (lo, 0), none, false, [(lo, old.getD epoch)]⟩)

/-! ## Segments (R131): keys and lists -/

/-- Key of a pool's state. -/
def poolKey (gen pool : Nat) : Nat := gen * 64 + pool

/-- Banks of a pool. -/
def Pool.banks (q : Pool) : Nat := if q.dump = 1 then 2 else 1

/-- The integration of a stroke, counted from the pool's start. -/
def Pool.integOf (q : Pool) (i : Nat) : Nat := (i - q.first) / max 1 q.integ

/-- The segments of one main entry: first job and jobs (R131). -/
def segsOfEntry (q : Pool) (e : EngEntry) : List (Nat × Nat) :=
  let per := max 1 q.perChan
  let stop := e.firstJob + e.count
  let runs := (List.range (ceilDiv stop per - e.firstJob / per)).map (fun k =>
    let c := e.firstJob / per + k
    (Nat.max e.firstJob (c * per), Nat.min stop ((c + 1) * per)))
  runs.flatMap (fun r => (List.range (ceilDiv (r.2 - r.1) 1024)).map (fun k =>
    (r.1 + 1024 * k, Nat.min 1024 (r.2 - r.1 - 1024 * k))))

/-- The segments of a pool. -/
def segsOfPool (r : SchedRun) (k : Nat) (q : Pool) : List (Nat × Nat) :=
  (r.sched.entries.filter (fun e => decide (e.pool = k))).flatMap (segsOfEntry q)

/-- The segment that holds a job. -/
def segOfJob (r : SchedRun) (k : Nat) (q : Pool) (job : Nat) : Nat × Nat :=
  match r.sched.entries.find? (fun e => decide (e.pool = k ∧ e.firstJob ≤ job ∧ job < e.firstJob + e.count)) with
  | none => (job, 1)
  | some e =>
    let per := max 1 q.perChan
    let a := Nat.max e.firstJob (job / per * per)
    let z := Nat.min (e.firstJob + e.count) ((job / per + 1) * per)
    let f := a + (job - a) / 1024 * 1024
    (f, Nat.min 1024 (z - f))

end Sys2Proof.Machine
end

