-- ==== Sys2Proof/Machine/Lists.lean ====
section
/-!
DEFINITION. What a dump or beam record lists of its inputs (R95, R137 to R139, R159): element entries, gap runs and warming runs, taken from
the gap log; the binary32 conversion of R141 and R161; how long the log keeps a run (R138).
-/
namespace Sys2Proof.Machine

/-! ## Pieces of runs -/

/-- A piece of a gap or warming run in a record; cause 0 is warming. -/
structure Piece where
  first : Nat
  len : Nat
  cause : Nat
  listed : Bool
  lost : Bool
  deriving DecidableEq, Repr

/-- Merge contiguous frame ranges (first, length) of a rising list. -/
def joinSpans : List (Nat × Nat) → List (Nat × Nat)
  | [] => []
  | (a, n) :: l =>
    match joinSpans l with
    | (c, m) :: r => if c = a + n then (a, n + m) :: r else (a, n) :: (c, m) :: r
    | [] => [(a, n)]

/-- Insertion of a number into a rising list without repeats. -/
def insertNat (a : Nat) : List Nat → List Nat
  | [] => [a]
  | b :: l => if a < b then a :: b :: l else if a = b then b :: l else b :: insertNat a l

/-- The points at which something changes within [lo, hi). -/
def cutPoints (lo hi : Nat) (rs : List GapRun) : List Nat :=
  (rs.flatMap (fun r => [r.first, r.first + r.len])).foldl (fun l a => if lo < a ∧ a < hi then insertNat a l else l) [lo]

/-- The run of a list that covers a frame; the one with the highest-priority cause where several do. -/
def coverRun (rs : List LogRun) (f : Nat) : Option LogRun :=
  (rs.filter (fun r => decide (r.run.first ≤ f ∧ f < r.run.first + r.run.len))).foldl (fun (b : Option LogRun) r => match b with
    | none => some r
    | some x => if topCause (2 ^ x.run.cause ||| 2 ^ r.run.cause) = x.run.cause then some x else some r) none

/-- Priority of a cause among channels: the order of Table 02-4, causes 5 and 8 last. -/
def causeRank (c : Nat) : Nat := ([3, 4, 2, 1, 5, 8].idxOf c)

/-- What frame `f` of an element is for a record of the given channels (R95, R137, R159): its run, or none. -/
def frameRun (own : List (List LogRun)) (wide warm : List LogRun) (f : Nat) : Option LogRun :=
  let w := coverRun wide f
  let per := own.filterMap (fun l => match coverRun l f with
    | some r => some r
    | none => w)
  match per with
  | r :: l => some (l.foldl (fun b x => if causeRank x.run.cause < causeRank b.run.cause then x else b) r)
  | [] => coverRun warm f

/-- Elementary pieces between rising points; `hi` ends the last one. -/
def piecesOf (own : List (List LogRun)) (wide warm : List LogRun) (hi : Nat) : List Nat → List Piece
  | [] => []
  | a :: l =>
    let z := l.headD hi
    let rest := piecesOf own wide warm hi l
    match frameRun own wide warm a with
    | none => rest
    | some r =>
      match rest with
      | p :: ps =>
        if p.first = z ∧ p.cause = r.run.cause ∧ p.listed = r.listed then ⟨a, z - a + p.len, p.cause, p.listed, r.run.lost⟩ :: ps
        else ⟨a, z - a, r.run.cause, r.listed, r.run.lost⟩ :: p :: ps
      | [] => [⟨a, z - a, r.run.cause, r.listed, r.run.lost⟩]

/-- The pieces of an element over received spans for plan channels `chans`. -/
def elemPieces (log : List LogRun) (plan : Nat) (chans : List Nat) (elem : Nat) (spans : List (Nat × Nat)) : List Piece :=
  let mine := log.filter (fun l => decide (l.plan = plan ∧ l.run.elem = elem))
  let wide := mine.filter (fun l => decide (l.pchan = none ∧ l.run.cause ≠ 0))
  let warm := mine.filter (fun l => decide (l.pchan = none ∧ l.run.cause = 0))
  let own := chans.map (fun j => mine.filter (fun l => decide (l.pchan = some j)))
  if mine.isEmpty then []
  else spans.flatMap (fun p => piecesOf own wide warm (p.1 + p.2) (cutPoints p.1 (p.1 + p.2) (mine.map (·.run))))

/-- The lists of a record. -/
structure RecLists where
  entries : Bytes
  gaps : Bytes
  warms : Bytes
  nElem : Nat
  nGap : Nat
  nWarm : Nat
  lost : Nat
  deriving DecidableEq, Repr

/-- The lists over elements in ascending system index. `last` is the last frame of the span. -/
def listsOf (log : List LogRun) (plan : Nat) (chans els : List Nat) (spans : List (Nat × Nat)) (last : Nat) : RecLists :=
  let all := (els.map (fun e => (e, elemPieces log plan chans e spans))).filter (fun p => !p.2.isEmpty)
  let flag (p : Piece) : Nat := b01 (decide (last < p.first + p.len)) + 2 * b01 p.lost
  let gapOf (l : List Piece) : List Piece := l.filter (fun p => decide (p.cause ≠ 0))
  let warmOf (l : List Piece) : List Piece := l.filter (fun p => decide (p.cause = 0))
  let len (l : List Piece) : Nat := (l.map (·.len)).sum
  let gs := all.flatMap (fun x => ((gapOf x.2).filter (·.listed)).map (fun p => (x.1, p)))
  let ws := all.flatMap (fun x => ((warmOf x.2).filter (·.listed)).map (fun p => (x.1, p)))
  { entries := all.flatMap (fun x => le 2 x.1 ++ le 2 (b01 (x.2.any (fun p => !p.listed))) ++ le 4 (len (gapOf x.2)) ++
      le 4 (len (warmOf x.2)) ++ le 4 x.2.length)
    gaps := gs.flatMap (fun x => le 8 x.2.first ++ le 4 x.2.len ++ le 2 x.1 ++ le 1 x.2.cause ++ le 1 (flag x.2))
    warms := ws.flatMap (fun x => le 8 x.2.first ++ le 4 x.2.len ++ le 2 x.1 ++ [0] ++ le 1 (flag x.2))
    nElem := all.length
    nGap := gs.length
    nWarm := ws.length
    lost := (all.map (fun x => (x.2.filter (fun p => !p.listed)).length)).sum }

/-! ## binary32 -/

/-- `v·2^−e` in binary32, rounded convergently; 0 gives +0 (R141, R161). -/
def toF32 (v : Int) (e : Nat) : Nat :=
  let m := v.natAbs
  if m = 0 then 0
  else
    let n := Nat.log2 m
    let r : Nat := if n < 24 then m * 2 ^ (23 - n) else (roundShift m (n - 23)).toNat
    let n' := if r = 2 ^ 24 then n + 1 else n
    let r' := if r = 2 ^ 24 then 2 ^ 23 else r
    b01 (decide (v < 0)) * 2 ^ 31 + (n' + 127 - e) * 2 ^ 23 + (r' - 2 ^ 23)

/-! ## Dump records (R135 to R141) -/

/-- First frame of integration `n` of a pool. -/
def integFrame (q : Pool) (n : Int) : Nat := ((q.activate : Int) + q.stroke * q.integ * n).toNat

/-- The element blocks that tiles `t` to `t + n − 1` name. -/
def tileBlocks (m t n : Nat) : List Nat :=
  (List.range n).foldl (fun l k => let x := tileAt m 0 (t + k); insertNat x.1 (insertNat x.2 l)) []

/-- The system elements of some blocks, in ascending order. -/
def blockElems (p : Plan) (bs : List Nat) : List Nat :=
  let o := planOrds p
  bs.flatMap (fun b => (o.drop (32 * b)).take 32)

/-- A component in a payload format (Table 05-10). -/
def compBytes (fmt fscale : Nat) (x : InkComp) : Bytes :=
  if fmt = 0 then (if x.blot then leS 6 (-(2 ^ 47)) else leS 6 (wrapS 48 x.v))
  else if fmt = 1 then (if x.blot then leS 8 (-(2 ^ 63)) else leS 8 x.v)
  else if x.blot then le 4 0x7FC00001
  else le 4 (toF32 x.v fscale)

/-- An inkwell that received nothing. -/
def Ink.zero : Ink := ⟨⟨0, false⟩, ⟨0, false⟩, false⟩

/-- Missing stroke runs (Table 05-6): one entry per stroke, cause and run of consecutive tiles. -/
def missRuns : List (Nat × Nat × Nat) → List (Nat × Nat × Nat × Nat)
  | [] => []
  | (st, tile, c) :: l =>
    match missRuns l with
    | (st', f, n, c') :: r => if st = st' ∧ c = c' ∧ f = tile + 1 then (st, tile, n + 1, c) :: r else (st, tile, 1, c) :: (st', f, n, c') :: r
    | [] => [(st, tile, 1, c)]

/-- The payload format of a pool's integration (R140). -/
def SchedRun.formatAt (r : SchedRun) (k n : Nat) : Nat × Nat :=
  match (Tab.getD r.formats k []).find? (fun f => decide (f.1 ≤ n)) with
  | some f => f.2
  | none => (0, 0)

/-- The dump header and the sections behind it (Tables 05-4, 05-5). -/
def dumpBody (s : State) (r : SchedRun) (q : Pool) (p : Plan) (o : Readout) : Bytes :=
  let per := max 1 q.perChan
  let chan := q.chanOf o.firstJob
  let t0 := o.firstJob % per
  let f0 := integFrame q o.integ
  let fn := f0 + q.stroke * q.integ - 1
  let fmt := r.formatAt o.pool o.integ
  let miss := missRuns (o.acc.missing.foldl (fun l m => insertBy (fun x => x.1 * 2 ^ 32 + x.2.1) (m.1, m.2.1 % per, m.2.2) l) [])
  let spans := joinSpans (o.acc.got.map (fun g => (f0 + q.stroke * g.1, q.stroke)))
  let els := blockElems p (tileBlocks p.tiles t0 o.jobs)
  let ls := listsOf s.cond.log q.plan [chan] els spans fn
  let cells := o.cells.flatMap (fun c => c.getD (List.replicate 1024 Ink.zero))
  let spilled := cells.zipIdx.filter (fun x => x.1.spilled)
  let blots := (cells.filter (fun x => x.re.blot || x.im.blot)).length
  let lo := (planStamp p f0).toNat
  let sw := planSwitches s q.plan lo (planStamp p fn).toNat
  let exact (x : InkComp) : Int := if x.blot then -(2 ^ 63) else x.v
  let spills := if fmt.1 = 0 then spilled.flatMap (fun x => le 4 x.2 ++ zeros 4 ++ leS 8 (exact x.1.re) ++ leS 8 (exact x.1.im)) else []
  le 1 q.plan ++ le 1 o.pool ++ le 1 fmt.1 ++
    le 1 (b01 (!o.acc.missing.isEmpty) + 2 * b01 (decide (ls.lost ≠ 0)) + 4 * r.sched.warm + 8 * b01 (decide (sw.2 ≠ 0))) ++
    le 4 p.version ++ le 2 r.sched.id ++ le 2 chan ++ le 2 (p.first + chan) ++ le 1 (if fmt.1 = 2 then fmt.2 else 0) ++ zeros 1 ++
    le 8 o.integ ++ le 8 f0 ++ le 8 lo ++ le 4 q.integ ++ le 4 q.stroke ++ le 4 p.size ++ le 4 t0 ++ le 4 o.jobs ++
    le 4 ((o.acc.got.map (·.2)).sum) ++ le 4 miss.length ++ le 4 ls.nElem ++ le 4 ls.nGap ++ le 4 ls.nWarm ++
    le 4 spilled.length ++ le 4 blots ++ le 4 ls.lost ++ le 4 o.acc.epoch ++ leS 8 sw.1 ++ le 4 sw.2 ++ zeros 20 ++
    miss.flatMap (fun m => le 4 m.1 ++ le 4 m.2.1 ++ le 4 m.2.2.1 ++ le 1 m.2.2.2 ++ zeros 3) ++
    ls.entries ++ ls.gaps ++ ls.warms ++ spills ++
    cells.flatMap (fun x => compBytes fmt.1 fmt.2 x.re ++ compBytes fmt.1 fmt.2 x.im)

/-- The record of a readout. -/
def dumpSpec (s : State) (r : SchedRun) (q : Pool) (p : Plan) (o : Readout) : RecSpec :=
  let f0 := integFrame q o.integ
  ⟨0, o.pool, 0x0010, dumpBody s r q p o, r.productOf o.pool (q.chanOf o.firstJob),
    (planStamp p f0).toNat, (planStamp p (f0 + q.stroke * q.integ - 1)).toNat, o.acc.tainted⟩

/-! ## How long the log keeps a run (R138) -/

/-- Key of a segment bank. -/
def segKey (gen pool bank first : Nat) : Nat := (poolKey gen pool * 2 + bank) * 2 ^ 32 + first

/-- Key of a tile bank. -/
def tileKey (gen pool bank job : Nat) : Nat := (poolKey gen pool * 2 + bank) * 2 ^ 32 + job

/-- A segment bank; every token starts one integration of its bank before the first (R132). -/
def segOf (s : State) (gen pool : Nat) (q : Pool) (bank first : Nat) : Segment :=
  Tab.getD s.corr.segs (segKey gen pool bank first) ⟨.read ((bank : Int) - q.banks), []⟩

/-- The integration that a token stands at, or will stand at next. -/
def Token.upcoming (k : Token) (banks : Nat) : Int :=
  match k with
  | .opened n => n
  | .full n => n
  | .read n => n + banks

/-- The next integration of a segment that has not been read out. -/
def nextInteg (s : State) (gen pool : Nat) (q : Pool) (first : Nat) : Int :=
  let a := (segOf s gen pool q 0 first).token.upcoming q.banks
  if q.banks = 2 then min a ((segOf s gen pool q 1 first).token.upcoming 2) else a

/-- Integration `n` of a channel of a pool will be recorded: the pool does not stop inside it, and its strokes are not all shed (R117). -/
def integFormed (r : SchedRun) (pool : Nat) (q : Pool) (chan : Nat) (n : Int) : Bool :=
  (match Tab.get r.stops pool with
  | some h => decide ((q.first : Int) + (n + 1) * q.integ ≤ h)
  | none => true) &&
    !(List.range r.sched.shed.length).any (fun e => r.shedsAll e pool chan (q.first + n * q.integ).toNat q.integ)

/-- A segment still needs a run for a record. -/
def segNeeds (s : State) (r : SchedRun) (k : Nat) (q : Pool) (seg : Nat × Nat) (x : LogRun) : Bool :=
  let c := q.chanOf seg.1
  if x.pchan.isSome && decide (x.pchan ≠ some c) then false
  else
    let waiting := (s.corr.readouts.filter (fun o => decide (o.gen = r.gen ∧ o.pool = k ∧ o.firstJob = seg.1))).map (fun o => (o.integ : Int))
    let stop := x.run.first + x.run.len
    let n := nextInteg s r.gen k q seg.1
    let z : Int := ((stop : Int) - 1 - q.activate) / (Nat.max 1 (q.stroke * q.integ) : Nat)
    let coming := ((List.range (z + 1 - n).toNat).map (fun d => n + d)).filter (integFormed r k q c)
    (waiting ++ coming).any (fun m =>
      decide (integFrame q m < stop ∧ x.run.first < integFrame q (m + 1)) && (match planAt s q.plan (integFrame q m) with
        | none => false
        | some p => (blockElems p (tileBlocks p.tiles (seg.1 % max 1 q.perChan) seg.2)).contains x.run.elem))

/-- The next stroke of a B pool whose records are due. -/
def beamDue (s : State) (r : SchedRun) (k : Nat) (q : Pool) : Nat := Tab.getD s.corr.beamNext (poolKey r.gen k) q.first

/-- A stroke of a pool is run. -/
def strokeRun (r : SchedRun) (k i : Nat) : Bool :=
  match Tab.get r.stops k with
  | some h => decide (i < h)
  | none => true

/-- A pool still needs a run for a record. -/
def poolNeeds (s : State) (r : SchedRun) (k : Nat) (q : Pool) (x : LogRun) : Bool :=
  decide (q.plan = x.plan) && (match x.pchan with
    | some j => q.hasChan j
    | none => true) &&
  (if q.mode = 0 then (segsOfPool r k q).any (fun g => segNeeds s r k q g x)
   else
    let i := beamDue s r k q
    strokeRun r k i && decide (q.stroke * i < x.run.first + x.run.len) && (match Tab.get r.stops k with
      | some h => decide (x.run.first < q.stroke * h)
      | none => true))

/-- Drop the runs that no record of this device must list any more. -/
def trimLog (s : State) : State :=
  { s with cond.log := s.cond.log.filter (fun x => s.corr.scheds.any (fun r => r.sched.pools.zipIdx.any (fun q => poolNeeds s r q.2 q.1 x))) }

end Sys2Proof.Machine
end

