-- ==== Sys2Proof/Machine/Slots.lean ====
section
/-!
DEFINITION. What follows when a slot of an engine ends: slack (R18 to R20), positions (R126), stroke batches (R443 to R445), missing
engine-strokes (R115 to R117), ordering tokens and readouts (R132 to R134), the channel buffer (R106), schedules that have stopped.
-/
namespace Sys2Proof.Machine

/-! ## Engines -/

/-- State of an engine. -/
def engOf (s : State) (e : Nat) : Engine := vget s.corr.eng e Engine.reset

/-- Replace the state of an engine. -/
def setEng (e : Nat) (x : Engine) (s : State) : State := { s with corr.eng := vset s.corr.eng e x }

/-- State of a steward's domain. -/
def domOf (s : State) (d : Nat) : Domain := vget s.mgmt.dom d (Domain.reset false)

/-- Replace the state of a domain. -/
def setDom (d : Nat) (x : Domain) (s : State) : State := { s with mgmt.dom := vset s.mgmt.dom d x }

/-! ## Channel buffer (R106) -/

/-- Every job of a channel of a pool is done for stroke `i`. -/
def chanDone (r : SchedRun) (k : Nat) (q : Pool) (c i : Nat) : Bool :=
  let a := c * q.perChan
  let z := (c + 1) * q.perChan
  decide (i < q.first) || !strokeRun r k i || r.runs.all (fun x =>
    let e := x.entry
    !(decide (e.pool = k ∧ x.lo ≤ i ∧ e.firstJob < z ∧ a < e.firstJob + e.count) && r.within x (i, 0)) ||
      x.isDone (Nat.min z (e.firstJob + e.count) - 1) i)

/-- Every job of every pool that reads stroke `i` of a plan channel is done. -/
def strokeDone (s : State) (plan j i : Nat) : Bool :=
  s.corr.scheds.all (fun r => r.sched.pools.zipIdx.all (fun q =>
    !(decide (q.1.plan = plan) && q.1.hasChan j) || chanDone r q.2 q.1 (j - q.1.firstCh) i))

/-- Free the released strokes that no job needs. -/
def freeBuffers (s : State) : State :=
  { s with chan.owned := s.chan.owned.map (fun p =>
      (p.1, { p.2 with released := p.2.released.map (fun r =>
        (r.1, if strokeDone s (p.1 / 65536) (p.1 % 65536) (keyStroke r.1) then { r.2 with free := true } else r.2)) })) }

/-! ## Stroke batches of the mirror check (R443 to R445) -/

/-- The millisecond of a slot deadline (Table 17-2). -/
def batchOf (deadline : Int) : Nat := (deadline * 1000).toNat / 2 ^ 32

/-- Every slot of millisecond `k` has been applied, skipped or declared. -/
def batchClosed (s : State) (k : Nat) : Bool :=
  s.corr.scheds.all (fun r => r.runs.all (fun x => match r.pool? x.entry.pool with
    | none => true
    | some q => !r.within x x.undone || decide (k < batchOf (deadlineOf s q x.entry x.undone))))

/-- Close the batches that are complete. -/
def closeBatches (s : State) : State :=
  if !s.twinEn then s
  else
    let l := s.twin.batches.filter (fun p => batchClosed s p.1)
    l.foldl (fun s p => addDigest 0 p.2.1 p.1 p.2.2 0 { s with twin.batches := Tab.del s.twin.batches p.1 }) s

/-- The bytes of an applied hand-off (Table 17-2). -/
def handBytes (h : Handoff) (width : Nat) : Bytes :=
  le 1 h.pool ++ le 4 h.job ++ le 8 h.stroke ++ le 4 h.epoch ++ h.sums.flatMap (fun x => leS width x.1 ++ leS width x.2)

/-- Enter an applied hand-off into its batch. -/
def batchAdd (h : Handoff) (width : Nat) (s : State) : State :=
  if s.twinEn then
    let v := (itemHash (handBytes h width)).toNat
    let b : Tab (Nat × Nat) := Tab.mod s.twin.batches (batchOf h.deadline) (0, 0) (fun p => (p.1 + 1, (p.2 + v) % 2 ^ 64))
    let k := batchOf h.deadline
    let hs : Tab (List Handoff) := Tab.mod (s.twin.hands.filter (fun p => decide (s.tw * 1000 < (p.1 + 4001) * 2 ^ 32))) k []
      (fun l => l ++ [{ h with sums := [] }])
    { s with twin.batches := b, twin.hands := hs }
  else s

/-! ## Positions -/

/-- A slot belongs to the batch of its deadline, whether it is applied or declared unserved (R445). -/
def openBatch (gen k : Nat) (pos : Nat × Nat) (s : State) : State :=
  match (schedOf s gen).bind (fun r => (r.runs[k]?).bind (fun x => (r.pool? x.entry.pool).map (fun q => (x, q)))) with
  | some (x, q) =>
    if s.twinEn then { s with twin.batches := Tab.mod s.twin.batches (batchOf (deadlineOf s q x.entry pos)) (0, 0) id } else s
  | none => s

/-- A position of a run is done. -/
def markDone (gen k : Nat) (pos : Nat × Nat) (s : State) : State :=
  openBatch gen k pos <| setRunOf gen k (fun x => { x with done := some pos, next := if posLt pos x.next then x.next else posNext x.entry.count pos }) s

/-- The re-runs of a fence that end with a position of a run: their window closes (Table 17-7). -/
def endReruns (gen k : Nat) (pos : Nat × Nat) (s : State) : State :=
  let hit (x : Nat × Nat × Nat × Nat × Nat) : Bool :=
    decide (x.2.1 = gen ∧ x.2.2.1 = k) && !posLt pos (x.2.2.2.1, x.2.2.2.2)
  let l := s.corr.reruns.filter hit
  let s := { s with corr.reruns := s.corr.reruns.filter (fun x => !hit x) }
  l.foldl (fun s x => if s.corr.reruns.any (fun y => decide (y.1 = x.1)) then s else closeRecovery 3 x.1 s.tw s) s

/-! ## Slack (R18 to R20) -/

/-- One engine-stroke of a domain has completed with a slack and a period, in ticks. -/
def countSlack (e : Nat) (slack : Int) (period : Nat) (s : State) : State :=
  let d := engineDomain e
  let m := domOf s d
  let late := decide (slack < 0)
  let m := { m with
    miss := if late then bump 32 m.miss 1 else m.miss
    slacks := if m.stepAt.isSome then m.slacks else ((slack, period) :: m.slacks).take 64
    since := m.since + 1
    asked := m.asked + 1 }
  let x := engOf s e
  let s := setDom d m (setEng e { x with miss := if late then bump 32 x.miss 1 else x.miss } s)
  let s := monSample 0 (256 + d) (toNs slack) (monSample 0 e (toNs slack) s)
  { s with corr.scheds := s.corr.scheds.map (fun r => match r.hold with
      | some h => if h.started ∧ h.domain = d then
          { r with hold := if h.left ≤ 1 then none else some { h with left := h.left - 1 } } else r
      | none => r) }

/-! ## Segments -/

/-- Replace a segment bank. -/
def setSeg (gen k bank first : Nat) (x : Segment) (s : State) : State :=
  { s with corr.segs := Tab.put s.corr.segs (segKey gen k bank first) x }

/-- The bank of integration `n`. -/
def Pool.bankOf (q : Pool) (n : Nat) : Nat := if q.dump = 1 then n % 2 else 0

/-- An integration of a segment bank. -/
def Segment.acc (x : Segment) (n : Nat) : SegAcc := Tab.getD x.accs n SegAcc.empty

/-- The entries in force for a job in a stroke: the run that serves it. -/
def SchedRun.runFor (r : SchedRun) (k job i : Nat) : Option EntryRun := r.runs.find? (fun x => r.serves x k job i)

/-- The main entry of a job. -/
def SchedRun.mainFor (r : SchedRun) (k job : Nat) : Option EngEntry :=
  r.sched.entries.find? (fun e => decide (e.pool = k ∧ e.firstJob ≤ job ∧ job < e.firstJob + e.count))

/-- Deadline of a job's slot in a stroke, under the entries in force, else under the main entries. -/
def jobDeadline (s : State) (r : SchedRun) (k : Nat) (q : Pool) (job i : Nat) : Option Int :=
  (r.runFor k job i).map (fun x => deadlineOf s q x.entry (i, job - x.entry.firstJob))

/-- The first key of R135 for integration `n` of a segment; a segment without a slot keeps the key of its main entries. -/
def dumpKey (s : State) (r : SchedRun) (k : Nat) (q : Pool) (seg : Nat × Nat) (n : Int) : Int :=
  let i := (q.first + (n + 1) * q.integ - 1).toNat
  let jobs := (List.range seg.2).map (· + seg.1)
  let ds := jobs.filterMap (fun j => jobDeadline s r k q j i)
  let ds := if ds.isEmpty then
      jobs.filterMap (fun j => (r.mainFor k j).map (fun e => deadlineOf s q e (i, j - e.firstJob)))
    else ds
  match ds with
  | a :: l => l.foldl max a
  | [] => 0

/-- The earliest due time among the slots that run a segment's jobs in the first stroke of integration `n` (R127). Where no slot runs them in
that stroke, because the fallback in force leaves them out or the pool stops before it, the release of the stroke stands in (DESIGN CHOICE, log
entry 120). -/
def firstDue (s : State) (r : SchedRun) (k : Nat) (q : Pool) (seg : Nat × Nat) (n : Int) : Int :=
  let i := (q.first + n * q.integ).toNat
  let ds := (List.range seg.2).filterMap (fun j => (r.runFor k (seg.1 + j) i).map (fun x =>
    dueOf s q x.entry (i, seg.1 + j - x.entry.firstJob)))
  match ds with
  | a :: l => l.foldl min a
  | [] => relOf s q i

/-- The inkwells of a segment with a byte in 32-byte word `w` of its tiles (R122, Table 14-4). -/
def wordInks (w : Nat) : List Nat := (List.range ((32 * w + 31) / 12 + 1 - 32 * w / 12)).map (· + 32 * w / 12)

/-- An inkwell whose components both take the blot code. -/
def Ink.poison (x : Ink) : Ink := { x with re := ⟨0, true⟩, im := ⟨0, true⟩ }

/-- Blot the inkwells that words of poisoned data hold; `base` is the number of the first inkwell of the list. A read of `n` tiles counts their
384 words each, then the spill entries of their inkwells: one that cannot be corrected blots its inkwell (R363, log entry 130). -/
def poisonInks (ecc : List Ecc) (n base : Nat) (l : List Ink) : List Ink :=
  let bad := (ecc.filter (fun e => !e.corrected)).map (·.word)
  let inks := (bad.filter (fun w => decide (w < 384 * n))).flatMap wordInks
  let ents := bad.filter (fun w => decide (384 * n ≤ w))
  if bad.isEmpty then l
  else l.zipIdx.map (fun x =>
    if inks.contains (base + x.2) || (x.1.spilled && ents.contains (384 * n + base + x.2)) then x.1.poison else x.1)

/-- What the record of a readout takes in staging. -/
def dumpSize (s : State) (r : SchedRun) (q : Pool) (o : Readout) : Nat :=
  match planAt s q.plan (integFrame q o.integ) with
  | some p => padHbm ((dumpBody s r q p o).length + 96)
  | none => 0

/-- The record of a readout waits in staging for its place in the order (R135). An outlet that has no room for it will drop it (R28, R393);
it takes no room when every outlet does. -/
def stageDump (r : SchedRun) (q : Pool) (o : Readout) (s : State) : State :=
  let n := dumpSize s r q o
  let outs := nextOutlets s 0 o.pool
  let s := shadowRoom n outs s
  let denied := outs.filter (fun x => noRoom s x n n)
  { s with corr.readouts := s.corr.readouts ++ [{ o with
      size := if outs.all (fun x => denied.contains x) then 0 else n
      denied := denied }] }

/-- The readout of every inkwell of a full segment bank completes (R132): its spill entries are released, the token moves to READ, and
its dump waits for its place. Nothing is kept of an integration whose every stroke was shed (R117, R125). The entries become grantable for
deadlines from the first stroke of the bank's next integration on, in double-buffer mode that of n + 2 (DESIGN CHOICE, log entry 108). -/
def readout (gen k bank : Nat) (seg : Nat × Nat) (ecc : List Ecc) (s : State) : State :=
  match schedOf s gen with
  | none => s
  | some r =>
    match r.pool? k with
    | none => s
    | some q =>
      let x := segOf s gen k q bank seg.1
      match x.token with
      | .full n =>
        let acc := x.acc n.toNat
        let key (j : Nat) : Nat := tileKey gen k bank (seg.1 + j)
        let cells := (List.range seg.2).map (fun j => match Tab.get s.corr.tiles (key j) with
          | some t => if t.integ = n then some (poisonInks ecc seg.2 (1024 * j) t.cells) else none
          | none => none)
        let spills := ((cells.filterMap id).map (fun l => (l.filter (·.spilled)).length)).sum
        let s := { s with
          corr.tiles := (List.range seg.2).foldl (fun t j => Tab.del t (key j)) s.corr.tiles
          corr.spillUsed := s.corr.spillUsed - spills
          corr.spillHeld := if spills = 0 then s.corr.spillHeld else s.corr.spillHeld ++ [⟨gen, k, seg.1, (n + q.banks).toNat, spills⟩] }
        let s := setSeg gen k bank seg.1 ⟨.read n, Tab.del x.accs n.toNat⟩ s
        let got := (acc.got.map (·.2)).sum
        if got = 0 && acc.missing.all (fun m => decide (m.2.2 = 2)) then s
        else
          let acc := { acc with tainted := acc.tainted || poisonedIn ecc }
          stageDump r q ⟨dumpKey s r k q seg n, gen, k, seg.1, seg.2, n.toNat, acc, cells, s.tw, s.now, 0, []⟩ s
      | _ => s

/-- Move a token as Table 05-3 says, as far as it goes: an integration that received no stroke is read out at once, and the next may be another
such. -/
def advanceSegN : Nat → (gen k bank : Nat) → (seg : Nat × Nat) → (q : Pool) → State → State
  | 0, _, _, _, _, _, s => s
  | fuel + 1, gen, k, bank, seg, q, s =>
    let x := segOf s gen k q bank seg.1
    match x.token with
    | .opened n =>
      if (x.acc n.toNat).last.length = seg.2 then setSeg gen k bank seg.1 { x with token := .full n } s else s
    | .read n =>
      let m := n + q.banks
      if (x.acc m.toNat).missing.length = seg.2 * q.integ then
        advanceSegN fuel gen k bank seg q (readout gen k bank seg [] (setSeg gen k bank seg.1 { x with token := .full m } s))
      else s
    | .full _ => s

/-- Move a token: every integration it passes has an account. -/
def advanceSeg (gen k bank : Nat) (seg : Nat × Nat) (q : Pool) (s : State) : State :=
  advanceSegN ((segOf s gen k q bank seg.1).accs.length + 1) gen k bank seg q s

/-- Change the account of the integration that holds stroke `i` for a job's segment. -/
def modAcc (r : SchedRun) (k : Nat) (q : Pool) (job i : Nat) (f : Nat → SegAcc → SegAcc) (s : State) : State :=
  let seg := segOfJob r k q job
  let n := q.integOf i
  let st := (i - q.first) % max 1 q.integ
  let bank := q.bankOf n
  let x := segOf s r.gen k q bank seg.1
  let a := f st (x.acc n)
  let a := if st + 1 = q.integ then { a with last := if a.last.contains job then a.last else a.last ++ [job] } else a
  advanceSeg r.gen k bank seg q (setSeg r.gen k bank seg.1 { x with accs := Tab.put x.accs n a } s)

/-- Key of a beam block of a stroke. -/
def beamKey (gen k i c b : Nat) : Nat := (poolKey gen k * 2 ^ 48 + i) * 2 ^ 32 + c * 2 ^ 12 + b

/-- An engine-stroke that no engine runs: cause 1 unserved, 2 shed (R115 to R117, R160). -/
def missJob (r : SchedRun) (k : Nat) (q : Pool) (job i cause : Nat) (s : State) : State :=
  if q.mode = 0 then modAcc r k q job i (fun st a => { a with missing := a.missing ++ [(st, job, cause)] }) s
  else match poolPlan s q i with
    | none => s
    | some p =>
      let ns := max 1 p.sections
      let key := beamKey r.gen k i (q.chanPos job) (job % max 1 q.perChan / ns)
      let a := Tab.getD s.corr.beamAcc key BeamAcc.empty
      let a := { a with sections := Tab.put a.sections (job % ns) none, missing := if a.missing = 0 then cause else a.missing }
      { s with corr.beamAcc := Tab.put s.corr.beamAcc key a }

/-- The released buffer of a plan channel's stroke. -/
def relBuf (s : State) (plan j : Nat) (p : Plan) (i : Nat) : Option StrokeBuf :=
  (Tab.get (pchanOf s plan j).released (strokeKey p.vid i)).map (·.buf)

/-- A slot of a stroke has ended: the arrival of its inputs and, when it wrote back, its instant (Table 16-8 kind 1). -/
def noteArrival (gen k i at_ : Nat) (wrote : Bool) (s : State) : State :=
  match schedOf s gen with
  | none => s
  | some r => setSched { r with
      arrived := Tab.mod r.arrived (k * 2 ^ 48 + i) (0, none) (fun x => (Nat.max x.1 at_, if wrote then some s.now else x.2)) } s

/-- Once every slot of a stroke of an X pool has ended: from the latest arrival over the pool's channels to the last write-back (Table 16-8
kind 1). -/
def inkLatency (gen k : Nat) (q : Pool) (i : Nat) (s : State) : State :=
  match schedOf s gen with
  | none => s
  | some r =>
    if (List.range q.channels).all (fun c => chanDone r k q c i) then
      let t := setSched { r with arrived := Tab.del r.arrived (k * 2 ^ 48 + i) } s
      match Tab.get r.arrived (k * 2 ^ 48 + i) with
      | some (a, some w) => monSample 1 k (toNs ((w : Int) - a)) t
      | _ => t
    else s

/-- A slot of an X pool was missed: its inputs count as arrived, and it may be the last of its stroke. -/
def missArrival (gen k : Nat) (q : Pool) (job i : Nat) (s : State) : State :=
  if q.mode = 0 then
    let j := q.chanOf job
    let at_ := (((planAt s q.plan (q.stroke * i)).bind (fun p => relBuf s q.plan j p i)).map (·.lastAt)).getD 0
    inkLatency gen k q i (noteArrival gen k i at_ false s)
  else s

/-- Declare a position of a run missing, and move past it. -/
def missSlot (gen k pool job : Nat) (pos : Nat × Nat) (cause : Nat) (s : State) : State :=
  match schedOf s gen with
  | none => s
  | some r => match r.pool? pool with
    | none => s
    | some q =>
      closeBatches (endReruns gen k pos (missArrival gen pool q job pos.1 (missJob r pool q job pos.1 cause (markDone gen k pos s))))

/-! ## Schedules that have stopped -/

/-- Every run of a schedule has ended and nothing of it is still to be recorded. -/
def schedOver (s : State) (r : SchedRun) : Bool :=
  r.sched.pools.zipIdx.all (fun q => match Tab.get r.stops q.2 with
    | none => false
    | some h => r.runs.all (fun x => decide (x.entry.pool ≠ q.2) || !r.within x x.undone) &&
        (decide (q.1.mode = 0) || decide (h ≤ beamDue s r q.2 q.1))) &&
    !s.corr.readouts.any (fun o => decide (o.gen = r.gen)) &&
    r.sched.pools.zipIdx.all (fun q => decide (q.1.mode = 1) || (segsOfPool r q.2 q.1).all (fun g =>
      (List.range q.1.banks).all (fun b => match (segOf s r.gen q.2 q.1 b g.1).token with
        | .full _ => false
        | _ => true)))

/-- Free the storage of schedules whose last pool has stopped (R383). Spill entries of an integration that a takeover cuts stay counted: no
readout releases them (R128; DESIGN CHOICE, log entry 109). -/
def dropScheds (s : State) : State :=
  let ended := s.corr.scheds.filter (schedOver s)
  if ended.isEmpty then s
  else
    let gone (gen : Nat) : Bool := ended.any (fun r => decide (r.gen = gen))
    let s := { s with corr := { s.corr with
      scheds := s.corr.scheds.filter (fun r => !gone r.gen)
      tiles := s.corr.tiles.filter (fun t => !gone (t.1 / 2 ^ 39))
      segs := s.corr.segs.filter (fun t => !gone (t.1 / 2 ^ 39))
      beamAcc := s.corr.beamAcc.filter (fun t => !gone (t.1 / 2 ^ 86))
      beamOut := s.corr.beamOut.filter (fun t => !gone (t.1 / 2 ^ 86)) } }
    ended.foldl (fun s r => if s.corr.scheds.any (fun x => decide (x.sched.id = r.sched.id)) then s else cfgDel 3 r.sched.id s) s

/-- A position of a run is settled: everything that follows. -/
def afterSlot (s : State) : State := trimLog (dropScheds (freeBuffers s))

/-- An applied engine-stroke: its slack, its batch, its re-run. `width` is the bytes of a sum component. -/
def slotDone (h : Handoff) (width : Nat) (s : State) : State :=
  let stop : Int := if h.held then s.tw else h.at_
  let s := countSlack h.engine (h.deadline - stop) (h.deadline - h.due).toNat s
  let s := endReruns h.gen h.run (h.stroke, h.slot) (markDone h.gen h.run (h.stroke, h.slot) s)
  closeBatches (batchAdd h width s)

end Sys2Proof.Machine
end

