-- ==== Sys2Proof/Machine/Ink.lean ====
section
/-!
DEFINITION. Inkwells, the spill table and dump records (05_inkwells.md).
-/
namespace Sys2Proof.Machine

/-! ## Places (R122, R123) -/

/-- Bytes of a pool's inkwells. -/
def Pool.inkBytes (q : Pool) : Nat := if q.mode = 0 then q.jobs * 12288 * (1 + q.dump) else 0

/-- Offset of a pool within its inkwell region. -/
def poolBase (r : SchedRun) (k : Nat) (ink : Nat) : Nat :=
  (((r.sched.pools.take k).filter (fun q => decide (q.ink = ink))).map Pool.inkBytes).sum

/-- HBM address of a tile of an HBM pool. -/
def tileAddr (s : State) (r : SchedRun) (k : Nat) (q : Pool) (bank job : Nat) : Nat :=
  regionBase s 6 + poolBase r k 0 + (bank * q.jobs + job) * 12288

/-- `n` tiles read from `base` on through a port (Table 14-2): the request, of a readout in the escape class (R24), and the ECC reports. Hub
inkwells are not in HBM. -/
def inkEcc (q : Pool) (port n base : Nat) (l : List Ecc) (s : State) : State :=
  if q.ink = 0 then
    let s := hbmRequest port (if port = 1 then .escape else .reads) base s
    (l.filter (fun e => decide (e.word < 384 * n))).foldl (fun s e => eccWord port (base + 32 * e.word) e.corrected s) s
  else s

/-- The write-back of a tile, an escape-class request (R24). -/
def inkWrite (q : Pool) (base : Nat) (s : State) : State :=
  if q.ink = 0 then hbmWritten base 12288 (hbmRequest 0 .escape base s) else s

/-- What a read of `n` tiles from `base` on is told: of the words of HBM inkwells, and of the spill entries behind them. -/
def inkWords (s : State) (q : Pool) (n base : Nat) (l : List Ecc) : List Ecc :=
  let spills := l.filter (fun e => decide (384 * n ≤ e.word))
  if q.ink = 0 then eccSeen s (fun w => base + 32 * w) 0 (384 * n) (l.filter (fun e => decide (e.word < 384 * n))) ++ spills else spills

/-- A pair is open on one of `n` tiles from `base` on: a read of it waits (R356). -/
def inkBusy (s : State) (q : Pool) (n base : Nat) : Bool :=
  decide (q.ink = 0) && (List.range n).any (fun j => tileOpen s ((base - regionBase s 6) / 12288 + j))

/-! ## The spill table (R127 to R130) -/

/-- Entries of the spill table, 8 B each (Table 14-5). -/
def spillSize : Nat := hubSize 3 / 8

/-- The deadline from which released entries are grantable, under the entries in force now; those of a schedule that is gone are free. -/
def HeldSpill.due (p : HeldSpill) (s : State) : Int :=
  match schedOf s p.gen with
  | none => 0
  | some r => match r.pool? p.pool with
    | none => 0
    | some q => firstDue s r p.pool q (segOfJob r p.pool q p.firstJob) p.integ

/-- Entries that a request with slot deadline `d` may take: the free ones, less those released for later deadlines. -/
def spillFor (s : State) (d : Int) : Nat :=
  spillSize - s.corr.spillUsed - ((s.corr.spillHeld.filter (fun p => decide (d < p.due s))).map (·.count)).sum

/-- Take one entry out of the first released entries that `ok` picks, if there are any. -/
def takeHeld (ok : HeldSpill → Bool) : List HeldSpill → List HeldSpill
  | [] => []
  | p :: l => if ok p then (if p.count ≤ 1 then l else { p with count := p.count - 1 } :: l) else p :: takeHeld ok l

/-- Grant an entry: the first grant after a refusal is reported (R130). -/
def spillGrant (h : Handoff) (s : State) : State :=
  let s := { s with corr.spillUsed := s.corr.spillUsed + 1, corr.spillHeld := takeHeld (fun p => decide (p.due s ≤ h.deadline)) s.corr.spillHeld }
  if s.corr.spillRefused then
    postEvent 0x11 (engSubject h.engine) (le 4 s.corr.blotsSince) { s with corr.spillRefused := false, corr.blotsSince := 0 }
  else s

/-- Refuse an entry: the first refusal is reported (R130); the component is blotted. -/
def spillRefuse (h : Handoff) (s : State) : State :=
  let s := if s.corr.spillRefused then s
    else postEvent 0x10 (engSubject h.engine) (le 1 h.pool ++ zeros 3 ++ le 4 h.job) { s with corr.spillRefused := true }
  { s with corr.blotsSince := bump 32 s.corr.blotsSince 1 }

/-- The answer to a request at its place in the order of R127. -/
def spillDecide (h : Handoff) (s : State) : Bool × State :=
  if 0 < spillFor s h.deadline then (true, spillGrant h s) else (false, spillRefuse h s)

/-- A request as it arrives: answered at once while at least 65,536 entries are free to it, otherwise it waits for its turn. Entries that a
readout has released for later deadlines are not free to it yet (DEDUCED, log entry 26). -/
def spillAsk (h : Handoff) (s : State) : Option Bool × State :=
  if 65536 ≤ spillFor s h.deadline then
    let r := spillDecide h s
    (some r.1, r.2)
  else (none, s)

/-! ## Applying sums (R125) -/

/-- The plain range of a component. -/
def inPlain (v : Int) : Bool := decide (-(2 ^ 47 - 1 : Int) ≤ v ∧ v ≤ 2 ^ 47 - 1)

/-- A component takes a sum without needing an entry. -/
def fits (x : InkComp) (spilled : Bool) (d : Int) : Bool := x.blot || spilled || inPlain (x.v + d)

/-- Add to a component that is not blotted. -/
def InkComp.add (x : InkComp) (d : Int) : InkComp := if x.blot then x else { x with v := x.v + d }

/-- What a step of an update found: the inkwell, and whether it stopped for a request. -/
abbrev InkStep := Ink × Bool × State

/-- Apply one component (0 real, 1 imaginary) of a sum. `dec` is the answer to a request that waited here. -/
def applyComp (c : Nat) (dec : Option Bool) (h : Handoff) (x : Ink) (d : Int) (s : State) : InkStep :=
  let y := if c = 0 then x.re else x.im
  let put (z : InkComp) (x : Ink) : Ink := if c = 0 then { x with re := z } else { x with im := z }
  if fits y x.spilled d then (put (y.add d) x, false, s)
  else
    let a : Option Bool × State := match dec with
      | some b => (some b, s)
      | none => spillAsk h s
    match a.1 with
    | some true => (put (y.add d) { x with spilled := true }, false, a.2)
    | some false => (put ⟨0, true⟩ x, false, a.2)
    | none => (x, true, a.2)

/-- Apply the sums to the inkwells from nib `nib`, component `comp` on. The answer is the inkwells, where it stopped, and the state. -/
def applyNibs (h : Handoff) : List (Ink × (Int × Int)) → Nat → Nat → Option Bool → State → List Ink × Option (Nat × Nat) × State
  | [], _, _, _, s => ([], none, s)
  | (x, d) :: l, nib, comp, dec, s =>
    let a : InkStep := if comp = 0 then applyComp 0 dec h x d.1 s else (x, false, s)
    if a.2.1 then (a.1 :: l.map (·.1), some (nib, 0), a.2.2)
    else
      let b := applyComp 1 (if comp = 0 then none else dec) h a.1 d.2 a.2.2
      if b.2.1 then (b.1 :: l.map (·.1), some (nib, 1), b.2.2)
      else
        let r := applyNibs h l (nib + 1) 0 none b.2.2
        (b.1 :: r.1, r.2.1, r.2.2)

/-- The update of a hand-off is complete. -/
def finishUpdate (h : Handoff) (s : State) : State :=
  let e := engOf s h.engine
  let s := if e.out = some h then setEng h.engine { e with out := none } s else s
  match schedOf s h.gen with
  | none => s
  | some r => match r.pool? h.pool with
    | none => s
    | some q =>
      let s := slotDone h 5 s
      let s := modAcc r h.pool q h.job h.stroke (fun st a => { a with
        got := Tab.add a.got st 1
        epoch := if a.got.all (fun g => decide (g.1 ≤ st)) then h.epoch else a.epoch
        tainted := a.tainted || h.tainted }) s
      afterSlot (inkLatency h.gen h.pool q h.stroke (noteArrival h.gen h.pool h.stroke h.inputAt true s))

/-- Apply a hand-off's sums from a place on, and note where it stopped. -/
def runUpdate (h : Handoff) (key : Nat) (nib comp : Nat) (dec : Option Bool) (s : State) : State :=
  match Tab.get s.corr.tiles key with
  | none => s
  | some t =>
    let l := t.cells.zip h.sums
    let r := applyNibs h (l.drop nib) nib comp dec s
    let s := r.2.2
    let s := { s with corr.tiles := Tab.put s.corr.tiles key { t with cells := t.cells.take nib ++ r.1 } }
    match r.2.1 with
    | some p => { s with corr.updating := s.corr.updating ++ [⟨{ h with held := true }, p.1, p.2⟩] }
    | none => finishUpdate h s

/-- The token of a job's segment allows an update of integration `n` (R133, R134). -/
def tokenAllows (x : Segment) (q : Pool) (n : Nat) : Bool :=
  match x.token with
  | .opened m => decide (m = n)
  | .read m => decide (m + q.banks = (n : Int))
  | .full _ => false

/-- Apply the update that the output stage of an engine holds (R125, R126, R133). -/
def applyUpdate (h : Handoff) (r : SchedRun) (q : Pool) (ecc : List Ecc) (s : State) : State :=
  let n := q.integOf h.stroke
  let bank := q.bankOf n
  let seg := segOfJob r h.pool q h.job
  let x := segOf s h.gen h.pool q bank seg.1
  let e := engOf s h.engine
  if !tokenAllows x q n then
    if h.held then s
    else setEng h.engine { e with out := some { h with held := true } }
      { s with corr.stalls := Tab.add s.corr.stalls (poolKey h.gen h.pool * 256 + h.engine) 1 }
  else
    let x := match x.token with
      | .read _ => { x with token := Token.opened n }
      | _ => x
    let s := setSeg h.gen h.pool bank seg.1 x s
    let key := tileKey h.gen h.pool bank h.job
    let old := match Tab.get s.corr.tiles key with
      | some t => if t.integ = n then some t else none
      | none => none
    match old with
    | none =>
      let cells := h.sums.map (fun d => (⟨⟨d.1, false⟩, ⟨d.2, false⟩, false⟩ : Ink))
      finishUpdate h (inkWrite q (tileAddr s r h.pool q bank h.job) { s with corr.tiles := Tab.put s.corr.tiles key ⟨n, cells⟩ })
    | some t =>
      let a := tileAddr s r h.pool q bank h.job
      let ecc := inkWords s q 1 a ecc
      let s := inkWrite q a (inkEcc q 0 1 a ecc s)
      let h := { h with tainted := h.tainted || poisonedIn ecc }
      let s := setEng h.engine { engOf s h.engine with out := some h } s
      let s := { s with corr.tiles := Tab.put s.corr.tiles key { t with cells := poisonInks ecc 1 0 t.cells } }
      runUpdate h key 0 0 none s

/-- The read of the tile that a hand-off updates must wait for an open pair (R356). The first write of an integration reads nothing. -/
def updateBusy (s : State) (h : Handoff) (r : SchedRun) (q : Pool) : Bool :=
  let n := q.integOf h.stroke
  let bank := q.bankOf n
  (Tab.get s.corr.tiles (tileKey h.gen h.pool bank h.job)).any (fun t => decide (t.integ = (n : Int))) &&
    inkBusy s q 1 (tileAddr s r h.pool q bank h.job)

/-- INKWELL_UPDATE (R125, R126, R133, R356): an update waits for its token and for an open pair of its tile, a duplicate is counted and
discarded. -/
def execInkwellUpdate (t : Tick) (engine : Fin 256) (ecc : List Ecc) (s : State) : Host.Outcome State Fault Refusal :=
  let s := s.advance t
  let e := engOf s engine.val
  match e.out with
  | none => .next s
  | some h =>
    if s.corr.updating.any (fun u => decide (u.hand.engine = engine.val)) then .next s
    else match schedOf s h.gen with
      | none => .next (setEng engine.val { e with out := none } s)
      | some r => match r.pool? h.pool, r.runs[h.run]? with
        | some q, some x =>
          if (match x.done with
              | some d => !posLt d (h.stroke, h.slot)
              | none => false) then
            .next (setEng engine.val { e with out := none, dup := bump 32 e.dup 1 } s)
          else if updateBusy s h r q then .next s
          else .next (applyUpdate h r q ecc s)
        | _, _ => .next (setEng engine.val { e with out := none } s)

/-! ## Serialised grants (R127) -/

/-- Order of requests: deadline, engine, nib, component. -/
def reqLt (a b : Updating) : Bool :=
  decide (a.hand.deadline < b.hand.deadline ∨ (a.hand.deadline = b.hand.deadline ∧
    (a.hand.engine < b.hand.engine ∨ (a.hand.engine = b.hand.engine ∧ a.nib * 2 + a.comp < b.nib * 2 + b.comp))))

/-- A request with an earlier key can still be made: some slot with an earlier deadline has neither applied nor been declared. -/
def earlierCan (s : State) (u : Updating) : Bool :=
  s.corr.scheds.any (fun r => r.runs.any (fun x => match r.pool? x.entry.pool with
    | none => false
    | some q =>
      let d := deadlineOf s q x.entry x.undone
      decide (q.mode = 0) && r.within x x.undone && decide (d < u.hand.deadline ∨ (d = u.hand.deadline ∧ x.entry.engine < u.hand.engine))))

/-- The request with the least key. -/
def firstReq (l : List Updating) : Option Updating :=
  l.foldl (fun (b : Option Updating) u => match b with
    | none => some u
    | some v => if reqLt u v then some u else some v) none

/-- SPILL_GRANT (R127, R129): the request with the earliest key, once no earlier one can come. -/
def execSpillGrant (t : Tick) (s : State) : Host.Outcome State Fault Refusal :=
  let s := s.advance t
  match firstReq s.corr.updating with
  | none => .next s
  | some u =>
    if earlierCan s u then .next s
    else
      let r := spillDecide u.hand s
      let s := { r.2 with corr.updating := r.2.corr.updating.filter (fun v => decide (v ≠ u)) }
      match schedOf s u.hand.gen with
      | none => .next s
      | some c => match c.pool? u.hand.pool with
        | none => .next s
        | some q =>
          let e := engOf s u.hand.engine
          let s := setEng u.hand.engine { e with out := some u.hand } s
          .next (runUpdate u.hand (tileKey u.hand.gen u.hand.pool (q.bankOf (q.integOf u.hand.stroke)) u.hand.job) u.nib u.comp
            (some r.1) s)

/-! ## Readouts (R132) -/

/-- The schedule with a full segment bank of a pool that starts at a job. -/
def fullSegment (s : State) (pool firstJob bank : Nat) : Option (SchedRun × Pool) :=
  s.corr.scheds.findSome? (fun r => match r.pool? pool with
    | none => none
    | some q =>
      if q.mode = 0 ∧ bank < q.banks ∧ (segOfJob r pool q firstJob).1 = firstJob then
        (match (segOf s r.gen pool q bank firstJob).token with
        | .full _ => some (r, q)
        | _ => none)
      else none)

/-- SEGMENT_READOUT_DONE (R132): the readout of a full segment of a pool completes, once no pair is open on its tiles (R356). -/
def execSegmentReadoutDone (t : Tick) (pool firstJob bank : Nat) (ecc : List Ecc) (s : State) : Host.Outcome State Fault Refusal :=
  let s := s.advance t
  match fullSegment s pool firstJob bank with
  | none => .next s
  | some (r, q) =>
    let seg := segOfJob r pool q firstJob
    let a := tileAddr s r pool q bank firstJob
    let ecc := inkWords s q seg.2 a ecc
    let s' := inkEcc q 1 seg.2 a ecc s
    if inkBusy s q seg.2 a then .next s
    else .next (afterSlot (advanceSeg r.gen pool bank seg q (readout r.gen pool bank seg ecc s')))

/-! ## Dump records (R135 to R141) -/

/-- Order of dumps (R135). -/
def dumpLt (a b : Int × Nat × Nat) : Bool :=
  decide (a.1 < b.1 ∨ (a.1 = b.1 ∧ (a.2.1 < b.2.1 ∨ (a.2.1 = b.2.1 ∧ a.2.2 < b.2.2))))

/-- The keys of a readout. -/
def Readout.keys (o : Readout) : Int × Nat × Nat := (o.key, o.pool, o.firstJob)

/-- A record with an earlier key is still to come: that of the next integration of a segment that will be recorded. -/
def earlierDump (s : State) (o : Readout) : Bool :=
  s.corr.scheds.any (fun r => r.sched.pools.zipIdx.any (fun q => decide (q.1.mode = 0) && (segsOfPool r q.2 q.1).any (fun g =>
    let next := ((List.range 64).map (fun d => nextInteg s r.gen q.2 q.1 g.1 + d)).find? (integFormed r q.2 q.1 (q.1.chanOf g.1))
    next.any (fun n => dumpLt (dumpKey s r q.2 q.1 g n, q.2, g.1) o.keys))))

/-- The readout whose dump has the earliest keys. -/
def leastDump (s : State) : Option Readout :=
  s.corr.readouts.foldl (fun (b : Option Readout) o => match b with
    | none => some o
    | some x => if dumpLt o.keys x.keys then some o else some x) none

/-- A readout has been recorded. -/
def dropReadout (o : Readout) (s : State) : State :=
  { s with corr.readouts := s.corr.readouts.filter (fun x => decide (x.keys ≠ o.keys ∨ x.gen ≠ o.gen)) }

/-- DUMP_RECORD (R135, R139): the dump with the earliest keys is recorded, once no earlier one can come. -/
def execDumpRecord (t : Tick) (s : State) : Host.Outcome State Fault Refusal :=
  let s := s.advance t
  match leastDump s with
  | none => .next s
  | some o =>
    if earlierDump s o then .next s
    else match schedOf s o.gen with
      | none => .next s
      | some r => match r.pool? o.pool with
        | none => .next s
        | some q => match planAt s q.plan (integFrame q o.integ) with
          | none => .next s
          | some p => .next (afterSlot (formRecordBut o.denied o.time o.at_ (dumpSpec s r q p o) (dropReadout o s)))

end Sys2Proof.Machine
end

