-- ==== Sys2Proof/Machine/Beam.lean ====
section
/-!
DEFINITION. Beamforming (06_beamforming.md): beam sets, taper and weight tables, the focus generator, beam sums, the beam output stage,
beam records, the set switch.
-/
namespace Sys2Proof.Machine

/-! ## The focus generator (R148 to R151, R156) -/

/-- A point read at offset `o`. -/
def parseP3 (b : Bytes) (o : Nat) : P3 := ⟨fieldS b o 4, fieldS b (o + 4) 4, fieldS b (o + 8) 4⟩

/-- Focal point and speed of beam `b` of a set. -/
def BeamSet.focus (t : BeamSet) (b : Nat) : Focus :=
  match t.grid with
  | some g =>
    let u : Int := b % max 1 g.nu
    let v : Int := b / max 1 g.nu
    ⟨⟨g.o.x + u * g.u.x + v * g.v.x, g.o.y + u * g.u.y + v * g.v.y, g.o.z + u * g.u.z + v * g.v.z⟩, g.speed⟩
  | none => t.list.getD b ⟨⟨0, 0, 0⟩, 1⟩

/-- Distance in units of 2⁻¹⁶ × 0.1 mm, floor. -/
def rho (f p : P3) : Int := (isqrt (((f.x - p.x) ^ 2 + (f.y - p.y) ^ 2 + (f.z - p.z) ^ 2).toNat * 2 ^ 32) : Nat)

/-- Position and delay_int of a system element for a plan frame that starts a stroke (R156). Elements of other devices have no
entry here (log 30). -/
def geomOf (s : State) (plan : Nat) (p : Plan) (frame sys : Nat) : ElemGeom :=
  match (Tab.getD s.corr.beamGeom (plan * 2 ^ 64 + frame) []).find? (fun g => decide (g.elem = sys)) with
  | some g => g
  | none =>
    match ownEntry s p with
    | some d =>
      if d.sysBase ≤ sys ∧ sys < d.sysBase + d.elements then
        let x := s.view.elem (d.localBase + (sys - d.sysBase))
        ⟨sys, ⟨x.posX, x.posY, x.posZ⟩, x.delayInt⟩
      else ⟨sys, ⟨wrapS 32 (Config.farGeom plan sys 0), wrapS 32 (Config.farGeom plan sys 1), wrapS 32 (Config.farGeom plan sys 2)⟩,
        (Config.farGeom plan sys 3 % 65536).toNat⟩
    | none => ⟨sys, ⟨wrapS 32 (Config.farGeom plan sys 0), wrapS 32 (Config.farGeom plan sys 1), wrapS 32 (Config.farGeom plan sys 2)⟩,
        (Config.farGeom plan sys 3 % 65536).toNat⟩

/-- Apodisation of ordinal `o` at distance `r` (R149). -/
def apodOf (s : State) (t : BeamSet) (o : Nat) (r : Int) : Int :=
  if t.apod = 1 then (if r ≤ t.radius * 2 ^ 16 then 2047 else 0)
  else if t.apod = 2 then ((Tab.getD s.corr.tapers t.taper []).getD o 0 : Nat)
  else 2047

/-- The weight of ordinal `o` for beam `b` in kept channel `k` (R148, R153). -/
def weightOf (s : State) (t : BeamSet) (p : Plan) (k b o : Nat) (g : ElemGeom) : Int × Int :=
  if t.beams ≤ b then (0, 0)
  else if t.source = 1 then
    match Tab.get s.corr.weights t.table with
    | some w => w.w.getD (b * w.elements + o) (0, 0)
    | none => (0, 0)
  else
    let f := t.focus b
    let ri := rho f.f g.pos
    let rr := rho f.f t.q
    let n2 : Nat := 2 * 2 ^ p.chanLog2
    let den : Int := (p.ratio * n2 * 10 * f.speed : Nat)
    let num : Int := (ri - rr) * k * p.rate * 2 ^ 16 + (k * g.delay * 2 ^ 32 * (p.ratio * 10 * f.speed) : Nat)
    let phi := roundDiv num (max 1 den) % (2 ^ 32 : Int)
    let u := unitCircle ((roundShift phi 16) % 65536).toNat
    let a := apodOf s t o ri
    (roundShift (a * u.1) 17, roundShift (a * u.2) 17)

/-- The spread of one beam (R151) as a fraction of a second. -/
def spreadOf (s : State) (t : BeamSet) (p : Plan) (b : Nat) : Int × Int :=
  let f := t.focus b
  let rr := rho f.f t.q
  let den : Int := (2 ^ 16 * 10 * f.speed * p.rate : Nat)
  let vs := (planOrds p).zipIdx.filterMap (fun e =>
    let g := geomOf s t.plan p (2 ^ 60) e.1
    let ri := rho f.f g.pos
    if apodOf s t e.2 ri = 0 then none
    else some ((ri - rr) * p.rate + (g.delay * p.ratio * 2 ^ 16 * 10 * f.speed : Nat)))
  match vs with
  | a :: l => (l.foldl max a - l.foldl min a, max 1 den)
  | [] => (0, max 1 den)

/-- The result block of a beam set load (R151). -/
def spreadBlock (s : State) (t : BeamSet) (p : Plan) : Bytes :=
  let best := (List.range t.beams).foldl (fun (a : (Int × Int) × Nat) b =>
    let x := spreadOf s t p b
    if a.1.1 * x.2 < x.1 * a.1.2 then (x, b) else a) ((0, 1), 0)
  let n2 : Nat := 2 * 2 ^ p.chanLog2
  le 4 (satU 32 (roundDiv (best.1.1 * 1000000000) best.1.2).toNat) ++ le 2 best.2 ++ zeros 2 ++
    le 4 (satU 32 (roundDiv (best.1.1 * p.rate * 2 ^ 16) (best.1.2 * (p.ratio * n2 : Nat))).toNat)

/-! ## Images (R152 to R154) -/

/-- The beam set of a B pool for a stroke (R155). -/
def SchedRun.setAt (r : SchedRun) (k i : Nat) : Nat :=
  match (Tab.getD r.bsets k []).find? (fun x => decide (x.1 ≤ i)) with
  | some x => x.2
  | none => ((r.pool? k).map (·.bset)).getD 0

/-- The beam sets that pools in effect or pending switches name: those of the strokes that a B pool still runs. A pool of a loaded schedule
counts from the load on, before its first stroke (DESIGN CHOICE, log entry 123). -/
def setsNamed (s : State) : List Nat :=
  s.corr.scheds.flatMap (fun r => r.sched.pools.zipIdx.flatMap (fun q =>
    let i := beamDue s r q.2 q.1
    if q.1.mode = 1 ∧ strokeRun r q.2 i then
      r.setAt q.2 i :: ((Tab.getD r.bsets q.2 []).filter (fun x => decide (i < x.1) && strokeRun r q.2 x.1)).map (·.2)
    else []))

/-- The named sets as loaded. -/
def namedSets (s : State) : List BeamSet := (setsNamed s).filterMap (fun id => Tab.get s.corr.bsets id)

/-- Read a beam set image. -/
def parseBeamSet (b : Bytes) : BeamSet :=
  let kind := fieldU b 2 1
  let beams := fieldU b 4 2
  { plan := fieldU b 1 1
    kind := kind
    source := fieldU b 3 1
    beams := beams
    apod := fieldU b 6 1
    table := fieldU b 8 2
    taper := fieldU b 10 2
    radius := fieldU b 12 4
    q := parseP3 b 16
    grid := if kind = 1 then some ⟨parseP3 b 32, parseP3 b 44, parseP3 b 56, fieldU b 68 2, fieldU b 70 2, fieldU b 72 4⟩ else none
    list := if kind = 1 then [] else (List.range beams).map (fun i => ⟨parseP3 b (32 + 16 * i), fieldU b (44 + 16 * i) 4⟩) }

/-- Fields of a beam set image in their ranges. -/
def beamSetChk (b : Bytes) : Chk :=
  let t := parseBeamSet b
  firstFail [
    need (decide (t.kind ≤ 1)) stRange 2, need (decide (t.source ≤ 1)) stRange 3, need (decide (1 ≤ t.beams ∧ t.beams ≤ 8192)) stRange 4,
    need (decide (t.apod ≤ 2) && (decide (t.source = 0) || decide (t.apod = 0))) stRange 6, needZero b 7 1 0,
    need (decide (t.source = 1) || decide (t.table = 0xFFFF)) stRange 8,
    need (decide (t.apod = 2) || decide (t.taper = 0xFFFF)) stRange 10,
    need (decide (t.apod = 1) || decide (t.radius = 0)) stRange 12, needZero b 28 4 0,
    match t.grid with
    | some g => firstFail [need (decide (1 ≤ g.nu ∧ g.nu ≤ 8192)) stRange 68,
        need (decide (1 ≤ g.nv ∧ g.nv ≤ 8192)) stRange 70, need (decide (g.nu * g.nv = t.beams)) stRange 4,
        need (decide (1 ≤ g.speed)) stRange 72, needZero b 76 4 0]
    | none => firstFail (t.list.zipIdx.map (fun x => need (decide (1 ≤ x.1.speed)) stRange (44 + 16 * x.2)))]

/-- The checks of BEAM_SET_LOAD, in order. A set whose taper table does not hold N entries is refused with RANGE, info 10, the offset of the
taper field (DESIGN CHOICE, log entry 122). -/
def beamSetLoadChk (d : Desc) (data : Bytes) (s : State) : Chk :=
  let b := dataOf d data
  let id := fieldU b 0 1
  let n := 32 + (if fieldU b 2 1 = 1 then 48 else 16 * fieldU b 4 2)
  let t := parseBeamSet b
  let p := planAt s t.plan (2 ^ 64)
  firstFail [descChk d [(32, 1)], need (decide (32 ≤ d.len.toNat)) stSize 32, sizeChk d (n + 4), beamSetChk b,
    need (decide (fieldU b n 4 = (crc32c (b.take n)).toNat)) stCrc 0,
    need p.isSome stNotFound t.plan,
    need (decide (t.source = 0) || Tab.has s.corr.weights t.table) stNotFound t.table,
    need (decide (t.apod ≠ 2) || Tab.has s.corr.tapers t.taper) stNotFound t.taper,
    need (decide (t.apod ≠ 2) || decide ((Tab.getD s.corr.tapers t.taper []).length = ((p.map Plan.size).getD 0))) stRange 10,
    need (!(setsNamed s).contains id) stInUse id]

/-- BEAM_SET_LOAD (R151, R152, R154). Where several versions of the plan are loaded, the newest fixes the spread and the N that a taper is
held to (DESIGN CHOICE, log entry 121). -/
def runBeamSetLoad (d : Desc) (data : Bytes) (s : State) : State :=
  let b := dataOf d data
  let id := fieldU b 0 1
  let t := parseBeamSet b
  let p := planAt s t.plan (2 ^ 64)
  match beamSetLoadChk d data s, p with
  | some c, _ => refuse d c s
  | none, none => refuse d (stNotFound, t.plan) s
  | none, some p =>
    let block := spreadBlock s t p
    completeWith d stOk 0 (some block) (disturb (cfgPut 4 id b { s with corr.bsets := Tab.put s.corr.bsets id t }))

def execBeamSetLoad (t : Tick) (d : Desc) (data : Bytes) (s : State) : Host.Outcome State Fault Refusal :=
  .next (runBeamSetLoad d data (s.advance t))

/-- The checks of TAPER_TABLE_LOAD, in order. -/
def taperTableLoadChk (d : Desc) (data : Bytes) (s : State) : Chk :=
  let b := dataOf d data
  let id := fieldU b 0 2
  let n := fieldU b 4 4
  let vs := (List.range n).map (fun i => fieldU b (16 + 2 * i) 2)
  firstFail [descChk d [(32, 1)], need (decide (16 ≤ d.len.toNat)) stSize 16, needZero b 2 2 0,
    need (decide (1 ≤ n ∧ n ≤ 65536)) stRange 4, sizeChk d (16 + 2 * n), needZero b 12 4 0, crcChk b 8 16,
    firstFail (vs.zipIdx.map (fun x => need (decide (x.1 ≤ 2047)) stRange (16 + 2 * x.2))),
    need (!(namedSets s).any (fun t => decide (t.apod = 2 ∧ t.taper = id))) stInUse id]

/-- TAPER_TABLE_LOAD (R152, R154). -/
def runTaperTableLoad (d : Desc) (data : Bytes) (s : State) : State :=
  let b := dataOf d data
  let id := fieldU b 0 2
  let n := fieldU b 4 4
  let vs := (List.range n).map (fun i => fieldU b (16 + 2 * i) 2)
  match taperTableLoadChk d data s with
  | some c => refuse d c s
  | none => accept d (cfgPut 5 id b { s with corr.tapers := Tab.put s.corr.tapers id vs })

def execTaperTableLoad (t : Tick) (d : Desc) (data : Bytes) (s : State) : Host.Outcome State Fault Refusal :=
  .next (runTaperTableLoad d data (s.advance t))

/-- Bytes of a table image in HBM: its 16-byte header and its body, padded to 64 B (R354). -/
def tableImage (body : Nat) : Nat := padHbm (16 + body)

/-- Word of the transmit tables reservation by which the load of a table is asked of the controller: image kind and id (log entry 68). -/
def tableWord (kind id : Nat) : Nat := kind * 65536 + id

/-- Bytes that explicit weight tables and waveform tables hold in the transmit tables reservation (R153): 3 per weight, 2 per sample. -/
def txTableBytes (s : State) : Nat :=
  (s.corr.weights.map (fun x => tableImage (3 * x.2.w.length))).sum + (s.tx.waves.map (fun x => tableImage (2 * x.2.length))).sum

/-- The checks of WEIGHT_TABLE_LOAD, in order. -/
def weightTableLoadChk (d : Desc) (data : Bytes) (s : State) : Chk :=
  let b := dataOf d data
  let id := fieldU b 0 2
  let beams := fieldU b 4 2
  let n := fieldU b 8 4
  let other := ((Tab.del s.corr.weights id).map (fun x => x.2.w.length)).sum
  firstFail [descChk d [(32, 1)], need (decide (16 ≤ d.len.toNat)) stSize 16, need (decide (id ≤ 255)) stRange 0,
    need (decide (fieldU b 2 1 ≤ 15)) stRange 2, needZero b 3 1 0, need (decide (1 ≤ beams ∧ beams ≤ 8192)) stRange 4, needZero b 6 2 0,
    need (decide (1 ≤ n ∧ n ≤ 65536)) stRange 8, sizeChk d (16 + 3 * beams * n), crcChk b 12 16,
    need (!(namedSets s).any (fun t => decide (t.source = 1 ∧ t.table = id))) stInUse id,
    need (decide (other + beams * n ≤ 16777216)) stCapacity freeInfo,
    need (decide (txTableBytes { s with corr.weights := Tab.del s.corr.weights id } + tableImage (3 * beams * n) ≤ regionSize s 3)) stCapacity freeInfo]

/-- WEIGHT_TABLE_LOAD (R153, R154). -/
def runWeightTableLoad (d : Desc) (data : Bytes) (s : State) : State :=
  let b := dataOf d data
  let id := fieldU b 0 2
  let beams := fieldU b 4 2
  let n := fieldU b 8 4
  match weightTableLoadChk d data s with
  | some c => refuse d c s
  | none =>
    let ws := (List.range (beams * n)).map (fun i =>
      let v := fieldU b (16 + 3 * i) 3
      (toS 12 (v % 4096), toS 12 (v / 4096)))
    accept d (hbmRequest 4 .outside (placeOf s 3 (tableWord 6 id)) <| cfgPut 6 id b { s with corr.weights := Tab.put s.corr.weights id ⟨fieldU b 2 1, beams, n, ws⟩ })

def execWeightTableLoad (t : Tick) (d : Desc) (data : Bytes) (s : State) : Host.Outcome State Fault Refusal :=
  .next (runWeightTableLoad d data (s.advance t))

/-! ## The set switch (R155) -/

/-- Enter a switch: newest stroke first; a switch at the same stroke replaces. -/
def putSwitch (a set : Nat) : List (Nat × Nat) → List (Nat × Nat)
  | [] => [(a, set)]
  | x :: l => if x.1 < a then (a, set) :: x :: l else if x.1 = a then (a, set) :: l else x :: putSwitch a set l

/-- The schedule run and pool that a beam set switch names: an X pool, or none, is out of range. -/
def switchPool (d : Desc) (s : State) : Option (SchedRun × Pool) :=
  (curSched s).bind (fun r => ((r.pool? (par d 32 1)).filter (fun q => decide (q.mode = 1))).map (fun q => (r, q)))

/-- The refusals of a beam set switch for its pool, in the order of R155. -/
def switchChk (d : Desc) (s : State) (q : Pool) : Chk :=
  let set := par d 33 1
  let a := par d 40 8
  firstFail [need (Tab.has s.corr.bsets set) stNotFound set,
    needC (match poolPlan s q a with
      | some p => setMatch s q p set
      | none => false) (capB 6),
    need (decide (1 ≤ a) && decide ((s.tw : Int) < relOf s q (a - 1))) stLate 0]

/-- BEAM_SET_SWITCH (R155). -/
def runBeamSetSwitch (d : Desc) (_data : Bytes) (s : State) : State :=
  let k := par d 32 1
  match descChk d [(32, 2), (40, 8)], switchPool d s with
  | some c, _ => refuse d c s
  | none, none => refuse d (stRange, 32) s
  | none, some (r, q) => match switchChk d s q with
    | some c => refuse d c s
    | none => acceptAt (strokeStart s q (par d 40 8)).toNat d (setSched { r with bsets := Tab.put r.bsets k (putSwitch (par d 40 8) (par d 33 1) (Tab.getD r.bsets k [])) } s)

def execBeamSetSwitch (t : Tick) (d : Desc) (data : Bytes) (s : State) : Host.Outcome State Fault Refusal :=
  .next (runBeamSetSwitch d data (s.advance t))

/-! ## Inputs of an engine-stroke -/

/-- A channel sample as the nibs take it: gaps are 0, and warming samples are 0 where the schedule excludes them (R80, R98). -/
def nibSample (u : StrokeBuf) (warm sys f : Nat) : Int × Int :=
  let x := u.sample sys f
  if x.gap ≠ 0 ∨ (x.warm ∧ warm = 0) then (0, 0) else (x.re, x.im)

/-- Key of a stroke's geometry. -/
def geomFrame (q : Pool) (i : Nat) : Nat := q.stroke * i

/-- The sums of a B job (R143, R144): 32 beam rows by S frames, row-major. `lost` says which weights, by beam row and position in the
section, were in poisoned words and count as 0 (R363). -/
def beamSums (s : State) (r : SchedRun) (k : Nat) (q : Pool) (p : Plan) (u : StrokeBuf) (job i : Nat) (lost : Nat → Nat → Bool) :
    List (Int × Int) :=
  match Tab.get s.corr.bsets (r.setAt k i) with
  | none => List.replicate (32 * q.stroke) (0, 0)
  | some t =>
    let ns := max 1 p.sections
    let blk := job % max 1 q.perChan / ns
    let sec := job % ns
    let ords := ((planOrds p).zipIdx.drop (2048 * sec)).take (32 * p.secBlocks sec)
    let geo := ords.map (fun e => (e, geomOf s q.plan p (geomFrame q i) e.1))
    let kch := p.first + q.chanOf job
    (List.range 32).flatMap (fun bb =>
      let ws := geo.zipIdx.map (fun e => (e.1.1.1, if lost bb e.2 then (0, 0) else weightOf s t p kch (32 * blk + bb) e.1.1.2 e.1.2))
      (List.range q.stroke).map (fun f => ws.foldl (fun (a : Int × Int) w =>
        let y := cmul w.2 (nibSample u r.sched.warm w.1 f)
        (a.1 + y.1, a.2 + y.2)) (0, 0)))

/-- The geometry of two strokes differs (R157). -/
def geomMoved (s : State) (q : Pool) (i : Nat) : Bool :=
  match Tab.get s.corr.beamGeom (q.plan * 2 ^ 64 + geomFrame q i), Tab.get s.corr.beamGeom (q.plan * 2 ^ 64 + geomFrame q (i - 1)) with
  | some a, some b => decide (a ≠ b)
  | _, _ => false

/-- Decide the epochs of a B pool up to stroke `i` (R157): a set switch at a stroke, or a changed geometry, gives every engine of the
pool a new one. The set that the pool starts with is the last of its list. `fuel` strokes at most. -/
def decideEpochs (gen k : Nat) (q : Pool) : Nat → Nat → State → State
  | 0, _, s => s
  | fuel + 1, i, s =>
    match schedOf s gen with
    | none => s
    | some r =>
      let n := Tab.getD r.moved k q.first
      if i < n then s
      else
        let s := setSched { r with moved := Tab.put r.moved k (n + 1) } s
        let s := if (Tab.getD r.bsets k []).dropLast.any (fun x => decide (x.1 = n)) || geomMoved s q n then
            let e := newEpoch s
            { e.2 with corr.scheds := e.2.corr.scheds.map (fun x => if x.gen = gen then { x with runs := x.runs.map (fun y =>
                if y.entry.pool = k then { y with epochs := (n, e.1) :: y.epochs } else y) } else x) }
          else s
        decideEpochs gen k q fuel i s

/-! ## The beam output stage (R158 to R162) -/

/-- The beam output stage takes the sums of a B hand-off. -/
def takeBeam (h : Handoff) (r : SchedRun) (q : Pool) (p : Plan) (s : State) : State :=
  let ns := max 1 p.sections
  let key := beamKey r.gen h.pool h.stroke (q.chanPos h.job) (h.job % max 1 q.perChan / ns)
  let a := Tab.getD s.corr.beamAcc key BeamAcc.empty
  let a := { a with
    sections := Tab.put a.sections (h.job % ns) (some h.sums), epoch := h.epoch, applied := some s.now, tainted := a.tainted || h.tainted }
  slotDone h 6 { s with corr.beamAcc := Tab.put s.corr.beamAcc key a }

/-- Add sums element by element. -/
def addSums (a b : List (Int × Int)) : List (Int × Int) := List.zipWith (fun x y => (x.1 + y.1, x.2 + y.2)) a b

/-- Finish a beam block: exact sum over the sections, one rounding, saturations by beam; a block that misses a section is 0. -/
def finishBlock (q : Pool) (beams : Nat) (a : BeamAcc) (s : State) : BeamOut :=
  let ss := a.sections.map (·.2)
  let whole := decide (a.missing = 0)
  let y := if whole then (ss.filterMap id).foldl addSums (List.replicate (32 * q.stroke) (0, 0))
    else List.replicate (32 * q.stroke) (0, 0)
  let v := y.map (fun x =>
    let re := roundShift x.1 q.bshift
    let im := roundShift x.2 q.bshift
    ((satS 16 re, satS 16 im), !(inS 16 re && inS 16 im)))
  { v := (v.take (beams * q.stroke)).map (·.1)
    sat := (List.range beams).map (fun b => (((v.drop (b * q.stroke)).take q.stroke).filter (·.2)).length)
    cause := a.missing
    epoch := a.epoch
    applied := a.applied
    tainted := a.tainted
    time := s.tw
    at_ := s.now }

/-- Beams of block `b` of a set. -/
def blockBeams (t : BeamSet) (b : Nat) : Nat := min 32 (t.beams - 32 * b)

/-- A beam block of a pool, channel position and block number whose every section is there or missing: its schedule and its key. -/
def blockReady (s : State) (pool k block : Nat) : Option (Nat × Nat) :=
  s.corr.scheds.findSome? (fun r => match r.pool? pool with
    | none => none
    | some q => (s.corr.beamAcc.find? (fun a =>
        let i := a.1 / 2 ^ 32 % 2 ^ 48
        decide (q.mode = 1 ∧ k < q.channels ∧ a.1 = beamKey r.gen pool i k block) && (match poolPlan s q i with
          | some p => decide (a.2.sections.length = p.sections)
          | none => false))).map (fun a => (r.gen, a.1)))

/-- Beams of a block in the set that its stroke uses. -/
def beamsAt (s : State) (r : SchedRun) (pool i block : Nat) : Nat :=
  match Tab.get s.corr.bsets (r.setAt pool i) with
  | some b => blockBeams b block
  | none => 32

/-- BEAM_OUTPUT (R158, R160): a beam block of a B pool whose every section is there or missing. -/
def execBeamOutput (t : Tick) (pool k block : Nat) (s : State) : Host.Outcome State Fault Refusal :=
  let s := s.advance t
  match blockReady s pool k block with
  | none => .next s
  | some (gen, key) =>
    match schedOf s gen, Tab.get s.corr.beamAcc key with
    | some r, some a => match r.pool? pool with
      | none => .next s
      | some q =>
        let o := finishBlock q (beamsAt s r pool (key / 2 ^ 32 % 2 ^ 48) block) a s
        .next { s with corr.beamAcc := Tab.del s.corr.beamAcc key, corr.beamOut := Tab.put s.corr.beamOut key o }
    | _, _ => .next s

/-! ## Beam records (R163 to R166) -/

/-- The finished blocks of a stroke, by channel position and block; none while one is missing. -/
def strokeBlocks (s : State) (r : SchedRun) (k : Nat) (q : Pool) (p : Plan) (i : Nat) : Option (List (Nat × Nat × BeamOut)) :=
  (List.range q.channels).foldr (fun c l => (List.range (q.blocks p)).foldr (fun b l => match l, Tab.get s.corr.beamOut (beamKey r.gen k i c b) with
    | some l, some o => some ((c, b, o) :: l)
    | _, _ => none) l) (some [])

/-- Header flags that both record kinds share. -/
def beamFlags (r : SchedRun) (partialRec : Bool) (ls : RecLists) (sw : Int × Nat) : Nat :=
  b01 partialRec + 2 * b01 (decide (ls.lost ≠ 0)) + 4 * r.sched.warm + 8 * b01 (decide (sw.2 ≠ 0))

/-- A beam voltage record's body (R163, Table 06-7). -/
def voltBody (s : State) (r : SchedRun) (k : Nat) (q : Pool) (p : Plan) (i c b : Nat) (o : BeamOut) : Bytes :=
  let f0 := q.stroke * i
  let fn := f0 + q.stroke - 1
  let chan := q.firstCh + c
  let lo := (planStamp p f0).toNat
  let sw := planSwitches s q.plan lo (planStamp p fn).toNat
  let ls := listsOf s.cond.log q.plan [chan] (planOrds p) [(f0, q.stroke)] fn
  le 1 q.plan ++ le 1 k ++ le 1 (r.setAt k i) ++ le 1 (beamFlags r (decide (o.cause ≠ 0)) ls sw) ++ le 4 p.version ++ le 2 r.sched.id ++
    le 2 chan ++ le 2 (p.first + chan) ++ le 2 b ++ le 1 o.sat.length ++ le 1 q.bshift ++ le 1 o.cause ++ zeros 1 ++ le 4 q.stroke ++
    le 8 (i - q.first) ++ le 8 f0 ++ le 8 lo ++ le 4 o.epoch ++ le 4 o.sat.sum ++ le 4 ls.nElem ++ le 4 ls.nGap ++ le 4 ls.nWarm ++
    le 4 ls.lost ++ leS 8 sw.1 ++ le 4 sw.2 ++ le 4 p.size ++ zeros 40 ++
    o.sat.flatMap (le 4) ++ ls.entries ++ ls.gaps ++ ls.warms ++ o.v.flatMap (fun x => leS 2 x.1 ++ leS 2 x.2)

/-- Power of beam `bb` of a finished block over frames `f` to `f + n − 1` of its stroke (R161). -/
def powerOf (q : Pool) (o : BeamOut) (bb f n : Nat) : Nat :=
  (((o.v.drop (bb * q.stroke + f)).take n).map (fun x => (x.1 * x.1 + x.2 * x.2).toNat)).sum

/-- The power values of a span: rows by channel (one row when band is 1), beams ascending. -/
def powerRows (q : Pool) (bs : List (Nat × Nat × BeamOut)) (f n : Nat) : List Nat :=
  let row (c : Nat) : List Nat := (bs.filter (fun x => decide (x.1 = c))).flatMap (fun x =>
    (List.range x.2.2.sat.length).map (fun bb => powerOf q x.2.2 bb f n))
  if q.band = 1 then (List.range (q.channels - 1)).foldl (fun a c => List.zipWith (· + ·) a (row (c + 1))) (row 0)
  else (List.range q.channels).flatMap row

/-- A power value as the record carries it, and whether it saturated. -/
def powerValue (q : Pool) (v : Nat) : Nat × Bool :=
  if q.pfmt = 1 then (toF32 v q.pshift, false)
  else
    let x := (roundShift v q.pshift).toNat
    (satU 32 x, decide (2 ^ 32 ≤ x))

/-- The epoch of the section applied last among some blocks, 0 where none was. -/
def lastEpoch (bs : List (Nat × Nat × BeamOut)) : Nat :=
  (bs.foldl (fun (a : Option (Nat × Nat)) x => match x.2.2.applied, a with
    | none, _ => a
    | some t, none => some (t, x.2.2.epoch)
    | some t, some b => if b.1 ≤ t then some (t, x.2.2.epoch) else a) none |>.map (·.2)).getD 0

/-- A beam power record's body (R164, Table 06-8). -/
def powerBody (s : State) (r : SchedRun) (k : Nat) (q : Pool) (p : Plan) (i f : Nat) (bs : List (Nat × Nat × BeamOut))
    (vals : List (Nat × Bool)) : Bytes :=
  let n := 64 * q.pint
  let f0 := q.stroke * i + f
  let fn := f0 + n - 1
  let lo := (planStamp p f0).toNat
  let sw := planSwitches s q.plan lo (planStamp p fn).toNat
  let chans := (List.range q.channels).map (· + q.firstCh)
  let ls := listsOf s.cond.log q.plan chans (planOrds p) [(f0, n)] fn
  let miss := (bs.filter (fun x => decide (x.2.2.cause ≠ 0))).length
  let t := Tab.get s.corr.bsets (r.setAt k i)
  let beams := (t.map (·.beams)).getD 0
  let g := (t.bind (·.grid)).map (fun g => (g.nu, g.nv))
  le 1 q.plan ++ le 1 k ++ le 1 (r.setAt k i) ++ le 1 (beamFlags r (decide (miss ≠ 0)) ls sw + 16 * q.band) ++ le 4 p.version ++
    le 2 r.sched.id ++ le 2 q.firstCh ++ le 2 q.channels ++ le 1 q.pfmt ++ le 1 q.pshift ++ le 2 beams ++ le 2 ((g.getD (0, 0)).1) ++
    le 2 ((g.getD (0, 0)).2) ++ le 1 q.bshift ++ zeros 1 ++ le 8 f0 ++ le 8 lo ++ le 4 n ++ le 4 miss ++
    le 4 (lastEpoch bs) ++ le 4 ((vals.filter (·.2)).length) ++ le 4 ls.nElem ++ le 4 ls.nGap ++
    le 4 ls.nWarm ++ le 4 ls.lost ++ leS 8 sw.1 ++ le 4 sw.2 ++ zeros 12 ++
    ls.entries ++ ls.gaps ++ ls.warms ++ vals.flatMap (fun v => le 4 v.1)

/-- The binary32 code of the log scale (R248): 16·exponent + the top mantissa bits. -/
def f32Code (v : Nat) : Nat := bitsOf v 23 8 * 16 + bitsOf v 19 4

/-- The exact value of a binary32 that is not negative, as a fraction. -/
def f32Value (v : Nat) : Nat × Nat :=
  if v = 0 then (0, 1)
  else
    let m := 2 ^ 23 + v % 2 ^ 23
    let e := bitsOf v 23 8
    if 150 ≤ e then (m * 2 ^ (e - 150), 1) else (m, 2 ^ (150 - e))

/-- The index of a map value before the clamp (R248). -/
def mapIndex (l : LbLayer) (q : Pool) (v : Nat) : Int :=
  if l.format = 1 then
    if v = 0 then 0
    else
      let c : Int := f32Code (if q.pfmt = 1 then v else toF32 v 0)
      c - l.lo
  else
    let x : Nat × Nat := if q.pfmt = 1 then f32Value v else (v, 1)
    (((x.1 : Int) - l.lo * x.2) * l.scale).fdiv (x.2 * 2 ^ 32)

/-- Pass a power record's payload to the layers of the scene in effect that name the pool, and write their map buffers (R166, R248, R350). -/
def passMap (k : Nat) (q : Pool) (stamp : Nat) (missing : Bool) (vals : List Nat) (s : State) : State :=
  match s.lbox.scene with
  | none => s
  | some sc =>
    let put (l : LbLayer) (x : LbRun) : LbRun :=
      if l.source = 2 ∧ l.pool = k then
        let beams := if q.band = 1 then vals.length else vals.length / max 1 q.channels
        let idx := ((vals.drop (l.chan * beams)).take beams).map (fun v => mapIndex l q v)
        let clamp (v : Int) : Byte := BitVec.ofNat 8 (max 0 (min v 255)).toNat
        { x with back := x.back ++ [⟨s.tw, idx.map clamp, stamp, missing,
            (idx.filter (fun v => decide (v < 0 ∨ 255 < v))).length⟩] }
      else x
    let into := (sc.layers.zipIdx.filter (fun x => decide (x.1.source = 2 ∧ x.1.pool = k))).map (·.2)
    let s := into.foldl (fun s l => hbmRequest 5 .outside (placeOf s 4 l) s) s
    { s with lbox.layers := List.zipWith put sc.layers s.lbox.layers ++ s.lbox.layers.drop sc.layers.length }

/-- Emit the records of stroke `i` of a pool (R163 to R166). A power record covers every channel of the pool, and its product field is 0xFFFF
also where one shed entry holds them all (DESIGN CHOICE, log entry 125). -/
def emitStroke (r : SchedRun) (k : Nat) (q : Pool) (p : Plan) (i : Nat) (bs : List (Nat × Nat × BeamOut)) (s : State) : State :=
  let f0 := q.stroke * i
  let time := (bs.map (fun x => x.2.2.time)).foldl Nat.max 0
  let at_ := (bs.map (fun x => x.2.2.at_)).foldl Nat.max 0
  let taint := bs.any (fun x => x.2.2.tainted)
  let hi (f n : Nat) : Nat := (planStamp p (f0 + f + n - 1)).toNat
  let s := if q.product % 2 = 1 then bs.foldl (fun s x =>
      formRecordAt time at_ ⟨2, k, 0x0020, voltBody s r k q p i x.1 x.2.1 x.2.2, r.productOf k (q.firstCh + x.1),
        (planStamp p f0).toNat, hi 0 q.stroke, x.2.2.tainted⟩ s) s
    else s
  if q.product / 2 % 2 = 1 then
    let n := 64 * q.pint
    (List.range (q.stroke / max 1 n)).foldl (fun s w =>
      let f := w * n
      let vals := (powerRows q bs f n).map (powerValue q)
      let body := powerBody s r k q p i f bs vals
      let stamp := (planStamp p (f0 + f)).toNat
      let s := passMap k q stamp (bs.any (fun x => decide (x.2.2.cause ≠ 0))) (vals.map (·.1)) s
      formRecordAt time at_ ⟨3, k, 0x0021, body, 0xFFFF, stamp, hi f n, taint⟩ s) s
  else s

/-- Another B pool's stroke comes before this one in the order of R165. -/
def earlierStroke (s : State) (gen k : Nat) (q : Pool) (i : Nat) : Bool :=
  let me := (relOf s q (i + 1), k)
  s.corr.scheds.any (fun r => r.sched.pools.zipIdx.any (fun x =>
    let j := beamDue s r x.2 x.1
    let v := relOf s x.1 (j + 1)
    decide (x.1.mode = 1 ∧ ¬ (r.gen = gen ∧ x.2 = k)) && strokeRun r x.2 j &&
      decide (v < me.1 ∨ (v = me.1 ∧ x.2 < me.2))))

/-- A stroke of a batch that may be run again reads a geometry (R449). -/
def rerunReads (s : State) (key : Nat) : Bool :=
  s.twin.hands.any (fun p => p.2.any (fun h => match (schedOf s h.gen).bind (fun r => r.pool? h.pool) with
    | some q => decide (q.mode = 1 ∧ key = q.plan * 2 ^ 64 + geomFrame q h.stroke)
    | none => false))

/-- Drop geometry that no stroke needs any more. -/
def trimGeom (s : State) : State :=
  let least := s.corr.scheds.flatMap (fun r => (r.sched.pools.zipIdx.filter (fun x => decide (x.1.mode = 1))).map (fun x =>
    (x.1.plan, x.1.stroke * (beamDue s r x.2 x.1 - 1))))
  { s with corr.beamGeom := s.corr.beamGeom.filter (fun g => least.any (fun l => decide (l.1 = g.1 / 2 ^ 64 ∧ l.2 ≤ g.1 % 2 ^ 64)) ||
      rerunReads s g.1) }

/-- The stroke of a B pool whose records come next, with its finished blocks, once every job of it is done and no other pool's stroke
comes before it (R165). -/
def strokeReady (s : State) (pool : Nat) : Option (SchedRun × Pool × Plan × Nat × List (Nat × Nat × BeamOut)) :=
  s.corr.scheds.findSome? (fun r => match r.pool? pool with
    | none => none
    | some q =>
      let i := beamDue s r pool q
      if q.mode ≠ 1 || !strokeRun r pool i || earlierStroke s r.gen pool q i then none
      else match poolPlan s q i with
        | none => none
        | some p => (strokeBlocks s r pool q p i).map (fun bs => (r, q, p, i, bs)))

end Sys2Proof.Machine
end

