-- ==== Sys2Proof/Machine/Engine.lean ====
section
/-!
DEFINITION. Engines as they run (04_correlation_engines.md, 16_management.md R420 to R424): slots, hand-offs, fencing and re-runs, failure
with spares and fallbacks, unserved slots.
-/
namespace Sys2Proof.Machine

/-! ## The next slot (R105) -/

/-- A slot that may start. -/
structure Cand where
  gen : Nat
  run : Nat
  pool : Nat
  job : Nat
  pos : Nat × Nat
  due : Int
  deriving DecidableEq, Repr

/-- The next slot of run `k`, once its stroke has been released. -/
def runCand (s : State) (r : SchedRun) (k : Nat) (x : EntryRun) : Option Cand :=
  match r.pool? x.entry.pool with
  | none => none
  | some q =>
    let job := x.entry.firstJob + x.next.2
    if x.unserved || !r.within x x.next then none
    else match poolPlan s q x.next.1 with
      | none => none
      | some p =>
        if (relBuf s q.plan (q.chanOf job) p x.next.1).isSome then
          some ⟨r.gen, k, x.entry.pool, job, x.next, dueOf s q x.entry x.next⟩
        else none

/-- The slot an engine starts next: the one that is due first among its entries. -/
def nextSlot (s : State) (e : Nat) : Option Cand :=
  let l := s.corr.scheds.flatMap (fun r => r.runs.zipIdx.filterMap (fun x =>
    if x.1.entry.engine = e then runCand s r x.2 x.1 else none))
  l.foldl (fun (b : Option Cand) c => match b with
    | none => some c
    | some a => if c.due < a.due then some c else some a) none

/-- The shed entry by which a slot is skipped (R116). -/
def Cand.shedBy (c : Cand) (s : State) : Option Nat :=
  match schedOf s c.gen with
  | none => none
  | some r => match r.pool? c.pool with
    | none => none
    | some q => r.shedBy c.pool (q.chanOf c.job) c.pos.1

/-- The stroke of a slot has been released. -/
def Cand.released (c : Cand) (s : State) : Bool :=
  match (schedOf s c.gen).bind (fun r => r.pool? c.pool) with
  | none => false
  | some q => match poolPlan s q c.pos.1 with
    | none => false
    | some p => (relBuf s q.plan (q.chanOf c.job) p c.pos.1).isSome

/-- The first skipped slot of the entry shed last starts its wait (R116), whether or not another entry sheds the slot too. -/
def noteSkip (c : Cand) (s : State) : State :=
  { s with corr.scheds := s.corr.scheds.map (fun r => match r.hold, r.pool? c.pool with
      | some h, some q =>
        if r.gen = c.gen ∧ r.shedsAll h.entry c.pool (q.chanOf c.job) c.pos.1 1 then { r with hold := some { h with started := true } } else r
      | _, _ => r) }

/-- Skip the shed slots that come next: each ends at once. At most `n` of them. -/
def skipShed (e : Nat) : Nat → State → State
  | 0, s => s
  | n + 1, s =>
    match nextSlot s e with
    | none => s
    | some c =>
      match c.shedBy s with
      | none => s
      | some _ => skipShed e n (missSlot c.gen c.run c.pool c.job c.pos 2 (noteSkip c s))

/-- A bound on the slots that one engine can skip: every released stroke of every plan channel. -/
def skipBound (s : State) (e : Nat) : Nat :=
  let rel := (s.chan.owned.map (fun p => p.2.released.length)).sum
  (s.corr.scheds.map (fun r => ((r.runs.filter (fun x => decide (x.entry.engine = e))).map (fun x => x.entry.count * rel)).sum)).sum

/-- Skip the shed slots of an engine. -/
def skipSlots (e : Nat) (s : State) : State :=
  match nextSlot s e with
  | none => s
  | some c => if (c.shedBy s).isSome then afterSlot (skipShed e (skipBound s e) s) else s

/-! ## Inputs and sums -/

/-- The system elements whose samples a job reads, by position; padding ordinals have none. -/
def jobElems (q : Pool) (p : Plan) (job : Nat) : List (Option Nat) :=
  let o := planOrds p
  let blk (b : Nat) : List (Option Nat) := (List.range 32).map (fun r => o[32 * b + r]?)
  if q.mode = 0 then
    let ij := tileAt p.tiles 0 (job % max 1 q.perChan)
    blk ij.1 ++ blk ij.2
  else
    let sec := job % max 1 p.sections
    (List.range (p.secBlocks sec)).flatMap (fun b => blk (64 * sec + b))

/-- The sums of an X job (R96, R98, R101, R102): 32 rows by 32 columns, Σ x_row·conj(x_col). -/
def xSums (q : Pool) (p : Plan) (warm : Nat) (u : StrokeBuf) (job : Nat) : List (Int × Int) :=
  let cols := (jobElems q p job).map (fun e => match e with
    | some sys => (List.range q.stroke).map (nibSample u warm sys)
    | none => [])
  (cols.take 32).flatMap (fun a => (cols.drop 32).map (fun b =>
    (List.zipWith (fun x y => cmul x (conj y)) a b).foldl (fun (t : Int × Int) x => (t.1 + x.1, t.2 + x.2)) (0, 0)))

/-- Words of the channel buffer that a job reads: 3.25 B per element and frame. -/
def jobWords (q : Pool) (p : Plan) (job : Nat) : Nat := 13 * (jobElems q p job).length * q.stroke / 128

/-- The words of a read of a job that were poisoned. -/
def badWords (l : List Ecc) : List Nat := (l.filter (fun e => !e.corrected)).map (·.word)

/-- Samples of a job in poisoned words: system element and frame within the stroke. -/
def lostSamples (q : Pool) (p : Plan) (job : Nat) (bad : List Nat) : List (Nat × Nat) :=
  if bad.isEmpty then []
  else (jobElems q p job).zipIdx.flatMap (fun x => match x.1 with
    | none => []
    | some sys => ((List.range q.stroke).filter (fun f => bad.any (fun w => Config.bufWord w (x.2 * q.stroke + f)))).map (fun f => (sys, f)))

/-- A sample that is lost becomes a gap with cause 8 unless it is one already (Table 14-4). -/
def loseSample (q : Pool) (p : Plan) (j i : Nat) (x : Nat × Nat) (s : State) : State :=
  match relBuf s q.plan j p i with
  | none => s
  | some u =>
    let y := u.sample x.1 x.2
    if y.gap ≠ 0 then s
    else
      let c := pchanOf s q.plan j
      let key := strokeKey p.vid i
      let u' := { u with samples := Tab.put u.samples (x.1 * 2 ^ 32 + x.2) { y with re := 0, im := 0, gap := 8 } }
      let c := { c with released := Tab.mod c.released key ⟨u, 0, false⟩ (fun r => { r with buf := u' }) }
      logRun q.plan (some j) x.1 8 (q.stroke * i + x.2) 1 (setPchan q.plan j c s)

/-- Words of a weight table that a job reads: 24 bits for each of 32 beams and each of its elements. -/
def weightWords (q : Pool) (p : Plan) (job : Nat) : Nat := 3 * (jobElems q p job).length + 1

/-- What the reads of a job are told: of `words` words of the channel buffer, then of `more` words of a weight table. -/
def jobSeen (s : State) (words more : Nat) (l : List Ecc) : List Ecc :=
  regionSeen s 1 0 words (l.filter (fun e => decide (e.word < words))) ++
    regionSeen s 3 words more (l.filter (fun e => decide (words ≤ e.word)))

/-- The words an engine reads: of the channel buffer through port 0, of a weight table, where the job reads one, through port 6
(Table 14-2). -/
def jobEcc (table : Bool) (words : Nat) (l : List Ecc) (s : State) : State :=
  let s := eccRead 0 1 (l.filter (fun e => decide (e.word < words))) s
  if table then eccRead 6 3 (l.filter (fun e => decide (words ≤ e.word))) s else s

/-- A weight of a job lies in a poisoned word. -/
def lostWeight (bad : List Nat) (b pos : Nat) : Bool := bad.any (fun w => Config.bufWord w (2 ^ 40 + b * 2 ^ 16 + pos))

/-- The job reads an explicit weight table. -/
def usesTable (s : State) (r : SchedRun) (k i : Nat) : Bool :=
  match Tab.get s.corr.bsets (r.setAt k i) with
  | some t => decide (t.source = 1)
  | none => false

/-- Start a slot on an engine: its inputs are read, its sums are fixed by them (R96, R143, R105). -/
def startSlot (e : Nat) (c : Cand) (q : Pool) (p : Plan) (ecc : List Ecc) (s : State) : State :=
  let j := q.chanOf c.job
  let s := if q.mode = 1 then decideEpochs c.gen c.pool q (c.pos.1 + 2) c.pos.1 s else s
  let words := jobWords q p c.job
  let table := (schedOf s c.gen).any (fun r => usesTable s r c.pool c.pos.1)
  let ecc := jobSeen s words (if table then weightWords q p c.job else 0) ecc
  let s := jobEcc table words ecc s
  let bad := badWords ecc
  let gone := lostSamples q p c.job (bad.filter (fun w => decide (w < words)))
  let s := gone.foldl (fun s x => loseSample q p j c.pos.1 x s) s
  match schedOf s c.gen, relBuf s q.plan j p c.pos.1 with
  | some r, some u =>
    let badW := if usesTable s r c.pool c.pos.1 then bad.filter (fun w => decide (words ≤ w)) else []
    let lost := lostWeight badW
    let nLost := if badW.isEmpty then 0
      else ((List.range 32).map (fun b => ((List.range (jobElems q p c.job).length).filter (lost b)).length)).sum
    let sums := if q.mode = 0 then xSums q p r.sched.warm u c.job else beamSums s r c.pool q p u c.job c.pos.1 lost
    let epoch := match r.runs[c.run]? with
      | some x => x.epochAt c.pos.1
      | none => 0
    let run : Running :=
      ⟨c.gen, c.run, c.pool, c.job, c.pos.1, c.pos.2, s.now, sums, u.lastAt, !gone.isEmpty || decide (0 < nLost), badW⟩
    let s := { s with corr.poisonCnt := Tab.add s.corr.poisonCnt c.pool nLost }
    let s := setRunOf c.gen c.run (fun x => { x with next := posNext x.entry.count c.pos }) s
    setEng e { engOf s e with epoch := epoch, run := some run, last := some (c.gen, c.run) } s
  | _, _ => s

/-- An engine can start a slot. -/
def engIdle (s : State) (e : Nat) : Bool :=
  let x := engOf s e
  !s.mgmt.trip && !x.failed && x.fence.isNone && x.run.isNone

/-- ENGINE_SLOT_START (R105): the next slot of an engine starts once the one before it has completed and its stroke is released; shed
slots end at once (R116). -/
def execEngineSlotStart (t : Tick) (engine : Fin 256) (ecc : List Ecc) (s : State) : Host.Outcome State Fault Refusal :=
  let s := s.advance t
  if engIdle s engine.val then
    let s := skipSlots engine.val s
    match nextSlot s engine.val with
    | none => .next s
    | some c => match schedOf s c.gen with
      | none => .next s
      | some r => match r.pool? c.pool with
        | none => .next s
        | some q => match poolPlan s q c.pos.1 with
          | none => .next s
          | some p => .next (startSlot engine.val c q p ecc s)
  else .next s

/-! ## Failure: spares and fallbacks (R113 to R115) -/

/-- The failed engines. -/
def failedEngines (s : State) : List Nat := (List.range 256).filter (fun e => (engOf s e).failed)

/-- Where an engine's run goes on after it was stopped: after an update that is being applied, otherwise after the last position done. -/
def EntryRun.resume (x : EntryRun) (s : State) (gen k : Nat) : Nat × Nat :=
  match s.corr.updating.find? (fun u => decide (u.hand.gen = gen ∧ u.hand.run = k)) with
  | some u => posNext x.entry.count (u.hand.stroke, u.hand.slot)
  | none => x.undone

/-- Set every run of an engine back to its boundary (R112, R422). -/
def rewind (e : Nat) (s : State) : State :=
  { s with corr.scheds := s.corr.scheds.map (fun r => { r with
      runs := r.runs.zipIdx.map (fun x => if x.1.entry.engine = e then { x.1 with next := x.1.resume s r.gen x.2 } else x.1) }) }

/-- A run of an engine still has slots to run. -/
def SchedRun.hasWork (r : SchedRun) (e : Nat) : Bool :=
  r.runs.any (fun x => decide (x.entry.engine = e) && r.within x x.undone)

/-- The spare of R113. -/
def pickSpare (s : State) (r : SchedRun) (e : Nat) : Option Nat :=
  let l := (r.sched.spares.filter (fun w => !(engOf s w).failed && !r.spared.contains w)).foldl (fun l w => insertNat w l) []
  match l.find? (fun w => decide (engineDomain w ≠ engineDomain e)) with
  | some w => some w
  | none => l.head?

/-- A spare takes over every entry of a failed engine (R113). -/
def spareIn (gen e w : Nat) (s : State) : State :=
  let s := { s with corr.scheds := s.corr.scheds.map (fun r => if r.gen = gen then { r with
      spared := w :: r.spared
      runs := r.runs.map (fun x => if x.entry.engine = e then { x with entry := { x.entry with engine := w } } else x) } else r) }
  postEvent 0x23 (engSubject e) (le 1 w ++ le 1 (engineDomain w)) s

/-- A shed event (Table 15-8). -/
def shedEvent (x : ShedEntry) (cause subject : Nat) (s : State) : State :=
  postEvent 0x20 subject (le 2 x.product ++ le 1 x.pool ++ le 1 cause ++ le 2 x.firstCh ++ le 2 x.channels) s

/-- Shed entry `n` of a schedule from stroke `lo` of its pool on (R116). An entry already shed is left as it is. -/
def shedEntry (gen n cause subject lo : Nat) (s : State) : State :=
  match schedOf s gen with
  | none => s
  | some r => match r.sched.shed[n]? with
    | none => s
    | some x =>
      if r.isShed n then s
      else shedEvent x cause subject (setSched { r with
        shed := Tab.put r.shed n (⟨cause, subject, lo, none, decide (cause = 1)⟩ :: r.sheds n) } s)

/-- The epochs of an engine that a fallback puts to work in a pool: those it has in the schedule, for a beam pool the pool's. -/
def fbEpochs (s : State) (r : SchedRun) (e : EngEntry) (lo : Nat) : List (Nat × Nat) :=
  let ofPool := r.runs.find? (fun x => decide (x.entry.pool = e.pool))
  let ofEng := r.runs.find? (fun x => decide (x.entry.engine = e.engine))
  match (r.pool? e.pool).map (·.mode), ofPool, ofEng with
  | some 1, some x, _ => x.epochs
  | _, _, some x => [(0, x.epochAt lo)]
  | _, _, none => [(0, (engOf s e.engine).epoch)]

/-- Switch a schedule to fallback `f`, each pool at its next stroke release (R114). -/
def fallBack (gen f : Nat) (fb : Fallback) (s : State) : State :=
  match schedOf s gen with
  | none => s
  | some r =>
    let sw (k : Nat) : Nat := match r.pool? k with
      | some q => nextRelease s q
      | none => 0
    let cut (x : EntryRun) : EntryRun := { x with hi := some (match x.hi with
      | some h => min h (sw x.entry.pool)
      | none => sw x.entry.pool) }
    let fresh := fb.entries.map (fun e =>
      let lo := sw e.pool
      (⟨e, some f, lo, none, (lo, 0), none, (engOf s e.engine).failed, fbEpochs s r e lo⟩ : EntryRun))
    let switches := (List.range r.sched.pools.length).foldl (fun t k => Tab.put t k ((sw k, f) :: Tab.getD r.switches k [])) r.switches
    let s := setSched { r with runs := r.runs.map cut ++ fresh, fbIn := some f, switches := switches } s
    let s := postEvent 0x24 f [] s
    (List.range fb.preshed).foldl (fun s n => match r.sched.shed[n]? with
      | some x => shedEntry gen n 1 0xFFFF (sw x.pool) s
      | none => s) s

/-- No spare is left for a failed engine (R114, R115): its jobs are unserved, and the first fallback that covers every failed engine
comes into force. -/
def noSpare (gen e : Nat) (s : State) : State :=
  let s := { s with corr.scheds := s.corr.scheds.map (fun r => if r.gen = gen then { r with
      runs := r.runs.map (fun x => if x.entry.engine = e then { x with unserved := true } else x) } else r) }
  match schedOf s gen with
  | none => s
  | some r =>
    let fs := failedEngines s
    let s := match r.sched.fallbacks.zipIdx.find? (fun f => fs.all (fun x => f.1.exclude.getLsbD x)) with
      | some f => if r.fbIn = some f.2 then s else fallBack gen f.2 f.1 s
      | none => s
    if r.unserved.contains e then s
    else
      let s := { s with corr.scheds := s.corr.scheds.map (fun r => if r.gen = gen then { r with unserved := e :: r.unserved } else r) }
      if s.corr.scheds.any (fun x => decide (x.gen ≠ gen) && x.unserved.contains e) then s
      else postEvent 0x25 (engSubject e) [] s

/-- What a schedule does with a failed engine; one that has no slot left to run in it takes no spare and switches to no fallback (DESIGN
CHOICE, log entry 106). -/
def replaceEngine (gen e : Nat) (s : State) : State :=
  match schedOf s gen with
  | none => s
  | some r =>
    if !r.hasWork e then s
    else match pickSpare s r e with
      | some w => spareIn gen e w s
      | none => noSpare gen e s

/-- The work of a deferred command ends: its completion falls due. -/
def endWork (w : Work) (status info : Nat) (s : State) : State :=
  { s with host.deferred := s.host.deferred.map (fun x =>
      if x.work = w ∧ x.ended = none ∧ ¬ s.twin.timed.any (fun y => decide (y.desc.index = x.desc.index)) then
        { x with ended := some (status, info) }
      else x) }

/-- Mark an engine failed (R423). -/
def markFailed (e cause : Nat) (s : State) : State :=
  let x := engOf s e
  if x.failed then s
  else
    let s := rewind e s
    let keep := s.corr.updating.any (fun u => decide (u.hand.engine = e))
    let s := setEng e { x with failed := true, fence := none, run := none, out := if keep then x.out else none } s
    let s := postEvent 0x82 (engSubject e) (le 1 cause) s
    let s := (s.corr.scheds.map (·.gen)).foldl (fun s g => replaceEngine g e s) s
    afterSlot (closeBatches (endWork (.fence e) stOk 1 s))

/-! ## Fencing (R421, R422) -/

/-- The run an engine stands in. -/
def standing (s : State) (e : Nat) : Option (SchedRun × Nat × EntryRun) :=
  let x := engOf s e
  let at_ : Option (Nat × Nat) := match x.run, x.out with
    | some r, _ => some (r.gen, r.run)
    | none, some h => some (h.gen, h.run)
    | none, none => x.last
  let named := match at_ with
    | some p => (schedOf s p.1).bind (fun r => (r.runs[p.2]?).map (fun y => (r, p.2, y)))
    | none => none
  match named with
  | some p => some p
  | none => s.corr.scheds.findSome? (fun r => (r.runs.zipIdx.find? (fun y => decide (y.1.entry.engine = e))).map (fun y => (r, y.2, y.1)))

/-- The stroke of the agreed boundary, the slot after it, and the epoch expected there, as the fence event reports them (Table 16-18). -/
def fenceAt (s : State) (e : Nat) : Nat × Nat × Nat :=
  match standing s e with
  | none => (0, 0, (engOf s e).epoch)
  | some (_, _, x) =>
    let p := match x.done with
      | some d => (d.1, d.2 + 1)
      | none => (x.lo, 0)
    (p.1, p.2, x.epochAt x.undone.1)

/-- Fence an engine: it stops, what it hands off from here on is discarded, and its entries go back to the boundary. A third fence
within 10 s marks it failed (R423). -/
def fenceEngine (e cause : Nat) (s : State) : State :=
  let x := engOf s e
  if x.failed || x.fence.isSome then s
  else
    let b := fenceAt s e
    let keep := s.corr.updating.any (fun u => decide (u.hand.engine = e))
    let again : List (Nat × Nat × Nat × Nat × Nat) := match x.run with
      | some r => [(e, r.gen, r.run, r.stroke, r.slot)]
      | none => if keep then [] else match x.out with
        | some h => [(e, h.gen, h.run, h.stroke, h.slot)]
        | none => []
    let times := x.fences.filter (fun a => !decide (10 * tickHz < s.now - a)) ++ [s.now]
    let s := openRecovery 3 e s
    let s := rewind e s
    let s := setEng e { x with fence := some ⟨cause, s.now⟩, fences := times, run := none, out := if keep then x.out else none } s
    let s := noteLog (.fence ⟨e, engineDomain e, cause, b.1, b.2.1, b.2.2, s.now⟩) { s with corr.reruns := s.corr.reruns ++ again }
    let s := postEvent 0x80 (engSubject e) (le 1 cause ++ zeros 3 ++ le 4 b.1 ++ le 4 b.2.1 ++ le 4 b.2.2) s
    if 3 ≤ times.length then markFailed e 3 s else s

/-- ENGINE_STALL_TIMEOUT (R421, cause 2): a running slot has made no hand-off for 4 times its handshakes at 2 ns, or 100 µs. A slot whose
hand-off waits for the output stage is not stalled. -/
def execEngineStallTimeout (t : Tick) (engine : Fin 256) (s : State) : Host.Outcome State Fault Refusal :=
  let s := s.advance t
  let x := engOf s engine.val
  match x.run with
  | none => .next s
  | some g =>
    let h := match (schedOf s g.gen).bind (fun r => r.pool? g.pool) with
      | some q => match poolPlan s q g.stroke with
        | some p => q.handshakes p g.job
        | none => 0
      | none => 0
    let dt := s.now - g.startAt
    if x.out.isNone && atLeastUs dt 100 && decide (100 * tickHz < dt * 1000000) && decide (8 * h * tickHz < dt * 1000000000) then
      .next (fenceEngine engine.val 2 s)
    else .next s

/-- ENGINE_BUFFER_ERROR (R421, cause 3). -/
def execEngineBufferError (t : Tick) (engine : Fin 256) (s : State) : Host.Outcome State Fault Refusal :=
  .next (fenceEngine engine.val 3 (s.advance t))

/-- FENCE_CHECK_DONE (R422, R423): the reload or the check job failed, or the engine is released and re-runs. -/
def execFenceCheckDone (t : Tick) (engine : Fin 256) (reloaded passed : Bool) (s : State) : Host.Outcome State Fault Refusal :=
  let s := s.advance t
  let e := engine.val
  let x := engOf s e
  match x.fence with
  | none => .next s
  | some f =>
    if !reloaded then .next (markFailed e 1 s)
    else if !passed then .next (markFailed e 2 s)
    else
      let us := (roundDiv (((s.now - f.at_) * 1000000 : Nat) : Int) tickHz).toNat
      let s := setEng e { x with fence := none } s
      let s := postEvent 0x81 (engSubject e) (le 4 us) s
      let s := endWork (.fence e) stOk 0 s
      .next (if s.corr.reruns.any (fun y => decide (y.1 = e)) then s else closeRecovery 3 e s.tw s)

/-! ## Hand-offs (R99, R420, R421) -/

/-- The hand-off of a slot that has completed. -/
def handOf (s : State) (e carried : Nat) (g : Running) (q : Pool) (x : EntryRun) : Handoff :=
  ⟨g.gen, g.run, g.pool, g.job, g.stroke, g.slot, e, carried, g.sums, dueOf s q x.entry (g.stroke, g.slot),
    deadlineOf s q x.entry (g.stroke, g.slot), s.tw, g.inputAt, g.tainted, false, g.badW⟩

/-- ENGINE_HANDOFF (R99, R145, R420, R421): the sums go to the output stage when it is free, a beam job's to the beam output stage; a
hand-off with a stale epoch is discarded and counted, and its engine is fenced. -/
def execEngineHandoff (t : Tick) (engine : Fin 256) (carried : BitVec 32) (s : State) : Host.Outcome State Fault Refusal :=
  let s := s.advance t
  let e := engine.val
  let x := engOf s e
  match x.run with
  | none => .next s
  | some g =>
    if x.out.isSome || s.mgmt.trip then .next s
    else match schedOf s g.gen with
      | none => .next (setEng e { x with run := none } s)
      | some r => match r.pool? g.pool, r.runs[g.run]? with
        | some q, some y =>
          if carried.toNat ≠ y.epochAt g.stroke then
            .next (fenceEngine e 1 (setEng e { x with stale := bump 32 x.stale 1 } s))
          else
            let h := handOf s e carried.toNat g q y
            if q.mode = 0 then .next (setEng e { x with run := none, out := some h } s)
            else match poolPlan s q g.stroke with
              | none => .next s
              | some p => .next (afterSlot (takeBeam h r q p (setEng e { x with run := none } s)))
        | _, _ => .next (setEng e { x with run := none } s)

/-! ## Unserved slots (R115) -/

/-- The slot of a failed engine whose deadline comes first. A hand-off that is being applied, and waits for a spill entry, is no unserved
slot. -/
def firstUnserved (s : State) (e : Nat) : Option Cand :=
  let l := s.corr.scheds.flatMap (fun r => r.runs.zipIdx.filterMap (fun x =>
    match r.pool? x.1.entry.pool with
    | none => none
    | some q =>
      let pos := x.1.undone
      let applying := s.corr.updating.any (fun u => decide (u.hand.gen = r.gen ∧ u.hand.run = x.2))
      if x.1.entry.engine = e && x.1.unserved && r.within x.1 pos && !applying then
        some ⟨r.gen, x.2, x.1.entry.pool, x.1.entry.firstJob + pos.2, pos, deadlineOf s q x.1.entry pos⟩
      else none))
  l.foldl (fun (b : Option Cand) c => match b with
    | none => some c
    | some a => if c.due < a.due then some c else some a) none

/-- SLOT_UNSERVED (R115): the next engine-stroke of a failed engine is declared at its deadline. One that is shed ends at once, when its
stroke has been released, and starts the wait of R116. -/
def execSlotUnserved (t : Tick) (engine : Fin 256) (s : State) : Host.Outcome State Fault Refusal :=
  let s := s.advance t
  match firstUnserved s engine.val with
  | none => .next s
  | some c =>
    if (c.shedBy s).isSome then
      if (s.tw : Int) < c.due && !c.released s then .next s
      else .next (afterSlot (missSlot c.gen c.run c.pool c.job c.pos 2 (noteSkip c s)))
    else if (s.tw : Int) < c.due then .next s
    else .next (afterSlot (missSlot c.gen c.run c.pool c.job c.pos 1 s))

/-! ## Releases (R94) -/

/-- The jobs of a channel of a pool that no entry in force runs in a stroke: a fallback may leave preshed channels out (R108). -/
def uncovered (r : SchedRun) (k : Nat) (q : Pool) (c i : Nat) : List Nat :=
  if decide (i < q.first) || !strokeRun r k i || !Tab.has r.switches k then []
  else ((List.range q.perChan).map (· + c * q.perChan)).filter (fun j => (r.runFor k j i).isNone)

/-- Declare them when their stroke is released. -/
def declareUncovered (plan j i : Nat) (s : State) : State :=
  s.corr.scheds.foldl (fun s r => r.sched.pools.zipIdx.foldl (fun s q =>
    if decide (q.1.plan = plan) && q.1.hasChan j then
      (uncovered r q.2 q.1 (j - q.1.firstCh) i).foldl (fun s job =>
        if (r.shedBy q.2 j i).isSome then missJob r q.2 q.1 job i 2 (noteSkip ⟨r.gen, 0, q.2, job, (i, 0), 0⟩ s)
        else missJob r q.2 q.1 job i 1 s) s
    else s) s) s

/-- STROKE_RELEASE (R94): the oldest stroke of a plan channel is released when every contribution is complete, or at its latest release
instant. -/
def execStrokeRelease (t : Tick) (plan : Fin 16) (j : Nat) (s : State) : Host.Outcome State Fault Refusal :=
  let s := s.advance t
  match releasable s plan.val j with
  | none => .next s
  | some p =>
    let i := (pchanOf s plan.val j).next
    .next (afterSlot (declareUncovered plan.val j i (releaseStrokeOf plan.val j p s)))

end Sys2Proof.Machine
end

