-- ==== Sys2Proof/Machine/Shed.lean ====
section
/-!
DEFINITION. Loading and unloading a schedule (R107 to R111, R383), shedding and restoring (R116 to R119), the engine fence command
(R422), and the instant T of a host-timed command (R442).
-/
namespace Sys2Proof.Machine

/-! ## Host-timed commands (R442) -/

/-- Send a twin frame: seq, 14 reserved bytes, body (R330). -/
def twinSend (kind : Nat) (body : Bytes) (s : State) : State :=
  (quadsOf s 5).foldl (fun s q => linkSend q 0 kind (zeros 16 ++ body) s) s

/-- An arbitration frame's body (Table 13-7). -/
def arbBody (op first last result : Nat) : Bytes := le 1 op ++ zeros 7 ++ le 8 first ++ le 8 last ++ le 8 result

/-- Post a step event (Table 17-14). -/
def stepEvent (s : State) : State := postEvent 0xA6 s.member (le 1 (b01 s.twin.step) ++ le 1 (b01 s.twin.gstep)) s

/-- A member leaves step. -/
def leaveStep (s : State) : State :=
  if s.twin.step then stepEvent { s with twin.step := false, twin.gstep := false, twin.equalAt := none } else s

/-- The key of a host-timed command in EFFECT (R442). -/
def effectKey (d : Desc) : Nat := d.opcode.toNat * 2 ^ 32 + d.tag.toNat

/-- The T of a host-timed command: a lit member sets it 10 ms ahead and tells the shadow; a standalone device takes the present; a
shadow waits for EFFECT, which is `none`, unless it has come already. -/
def takeT (d : Desc) (data : Bytes) (s : State) : Option Nat × State :=
  if s.twinEn then
    if s.twin.role = .lit then
      let T := (s.tw + (usTicks 10000).toNat) % 2 ^ 64
      (some T, twinSend 2 (arbBody 5 T T (effectKey d)) s)
    else match s.twin.effects.find? (fun p => decide (p.1 = effectKey d)) with
      | some p =>
        let s := { s with twin.effects := s.twin.effects.filter (fun x => decide (x.1 ≠ p.1)) }
        (some p.2, if p.2 < s.tw then leaveStep s else s)
      | none => (none, { s with twin.timed := s.twin.timed ++ [⟨d, data, none⟩] })
  else (some s.tw, s)

/-- Complete an immediate host-timed command: in a pair its effect through EFFECT disturbs no recovery (R458). -/
def acceptTimed (d : Desc) (s : State) : State := if s.twinEn then complete d stOk 0 s else accept d s

/-! ## Shedding and restoring (R116 to R119) -/

/-- The shed entries of the schedule in effect that carry a product. -/
def productEntries (s : State) (product : Nat) : List Nat :=
  match curSched s with
  | none => []
  | some r => (List.range r.sched.shed.length).filter (fun n => match r.sched.shed[n]? with
      | some x => decide (x.product = product)
      | none => false)

/-- Shed every entry of a product from the effect point of `T` on (R116, Table 17-1). -/
def shedProduct (product T : Nat) (s : State) : State :=
  (productEntries s product).foldl (fun s n => match curSched s with
    | none => s
    | some r => match (r.sched.shed[n]?).bind (fun x => r.pool? x.pool) with
      | none => s
      | some q => shedEntry r.gen n 2 0xFFFF (shedPoint s q T) s) s

/-- Restore an entry at its pool's next integration boundary at or after the effect point of `T` (R119). The 64-stroke wait of an entry ends
with its restoring (DESIGN CHOICE, log entry 107). -/
def restoreEntry (n T : Nat) (s : State) : State :=
  match curSched s with
  | none => s
  | some r => match r.sched.shed[n]? with
    | none => s
    | some x => match r.pool? x.pool, r.sheds n with
      | some q, h :: l =>
        if !r.isShed n then s
        else
          let b := q.first + ceilDiv (shedPoint s q T - q.first) (max 1 q.integ) * max 1 q.integ
          let hold := match r.hold with
            | some w => if w.entry = n then none else some w
            | none => none
          let r := { r with shed := Tab.put r.shed n ({ h with hi := some (Nat.max b h.lo) } :: l), hold := hold }
          postEvent 0x21 0 (le 2 x.product ++ le 1 x.pool) (setSched r s)
      | _, _ => s

/-- Restore every entry of a product. -/
def restoreProduct (product T : Nat) (s : State) : State := (productEntries s product).foldl (fun s n => restoreEntry n T s) s

/-- The fallback in force when one of some entries is preshed by it (R119). -/
def preshedBy (s : State) (ns : List Nat) : Option Nat :=
  match curSched s with
  | none => none
  | some r => match r.fbIn with
    | none => none
    | some f => match r.sched.fallbacks[f]? with
      | none => none
      | some fb => if ns.any (fun n => decide (n < fb.preshed)) then some f else none

/-- SHED (R116, R442). -/
def runShed (d : Desc) (data : Bytes) (s : State) : State :=
  let product := par d 32 2
  match firstFail [descChk d [(32, 2)], need (!(productEntries s product).isEmpty) stNotFound product] with
  | some c => refuse d c s
  | none =>
    let r := takeT d data s
    let s := r.2
    match r.1 with
    | some T => acceptTimed d (shedProduct product T s)
    | none => acceptTimed d s

def execShed (t : Tick) (d : Desc) (data : Bytes) (s : State) : Host.Outcome State Fault Refusal :=
  .next (runShed d data (s.advance t))

/-- RESTORE (R119, R442). -/
def runRestore (d : Desc) (data : Bytes) (s : State) : State :=
  let product := par d 32 2
  let ns := productEntries s product
  match firstFail [descChk d [(32, 2)], need (!ns.isEmpty) stNotFound product] with
  | some c => refuse d c s
  | none =>
    match preshedBy s ns with
    | some f => complete d stBusy f s
    | none =>
      let r := takeT d data s
      let s := r.2
      match r.1 with
      | some T => acceptTimed d (restoreProduct product T s)
      | none => acceptTimed d s

def execRestore (t : Tick) (d : Desc) (data : Bytes) (s : State) : Host.Outcome State Fault Refusal :=
  .next (runRestore d data (s.advance t))

/-- A steward's shedding request (R116, R118): the first entry that is not shed, unless the wait of the last one lasts. -/
def shedNext (domain : Nat) (s : State) : State :=
  match curSched s with
  | none => s
  | some r =>
    match (List.range r.sched.shed.length).find? (fun n => !r.isShed n) with
    | none => postEvent 0x22 domain [] s
    | some n =>
      if r.hold.isSome then s
      else match (r.sched.shed[n]?).bind (fun x => r.pool? x.pool) with
        | none => s
        | some q =>
          let s := shedEntry r.gen n 0 domain (nextRelease s q) s
          { s with corr.scheds := s.corr.scheds.map (fun x => if x.gen = r.gen then { x with hold := some ⟨n, domain, false, 64⟩ } else x) }

/-! ## The engine fence command (R422, R442) -/

/-- The due time of the first slot of a run that is due at or after `T`. -/
def runDue (s : State) (r : SchedRun) (x : EntryRun) (T : Nat) : Option Int :=
  match r.pool? x.entry.pool with
  | none => none
  | some q =>
    let lastDue (i : Nat) : Int := dueOf s q x.entry (i, x.entry.count - 1)
    let rec find : Nat → Nat → Nat
      | 0, i => i
      | k + 1, i => if (T : Int) ≤ lastDue i then i else find k (i + 1)
    let i := find 4096 (Nat.max x.lo (x.undone.1 - 2))
    if !r.within x (i, 0) then none
    else ((List.range x.entry.count).find? (fun j => decide ((T : Int) ≤ dueOf s q x.entry (i, j)))).map (fun j => dueOf s q x.entry (i, j))

/-- The due time of the first slot of an engine that is due at or after `T` (Table 17-1). -/
def engineDue (s : State) (e T : Nat) : Option Int :=
  let l := s.corr.scheds.flatMap (fun r => (r.runs.filter (fun x => decide (x.entry.engine = e))).filterMap (fun x => runDue s r x T))
  match l with
  | [] => none
  | a :: r => some (r.foldl min a)

/-- The fence command acts: at the due time of that slot, at once when the engine has none. -/
def hostFence (e : Nat) (s : State) : State :=
  if (engOf s e).failed then endWork (.fence e) stOk 1 s else fenceEngine e 4 s

/-- The effect point of an engine fence has come. -/
def fenceNow (s : State) (e T : Nat) : Bool :=
  match engineDue s e T with
  | some v => decide (v ≤ (s.tw : Int))
  | none => decide (T ≤ s.tw)

/-- ENGINE_FENCE (R422, R442, Table 16-17): deferred until the release, or the failure with info 1. -/
def runEngineFence (d : Desc) (data : Bytes) (s : State) : State :=
  let e := par d 32 1
  match descChk d [(32, 1)] with
  | some c => refuse d c s
  | none =>
    let s := if s.twinEn then s else disturb s
    let s := { s with host.deferred := s.host.deferred ++ [⟨d, .fence e, none⟩] }
    if (engOf s e).failed then endWork (.fence e) stOk 1 s
    else
      let r := takeT d data s
      let s := r.2
      match r.1 with
      | some T =>
        if !s.twinEn && fenceNow s e T then hostFence e s else { s with twin.timed := s.twin.timed ++ [⟨d, data, some T⟩] }
      | none => s

def execEngineFence (t : Tick) (d : Desc) (data : Bytes) (s : State) : Host.Outcome State Fault Refusal :=
  .next (runEngineFence d data (s.advance t))

/-! ## Loading a schedule -/

/-- Counts of the header in their ranges. -/
def schedCounts (b : Bytes) : Chk := firstFail [
  need (decide (1 ≤ fieldU b 2 1 ∧ fieldU b 2 1 ≤ 64)) stRange 2, need (decide (fieldU b 3 1 ≤ 8)) stRange 3,
  need (decide (fieldU b 4 1 ≤ 16)) stRange 4, need (decide (fieldU b 5 1 ≤ 1)) stRange 5, need (decide (fieldU b 6 2 ≤ 1024)) stRange 6]

/-- The spare list is padded with 0xFF. -/
def sparePad (b : Bytes) (a : SchedAt) : Chk :=
  let n := fieldU b 4 1
  firstFail ((List.range (8 * ceilDiv n 8 - n)).map (fun i => need (decide (fieldU b (a.spares + n + i) 1 = 0xFF)) stReserved (a.spares + n + i)))

/-- A pool of an image whose activate frame has already passed (R111). -/
def schedLate (s : State) (c : Sched) : Bool :=
  c.pools.any (fun q => match planAt s q.plan q.activate with
    | some p => decide (planStamp p q.activate ≤ (s.tw : Int))
    | none => false)

/-- Every check of a schedule image. -/
def schedChk (d : Desc) (b : Bytes) (s : State) : Chk :=
  let a := schedAt b
  let c := parseSched b
  firstFail [descChk d [(32, 1)], need (decide (64 ≤ d.len.toNat)) stSize 64, schedCounts b, sizeChk d (a.crc + 4),
    need (decide (fieldU b 40 4 = a.crc + 4)) stSize (a.crc + 4), schedZeros b, sparePad b a,
    need (decide (fieldU b a.crc 4 = (crc32c (b.take a.crc)).toNat)) stCrc 0,
    firstFail (c.pools.zipIdx.map (fun q => poolChk s q.1 (64 + 32 * q.2))), coverChk s c a, capChk s c b,
    need (!schedLate s c) stLate 0,
    match takeConflict s c with
    | some e => some (stConflict, e)
    | none => none]

/-- The payload format that the binding of a pool's dumps states. -/
def poolFormats (s : State) (c : Sched) : Tab (List (Nat × Nat × Nat)) :=
  (List.range c.pools.length).foldl (fun t k => match bindingOf s 0 k with
    | some (_, b) => (match b.replacement with
      | none => Tab.put t k [(0, b.format, b.fscale)]
      | some none => t
      | some (some (_, _, _, fmt, fscale)) => Tab.put t k [(0, fmt, fscale)])
    | none => t) []

/-- The beam sets that the B pools start with. -/
def poolSets (c : Sched) : Tab (List (Nat × Nat)) :=
  c.pools.zipIdx.foldl (fun t q => if q.1.mode = 1 then Tab.put t q.2 [(0, q.1.bset)] else t) []

/-- Load a schedule that passed its checks (R111). -/
def loadSched (c : Sched) (s : State) : State :=
  let e := newEpoch s
  let s := e.2
  let r : SchedRun := {
    gen := s.corr.nextGen, sched := c, stops := [], unloads := [], runs := startRuns s c e.1, spared := [], fbIn := none, switches := [], shed := [],
    hold := none, bsets := poolSets c, moved := [], unserved := [], formats := poolFormats s c, arrived := [] }
  let s := { s with
    corr.scheds := s.corr.scheds.map (fun x => { x with stops := stopsFor x c }) ++ [r]
    corr.nextGen := s.corr.nextGen + 1 }
  afterSlot ((failedEngines s).foldl (fun s e => replaceEngine r.gen e s) s)

/-- The time word at which a schedule takes effect: the start of the first stroke that one of its pools runs. -/
def schedTime (s : State) (c : Sched) : Nat :=
  match c.pools.map (fun q => (strokeStart s q q.first).toNat) with
  | [] => s.tw
  | a :: l => l.foldl min a

/-- SCHEDULE_LOAD (R107 to R111, R147). -/
def runScheduleLoad (d : Desc) (data : Bytes) (s : State) : State :=
  let b := dataOf d data
  match schedChk d b s with
  | some c => refuse d c s
  | none =>
    let c := parseSched b
    complete d stOk 0 (loadSched c (cfgPutAt (schedTime s c) 3 (fieldU b 0 2) b s))

def execScheduleLoad (t : Tick) (d : Desc) (data : Bytes) (s : State) : Host.Outcome State Fault Refusal :=
  .next (runScheduleLoad d data (s.advance t))

/-! ## Unloading a schedule (R383) -/

/-- Where a pool of an unloaded schedule stops: before its start, or at its next integration or stroke boundary. -/
def unloadStop (s : State) (q : Pool) : Nat :=
  let i := nextRelease s q
  if i ≤ q.first then q.first
  else if q.mode = 0 then q.first + ceilDiv (i - q.first) (max 1 q.integ) * max 1 q.integ
  else i

/-- The schedule has been unloaded before any of its pools started (R383). -/
def SchedRun.removed (r : SchedRun) : Bool :=
  r.sched.pools.zipIdx.all (fun q => match Tab.get r.unloads q.2 with
    | some h => decide (h ≤ q.1.first)
    | none => false)

/-- Where the pools of a schedule stop: by its own unload, and by the takeovers of the schedules loaded after it that still start. -/
def restop (l : List SchedRun) (x : SchedRun) : Tab Nat :=
  (l.filter (fun y => decide (x.gen < y.gen) && !y.removed)).foldl (fun t y => stopsFor { x with stops := t } y.sched) x.unloads

/-- Stop the pools of the newest schedule with an id; `none` when there is none. One that is removed before any pool starts takes nothing over:
the stops that its loading gave older schedules go with it (R383, R111). -/
def unloadSched (id : Nat) (s : State) : Option State :=
  match (s.corr.scheds.filter (fun r => decide (r.sched.id = id))).getLast? with
  | none => none
  | some r =>
    let stops := r.sched.pools.zipIdx.foldl (fun t q =>
      let h := unloadStop s q.1
      Tab.put t q.2 (match Tab.get t q.2 with
        | some b => min h b
        | none => h)) r.unloads
    let s := setSched { r with unloads := stops } s
    some (afterSlot (closeBatches { s with corr.scheds := s.corr.scheds.map (fun x => { x with stops := restop s.corr.scheds x }) }))

end Sys2Proof.Machine
end

