-- ==== Sys2Proof/Machine/Audio.lean ====
section
/-!
DEFINITION. The audio block (09_audio_routing.md): configuration, sources and rate conversion, routing sets and their swap, sinks,
capture records.
-/
namespace Sys2Proof.Machine

/-! ## Instants and positions (R228, R230) -/

/-- x_a (R228). -/
def audioTime (t0 a : Nat) : Int := (t0 : Int) + spanTicks a 1 48000

/-- A position of R230 as index and phase: `ticks` elapsed on the source's own scale since its input 0, less the lag, at rate `rate` ÷
`ratio`. -/
def audioPos (ticks : Int) (lag rate ratio : Nat) : Int × Nat :=
  let num := (ticks * 1000000 - (lag * tickHz : Nat)) * rate
  let den : Int := (tickHz * 1000000 * max 1 ratio : Nat)
  let i := num.fdiv den
  let ph := roundDiv ((num - i * den) * 256) den
  if ph = 256 then (i + 1, 0) else (i, ph.toNat)

/-- The position of a source at an instant, on the timeline of an element's last chain restart (R230), or before any on that of its next
block; an element that is not started has none. -/
def srcPos (s : State) (a : AudioSrc) (t0 : Nat) (x : Int) : Option (Int × Nat) :=
  if a.kind = 1 then some (audioPos (x - t0) a.lag a.rate 1)
  else match Tab.get s.cond.run a.index with
  | none => none
  | some r => (r.chainAt.or (((viewAt s r.condNext).desc a.index).map (fun g => (r.tOrg, g)))).map (fun c =>
      audioPos (x - condStamp c.1 c.2 0) a.lag c.2.rate c.2.ratio)

/-- h[ph][t] (R231). -/
def audioCoef (ph t : Nat) : Int :=
  if ph = 0 then (if t = 15 then 2 ^ 18 else 0) else wrapS 20 (Config.bootRom 5 (32 * ph + t))

/-! ## Source rings (R395) -/

/-- A source ring. -/
def srcRingOf (s : State) (r : Nat) : SrcRing := vget s.host.src r ⟨[], 0, 0⟩

/-- The least sample of a source ring that each of its readers can still need: audio sources at their next index, running beams. -/
def ringNeeds (s : State) (ring : Nat) : List Nat :=
  let au := match s.audio.t0 with
    | none => []
    | some t0 => (s.audio.srcs.filter (fun a => decide (a.kind = 1 ∧ a.index = ring))).filterMap (fun a =>
        (srcPos s a t0 (audioTime t0 s.audio.idx)).map (fun p => (p.1 - 15).toNat))
  au ++ (s.tx.beams.filter (fun p => decide (p.2.entry.source = 3 ∧ p.2.entry.srcId = ring))).map (fun p => p.2.ring0 + p.2.n)

/-- Advance src_cons past the samples that no reader can need again (R395); while a ring has no reader it keeps its samples. -/
def srcTrim (ring : Nat) (s : State) : State :=
  match ringNeeds s ring with
  | [] => s
  | a :: l =>
    let k := srcRingOf s ring
    let j := min (l.foldl min a) (k.read / 2)
    let old := (vget s.host.srcCons ring 0).toNat
    let new := k.base + 2 * j
    if new ≤ old then s
    else { s with
      host.srcCons := vset s.host.srcCons ring (BitVec.ofNat 64 new)
      host.src := vset s.host.src ring { k with samples := k.samples.filter (fun p => decide (j ≤ p.1)) } }

/-! ## Configuration (R227, R229) -/

/-- Read a source entry (Table 09-2). -/
def parseSrc (b : Bytes) (o : Nat) : AudioSrc :=
  ⟨fieldU b o 1, fieldU b (o + 2) 2, fieldU b (o + 4) 4, fieldU b (o + 8) 4, [], 0, 0, 0, none⟩

/-- Read a sink entry (Table 09-3): silent from the start, its inputs before index 0 being 0 (R236, R242). -/
def parseSink (b : Bytes) (o : Nat) : AudioSink where
  kind := fieldU b o 1
  format := fieldU b (o + 1) 1
  ahead := fieldU b (o + 2) 2
  thr := fieldU b (o + 4) 4
  hold := fieldU b (o + 8) 4
  block := fieldU b (o + 12) 2
  line := []
  quiet := fieldU b (o + 8) 4
  outs := []
  silent := []
  sat := 0
  cap := []
  capSat := 0
  capLate := 0
  capSilent0 := false
  capSwap := false

/-- Checks of a source entry (Table 09-2, R229). -/
def srcChk (s : State) (b : Bytes) (o : Nat) : Chk :=
  let a := parseSrc b o
  let elem : Bool := match s.view.active a.index with
    | some (_, g) => decide (1000 * g.ratio ≤ g.rate ∧ g.rate ≤ 48000 * g.ratio)
    | none => false
  firstFail [
    need (decide (a.kind ≤ 1)) stRange o, needZero b (o + 1) 1 0,
    need (if a.kind = 1 then decide (a.index < 32) else decide (a.index < 16384) && elem) stRange (o + 2),
    need (if a.kind = 1 then decide (8000 ≤ a.rate ∧ a.rate ≤ 48000) else decide (a.rate = 0)) stRange (o + 4),
    need (decide (a.lag ≤ 1000000)) stRange (o + 8), needZero b (o + 12) 4 0]

/-- Checks of a sink entry (Table 09-3). -/
def sinkChk (b : Bytes) (o : Nat) : Chk :=
  let a := parseSink b o
  firstFail [
    need (decide (a.kind ≤ 1)) stRange o,
    need (decide (a.format ≤ a.kind)) stRange (o + 1),
    need (decide (a.ahead ≤ 960)) stRange (o + 2),
    need (decide (a.thr ≤ 8388607)) stRange (o + 4),
    need (decide (a.ahead + 1 ≤ a.hold ∧ a.hold ≤ 16777216)) stRange (o + 8),
    need (if a.kind = 1 then decide (48 ≤ a.block ∧ a.block ≤ 4800) else decide (a.block = 0)) stRange (o + 12),
    needZero b (o + 14) 2 0]

/-- The configured block: everything else restarts (R227). -/
def audioBlock (b : Bytes) : AudioState :=
  let ns := fieldU b 8 1
  { AudioState.reset with
    t0 := some (fieldU b 0 8)
    sleepMask := fieldU b 10 2
    srcs := (List.range ns).map (fun i => parseSrc b (16 + 16 * i))
    sinks := (List.range (fieldU b 9 1)).map (fun i => parseSink b (16 + 16 * (ns + i))) }

/-- The routing sets held leave the configuration digest. -/
def dropSets (s : State) : State := (heldSets s).foldl (fun s x => cfgDel 12 x.id s) s

/-- A beam with source kind 4 runs. -/
def sinkBeam (s : State) : Bool := s.tx.beams.any (fun p => decide (p.2.entry.source = 4))

/-- The checks of AUDIO_CONFIGURE, in order. -/
def audioConfigureChk (d : Desc) (data : Bytes) (s : State) : Chk :=
  let b := dataOf d data
  let ns := fieldU b 8 1
  let nk := fieldU b 9 1
  let s' : State := { s with audio := audioBlock b }
  firstFail [descChk d [], need (decide (16 ≤ d.len.toNat)) stSize 16,
    need (decide (ns ≤ 128)) stRange 8, need (decide (nk ≤ 64)) stRange 9, sizeChk d (16 + 16 * (ns + nk)), needZero b 12 4 0,
    need (!sinkBeam s) stBusy 0, need (decide (((s.tw : Int) + usTicks 1000) ≤ (fieldU b 0 8 : Nat))) stRange 0,
    firstFail ((List.range ns).map (fun i => srcChk s b (16 + 16 * i))),
    firstFail ((List.range nk).map (fun i => sinkChk b (16 + 16 * (ns + i)))),
    need (allSteps s' (fun l => decide (sumNeed (·.audio) l ≤ 1048576))) stCapacity (checkCode 6 0x0E06),
    need (poolFits s' 0 (hubInkwells s.corr.scheds)) stCapacity (checkCode 8 0x0E05)]

/-- AUDIO_CONFIGURE (R227, R229, R366). -/
def runAudioConfigure (d : Desc) (data : Bytes) (s : State) : State :=
  let b := dataOf d data
  match audioConfigureChk d data s with
  | some c => refuse d c s
  | none => accept d (cfgPut 20 0 b { dropSets s with audio := audioBlock b })

def execAudioConfigure (t : Tick) (d : Desc) (data : Bytes) (s : State) : Host.Outcome State Fault Refusal :=
  .next (runAudioConfigure d data (s.advance t))

/-! ## Routing sets (R233, R240) -/

/-- Read a routing set image (Tables 09-4, 09-5). -/
def parseRouting (b : Bytes) : RoutingSet :=
  let n := fieldU b 2 2
  { id := fieldU b 0 1
    instrs := (List.range n).map (fun i =>
      let o := 32 + 8 * i
      ⟨fieldU b o 1, fieldU b (o + 1) 1, fieldU b (o + 2) 1, fieldU b (o + 4) 2⟩)
    params := (List.range (fieldU b 4 2)).map (fun i =>
      let o := 32 + 8 * (n + i)
      (fieldS b o 4, fieldU b (o + 4) 4)) }

/-- Checks of an instruction (R233, Table 09-6). -/
def instrChk (s : State) (b : Bytes) (r : RoutingSet) (i : Nat) (x : AudioInstr) : Chk :=
  let o := 32 + 8 * i
  let po := 32 + 8 * (r.instrs.length + x.param)
  let p := r.params.getD x.param (0, 0)
  let uses := decide (x.op = 3 ∨ x.op = 5 ∨ x.op = 6)
  firstFail [
    need (decide (x.op ≤ 8)) stRange o, needZero b (o + 3) 1 0,
    need (if uses then decide (x.param < r.params.length)
      else if x.op = 1 then decide (x.param < s.audio.srcs.length)
      else if x.op = 7 then decide (x.param < s.audio.sinks.length) else true) stRange (o + 4),
    needZero b (o + 6) 2 0,
    need (!decide (x.op = 3) || inS 20 p.1) stRange po,
    need (!decide (x.op = 5) || decide (0 ≤ p.1 ∧ p.1 ≤ 3)) stRange po,
    need (!decide (x.op = 5) || decide (p.2 ≤ 255)) stRange (po + 4),
    need (!decide (x.op = 6) || decide (0 ≤ p.1 ∧ p.1 ≤ 4800)) stRange po,
    need (!decide (x.op = 6) || decide (p.2 ≤ 63)) stRange (po + 4)]

/-- The sinks that a set writes. -/
def RoutingSet.sinks (r : RoutingSet) : List Nat := (r.instrs.filter (fun x => decide (x.op = 7))).map (·.param)

/-- The first value that stands twice in a list. -/
def firstTwice : List Nat → Option Nat
  | [] => none
  | a :: l => if l.contains a then some a else firstTwice l

/-- The checks of ROUTING_SET_LOAD, in order. -/
def routingSetLoadChk (d : Desc) (data : Bytes) (s : State) : Chk :=
  let b := dataOf d data
  let r := parseRouting b
  let lines := lineSamples (s.audio.active.toList ++ [r])
  firstFail [descChk d [(32, 1)], need (decide (32 ≤ d.len.toNat)) stSize 32,
    needZero b 1 1 0, need (decide (1 ≤ fieldU b 2 2 ∧ fieldU b 2 2 ≤ 4096)) stRange 2, need (decide (fieldU b 4 2 ≤ 4096)) stRange 4,
    needZero b 6 2 0, needZero b 12 20 0, sizeChk d (32 + 8 * (fieldU b 2 2 + fieldU b 4 2)),
    need (decide (fieldU b 8 4 = (crc32c (b.drop 32)).toNat)) stCrc 0, need s.audio.swap.isNone stBusy 0,
    firstFail (r.instrs.zipIdx.map (fun x => instrChk s b r x.2 x.1)),
    match firstTwice r.sinks with
    | some k => some (stConflict, k)
    | none => none,
    need (decide (lineSamples [r] ≤ 262144)) stCapacity (checkCode 7 0x0E06),
    need (poolFits s lines (hubInkwells s.corr.scheds)) stCapacity (checkCode 8 0x0E05)]

/-- ROUTING_SET_LOAD (R233, R240). -/
def runRoutingSetLoad (d : Desc) (data : Bytes) (s : State) : State :=
  let b := dataOf d data
  let r := parseRouting b
  match routingSetLoadChk d data s with
  | some c => refuse d c s
  | none =>
    let s := match s.audio.idle with
      | some x => cfgDel 12 x.id s
      | none => s
    accept d (cfgPut 12 r.id b { s with audio.idle := some r })

def execRoutingSetLoad (t : Tick) (d : Desc) (data : Bytes) (s : State) : Host.Outcome State Fault Refusal :=
  .next (runRoutingSetLoad d data (s.advance t))

/-- ROUTING_SWAP (R240). -/
def runRoutingSwap (d : Desc) (_data : Bytes) (s : State) : State :=
  let id := par d 32 1
  let aw := par d 40 8
  let there : Bool := match s.audio.idle with
    | some r => decide (r.id = id)
    | none => false
  let late := decide (aw ≤ s.audio.idx) && !decide (aw = 0 ∧ s.audio.idx = 0)
  match firstFail [descChk d [(32, 1), (40, 8)], need there stNotFound id, need s.audio.swap.isNone stBusy 0, need (!late) stLate 0] with
  | some c => refuse d c s
  | none => complete d stOk 0 { s with audio.swap := some aw }

def execRoutingSwap (t : Tick) (d : Desc) (data : Bytes) (s : State) : Host.Outcome State Fault Refusal :=
  .next (runRoutingSwap d data (s.advance t))

/-! ## The swap (R237, R241) -/

/-- The gain of parameter `p` at index `a`: its ramp, or its value. -/
def gainAt (au : AudioState) (r : RoutingSet) (p a : Nat) : Int :=
  let g := (r.params.getD p (0, 0)).1
  match Tab.get au.ramps p with
  | none => g
  | some m => if a - m.from_ < m.n then m.old + ((m.new - m.old) * ((a - m.from_ + 1 : Nat) : Int)).fdiv m.n else m.new

/-- The parameters that MAC instructions use. -/
def RoutingSet.gains (r : RoutingSet) : List Nat := ((r.instrs.filter (fun x => decide (x.op = 3))).map (·.param)).eraseDups

/-- The ramps that start at `a` (Table 09-8). -/
def newRamps (au : AudioState) (old new : RoutingSet) (a : Nat) : Tab Ramp :=
  new.gains.foldl (fun t p =>
    let e := new.params.getD p (0, 0)
    let n := e.2 % 65536
    if n ≠ 0 ∧ old.gains.contains p then Tab.put t p ⟨gainAt au old p (a - 1), e.1, a, n⟩ else t) []

/-- The filter states and corner codes that HPF instructions name. -/
def RoutingSet.filters (r : RoutingSet) : List (Nat × Int) :=
  (r.instrs.filter (fun x => decide (x.op = 5))).map (fun x => let p := r.params.getD x.param (0, 0); (p.2, p.1))

/-- The filter states that do not carry over (Table 09-8). -/
def resetFilters (old new : RoutingSet) : List Nat :=
  (new.filters.filter (fun f => old.filters.any (fun g => decide (g.1 = f.1 ∧ g.2 ≠ f.2)))).map (·.1)

/-- A running beam or a bound capture reads a sink. -/
def sinkRead (s : State) (k : Nat) : Bool :=
  s.tx.beams.any (fun p => decide (p.2.entry.source = 4 ∧ p.2.entry.srcId = k)) ||
    ((match s.audio.sinks[k]? with
      | some x => decide (x.kind = 1)
      | none => false) && (bindingOf s 6 k).isSome)

/-- The slots exchange at index `a` (R240, R241), and a sink that loses its SINK instruction posts sink-idle (R237). -/
def doSwap (a : Nat) (s : State) : State :=
  match s.audio.idle with
  | none => { s with audio.swap := none }
  | some new =>
    let au := s.audio
    let none' : RoutingSet := ⟨0, [], []⟩
    let old := au.active.getD none'
    let gone := resetFilters old new
    let idleNow := (List.range au.sinks.length).filter (fun k =>
      !new.sinks.contains k && (au.active.isNone || old.sinks.contains k) && sinkRead s k)
    let sinks := au.sinks.map (fun x => { x with capSwap := true })
    let s := { s with audio := { au with
      active := some new, idle := au.active, swap := none, ramps := newRamps au old new a, sinks := sinks
      hp := au.hp.filter (fun p => !gone.contains p.1) } }
    idleNow.foldl (fun s k => postEvent 0x71 k (le 1 new.id) s) s

/-! ## One index (R228 to R236) -/

/-- The inputs that a converter reads: value, and whether it is absent or a gap. -/
def srcInput (s : State) (a : AudioSrc) (j : Int) : Int × Bool × Bool :=
  if j < 0 then (0, false, false)
  else if a.kind = 1 then
    match Tab.get (srcRingOf s a.index).samples j.toNat with
    | some v => (v, false, false)
    | none => (0, true, false)
  else match Tab.get a.hist j.toNat with
    | some w => if w.gap ≠ 0 then (0, false, true) else (w.v, false, false)
    | none => (0, true, false)

/-- The runs that begin among the absent samples of one index, in rising order: the first sample of each run that does not go on from
sample `last` or from one before it, and the last absent sample (R232). -/
def absentRuns : Option Nat → List Nat → List Nat × Option Nat
  | last, [] => ([], last)
  | last, j :: l =>
    let go : Bool := match last with
      | some k => decide (j ≤ k + 1)
      | none => false
    let r := absentRuns (some (match last with
      | some k => Nat.max k j
      | none => j)) l
    (if go then r.1 else j :: r.1, r.2)

/-- The converter of source `n` (R230, R232): its output, and the state with its counters and an underrun event. -/
def convertSrc (t0 : Nat) (x : Int) (n : Nat) (s : State) : Int × State :=
  match s.audio.srcs[n]? with
  | none => (0, s)
  | some a =>
    match srcPos s a t0 x with
    | none => (0, { s with audio.srcs := s.audio.srcs.set n { a with late := a.late + 32 } })
    | some (i, ph) =>
      let ins := (List.range 32).map (fun (t : Nat) => srcInput s a (i - 15 + t))
      let acc := (ins.zipIdx.map (fun p => audioCoef ph p.2 * p.1.1)).sum
      let y := roundShift acc 10
      let late := (ins.filter (·.2.1)).length
      let gaps := (ins.filter (·.2.2)).length
      let gone := (ins.zipIdx.filter (·.1.2.1)).map (fun p => (i - 15 + p.2).toNat)
      let runs := absentRuns a.absentTo gone
      let a' := { a with
        late := a.late + late, gaps := a.gaps + gaps, sat := a.sat + b01 (!inS 24 y), absentTo := if a.kind = 1 then runs.2 else none }
      let s := { s with audio.srcs := s.audio.srcs.set n a' }
      (satS 24 y, if a.kind = 1 then runs.1.foldl (fun s j => postEvent 0x70 a.index (le 8 j) s) s else s)

/-- Every converter at one index, in source order. -/
def convertAll (t0 : Nat) (x : Int) (s : State) : List Int × State :=
  (List.range s.audio.srcs.length).foldl (fun (p : List Int × State) n =>
    let r := convertSrc t0 x n p.2
    (p.1 ++ [r.1], r.2)) ([], s)

/-- What a script works on. -/
structure AudioCtx where
  au : AudioState
  acc : Int
  /-- sink inputs written in this index -/
  ins : Tab Int
  deriving DecidableEq, Repr

/-- A node. -/
def AudioCtx.node (c : AudioCtx) (n : Nat) : Int := Tab.getD c.au.nodes n 0

/-- Write a node. -/
def AudioCtx.setNode (c : AudioCtx) (n : Nat) (v : Int) : AudioCtx :=
  { c with au := { c.au with nodes := if v = 0 then Tab.del c.au.nodes n else Tab.put c.au.nodes n v } }

/-- Write a node saturated to s24, counting it (R234). -/
def AudioCtx.satNode (c : AudioCtx) (n : Nat) (v : Int) : AudioCtx :=
  let c := c.setNode n (satS 24 v)
  { c with au := { c.au with nodeSat := Tab.add c.au.nodeSat n (b01 (!inS 24 v)) } }

/-- The corners of R235 in tenths of a hertz. -/
def audioCorners : List Nat := [200, 400, 800, 1600]

/-- The coefficients of a corner code at 48 kHz. -/
def audioHpCoef (code : Nat) : List Int := butterworth 48000 (audioCorners.getD code 200)

/-- The high-pass of R235: new state and output before saturation. -/
def audioHpStep (code : Nat) (h : AudioHp) (d : Int) : AudioHp × Int :=
  let k := audioHpCoef code
  let acc := (k.getD 0 0 * d + k.getD 1 0 * h.d1 + k.getD 2 0 * h.d2) * 2 ^ 16 - k.getD 3 0 * h.y1 - k.getD 4 0 * h.y2
  let y := roundShift acc 30
  (⟨d, h.d1, y, h.y1⟩, roundShift y 16)

/-- The longest length at which a set names a delay line. -/
def RoutingSet.lineLen (r : RoutingSet) (line : Nat) : Nat :=
  ((r.instrs.filter (fun x => decide (x.op = 6))).map (fun x =>
    let p := r.params.getD x.param (0, 0)
    if p.2 = line then p.1.toNat else 0)).foldl Nat.max 0

/-- One instruction (Table 09-6). A line holds what its length reads: a later set with a longer length reads 0 beyond it (R64, R241). -/
def audioInstr (r : RoutingSet) (ys : List Int) (a : Nat) (c : AudioCtx) (x : AudioInstr) : AudioCtx :=
  let p := r.params.getD x.param (0, 0)
  match x.op with
  | 1 => c.setNode x.dst (ys.getD x.param 0)
  | 2 => { c with acc := 0 }
  | 3 => { c with acc := c.acc + c.node x.a * gainAt c.au r x.param a }
  | 4 => c.satNode x.dst (roundShift c.acc 16)
  | 5 =>
    let h := audioHpStep p.1.toNat (Tab.getD c.au.hp p.2 AudioHp.zero) (c.node x.a)
    let c := { c with au := { c.au with hp := Tab.put c.au.hp p.2 h.1 } }
    c.satNode x.dst h.2
  | 6 =>
    let line := (c.node x.a :: Tab.getD c.au.lines p.2 []).take (r.lineLen p.2 + 1)
    let c := { c with au := { c.au with lines := Tab.put c.au.lines p.2 line } }
    c.setNode x.dst (line.getD p.1.toNat 0)
  | 7 => { c with ins := Tab.put c.ins x.param (c.node x.a) }
  | 8 => c.setNode x.dst (c.node x.a)
  | _ => c

/-- The script of one index. -/
def runScript (a : Nat) (ys : List Int) (au : AudioState) : AudioCtx :=
  match au.active with
  | none => ⟨au, 0, []⟩
  | some r => r.instrs.foldl (audioInstr r ys a) ⟨au, 0, []⟩

/-- How many audio indices a sink keeps for its beams. -/
def sinkKeep : Nat := 65536

/-- One input into a sink (R236, R242); `late` inputs of all sources in this index. -/
def sinkStep (a : Nat) (v : Int) (late : Nat) (k : AudioSink) : AudioSink :=
  let line := (v :: k.line).take (k.ahead + 1)
  let out := line.getD k.ahead 0
  let y := roundShift out 8
  let narrow := decide (k.kind = 0 ∨ k.format = 0)
  let o := if narrow then satS 16 y else out
  let sat := b01 (narrow && !inS 16 y)
  let quiet := if v.natAbs ≤ k.thr then min k.hold (k.quiet + 1) else 0
  let silent := decide (k.hold ≤ quiet)
  let k := { k with line := line, quiet := quiet, sat := k.sat + sat, silent := keepNewest sinkKeep (Tab.put k.silent a silent) }
  if k.kind = 0 then { k with outs := keepNewest sinkKeep (Tab.put k.outs a o) }
  else { k with
    cap := o :: k.cap, capSat := k.capSat + sat, capLate := k.capLate + late
    capSilent0 := if k.cap.isEmpty then silent else k.capSilent0 }

/-- The body of a capture record that ends with index `a` (Table 09-7). -/
def captureBody (s : State) (t0 a n : Nat) (k : AudioSink) : Bytes :=
  let first := a + 1 - k.block
  let lo := (audioTime t0 first).toNat
  let sw := switchesIn s lo (audioTime t0 a).toNat
  le 1 n ++ le 1 k.format ++
    le 1 (b01 k.capSilent0 + 2 * b01 (Tab.getD k.silent a false) + 4 * b01 (decide (sw.2 ≠ 0)) + 8 * b01 k.capSwap) ++
    le 1 (match s.audio.active with
      | some r => r.id
      | none => 0) ++
    le 4 k.block ++ le 8 first ++ le 8 lo ++ le 4 k.capSat ++ le 4 k.capLate ++ leS 8 sw.1 ++ le 4 sw.2 ++ zeros 4 ++
    k.cap.reverse.flatMap (fun v => leS (if k.format = 0 then 2 else 4) v)

/-- A capture sink whose block is complete emits its record (R239). -/
def emitCapture (t0 a n : Nat) (s : State) : State :=
  match s.audio.sinks[n]? with
  | none => s
  | some k =>
    if k.kind ≠ 1 then { s with audio.sinks := s.audio.sinks.set n { k with capSwap := false } }
    else if k.cap.length < k.block then s
    else
      let rec_ : RecSpec := ⟨6, n, 0x50, captureBody s t0 a n k, 0xFFFF, (audioTime t0 (a + 1 - k.block)).toNat, (audioTime t0 a).toNat, false⟩
      formRecord rec_ { s with audio.sinks := s.audio.sinks.set n { k with
        cap := [], capSat := 0, capLate := 0, capSilent0 := false, capSwap := false } }

/-- Late and gap inputs counted so far over all sources. -/
def lateTotal (s : State) : Nat := (s.audio.srcs.map (fun a => a.late + a.gaps)).sum

/-- Index `a` executes. -/
def runIndex (t0 a : Nat) (s : State) : State :=
  let s := if s.audio.swap = some a then enterAct s.tw none (doSwap a s) else s
  let before := lateTotal s
  let (ys, s) := convertAll t0 (audioTime t0 a) s
  let late := lateTotal s - before
  let c := runScript a ys s.audio
  let sinks := c.au.sinks.zipIdx.map (fun p => sinkStep a (Tab.getD c.ins p.2 0) late p.1)
  let s := { s with audio := { c.au with sinks := sinks, idx := a + 1 } }
  let s := (List.range sinks.length).foldl (fun s n => emitCapture t0 a n s) s
  (((s.audio.srcs.filter (fun x => decide (x.kind = 1))).map (·.index)).eraseDups).foldl (fun s r => srcTrim r s) s

/-- AUDIO_INDEX (R228). -/
def execAudioIndex (t : Tick) (s : State) : Host.Outcome State Fault Refusal :=
  let s := s.advance t
  match s.audio.t0 with
  | none => .next s
  | some t0 => if audioTime t0 s.audio.idx ≤ (s.tw : Int) then .next (runIndex t0 s.audio.idx s) else .next s

end Sys2Proof.Machine
end

