-- ==== Sys2Proof/Machine/Drive.lean ====
section
/-!
DEFINITION. Drive outputs (08_transmit.md): drive map and groups, waveform tables and programs, waveform sources, the interpolation
chains, what each drive element emits, drive frames.
-/
namespace Sys2Proof.Machine

/-- Samples of a beam's history: 64 beams share their region of the hub SRAM, 2 B a sample (R205, Table 14-5). -/
def histLen : Nat := hubSize 4 / (64 * 2)

/-! ## Drive groups and instants (R198 to R200) -/

/-- t_g(k) (R200). -/
def driveTime (g : DriveGroup) (k : Nat) : Int := ((g.t0.getD 0 : Nat) : Int) + spanTicks k 1 (max 1 g.rate)

/-- The least of three neighbouring indices that meets `f`, which is monotone. -/
def firstNear (f : Nat → Bool) (guess : Nat) : Nat :=
  if f (guess - 1) then guess - 1 else if f guess then guess else guess + 1

/-- The smallest k with t_g(k) ≥ T. -/
def firstAt (g : DriveGroup) (T : Int) : Nat :=
  if T ≤ driveTime g 0 then 0
  else firstNear (fun k => decide (T ≤ driveTime g k)) (ceilDiv ((T - (g.t0.getD 0 : Nat)).toNat * g.rate) tickHz)

/-- The lead of a group in ticks. -/
def leadTicks (g : DriveGroup) : Int := usTicks g.lead

/-- The first drive index of a group whose frames leave at or after time word `T` (Table 17-1). -/
def firstSent (g : DriveGroup) (T : Nat) : Nat := firstAt g ((T : Int) + leadTicks g)

/-- The interpolation delay in half drive samples (R202): D of Table 02-7, or G of R60. -/
def interpDelay2 (g : DriveGroup) : Nat :=
  if g.mode < 3 then
    let p := presetTaps g.mode
    2 * ((p.1 - 1) / 2 * (g.ratio / 2 - 1) + (p.2 - 1) / 2 * (g.ratio / 2))
  else if g.ratio ≤ 1 then 0 else 35 * g.ratio - 5

/-- The interpolation delay in whole drive samples, rounded down: program samples land on drive indices (R202, log 38). -/
def interpDelay (g : DriveGroup) : Nat := interpDelay2 g / 2

/-- The first sense block that begins at or after time word `T`. -/
def firstBlock (g : DriveGroup) (T : Nat) : Nat :=
  let t0 := g.t0.getD 0
  if T ≤ t0 then 0
  else firstNear (fun q => decide ((T : Int) ≤ (t0 : Int) + spanTicks (8 * q : Nat) 1 8000)) (ceilDiv ((T - t0) * 1000) tickHz)

/-- The run of a drive element. -/
def driveRun (s : State) (e : Nat) : DriveRun := Tab.getD s.tx.elems e DriveRun.reset

/-- Replace it. -/
def setDrive (e : Nat) (r : DriveRun) (s : State) : State := { s with tx.elems := Tab.put s.tx.elems e r }

/-- The drive map entry of an element. -/
def driveEntry (s : State) (e : Nat) : Option DriveEntry := s.tx.map.find? (fun m => decide (m.element = e))

/-- The drive elements now, by ordinal (R198). -/
def drivers (s : State) : List DriveEntry := driveEntries (viewNow s) s.tx.map

/-! ## Loads (R199, R208, R226) -/

/-- Read a drive map entry (Table 08-2). -/
def parseDrive (b : Bytes) (o : Nat) : DriveEntry :=
  ⟨fieldU b o 2, fieldU b (o + 2) 1, fieldU b (o + 3) 1, fieldU b (o + 4) 2, fieldU b (o + 6) 2, fieldU b (o + 8) 4, fieldU b (o + 12) 2,
    fieldU b (o + 14) 2⟩

/-- Checks of a drive map entry. -/
def driveEntryChk (b : Bytes) (o : Nat) : Chk :=
  let m := parseDrive b o
  firstFail [need (decide (m.element < 16384)) stRange o, need (decide (m.group < 16)) stRange (o + 2),
    need (decide (m.flags < 2)) stReserved (o + 3), need (decide (1 ≤ m.sv)) stRange (o + 12), need (decide (1 ≤ m.si)) stRange (o + 14)]

/-- R198 around every activation to come. -/
def driveAllChk (s : State) (map : List DriveEntry) (groups : Tab DriveGroup) : Chk :=
  firstFail ((changeSteps s [] s.cond.pending).map (fun st => driveChk st.after map groups))

/-- The participation of an element in a beam. -/
def TxBeam.part? (b : TxBeam) (e : Nat) : Option Part_ := b.parts.find? (fun p => decide (p.elem = e))

/-- Mute an element (R223, R224): the ramp begins at the first drive sample not yet sent. -/
def muteElem (e cause block : Nat) (s : State) : State :=
  let r := driveRun s e
  if r.mute.isSome then s
  else
    let s := setDrive e { r with mute := some cause, ramp := r.next.map (fun k => (k, false)) } s
    let hit := s.tx.beams.filter (fun p => (p.2.part? e).isSome)
    let s := { s with
      tx.starts := s.tx.starts.map (fun p => if hit.any (fun b => decide (b.1 < 64 ∧ b.2.start = p.1)) then (p.1, { p.2 with muted := true }) else p)
      tx.echo := s.tx.echo.map (fun k => if k.cmd.drive = e then { k with muted := true } else k) }
    postEvent 0x72 e (le 1 cause ++ zeros 3 ++ le 4 block) s

/-- An element leaves its stream and its load watch: what it was at is forgotten, a mute stays. -/
def DriveRun.leave (r : DriveRun) : DriveRun :=
  { r with
    next := none, ramp := if r.mute.isSome then none else r.ramp, short := 0, blind := 0, blindAt := none, open_ := false, block := none
    ahead := [], sense := [] }

/-- The load watch of an element that enters the map of a running group: from the first block that begins after the load. -/
def entryBlock (s : State) (m : DriveEntry) : Option Nat :=
  match Tab.get s.tx.groups m.group with
  | some g => if g.t0.isSome && (drivers s).any (fun x => decide (x.element = m.element)) then some (firstBlock g s.tw) else none
  | none => none

/-- A drive element enters the map `old` is replaced by: where its group, stream or channel changes, it joins its new stream with that
stream's next frame, and its load watch starts over; with z_nom 0 it is muted from that load on (R226), with no ramp to run on its first
one. -/
def enterDrive (old : List DriveEntry) (m : DriveEntry) (s : State) : State :=
  let stays := old.any (fun x => decide (x.element = m.element ∧ x.group = m.group ∧ x.stream = m.stream ∧ x.channel = m.channel))
  let r := if stays then driveRun s m.element else { (driveRun s m.element).leave with block := entryBlock s m }
  if !Tab.has s.tx.elems m.element then
    let unset := decide (m.zNom = 0)
    let s := setDrive m.element { r with mute := if unset then some 3 else none } s
    if unset then postEvent 0x72 m.element (le 1 3 ++ zeros 3 ++ le 4 (r.block.getD 0)) s else s
  else
    let s := setDrive m.element r s
    if m.zNom = 0 then muteElem m.element 3 (r.block.getD 0) s else s

/-- The elements that a new map no longer names leave their streams: no beam waits for them any more. -/
def dropDrives (map : List DriveEntry) (s : State) : State :=
  { s with tx.elems := s.tx.elems.map (fun p => if map.any (fun m => decide (m.element = p.1)) then p else (p.1, p.2.leave)) }

/-- The checks of DRIVE_MAP_LOAD, in order. -/
def driveMapLoadChk (d : Desc) (data : Bytes) (s : State) : Chk :=
  let b := dataOf d data
  let n := d.len.toNat / 16
  let map := (List.range n).map (fun i => parseDrive b (16 * i))
  firstFail [descChk d [(32, 1)], sizeChk d (16 * ceilDiv d.len.toNat 16),
    firstFail ((List.range n).map (fun i => driveEntryChk b (16 * i))),
    match firstTwice (map.map (·.element)) with
    | some e => some (stConflict, e)
    | none => none,
    driveAllChk s map s.tx.groups]

/-- DRIVE_MAP_LOAD (R198, R199, R226). -/
def runDriveMapLoad (d : Desc) (data : Bytes) (s : State) : State :=
  let b := dataOf d data
  let n := d.len.toNat / 16
  let map := (List.range n).map (fun i => parseDrive b (16 * i))
  match driveMapLoadChk d data s with
  | some c => refuse d c s
  | none => accept d (map.foldl (fun v m => enterDrive s.tx.map m v) (cfgPut 10 0 b (dropDrives map { s with tx.map := map })))

def execDriveMapLoad (t : Tick) (d : Desc) (data : Bytes) (s : State) : Host.Outcome State Fault Refusal :=
  .next (runDriveMapLoad d data (s.advance t))

/-- The checks of DRIVE_GROUP_LOAD, in order. -/
def driveGroupLoadChk (d : Desc) (data : Bytes) (s : State) : Chk :=
  let b := dataOf d data
  let k := fieldU b 0 1
  let g : DriveGroup := ⟨fieldU b 1 1, fieldU b 2 2, fieldU b 4 4, fieldU b 8 4, fieldU b 12 1, fieldU b 14 2, none⟩
  let presetRatios := (List.range 10).map (fun i => 2 ^ (i + 1))
  firstFail [descChk d [(32, 1)], sizeChk d 16, need (decide (k < 16)) stRange 0, need (decide (g.mode ≤ 3)) stRange 1,
    need (if g.mode = 3 then decide (1 ≤ g.ratio ∧ g.ratio ≤ 4096) else presetRatios.contains g.ratio) stRange 2,
    need (decide (1000 ≤ g.rate ∧ g.rate ≤ 4000000)) stRange 4, need (decide (g.fade ≤ 1)) stRange 12, needZero b 13 1 0,
    need (decide (50 ≤ g.lead ∧ g.lead ≤ 10000)) stRange 14, driveAllChk s s.tx.map (Tab.put s.tx.groups k g)]

/-- DRIVE_GROUP_LOAD (R199): a descriptor for a group that runs waits for the group's next start. -/
def runDriveGroupLoad (d : Desc) (data : Bytes) (s : State) : State :=
  let b := dataOf d data
  let k := fieldU b 0 1
  let g : DriveGroup := ⟨fieldU b 1 1, fieldU b 2 2, fieldU b 4 4, fieldU b 8 4, fieldU b 12 1, fieldU b 14 2, none⟩
  match driveGroupLoadChk d data s with
  | some c => refuse d c s
  | none =>
    let runs : Bool := match Tab.get s.tx.groups k with
      | some x => x.t0.isSome
      | none => false
    if runs then complete d stOk 0 { s with tx.newGroups := Tab.put s.tx.newGroups k g }
    else accept d (cfgPut 11 k b { s with tx.groups := Tab.put s.tx.groups k g })

def execDriveGroupLoad (t : Tick) (d : Desc) (data : Bytes) (s : State) : Host.Outcome State Fault Refusal :=
  .next (runDriveGroupLoad d data (s.advance t))

/-- The descriptor that a drive group start puts in force: the one that waits for it, or the loaded one. -/
def nextGroup (s : State) (k : Nat) : Option DriveGroup :=
  match Tab.get s.tx.newGroups k with
  | some g => some g
  | none => Tab.get s.tx.groups k

/-- A drive element restarts with its group: the first index to send is `nx`, its load watch starts over at block `q`, a mute stays. -/
def DriveRun.restart (r : DriveRun) (nx q : Nat) : DriveRun := { r.leave with next := some nx, block := some q }

/-- Group `k` runs with descriptor `g` from t_g0 (R200): indices whose frames could no longer leave in time are not sent. An element of the map
that is no drive element now joins when it becomes one. -/
def startDriveGroup (k t0 : Nat) (g : DriveGroup) (s : State) : State :=
  let g := { g with t0 := some t0 }
  let s := { s with tx.groups := Tab.put s.tx.groups k g, tx.newGroups := Tab.del s.tx.newGroups k }
  (s.tx.map.filter (fun m => decide (m.group = k))).foldl (fun s m =>
    let r := driveRun s m.element
    setDrive m.element (if (drivers s).any (fun x => decide (x.element = m.element)) then r.restart (firstSent g s.tw) (firstBlock g s.tw)
      else r.leave) s) s

/-- The descriptor image of a drive group (Table 08-1). -/
def groupBytes (k : Nat) (g : DriveGroup) : Bytes :=
  le 1 k ++ le 1 g.mode ++ le 2 g.ratio ++ le 4 g.rate ++ le 4 g.ifloor ++ le 1 g.fade ++ zeros 1 ++ le 2 g.lead

/-- DRIVE_GROUP_START (R200). -/
def runDriveGroupStart (d : Desc) (_data : Bytes) (s : State) : State :=
  let k := par d 32 1
  match firstFail [descChk d [(32, 1), (40, 8)], need (nextGroup s k).isSome stNotFound k,
      need (!s.tx.beams.any (fun p => decide (p.2.entry.group = k))) stBusy 0], nextGroup s k with
  | some c, _ => refuse d c s
  | none, none => refuse d (stNotFound, k) s
  | none, some g =>
    let t0 := par d 40 8
    acceptAt t0 d (startDriveGroup k t0 g (if Tab.has s.tx.newGroups k then cfgPutAt t0 11 k (groupBytes k g) s else s))

def execDriveGroupStart (t : Tick) (d : Desc) (data : Bytes) (s : State) : Host.Outcome State Fault Refusal :=
  .next (runDriveGroupStart d data (s.advance t))

/-- The checks of WAVEFORM_TABLE_LOAD, in order. -/
def waveformTableLoadChk (d : Desc) (data : Bytes) (s : State) : Chk :=
  let b := dataOf d data
  let id := fieldU b 0 2
  let n := fieldU b 4 4
  firstFail [descChk d [(32, 1)], need (decide (16 ≤ d.len.toNat)) stSize 16, needZero b 2 2 0,
    need (decide (1 ≤ n)) stRange 4, sizeChk d (16 + 2 * n), needZero b 12 4 0, crcChk b 8 16,
    need (decide (txTableBytes { s with tx.waves := Tab.del s.tx.waves id } + tableImage (2 * n) ≤ regionSize s 3)) stCapacity freeInfo]

/-- WAVEFORM_TABLE_LOAD (Table 08-3, R153). -/
def runWaveformTableLoad (d : Desc) (data : Bytes) (s : State) : State :=
  let b := dataOf d data
  let id := fieldU b 0 2
  let n := fieldU b 4 4
  match waveformTableLoadChk d data s with
  | some c => refuse d c s
  | none => accept d (hbmRequest 4 .outside (placeOf s 3 (tableWord 8 id)) <| cfgPut 8 id b { s with tx.waves := Tab.put s.tx.waves id ((List.range n).map (fun i => fieldS b (16 + 2 * i) 2)) })

def execWaveformTableLoad (t : Tick) (d : Desc) (data : Bytes) (s : State) : Host.Outcome State Fault Refusal :=
  .next (runWaveformTableLoad d data (s.advance t))

/-- Read a program beam entry (Table 08-4). -/
def parseBeam (b : Bytes) (o : Nat) : ProgBeam where
  slot := fieldU b o 1
  kind := fieldU b (o + 1) 1
  source := fieldU b (o + 2) 1
  group := fieldU b (o + 3) 1
  f := parseP3 b (o + 4)
  firstOrd := fieldU b (o + 4) 4
  countOrd := fieldU b (o + 8) 4
  speed := fieldU b (o + 16) 4
  radius := fieldU b (o + 20) 4
  offset := fieldU b (o + 24) 4
  length := fieldU b (o + 28) 4
  srcId := fieldU b (o + 32) 2
  env := fieldU b (o + 34) 1
  f0 := fieldU b (o + 36) 4
  f1 := fieldU b (o + 40) 4
  level := fieldU b (o + 44) 2

/-- Checks of a program beam entry (R208, Tables 08-3, 08-4). -/
def progBeamChk (s : State) (b : Bytes) (o : Nat) : Chk :=
  let x := parseBeam b o
  let direct := decide (x.kind = 1)
  let fp : Bool := match Tab.get s.tx.groups x.group with
    | some g => decide (g.rate = 48000 * g.ratio)
    | none => true
  let there : Bool := match x.source with
    | 0 => Tab.has s.tx.waves x.srcId
    | 3 => decide (x.srcId < 32)
    | 4 => match s.audio.sinks[x.srcId]? with
      | some k => decide (k.kind = 0)
      | none => false
    | _ => true
  firstFail [
    need (decide (x.slot < 64)) stRange o, need (decide (x.kind ≤ 1)) stRange (o + 1), need (decide (x.source ≤ 4)) stRange (o + 2),
    need (decide (x.group < 16)) stRange (o + 3), need (!decide (x.source = 4) || fp) stRange (o + 3),
    need (!direct || zeroAt b (o + 12) 4) stRange (o + 12), need (if direct then decide (x.speed = 0) else decide (1 ≤ x.speed)) stRange (o + 16),
    need (!direct || decide (x.radius = 0)) stRange (o + 20), need (decide (x.env ≤ 1)) stRange (o + 34), needZero b (o + 35) 1 0,
    need (decide (x.level ≤ 32767)) stRange (o + 44), needZero b (o + 46) 2 0, need there stNotFound x.srcId]

/-- A start that waits or runs names program `id`. -/
def programNamed (s : State) (id : Nat) : Bool := s.tx.starts.any (fun p => decide (p.2.program = id))

/-- The checks of TRANSMIT_PROGRAM_LOAD, in order. An image that names a slot twice is refused with CONFLICT, info the slot (DESIGN CHOICE, log
entry 129). -/
def transmitProgramLoadChk (d : Desc) (data : Bytes) (s : State) : Chk :=
  let b := dataOf d data
  let id := fieldU b 0 2
  let n := fieldU b 2 1
  let bs := (List.range n).map (fun i => parseBeam b (32 + 48 * i))
  firstFail [descChk d [(32, 1)], need (decide (32 ≤ d.len.toNat)) stSize 32, need (decide (id ≤ 255)) stRange 0,
    need (decide (1 ≤ n ∧ n ≤ 64)) stRange 2, needZero b 3 1 0, needZero b 12 20 0, sizeChk d (32 + 48 * n), crcChk b 8 32,
    need (!programNamed s id) stInUse id, firstFail ((List.range n).map (fun i => progBeamChk s b (32 + 48 * i))),
    match firstTwice (bs.map (·.slot)) with
    | some k => some (stConflict, k)
    | none => none]

/-- TRANSMIT_PROGRAM_LOAD (R208). -/
def runTransmitProgramLoad (d : Desc) (data : Bytes) (s : State) : State :=
  let b := dataOf d data
  let id := fieldU b 0 2
  let n := fieldU b 2 1
  let bs := (List.range n).map (fun i => parseBeam b (32 + 48 * i))
  match transmitProgramLoadChk d data s with
  | some c => refuse d c s
  | none => accept d (cfgPut 9 id b { s with tx.progs := Tab.put s.tx.progs id ⟨fieldU b 4 4, bs⟩ })

def execTransmitProgramLoad (t : Tick) (d : Desc) (data : Bytes) (s : State) : Host.Outcome State Fault Refusal :=
  .next (runTransmitProgramLoad d data (s.advance t))

/-! ## The interpolation chains (R201) -/

/-- One sample through the half-band stages that remain, `k` of them, the first with the taps of the last decimation stage: each stage
inserts a zero after the sample. The outputs are exact accumulators with 26 fraction bits. -/
def upsample (mode : Nat) : Bool → Nat → Int → List (List Int) → List (List Int) × List Int
  | _, 0, _, st => (st, [])
  | long, k + 1, x, st =>
    let taps := if long then (presetTaps mode).2 else (presetTaps mode).1
    let h (i : Nat) : Int := 2 * presetCoef mode long i
    let w1 := (x :: st.headD []).take taps
    let w2 := ((0 : Int) :: w1).take taps
    let a := firSum h w1
    let b := firSum h w2
    if k = 0 then (w2 :: st.tail, [a, b])
    else
      let p := upsample mode false k (wrapS 24 (roundShift a 18)) st.tail
      let q := upsample mode false k (wrapS 24 (roundShift b 18)) p.1
      (w2 :: q.1, p.2 ++ q.2)

/-- The CIC interpolator on one comb output: `n` outputs, the first fed with `v`, the others with 0. -/
def cicUp : Nat → Int → List Int → List Int × List Int
  | 0, _, i => (i, [])
  | n + 1, v, i =>
    let i' := integrate v i
    let r := cicUp n 0 i'
    (r.1, i'.getLastD 0 :: r.2)

/-- One program sample through a beam's interpolator: new beam state with `ratio` further entries of its stream. The compensator's output is
kept as s24 with 8 fraction bits, and saturates counted where it does not fit (R11). -/
def interpolate (g : DriveGroup) (x : Int) (b : TxBeam) : TxBeam :=
  let out (b : TxBeam) (ys : List Int) : TxBeam :=
    { b with
      hist := b.hist ++ ys.zipIdx.map (fun p => (b.next + p.2, satS 16 p.1)), next := b.next + ys.length
      sat := b.sat + (ys.filter (fun y => !inS 16 y)).length }
  if g.mode < 3 then
    let r := upsample g.mode true (Nat.log2 g.ratio) (256 * x) b.stages
    out { b with stages := r.1 } (r.2.map (fun a => roundShift a 26))
  else if g.ratio ≤ 1 then out b [x]
  else
    let h := (x :: b.comp).take 31
    let y := roundShift (firSum compCoef h) 10
    let c := combs (satS 24 y) b.comb
    let u := cicUp g.ratio c.2 b.integ
    let r5 := g.ratio ^ 5
    let bb := Nat.log2 (r5 - 1) + 1
    let nR := roundDiv (2 ^ (bb + 17) : Nat) r5
    out { b with comp := h, comb := c.1, integ := u.1, sat := b.sat + b01 (!inS 24 y) } (u.2.map (fun v => roundShift (v * g.ratio * nR) (bb + 25)))

/-! ## Waveform sources (Table 08-3, R207) -/

/-- The synthesiser at beam sample `n`: the sample and the next phase. -/
def synth (x : ProgBeam) (phase n : Nat) : Int × Nat :=
  let inc : Int := if x.source = 1 then x.f0
    else x.f0 + (if x.length = 0 then Config.endless 0 n else (((x.f1 : Int) - x.f0) * n).fdiv x.length)
  let at_ : Nat := if x.length = 0 then (Config.endless 1 n % 65536).toNat else n * 65536 / x.length
  let num : Int := x.level * (unitCircle (phase / 65536)).1
  -- round_conv(level·re(U[φ div 2^16])·w / 2^34), with w = 2^17 or an exact half
  let y := if x.env = 1 then roundShift (num * (2 ^ 17 - (unitCircle at_).1)) 35 else roundShift (num * 2 ^ 17) 34
  (y, (((phase : Int) + inc) % (2 ^ 32 : Int)).toNat)

/-- The next program sample of the beam at key `key`: its value, and the state with the beam's counters, phase and events. `ecc` are the
words of the transmit tables that could not be corrected. -/
def nextSample (key : Nat) (ecc : List Ecc) (s : State) : Int × State :=
  match Tab.get s.tx.beams key with
  | none => (0, s)
  | some b =>
    let put (b : TxBeam) (s : State) : State := { s with tx.beams := Tab.put s.tx.beams key b }
    let go := { b with n := b.n + 1 }
    let lost : State := put { go with under := b.under + 1, absent := true } s
    if b.entry.length ≠ 0 ∧ b.entry.length ≤ b.n then (0, put go s)
    else match b.entry.source with
    | 0 =>
      let w := Tab.getD s.tx.waves b.entry.srcId []
      if ecc.any (fun e => !e.corrected && Config.txWord e.word (key * 2 ^ 32 + b.n)) then (0, lost)
      else (w.getD (b.n % max 1 w.length) 0, put go s)
    | 3 =>
      match Tab.get (srcRingOf s b.entry.srcId).samples (b.ring0 + b.n) with
      | some v => (v, put { go with absent := false } s)
      | none => (0, if b.absent then lost else postEvent 0x70 b.entry.srcId (le 8 (b.ring0 + b.n)) lost)
    | 4 => ((match s.audio.sinks[b.entry.srcId]? with
      | some k => Tab.getD k.outs (b.aS + b.entry.offset + b.n) 0
      | none => 0), put go s)
    | _ =>
      let r := synth b.entry b.phase b.n
      (r.1, put { go with phase := r.2 } s)

/-- Run a beam's interpolator until its stream holds entry `c`; `fuel` program samples at most. -/
def pullBeam (key c : Nat) (g : DriveGroup) (ecc : List Ecc) : Nat → State → State
  | 0, s => s
  | fuel + 1, s =>
    match Tab.get s.tx.beams key with
    | none => s
    | some b =>
      if c < b.next then s
      else
        let (x, s) := nextSample key ecc s
        match Tab.get s.tx.beams key with
        | none => s
        | some b => pullBeam key c g ecc fuel { s with tx.beams := Tab.put s.tx.beams key (interpolate g x b) }

/-- The drive index at which a beam's sample 0 lands. -/
def TxBeam.base (b : TxBeam) (g : DriveGroup) : Nat := b.kS + b.entry.offset * g.ratio

/-- Entry of the stream for drive index `p` (R202): its sample 0 lands `interpDelay` entries after the stream starts. -/
def TxBeam.streamAt (b : TxBeam) (g : DriveGroup) (p : Int) : Int := p - b.base g + interpDelay g

/-- x_b[p] (R205). -/
def TxBeam.x (b : TxBeam) (g : DriveGroup) (p : Int) : Int :=
  let c := b.streamAt g p
  if c < 0 then 0 else Tab.getD b.hist c.toNat 0

/-! ## Participants (R203, R204, R206) -/

/-- Delay of a participant in units of 2⁻¹⁶ drive samples; `none` when the bracketed sum is negative or di + 3 exceeds 65,536. `ahead` is
rho_max − rho_e, 0 for a direct beam, and `speed` its c. -/
def delayOf (x : ElemEntry) (tbase rate speed : Nat) (ahead : Int) : Option Nat :=
  let den : Int := (10 * max 1 speed * 10 ^ 12 : Nat)
  let num := ahead * 10 ^ 12 * rate + (x.calDelay + tbase) * rate * (2 ^ 16 * 10 * max 1 speed : Nat)
  if num < 0 then none
  else
    let D := (roundDiv num den).toNat + 2 * 2 ^ 16
    if D / 2 ^ 16 + 3 ≤ histLen then some D else none

/-- The drive elements that take part in a beam, with rho_max − rho_e (R204). -/
def takers (s : State) (x : ProgBeam) : List (DriveEntry × Int) :=
  let l := drivers s
  let v := viewNow s
  if x.kind = 1 then ((l.drop x.firstOrd).take x.countOrd).map (fun m => (m, 0))
  else
    let rs : List (DriveEntry × Int) := l.map (fun m => let e := v.elem m.element; (m, rho x.f ⟨e.posX, e.posY, e.posZ⟩))
    let near := rs.filter (fun p => decide (p.2 ≤ ((x.radius * 2 ^ 16 : Nat) : Int)))
    let top : Int := near.foldl (fun (a : Int) p => max a p.2) 0
    near.map (fun p => (p.1, top - p.2))

/-- The participants of a beam, or the element at which its start is refused: one that R204 refuses, or one of another group than the beam's
(DESIGN CHOICE, log entry 128). -/
def partsOf (s : State) (tbase : Nat) (x : ProgBeam) (g : DriveGroup) : Except Nat (List Part_) :=
  (takers s x).foldl (fun r p => match r with
    | .error e => .error e
    | .ok l =>
      let e := (viewNow s).elem p.1.element
      if p.1.group ≠ x.group then .error p.1.element
      else match delayOf e tbase g.rate (if x.kind = 1 then 1 else x.speed) p.2 with
      | none => .error p.1.element
      | some D => .ok (l ++ [⟨p.1.element, D / 2 ^ 16, D % 2 ^ 16, e.driveGain⟩])) (.ok [])

/-- What a group needs before a program sample can land: lead, interpolation delay and 50 µs (Table 08-5). -/
def lagOf (g : DriveGroup) : Int := leadTicks g + spanTicks (interpDelay2 g) 1 (2 * max 1 g.rate) + usTicks 50

/-- A drive element is muted. -/
def isMuted (s : State) (e : Nat) : Bool := (driveRun s e).mute.isSome

/-- A beam starts (R203): its participants are latched as the element table, the drive map and the groups then stand. Where R204 would refuse
them, what held at the program's start stays (log 110). -/
def latchBeam (key : Nat) (s : State) : State :=
  match Tab.get s.tx.beams key with
  | none => s
  | some b =>
    let put (b : TxBeam) (s : State) : State := { s with tx.beams := Tab.put s.tx.beams key { b with latched := true } }
    match Tab.get s.tx.starts b.start with
    | none => put b s
    | some x => match Tab.get s.tx.progs x.program, Tab.get s.tx.groups b.entry.group with
      | some p, some g => match partsOf s p.tbase b.entry g with
        | .error _ => put b s
        | .ok ps => put { b with parts := ps }
            { s with tx.starts := Tab.put s.tx.starts b.start { x with muted := x.muted || ps.any (fun q => isMuted s q.elem) } }
      | _, _ => put b s

/-- The beams whose start has come: by the clock as a program's own start (R212), or because a frame of their group up to drive index `k`
needs them. -/
def latchBeams (group k : Nat) (s : State) : State :=
  (s.tx.beams.filter (fun p => !p.2.latched && (match Tab.get s.tx.groups p.2.entry.group with
    | some g => decide (driveTime g (p.2.base g) - lagOf g ≤ (s.tw : Int) ∨ (p.2.entry.group = group ∧ p.2.base g ≤ k + interpDelay g + 2))
    | none => false))).foldl (fun s p => latchBeam p.1 s) s

/-! ## What an element emits (R205, R223) -/

/-- The cubic Lagrange coefficients of R175 at u = −mu ÷ 2¹⁶ on nodes −2, −1, 0, +1. -/
def farrow (mu : Nat) : List Int :=
  let u : Int := -(mu : Int)
  let o : Int := 2 ^ 16
  [roundDiv (-((u + o) * u * (u - o))) (6 * 2 ^ 32), roundDiv ((u + 2 * o) * u * (u - o)) (2 * 2 ^ 32),
    roundDiv (-((u + 2 * o) * (u + o) * (u - o))) (2 * 2 ^ 32), roundDiv ((u + 2 * o) * (u + o) * u) (6 * 2 ^ 32)]

/-- The factor of a ramp to zero that begins at index `first`, in 64ths (R223). -/
def downAt (first k : Nat) : Nat := if k < first then 64 else 63 - min 63 (k - first)

/-- The ramp factor of an element at index `k` in 64ths (R223, R224). An element muted before its first sample has none of its ramp to run. -/
def rampOf (r : DriveRun) (k : Nat) : Nat :=
  match r.mute, r.ramp with
  | some _, some (f, _) => downAt f k
  | some _, none => 0
  | none, some (f, true) => if k < f then 0 else min 64 (k - f + 1)
  | none, _ => 64

/-- The factor of a beam's own ramp at index `k` in 64ths (R213, R214). -/
def TxBeam.factor (b : TxBeam) (k : Nat) : Nat :=
  match b.rampAt with
  | some f => downAt f k
  | none => 64

/-- One beam's term of an element at index `k`, before its own ramp. -/
def beamTerm (b : TxBeam) (g : DriveGroup) (p : Part_) (k : Nat) : Int :=
  let cs := farrow p.mu
  let at_ : Int := (k : Int) - p.di
  2047 * ((cs.zipIdx.map (fun c => c.1 * b.x g (at_ - 2 + c.2))).sum)

/-- The beams an element takes part in, with its participation. -/
def beamsOf (s : State) (e : Nat) : List (Nat × TxBeam × Part_) :=
  s.tx.beams.filterMap (fun x => (x.2.part? e).map (fun p => (x.1, x.2, p)))

/-- Advance every beam of an element as far as index `k` needs. -/
def pullElem (e k : Nat) (g : DriveGroup) (ecc : List Ecc) (s : State) : State :=
  (beamsOf s e).foldl (fun s x =>
    let c := x.2.1.streamAt g ((k : Int) - x.2.2.di + 1)
    if c < 0 then s else pullBeam x.1 c.toNat g ecc (ceilDiv (c.toNat + 1 - x.2.1.next) (max 1 g.ratio)) s) s

/-- The output of element `e` at index `k`, and whether the sum saturated. Where every beam that feeds it has the same ramp factor, that
factor applies to the output (R205); otherwise each beam's factor applies to its own term. -/
def elemOut (s : State) (e k : Nat) (g : DriveGroup) : Int × Bool :=
  let l := beamsOf s e
  let f := (l.map (fun x => x.2.1.factor k)).headD 64
  let same := l.all (fun x => decide (x.2.1.factor k = f))
  let acc := (l.map (fun x =>
    let t := x.2.2.gain * beamTerm x.2.1 g x.2.2 k
    if same then t else roundDiv (t * x.2.1.factor k) 64)).sum
  let y := roundShift acc 41
  let o := if same then roundDiv (satS 16 y * f) 64 else satS 16 y
  (roundDiv (o * rampOf (driveRun s e) k) 64, !inS 16 y)

/-! ## Amplifier sleep (R243) -/

/-- A beam feeds an element at index `k`: its stream has begun and its last sample has not yet passed. -/
def feeds (g : DriveGroup) (b : TxBeam) (p : Part_) (k : Nat) : Bool :=
  let past := match b.rampAt with
    | some f => decide (f + 64 ≤ k)
    | none => false
  let end_ := b.base g + b.entry.length * g.ratio + interpDelay g + p.di + 2
  decide (0 ≤ b.streamAt g ((k : Int) - p.di + 1)) && !past && (decide (b.entry.length = 0) || decide (k < end_))

/-- A sink is silent at an audio index; before index 0 its inputs were 0. -/
def sinkSilent (s : State) (n : Nat) (a : Int) : Bool :=
  if a < 0 then true
  else match s.audio.sinks[n]? with
  | some k => Tab.getD k.silent a.toNat false
  | none => false

/-- The amplifier sleep bit of element `e` at index `k`. -/
def sleepAt (s : State) (e k group : Nat) (g : DriveGroup) : Bool :=
  bitOf s.audio.sleepMask group && (beamsOf s e).all (fun x =>
    !feeds g x.2.1 x.2.2 k ||
      (decide (x.2.1.entry.source = 4) &&
        sinkSilent s x.2.1.entry.srcId ((x.2.1.aS : Int) + ((k : Int) - x.2.1.kS - x.2.2.di).fdiv (max 1 g.ratio : Nat))))

/-! ## Drive frames (R200, R315, Table 17-6) -/

/-- Index `k` falls into the last switch-over gap; the first such index. -/
def gapFirst (s : State) (g : DriveGroup) (k : Nat) : Option Nat :=
  match s.tx.gap with
  | none => none
  | some (lo, hi) =>
    let t := driveTime g k - leadTicks g
    if (lo : Int) ≤ t ∧ t ≤ (hi : Int) then some (firstSent g lo) else none

/-- One sample of one element: what the frame carries, and the state after it. -/
def emitSample (e k : Nat) (g : DriveGroup) (ecc : List Ecc) (s : State) : Int × State :=
  let s := pullElem e k g ecc s
  let r := driveRun s e
  let o := elemOut s e k g
  let s := setDrive e { r with sat := r.sat + b01 o.2, next := some (k + 1) } s
  match gapFirst s g k with
  | some f =>
    let last := Tab.getD s.tx.last e 0
    (if g.fade = 1 then roundDiv (last * downAt f k) 64 else last, s)
  | none => (o.1, { s with tx.last := Tab.put s.tx.last e o.1 })

/-- Every participant's stream has passed the drive index `f` gives for it; one whose stream does not run, or that is no drive element any
more, has nothing to pass. -/
def TxBeam.passed (s : State) (b : TxBeam) (f : Part_ → Nat) : Bool :=
  let now := drivers s
  b.parts.all (fun p => match (driveRun s p.elem).next with
    | some nx => decide (f p ≤ nx) || !now.any (fun m => decide (m.element = p.elem))
    | none => true)

/-- A beam has left nothing to send: its own ramp has run out, or, once its program has ended, its last sample has passed every element.
A beam without participants goes by the clock. -/
def beamGone (s : State) (key : Nat) (b : TxBeam) : Bool :=
  match Tab.get s.tx.groups b.entry.group with
  | none => false
  | some g => match b.rampAt with
    | some f => b.passed s (fun _ => f + 64) && (!b.parts.isEmpty || decide (driveTime g (f + 64) ≤ (s.tw : Int)))
    | none => decide (64 ≤ key ∧ b.entry.length ≠ 0) &&
        b.passed s (fun p => b.base g + b.entry.length * g.ratio + interpDelay g + p.di + 2)

/-- Keep the 65,536 samples of a beam's stream before the least index that its participants send next, and those ahead (R205). -/
def TxBeam.trim (s : State) (b : TxBeam) : TxBeam :=
  match Tab.get s.tx.groups b.entry.group, (b.parts.filterMap (fun p => (driveRun s p.elem).next)) with
  | some g, k :: l => { b with hist := b.hist.filter (fun x => decide (b.streamAt g ((l.foldl Nat.min k : Nat) : Int) ≤ (x.1 : Int) + (histLen : Int))) }
  | _, _ => b

/-- Drop the beams that have nothing left to send and the samples that no delay reaches any more, and advance src_cons. -/
def trimBeams (s : State) : State :=
  let rings := ((s.tx.beams.filter (fun p => decide (p.2.entry.source = 3))).map (·.2.entry.srcId)).eraseDups
  let s := rings.foldl (fun s r => srcTrim r s) s
  { s with tx.beams := (s.tx.beams.filter (fun p => !beamGone s p.1 p.2)).map (fun p => (p.1, p.2.trim s)) }

/-- The flag words of a drive frame: two bits per channel. -/
def flagWords (flags : List (Bool × Bool)) : Bytes :=
  (List.range (ceilDiv flags.length 32)).flatMap (fun w =>
    le 8 ((((flags.drop (32 * w)).take 32).zipIdx.map (fun p => (b01 p.1.1 + 2 * b01 p.1.2) * 4 ^ p.2)).sum))

/-- The channel-off bit of an element in a frame that ends with index `k` (R315). -/
def channelOff (r : DriveRun) (k : Nat) : Bool :=
  r.mute.isSome && (match r.ramp with
    | some (f, _) => decide (f ≤ k)
    | none => true)

/-- One sample of a drive frame: of the element that the channel drives, or 0 where none does (R315). -/
def frameSample (m : Option DriveEntry) (k : Nat) (g : DriveGroup) (ecc : List Ecc) (p : List Int × State) : List Int × State :=
  match m with
  | some m =>
    let x := emitSample m.element k g ecc p.2
    (p.1 ++ [x.1], x.2)
  | none => (p.1 ++ [0], p.2)

/-- The drive elements on the channels of a drive frame. -/
def frameChans (s : State) (group stream chan0 nch : Nat) : List (Option DriveEntry) :=
  (List.range nch).map (fun c => (drivers s).find? (fun m =>
    decide (m.group = group ∧ m.stream = stream ∧ m.channel = chan0 + c)))

/-- The first drive index of a frame (R200): the one at which the streams of its elements stand, or, where none of them runs yet, the
first whose frame can leave in time. An index whose frame could no longer leave by t_g(k) − lead is passed over, unless it fell into the
switch-over gap, whose frames leave at its end (R453). -/
def frameNext (s : State) (g : DriveGroup) (els : List DriveEntry) : Option Nat :=
  if els.isEmpty then none
  else match els.findSome? (fun x => (driveRun s x.element).next) with
    | some k => if (gapFirst s g k).isSome then some k else some (Nat.max k (firstSent g s.tw))
    | none => some (firstSent g s.tw)

/-- The flags of a frame that ends with index `last`: channel off, and silent over its `nsamp` indices from `k` (R243, R315). -/
def driveFlags (s : State) (chans : List (Option DriveEntry)) (group k nsamp : Nat) (g : DriveGroup) : List (Bool × Bool) :=
  chans.map (fun c => match c with
    | some m => (channelOff (driveRun s m.element) (k + nsamp - 1), (List.range nsamp).all (fun j => sleepAt s m.element (k + j) group g))
    | none => (false, false))

/-- Elements of a group that are no drive elements now have left their streams. -/
def leaveStreams (group : Nat) (s : State) : State :=
  let now := drivers s
  (s.tx.map.filter (fun m => decide (m.group = group) && !now.any (fun x => decide (x.element = m.element)) &&
    (driveRun s m.element).next.isSome)).foldl (fun s m => setDrive m.element (driveRun s m.element).leave s) s

/-- The samples of a frame, and the state once they are computed. -/
def frameSamples (chans : List (Option DriveEntry)) (k nsamp : Nat) (g : DriveGroup) (ecc : List Ecc) (s : State) : List Int × State :=
  (List.range (chans.length * nsamp)).foldl (fun p i => frameSample (chans[i % chans.length]?).join (k + i / chans.length) g ecc p) ([], s)

/-- The data words of a drive frame (R315). -/
def driveBody (stream chan0 k nsamp : Nat) (flags : List (Bool × Bool)) (samples : List Int) : Bytes :=
  le 2 stream ++ le 2 chan0 ++ le 2 flags.length ++ le 2 nsamp ++ le 8 k ++ zeros 8 ++ flagWords flags ++ samples.flatMap (fun v => leS 2 v)

/-- Compute a drive frame from index `k` on, and send it where the member emits. -/
def sendDriveFrame (q group stream chan0 nsamp : Nat) (chans : List (Option DriveEntry)) (k : Nat) (g : DriveGroup) (ecc : List Ecc)
    (s : State) : State :=
  let ecc := regionSeen s 3 0 (ceilDiv (txTableBytes s) 32) ecc
  let r := frameSamples chans k nsamp g ecc (eccRead 6 3 ecc s)
  let body := driveBody stream chan0 k nsamp (driveFlags r.2 chans group k nsamp g) r.1
  let s := trimBeams r.2
  if s.emits && (quadOf s q).up then emitOn q (.frame (mkFrame 3 0 body)) s else s

/-- A frame can be formed: the group runs, the quad carries drive frames, the elements whose streams run stand at one index, the words
fit. -/
def frameReady (s : State) (q nch nsamp : Nat) (els : List DriveEntry) (g : DriveGroup) : Bool :=
  let ks := els.filterMap (fun m => (driveRun s m.element).next)
  g.t0.isSome && quadHas s q 3 && ks.all (fun k => decide (some k = ks.head?)) &&
    !(!s.emits && s.twin.gapAt.isSome) && decide (nsamp ≠ 0 ∧ 3 + ceilDiv nch 32 + ceilDiv (nch * nsamp) 4 ≤ 1024)

/-- DRIVE_FRAME_SEND (R200, R205, R223, R243, R315): the next samples of the mapped channels of one group and stream. A member that does
not emit computes them without a frame; during a switch-over gap the incoming member waits for the gap's end. -/
def execDriveFrameSend (t : Tick) (q : Fin 16) (group : Fin 16) (stream chan0 : BitVec 16) (nch nsamp : Nat) (ecc : List Ecc)
    (s : State) : Host.Outcome State Fault Refusal :=
  let s := s.advance t
  let chans := frameChans s group.val stream.toNat chan0.toNat nch
  let els := chans.filterMap id
  match Tab.get s.tx.groups group.val with
  | none => .next s
  | some g => match frameNext s g els with
  | none => .next s
  | some k =>
    if frameReady s q.val nch nsamp els g then
      .next (sendDriveFrame q.val group.val stream.toNat chan0.toNat nsamp chans k g ecc (latchBeams group.val (k + nsamp) (leaveStreams group.val s)))
    else .next s

end Sys2Proof.Machine
end

