-- ==== Sys2Proof/Machine/Tx.lean ====
section
/-!
DEFINITION. Transmit programs, echo calibration and the load watch (08_transmit.md): the start queue (R209 to R214), participants (R203,
R204, R206), repeats and record of an echo calibration (R215 to R221), sense frames and mutes (R222 to R226).
-/
namespace Sys2Proof.Machine

/-! ## Load on the adders (R206) -/

/-- Terms per second of some beams (R206). -/
def termRate (s : State) (bs : List TxBeam) : Nat :=
  (bs.map (fun b => b.parts.length * (match Tab.get s.tx.groups b.entry.group with
    | some g => g.rate
    | none => 0))).sum

/-- The beams of running programs. -/
def runningBeams (s : State) : List TxBeam := (s.tx.beams.filter (fun p => decide (p.1 < 64))).map (·.2)

/-! ## Ends of starts (R210, R214, Table 08-6) -/

/-- Blanking by a response entry ends `blank` µs after its program (R193), which ends `after` ticks from now. -/
def endBlank (entry after : Nat) (s : State) : State :=
  { s with glint.blanks := s.glint.blanks.map (fun b =>
      if b.entry = entry ∧ b.until_ = none then { b with until_ := some (s.now + after + (usTicks b.resp.blank).toNat) } else b) }

/-- A start ends with a status of Table 08-6: the command's completion, or a glint-start-done event. Its program ends `after` ticks from
now: later than the command where a pair stops it at T (Table 17-1). -/
def finishAfter (after id status info : Nat) (s : State) : State :=
  match Tab.get s.tx.starts id with
  | none => s
  | some x =>
    let s := { s with tx.starts := Tab.del s.tx.starts id }
    match x.origin with
    | .command _ => endWork (.transmit id) status info s
    | .echo _ _ => endWork (.echo id) status info s
    | .glint entry ev _ => endBlank entry after (postEvent 0x78 entry (le 2 status ++ zeros 6 ++ le 8 ev) s)

/-- A start whose program ends now, or that never began, ends with a status. -/
def finishStart (id status info : Nat) (s : State) : State := finishAfter 0 id status info s

/-- A key for a beam that leaves its slot. -/
def drainKey (s : State) : Nat := s.tx.beams.foldl (fun m p => Nat.max m (p.1 + 1)) 64

/-- The beam at a slot leaves it and goes on until its last sample is sent. -/
def drain (slot : Nat) (s : State) : State :=
  match Tab.get s.tx.beams slot with
  | none => s
  | some b => { s with tx.beams := Tab.put (Tab.del s.tx.beams slot) (drainKey s) b }

/-- The slots of a running start. -/
def slotsOfStart (s : State) (id : Nat) : List Nat :=
  (s.tx.beams.filter (fun p => decide (p.1 < 64 ∧ p.2.start = id))).map (·.1)

/-- A beam begins its ramp to zero (R213, R214, R223): at the first drive index whose frame leaves at or after `T`, and that no frame has
carried yet. -/
def rampBeam (T slot : Nat) (s : State) : State :=
  match Tab.get s.tx.beams slot with
  | none => s
  | some b =>
    match Tab.get s.tx.groups b.entry.group with
    | none => s
    | some g =>
      let sent := (b.parts.map (fun p => (driveRun s p.elem).next.getD 0)).foldl Nat.max 0
      let k := Nat.max (firstSent g T) sent
      { s with tx.beams := Tab.put s.tx.beams slot { b with rampAt := some (match b.rampAt with
        | some r => min r k
        | none => k) } }

/-- Stop a running start: its beams ramp, and it ends with a status. -/
def stopStart (id T status info : Nat) (s : State) : State :=
  let s := (slotsOfStart s id).foldl (fun s k => rampBeam T k s) s
  finishAfter (T - s.tw) id status info s

/-! ## Readiness (R211, R212) -/

/-- The drive groups that a start uses. -/
def startGroups (s : State) (x : Start) : List Nat :=
  match x.origin with
  | .echo _ c => (driveEntry s c.drive).toList.map (·.group)
  | _ => match Tab.get s.tx.progs x.program with
    | some p => p.beams.map (·.group)
    | none => []

/-- The longest lag of a start's groups. -/
def startLag (s : State) (x : Start) : Int :=
  ((startGroups s x).map (fun g => match Tab.get s.tx.groups g with
    | some d => lagOf d
    | none => 0)).foldl max 0

/-- The elements that a start would drive. -/
def startElems (s : State) (x : Start) : List Nat :=
  match x.origin with
  | .echo _ c => [c.drive]
  | _ => match Tab.get s.tx.progs x.program with
    | some p => p.beams.flatMap (fun b => (takers s b).map (·.1.element))
    | none => []

/-- A change of an element's entry awaits its activation. -/
def elemPending (s : State) (e : Nat) : Bool :=
  s.cond.pending.any (fun p => match p.kind with
    | .elems es => es.any (fun x => decide (x.1 = e)) && (match changeInstant s s.view (p.group s s.view) p.activate with
      | some t => decide (s.tw < t)
      | none => false)
    | .group _ _ => false)

/-- A group awaits its start, or the start that a loaded descriptor needs. -/
def groupPending (s : State) (g : Nat) : Bool :=
  Tab.has s.tx.newGroups g || (match Tab.get s.tx.groups g with
    | some d => d.t0.isNone
    | none => true)

/-- The start is an echo calibration. -/
def Start.isEcho (x : Start) : Bool := match x.origin with
  | .echo _ _ => true
  | _ => false

/-- The start comes from a glint response. -/
def Start.isGlint (x : Start) : Bool := match x.origin with
  | .glint _ _ _ => true
  | _ => false

/-- The start has the preempt flag. -/
def Start.preempts (x : Start) : Bool := bitOf x.flags 1

/-- The start may be moved to a later instant: an immediate one. Bit 2 marks an immediate start whose T a pair has set (Table 17-1). -/
def Start.immediate (x : Start) : Bool := x.tS.isNone || bitOf x.flags 2

/-- The slots that a start needs, or every one for an echo calibration (R216). -/
def slotsFor (s : State) (x : Start) : List Nat :=
  if x.isEcho then List.range 64
  else match Tab.get s.tx.progs x.program with
    | some p => p.beams.map (·.slot)
    | none => []

/-- A slot that the start needs is not free: a program runs in it, or its ramp to zero still does (R213). -/
def slotTaken (s : State) (x : Start) : Bool := (slotsFor s x).any (fun k => (Tab.get s.tx.beams k).any (fun b => !beamGone s k b))

/-- The not-ready cause "slot busy" (Table 08-5). -/
def slotBusy (s : State) (x : Start) : Bool := !x.preempts && slotTaken s x

/-- A not-ready cause of Table 08-5 other than "too soon" holds. -/
def notReady (s : State) (x : Start) : Bool :=
  (vget s.tb.gates 1 ⟨false, 0, 0⟩).closed || (vget s.tb.gates 2 ⟨false, 0, 0⟩).closed || s.tx.echo.isSome ||
    (startGroups s x).any (groupPending s) || (startElems s x).any (elemPending s) || slotBusy s x

/-- The requested start would be too soon. -/
def tooSoon (s : State) (x : Start) : Bool :=
  match x.tS with
  | some t => !x.immediate && decide ((t : Int) < (s.tw : Int) + startLag s x)
  | none => false

/-- The instant at which a start that may be moved begins: as requested, or the earliest that is not too soon. -/
def beginAt (s : State) (x : Start) : Int :=
  let soon := (s.tw : Int) + startLag s x
  match x.tS with
  | some t => max (t : Int) soon
  | none => soon

/-! ## Starting a program (R202 to R206) -/

/-- The first audio index of a sink source (R238). -/
def firstAudio (s : State) (tS : Int) (g : DriveGroup) : Nat :=
  match s.audio.t0 with
  | none => 0
  | some t0 =>
    let ok (a : Nat) : Bool := decide (0 ≤ (audioTime t0 a - tS) * (1000000 * max 1 g.rate : Nat) +
      ((g.lead + 100) * max 1 g.rate * tickHz + interpDelay2 g * 500000 * tickHz : Nat))
    let T := tS - leadTicks g - spanTicks (interpDelay2 g) 1 (2 * max 1 g.rate) - usTicks 100
    if ok 0 then 0 else firstNear ok (ceilDiv ((T - t0).toNat * 48000) tickHz)

/-- The beam of an entry as it starts. -/
def newBeam (s : State) (id : Nat) (tS : Int) (x : ProgBeam) (g : DriveGroup) (ps : List Part_) : TxBeam where
  start := id
  entry := x
  parts := ps
  kS := firstAt g tS
  aS := firstAudio s tS g
  ring0 := ((vget s.host.srcCons x.srcId 0).toNat - (srcRingOf s x.srcId).base) / 2
  latched := decide (x.offset = 0)
  phase := 0
  n := 0
  stages := []
  comp := []
  comb := [0, 0, 0, 0, 0]
  integ := [0, 0, 0, 0, 0]
  hist := []
  next := 0
  sat := 0
  under := 0
  absent := false
  rampAt := none

/-- The beams of a program, or the element at which R204 refuses it. -/
def programBeams (s : State) (id : Nat) (tS : Int) (p : Program) : Except Nat (List TxBeam) :=
  p.beams.foldl (fun r x => match r, Tab.get s.tx.groups x.group with
    | .error e, _ => .error e
    | .ok l, none => .ok l
    | .ok l, some g => match partsOf s p.tbase x g with
      | .error e => .error e
      | .ok ps => .ok (l ++ [newBeam s id tS x g ps])) (.ok [])

/-- A program starts at `tS`, or ends REFUSED (R204, R206). Where R206 refuses, no element fails and the info is free (log 44). -/
def beginProgram (id : Nat) (tS : Int) (s : State) : State :=
  match Tab.get s.tx.starts id with
  | none => s
  | some x =>
    match Tab.get s.tx.progs x.program with
    | none => let r := s.drawFree 32; finishStart id stRefused r.1 r.2
    | some p =>
      match programBeams s id tS p with
      | .error e => finishStart id stRefused e s
      | .ok bs =>
        if 131072000000 < termRate s (runningBeams s ++ bs) then let r := s.drawFree 32; finishStart id stRefused r.1 r.2
        else
          let muted := bs.any (fun b => b.parts.any (fun q => isMuted s q.elem))
          let s := { s with
            tx.starts := Tab.put s.tx.starts id { x with held := false, running := some tS.toNat, muted := x.muted || muted }
            tx.beams := bs.foldl (fun t b => Tab.put t b.entry.slot b) s.tx.beams }
          match x.origin with
          | .glint entry _ r => { s with glint.blanks := s.glint.blanks ++ [⟨entry, r, none⟩] }
          | _ => s

/-- An echo calibration starts (R216, R217): t_0 is the instant of the first drive index at which it can. -/
def beginEcho (id : Nat) (c : EchoCmd) (tS : Int) (s : State) : State :=
  match Tab.get s.tx.starts id, (driveEntry s c.drive).bind (fun m => Tab.get s.tx.groups m.group) with
  | some x, some g =>
    match delayOf ((viewNow s).elem c.drive) c.tbase g.rate 1 0 with
    | none => finishStart id stRefused c.drive s
    | some _ =>
      let t0 := driveTime g (firstAt g tS)
      { s with
        tx.starts := Tab.put s.tx.starts id { x with held := false, running := some t0.toNat }
        tx.echo := some ⟨id, c, t0.toNat, 0, ((viewNow s).elem c.drive).calDelay, isMuted s c.drive, []⟩ }
  | some _, none => finishStart id stRefused c.drive s
  | none, _ => s

/-- A start begins. -/
def beginStart (id : Nat) (tS : Int) (s : State) : State :=
  match Tab.get s.tx.starts id with
  | none => s
  | some x => match x.origin with
    | .echo _ c => beginEcho id c tS s
    | _ => beginProgram id tS s

/-! ## Echo calibration: the record (R217 to R221) -/

/-- Rate and ratio of a receiver's outputs, its timeline and its entry. -/
def recvOf (s : State) (e : Nat) : Option (ElemEntry × GroupDesc × Nat) :=
  match (viewNow s).active e, Tab.get s.cond.run e with
  | some (x, g), some r => some (x, g, r.tOrg)
  | some (x, g), none => some (x, g, 0)
  | none, _ => none

/-- The first output at or after an instant: m_0. -/
def firstOutput (tOrg : Nat) (g : GroupDesc) (T : Int) : Nat :=
  let ok (m : Nat) : Bool := decide (T ≤ condStamp tOrg g m)
  let d := T - condStamp tOrg g 0
  if d ≤ 0 then 0 else firstNear ok (ceilDiv (d.toNat * g.rate) (tickHz * max 1 g.ratio))

/-- One receiver's result. -/
structure EchoRes where
  status : Nat
  lag : Int
  /-- a_j, r_j and the ratio as integers -/
  arrival : Int
  residual : Int
  ratio : Nat
  eps : Int
  cal : Int
  deriving DecidableEq, Repr

/-- c_j at one lag over the repeats driven. -/
def corrAt (ref : List Int) (x : Nat → Int) (m0 reps spacing : Nat) (lag : Int) : Int :=
  ((List.range reps).map (fun r => firSumAt ref x ((m0 + r * spacing : Nat) + lag))).sum
where
  /-- Σ ref[n]·x[m + n]. -/
  firSumAt (ref : List Int) (x : Nat → Int) (m : Int) : Int := (ref.zipIdx.map (fun p => p.1 * x (m + p.2).toNat)).sum

/-- R217 and R218 for one receiver. A missing output counts as a gap. -/
def echoResult (s : State) (k : EchoRun) (drive : ElemEntry) (e : Nat) : EchoRes :=
  let c := k.cmd
  let ref := Tab.getD s.tx.waves c.ref []
  match recvOf s e with
  | none => ⟨3, 0, 0, 0, 0, 0, ((viewNow s).elem e).calDelay⟩
  | some (x, g, org) =>
    let m0 := firstOutput org g k.t0
    let eps := condStamp org g m0 - k.t0
    let taps := Tab.getD k.taps e []
    let read (i : Int) : Option CondWord := if i < 0 then none else Tab.get taps i.toNat
    let span := (List.range k.rep).flatMap (fun r =>
      (List.range (c.lags + ref.length - 1)).map (fun i => read ((m0 + r * c.spacing : Nat) + c.lag0 + i)))
    let gap := span.any (fun w => match w with
      | some w => decide (w.gap ≠ 0)
      | none => true)
    let warm := span.any (fun w => match w with
      | some w => w.warm
      | none => false)
    let val (i : Nat) : Int := match Tab.get taps i with
      | some w => w.v
      | none => 0
    let cs := (List.range c.lags).map (fun i => corrAt ref val m0 k.rep c.spacing (c.lag0 + i))
    let best := (cs.zipIdx.foldl (fun (b : Nat × Nat) p => if b.1 < p.1.natAbs then (p.1.natAbs, p.2) else b) ((cs.headD 0).natAbs, 0))
    let i := best.2
    let side := (cs.zipIdx.map (fun p => if p.2 + c.guard_ < i ∨ i + c.guard_ < p.2 then p.1.natAbs else 0)).foldl Nat.max 0
    let ratio := if side = 0 then 0xFFFFFFFF else satU 32 (best.1 * 256 / side)
    let l : Int := c.lag0 + i
    let st := if gap then 3 else if warm then 4 else if i = 0 ∨ i + 1 = c.lags then 2
      else if best.1 * 256 < c.psr * side then 1 else 0
    let a := cs.getD (i - 1) 0
    let z := cs.getD (i + 1) 0
    let dd := 2 * (a - 2 * cs.getD i 0 + z)
    -- eps + (l + (a − z) ÷ dd)·ratio ÷ rate, in ps, as num ÷ den with den > 0
    let sgn : Int := if dd < 0 then -1 else 1
    let den : Int := 2 ^ 32 * g.rate * (if dd = 0 then 1 else dd * sgn)
    let num : Int := (eps * g.rate * (if dd = 0 then 1 else dd * sgn) +
      (if dd = 0 then l else (l * dd + (a - z)) * sgn) * g.ratio * 2 ^ 32) * 10 ^ 12
    let d2 := ((drive.posX - x.posX) ^ 2 + (drive.posY - x.posY) ^ 2 + (drive.posZ - x.posZ) ^ 2).toNat
    let root : Int := (isqrtAux (d2 * 2 ^ 160) 118 0 : Nat)
    let pden : Int := 2 ^ 80 * 10 * (max 1 c.speed : Nat)
    ⟨st, l, roundDiv num den, roundDiv (num * pden - root * 10 ^ 12 * den) (den * pden), ratio, eps, x.calDelay⟩

/-- Insertion into a list of integers in rising order. -/
def insertInt (a : Int) : List Int → List Int
  | [] => [a]
  | b :: l => if a ≤ b then a :: b :: l else b :: insertInt a l

/-- The lower median. -/
def lowerMedian (l : List Int) : Int := (l.foldl (fun a x => insertInt x a) []).getD ((l.length - 1) / 2) 0

/-- One entry of the record (Table 08-9). What R218 does not form for a receiver that is not accepted is a free value. -/
def echoEntry (e : Nat) (r : EchoRes) (proposal : Int) (s : State) : Bytes × State :=
  let f1 := s.drawFree 32
  let f2 := f1.2.drawFree 64
  let f3 := f2.2.drawFree 64
  let f4 := f3.2.drawFree 32
  let marked := decide (3 ≤ r.status)
  let lag := if marked then le 4 f1.1 else leS 4 r.lag
  let ar := if r.status = 0 then leS 8 r.arrival else le 8 f2.1
  let rs := if r.status = 0 then leS 8 r.residual else le 8 f3.1
  let ra := if marked then le 4 f4.1 else le 4 r.ratio
  (le 2 e ++ le 1 r.status ++ zeros 1 ++ lag ++ ar ++ rs ++ leS 4 proposal ++ ra, f4.2)

/-- The record of a calibration (R219, R221); `abandoned` gives status 3. The calibration ends and its command completes. -/
def echoRecord (k : EchoRun) (abandoned : Bool) (s : State) : State :=
  let c := k.cmd
  let drive := { (viewNow s).elem c.drive with calDelay := k.used }
  let rs := c.recv.map (fun e => (e, echoResult s k drive e))
  let acc := rs.filter (fun p => decide (p.2.status = 0))
  let n := acc.length
  let med := lowerMedian (acc.map (·.2.residual))
  let cbar := roundDiv ((acc.map (·.2.cal)).sum) (max 1 n)
  let few := decide (n < 3)
  let status := if abandoned then 3 else if k.muted then 2 else if few then 1 else 0
  let hold := abandoned || few
  let f1 := s.drawFree 64
  let f2 := f1.2.drawFree 32
  let s := f2.2
  let ents := rs.foldl (fun (a : Bytes × State) p =>
    let prop := if hold ∨ p.2.status ≠ 0 then p.2.cal else cbar - (p.2.residual - med)
    let r := echoEntry p.1 p.2 prop a.2
    (a.1 ++ r.1, r.2)) ([], s)
  let s := ents.2
  let fr := match (c.recv.head?).bind (recvOf s) with
    | some (_, g, _) => roundDiv g.rate (max 1 g.ratio)
    | none => 0
  let eps := match rs.head? with
    | some p => p.2.eps
    | none => 0
  let sw := switchesIn s k.t0 s.tw
  let body := le 2 c.drive ++ le 2 c.recv.length ++ le 2 n ++ le 1 status ++ le 1 (b01 (decide (sw.2 ≠ 0))) ++ le 8 k.t0 ++ leS 8 eps ++
    (if few then le 8 f1.1 else leS 8 med) ++ leS 4 drive.calDelay ++ leS 4 (if hold then drive.calDelay else drive.calDelay - med + c.target) ++
    le 4 c.speed ++ leS 4 c.target ++ leS 4 fr ++ le 2 k.rep ++ le 2 c.lags ++ (if few then le 4 f2.1 else leS 4 cbar) ++ zeros 4 ++ ents.1
  finishStart k.start stOk 0 (formRecord ⟨5, 0, 0x40, body, 0xFFFF, k.t0, s.tw, false⟩ { s with tx.echo := none })

/-- Every output that the correlations of a receiver read in the first `n` repeats is there, or will not come. -/
def recvReady (s : State) (k : EchoRun) (n e : Nat) : Bool :=
  match recvOf s e, Tab.get s.cond.run e with
  | some (_, g, org), some r =>
    let m0 := firstOutput org g k.t0
    let refLen := (Tab.getD s.tx.waves k.cmd.ref []).length
    let last : Int := (m0 + (n - 1) * k.cmd.spacing + k.cmd.lags + refLen - 2 : Nat) + k.cmd.lag0
    let newest : Int := match (Tab.getD k.taps e []).getLast? with
      | some p => p.1
      | none => -1
    decide (last ≤ newest) || r.stop.isSome
  | _, _ => true

/-- The repeats completed: driven, and read on every receiver (Table 08-8). -/
def repeatsDone (s : State) (k : EchoRun) : Nat :=
  (((List.range k.rep).map (· + 1)).filter (fun n => k.cmd.recv.all (recvReady s k n))).foldl Nat.max 0

/-- A sample of the beam has left: the stream of a participant has reached an index that the beam feeds. -/
def TxBeam.heard (s : State) (b : TxBeam) : Bool :=
  match Tab.get s.tx.groups b.entry.group with
  | none => false
  | some g => b.parts.any (fun p => match (driveRun s p.elem).next with
    | some k => decide (0 ≤ b.streamAt g ((k : Int) - p.di))
    | none => false)

/-- A calibration that runs is abandoned (R216): its record covers the repeats completed, and a repeat of which no sample has left yet is not
driven. -/
def abandonEcho (s : State) : State :=
  match s.tx.echo with
  | some k => echoRecord { k with rep := repeatsDone s k } true
      { s with tx.beams := s.tx.beams.filter (fun p => decide (p.2.start ≠ k.start) || p.2.heard s) }
  | none => s

/-! ## The start queue (R209 to R213) -/

/-- Starts in the order in which they fall due: ascending t_s, ties as queued; an immediate start counts from its queuing. -/
def queueOrder (s : State) : List (Nat × Start) :=
  (s.tx.starts.filter (fun p => !p.2.held && p.2.running.isNone)).foldl (fun l p => insertBy (fun q => q.2.tS.getD q.2.at_) p l) []

/-- The longest ramp that a preempting start waits for: 64 samples of a beam in one of its slots (R213, R223). -/
def rampLag (s : State) (x : Start) : Int :=
  if !x.preempts then 0
  else ((slotsFor s x).map (fun k => match (Tab.get s.tx.beams k).bind (fun b => Tab.get s.tx.groups b.entry.group) with
    | some g => spanTicks 64 1 (max 1 g.rate)
    | none => 0)).foldl max 0

/-- A start is due: early enough that the ramps it needs can run and its first sample can land at t_s, and at once when immediate. -/
def isDue (s : State) (x : Start) : Bool :=
  match x.tS with
  | some t => decide ((t : Int) - startLag s x - rampLag s x ≤ (s.tw : Int))
  | none => true

/-- A start with preempt set stops every program that holds one of its slots: their beams ramp to zero in them (R213). -/
def preempt (x : Start) (s : State) : State :=
  let slots := slotsFor s x
  let victims := ((s.tx.beams.filter (fun b => slots.contains b.1 && b.2.rampAt.isNone)).map (·.2.start)).eraseDups
  victims.foldl (fun s v => finishStart v stPreempted x.program ((slotsOfStart s v).foldl (fun s k => rampBeam s.tw k s) s)) s

/-- A start whose causes have ended begins; a preempting one first waits, held in its place, until the ramps have left its slots free. -/
def beginOrRamp (id : Nat) (x : Start) (s : State) : State :=
  let s := if x.preempts then preempt x s else s
  if slotTaken s x then { s with tx.starts := Tab.put s.tx.starts id { x with held := true } } else beginStart id (beginAt s x) s

/-- A start falls due (R212, R213, R216). -/
def fallDue (id : Nat) (x : Start) (s : State) : State :=
  let s := if x.preempts || x.isGlint then abandonEcho s else s
  if notReady s x || tooSoon s x then
    if bitOf x.flags 0 then { s with tx.starts := Tab.put s.tx.starts id { x with held := true } } else finishStart id stLate 0 s
  else beginOrRamp id x s

/-- Held starts in the order of the queue: ascending t_s, ties as queued (R209, R212). -/
def heldOrder (s : State) : List (Nat × Start) :=
  (s.tx.starts.filter (fun p => p.2.held && p.2.running.isNone)).foldl (fun l p => insertBy (fun q => q.2.tS.getD q.2.at_) p l) []

/-- The held start that begins next: in the order of the queue, the first whose causes have ended and that no ramp keeps waiting. -/
def heldReady (s : State) : Option (Nat × Start) :=
  (heldOrder s).find? (fun p => !notReady s p.2 && !(slotTaken s p.2 &&
    (slotsFor s p.2).all (fun k => (Tab.get s.tx.beams k).all (fun b => b.rampAt.isSome))))

/-- The start that falls due next (R209): the first of the queue, as soon as any start of the queue is due, so that none falls due before
one that stands ahead of it; a held start that is ready and stands ahead begins first. -/
def nextDue (s : State) : Option (Nat × Start) :=
  if !(queueOrder s).any (fun p => isDue s p.2) then none
  else match (queueOrder s).head?, heldReady s with
    | some p, some h => if h.2.tS.getD h.2.at_ ≤ p.2.tS.getD p.2.at_ then none else some p
    | p, _ => p

/-- TRANSMIT_START_DUE (R209, R212). -/
def execTransmitStartDue (t : Tick) (s : State) : Host.Outcome State Fault Refusal :=
  let s := s.advance t
  match nextDue s with
  | some (id, x) => .next (fallDue id x s)
  | none => .next s

/-- HELD_START_READY (R212): the held start that is ready begins at the earliest instant at which it can; one that stands behind another
ready one waits for it. -/
def execHeldStartReady (t : Tick) (start : Nat) (s : State) : Host.Outcome State Fault Refusal :=
  let s := s.advance t
  match heldReady s with
  | some (id, x) => if id = start then .next (beginOrRamp id x s) else .next s
  | none => .next s

/-- The places of pending starts from commands (R209). -/
def commandStarts (s : State) : Nat :=
  (s.tx.starts.filter (fun p => p.2.running.isNone && (match p.2.origin with
    | .command _ => true
    | _ => false))).length

/-- Queue a start under an id. -/
def queueStart (id : Nat) (o : Origin) (program : Nat) (tS : Option Nat) (flags : Nat) (s : State) : State :=
  { s with tx.starts := Tab.put s.tx.starts id ⟨o, program, tS, flags, s.tw, false, none, false⟩ }

/-- An immediate start whose T is known (Table 17-1): `paired` when a pair has set it. -/
def startNow (d : Desc) (id T : Nat) (paired : Bool) (s : State) : State :=
  queueStart id (.command d.index) (par d 32 1) (if paired then some T else none) (par d 33 1 + (if paired then 4 else 0)) s

/-- The start id of a deferred transmit start. -/
def startIdOf (s : State) (d : Desc) : Option Nat :=
  (s.host.deferred.find? (fun x => decide (x.desc.index = d.index))).bind (fun x => match x.work with
    | .transmit id => some id
    | _ => none)

/-- The EFFECT of an immediate start has come to the shadow (R442). -/
def effectStart (d : Desc) (T : Nat) (s : State) : State :=
  match startIdOf s d with
  | some id => startNow d id T true s
  | none => s

/-- The checks of TRANSMIT_START, in order. -/
def transmitStartChk (d : Desc) (s : State) : Chk :=
  let prog := par d 32 1
  firstFail [descChk d [(32, 2), (40, 8)], need (decide (par d 33 1 < 4)) stReserved 33, need (Tab.has s.tx.progs prog) stNotFound prog,
    need (decide (commandStarts s < 64)) stQueueFull 0]

/-- A deferred command with the id of its start. -/
def deferStart (d : Desc) (w : Work) (s : State) : State :=
  { s with tx.nextStart := s.tx.nextStart + 1, host.deferred := s.host.deferred ++ [⟨d, w, none⟩] }

/-- TRANSMIT_START (R209, R442): deferred until Table 08-6 ends it. -/
def runTransmitStart (d : Desc) (data : Bytes) (s : State) : State :=
  let tS := par d 40 8
  match transmitStartChk d s with
  | some c => refuse d c s
  | none =>
    let id := s.tx.nextStart
    let s := deferStart d (.transmit id) (if s.tw < tS then enterAct tS none s else if s.twinEn && decide (tS = 0) then s else disturb s)
    if tS ≠ 0 then queueStart id (.command d.index) (par d 32 1) (some tS) (par d 33 1) s
    else
      let r := takeT d data s
      let s := r.2
      match r.1 with
      | some T => startNow d id T s.twinEn s
      | none => s

def execTransmitStart (t : Tick) (d : Desc) (data : Bytes) (s : State) : Host.Outcome State Fault Refusal :=
  .next (runTransmitStart d data (s.advance t))

/-- Starts of a program: those that run, otherwise those that wait. -/
def stopTargets (s : State) (prog : Nat) : List Nat :=
  let l := s.tx.starts.filter (fun p => decide (p.2.program = prog) && !p.2.isEcho)
  let run := l.filter (fun p => p.2.running.isSome)
  (if run.isEmpty then l else run).map (·.1)

/-- The stop of a program at the effect point of `T` (R214, Table 17-1). -/
def stopProgram (prog T : Nat) (s : State) : State := (stopTargets s prog).foldl (fun s id => stopStart id T stStopped 0 s) s

/-- TRANSMIT_STOP (R214, R442). -/
def runTransmitStop (d : Desc) (data : Bytes) (s : State) : State :=
  let prog := par d 32 1
  match firstFail [descChk d [(32, 1)], need (!(stopTargets s prog).isEmpty) stNotFound prog] with
  | some c => refuse d c s
  | none =>
    let r := takeT d data s
    let s := r.2
    match r.1 with
    | some T => acceptTimed d (stopProgram prog T s)
    | none => acceptTimed d s

def execTransmitStop (t : Tick) (d : Desc) (data : Bytes) (s : State) : Host.Outcome State Fault Refusal :=
  .next (runTransmitStop d data (s.advance t))

/-- The beams of a running program have all passed their offset plus length (R208). -/
def programOver (s : State) (id : Nat) : Bool :=
  (s.tx.beams.filter (fun p => decide (p.1 < 64 ∧ p.2.start = id))).all (fun p =>
    match Tab.get s.tx.groups p.2.entry.group with
    | some g => decide (p.2.entry.length ≠ 0) &&
        decide (driveTime g (p.2.base g + p.2.entry.length * g.ratio) ≤ (s.tw : Int))
    | none => true)

/-- PROGRAM_END (R208, R214): the program completes DONE; what its interpolators and delays still hold goes on sounding outside the slots. -/
def execProgramEnd (t : Tick) (start : Nat) (s : State) : Host.Outcome State Fault Refusal :=
  let s := s.advance t
  match Tab.get s.tx.starts start with
  | some x =>
    if x.running.isSome && !x.isEcho && programOver s start then
      .next ((slotsOfStart s start).foldl (fun s k => drain k s) (finishStart start stOk (b01 x.muted) s))
    else .next s
  | none => .next s

/-! ## Echo calibration: command and repeats (R215 to R217) -/

/-- Read the command block (Table 08-7). -/
def parseEcho (b : Bytes) : EchoCmd where
  drive := fieldU b 0 2
  probe := fieldU b 2 2
  ref := fieldU b 4 2
  repeats := fieldU b 6 2
  spacing := fieldU b 8 4
  lag0 := fieldS b 12 4
  lags := fieldU b 16 2
  guard_ := fieldU b 18 2
  psr := fieldU b 20 2
  speed := fieldU b 24 4
  target := fieldS b 28 4
  tbase := fieldU b 32 4
  recv := (List.range (fieldU b 22 2)).map (fun i => fieldU b (40 + 2 * i) 2)

/-- The receivers of a calibration: enabled, and of one output rate. -/
def recvChk (s : State) (c : EchoCmd) : Chk :=
  let v := viewNow s
  let first := (c.recv.head?).bind v.active
  firstFail (c.recv.map (fun e => match v.active e, first with
    | some (_, g), some (_, h) => need (decide (g.rate * h.ratio = h.rate * g.ratio)) stConflict e
    | _, _ => some (stConflict, e)))

/-- fd·spacing ÷ fr is an integer. -/
def spacingChk (s : State) (c : EchoCmd) (g : DriveGroup) : Chk :=
  match (c.recv.head?).bind (viewNow s).active with
  | some (_, h) => need (decide (g.rate * c.spacing * h.ratio % max 1 h.rate = 0)) stRange 8
  | none => none

/-- The checks of ECHO_CALIBRATION, in order. -/
def echoCalibrationChk (d : Desc) (data : Bytes) (s : State) : Chk :=
  let b := dataOf d data
  let c := parseEcho b
  let n := c.recv.length
  let refLen := (Tab.getD s.tx.waves c.ref []).length
  let m? := (drivers s).find? (fun m => decide (m.element = c.drive))
  let g? := m?.bind (fun m => Tab.get s.tx.groups m.group)
  firstFail [descChk d [], need (decide (40 ≤ d.len.toNat)) stSize 40, need m?.isSome stRange 0,
    need (Tab.has s.tx.waves c.probe) stNotFound c.probe, need (Tab.has s.tx.waves c.ref) stNotFound c.ref,
    need (decide (1 ≤ c.repeats ∧ c.repeats ≤ 256)) stRange 6, need (decide (3 ≤ c.lags ∧ c.lags ≤ 4096)) stRange 16,
    need (decide (1 ≤ n ∧ n ≤ 1024)) stRange 22, need (decide (1 ≤ c.speed)) stRange 24, needZero b 36 4 0, sizeChk d (40 + 2 * n),
    need g?.isSome stNotFound ((m?.map (·.group)).getD 0), recvChk s c,
    match g? with
    | some g => spacingChk s c g
    | none => none,
    need (decide (n * (c.lags + refLen - 1) ≤ 2097152)) stCapacity freeInfo, need (decide (refLen ≤ 16384)) stCapacity freeInfo]

/-- ECHO_CALIBRATION (R215, R216): deferred until its record is written. -/
def runEchoCalibration (d : Desc) (data : Bytes) (s : State) : State :=
  let b := dataOf d data
  let c := parseEcho b
  match echoCalibrationChk d data s with
  | some x => refuse d x s
  | none =>
    let id := s.tx.nextStart
    queueStart id (.echo d.index c) 0x10000 none 1 (deferStart d (.echo id) (disturb s))

def execEchoCalibration (t : Tick) (d : Desc) (data : Bytes) (s : State) : Host.Outcome State Fault Refusal :=
  .next (runEchoCalibration d data (s.advance t))

/-- The direct beam of a probe. -/
def probeEntry (c : EchoCmd) (group len : Nat) : ProgBeam :=
  ⟨0, 1, 0, group, ⟨0, 0, 0⟩, 0, 1, 0, 0, 0, len, c.probe, 0, 0, 0, 0⟩

/-- The drive index at which repeat `r` drives the probe. -/
def repeatIndex (s : State) (k : EchoRun) (g : DriveGroup) (r : Nat) : Nat :=
  let step := match (k.cmd.recv.head?).bind (viewNow s).active with
    | some (_, h) => g.rate * k.cmd.spacing * h.ratio / max 1 h.rate
    | none => 0
  firstAt g k.t0 + r * step

/-- The probe of the next repeat is set going: it lands from drive index `ki` on with delay `D`. -/
def sendProbe (k : EchoRun) (m : DriveEntry) (g : DriveGroup) (ki D : Nat) (s : State) : State :=
  let e := probeEntry k.cmd m.group (Tab.getD s.tx.waves k.cmd.probe []).length
  let part : Part_ := ⟨k.cmd.drive, D / 2 ^ 16, D % 2 ^ 16, ((viewNow s).elem k.cmd.drive).driveGain⟩
  { s with
    tx.beams := Tab.put s.tx.beams (drainKey s) { newBeam s k.start (driveTime g ki) e g [part] with kS := ki }
    tx.echo := some { k with
      rep := k.rep + 1, used := ((viewNow s).elem k.cmd.drive).calDelay, muted := k.muted || isMuted s k.cmd.drive } }

/-- ECHO_REPEAT (R217): the next repeat's probe is set going early enough to land at t_r. -/
def execEchoRepeat (t : Tick) (s : State) : Host.Outcome State Fault Refusal :=
  let s := s.advance t
  match s.tx.echo with
  | none => .next s
  | some k =>
    match driveEntry s k.cmd.drive with
    | none => .next s
    | some m => match Tab.get s.tx.groups m.group with
      | none => .next s
      | some g =>
        let ki := repeatIndex s k g k.rep
        match delayOf ((viewNow s).elem k.cmd.drive) k.cmd.tbase g.rate 1 0 with
        | none => .next s
        | some D =>
          if k.cmd.repeats ≤ k.rep || decide ((s.tw : Int) < driveTime g ki - lagOf g) then .next s
          else .next (sendProbe k m g ki D s)

/-- ECHO_RECORD (R217 to R221). -/
def execEchoRecord (t : Tick) (s : State) : Host.Outcome State Fault Refusal :=
  let s := s.advance t
  match s.tx.echo with
  | none => .next s
  | some k => if k.cmd.repeats ≤ k.rep && k.cmd.recv.all (recvReady s k k.cmd.repeats) then .next (echoRecord k false s) else .next s

/-! ## The load watch (R222 to R226) -/

/-- Unmute an element (R224): it ramps up from the first drive sample not yet sent. -/
def clearMute (e : Nat) (s : State) : State :=
  let r := driveRun s e
  if r.mute.isNone then s
  else postEvent 0x73 e [] (setDrive e { r with mute := none, ramp := r.next.map (fun k => (k, true)), short := 0 } s)

/-- Evaluate block `q` of an element (R222, R225, Table 08-11). Blind blocks are consecutive by their index, whatever later block was
complete and evaluated before them. -/
def evalBlock (m : DriveEntry) (g : DriveGroup) (q : Nat) (s : State) : State :=
  let e := m.element
  let r := driveRun s e
  let back : Nat := if r.blindAt = some (q - 1) ∧ q ≠ 0 then r.blind + 1 else 1
  let here := r.sense.filter (fun p => decide (p.1 / 8 = q))
  let l := here.map (·.2)
  let vv : Int := (l.map (fun x => (x.v * m.sv) ^ 2 : Sense → Int)).sum
  let ii : Int := (l.map (fun x => (x.i * m.si) ^ 2 : Sense → Int)).sum
  let z : Int := (m.zNom : Int) ^ 2
  let temp := (l.filter (fun x => bitOf x.flags 1)).length
  let fault := (l.filter (fun x => bitOf x.flags 2)).length
  let done : DriveRun := if r.block = some q then
      let nx := q + 1 + ((List.range (r.ahead.length + 1)).find? (fun i => !r.ahead.contains (q + 1 + i))).getD 0
      { r with block := some nx, ahead := r.ahead.filter (fun x => decide (nx < x)) }
    else { r with ahead := r.ahead ++ [q] }
  let r : DriveRun := { done with
    sense := r.sense.filter (fun p => decide (p.1 / 8 ≠ q)), overTemp := r.overTemp + temp, ampFault := r.ampFault + fault }
  let s := if temp + fault = 0 then s else postEvent 0x76 e (le 1 (2 * b01 (decide (temp ≠ 0)) + 4 * b01 (decide (fault ≠ 0)))) s
  let set (r : DriveRun) (s : State) : State := setDrive e r s
  let calm : DriveRun := { r with open_ := false }
  if l.any (fun x => bitOf x.flags 0) then muteElem e 0 q (set calm s)
  else if l.length < 8 then
    let s := set { r with short := 0, blind := back, blindAt := some q, open_ := false } s
    if decide (back = 8) then
      let s := postEvent 0x74 e [] s
      if bitOf m.flags 0 then muteElem e 2 q s else s
    else s
  else if decide (ii < 8 * (g.ifloor : Int) ^ 2) then set { calm with short := 0 } s
  else if decide (16000000 * vv < z * ii) then
    let s := set { calm with short := calm.short + 1 } s
    if calm.short + 1 = 2 then muteElem e 1 q s else s
  else if decide (16 * z * ii < 1000000 * vv) then
    let s := set { r with open_ := true, short := 0 } s
    if r.open_ then s else postEvent 0x75 e (le 4 q) s
  else set { calm with short := 0 } s

/-- Place one sense sample; the sample that completes its block has it evaluated. The load watch of an element that became a drive element
while its group runs begins with the first block that its samples begin. -/
def takeSense (m : DriveEntry) (g : DriveGroup) (j : Nat) (x : Sense) (s : State) : State :=
  let r := driveRun s m.element
  let q := j / 8
  let first := r.block.getD (ceilDiv j 8)
  if r.block.isNone && decide (q < first) then setDrive m.element { r with block := some first } s
  else if q < first || r.ahead.contains q || Tab.has r.sense j then s
  else
    let r := { r with sense := Tab.put r.sense j x, block := some first }
    let s := setDrive m.element r s
    if (r.sense.filter (fun p => decide (p.1 / 8 = q))).length = 8 then evalBlock m g q s else s

/-- Field checks of a sense frame (R314, R311). -/
def senseOk (f : RawFrame) : Bool :=
  let n := fieldU f.data 4 2 * fieldU f.data 6 2
  frameGood f && frameIs f 2 0 && decide (1 ≤ n ∧ n ≤ 1021 ∧ f.n.toNat = 3 + n)

/-- Sample `i` of a sense frame: the element on its channel takes it, if its group runs. -/
def senseSample (f : RawFrame) (ms : List DriveEntry) (s : State) (i : Nat) : State :=
  let nch := fieldU f.data 4 2
  let o := 24 + 8 * i
  let x : Sense := ⟨fieldS f.data o 2, fieldS f.data (o + 2) 2, fieldU f.data (o + 4) 1⟩
  match ms.find? (fun m => decide (m.stream = fieldU f.data 0 2 ∧ m.channel = fieldU f.data 2 2 + i % nch)) with
  | none => s
  | some m => match Tab.get s.tx.groups m.group with
    | some g => if g.t0.isSome then takeSense m g (fieldU f.data 8 8 + i / nch) x s else s
    | none => s

/-- The samples of a sense frame, in order. -/
def senseSamples (f : RawFrame) (s : State) : State :=
  (List.range (fieldU f.data 4 2 * fieldU f.data 6 2)).foldl (senseSample f (drivers s)) s

/-- SENSE_FRAME (R314, R222): sense quads and drive quads receive sense frames (Table 12-1, R306). -/
def execSenseFrame (t : Tick) (q : Fin 16) (f : RawFrame) (s : State) : Host.Outcome State Fault Refusal :=
  let s := s.advance t
  if !(quadHas s q.val 2 || quadHas s q.val 3) || !(quadOf s q.val).up then .next s
  else if !senseOk f then .next (crcErr q.val s)
  else .next (senseSamples f (frameTaken q.val s))

/-- LOAD_WATCH_EVAL (R222): the oldest block that is not evaluated, 2 ms after its last sample's instant. -/
def execLoadWatchEval (t : Tick) (e : Fin 16384) (s : State) : Host.Outcome State Fault Refusal :=
  let s := s.advance t
  match (drivers s).find? (fun m => decide (m.element = e.val)) with
  | none => .next s
  | some m => match Tab.get s.tx.groups m.group with
    | none => .next s
    | some g => match g.t0 with
      | none => .next s
      | some t0 =>
        let r := driveRun s e.val
        let q := r.block.getD (firstBlock g s.tw)
        let s := setDrive e.val { r with block := some q } s
        if (t0 : Int) + spanTicks (8 * q + 7 : Nat) 1 8000 + usTicks 2000 ≤ (s.tw : Int) then .next (evalBlock m g q s) else .next s

/-- LOAD_WATCH_CLEAR (R224, R442): in a pair it acts at T. -/
def runLoadWatchClear (d : Desc) (data : Bytes) (s : State) : State :=
  let e := par d 32 2
  let zSet : Bool := match driveEntry s e with
    | some m => decide (m.zNom ≠ 0)
    | none => true
  match firstFail [descChk d [(32, 2)], need (driveEntry s e).isSome stNotFound e, need zSet stConflict e] with
  | some c => refuse d c s
  | none =>
    let r := takeT d data s
    let s := r.2
    match r.1 with
    | some T =>
      if s.twinEn then acceptTimed d { s with twin.timed := s.twin.timed ++ [⟨d, data, some T⟩] } else acceptTimed d (clearMute e s)
    | none => acceptTimed d s

def execLoadWatchClear (t : Tick) (d : Desc) (data : Bytes) (s : State) : Host.Outcome State Fault Refusal :=
  .next (runLoadWatchClear d data (s.advance t))

end Sys2Proof.Machine
end

