-- ==== Sys2Proof/Machine/Glint.lean ====
section
/-!
DEFINITION. The glint path (07_glint_path.md): set-up, beam sets, delays, beam samples, detectors, events and their publications, pins,
armed responses, captures.
-/
namespace Sys2Proof.Machine

/-! ## The tapped elements -/

/-- The index of beam samples: descriptor and origin of the first tapped element that is started (R167); once they have all stopped, those of
the last start, under which the samples whose outputs are all there are still formed (R510). -/
def glintBase (s : State) : Option (GroupDesc × Nat) :=
  match s.view.taps.findSome? (fun e => match s.view.desc e, Tab.get s.cond.started (s.view.elem e).group with
    | some g, some r => some (g, r.tOrg)
    | _, _ => none) with
  | some b => some b
  | none => s.glint.org.bind (fun o => s.view.taps.findSome? (fun e => (s.view.desc e).map (fun g => (g, o))))

/-- Rate and ratio of the tapped elements; fg is their quotient. -/
def glintRate (s : State) : Option (Nat × Nat) := (s.view.taps.head?).bind (fun e => (s.view.desc e).map (fun g => (g.rate, g.ratio)))

/-- The view that holds for output index `m` (R173). -/
def glintView (s : State) (m : Nat) : View :=
  match glintRate s with
  | some (_, n) => viewAt s (n * m / 64)
  | none => s.view

/-! ## Delays (R172) -/

/-- raw_e of a beam's elements, as numerators over 10¹² · 2¹⁶ · 10 · c. -/
def rawOf (v : View) (b : GlintBeam) : List (Nat × Int) :=
  (v.taps.map (fun e =>
    let x := v.elem e
    (e, rho b.f ⟨x.posX, x.posY, x.posZ⟩, x.calDelay)) : List (Nat × Int × Int)).filterMap (fun p =>
      if b.radius = 0 ∨ p.2.1 ≤ ((b.radius * 2 ^ 16 : Nat) : Int) then
        some (p.1, p.2.2 * ((2 ^ 16 * 10 * b.speed : Nat) : Int) - p.2.1 * 10 ^ 12)
      else none)

/-- The common denominator of `rawOf`. -/
def rawDen (b : GlintBeam) : Int := (10 ^ 12 * 2 ^ 16 * 10 * max 1 b.speed : Nat)

/-- The least raw_e. -/
def rawMin : List (Nat × Int) → Int
  | [] => 0
  | a :: l => l.foldl (fun m p => min m p.2) a.2

/-- D_e of a beam's elements (R172). -/
def delaysOf (raw : List (Nat × Int)) (b : GlintBeam) (rate ratio : Nat) : List (Nat × Int) :=
  let low := rawMin raw
  raw.map (fun p => (p.1, roundDiv ((p.2 - low) * ((rate * 2 ^ 16 : Nat) : Int)) (rawDen b * (max 1 ratio : Nat)) + 2 * 2 ^ 16))

/-! ## Publications (R181, R184, R188, R190) -/

/-- A response entry matches a detector (Table 07-7). -/
def Response.matches (r : Response) (det : Nat) : Bool :=
  decide (r.firstBeam ≤ det / 2 ∧ det / 2 < r.firstBeam + r.beams) && bitOf r.kinds (det % 2)

/-- The response entries that match a detector, with their index (Table 07-7). -/
def entriesFor (s : State) (det : Nat) : List (Nat × Response) :=
  (s.glint.resp.zipIdx.filter (fun p => p.1.matches det)).map (fun p => (p.2, p.1))

/-- The pins that a detector maps to. -/
def pinsFor (s : State) (det : Nat) : Nat := (entriesFor s det).foldl (fun m p => m ||| p.2.pins) 0

/-- Mode of pin `p` (Table 07-1). -/
def pinMode (s : State) (p : Nat) : Nat :=
  match s.glint.cfg with
  | some c => bitsOf c.pinMode (2 * p) 2
  | none => 3

/-- Some event that maps to pin `p` satisfies `f`. -/
def pinEvent (s : State) (p : Nat) (f : EvSt → Bool) : Bool :=
  (List.range 512).any (fun det => bitOf (pinsFor s det) p && (match (vget s.glint.dets det Detector.start).ev with
    | some e => f e.st
    | none => false))

/-- The level of pin `p` (R187, R188). -/
def pinLevel (s : State) (p : Nat) : Bool :=
  match pinMode s p with
  | 0 => pinEvent s p (fun x => decide (x ≠ .declared))
  | 1 => pinEvent s p (fun x => decide (x = .confirmed))
  | 2 => s.glint.latch.getLsbD p
  | _ => false

/-- Drive the pins: they hold their level during a switch-over gap (R189), and are low while the device is in reset (R501). -/
def drivePins (s : State) : State :=
  if s.twin.gapAt.isSome || s.pins.porstLow || s.pins.sysrstLow then s
  else { s with pins.glint := BitVec.ofNat 4 (((List.range 4).map (fun p => if pinLevel s p then 2 ^ p else 0)).sum) }

/-- The trigger outlets: product quads bound to glint events (R190). -/
def triggerQuads (s : State) : List Nat :=
  ((s.host.bindings.filter (fun p => decide (p.2.cls = 8))).map (·.2.quad)).filter (fun q => quadHas s q 6)

/-- A product frame that is no glint frame. -/
def LaneOut.waitsForGlint : LaneOut → Bool
  | .frame f => decide (f.profile = 6 ∧ f.kind ≠ 1)
  | _ => false

/-- One sample of the glint latency (Table 16-8 kind 2): from the last bit of the triggering frame to now; free where the member did not
form the publication from samples of its own. -/
def glintSample (subject : Nat) (arr : Option Nat) (s : State) : State :=
  monSample 2 subject (match arr with
    | some a => toNs ((s.now : Int) - a)
    | none => (Config.frameTime subject s.now : Nat)) s

/-- Hand a glint frame to a quad: ahead of the product frames that wait for its transmit direction (R190). -/
def emitGlint (q : Nat) (f : RawFrame) (s : State) : State :=
  let n0 := (quadOf s q).held.length
  let s := emitOn q (.frame f) s
  let u := quadOf s q
  if u.held.length = n0 then s
  else
    let old := u.held.dropLast
    let n := (old.findIdx? (fun x => x.2.waitsForGlint)).getD old.length
    setQuad q { u with held := old.take n ++ (s.now, .frame f) :: old.drop n } s

/-- Send one glint frame on a trigger outlet (R190, R318). -/
def sendGlint (arr : Option Nat) (body : Bytes) (q : Nat) (s : State) : State :=
  let u := quadOf s q
  if u.up then
    let f := mkFrame 6 1 (body ++ le 2 s.chip ++ zeros 2 ++ le 4 u.gseq.toNat ++ zeros 4)
    glintSample (16 + q) arr (emitGlint q f (setQuad q { u with gseq := u.gseq + 1 } s))
  else setQuad q { u with glintLost := u.glintLost + 1 } s

/-- Put a publication on every trigger outlet; in a switch-over gap it waits for the gap's end (Table 17-6). -/
def triggerOut (arr : Option Nat) (body : Bytes) (s : State) : State :=
  if s.emits then (triggerQuads s).foldl (fun s q => sendGlint arr body q s) s
  else if s.twin.gapAt.isSome then { s with glint.gapPubs := s.glint.gapPubs ++ [(arr, body)] }
  else s

/-- Bytes 4 to 31 of a publication (Table 07-5). -/
def glintBody (s : State) (det : Nat) (code : Nat) (e : GlintEvent) : Bytes :=
  let fl := e.flags ||| 2 * b01 (decide ((switchesIn s e.tw s.tw).2 ≠ 0))
  le 1 code ++ le 1 (det % 2) ++ le 2 e.beam ++ le 8 e.id ++ le 8 e.stamp ++ le 4 e.peak ++ le 2 fl ++ le 2 e.gmax

/-- Put out a publication: the event ring, the trigger outlets, the digest entry. Inside the window of a recovery outside its conditions
it sets untrusted cause 3 (R458). `arr` is the arrival of its triggering frame (R185). -/
def sendPublication (code id : Nat) (arr : Option Nat) (body : Bytes) (md m : Nat) (s : State) : State :=
  let s := pushEvent ⟨0x100, body, s.now⟩ s
  let s := triggerOut arr body s
  let keep := s.glint.recent.filter (fun p => decide (s.now < p.2.at_ + 4 * tickHz))
  let s := addDigest 1 code id (itemHash body).toNat 0 { s with glint.recent := Tab.put keep id ⟨body, s.now, md, m⟩ }
  if s.twin.recov.any (fun r => r.isOut s && r.live s.tw) then setUntrusted 3 s else s

/-- Publish a state: 1 provisional, 2 confirmed, 3 retracted, 4 ended. -/
def publishGlint (det code : Nat) (e : GlintEvent) (s : State) : State :=
  let arr := some (if code = 1 then e.declArr else e.arr)
  let s := ((List.range 4).filter (fun p => bitOf (pinsFor s det) p)).foldl (fun s p => glintSample p arr s) s
  sendPublication code e.id arr (glintBody s det code e) e.md e.m s

/-! ## Actions (R191 to R195) -/

/-- A detector. -/
def detOf (s : State) (d : Nat) : Detector := vget s.glint.dets d Detector.start

/-- Replace a detector. -/
def setDet (d : Nat) (x : Detector) (s : State) : State := { s with glint.dets := vset s.glint.dets d x }

/-- Change the open event of a detector. -/
def modEvent (d : Nat) (f : GlintEvent → GlintEvent) (s : State) : State :=
  let x := detOf s d
  setDet d { x with ev := x.ev.map f } s

/-- A beam. -/
def beamRunOf (s : State) (b : Nat) : BeamRun := vget s.glint.beams b BeamRun.start

/-- Replace a beam. -/
def setBeam (b : Nat) (x : BeamRun) (s : State) : State := { s with glint.beams := vset s.glint.beams b x }

/-- The beams of the set in effect. -/
def glintBeams (s : State) : List GlintBeam :=
  match s.glint.set_ with
  | some id => Tab.getD s.glint.sets id []
  | none => []

/-- Set marker `m` of a layer (R191). -/
def setMark (layer m : Nat) (confirmed : Bool) (s : State) : State :=
  { s with lbox.marks := s.lbox.marks.filter (fun x => !decide (x.layer = layer ∧ x.m = m)) ++ [⟨layer, m, confirmed, none⟩] }

/-- Marker `m` of a layer is cleared at an instant (R191). -/
def endMark (layer m at_ : Nat) (s : State) : State :=
  { s with lbox.marks := s.lbox.marks.map (fun x => if x.layer = layer ∧ x.m = m then { x with clearAt := some at_ } else x) }

/-- The Lightbox marker actions of a publication: PROVISIONAL and CONFIRMED set the markers of the matched entries; the closing publication
clears every marker that the event has set, whatever entries are loaded by then (R191). -/
def markActions (det code : Nat) (e : GlintEvent) (s : State) : State :=
  if code ≤ 2 then
    ((entriesFor s det).filter (fun p => bitOf p.2.actions 2)).foldl (fun s p =>
      modEvent det (fun e => { e with marks := Tab.put e.marks p.2.layer p.2.markerHold })
        (setMark p.2.layer (det / 2) (decide (code = 2)) s)) s
  else e.marks.foldl (fun s p => endMark p.1 (det / 2) (s.now + (roundDiv ((p.2 * tickHz : Nat) : Int) 1000).toNat) s) s

/-- Pins follow a publication: a latched pin rises at the first PROVISIONAL or CONFIRMED (R188). -/
def pinActions (det code : Nat) (s : State) : State :=
  let hit := (List.range 4).filter (fun p => decide (code ≤ 2) && decide (pinMode s p = 2) && bitOf (pinsFor s det) p)
  drivePins { s with glint.latch := s.glint.latch ||| BitVec.ofNat 4 ((hit.map (fun p => 2 ^ p)).sum) }

/-- The first sample index whose instant is at or after `T`. -/
def firstSample (tOrg rate : Nat) (T : Int) : Nat :=
  if T ≤ (tOrg : Int) then 0
  else firstNear (fun n => decide (T ≤ sampleTime tOrg rate n)) (ceilDiv ((T - tOrg).toNat * rate) tickHz)

/-- Pin the afterimage for an event (R194, R195): the union of its capture entries. `provisional` when pinned at PROVISIONAL. The pre and post
times, in ms, are each rounded convergently to whole units of the time word before t(n) is compared (DESIGN CHOICE, log entry 127). -/
def takePin (det : Nat) (e : GlintEvent) (provisional : Bool) (s : State) : State :=
  let caps := ((entriesFor s det).filter (fun p => bitOf p.2.actions 0 || bitOf p.2.actions 1)).map (·.2)
  if 16 ≤ s.glint.pins.length then modEvent det (fun e => { e with flags := e.flags ||| 8 }) { s with glint.refused := s.glint.refused + 1 }
  else
    let ms (n : Nat) : Int := roundDiv ((n * tickHz : Nat) : Int) 1000
    let lo := (e.stamp : Int) - ms ((caps.map (·.pre)).foldl Nat.max 0)
    let hi := (e.stamp : Int) + ms ((caps.map (·.post)).foldl Nat.max 0)
    let first := firstSample e.org e.rate lo
    let last := firstSample e.org e.rate (hi + 1) - 1
    let pin : Pin := ⟨e.id, e.beam, e.elems, first, last, e.rate, (sampleTime e.org e.rate first).toNat, s.tb.sets, false, provisional, []⟩
    modEvent det (fun e => { e with flags := e.flags ||| 4 })
      { s with glint.pins := Tab.put s.glint.pins s.glint.nextPin pin, glint.nextPin := s.glint.nextPin + 1 }

/-- The capture action of a publication. -/
def captureAction (det code : Nat) (e : GlintEvent) (s : State) : State :=
  let es := entriesFor s det
  let early := es.any (fun p => bitOf p.2.actions 1)
  let any := early || es.any (fun p => bitOf p.2.actions 0)
  let fresh := decide (e.flags &&& 12 = 0)
  if code = 1 && early && fresh then takePin det e true s
  else if code = 2 && any && fresh then takePin det e false s
  else s

/-- The transmit start action of a CONFIRMED publication (R192, R210): in each matched entry's own place, or refused. -/
def startAction (det : Nat) (e : GlintEvent) (s : State) : State :=
  (entriesFor s det).foldl (fun s p =>
    if !bitOf p.2.actions 3 then s
    else
      let taken := s.tx.starts.any (fun x => match x.2.origin with
        | .glint k _ _ => decide (k = p.1)
        | _ => false)
      if taken then
        modEvent det (fun e => { e with flags := e.flags ||| 128 })
          (postEvent 0x77 p.1 (le 8 e.id) { s with tx.refused := Tab.add s.tx.refused p.1 1 })
      else
        let id := s.tx.nextStart
        let at_ := s.tw + (usTicks p.2.txDelay).toNat
        modEvent det (fun e => { e with flags := e.flags ||| 16 })
          (queueStart id (.glint p.1 e.id p.2) p.2.txProg (some at_) 1 { s with tx.nextStart := id + 1 })) s

/-- Publish the open event of a detector in a state, with its actions. -/
def publishEvent (det code : Nat) (s : State) : State :=
  match (detOf s det).ev with
  | none => s
  | some e =>
    let s := publishGlint det code e s
    let s := markActions det code e s
    let s := captureAction det code e s
    let s := if code = 2 then startAction det e s else s
    pinActions det code s

/-- The open event becomes PROVISIONAL. -/
def goProvisional (det : Nat) (s : State) : State :=
  publishEvent det 1 (modEvent det (fun e => { e with st := .provisional }) s)

/-- The open event becomes CONFIRMED. -/
def goConfirmed (det : Nat) (s : State) : State :=
  publishEvent det 2 (modEvent det (fun e => { e with st := .confirmed }) s)

/-- The open event closes: dropped unpublished, retracted or ended; `bit` is the flag it takes (Table 07-4). -/
def closeEvent (det bit : Nat) (s : State) : State :=
  match (detOf s det).ev with
  | none => s
  | some e =>
    let s := modEvent det (fun e => { e with flags := e.flags ||| bit }) s
    match e.st with
    | .declared =>
      let x := detOf s det
      setDet det { x with dropped := x.dropped + 1, ev := none } s
    | .provisional =>
      let s := publishEvent det 3 s
      drivePins (setDet det { detOf s det with ev := none } s)
    | .confirmed =>
      let s := publishEvent det 4 s
      drivePins (setDet det { detOf s det with ev := none } s)

/-- A closing by glint configure or set switch: a DECLARED event is dropped, which is not counted as DROPPED by its window. -/
def forceClose (det : Nat) (s : State) : State :=
  match (detOf s det).ev with
  | none => s
  | some e => if e.st = .declared then setDet det { detOf s det with ev := none } s else closeEvent det 64 s

/-! ## Commands -/

/-- Read a set-up block (Table 07-1). -/
def parseGlint (b : Bytes) : GlintCfg := ⟨fieldU b 0 4, fieldU b 4 2, fieldU b 6 2, fieldU b 8 1, fieldU b 9 1⟩

/-- Every open event is closed (R168). -/
def closeAll (s : State) : State := (List.range 512).foldl (fun s det => forceClose det s) s

/-- A set-up block takes effect: histories keep what fits, and every detector starts anew (R168). -/
def glintInstall (c : GlintCfg) (s : State) : State :=
  { s with
    glint.cfg := some c
    glint.hist := s.glint.hist.map (fun h => (h.1, { h.2 with words := keepNewest (2 ^ c.histLog2) h.2.words }))
    glint.beams := s.glint.beams.map (fun x => { x with det := DetSt.start, marks := [] })
    glint.dets := s.glint.dets.map (fun x => { x with seq := 0, ev := none }) }

/-- The checks of GLINT_CONFIGURE, in order. -/
def glintConfigureChk (d : Desc) (data : Bytes) (s : State) : Chk :=
  let b := dataOf d data
  let c := parseGlint b
  let fg : Bool := match glintRate s with
    | some (r, n) => decide (c.rate * n = r)
    | none => true
  let s' : State := { s with glint.cfg := some c }
  firstFail [descChk d [], sizeChk d 16, need (decide (1000 ≤ c.rate ∧ c.rate ≤ 250000) && fg) stRange 0,
    need (decide (1 ≤ c.window ∧ c.window ≤ 1000)) stRange 4, need (decide (c.hold ≤ 500)) stRange 6,
    need (decide (6 ≤ c.histLog2 ∧ c.histLog2 ≤ 14)) stRange 8, needZero b 10 6 0,
    need (allSteps s' (fun l => decide (sumNeed (·.glint) l ≤ 2097152))) stCapacity (checkCode 5 0x0E06),
    need (poolFits s' (lineSamples (heldSets s)) (hubInkwells s.corr.scheds)) stCapacity (checkCode 8 0x0E05)]

/-- GLINT_CONFIGURE (R168, R169). -/
def runGlintConfigure (d : Desc) (data : Bytes) (s : State) : State :=
  let b := dataOf d data
  let c := parseGlint b
  match glintConfigureChk d data s with
  | some x => refuse d x s
  | none => accept d (drivePins (cfgPut 21 0 b (glintInstall c (closeAll s))))

def execGlintConfigure (t : Tick) (d : Desc) (data : Bytes) (s : State) : Host.Outcome State Fault Refusal :=
  .next (runGlintConfigure d data (s.advance t))

/-- Read a glint beam entry (Table 07-2). -/
def parseGlintBeam (b : Bytes) (o : Nat) : GlintBeam :=
  ⟨parseP3 b o, fieldU b (o + 12) 4, fieldU b (o + 16) 4, fieldU b (o + 20) 2, fieldU b (o + 22) 1⟩

/-- Checks of one entry (R171, R172). -/
def glintBeamChk (s : State) (b : Bytes) (o : Nat) : Chk :=
  let x := parseGlintBeam b o
  let raw := rawOf s.view x
  let fits : Bool := match glintRate s with
    | some (r, n) => (delaysOf raw x r n).all (fun p => decide (p.2 / 2 ^ 16 + 3 ≤ (glintSlots s : Nat)))
    | none => true
  firstFail [need (decide (1 ≤ x.speed)) stRange (o + 12), need (!raw.isEmpty) stRange (o + 16), need fits stRange (o + 16),
    need (decide (x.gtol ≤ 4095)) stRange (o + 20), need (decide (x.gshift ≤ 12)) stRange (o + 22), needZero b (o + 23) 9 0]

/-- A glint beam set is in effect or named by the pending switch. -/
def glintSetNamed (s : State) (id : Nat) : Bool :=
  decide (s.glint.set_ = some id) || (match s.glint.switch with
    | some x => decide (x.1 = id)
    | none => false)

/-- The checks of GLINT_BEAM_SET_LOAD, in order. -/
def glintBeamSetLoadChk (d : Desc) (data : Bytes) (s : State) : Chk :=
  let b := dataOf d data
  let id := fieldU b 0 1
  let n := fieldU b 2 2
  let bs := (List.range n).map (fun i => parseGlintBeam b (16 + 32 * i))
  let terms := (bs.map (fun x => (rawOf s.view x).length)).sum
  firstFail [descChk d [(32, 1)], need s.glint.cfg.isSome stNotFound 0, need (decide (16 ≤ d.len.toNat)) stSize 16,
    needZero b 1 1 0, need (decide (1 ≤ n ∧ n ≤ 256)) stRange 2, needZero b 4 8 0, sizeChk d (16 + 32 * n), crcChk b 12 16,
    need (!glintSetNamed s id) stInUse id, firstFail ((List.range n).map (fun i => glintBeamChk s b (16 + 32 * i))),
    match glintRate s with
    | some (r, k) => need (decide (terms * r ≤ 262144000000 * k)) stCapacity freeInfo
    | none => none]

/-- GLINT_BEAM_SET_LOAD (R171, R172). -/
def runGlintBeamSetLoad (d : Desc) (data : Bytes) (s : State) : State :=
  let b := dataOf d data
  let id := fieldU b 0 1
  let n := fieldU b 2 2
  let bs := (List.range n).map (fun i => parseGlintBeam b (16 + 32 * i))
  match glintBeamSetLoadChk d data s with
  | some x => refuse d x s
  | none => accept d (cfgPut 7 id b { s with glint.sets := Tab.put s.glint.sets id bs })

def execGlintBeamSetLoad (t : Tick) (d : Desc) (data : Bytes) (s : State) : Host.Outcome State Fault Refusal :=
  .next (runGlintBeamSetLoad d data (s.advance t))

/-- Read detector parameters (Table 07-3). -/
def parseDet (b : Bytes) : DetPar where
  kinds := fieldU b 0 1
  a := fieldU b 1 1
  l := fieldU b 2 1
  onRatio := fieldU b 4 2
  offRatio := fieldU b 6 2
  cOn := fieldU b 8 2
  crc := (crc32c b).toNat
  cWin := fieldU b 10 2
  floor_ := fieldU b 12 4
  absOn := fieldU b 16 8
  absOff := fieldU b 24 8

/-- The checks of GLINT_DETECTOR, in order. -/
def glintDetectorChk (d : Desc) (data : Bytes) (s : State) : Chk :=
  let b := dataOf d data
  let p := parseDet b
  let k := par d 32 2
  let at_ := par d 40 8
  firstFail [descChk d [(32, 2), (40, 8)], sizeChk d 32, need (decide (k < 256)) stRange 32,
    need (decide (p.kinds < 4)) stReserved 0, need (decide (p.a ≤ 12)) stRange 1, need (decide (p.a + 1 ≤ p.l ∧ p.l ≤ 24)) stRange 2,
    needZero b 3 1 0, need (decide (1 ≤ p.offRatio ∧ p.offRatio + 1 ≤ p.onRatio)) stRange 6, need (decide (1 ≤ p.cWin)) stRange 10,
    need (decide (1 ≤ p.cOn ∧ p.cOn ≤ p.cWin)) stRange 8, need (decide (p.absOn < 2 ^ 48)) stRange 16,
    need (decide (p.absOff < p.absOn)) stRange 24, need (decide (s.glint.m ≤ at_)) stLate 0]

/-- GLINT_DETECTOR (R177). -/
def runGlintDetector (d : Desc) (data : Bytes) (s : State) : State :=
  let b := dataOf d data
  let p := parseDet b
  let k := par d 32 2
  let at_ := par d 40 8
  match glintDetectorChk d data s with
  | some x => refuse d x s
  | none =>
    let x := beamRunOf s k
    let pend := insertBy (·.1) (at_, p) (x.pend.filter (fun q => q.1 ≠ at_))
    complete d stOk 0 (setBeam k { x with pend := pend } s)

def execGlintDetector (t : Tick) (d : Desc) (data : Bytes) (s : State) : Host.Outcome State Fault Refusal :=
  .next (runGlintDetector d data (s.advance t))

/-- Read a response entry (Table 07-7). -/
def parseResp (b : Bytes) (o : Nat) : Response where
  firstBeam := fieldU b o 2
  beams := fieldU b (o + 2) 2
  kinds := fieldU b (o + 4) 1
  pins := fieldU b (o + 5) 1
  actions := fieldU b (o + 6) 1
  layer := fieldU b (o + 7) 1
  txProg := fieldU b (o + 8) 2
  markerHold := fieldU b (o + 10) 2
  txDelay := fieldU b (o + 12) 4
  blank := fieldU b (o + 16) 4
  pre := fieldU b (o + 20) 2
  post := fieldU b (o + 22) 2

/-- Payload bytes that a capture of a beam would hold at most (R194). -/
def capturePayload (s : State) (x : GlintBeam) (ms : Nat) : Nat :=
  match glintRate s with
  | some (r, _) => 2 * (rawOf s.view x).length * (ms * r / 1000 + 1)
  | none => 0

/-- Checks of a response entry. -/
def respChk (s : State) (b : Bytes) (o : Nat) : Chk :=
  let r := parseResp b o
  let big := (((glintBeams s).drop r.firstBeam).take r.beams).any (fun x => decide (268435456 < capturePayload s x (r.pre + r.post)))
  firstFail [need (decide (r.firstBeam < 256)) stRange o, need (decide (1 ≤ r.beams ∧ r.firstBeam + r.beams ≤ 256)) stRange (o + 2),
    need (decide (r.kinds < 4)) stReserved (o + 4), need (decide (r.pins < 16)) stReserved (o + 5),
    need (decide (r.actions < 16)) stReserved (o + 6), need (!bitOf r.actions 2 || decide (r.layer < 8)) stRange (o + 7),
    need (decide (r.pre + r.post ≤ 10000)) stRange (o + 20), needZero b (o + 24) 8 0,
    need (!(bitOf r.actions 0 || bitOf r.actions 1) || !big) stCapacity freeInfo]

/-- GLINT_ARM (R194, Table 07-7): the entries loaded replace all before them. -/
def runGlintArm (d : Desc) (data : Bytes) (s : State) : State :=
  let b := dataOf d data
  let n := par d 32 1
  match firstFail [descChk d [(32, 1)], need (decide (n ≤ 64)) stRange 32, sizeChk d (32 * n),
      firstFail ((List.range n).map (fun i => respChk s b (32 * i)))] with
  | some x => refuse d x s
  | none => accept d (drivePins (cfgPut 23 0 b { s with glint.resp := (List.range n).map (fun i => parseResp b (32 * i)) }))

def execGlintArm (t : Tick) (d : Desc) (data : Bytes) (s : State) : Host.Outcome State Fault Refusal :=
  .next (runGlintArm d data (s.advance t))

/-- GLINT_SET_SWITCH (R174). -/
def runGlintSetSwitch (d : Desc) (_data : Bytes) (s : State) : State :=
  let id := par d 32 1
  let ma := par d 40 8
  match firstFail [descChk d [(32, 1), (40, 8)], need (Tab.has s.glint.sets id) stNotFound id, need (decide (s.glint.m ≤ ma)) stLate 0] with
  | some x => refuse d x s
  | none => complete d stOk 0 { s with glint.switch := some (id, ma) }

def execGlintSetSwitch (t : Tick) (d : Desc) (data : Bytes) (s : State) : Host.Outcome State Fault Refusal :=
  .next (runGlintSetSwitch d data (s.advance t))

/-- A pin of a mask has a mapped event that is PROVISIONAL or CONFIRMED. -/
def pinsBusy (s : State) (mask : Nat) : Bool :=
  (List.range 4).any (fun p => bitOf mask p && pinEvent s p (fun x => decide (x ≠ .declared)))

/-- Lower latched pins (R188). -/
def clearPins (mask : Nat) (s : State) : State :=
  if pinsBusy s mask then s else drivePins { s with glint.latch := s.glint.latch &&& ~~~ (BitVec.ofNat 4 mask) }

/-- GLINT_PIN_CLEAR (R188, R442): in a pair it acts at T. -/
def runGlintPinClear (d : Desc) (data : Bytes) (s : State) : State :=
  let mask := par d 32 1
  match firstFail [descChk d [(32, 1)], need (decide (mask < 16)) stReserved 32, need (!pinsBusy s mask) stBusy 0] with
  | some x => refuse d x s
  | none =>
    let r := takeT d data s
    let s := r.2
    match r.1 with
    | some T =>
      if s.twinEn then acceptTimed d { s with twin.timed := s.twin.timed ++ [⟨d, data, some T⟩] } else acceptTimed d (clearPins mask s)
    | none => acceptTimed d s

def execGlintPinClear (t : Tick) (d : Desc) (data : Bytes) (s : State) : Host.Outcome State Fault Refusal :=
  .next (runGlintPinClear d data (s.advance t))

/-! ## Histories (R170) -/

/-- GLINT_OUTPUT_DUE (R170): the element's next output is not present at its due instant and enters the history as a gap. -/
def execGlintOutputDue (t : Tick) (e : Fin 16384) (s : State) : Host.Outcome State Fault Refusal :=
  let s := s.advance t
  match s.glint.cfg, Tab.get s.cond.run e.val, (s.view.desc e.val) with
  | some c, some r, some g =>
    let h := historyOf s e.val r.fbNext
    let h := History.settleN h.words.length h
    let tapped : Bool := match activeAt s e.val (g.ratio * h.next / 64) with
      | some (x, _) => x.tapped
      | none => false
    if tapped && glintDue s r g c h.next false then
      let h := { h with words := Tab.put h.words h.next gapWord, late := h.late + 1 }
      let h := History.settleN h.words.length h
      .next { s with glint.hist := Tab.put s.glint.hist e.val { h with words := keepNewest (2 ^ c.histLog2) h.words } }
    else .next s
  | _, _, _ => .next s

/-! ## Beam samples (R173 to R176) -/

/-- One history word as a beam reads it: value, gap, warming. -/
def heard (h : History) (j : Int) : Int × Bool × Bool :=
  if j < 0 then (0, true, false)
  else match Tab.get h.words j.toNat with
  | some w => if w.gap ≠ 0 then (0, true, w.warm) else (w.v, false, w.warm)
  | none => (0, true, false)

/-- A beam sample. -/
structure BeamSample where
  y : Int
  sat : Bool
  void : Bool
  warm : Bool
  g : Nat
  stamp : Nat
  /-- the latest arrival of an ingest frame whose samples it needed (R185) -/
  arr : Nat
  /-- the elements that take part, their input rate and the origin of their timeline -/
  elems : List Nat
  rate : Nat
  org : Nat
  deriving DecidableEq, Repr

/-- The stamp of beam sample `m` (R176): t_c(m) − 2 ÷ fg + min raw_e, rounded once. -/
def beamStamp (b : GlintBeam) (g : GroupDesc) (org m : Nat) (raw : List (Nat × Int)) : Int :=
  let fs : Int := (max 1 g.rate : Nat)
  let den := rawDen b * (2 * fs)
  -- −G ÷ fs − 2·R ÷ fs + min raw_e over that denominator
  let num := 2 * rawMin raw * fs - rawDen b * (g.delay2 + 4 * g.ratio : Nat)
  roundDiv (sampleTime org g.rate (g.ratio * m) * den + num * (tickHz : Nat)) den

/-- The latest arrival of a frame whose samples element `e` needed for its outputs up to index `j` (R185). -/
def arrivedBy (s : State) (g : GroupDesc) (e : Nat) (j : Int) : Nat :=
  match Tab.get s.cond.run e with
  | some r => ((r.arrs.filter (fun p => decide ((p.1 : Int) ≤ g.ratio * j / 64))).map (·.2)).foldl Nat.max 0
  | none => 0

/-- Beam sample `m` of a beam (R175, R176) from its delays. -/
def beamSample (s : State) (b : GlintBeam) (g : GroupDesc) (org m : Nat) (raw ds : List (Nat × Int)) : BeamSample :=
  let one (p : Nat × Int) : Int × Bool × Bool :=
    let h := historyOf s p.1 0
    let D := p.2.toNat
    let at_ : Int := (m : Int) - (D / 2 ^ 16 : Nat)
    let rd := (List.range 4).map (fun (k : Nat) => heard h (at_ - 2 + k))
    (((farrow (D % 2 ^ 16)).zip rd).map (fun x => x.1 * x.2.1) |>.sum, rd.any (·.2.1), rd.any (·.2.2))
  let l := ds.map one
  let y := roundShift ((l.map (·.1)).sum) (16 + b.gshift)
  let gaps := (l.filter (·.2.1)).length
  ⟨satS 24 y, !inS 24 y, decide (b.gtol < gaps), l.any (·.2.2), gaps, (beamStamp b g org m raw).toNat,
    (ds.map (fun p => arrivedBy s g p.1 ((m : Int) - (p.2.toNat / 2 ^ 16 : Nat) + 1))).foldl Nat.max 0, raw.map (·.1), g.rate, org⟩

/-- Every output that a beam reads for sample `m` is present or declared a gap. -/
def beamReady (s : State) (m : Nat) (ds : List (Nat × Int)) : Bool :=
  ds.all (fun p =>
    let h := historyOf s p.1 0
    let at_ : Int := (m : Int) - (p.2.toNat / 2 ^ 16 : Nat)
    (List.range 4).all (fun (k : Nat) =>
      let j := at_ - 2 + k
      decide (j < 0) || Tab.has h.words j.toNat || decide (j.toNat < h.next)))

/-! ## Detectors (R177 to R184) -/

/-- A detector is blanked (R193). -/
def blanked (s : State) (det : Nat) : Bool :=
  s.glint.blanks.any (fun b => b.resp.matches det && (match b.until_ with
    | some u => decide (s.now < u)
    | none => true))

/-- The recurrences of R178 on one counted sample of energy `e`; a blanked detector keeps its ON flag. -/
def detStep (p : DetPar) (e : Int) (blank0 blank1 : Bool) (d : DetSt) : DetSt :=
  let e16 : Int := e * 2 ^ 16
  let sta := ((d.sta : Int) + (e16 - (d.sta : Int)).fdiv (2 ^ p.a)).toNat
  let n := d.n + 1
  let lta := if n = 2 ^ p.a then sta
    else if 2 ^ p.a < n ∧ d.onSta = false then ((d.lta : Int) + (e16 - (d.lta : Int)).fdiv (2 ^ p.l)).toNat else d.lta
  let armed := decide (2 ^ p.a + 2 ^ p.l ≤ n)
  let eff := Nat.max lta (p.floor_ * 2 ^ 16)
  let on0 := if blank0 then d.onSta
    else if d.onSta then !decide (sta * 256 < p.offRatio * eff)
    else armed && bitOf p.kinds 0 && decide (p.onRatio * eff ≤ sta * 256)
  let on1 := if blank1 then d.onAbs
    else if d.onAbs then !decide (sta < p.absOff * 2 ^ 16)
    else armed && bitOf p.kinds 1 && decide (p.absOn * 2 ^ 16 ≤ sta)
  ⟨sta, lta, n, on0, on1⟩

/-- The peak value of a counted sample (Table 07-5). -/
def peakOf (p : DetPar) (d : DetSt) (kind : Nat) : Nat :=
  let den := if kind = 0 then Nat.max d.lta (p.floor_ * 2 ^ 16) else p.absOn * 2 ^ 16
  if den = 0 then 0xFFFFFFFF else satU 32 (d.sta * 256 / den)

/-- A counted sample reaches a detector: it may declare, confirm, retract, drop or end an event (Table 07-4). -/
def detEvent (det : Nat) (p : DetPar) (was is_ : Bool) (peak : Nat) (m : Nat) (x : BeamSample) (s : State) : State :=
  let d := detOf s det
  match d.ev with
  | none =>
    if is_ && !was then
      let e : GlintEvent := ⟨det * 2 ^ 55 + d.seq % 2 ^ 55, .declared, det / 2, m, m, x.stamp, s.now, s.tw, 1, 1, peak, 0, x.g, x.elems, x.rate, x.org,
        x.arr, x.arr, []⟩
      let s := setDet det { d with seq := d.seq + 1, ev := some e } s
      if p.cOn = 1 then goConfirmed det s else s
    else s
  | some e =>
    let e := { e with
      counted := e.counted + 1, countedOn := e.countedOn + b01 is_, peak := Nat.max e.peak peak, gmax := Nat.max e.gmax x.g
      arr := x.arr, m := m }
    let s := setDet det { d with ev := some e } s
    if e.st = .confirmed then (if is_ then s else closeEvent det 0 s)
    else if is_ && decide (p.cOn ≤ e.countedOn) then goConfirmed det s
    else if p.cWin ≤ e.counted then closeEvent det 0 s
    else s

/-- The conditions under which a beam counts from sample `m` on; what came before its oldest checkpoint is dropped. -/
def BeamRun.count (r : BeamRun) (m : Nat) (c : DetPar × Bool × Bool) : BeamRun :=
  let oldest := ((r.marks.getLast?).map (·.1)).getD 0
  let l := if r.conds.head?.map (·.2) = some c then r.conds else (m, c) :: r.conds
  { r with conds := l.takeWhile (fun x => decide (oldest < x.1)) ++ (l.dropWhile (fun x => decide (oldest < x.1))).take 1 }

/-- Beam `b` takes its sample of index `m`. -/
def runBeam (b m : Nat) (x : BeamSample) (s : State) : State :=
  let r := beamRunOf s b
  let past := r.pend.filter (fun q => decide (q.1 ≤ m))
  let s := match past.getLast? with
    | some q => enterAct s.tw (some (cfgKey 22 b, some q.2.crc)) s
    | none => s
  let r := { r with
    par := (past.getLast?.map (·.2)).or r.par, pend := r.pend.filter (fun q => !decide (q.1 ≤ m)), sat := r.sat + b01 x.sat }
  let s := setBeam b r s
  let s := if x.void then modEvent (2 * b) (fun e => { e with flags := e.flags ||| 1 })
      (modEvent (2 * b + 1) (fun e => { e with flags := e.flags ||| 1 }) s) else s
  match r.par with
  | none => s
  | some p =>
    let b0 := blanked s (2 * b)
    let b1 := blanked s (2 * b + 1)
    if x.void || x.warm || (b0 && b1) then s
    else
      let d := detStep p (x.y * x.y) b0 b1 r.det
      let marks := if d.n % 64 = 0 then ((m, d) :: r.marks).take 16 else r.marks
      let s := { setBeam b ({ r with det := d, marks := marks }.count m (p, b0, b1)) s with twin.gcount := Tab.add s.twin.gcount b 1 }
      let s := if b0 then s else detEvent (2 * b) p r.det.onSta d.onSta (peakOf p d 0) m x s
      if b1 then s else detEvent (2 * b + 1) p r.det.onAbs d.onAbs (peakOf p d 1) m x s

/-- Glint in step (R455): every enabled detector has counted 2^a + 2^l samples since the member came into step, and no event is open. -/
def gstepCheck (s : State) : State :=
  let armed := (List.range (glintBeams s).length).all (fun b => match (beamRunOf s b).par with
    | some p => decide (p.kinds = 0 ∨ 2 ^ p.a + 2 ^ p.l ≤ Tab.getD s.twin.gcount b 0)
    | none => true)
  if s.twinEn && s.twin.step && !s.twin.gstep && armed && s.glint.dets.toList.all (fun d => d.ev.isNone) then
    stepEvent { s with twin.gstep := true }
  else s

/-- A pending switch takes effect at output index `m` (R174): a beam whose focal point, speed or radius changes closes its events and
restarts its detectors. -/
def applySwitch (id m : Nat) (s : State) : State :=
  let old := glintBeams s
  let new := Tab.getD s.glint.sets id []
  let changed := (List.range 256).filter (fun b => match old[b]?, new[b]? with
    | some x, some y => decide ((x.f, x.speed, x.radius) ≠ (y.f, y.speed, y.radius))
    | none, none => false
    | _, _ => true)
  let s := changed.foldl (fun s b =>
    let s := forceClose (2 * b + 1) (forceClose (2 * b) s)
    setBeam b { beamRunOf s b with det := DetSt.start, marks := [] } s) s
  enterAct s.tw none { s with glint.set_ := some id, glint.switch := none, glint.m := m, glint.delays := [] }

/-- A switch that is due: at its index, or at once while no set is in effect. -/
def switchDue (s : State) : Option (Nat × Nat) :=
  match s.glint.switch with
  | none => none
  | some (id, ma) => if s.glint.set_.isNone || ma ≤ s.glint.m then some (id, Nat.max ma s.glint.m) else none

/-- Count a delay step of a beam whose delays differ from those of the last index (R173). -/
def countSteps (b : Nat) (ds : List (Nat × Int)) (s : State) : State :=
  let moved : Bool := match Tab.get s.glint.delays b with
    | some o => decide (o ≠ ds)
    | none => false
  let s := if moved then let r := beamRunOf s b; setBeam b { r with steps := r.steps + 1 } s else s
  { s with glint.delays := Tab.put s.glint.delays b ds }

/-- What the beams of the set in effect read for output index `m`: beam, its entry, raw_e and D_e. -/
def beamReads (s : State) (m : Nat) (g : GroupDesc) : List (Nat × GlintBeam × List (Nat × Int) × List (Nat × Int)) :=
  (glintBeams s).zipIdx.map (fun p =>
    let raw := rawOf (glintView s m) p.1
    (p.2, p.1, raw, delaysOf raw p.1 g.rate g.ratio))

/-- Every beam takes its sample of index `m`, all of them formed before any detector moves. -/
def takeSamples (m : Nat) (g : GroupDesc) (org : Nat) (bs : List (Nat × GlintBeam × List (Nat × Int) × List (Nat × Int))) (s : State) : State :=
  (bs.map (fun x => (x.1, x.2.2.2, beamSample s x.2.1 g org m x.2.2.1 x.2.2.2))).foldl
    (fun s y => runBeam y.1 m y.2.2 (countSteps y.1 y.2.1 s)) s

/-- GLINT_BEAM_SAMPLE (R175): every beam's sample of the next output index, and its detectors. -/
def execGlintBeamSample (t : Tick) (s : State) : Host.Outcome State Fault Refusal :=
  let s := s.advance t
  let s := match switchDue s with
    | some (id, ma) => applySwitch id ma s
    | none => s
  match glintBase s, s.glint.set_, s.glint.cfg with
  | some (g, org), some _, some _ =>
    let m := s.glint.m
    let bs := beamReads s m g
    if bs.all (fun x => beamReady s m x.2.2.2) then
      let s := takeSamples m g org bs s
      .next (gstepCheck (settle { s with glint.m := m + 1 }))
    else .next s
  | _, _, _ => .next s

/-! ## Timers -/

/-- PUBLISH_HOLD_EXPIRY (Table 07-4): Tp after its declaration. -/
def execPublishHoldExpiry (t : Tick) (det : Fin 512) (s : State) : Host.Outcome State Fault Refusal :=
  let s := s.advance t
  match (detOf s det.val).ev, s.glint.cfg with
  | some e, some c => if e.st = .declared && atLeastUs (s.now - e.at_) c.hold then .next (goProvisional det.val s) else .next s
  | _, _ => .next s

/-- VOID_TIMEOUT (R183): 4·c_win ÷ fg after its declaration an event that has not run through its window ends. -/
def execVoidTimeout (t : Tick) (det : Fin 512) (s : State) : Host.Outcome State Fault Refusal :=
  let s := s.advance t
  match (detOf s det.val).ev, s.glint.cfg, (beamRunOf s (det.val / 2)).par with
  | some e, some c, some p =>
    let late := decide (4 * p.cWin * tickHz ≤ (s.now - e.at_) * c.rate)
    if e.st ≠ .confirmed && late then .next (closeEvent det.val 32 s) else .next s
  | _, _, _ => .next s

/-- MARKER_HOLD_EXPIRY (R191). -/
def execMarkerHoldExpiry (t : Tick) (layer m : BitVec 8) (s : State) : Host.Outcome State Fault Refusal :=
  let s := s.advance t
  .next { s with lbox.marks := s.lbox.marks.filter (fun x => !(decide (x.layer = layer.toNat ∧ x.m = m.toNat) && (match x.clearAt with
    | some c => decide (c ≤ s.now)
    | none => false))) }

/-- BLANK_END (R193). -/
def execBlankEnd (t : Tick) (entry : Fin 64) (s : State) : Host.Outcome State Fault Refusal :=
  let s := s.advance t
  .next { s with glint.blanks := s.glint.blanks.filter (fun b => !(decide (b.entry = entry.val) && (match b.until_ with
    | some u => decide (u ≤ s.now)
    | none => false))) }

/-! ## Captures (R196, R197) -/

/-- Afterimage words that a capture reads: three for each block of each element (R348). -/
def captureWords (p : Pin) : Nat := 3 * p.elems.length * (p.last / 64 + 1 - p.first / 64)

/-- Word `w` of a capture's reading, elements in order, then blocks, then words: element, block, word of the block (log entry 114). -/
def captureWord (p : Pin) (w : Nat) : Nat × Nat × Nat :=
  let nb := p.last / 64 + 1 - p.first / 64
  (p.elems.getD (w / (3 * nb)) 0, p.first / 64 + w / 3 % nb, w % 3)

/-- Sample `n` of element `e` has a bit in word `w` of the reading: 12-bit values, packed (R312, R348). -/
def captureHit (p : Pin) (w e n : Nat) : Bool :=
  let x := captureWord p w
  decide (x.1 = e ∧ x.2.1 = n / 64 ∧ 256 * x.2.2 < 12 * (n % 64) + 12 ∧ 12 * (n % 64) < 256 * (x.2.2 + 1))

/-- The cause of one pinned sample (R196, R348, R349): before the activation that restarted the afterimage, cause 6; else what ingest
recorded, then an overwritten span, then a hole, or one of the poisoned words `bad` of the reading (Table 14-4). A sample whose block had left
the afterimage before the pin was taken counts as a hole (DESIGN CHOICE, log entry 126). -/
def captureCause (s : State) (p : Pin) (bad : List Nat) (e n : Nat) : Nat :=
  let runs := s.cond.gapIndex.filter (fun r => decide (r.elem = e ∧ r.first ≤ n ∧ n < r.first + r.len))
  if (p.tFirst : Int) + spanTicks (n - p.first : Nat) 1 (max 1 p.rate) < (s.cond.afterFrom : Int) then 6
  else match runs.find? (fun r => r.cause ≠ 6) with
  | some r => r.cause
  | none =>
    if p.yields.any (fun y => decide (y.1 = e ∧ y.2.1 ≤ n ∧ n ≤ y.2.2)) then 7
    else if !runs.isEmpty || !Tab.has s.cond.after (afterKey e (n / 64)) || bad.any (fun w => captureHit p w e n) then 6 else 0

/-- One pinned sample as stored; gaps read 0. -/
def captureValue (s : State) (p : Pin) (bad : List Nat) (e n : Nat) : Int :=
  if captureCause s p bad e n ≠ 0 then 0 else (Tab.getD s.cond.after (afterKey e (n / 64)) []).getD (n % 64) 0

/-- Pieces of overwritten runs that the capture does not list: an overwritten run of cause 6 still shows as a hole. -/
def captureLost (s : State) (p : Pin) : List GapRun :=
  s.cond.gapGone.filter (fun r => p.elems.contains r.elem && decide (r.cause ≠ 6 ∧ r.first ≤ p.last ∧ p.first < r.first + r.len))

/-- The flags of a listed run (Table 02-5): bit 0 when it reaches the last sample of the span, bit 1 on the first run of an element that
stands after runs of it that were lost. -/
def captureRunFlags (p : Pin) (gone : List GapRun) (before : Option Nat) (e first len : Nat) : Nat :=
  b01 (decide (first + len = p.last + 1)) +
    2 * b01 (gone.any (fun g => decide (g.elem = e ∧ g.first < first) && (match before with
      | some k => decide (k ≤ g.first)
      | none => true)))

/-- The body of a capture record (Table 07-8). `bad` are the poisoned words of its reading: those past the afterimage words are words of the gap
index, and set its lists-incomplete flag (R408). -/
def captureRecord (s : State) (p : Pin) (bad : List Nat) (stamp : Nat) : Bytes :=
  let count := p.last + 1 - p.first
  let ns := (List.range count).map (p.first + ·)
  let gone := captureLost s p
  let runs := p.elems.flatMap (fun e =>
    let l := runsOf p.first (ns.map (captureCause s p bad e))
    l.zipIdx.map (fun r => (e, r.1, captureRunFlags p gone (if r.2 = 0 then none else l[r.2 - 1]?.map (·.1)) e r.1.1 r.1.2.1)))
  let short : Bool := match s.cond.gapLost with
    | some k => decide (p.first ≤ k)
    | none => false
  let short := short || bad.any (fun w => decide (captureWords p ≤ w))
  let org : Int := (stamp : Int)
  let sw := switchesOf s p.era stamp (org + spanTicks (count - 1 : Nat) 1 (max 1 p.rate)).toNat
  let pad := 4 * ceilDiv p.elems.length 4 - p.elems.length
  le 8 p.event ++ le 2 p.beam ++ le 2 p.elems.length ++
    le 1 (b01 (!p.yields.isEmpty || p.overrun) + 2 * b01 short + 4 * b01 p.provisional) ++ zeros 3 ++ le 8 p.first ++ le 8 stamp ++
    le 4 count ++ le 4 p.rate ++ le 4 runs.length ++ le 4 gone.length ++ leS 8 sw.1 ++ le 4 sw.2 ++ zeros 4 ++
    p.elems.flatMap (fun e => le 2 e) ++ List.replicate (2 * pad) 0xFF ++
    runs.flatMap (fun r => le 8 r.2.1.1 ++ le 4 r.2.1.2.1 ++ le 2 r.1 ++ le 1 r.2.1.2.2 ++ le 1 r.2.2) ++
    p.elems.flatMap (fun e => ns.flatMap (fun n => leS 2 (captureValue s p bad e n)))

/-- The block that holds the last pinned sample has been released for every element, or will not be. -/
def captureReady (s : State) (p : Pin) : Bool :=
  p.elems.all (fun e => match Tab.get s.cond.run e with
    | some r => match oldestBlock s e r with
      | some k => decide (p.last / 64 < k)
      | none => true
    | none => true)

/-- The writes that stand before a capture's reads retire: those of its elements. -/
def captureLand (p : Pin) (s : State) : State :=
  (s.cond.afterWait.filter (fun x => p.elems.contains (x.1 / 2 ^ 48))).foldl (fun s x => afterLand (x.1 / 2 ^ 48) (x.1 % 2 ^ 48) s) s

/-- Address of word `w` of a capture's reading. -/
def captureAddr (s : State) (p : Pin) (w : Nat) : Nat :=
  if w < captureWords p then let x := captureWord p w; afterAddr s (viewNow s) x.1 x.2.1 + 32 * x.2.2
  else regionBase s 5 + 32 * (w - captureWords p)

/-- Words of the gap index that a capture reads: 16 bytes a run. -/
def captureIndexWords (s : State) : Nat := ceilDiv (16 * s.cond.gapIndex.length) 32

/-- The words of a reading that are poisoned. -/
def poisonedWords (l : List Ecc) : List Nat := (l.filter (fun e => !e.corrected)).map (·.word)

/-- A capture reads its blocks through the afterimage read port, and the gap index through the management port (Table 14-2). -/
def captureRead (p : Pin) (ecc : List Ecc) (s : State) : State :=
  let s := hbmRequest 7 .reads (regionBase s 5) (hbmRequest 3 .reads (captureAddr s p 0) s)
  ecc.foldl (fun s e => eccWord (if e.word < captureWords p then 3 else 7) (captureAddr s p e.word) e.corrected s) s

/-- CAPTURE_COPY (R197): the record goes into staging and the pin is released. -/
def execCaptureCopy (t : Tick) (pin : Nat) (ecc : List Ecc) (s : State) : Host.Outcome State Fault Refusal :=
  let s := s.advance t
  match Tab.get s.glint.pins pin with
  | none => .next s
  | some p =>
    if !captureReady s p then .next s
    else
      let s := captureLand p (afterCheck s)
      let ecc := eccSeen s (captureAddr s p) 0 (captureWords p + captureIndexWords s) ecc
      let s := captureRead p ecc s
      let hi := (p.tFirst : Int) + spanTicks (p.last - p.first : Nat) 1 (max 1 p.rate)
      let rec_ : RecSpec := ⟨4, 0, 0x31, captureRecord s p (poisonedWords ecc) p.tFirst, 0xFFFF, p.tFirst, hi.toNat, poisonedIn ecc⟩
      .next (formRecord rec_ { s with glint.pins := Tab.del s.glint.pins pin })

end Sys2Proof.Machine
end

