-- ==== Sys2Proof/Machine/Lbox.lean ====
section
/-!
DEFINITION. The Lightbox (10_lightbox.md): scenes and tables (R244 to R247), surface writes (R248), the pixel path (R250 to R253), readiness and
policies (R254 to R256), frame records (R258).
-/
namespace Sys2Proof.Machine

/-! ## Scenes and tables (R244 to R247, R252, R257) -/

/-- Boundary of frame `f` of a scene, b_f (R244). -/
def LbScene.bound (sc : LbScene) (f : Nat) : Nat := sc.start + (spanTicks f 1 (max 1 sc.rate)).toNat

/-- Key of a table image. -/
def lbKey (kind id : Nat) : Nat := kind * 65536 + id

/-- A table that a field names. -/
def lbTable (s : State) (kind id : Nat) : Option LbTable := if id = 0xFFFF then none else Tab.get s.lbox.tables (lbKey kind id)

/-- Tables that a scene names, as kind and id. -/
def LbScene.names (sc : LbScene) : List (Nat × Nat) :=
  ((2, sc.gout) :: sc.layers.flatMap (fun l => [(0, l.palette), (1, l.gin), (3, l.coef), (4, l.mtab)])).filter (fun p => p.2 ≠ 0xFFFF)

/-- A table that the scene in effect or a pending scene names. -/
def lbNamed (s : State) (kind id : Nat) : Bool := (s.lbox.scene.toList ++ s.lbox.pending).any (fun sc => sc.names.contains (kind, id))

/-- Read the layer descriptor at offset `o` (Table 10-2). -/
def parseLayer (b : Bytes) (o : Nat) : LbLayer where
  source := fieldU b o 1
  format := fieldU b (o + 1) 1
  policy := fieldU b (o + 2) 1
  expect := fieldU b (o + 3) 1
  sw := fieldU b (o + 4) 2
  sh := fieldU b (o + 6) 2
  dx := fieldS b (o + 8) 2
  dy := fieldS b (o + 10) 2
  dw := fieldU b (o + 12) 2
  dh := fieldU b (o + 14) 2
  wait := fieldU b (o + 16) 2
  pool := fieldU b (o + 18) 1
  taps := fieldU b (o + 19) 1
  chan := fieldU b (o + 20) 2
  coef := fieldU b (o + 22) 2
  lo := fieldU b (o + 24) 4
  scale := fieldU b (o + 28) 4
  palette := fieldU b (o + 32) 2
  gin := fieldU b (o + 34) 2
  alpha := fieldU b (o + 36) 1
  mtab := fieldU b (o + 38) 2
  prov := fieldU b (o + 40) 4
  conf := fieldU b (o + 44) 4
  tv := fieldU b (o + 19) 1

/-- Bytes of the line buffers (R252). -/
def lineBytes (ls : List LbLayer) : Nat := (ls.map (fun l => l.tv * l.dw * 8)).sum

/-- Halve Tv of the highest-numbered layer with Tv > 2. -/
def halveLast : List LbLayer → Option (List LbLayer)
  | [] => none
  | l :: r => match halveLast r with
    | some r' => some (l :: r')
    | none => if 2 < l.tv then some ({ l with tv := l.tv / 2 } :: r) else none

/-- The fallback of R252; each of at most 8 layers is halved at most twice. -/
def fallTaps : Nat → List LbLayer → List LbLayer
  | 0, ls => ls
  | k + 1, ls => if lineBytes ls ≤ hubSize 6 then ls else match halveLast ls with
    | some ls' => fallTaps k ls'
    | none => ls

/-- Bytes of one buffer of a layer (R247). -/
def LbLayer.bufBytes (l : LbLayer) : Nat :=
  if l.source = 2 then l.sw * l.sh
  else if l.source = 1 then
    (if l.format = 0 then 4 * l.sw * l.sh else if l.format = 1 then l.sw * l.sh else ceilDiv l.sw 8 * ceilDiv l.sh 8 * 32)
  else 0

/-- Words of one buffer as HBM holds it: padded to 64 B (R354). -/
def LbLayer.bufWords (l : LbLayer) : Nat := padHbm l.bufBytes / 32

/-- Read a scene image; Tv after the fallback. -/
def parseScene (b : Bytes) : LbScene where
  id := fieldU b 0 1
  rate := fieldU b 2 1
  width := fieldU b 4 2
  height := fieldU b 6 2
  bg := fieldU b 8 4
  gout := fieldU b 12 2
  start := fieldU b 16 8
  activate := fieldU b 24 8
  layers := fallTaps 16 ((List.range (fieldU b 1 1)).map (fun i => parseLayer b (32 + 64 * i)))

/-- A value that must lie in 1 to 4,096, or be 0 for a layer without a source. -/
def sideOk (l : LbLayer) (v : Nat) : Bool := if l.source = 0 then decide (v = 0) else decide (1 ≤ v ∧ v ≤ 4096)

/-- Fields of one layer in their ranges (Table 10-2). -/
def layerChk (b : Bytes) (rate o : Nat) : Chk :=
  let l := parseLayer b o
  firstFail [
    need (decide (l.source ≤ 2)) stRange o,
    need (decide (l.format ≤ if l.source = 1 then 2 else if l.source = 2 then 1 else 0)) stRange (o + 1),
    need (decide (l.policy ≤ 2)) stRange (o + 2),
    need (sideOk l l.sw) stRange (o + 4), need (sideOk l l.sh) stRange (o + 6),
    need (sideOk l l.dw) stRange (o + 12), need (sideOk l l.dh) stRange (o + 14),
    need (if l.policy = 2 then decide (l.wait * 2 * rate ≤ 1000000) else decide (l.wait = 0)) stRange (o + 16),
    need ([2, 4, 8].contains l.taps) stRange (o + 19),
    need (decide (l.source = 2) || decide (l.chan = 0)) stRange (o + 20),
    need (decide (l.source ≠ 2 ∨ l.format = 0 ∨ l.scale = 0)) stRange (o + 28),
    needZero b (o + 37) 1 0, needZero b (o + 48) 16 0]

/-- Tables that one layer names are loaded. -/
def layerTables (s : State) (l : LbLayer) : Chk :=
  let has (kind id : Nat) : Chk := need (decide (id = 0xFFFF) || Tab.has s.lbox.tables (lbKey kind id)) stNotFound id
  firstFail [has 3 l.coef, has 0 l.palette, has 1 l.gin, has 4 l.mtab]

/-- A map layer's pool: a loaded B pool whose beams leave as power maps, with a grid of the layer's size (R244). -/
def layerPool (s : State) (l : LbLayer) (o : Nat) : Chk :=
  if l.source ≠ 2 then none
  else match (curSched s).bind (fun r => (r.pool? l.pool).map (fun q => (r, q))) with
    | none => some (stNotFound, l.pool)
    | some (r, q) => firstFail [
        need (decide (q.mode = 1 ∧ q.product / 2 % 2 = 1)) stRange (o + 18),
        need (if q.band = 0 then decide (l.chan < q.channels) else decide (l.chan = 0)) stRange (o + 20),
        match (Tab.get s.corr.bsets (r.setAt l.pool (beamDue s r l.pool q))).bind (·.grid) with
        | some g => need (decide (l.sw = g.nu ∧ l.sh = g.nv)) stRange (o + 4)
        | none => some (stRange, o + 18)]

/-- The limits of R247, R252 (Table 14-5, row 6) and R257. -/
def sceneLimits (s : State) (sc : LbScene) : Chk := firstFail [
  need (decide (64 * (sc.layers.map LbLayer.bufWords).sum ≤ regionSize s 4)) stCapacity freeInfo,
  need (decide (lineBytes sc.layers ≤ hubSize 6)) stCapacity (checkCode 6 0x0E05),
  need (decide (sc.width * sc.height * sc.rate ≤ 248832000)) stCapacity freeInfo,
  need (decide ((sc.layers.map (fun l => l.dw * l.dh * sc.rate)).sum ≤ 2000000000)) stCapacity freeInfo]

/-- The frame at whose boundary a scene takes effect: `activate`, or the first frame still to come when its boundary has passed. -/
def firstFrame (sc : LbScene) (tw : Nat) : Nat :=
  if tw ≤ sc.bound sc.activate then sc.activate
  else firstNear (fun f => decide (tw ≤ sc.bound f)) (ceilDiv ((tw - sc.start) * sc.rate) tickHz)

/-- The checks of SCENE_LOAD, in order. -/
def sceneLoadChk (d : Desc) (data : Bytes) (s : State) : Chk :=
  let b := dataOf d data
  let n := fieldU b 1 1
  let sc := parseScene b
  let offs := (List.range n).map (fun i => 32 + 64 * i)
  firstFail [descChk d [(32, 1)], need (decide (32 ≤ d.len.toNat)) stSize 32,
    need (decide (2 ≤ n ∧ n ≤ 8)) stRange 1, sizeChk d (36 + 64 * n),
    need (decide (1 ≤ sc.rate ∧ sc.rate ≤ 60)) stRange 2, need (decide (fieldU b 3 1 = 0)) stRange 3,
    need (decide (16 ≤ sc.width ∧ sc.width ≤ 3840)) stRange 4, need (decide (16 ≤ sc.height ∧ sc.height ≤ 2160)) stRange 6,
    needZero b 14 2 0, firstFail (offs.map (layerChk b sc.rate)),
    need (decide (fieldU b (32 + 64 * n) 4 = (crc32c (b.take (32 + 64 * n))).toNat)) stCrc 0,
    need (decide (sc.gout = 0xFFFF) || Tab.has s.lbox.tables (lbKey 2 sc.gout)) stNotFound sc.gout,
    firstFail (sc.layers.map (layerTables s)), firstFail (offs.map (fun o => layerPool s (parseLayer b o) o)),
    sceneLimits s sc]

/-- SCENE_LOAD (R244, R247, R252, R257). -/
def runSceneLoad (d : Desc) (data : Bytes) (s : State) : State :=
  let b := dataOf d data
  let sc := parseScene b
  match sceneLoadChk d data s with
  | some c => refuse d c s
  | none =>
    let block := (List.range 8).flatMap (fun i => le 1 ((sc.layers[i]?.map LbLayer.tv).getD 0))
    let sc := { sc with activate := firstFrame sc s.tw }
    completeWith d stOk 0 (some block) (cfgPutAt (sc.bound sc.activate) 13 sc.id b { s with lbox.pending := s.lbox.pending ++ [sc] })

def execSceneLoad (t : Tick) (d : Desc) (data : Bytes) (s : State) : Host.Outcome State Fault Refusal :=
  .next (runSceneLoad d data (s.advance t))

/-- Values a table image holds, by kind and taps. -/
def tableCount (kind taps : Nat) : Nat := if kind ≤ 1 then 256 else if kind = 2 then 4096 else 64 * taps

/-- Bytes of one value. -/
def tableUnit (kind : Nat) : Nat := if kind = 0 then 4 else if kind = 1 ∨ kind = 3 then 2 else if kind = 2 then 1 else 8

/-- The checks of LIGHTBOX_TABLE_LOAD, in order. -/
def lightboxTableLoadChk (d : Desc) (data : Bytes) (s : State) : Chk :=
  let b := dataOf d data
  let id := fieldU b 0 2
  let kind := fieldU b 2 1
  let taps := fieldU b 3 1
  let n := fieldU b 4 4
  let item (i : Nat) : Chk :=
    let o := 16 + tableUnit kind * i
    if kind = 1 then need (decide (fieldU b o 2 ≤ 4095)) stRange o
    else if kind = 4 then firstFail [need (decide (1 ≤ fieldU b (o + 4) 1 ∧ fieldU b (o + 4) 1 ≤ 64)) stRange (o + 4),
      need (decide (fieldU b (o + 5) 1 ≤ 1)) stRange (o + 5), needZero b (o + 6) 2 0]
    else none
  firstFail [descChk d [(32, 1)], need (decide (16 ≤ d.len.toNat)) stSize 16, need (decide (kind ≤ 4)) stRange 2,
    if kind = 3 then need ([2, 4, 8].contains taps) stRange 3 else needZero b 3 1 0,
    need (if kind = 4 then decide (1 ≤ n ∧ n ≤ 256) else decide (n = tableCount kind taps)) stRange 4, needZero b 12 4 0,
    sizeChk d (16 + tableUnit kind * n), firstFail ((List.range n).map item), crcChk b 8 16, need (!lbNamed s kind id) stInUse id]

/-- LIGHTBOX_TABLE_LOAD (R246, Table 10-3). -/
def runLightboxTableLoad (d : Desc) (data : Bytes) (s : State) : State :=
  let b := dataOf d data
  let id := fieldU b 0 2
  let kind := fieldU b 2 1
  let taps := fieldU b 3 1
  let n := fieldU b 4 4
  match lightboxTableLoadChk d data s with
  | some c => refuse d c s
  | none =>
    accept d (cfgPut 14 (lbKey kind id) b { s with lbox.tables := Tab.put s.lbox.tables (lbKey kind id) ⟨kind, taps, n, b.drop 16⟩ })

def execLightboxTableLoad (t : Tick) (d : Desc) (data : Bytes) (s : State) : Host.Outcome State Fault Refusal :=
  .next (runLightboxTableLoad d data (s.advance t))

/-- The run of a layer. -/
def layerRun (s : State) (l : Nat) : LbRun := s.lbox.layers.getD l LbRun.empty

/-! ## The pixel path (R249 to R253) -/

/-- A pixel: three colour components and alpha. -/
structure Px where
  r : Int
  g : Int
  b : Int
  a : Int
  deriving DecidableEq, Repr

/-- Apply a function to the colour components. -/
def Px.colour (f : Int → Int) (p : Px) : Px := ⟨f p.r, f p.g, f p.b, p.a⟩

/-- A pixel from four bytes at offset `o`. -/
def pxAt (b : Bytes) (o : Nat) : Px := ⟨fieldU b o 1, fieldU b (o + 1) 1, fieldU b (o + 2) 1, fieldU b (o + 3) 1⟩

/-- A colour field, bytes R, G, B, A. -/
def pxOf (v : Nat) : Px := pxAt (le 4 v) 0

/-- The identity input LUT. -/
def idIn (v : Int) : Int := roundDiv (v * 4095) 255

/-- An input LUT. -/
def inLut (s : State) (id : Nat) (v : Int) : Int := match lbTable s 1 id with
  | some t => fieldU t.body (2 * v.toNat) 2
  | none => idIn v

/-- An output LUT. -/
def outLut (s : State) (id : Nat) (c : Int) : Int := match lbTable s 2 id with
  | some t => fieldU t.body c.toNat 1
  | none => roundDiv (c * 255) 4095

/-- A palette entry; the grey ramp without a table. -/
def paletteAt (s : State) (id j : Nat) : Px := match lbTable s 0 id with
  | some t => pxAt t.body (4 * j)
  | none => ⟨j, j, j, 255⟩

/-- What a layer shows: the bytes of its content, and the source pixels in poisoned words, in row order (R363). -/
structure LbContent where
  bytes : Bytes
  lost : List Nat
  deriving DecidableEq, Repr

/-- Source pixel (x, y) of a layer before its input LUT (R249, R250): transparent in a poisoned word. -/
def srcPixel (s : State) (l : LbLayer) (d : LbContent) (x y : Nat) : Px :=
  let c := d.bytes
  if d.lost.contains (y * l.sw + x) then ⟨0, 0, 0, 0⟩
  else if l.source = 1 ∧ l.format = 0 then pxAt c (4 * (y * l.sw + x))
  else if l.source = 1 ∧ l.format = 2 then
    let o := 32 * ((y / 8) * ceilDiv l.sw 8 + x / 8)
    let n := 8 * (y % 8) + x % 8
    pxAt c (o + 4 * bitsOf (fieldU c (o + 16) 16) (2 * n) 2)
  else paletteAt s l.palette (fieldU c (y * l.sw + x) 1)

/-- A coefficient of the boot ROM set of `taps` taps. -/
def romCoef (taps ph t : Nat) : Int := wrapS 16 (Config.bootRom (if taps = 8 then 7 else if taps = 4 then 8 else 9) (ph * taps + t))

/-- Coefficient `t` of phase `ph` of a pass with `taps` taps: of the layer's loaded set where it has that many (R251, R252). -/
def scaleCoef (s : State) (l : LbLayer) (taps ph t : Nat) : Int := match lbTable s 3 l.coef with
  | some c => if c.taps = taps then fieldS c.body (2 * (ph * taps + t)) 2 else romCoef taps ph t
  | none => romCoef taps ph t

/-- Source index and phase for destination index `u` (R251). -/
def scalePos (u sz dz : Nat) : Int × Nat :=
  let den : Int := 2 * max 1 dz
  let num : Int := (2 * (u : Int) + 1) * sz - dz
  let i := num.fdiv den
  let ph := (roundDiv (64 * (num - i * den)) den).toNat
  if ph = 64 then (i + 1, 0) else (i, ph)

/-- A source index clamped to the edge. -/
def edge (i : Int) (n : Nat) : Nat := (max 0 (min i ((n : Int) - 1))).toNat

/-- One component summed over taps, divided by 2¹⁴. -/
def tapSum (cs : List Int) (ps : List Px) (f : Px → Int) : Int := roundShift (List.zipWith (fun c p => c * f p) cs ps).sum 14

/-- All components of a pass. -/
def tapPx (cs : List Int) (ps : List Px) (keep : Int → Int) : Px :=
  ⟨keep (tapSum cs ps Px.r), keep (tapSum cs ps Px.g), keep (tapSum cs ps Px.b), keep (tapSum cs ps Px.a)⟩

/-- The sums of the horizontal pass at destination column `u` of source row `y`: 8 taps. -/
def hSums (s : State) (l : LbLayer) (c : LbContent) (u y : Nat) : Px :=
  let p := scalePos u l.sw l.dw
  tapPx ((List.range 8).map (scaleCoef s l 8 p.2))
    ((List.range 8).map (fun t => (srcPixel s l c (edge (p.1 - 3 + t) l.sw) y).colour (inLut s l.gin))) id

/-- What the horizontal pass keeps of them: s16, saturated and counted where a loaded set exceeds it (R11). -/
def Px.keep (p : Px) : Px := ⟨satS 16 p.r, satS 16 p.g, satS 16 p.b, satS 16 p.a⟩

/-- The horizontal pass. -/
def hPass (s : State) (l : LbLayer) (c : LbContent) (u y : Nat) : Px := (hSums s l c u y).keep

/-- The scaled pixel (u, v) before its clamp: Tv taps, of the boot ROM set where the fallback of R252 has halved them. -/
def vPass (s : State) (l : LbLayer) (c : LbContent) (u v : Nat) : Px :=
  let p := scalePos v l.sh l.dh
  tapPx ((List.range l.tv).map (if l.tv < l.taps then romCoef l.tv p.2 else scaleCoef s l l.tv p.2))
    ((List.range l.tv).map (fun t => hPass s l c u (edge (p.1 - l.tv / 2 + 1 + t) l.sh))) id

/-- Clamp colour to 0 to 4,095 and alpha to 0 to 255. -/
def Px.clamp (p : Px) : Px :=
  let k (m v : Int) : Int := max 0 (min v m)
  ⟨k 4095 p.r, k 4095 p.g, k 4095 p.b, k 255 p.a⟩

/-- Pixels that a layer entry counts as clamps: those of the destination rectangle that the vertical pass clamps (R251), those of the source rows
that the horizontal pass saturates (R11), and the source pixels in poisoned words (R363). -/
def clampCount (s : State) (l : LbLayer) (c : LbContent) : Nat := c.lost.length +
  ((List.range l.sh).map (fun y => ((List.range l.dw).filter (fun u => let p := hSums s l c u y; decide (p.keep ≠ p))).length)).sum +
  ((List.range l.dh).map (fun v => ((List.range l.dw).filter (fun u => let p := vPass s l c u v; decide (p.clamp ≠ p))).length)).sum

/-- A marker (R253) covers output pixel (x, y). -/
def markCovers (t : LbTable) (m : Nat) (x y : Int) : Bool :=
  let o := 8 * m
  let size : Int := fieldU t.body (o + 4) 1
  let dist := max |x - fieldS t.body o 2| |y - fieldS t.body (o + 2) 2|
  if fieldU t.body (o + 5) 1 = 0 then decide (dist = size - 1 ∨ dist = size) else decide (dist ≤ size)

/-- The markers of a layer that are set, of those its table holds. -/
def layerMarks (s : State) (marks : List LbMark) (i : Nat) (l : LbLayer) : List LbMark := match lbTable s 4 l.mtab with
  | some t => marks.filter (fun k => decide (k.layer = i ∧ k.m < t.count))
  | none => []

/-- The marker pixel of a layer at an output pixel: of the markers that cover it the highest wins. -/
def markPixel (s : State) (ms : List LbMark) (l : LbLayer) (x y : Int) : Option Px := match lbTable s 4 l.mtab with
  | none => none
  | some t =>
    let best (a : Option LbMark) (k : LbMark) : Option LbMark := match a with
      | some j => if j.m ≤ k.m then some k else a
      | none => some k
    ((ms.filter (fun k => markCovers t k.m x y)).foldl best none).map (fun k =>
      (pxOf (if k.confirmed then l.conf else l.prov)).colour idIn)

/-- A layer as one frame shows it: its content, `none` when transparent, and its markers. -/
structure LbShow where
  layer : LbLayer
  content : Option LbContent
  marks : List LbMark
  deriving DecidableEq, Repr

/-- What a layer puts on output pixel (x, y), its opacity applied (R250, R253). -/
def showPixel (s : State) (h : LbShow) (x y : Nat) : Option Px :=
  let u := (x : Int) - h.layer.dx
  let v := (y : Int) - h.layer.dy
  let inside := decide (0 ≤ u ∧ u < h.layer.dw ∧ 0 ≤ v ∧ v < h.layer.dh)
  if !inside && decide (h.layer.source ≠ 0) then none
  else match markPixel s h.marks h.layer x y, h.content with
    | some p, _ => some p
    | none, some c =>
      let p := (vPass s h.layer c u.toNat v.toNat).clamp
      some { p with a := roundDiv (p.a * h.layer.alpha) 255 }
    | none, none => none

/-- Blend a pixel over the frame so far. -/
def blend (top : Px) (under : Px) : Px :=
  let f (a b : Int) : Int := roundDiv (a * top.a + b * (255 - top.a)) 255
  ⟨f top.r under.r, f top.g under.g, f top.b under.b, under.a⟩

/-- One output pixel, bytes R, G, B. -/
def outPixel (s : State) (sc : LbScene) (hs : List LbShow) (x y : Nat) : Bytes :=
  let p := hs.foldl (fun p h => match showPixel s h x y with
    | some q => blend q p
    | none => p) ((pxOf sc.bg).colour idIn)
  [p.r, p.g, p.b].flatMap (fun c => le 1 (outLut s sc.gout c).toNat)

/-! ## Frames (R245, R254 to R258) -/

/-- A layer is due at frame `f` (R255); an empty layer has no f_last. -/
def layerDue (l : LbLayer) (r : LbRun) (f : Nat) : Bool :=
  decide (0 < l.expect) && r.front.isSome && decide (r.fLast + l.expect ≤ f)

/-- The first update of a layer that completes by time word `at_`. -/
def firstBy (r : LbRun) (at_ : Nat) : Option LbUpdate := r.back.find? (fun u => u.at_ ≤ at_)

/-- A layer that the frame at boundary `b` has to wait for, and the end of its bound. -/
def mustWaitFor (l : LbLayer) (r : LbRun) (f b : Nat) : Option Nat :=
  if layerDue l r f && decide (l.policy = 2) && (firstBy r b).isNone then some (b + (usTicks l.wait).toNat) else none

/-- The start that a layer imposes on its frame, `none` while it is still open at time word `tw` (R255). -/
def layerStart (l : LbLayer) (r : LbRun) (f b tw : Nat) : Option Nat :=
  match mustWaitFor l r f b with
  | none => some b
  | some e => match firstBy r e with
    | some u => some u.at_
    | none => if e ≤ tw then some e else none

/-- The start of a frame, `none` while a WAIT layer still delays it. -/
def frameStart (ls : List (LbLayer × LbRun)) (f b tw : Nat) : Option Nat :=
  ls.foldl (fun a x => match a, layerStart x.1 x.2 f b tw with
    | some a, some v => some (Nat.max a v)
    | _, _ => none) (some b)

/-- What one layer does at a frame: its run afterwards, its content, the skipped updates, its entry's state and flags. -/
structure LbStep where
  run : LbRun
  content : Option Bytes
  skipped : Nat
  state : Nat
  flags : Nat
  deriving DecidableEq, Repr

/-- A layer at frame `f` with boundary `b` that starts at `start` (R254 to R256). -/
def stepLayer (l : LbLayer) (r : LbRun) (f b start : Nat) : LbStep :=
  let e := b + (usTicks l.wait).toNat
  let cut := if l.policy = 2 then start else b
  let due := layerDue l r f
  let waited := (mustWaitFor l r f b).isSome
  let counting := r.back.filter (fun u => decide (u.at_ ≤ cut))
  let late := r.back.filter (fun u => decide (cut < u.at_))
  let common := b01 waited + 4 * b01 (decide (l.tv < l.taps))
  match counting.getLast? with
  | some u =>
    let passed := b01 (waited && (firstBy r e).isNone)
    ⟨⟨some u, late, f, 0⟩, some u.content, counting.length - 1, 0, common + 2 * passed + 8 * b01 (decide (l.source = 2) && u.missing)⟩
  | none => match r.front with
    | none => ⟨r, none, 0, 3, common⟩
    | some u =>
      let fl := common + 2 * b01 waited + 8 * b01 (decide (l.source = 2) && u.missing)
      if !due then ⟨r, some u.content, 0, 4, fl⟩
      else
        let r := { r with stale := bump 32 r.stale 1 }
        if l.policy = 1 then ⟨r, none, 0, 2, fl⟩ else ⟨r, some u.content, 0, 1, fl⟩

/-- A layer entry (Table 10-5). -/
def layerEntry (s : State) (l : LbLayer) (x : LbStep) (lost : List Nat) (ms : List LbMark) : Bytes :=
  let clamps := match x.content with
    | some c => clampCount s l ⟨c, lost⟩
    | none => 0
  let ic := if l.source = 2 then (x.run.front.map (·.iclamps)).getD 0 else 0
  le 1 x.state ++ le 1 x.flags ++ le 2 ms.length ++ le 4 x.run.stale ++ le 8 ((x.run.front.map (·.stamp)).getD 0) ++ le 4 clamps ++
    le 4 ic ++ zeros 8

/-- The body of a frame record (R258, Table 10-4). -/
def frameBody (s : State) (sc : LbScene) (f b start : Nat) (xs : List (LbLayer × LbStep × List Nat × List LbMark)) : Bytes :=
  let sw := switchesIn s (if f = 0 then b else sc.bound (f - 1) + 1) b
  let hs := xs.map (fun x => (⟨x.1, x.2.1.content.map (fun c => ⟨c, x.2.2.1⟩), x.2.2.2⟩ : LbShow))
  le 8 f ++ le 8 b ++ le 1 sc.id ++ le 1 xs.length ++ zeros 2 ++ le 2 sc.width ++ le 2 sc.height ++
    le 4 (roundDiv ((start - b : Nat) * 1000000) tickHz).toNat ++ le 4 ((xs.map (fun x => x.2.1.skipped)).sum) ++ leS 8 sw.1 ++ le 4 sw.2 ++
    zeros 20 ++ xs.flatMap (fun x => layerEntry s x.1 x.2.1 x.2.2.1 x.2.2.2) ++
    (List.range sc.height).flatMap (fun y => (List.range sc.width).flatMap (fun x => outPixel s sc hs x y))

/-- In a switch-over gap a frame is dropped and counted in the loss record of its outlets (Table 17-6). -/
def dropFrame (s : State) : State :=
  let s := applyReplacement 7 0 s
  match bindingOf s 7 0 with
  | none => { s with host.unbound := Tab.add s.host.unbound 7 1 }
  | some (bid, b) =>
    let s := { s with host.bindings := Tab.put s.host.bindings bid { b with seq := b.seq + 1 } }
    (bindingOutlets b.ring b.quad).foldl (fun s o => dropAt o bid b.seq s.tw 0 s) s

/-- The boundary fell in a switch-over gap: in the one that is open, or in the last one (Table 17-6). -/
def inGap (s : State) (b : Nat) : Bool :=
  match s.twin.gapAt with
  | some lo => !s.emits && decide (lo ≤ b)
  | none => match s.tx.gap with
    | some (lo, hi) => decide (lo ≤ b ∧ b ≤ hi)
    | none => false

/-- The source pixels of layer `i` that lie in poisoned words (R363). -/
def lostPixels (l : LbLayer) (i : Nat) (ecc : List Ecc) : List Nat :=
  let bad := (ecc.filter (fun e => !e.corrected)).map (·.word)
  if bad.isEmpty then [] else (List.range (l.sw * l.sh)).filter (fun p => bad.any (fun w => Config.lbWord w (i * 2 ^ 32 + p)))

/-- Compose frame `f` with boundary `b`, started at `start`, with the markers set at its boundary. -/
def composeFrame (sc : LbScene) (f b start : Nat) (marks : List LbMark) (ecc : List Ecc) (s : State) : State :=
  let ecc := regionSeen s 4 0 (sc.layers.map LbLayer.bufWords).sum ecc
  let xs := (sc.layers.zip s.lbox.layers).zipIdx.map (fun p =>
    (p.1.1, stepLayer p.1.1 p.1.2 f b start, lostPixels p.1.1 p.2 ecc, layerMarks s marks p.2 p.1.1))
  let s := eccRead 5 4 ecc s
  let body := frameBody s sc f b start xs
  let s := { s with lbox.layers := xs.map (fun x => x.2.1.run), lbox.frame := f + 1, lbox.waiting := none }
  if inGap s b then dropFrame s
  else formRecord ⟨7, 0, 0x60, body, 0xFFFF, b, b, poisonedIn ecc⟩ s

/-- Start the next frame of the scene in effect once its boundary has come and no WAIT layer delays it (R254, R255). -/
def tryFrame (ecc : List Ecc) (s : State) : State :=
  match s.lbox.scene with
  | none => s
  | some sc =>
    let f := s.lbox.frame
    let b := sc.bound f
    if s.tw < b || s.mgmt.trip then s
    else
      let marks := s.lbox.waiting.getD s.lbox.marks
      match frameStart (sc.layers.zip s.lbox.layers) f b s.tw with
      | some start => composeFrame sc f b start marks ecc s
      | none => { s with lbox.waiting := some marks }

/-- The update that a delayed frame waits for has completed: the frame starts (R255). -/
def resumeFrame (s : State) : State := if s.lbox.waiting.isSome then tryFrame [] s else s

/-- SURFACE_WRITE (R248): a whole surface read without error completes an update of the layer, which may start the frame that waits for it. -/
def runSurfaceWrite (d : Desc) (data : Bytes) (s : State) : State :=
  let l := par d 32 1
  let lay := (s.lbox.scene.bind (fun sc => sc.layers[l]?)).filter (fun x => x.source = 1)
  match descChk d [(32, 1)], lay with
  | some c, _ => refuse d c s
  | none, none => refuse d (stNotFound, l) s
  | none, some x =>
    match sizeChk d x.bufBytes with
    | some c => refuse d c s
    | none =>
      let r := layerRun s l
      resumeFrame (accept d { hbmRequest 4 .outside (placeOf s 4 l) s with lbox.layers := s.lbox.layers.set l { r with back := r.back ++ [⟨s.tw, dataOf d data, s.tw, false, 0⟩] } })

def execSurfaceWrite (t : Tick) (d : Desc) (data : Bytes) (s : State) : Host.Outcome State Fault Refusal :=
  .next (runSurfaceWrite d data (s.advance t))

/-- A layer keeps its content across a change of scene (R245). -/
def keepRun (old : List (LbLayer × LbRun)) (i : Nat) (l : LbLayer) : LbRun :=
  match old[i]? with
  | some (o, r) => if o.source = l.source ∧ o.format = l.format ∧ o.sw = l.sw ∧ o.sh = l.sh then r else LbRun.empty
  | none => LbRun.empty

/-- A scene takes effect (R245). A layer that keeps its content counts its last change from the scene's first frame. -/
def takeScene (sc : LbScene) (s : State) : State :=
  let old := match s.lbox.scene with
    | some o => o.layers.zip s.lbox.layers
    | none => []
  let runs := sc.layers.zipIdx.map (fun p => { keepRun old p.2 p.1 with fLast := sc.activate })
  let gone := match s.lbox.scene with
    | some o => !(s.lbox.pending.any (fun x => decide (x.id = o.id)))
    | none => false
  let s := match s.lbox.scene with
    | some o => if gone then cfgDel 13 o.id s else s
    | none => s
  { s with lbox := { s.lbox with
      scene := some sc, pending := s.lbox.pending.erase sc, layers := runs, frame := sc.activate, waiting := none } }

/-- The pending scene whose boundary comes first. -/
def nextScene (s : State) : Option LbScene :=
  s.lbox.pending.foldl (fun a sc => match a with
    | some x => if sc.bound sc.activate < x.bound x.activate then some sc else a
    | none => some sc) none

/-- A pending scene takes effect when its boundary has come and no earlier frame of the scene in effect is still due. -/
def sceneDue (s : State) : Option LbScene :=
  (nextScene s).filter (fun sc => decide (sc.bound sc.activate ≤ s.tw) && s.lbox.waiting.isNone && (match s.lbox.scene with
    | some o => decide (sc.bound sc.activate ≤ o.bound s.lbox.frame)
    | none => true))

/-- LIGHTBOX_FRAME_BOUNDARY (R245, R254). -/
def execLightboxFrameBoundary (t : Tick) (ecc : List Ecc) (s : State) : Host.Outcome State Fault Refusal :=
  let s := s.advance t
  -- a frame that a WAIT layer still holds has reached its bound by now: it goes out before the next one
  let s := if s.lbox.waiting.isSome then tryFrame ecc s else s
  let s := match sceneDue s with
    | some sc => takeScene sc s
    | none => s
  .next (tryFrame ecc s)

/-- LIGHTBOX_WAIT_EXPIRY (R255). -/
def execLightboxWaitExpiry (t : Tick) (ecc : List Ecc) (s : State) : Host.Outcome State Fault Refusal :=
  let s := s.advance t
  .next (if s.lbox.waiting.isSome then tryFrame ecc s else s)

/-! ## Beam records reach the Lightbox (R165, R166) -/

/-- BEAM_RECORD (R165): once every job of the pool's next stroke is done, its records are emitted in order; the maps passed on
may start the Lightbox frame that waits for them (R166, R255). -/
def execBeamRecord (t : Tick) (pool : Nat) (s : State) : Host.Outcome State Fault Refusal :=
  let s := s.advance t
  match strokeReady s pool with
  | none => .next s
  | some (r, q, p, i, bs) =>
    let s := emitStroke r pool q p i bs s
    let s := { s with corr := { s.corr with
      beamNext := Tab.put s.corr.beamNext (poolKey r.gen pool) (i + 1)
      beamOut := s.corr.beamOut.filter (fun o => decide (o.1 / 2 ^ 32 ≠ poolKey r.gen pool * 2 ^ 48 + i)) } }
    .next (resumeFrame (afterSlot (trimGeom s)))

end Sys2Proof.Machine
end

