-- ==== Sys2Proof/Machine/Mgmt.lean ====
section
/-!
DEFINITION. Management (16_management.md): stewards and the voltage loop (R20, R413 to R417), thermal limits (R418, R419), monitor windows
(R425 to R427), the control crossbar (R409 to R411), stack temperatures (R358).
-/
namespace Sys2Proof.Machine

/-! ## The voltage loop (R20, R413 to R415) -/

/-- Change the voltage of a domain to a code: a step that has to settle. -/
def stepVoltage (d v : Nat) (s : State) : State :=
  setDom d { domOf s d with vnow := v, stepAt := some s.now, slacks := [], since := 0 } s

/-- The lowest slack over the strokes held, as a fraction slack / P; `none` without a stroke. -/
def lowSlack (l : List (Int × Nat)) : Option (Int × Nat) :=
  l.foldl (fun a x => match a with
    | some y => if x.1 * y.2 < y.1 * x.2 then some x else some y
    | none => some x) none

/-- The band of a lowest slack (Table 01-6); at the ceiling Tight becomes Short. -/
def bandOf (x : Int × Nat) (atCeil : Bool) : Band :=
  if x.1 < 0 then .missed
  else if x.1 * 10 < x.2 then (if atCeil then .short else .tight)
  else if x.1 * 4 < x.2 then .normal
  else .ample

/-- The ceiling that binds: 0 domain cap, 1 device power, 2 thermal. -/
def bindingCeil (s : State) (d : Nat) : Nat :=
  let m := domOf s d
  if vcapEff s d = domCeil s d then 0 else if m.pceil = domCeil s d then 1 else 2

/-- Enter, keep or leave the Short band (R415): on entry the event and a request, then a request per 64 strokes. -/
def shortBand (d : Nat) (short : Bool) (s : State) : State :=
  let m := domOf s d
  if !short then setDom d { m with capped := false } s
  else if m.capped && decide (m.asked < 64) then s
  else
    let s1 := setDom d { m with capped := true, asked := 0 } s
    let s2 := if m.capped then s1 else postEvent 0x83 d (le 1 (bindingCeil s d) ++ le 1 (domCeil s d)) s1
    shedNext d s2

/-- SLACK_WINDOW_EVAL (R20, R413): the steward acts on the lowest slack. Lowering asks for 64 strokes; a raise for 64 strokes since the last
step, except in the Missed band. -/
def execSlackWindowEval (t : Tick) (d : Fin 16) (s : State) : Host.Outcome State Fault Refusal :=
  let s := s.advance t
  let m := domOf s d.val
  match lowSlack m.slacks with
  | none => .next s
  | some x =>
    if m.lost || s.mgmt.trip then .next s
    else
      let atCeil := decide (domCeil s d.val ≤ m.vnow)
      let b := bandOf x atCeil
      let s := setDom d.val { m with band := b } s
      let low := decide (x.1 * 10 < x.2)
      let s := shortBand d.val (low && atCeil) s
      let free := m.stepAt.isNone && decide (64 ≤ m.since)
      .next (match b with
        | .ample => if free && decide (m.slacks.length = 64 ∧ 0 < m.vnow) then stepVoltage d.val (m.vnow - 1) s else s
        | .tight => if free then stepVoltage d.val (m.vnow + 1) s else s
        | .missed => if !atCeil && m.stepAt.isNone then stepVoltage d.val (m.vnow + 1) s else s
        | _ => s)

/-- VOLTAGE_SETTLED (R413): a step has settled, within 20 µs of it. -/
def execVoltageSettled (t : Tick) (d : Fin 16) (s : State) : Host.Outcome State Fault Refusal :=
  let s := s.advance t
  let m := domOf s d.val
  match m.stepAt with
  | some _ => .next (setDom d.val { m with stepAt := none, slacks := [] } s)
  | none => .next s

/-- CEILING_LOWERING_STEP (R414): a step every 20 µs while the voltage exceeds the effective ceiling. -/
def execCeilingLoweringStep (t : Tick) (d : Fin 16) (s : State) : Host.Outcome State Fault Refusal :=
  let s := s.advance t
  let m := domOf s d.val
  let due := match m.stepAt with
    | some a => atLeastUs (s.now - a) 20
    | none => true
  if !m.lost && due && decide (domCeil s d.val < m.vnow) then .next (stepVoltage d.val (m.vnow - 1) s) else .next s

/-! ## Device power (R416) -/

/-- PCAP.CAP in mW as it acts (Table 16-13). -/
def pcapMw (s : State) : Nat := 1000 * max 50 (min 300 (fld s.mgmt.pcap 0 9))

/-- The engine domain for which `better` holds against every earlier choice; ties go to the lower domain. -/
def pickDomain (better : Nat → Nat → Bool) : Nat := (List.range 16).foldl (fun a d => if better d a then d else a) 0

/-- The power of a domain, by its steward (Table 16-8 kind 8). -/
def notePower (d mw : Nat) (s : State) : State :=
  if (domOf s d).lost then s
  else monSample 8 d mw (setDom d { domOf s d with power := satU 16 (mw / 10) } s)

/-- Every domain. -/
def notePowers (mw : Vector Nat 17) (s : State) : State :=
  (List.range 17).foldl (fun s d => notePower d (vget mw d 0) s) s

/-- POWER_CAP_CHECK (R416): steward 16 compares the device power with PCAP. -/
def execPowerCapCheck (t : Tick) (deviceMw : Nat) (domainMw : Vector Nat 17) (s : State) : Host.Outcome State Fault Refusal :=
  let s := s.advance t
  let s := notePowers domainMw s
  if (domOf s 16).lost then .next s
  else
    let s := monSample 8 17 deviceMw { s with mgmt.powerMw := deviceMw }
    if pcapMw s < deviceMw then
      let d := pickDomain (fun d a => decide (vget domainMw a 0 < vget domainMw d 0))
      let m := domOf s d
      .next (setDom d { m with pceil := m.pceil - 1 } { s with mgmt.lowMs := 0 })
    else if deviceMw + 5000 ≤ pcapMw s then
      if s.mgmt.lowMs < 9 then .next { s with mgmt.lowMs := s.mgmt.lowMs + 1 }
      else
        let d := pickDomain (fun d a => decide ((domOf s d).pceil < (domOf s a).pceil))
        let m := domOf s d
        .next (setDom d { m with pceil := min 20 (m.pceil + 1) } { s with mgmt.lowMs := 0 })
    else .next { s with mgmt.lowMs := 0 }

/-! ## Thermal limits (R418, R419) -/

/-- Readings of stewards and stacks that count: subject, reading in m°C, and the margin to its Tmax. -/
def thermalReadings (s : State) (temps : Vector Int 17) : List (Nat × Int × Int) :=
  ((List.range 17).filter (fun d => !(domOf s d).lost)).map (fun d => (d, vget temps d 0, vget temps d 0 - 1000 * tmax s)) ++
    (List.range 4).filterMap (fun k => (vget s.hbm.temps k none).map (fun v => (17 + k, 1000 * v, 1000 * v - 95000)))

/-- The reading with the largest margin, the first of equals. -/
def hottest (l : List (Nat × Int × Int)) : Option (Nat × Int × Int) :=
  l.foldl (fun a x => match a with
    | some y => if y.2.2 < x.2.2 then some x else some y
    | none => some x) none

/-- A thermal event (Table 16-18). -/
def thermalEvent (level : Nat) (x : Nat × Int × Int) (s : State) : State := postEvent 0x84 x.1 (le 1 level ++ zeros 3 ++ s32 x.2.1) s

/-- A reading reaches Tmax − 5 °C. -/
def thermalWarm (x : Nat × Int × Int) (s : State) : State :=
  if -5000 ≤ x.2.2 ∧ ¬ s.mgmt.warm then thermalEvent 0 x { s with mgmt.warm := true } else s

/-- A reading reaches Tmax. -/
def thermalAlert (x : Nat × Int × Int) (s : State) : State :=
  if 0 ≤ x.2.2 ∧ ¬ s.mgmt.alert then thermalEvent 1 x { s with mgmt.alert := true } else s

/-- ALERT_N is low for a reading at or above Tmax. -/
def thermalHot (x : Nat × Int × Int) (s : State) : State := if 0 ≤ x.2.2 then { s with mgmt.hot := true } else s

/-- A reading reaches Tmax + 10 °C: the event, and THERMTRIP_N. -/
def thermalTrip (x : Nat × Int × Int) (s : State) : State :=
  if 10000 ≤ x.2.2 ∧ ¬ s.mgmt.trip then
    let s := thermalEvent 2 x s
    { s with mgmt.trip := true }
  else s

/-- Act on the hottest reading (Table 16-6). -/
def thermalAct (x : Nat × Int × Int) (s : State) : State :=
  let m := x.2.2
  let s := thermalAlert x (thermalWarm x (if m < -5000 then { s with mgmt.warm := false } else s))
  let s := if m < -2000 ∧ s.mgmt.alert then thermalEvent 3 x { s with mgmt.alert := false, mgmt.tceilAt := s.now } else s
  thermalTrip x { s with mgmt.hot := decide (0 ≤ m) }

/-- What one new reading sets off by itself (Table 16-6): the events and the trip of the thresholds it reaches. Whether an alert is over
takes every reading, and waits for the next sample of all. -/
def thermalRise (x : Nat × Int × Int) (s : State) : State := thermalTrip x (thermalHot x (thermalAlert x (thermalWarm x s)))

/-- Voltage and temperature of a domain, by its steward (Table 16-8 kinds 6 and 7). -/
def noteTemp (d : Nat) (temp : Int) (s : State) : State :=
  let m := domOf s d
  let s := monSample 6 d (520 + 10 * m.vnow) s
  if m.lost then s else monSample 7 d temp (setDom d { m with temp := satS 16 (roundDiv (temp * 16) 1000) } s)

/-- Temperature of a memory stack (Table 16-8 kind 7). -/
def noteStackTemp (k : Nat) (s : State) : State :=
  match vget s.hbm.temps k none with
  | some v => monSample 7 (17 + k) (1000 * v) s
  | none => s

/-- Every domain, then every stack. -/
def noteTemps (temps : Vector Int 17) (s : State) : State :=
  let s := (List.range 17).foldl (fun s d => noteTemp d (vget temps d 0) s) s
  (List.range 4).foldl (fun s k => noteStackTemp k s) s

/-- THERMAL_SAMPLE (R418, Table 16-8 kinds 6 and 7). Readings are in m°C. Sensing acts while VCORE is within range, in reset too (R463). -/
def execThermalSample (t : Tick) (temps : Vector Int 17) (s : State) : Host.Outcome State Fault Refusal :=
  let s := s.advance t
  if !s.pins.vcore then .next s
  else
    let s := noteTemps temps s
    match hottest (thermalReadings s temps) with
    | some x => .next (thermalAct x s)
    | none => .next s

/-- Apply a function to every engine domain's thermal ceiling. -/
def modThermal (f : Nat → Nat) (s : State) : State :=
  { s with mgmt.dom := Vector.ofFn (fun i => let m := vget s.mgmt.dom i.val (Domain.reset false)
                                             if i.val < 16 then { m with tceil := f m.tceil } else m)
           mgmt.tceilAt := s.now }

/-- THERMAL_CEILING_STEP (R418): down every 10 ms while a reading is at or above Tmax, up every 100 ms once cleared. -/
def execThermalCeilingStep (t : Tick) (s : State) : Host.Outcome State Fault Refusal :=
  let s := s.advance t
  if s.mgmt.hot then .next (if atLeastMs (s.now - s.mgmt.tceilAt) 10 then modThermal (· - 1) s else s)
  else if !s.mgmt.alert && atLeastMs (s.now - s.mgmt.tceilAt) 100 && (List.range 16).any (fun d => decide ((domOf s d).tceil < 20)) then
    .next (modThermal (fun c => min 20 (c + 1)) s)
  else .next s

/-- ALERT_N is low (R419, Table 16-6). -/
def alertLow (s : State) : Bool :=
  s.mgmt.hot || s.mgmt.alert || s.mgmt.trip || (List.range 64).any (fun l => (laneOf s l).fault) || decide (s.hbm.chFail ≠ 0)

/-- HBM_TEMP_READ (R358), every 1 ms: a reading counts against the thresholds of R418 with Tmax taken as 95 °C while VCORE is within range
(R463). -/
def execHbmTempRead (t : Tick) (stack : Fin 4) (reading : Option Int) (s : State) : Host.Outcome State Fault Refusal :=
  let s := s.advance t
  if !tempDue s stack.val then .next s
  else
    let s := readTemp stack.val reading s
    match reading with
    | some v => .next (if s.pins.vcore then thermalRise (17 + stack.val, 1000 * v, 1000 * v - 95000) s else s)
    | none => .next s

/-! ## Stewards (R407) -/

/-- STEWARD_HEARTBEAT_MISS (R407): a steward that misses three heartbeats in a row is lost. -/
def execStewardHeartbeatMiss (t : Tick) (w : Fin 17) (s : State) : Host.Outcome State Fault Refusal :=
  let s := s.advance t
  let m := domOf s w.val
  if m.lost then .next s
  else
    let s := postEvent 0x85 w.val [] (setDom w.val { m with lost := true } s)
    .next (if w.val = 16 then setUntrusted 2 s else (domainEngines w.val).foldl (fun s e => markFailed e 4 s) s)

/-! ## Monitor windows (R425 to R427) -/

/-- A window. -/
def winOf (s : State) (n : Nat) : Window := vget s.mgmt.win n Window.reset

/-- Replace a window. -/
def setWin (n : Nat) (w : Window) (s : State) : State := { s with mgmt.win := vset s.mgmt.win n w }

/-- What a window starts with. -/
def freshAcc (w : Window) (s : State) : WinAcc where
  kind := fld w.cfg 1 4
  mode := fld w.cfg 5 1
  subject := fld w.cfg 6 16
  base := w.base.toInt
  step := w.step.toNat
  start := s.tw
  startAt := s.now
  count := 0
  min := 0
  max := 0
  sum := 0
  bins := Vector.replicate 32 0
  sat := false

/-- The body of a snapshot record (Table 16-9). -/
def snapBody (s : State) (n : Nat) (byCommand : Bool) (a : WinAcc) : Bytes :=
  let sw := switchSum (s.tb.switches.filter (fun p => decide (a.startAt ≤ p.at_ ∧ p.at_ ≤ s.now)))
  le 1 n ++ le 1 a.kind ++ le 1 a.mode ++ le 1 (b01 byCommand + 2 * b01 a.sat + 4 * b01 (decide (sw.2 ≠ 0))) ++ le 2 a.subject ++
    zeros 2 ++ le 8 a.start ++ le 8 s.tw ++ le 8 a.count ++ leS 8 a.min ++ leS 8 a.max ++ leS 8 a.sum ++ leS 4 a.base ++
    le 4 (if a.mode = 1 then 0 else a.step) ++ a.bins.toList.flatMap (le 4)

/-- A window ends: its snapshot is formed. -/
def snapshot (n : Nat) (byCommand : Bool) (s : State) : State :=
  match (winOf s n).acc with
  | none => s
  | some a => formRecord ⟨9, n, 0x70, snapBody s n byCommand a, 0xFFFF, a.start, s.tw, false⟩ s

/-- A window starts empty. -/
def startWindow (n : Nat) (s : State) : State :=
  let w := winOf s n
  setWin n { w with acc := some (freshAcc w s) } s

/-- MONITOR_WINDOW_END (R426). -/
def execMonitorWindowEnd (t : Tick) (n : Fin 16) (s : State) : Host.Outcome State Fault Refusal :=
  let s := s.advance t
  let w := winOf s n.val
  let len := fld w.len 0 16
  match w.acc with
  | some a =>
    if len ≠ 0 ∧ atLeastMs (s.now - a.startAt) len then .next (startWindow n.val (snapshot n.val false s)) else .next s
  | none => .next s

/-- MONITOR_SNAPSHOT (R426, Table 16-17): it ends a window whose LEN is 0. -/
def runMonitorSnapshot (d : Desc) (_data : Bytes) (s : State) : State :=
  let n := par d 32 1
  match firstFail [descChk d [(32, 1)], need (decide (n < 16)) stRange 32, need (winOf s n).acc.isSome stNotFound n] with
  | some c => refuse d c s
  | none =>
    if fld (winOf s n).len 0 16 = 0 then accept d (startWindow n (snapshot n true s)) else accept d s

def execMonitorSnapshot (t : Tick) (d : Desc) (data : Bytes) (s : State) : Host.Outcome State Fault Refusal :=
  .next (runMonitorSnapshot d data (s.advance t))

/-- A WIN_CFG write (R426): while EN is 1 a change of another field is ignored, unless the write also clears EN. -/
def writeWinCfg (n : Nat) (v : Reg) (s : State) : State :=
  let w := winOf s n
  let v := v &&& 0x3FFFFF
  let was := rbit w.cfg 0
  if was && rbit v 0 then
    if v = w.cfg then s else { s with mgmt.winErr := true }
  else if was then setWin n { w with cfg := v, acc := none } (snapshot n false s)
  else
    let s := setWin n { w with cfg := v } s
    if rbit v 0 then startWindow n s else s

/-- A write of WIN_BASE, WIN_STEP or WIN_LEN (0, 1, 2). -/
def writeWinValue (n k : Nat) (v : Reg) (s : State) : State :=
  let w := winOf s n
  let v := if k = 2 then v &&& 0xFFFF else v
  let old := if k = 0 then w.base else if k = 1 then w.step else w.len
  if rbit w.cfg 0 && decide (v ≠ old) then { s with mgmt.winErr := true }
  else setWin n (if k = 0 then { w with base := v } else if k = 1 then { w with step := v } else { w with len := v }) s

/-! ## The control crossbar (R409) -/

/-- The debug port is locked (R473). -/
def dbgLocked (s : State) : Bool := s.boot.dbgLock || s.boot.fuses.dbgFused

/-- A scribe core. -/
def coreMaster (m : Master) : Bool := match m with
  | .core _ => true
  | _ => false

/-- The target behind the address 0 window (R409). -/
def aliased (s : State) (x : XTarget) : XTarget := if x = .bootMap then (if rbit s.mgmt.xctl 0 then .scribeSram else .bootRom) else x

/-- A master reaches a target (Table 16-2, R409). -/
def reaches (s : State) (m : Master) (x : XTarget) : Bool :=
  let open_ := decide (m ≠ .debug) || !dbgLocked s
  open_ && (match aliased s x with
    | .banks => true
    | .bootRom => coreMaster m || decide (m = .debug)
    | .keyStore => coreMaster m || decide (m = .debug)
    | _ => coreMaster m || decide (m = .debug) || decide (m = .fetcher))

/-- An access receives an error response (R409). -/
def accessError (s : State) : State := { s with mgmt.accessErr := true, mgmt.errCount := bump 16 s.mgmt.errCount 1 }

end Sys2Proof.Machine
end

