-- ==== Sys2Proof/Machine/Twin.lean ====
section
/-!
DEFINITION. The twin pair (17_twin_recovery.md): control and roles (R430 to R439), heartbeats (R440, R441), host-timed commands (R442),
digests and arbitration (R443 to R451), switch-over and rejoining (R452 to R456).
-/
namespace Sys2Proof.Machine

/-! ## Frames of the twin link (R330, R331) -/

/-- The twin quad (Table 17-10). -/
def twinQuad (s : State) : Nat := fld s.twin.ctl 3 4

/-- A frame that belongs on the twin quad, whole and in range (R311, R330, Table 13-7): ops 1 to 4 are those of R449, 5 that of R442. -/
def twinFits (f : RawFrame) : Bool :=
  frameGood f && decide (f.profile.toNat = 5) && (match f.kind.toNat with
    | 0 => decide (f.n.toNat = 5 ∧ fieldU f.data 16 1 < 2)
    | 1 =>
      let n := fieldU f.data 16 2
      decide (1 ≤ n ∧ n ≤ 340 ∧ f.n.toNat = 3 + 3 * n) && (List.range n).all (fun i => decide (fieldU f.data (24 + 24 * i) 1 < 3))
    | 2 => decide (f.n.toNat = 6 ∧ 1 ≤ fieldU f.data 16 1 ∧ fieldU f.data 16 1 < 6)
    | _ => false)

/-- The link's part of a twin frame (R311, R331, R333): one that R311 discards is counted, an accepted one is acknowledged, and its credit
returns. The answer says whether it is accepted. -/
def twinLink (q : Nat) (f : RawFrame) (s : State) : Bool × State :=
  let s := if twinFits f then s else crcErr q s
  let r := linkReceive q (twinFits f) (fieldU f.data 0 2) s
  (r.1, returnCredit q 0 f.n.toNat r.2)

/-- Receive a twin frame on the quad with the twin role (Table 12-1 allows one): an accepted one is consumed, and its body handed to `act` while
the pair is enabled and TWIN.CTL.QUAD names the quad. `mine` picks the frames of this command: a good frame of another kind is the operand of
another one (log entry 95). -/
def twinTake (f : RawFrame) (mine : Bool) (act : Bytes → State → State) (s : State) : State :=
  match (quadsOf s 5).head? with
  | none => s
  | some q =>
    if !(quadOf s q).up || (twinFits f && !mine) then s
    else
      let r := twinLink q f s
      if r.1 && r.2.twinEn && decide (q = twinQuad r.2) then act (f.data.drop 16) (frameTaken q r.2) else r.2

/-- The configuration digest (R440), of what is in effect now. -/
def configDigest (s : State) : Nat := (crc32c ((cfgNow s).flatMap (fun p => le 4 p.2))).toNat

/-- Health bits of a heartbeat. -/
def healthBits (s : State) : Nat := b01 s.twin.step + 2 * b01 s.twin.gstep + 4 * b01 s.twin.faulty

/-- Send a heartbeat now. -/
def sendHeartbeat (s : State) : State :=
  twinSend 0 (le 1 (b01 (decide (s.twin.role ≠ .lit))) ++ le 1 (healthBits s) ++ le 2 (b01 s.twin.sendHandover) ++ le 4 (configDigest s) ++
    le 8 s.tw ++ zeros 8) s

/-- TWIN_HEARTBEAT_SEND (R440). -/
def execTwinHeartbeatSend (t : Tick) (s : State) : Host.Outcome State Fault Refusal :=
  let s := noteActs (s.advance t)
  .next (if s.twinEn then sendHeartbeat s else s)

/-! ## Roles (R433 to R439, R452 to R454) -/

/-- A change of role (Table 17-14): event, counter, and the completion of a twin role command. -/
def roleChange (new : Role) (cause : Nat) (s : State) : State :=
  let old := s.twin.role
  let s := { s with twin.role := new, twin.switches := bump 32 s.twin.switches 1 }
  endWork .twinRole stOk 0 (postEvent 0xA0 s.member (le 1 old.code ++ le 1 new.code ++ le 1 cause) s)

/-- What an outlet was writing goes back to be taken again, with the failures it has met (R371, R402). -/
def abandonOutlet (x : OutletState) : OutletState :=
  match x.active with
  | none => x
  | some a =>
    let x := { x with failed := if a.fails = 0 then x.failed else Tab.put x.failed a.what.key a.fails }
    match a.what with
    | .record id => { x with active := none, queue := id :: x.queue }
    | .loss l =>
      let l := match x.loss with
        | some m => { l with
            dropped := bump 32 l.dropped m.dropped, causes := l.causes ||| m.causes
            lastSeq := if m.binding = l.binding then m.lastSeq else l.lastSeq
            bindings := (l.bindings ++ m.bindings).eraseDups }
        | none => l
      { x with active := none, loss := some l }
    | .pad => { x with active := none, pinned := none }

/-- A write job of a record or trailer. -/
def recordJob (j : WriteJob) : Bool := match j.kind with
  | .body _ => true
  | .trailer _ => true
  | _ => false

/-- Abandon every record that is being written: into rings, and on quads as well unless `rings` says otherwise. -/
def abandonOutlets (rings : Bool) (s : State) : State :=
  { s with
    host.outlets := s.host.outlets.map (fun p => (p.1, if rings && decide (64 ≤ p.1) then p.2 else abandonOutlet p.2))
    host.jobs := s.host.jobs.filter (fun p => !recordJob p.2) }

/-- A frame that waits on a drive, product or map quad. -/
def LaneOut.isFrame : LaneOut → Bool
  | .frame _ => true
  | _ => false

/-- A corner-turn batch of this device that waits for its link (Table 13-5). -/
def TxWait.ownBatch (s : State) (w : TxWait) : Bool := decide (w.kind = 0 ∧ fieldU w.data 4 2 = s.chip)

/-- What a quad still holds back of the outputs of R433 does not leave it: frames of drive, product and map quads, whose credit was spent in
vain, and batches that the link has not taken. -/
def shutQuad (s : State) (q : Nat) : State :=
  let u := quadOf s q
  if quadHas s q 3 || quadHas s q 6 || quadHas s q 7 then
    let lost := ((u.held.filter (fun x => x.2.isFrame)).map (fun x => match x.2 with
      | .frame f => if quadHas s q 3 ∨ f.kind ≠ 0 then 0 else credits f.n.toNat
      | _ => 0)).sum
    setQuad q { u with
      held := u.held.filter (fun x => !x.2.isFrame), crUsed := vset u.crUsed 0 ((vget u.crUsed 0 0 + 65536 - lost) % 65536) } s
  else if quadHas s q 4 then setQuad q { u with txq := u.txq.filter (fun w => !w.ownBatch s) } s
  else s

/-- The gate closes (R436). -/
def shutGate (s : State) : State := (List.range 16).foldl shutQuad { s with twin.gate := false }

/-- TWIN_LIT_OUT falls and the gate closes; a switch-over gap starts unless the partner is lit (R189, R452). -/
def dropPin (s : State) : State :=
  abandonOutlets false { shutGate s with
    twin.pinOut := false
    twin.gapAt := if s.twinEn && s.twin.pinOut && !s.twin.pinIn then some s.tw else s.twin.gapAt }

/-- The partner holds the role: a gap ends for this member, and the partner's outlets carry what was published in it. -/
def gapOver (s : State) : State := drivePins { s with twin.gapAt := none, glint.gapPubs := [] }

/-- The handover: the flag goes out, then the role is dropped (R437, R450, R456). -/
def withdraw (new : Role) (cause : Nat) (s : State) : State :=
  roleChange new cause (dropPin (sendHeartbeat { s with twin.sendHandover := true }))

/-- The span of the gap so far, as an instant at which it started. -/
def gapInstant (s : State) : Nat := s.now - (s.tw - s.twin.gapAt.getD s.tw)

/-- Open the window of a switch-over (Table 17-7, R458). -/
def openSwitchover (s : State) : State :=
  match s.twin.gapAt with
  | none => s
  | some g =>
    let bad := !s.twin.step || s.twin.faulty || s.twin.pinErr || s.twin.skewOut
    let s := { s with
      twin.awaitPub := (s.host.bindings.filter (fun b => !(bindingOutlets b.2.ring b.2.quad).isEmpty)).map (·.1) }
    openWindow 5 0 g (some (g + 10 * tickHz)) bad s

/-- A binding has published a record: the switch-over window ends with the last of them. -/
def published (bid : Nat) (s : State) : State :=
  if !s.twin.awaitPub.contains bid then s
  else
    let l := s.twin.awaitPub.filter (fun b => b ≠ bid)
    let s := { s with twin.awaitPub := l }
    if l.isEmpty then
      { s with twin.recov := s.twin.recov.map (fun r => match r.fin with
          | some f => if r.kind = 5 ∧ s.tw < f then { r with fin := some s.tw } else r
          | none => r) }
    else s

/-- Apply a host-timed command whose T is known (Table 17-1); those that act at T, and a fence, wait for HOST_TIMED_EFFECT. -/
def applyEffect (d : Desc) (data : Bytes) (T : Nat) (s : State) : State :=
  match d.opcode.toNat with
  | 0x21 => shedProduct (par d 32 2) T s
  | 0x22 => restoreProduct (par d 32 2) T s
  | 0x51 => effectStart d T s
  | 0x52 => stopProgram (par d 32 1) T s
  | _ => { s with twin.timed := s.twin.timed ++ [⟨d, data, some T⟩] }

/-- A member that no longer waits for EFFECT sets T itself. -/
def releaseHeld (T : Nat) (s : State) : State :=
  let l := s.twin.timed.filter (fun x => x.t.isNone)
  l.foldl (fun s x => applyEffect x.desc x.data T s) { s with twin.timed := s.twin.timed.filter (fun x => x.t.isSome), twin.effects := [] }

/-- The member drops the role to its partner (R437). Table 17-14 has no cause for it. -/
def yieldRole (s : State) : State :=
  let f := s.drawFree 8
  roleChange .shadow f.1 (gapOver (dropPin f.2))

/-- Both pins are high: member 1 drops the role, member 0 keeps it with a closed gate (R436, R437). -/
def pinConflict (s : State) : State :=
  if s.twin.pinOut && s.twin.pinIn then (if s.member = 1 then yieldRole s else shutGate s) else s

/-- Claim the lit role (R437, R438). -/
def claim (cause : Nat) (s : State) : State :=
  let s := if cause = 2 ∧ ¬ s.twin.step then setUntrusted 2 s else s
  let s := openSwitchover s
  let s := roleChange .lit cause s
  let s := { s with
    twin.pinOut := true, twin.handover := false, twin.sendHandover := false, twin.everLit := true
    twin.equalAt := some (s.twin.equalAt.getD s.now) }
  pinConflict (releaseHeld ((s.tw + (usTicks 10000).toNat) % 2 ^ 64) s)

/-- A member may claim by itself (R437, R439). -/
def mayClaim (s : State) : Bool :=
  s.twinEn && rbit s.twin.ctl 2 && decide (s.twin.role = .shadow) && !s.twin.faulty && !s.twin.pinErr && !s.twin.pinIn

/-- A member counts as in step for the first claim (R438). -/
def firstStep (s : State) : Bool :=
  !s.twin.everLit && ((match s.twin.equalAt with
    | some a => atLeastMs (s.now - a) 100
    | none => false) || (s.twin.partner.isNone && atLeastMs (s.now - s.twin.enAt) 1))

/-- TWIN_CLAIM_TIMER (R437, R438). -/
def execTwinClaimTimer (t : Tick) (s : State) : Host.Outcome State Fault Refusal :=
  let s := s.advance t
  if mayClaim s && (s.twin.step || firstStep s) && atLeastUs (s.now - s.twin.pinLowAt) (if s.member = 0 then 200 else 400) then
    .next (claim 0 s)
  else .next s

/-- A handover flag has been received and TWIN_LIT_IN is low: claim at once (R437). -/
def handoverClaim (s : State) : State := if s.twin.handover && mayClaim s && s.twin.step then claim 1 s else s

/-- A role pin mismatch holds (R439). -/
def pinsMismatch (s : State) : Bool :=
  s.twinEn && (match s.twin.partner with
    | some p => decide (s.twin.pinIn ≠ decide (p.role = 0)) || (decide (p.role = 0) && decide (s.twin.role = .lit))
    | none => false)

/-- Follow the mismatch. -/
def noteMismatch (s : State) : State :=
  if pinsMismatch s then { s with twin.mismatchAt := some (s.twin.mismatchAt.getD s.now) }
  else { s with twin.mismatchAt := none, twin.pinErr := false }

/-- TWIN_LIT_IN_CHANGE (R436, R437, R452). The fall of the partner's pin starts a gap unless this member's gate is open; a member that is lit
already, after a forced claim over a lit partner, takes over then. -/
def execTwinLitInChange (t : Tick) (level : Bool) (s : State) : Host.Outcome State Fault Refusal :=
  let s := s.advance t
  if level = s.twin.pinIn then .next s
  else
    let s := { s with twin.pinIn := level }
    if level then
      let s := { s with twin.everLit := s.twin.everLit || s.twinEn }
      .next (noteMismatch (pinConflict (if s.twin.pinOut then s else gapOver s)))
    else
      let gap := s.twinEn && !s.twin.gate
      let s := { s with twin.pinLowAt := s.now, twin.gapAt := if gap then some s.tw else s.twin.gapAt }
      let s := if gap && s.twin.pinOut then openSwitchover s else s
      .next (noteMismatch (handoverClaim s))

/-- PIN_MISMATCH (R439). -/
def execPinMismatch (t : Tick) (s : State) : Host.Outcome State Fault Refusal :=
  let s := s.advance t
  match s.twin.mismatchAt with
  | some a =>
    if s.twinEn && !s.twin.pinErr && atLeastMs (s.now - a) 1 then
      .next (postEvent 0xA4 s.member (le 1 (b01 s.twin.pinIn) ++ le 1 ((s.twin.partner.map (·.role)).getD 0)) { s with twin.pinErr := true })
    else .next s
  | none => .next s

/-- LIT_TIMER_EXPIRY (R435, R454): the member returns as shadow, not in step. -/
def execLitTimerExpiry (t : Tick) (s : State) : Host.Outcome State Fault Refusal :=
  let s := s.advance t
  if s.twin.pinOut then .next (leaveStep (roleChange .shadow 4 (dropPin s))) else .next s

/-- TWIN_HANDOVER (R456, Table 17-13, op 0). -/
def runTwinHandover (d : Desc) (_data : Bytes) (s : State) : State :=
  match firstFail [descChk d [(32, 1)],
      need (decide (s.twin.role = .lit) && s.twin.present && s.twin.partnerStepAt.isSome) stBusy 0] with
  | some c => refuse d c s
  | none =>
    let s := { disturb s with host.deferred := s.host.deferred ++ [⟨d, .twinRole, none⟩] }
    withdraw .shadow 1 s

def execTwinHandover (t : Tick) (d : Desc) (data : Bytes) (s : State) : Host.Outcome State Fault Refusal :=
  .next (runTwinHandover d data (s.advance t))

/-- TWIN_CLAIM (R437, Table 17-13, op 1). -/
def runTwinClaim (d : Desc) (_data : Bytes) (s : State) : State :=
  match firstFail [descChk d [(32, 1)], need (s.twinEn && decide (s.twin.role = .shadow) && !s.twin.faulty) stBusy 0] with
  | some c => refuse d c s
  | none =>
    let s := { disturb s with host.deferred := s.host.deferred ++ [⟨d, .twinRole, none⟩] }
    claim 2 s

def execTwinClaim (t : Tick) (d : Desc) (data : Bytes) (s : State) : Host.Outcome State Fault Refusal :=
  .next (runTwinClaim d data (s.advance t))

/-- TWIN_MAP (R434, Table 17-13). -/
def runTwinMap (d : Desc) (data : Bytes) (s : State) : State :=
  let b := dataOf d data
  let n := par d 32 2
  match firstFail [descChk d [(32, 2)], sizeChk d (4 * n), firstFail ((List.range (2 * n)).map (fun i =>
      need (decide (fieldU b (2 * i) 2 < 1024)) stRange (2 * i)))] with
  | some c => refuse d c s
  | none => accept d { s with twin.map := (List.range n).map (fun i => (fieldU b (4 * i) 2, fieldU b (4 * i + 2) 2)) }

def execTwinMap (t : Tick) (d : Desc) (data : Bytes) (s : State) : Host.Outcome State Fault Refusal :=
  .next (runTwinMap d data (s.advance t))

/-- What a member keeps and loses when its pair is enabled or disabled (R430, R438). -/
def setPair (on : Bool) (ctl : Reg) (s : State) : State :=
  let s := { dropPin s with twin := { s.twin with
    ctl := ctl, role := if !on then .standalone else if s.twin.faulty then .faulty else .shadow, pinOut := false, gate := false
    gapAt := none, enAt := s.now, pinLowAt := s.now, partner := none, present := false, step := false, gstep := false, gcount := []
    equalAt := none, pinErr := false, mismatchAt := none, lost := false, skewTold := false, skewBadAt := none, skewGoodAt := none, skewOut := false, handover := false
    sendHandover := false, own := [], theirs := [], unsent := [], batches := [], hands := [], everLit := false, awaitPub := [], arb := none
    arbQ := [], verdicts := [], windows := [], partnerStepAt := none } }
  drivePins (if on then s else releaseHeld s.tw s)

/-- A TWIN.CTL write (R430, R460, Table 17-10). -/
def writeTwinCtl (v : Reg) (s : State) : State :=
  let v := v &&& 0x1FFFF
  let was := rbit s.twin.ctl 0
  if was && rbit v 0 then
    if (v ^^^ s.twin.ctl) &&& 0x1FFFB ≠ 0 then { s with twin.cfgErr := true } else { s with twin.ctl := v }
  else if was || rbit v 0 then setPair (rbit v 0) v s
  else { s with twin.ctl := v }

/-! ## Arbitration (R449 to R451) -/

/-- Start of millisecond `k` as a time word. -/
def msStart (k : Nat) : Nat := ceilDiv (k * tickHz) 1000

/-- Send an arbitration frame. -/
def sendArb (op : Nat) (a : Arb) (result : Nat) (s : State) : State := twinSend 2 (arbBody op a.first a.last result) s

/-- The comparison goes on (R446): the lit member compares while its partner is in step and has not been lost, a shadow while it is in step
itself; glint entries while both are glint in step. -/
def compares (s : State) (cls : Nat) : Bool :=
  let both := if s.twin.role = .lit then s.twin.present && s.twin.partnerStepAt.isSome else s.twin.step
  let pg : Bool := match s.twin.partner with
    | some p => bitOf p.health 1
    | none => false
  both && !s.twin.faulty && (decide (cls ≠ 1) || (s.twin.gstep && pg))

/-- The window of an arbitration, and what its result field carries: the subject, of a batch a free value. -/
def arbWindow (s : State) (cls subject : Nat) : Nat × Nat :=
  if cls = 0 then (msStart subject, msStart (subject + 1))
  else if cls = 1 then
    let t := match Tab.get s.glint.recent subject with
      | some p => fieldU p.body 12 8
      | none => 0
    (t, t)
  else
    let t := match s.host.staged.find? (fun p => decide (p.2.binding * 2 ^ 56 + p.2.seq % 2 ^ 56 = subject)) with
      | some p => p.2.time
      | none => 0
    (t, t)

/-- The window of an arbitration's recovery, from the mismatch for 200 ms at most (Table 17-7, R458). -/
def arbKey (cls subject : Nat) : Nat := cls * 2 ^ 64 + subject

/-- A mismatch is found: the window of its recovery opens. -/
def openArbWindow (cls subject : Nat) (s : State) : State :=
  if s.twin.recov.any (fun r => decide (r.kind = 6 ∧ r.key = arbKey cls subject) && r.live s.tw) then s
  else
    let bad := !(if s.twin.role = .lit then s.twin.present && s.twin.partnerStepAt.isSome else s.twin.step) || s.twin.faulty || s.twin.pinErr ||
      s.twin.skewOut
    openWindow 6 (arbKey cls subject) s.tw (some (s.tw + (usTicks 200000).toNat)) bad s

/-- Begin an arbitration. -/
def beginArb (a : Arb) (s : State) : State :=
  { s with twin.arb := some { a with at_ := s.now }, twin.arbs := bump 32 s.twin.arbs 1 }

/-- The lit member opens the next arbitration that waits. -/
def nextArb (s : State) : State :=
  match s.twin.arb, s.twin.arbQ with
  | none, a :: rest =>
    let s := beginArb a { s with twin.arbQ := rest }
    if s.twin.role = .lit then
      let f := s.drawFree 64
      if a.cls = 0 then sendArb 1 a f.1 f.2 else sendArb (a.cls + 1) a a.subject s
    else s
  | _, _ => s

/-- Two entries disagree (R446): a mismatch event, and at the lit member an arbitration. -/
def mismatchOn (cls subject : Nat) (s : State) : State :=
  let s := openArbWindow cls subject (postEvent 0xA2 cls (le 8 subject) { s with twin.mismatch := bump 32 s.twin.mismatch 1 })
  if s.twin.role = .lit then
    let w := arbWindow s cls subject
    nextArb { s with twin.arbQ := s.twin.arbQ ++ [⟨cls, subject, w.1, w.2, none, none, s.now⟩] }
  else s

/-- One applied hand-off run again from the channel buffer, where samples of poisoned words are gaps, with the weights that were poisoned
taken as 0; `none` when its inputs are gone. -/
def rerun (s : State) (h : Handoff) : Option Nat :=
  match schedOf s h.gen with
  | none => none
  | some r => match r.pool? h.pool with
    | none => none
    | some q => match poolPlan s q h.stroke with
      | none => none
      | some p => match relBuf s q.plan (q.chanOf h.job) p h.stroke with
        | none => none
        | some u =>
          if q.mode = 0 then some (itemHash (handBytes { h with sums := xSums q p r.sched.warm u h.job } 5)).toNat
          else some (itemHash (handBytes { h with sums := beamSums s r h.pool q p u h.job h.stroke (lostWeight h.badW) } 6)).toNat

/-- A healthy spare is left for re-runs (Table 17-4). -/
def spareHealthy (s : State) : Bool :=
  match curSched s with
  | some r => r.sched.spares.any (fun e => !(engOf s e).failed && (engOf s e).fence.isNone && !r.spared.contains e)
  | none => false

/-- The own entry of a class and subject; of a record the formed one. -/
def ownEntryOf (s : State) (cls subject : Nat) : Option DigestEntry :=
  s.twin.own.find? (fun x => decide (x.cls = cls ∧ x.subject = subject) && (decide (cls ≠ 2) || decide (x.aux % 4 = 0)))

/-- Outcome codes: 0 consistent, 1 faulty, 2 unavailable. -/
def outcomeOf (again : Option Nat) (own : Option DigestEntry) : Nat :=
  match again, own with
  | some v, some x => if v = x.digest then 0 else 1
  | _, _ => 2

/-- A stroke batch run again (Table 17-4). -/
def redoBatch (s : State) (k : Nat) : Nat :=
  let hs := Tab.getD s.twin.hands k []
  let sum := hs.foldl (fun (a : Option Nat) h => match a, rerun s h with
    | some a, some v => some ((a + v) % 2 ^ 64)
    | _, _ => none) (some 0)
  if spareHealthy s then outcomeOf sum (ownEntryOf s 0 k) else 2

/-- A record read again from staging and hashed (Table 17-4). -/
def redoRecord (s : State) (subject : Nat) : Nat :=
  let r := s.host.staged.find? (fun p => decide (p.2.binding * 2 ^ 56 + p.2.seq % 2 ^ 56 = subject))
  outcomeOf (r.map (fun p => recHash p.2.bytes)) (ownEntryOf s 2 subject)

/-- Every word that a beam reads for sample `m` is still in its history, or was a gap. -/
def historyHolds (s : State) (m : Nat) (ds : List (Nat × Int)) : Bool :=
  ds.all (fun p =>
    let h := historyOf s p.1 0
    let first := ((h.words.head?).map (·.1)).getD h.next
    let at_ : Int := (m : Int) - (p.2.toNat / 2 ^ 16 : Nat)
    decide (at_ - 2 < 0 ∨ (first : Int) ≤ at_ - 2))

/-- What a re-run of a beam has come to: its detector state, whether the event was declared at its sample, and what its publication holds. -/
structure Redo where
  det : DetSt
  rose : Bool
  stamp : Nat
  peak : Nat
  gmax : Nat
  void : Bool
  deriving DecidableEq, Repr

/-- A sample of a re-run for an event of kind `kind` declared at sample `md`, under the parameters and blanking of that time. -/
def redoStep (kind md m : Nat) (c : DetPar × Bool × Bool) (x : BeamSample) (r : Redo) : Redo :=
  let r := { r with void := r.void || (x.void && decide (md < m)) }
  if x.void || x.warm || (c.2.1 && c.2.2) then r
  else
    let d := detStep c.1 (x.y * x.y) c.2.1 c.2.2 r.det
    let on (d : DetSt) : Bool := if kind = 0 then d.onSta else d.onAbs
    let peak := peakOf c.1 d kind
    if m < md || (if kind = 0 then c.2.1 else c.2.2) then { r with det := d }
    else if m = md then ⟨d, on d && !on r.det, x.stamp, peak, x.g, false⟩
    else { r with det := d, peak := Nat.max r.peak peak, gmax := Nat.max r.gmax x.g }

/-- The detectors of a beam run again over `n` samples from index `m` on; `none` when the history no longer holds them. -/
def redoBeam (s : State) (g : GroupDesc) (org : Nat) (b : GlintBeam) (conds : List (Nat × DetPar × Bool × Bool)) (kind md : Nat) :
    Nat → Nat → Redo → Option Redo
  | 0, _, r => some r
  | n + 1, m, r =>
    let raw := rawOf (glintView s m) b
    let ds := delaysOf raw b g.rate g.ratio
    match historyHolds s m ds, conds.find? (fun c => decide (c.1 ≤ m)) with
    | true, some c => redoBeam s g org b conds kind md n (m + 1) (redoStep kind md m c.2 (beamSample s b g org m raw ds) r)
    | _, _ => none

/-- The body of a publication as a re-run gives it: stamp, peak, voids and gaps computed again, what timing and other blocks decide (the state,
the other flags) as published. -/
def Redo.body (r : Redo) (b : Bytes) : Bytes :=
  b.take 12 ++ le 8 r.stamp ++ le 4 r.peak ++ le 2 (2 * (fieldU b 24 2 / 2) + b01 r.void) ++ le 2 r.gmax

/-- A glint publication run again from the latest checkpoint before its declaration, up to the newest sample counted when it was made
(Table 17-4). -/
def redoGlint (s : State) (id : Nat) : Nat :=
  let det := id / 2 ^ 55
  let x := beamRunOf s (det / 2)
  match glintBase s, (glintBeams s)[det / 2]?, Tab.get s.glint.recent id with
  | some (g, org), some b, some pub => match (x.marks.filter (fun c => decide (c.1 < pub.md))).head? with
    | none => 2
    | some c => match redoBeam s g org b x.conds (det % 2) pub.md (pub.m - c.1) (c.1 + 1) ⟨c.2, false, 0, 0, 0, false⟩ with
      | none => 2
      | some r =>
        if r.rose then outcomeOf (some (itemHash (r.body pub.body)).toNat)
          (s.twin.own.reverse.find? (fun y => decide (y.cls = 1 ∧ y.subject = id)))
        else 1
  | _, _, _ => 2

/-- The member's own outcome (Table 17-4). -/
def ownOutcome (s : State) (a : Arb) : Nat :=
  if a.cls = 0 then redoBatch s a.subject else if a.cls = 1 then redoGlint s a.subject else redoRecord s a.subject

/-- Close the open arbitration with an agree code (R447). -/
def endArb (a : Arb) (agree : Nat) (s : State) : State :=
  let s := moveRecovery 6 (arbKey a.cls a.subject) s.tw s
  nextArb { s with
    twin.arb := none
    twin.verdicts := s.twin.verdicts ++ [(a.cls, a.subject, agree)]
    twin.windows := s.twin.windows ++ [(a.first, a.last, agree)] }

/-- The verdict on the outcomes of the lit member and the shadow (Table 17-5). -/
def verdict (a : Arb) (lit shadow : Nat) (s : State) : State :=
  let isLit := decide (s.twin.role = .lit)
  let s := postEvent 0xA3 a.cls (le 1 lit ++ le 1 shadow ++ zeros 6 ++ le 8 a.subject) s
  if lit = 1 then
    let takes := decide (shadow = 0) && (if isLit then s.twin.present && s.twin.partnerStepAt.isSome else s.twin.step)
    if !takes then endArb a 2 (setUntrusted 2 s)
    else if isLit then endArb a 2 (withdraw .faulty 3 (leaveStep { s with twin.faulty := true }))
    else endArb a 2 s
  else
    let agree := if lit = 2 then 3 else if shadow = 0 then 3 else 1
    let s := endArb a agree s
    if shadow = 1 ∧ ¬ isLit then leaveStep (roleChange .faulty 3 { s with twin.faulty := true }) else s

/-- Decide once both outcomes are there; a lost shadow counts as lost (Table 17-5). -/
def decideArb (s : State) : State :=
  match s.twin.arb with
  | none => s
  | some a =>
    let isLit := decide (s.twin.role = .lit)
    match a.own, a.partner with
    | some x, some y => if isLit then verdict a x y s else verdict a y x s
    | some x, none => if isLit && decide (x = 1) && !s.twin.present then verdict a x 2 s else s
    | _, _ => s

/-- ARBITRATION_OPEN (R449): the shadow answers with the same op and begins its own recomputation. -/
def execArbitrationOpen (t : Tick) (f : RawFrame) (s : State) : Host.Outcome State Fault Refusal :=
  let s := s.advance t
  let op := fieldU f.data 16 1
  .next (twinTake f (decide (f.kind.toNat = 2 ∧ op ≤ 3)) (fun b s =>
    if s.twin.role = .lit then s
    else
      let first := fieldU b 8 8
      let subject := if op = 1 then first * 1000 / tickHz else fieldU b 24 8
      let a : Arb := ⟨op - 1, subject, first, fieldU b 16 8, none, none, s.now⟩
      let s := openArbWindow (op - 1) subject (sendArb op a (fieldU b 24 8) s)
      nextArb { s with twin.arbQ := s.twin.arbQ ++ [a] }) s)

/-- RECOMPUTATION_DONE (R449): the member reports its outcome. -/
def execRecomputationDone (t : Tick) (s : State) : Host.Outcome State Fault Refusal :=
  let s := s.advance t
  match s.twin.arb with
  | some a =>
    if a.own.isSome then .next s
    else
      let o := ownOutcome s a
      .next (decideArb (sendArb 4 a o { s with twin.arb := some { a with own := some o } }))
  | none => .next s

/-- ARBITRATION_RESULT (R449, R450). -/
def execArbitrationResult (t : Tick) (f : RawFrame) (s : State) : Host.Outcome State Fault Refusal :=
  let s := s.advance t
  .next (twinTake f (decide (f.kind.toNat = 2 ∧ fieldU f.data 16 1 = 4)) (fun b s => match s.twin.arb with
    | some a =>
      if a.first = fieldU b 8 8 ∧ a.last = fieldU b 16 8 ∧ a.partner = none then
        decideArb { s with twin.arb := some { a with partner := some (min 2 (fieldU b 24 8)) } }
      else s
    | none => s) s)

/-- ARBITRATION_TIMEOUT (Table 17-3): no verdict within 200 ms. -/
def execArbitrationTimeout (t : Tick) (s : State) : Host.Outcome State Fault Refusal :=
  let s := s.advance t
  match s.twin.arb with
  | some a => if atLeastMs (s.now - a.at_) 200 then .next (endArb a 3 s) else .next s
  | none => .next s

/-! ## Digests (R443 to R448) -/

/-- An entry on the wire (Table 13-7). -/
def entryBytes (x : DigestEntry) : Bytes := le 1 x.cls ++ zeros 3 ++ le 4 x.aux ++ le 8 x.subject ++ le 8 x.digest

/-- Two entries are counterparts: class and subject, of a publication the state as well. -/
def counterparts (a b : DigestEntry) : Bool :=
  decide (a.cls = b.cls ∧ a.subject = b.subject) &&
    (if a.cls = 0 then true else if a.cls = 1 then decide (a.aux = b.aux) else decide (a.aux % 4 = 0 ∧ b.aux % 4 = 0))

/-- The record of an entry began before the partner came into step: it is not compared (R455). -/
def beforeStep (s : State) (x : DigestEntry) : Bool :=
  decide (x.cls = 2) && (match s.twin.partnerStepAt with
    | some a => decide (x.lo < a)
    | none => false)

/-- A record of this member has agreed with the partner's (Table 17-3); what was found of records that have left is dropped. -/
def noteAgreed (x : DigestEntry) (s : State) : State :=
  if x.cls = 2 ∧ x.aux % 4 = 0 then
    let here (v : Nat × Nat × Nat) : Bool :=
      decide (v.1 ≠ 2) || s.host.staged.any (fun p => decide (p.2.binding * 2 ^ 56 + p.2.seq % 2 ^ 56 = v.2.1))
    { s with twin.verdicts := s.twin.verdicts.filter here ++ [(2, x.subject, 1)] }
  else s

/-- Mark the entries of a class, subject and aux as compared. -/
def markCompared (x : DigestEntry) (s : State) : State :=
  let f (y : DigestEntry) : DigestEntry := if counterparts x y then { y with done := true } else y
  { s with twin.own := s.twin.own.map f, twin.theirs := s.twin.theirs.map f }

/-- Compare an own entry with its counterpart (R445, R446). -/
def compareOwn (x : DigestEntry) (s : State) : State :=
  if x.done || !compares s x.cls || beforeStep s x then s
  else match s.twin.theirs.find? (counterparts x) with
    | none => s
    | some y =>
      let s := markCompared x s
      if x.aux = y.aux ∧ x.digest = y.digest then noteAgreed x s else mismatchOn x.cls x.subject s

/-- Compare whatever has a counterpart. -/
def compareAll (s : State) : State := s.twin.own.foldl (fun s x => compareOwn x s) s

/-- DIGEST_SEND (R445): up to 340 pending entries go out, and each own entry is compared with one that the partner's frames have brought. -/
def execDigestSend (t : Tick) (s : State) : Host.Outcome State Fault Refusal :=
  let s := s.advance t
  if !s.twinEn || s.twin.unsent.isEmpty then .next s
  else
    let l := s.twin.unsent.take 340
    .next (compareAll (twinSend 1 (le 2 l.length ++ zeros 6 ++ l.flatMap entryBytes) { s with twin.unsent := s.twin.unsent.drop 340 }))

/-- The lit member has published or dropped a record: the shadow gives up its copy (R448). -/
def forgetRecord (subject : Nat) (s : State) : State :=
  match s.host.staged.find? (fun p => decide (p.2.binding * 2 ^ 56 + p.2.seq % 2 ^ 56 = subject)) with
  | none => s
  | some (id, r) =>
    let s := { s with host.staged := Tab.del s.host.staged id }
    r.outlets.foldl (fun s o =>
      let x := outletOf s o
      setOutlet o { x with queue := x.queue.filter (fun i => i ≠ id) } s) s

/-- Take one entry of the partner. -/
def takeEntry (x : DigestEntry) (s : State) : State :=
  let s := { s with twin.theirs := s.twin.theirs ++ [x] }
  if x.cls = 2 ∧ x.aux % 4 ≠ 0 then (if s.twin.role = .lit then s else forgetRecord x.subject s) else s

/-- DIGEST_FRAME (R445). -/
def execDigestFrame (t : Tick) (f : RawFrame) (s : State) : Host.Outcome State Fault Refusal :=
  let s := s.advance t
  let n := fieldU f.data 16 2
  .next (twinTake f (decide (f.kind.toNat = 1)) (fun b s =>
    let s := { s with twin.theirs := s.twin.theirs.filter (fun x => decide (s.now < x.at_ + 4 * tickHz)) }
    let l : List DigestEntry := (List.range n).map (fun i =>
      let o := 8 + 24 * i
      ⟨fieldU b o 1, fieldU b (o + 4) 4, fieldU b (o + 8) 8, fieldU b (o + 16) 8, s.now, false, 2 ^ 64⟩)
    compareAll (l.foldl (fun s x => takeEntry x s) s)) s)

/-- An entry of a class and subject that has had no counterpart for 2 s. -/
def lateEntry (s : State) (cls subject : Nat) : Option DigestEntry :=
  let bad (other : List DigestEntry) (x : DigestEntry) : Bool :=
    decide (x.cls = cls ∧ x.subject = subject) && !x.done && (decide (cls ≠ 2) || decide (x.aux % 4 = 0)) &&
      decide (2 * tickHz ≤ s.now - x.at_) && !other.any (counterparts x)
  match s.twin.own.find? (bad s.twin.theirs) with
  | some x => some x
  | none => s.twin.theirs.find? (bad s.twin.own)

/-- MIRROR_CHECK_LATE (R445): an event for a batch or a record, a mismatch for a publication. -/
def execMirrorCheckLate (t : Tick) (cls : BitVec 8) (subject : BitVec 64) (s : State) : Host.Outcome State Fault Refusal :=
  let s := s.advance t
  if !s.twinEn || !compares s cls.toNat then .next s
  else match lateEntry s cls.toNat subject.toNat with
    | none => .next s
    | some x =>
      if beforeStep s x then .next s
      else
        let s := markCompared x s
        if cls = 1 then .next (mismatchOn 1 subject.toNat s)
        else .next (postEvent 0xA5 cls.toNat (le 8 subject.toNat) { s with twin.late := bump 32 s.twin.late 1 })

/-! ## Heartbeats received (R439 to R441, R455) -/

/-- TWIN.SKEW follows a heartbeat (R441). -/
def takeSkew (time : Nat) (s : State) : State :=
  let ns := satS 32 (toNs ((s.tw : Int) - time))
  let bad := decide (20000 < ns.natAbs)
  let good := if bad then none else some (s.twin.skewGoodAt.getD s.now)
  let healed := match good with
    | some a => decide (10 * tickHz ≤ s.now - a)
    | none => false
  { s with
    twin.skew := ns
    twin.skewBadAt := if bad then some (s.twin.skewBadAt.getD s.now) else none
    twin.skewGoodAt := good
    twin.skewTold := s.twin.skewTold && bad
    twin.skewOut := s.twin.skewOut && !healed }

/-- The configuration digests are equal, or are not (R438, R455). A lit member's digest equals its own. -/
def takeEqual (digest : Nat) (s : State) : State :=
  if s.twin.role = .lit then s
  else if digest = configDigest s then { s with twin.equalAt := some (s.twin.equalAt.getD s.now) }
  else { leaveStep s with twin.equalAt := none }

/-- TWIN_HEARTBEAT (R437, R439 to R441). -/
def execTwinHeartbeat (t : Tick) (f : RawFrame) (s : State) : Host.Outcome State Fault Refusal :=
  let s := noteActs (s.advance t)
  .next (twinTake f (decide (f.kind.toNat = 0)) (fun b s =>
    let p : Partner := ⟨fieldU b 0 1, fieldU b 1 1, fieldU b 2 2, fieldU b 4 4, s.now⟩
    let again := s.twin.lost
    let s := { s with
      twin.partner := some p, twin.present := true, twin.lost := false
      twin.partnerStepAt := if bitOf p.health 0 && !bitOf p.health 2 then some (s.twin.partnerStepAt.getD s.tw) else none
      twin.everLit := s.twin.everLit || decide (p.role = 0)
      twin.sendHandover := s.twin.sendHandover && decide (p.role ≠ 0)
      twin.handover := bitOf p.flags 0 || (s.twin.handover && decide (p.role ≠ 0)) }
    let s := if again then postEvent 0xA1 s.member [1] s else s
    let s := takeEqual p.digest (takeSkew (fieldU b 8 8) s)
    handoverClaim (noteMismatch s)) s)

/-- PARTNER_LOST (R440): 10 heartbeats in a row have failed to arrive since the latest one, or since EN was set. -/
def execPartnerLost (t : Tick) (s : State) : Host.Outcome State Fault Refusal :=
  let s := s.advance t
  let last := ((s.twin.partner.map (·.at_)).getD s.twin.enAt)
  if s.twinEn && !s.twin.lost && atLeastMs (s.now - last) 1 then
    .next (decideArb (postEvent 0xA1 s.member [0] { s with twin.lost := true, twin.present := false, twin.partnerStepAt := none }))
  else .next s

/-- TIME_SKEW (R441): once for each excess of 1 s. -/
def execTimeSkew (t : Tick) (s : State) : Host.Outcome State Fault Refusal :=
  let s := s.advance t
  match s.twin.skewBadAt with
  | some a =>
    if s.twinEn && !s.twin.skewTold && decide (tickHz ≤ s.now - a) then
      .next (postEvent 0xA7 s.member (leS 4 s.twin.skew) { s with twin.skewOut := true, twin.skewTold := true, twin.skewGoodAt := none })
    else .next s
  | none => .next s

/-- IN_STEP (R455): the digest has equalled the lit member's for 100 ms. -/
def execInStep (t : Tick) (s : State) : Host.Outcome State Fault Refusal :=
  let s := s.advance t
  let litThere := decide (s.twin.role = .lit) || (s.twin.present && (match s.twin.partner with
    | some p => decide (p.role = 0)
    | none => false))
  match s.twin.equalAt with
  | some a =>
    if s.twinEn && !s.twin.faulty && !s.twin.step && litThere && atLeastMs (s.now - a) 100 then
      .next (gstepCheck (stepEvent { s with twin.step := true, twin.stepAt := s.tw, twin.gcount := [] }))
    else .next s
  | none => .next s

/-! ## The end of the gap (R436, R451 to R453) -/

/-- The partner's latest published state of an event. -/
def theirState (s : State) (id : Nat) : Option Nat :=
  ((s.twin.theirs.filter (fun x => decide (x.cls = 1 ∧ x.subject = id))).getLast?).map (·.aux)

/-- This member has declared an event: published it, or has used its number (R184). -/
def declaredHere (s : State) (id : Nat) : Bool :=
  decide (id % 2 ^ 55 < (detOf s (id / 2 ^ 55)).seq) || s.twin.own.any (fun x => decide (x.cls = 1 ∧ x.subject = id)) ||
    s.glint.dets.toList.any (fun d => match d.ev with
      | some e => decide (e.id = id)
      | none => false)

/-- This member has confirmed an event. -/
def confirmedHere (s : State) (id : Nat) : Bool :=
  s.twin.own.any (fun x => decide (x.cls = 1 ∧ x.subject = id ∧ (x.aux = 2 ∨ x.aux = 4))) || (match (detOf s (id / 2 ^ 55)).ev with
    | some e => decide (e.id = id ∧ e.st = .confirmed)
    | none => false)

/-- Publish a state of an event that the other member published; what this member does not know of it is a free value. -/
def publishFor (code id : Nat) (s : State) : State :=
  let det := id / 2 ^ 55
  let p := match Tab.get s.glint.recent id, (detOf s det).ev with
    | some r, _ => (le 1 code ++ r.body.drop 1, s)
    | none, some e =>
      if e.id = id then (glintBody s det code e, s)
      else let f := s.drawFree 128; (le 1 code ++ le 1 (det % 2) ++ le 2 (det / 2) ++ le 8 id ++ le 16 f.1, f.2)
    | none, none => let f := s.drawFree 128; (le 1 code ++ le 1 (det % 2) ++ le 2 (det / 2) ++ le 8 id ++ le 16 f.1, f.2)
  let at_ := (Tab.get s.glint.recent id).map (fun r => (r.md, r.m))
  sendPublication code id none p.1 (at_.getD (0, 0)).1 (at_.getD (0, 0)).2 p.2

/-- The incoming lit member reconciles the glint events of both members (R451). `since` is the instant at which the gap began. -/
def reconcile (since : Nat) (s : State) : State :=
  let theirs := ((s.twin.theirs.filter (fun x => decide (x.cls = 1))).map (·.subject)).eraseDups
  let mine := ((s.twin.own.filter (fun x => decide (x.cls = 1 ∧ x.at_ < since ∧ s.now < x.at_ + 4 * tickHz) && !x.done)).map (·.subject)).eraseDups
  let s := theirs.foldl (fun s id => match theirState s id with
    | some 1 => if declaredHere s id then s else publishFor 3 id s
    | some 2 => if confirmedHere s id then s else setUntrusted 3 (publishFor 4 id s)
    | _ => s) s
  mine.foldl (fun s id =>
    if (theirState s id).isSome then s
    else match Tab.get s.glint.recent id with
      | some r => sendPublication (fieldU r.body 0 1) id none r.body r.md r.m s
      | none => s) s

/-- TWIN_GATE_OPEN (R436, R452, R453): the gate opens and a gap ends. -/
def execTwinGateOpen (t : Tick) (s : State) : Host.Outcome State Fault Refusal :=
  let s := s.advance t
  if !s.twinEn || s.twin.gate || !s.twin.pinOut || s.twin.pinIn || decide (s.twin.role ≠ .lit) then .next s
  else match s.twin.gapAt with
    | none => .next (drivePins { s with twin.gate := true })
    | some g =>
      let since := gapInstant s
      let pubs := s.glint.gapPubs
      let s := { s with twin.gate := true, twin.gapAt := none, tx.gap := some (g, s.tw), glint.gapPubs := [] }
      let s := pubs.foldl (fun s b => triggerOut b.1 b.2 s) s
      .next (drivePins (reconcile since s))

/-! ## Host-timed commands (R442) -/

/-- EFFECT_FRAME (R442): the shadow applies its copy of a host-timed command at the lit member's effect point; it leaves step when that has
passed. -/
def execEffectFrame (t : Tick) (f : RawFrame) (s : State) : Host.Outcome State Fault Refusal :=
  let s := s.advance t
  .next (twinTake f (decide (f.kind.toNat = 2 ∧ fieldU f.data 16 1 = 5)) (fun b s =>
    if s.twin.role = .lit then s
    else
      let T := fieldU b 8 8
      let key := fieldU b 24 8
      match s.twin.timed.find? (fun x => x.t.isNone && decide (effectKey x.desc = key)) with
      | none => { s with twin.effects := s.twin.effects ++ [(key, T)] }
      | some x =>
        let s := { s with twin.timed := s.twin.timed.filter (fun y => decide (y.desc.index ≠ x.desc.index)) }
        applyEffect x.desc x.data T (if T < s.tw then leaveStep s else s)) s)

/-- HOST_TIMED_EFFECT (R442, Table 17-1): pin-clear and load-watch clear act at T, a fence at its slot. -/
def execHostTimedEffect (t : Tick) (index : BitVec 32) (s : State) : Host.Outcome State Fault Refusal :=
  let s := s.advance t
  match s.twin.timed.find? (fun x => decide (x.desc.index = index)) with
  | none => .next s
  | some x => match x.t with
    | none => .next s
    | some T =>
      let done := { s with twin.timed := s.twin.timed.filter (fun y => decide (y.desc.index ≠ index)) }
      if x.desc.opcode.toNat = 0x81 then
        .next (if fenceNow s (par x.desc 32 1) T then hostFence (par x.desc 32 1) done else s)
      else if s.tw < T then .next s
      else if x.desc.opcode.toNat = 0x44 then .next (clearPins (par x.desc 32 1) done)
      else .next (clearMute (par x.desc 32 2) done)

end Sys2Proof.Machine
end

