-- ==== Sys2Proof/Machine/Host.lean ====
section
/-!
DEFINITION. The host interface below the command ring (15_host_interface.md): outlets, records, trailers and loss records (R387 to R394,
R447), write jobs (R401, R402), source rings (R395, R396), interrupts (R404), the link (R369, R371), events and the status block.
-/
namespace Sys2Proof.Machine

/-- The code of a DMA cause (R403). -/
def dmaCode : DmaCause → Nat
  | .unsupported => 1
  | .abort => 2
  | .timeout => 3
  | .poisoned => 4
  | .mismatch => 5

/-! ## Agreement (R447, Table 17-3) -/

/-- The digest subject of a record. -/
def recSubject (r : Staged) : Nat := r.binding * 2 ^ 56 + r.seq % 2 ^ 56

/-- The frame of a plan whose stamp is nearest to a time word. -/
def frameNear (p : Plan) (tw : Nat) : Nat :=
  (roundDiv (((tw : Int) - p.t0) * p.rate) (max 1 (p.hop * p.ratio) * tickHz : Nat)).toNat

/-- The deadlines of the engine-strokes that fed a record, first and last: those of its pool in the strokes of its span. -/
def feedWindow (s : State) (r : Staged) : Nat × Nat :=
  let pools : List (SchedRun × Nat × Pool) := match Tab.get s.host.bindings r.binding with
    | some b => if b.cls = 0 ∨ b.cls = 2 ∨ b.cls = 3 then
        s.corr.scheds.filterMap (fun x => (x.pool? b.source).map (fun q => (x, b.source, q))) else []
    | none => []
  match pools.getLast? with
  | none => (r.spanLo, r.spanHi)
  | some (x, k, q) => match planAt s q.plan q.activate with
    | none => (r.spanLo, r.spanHi)
    | some p =>
      let i0 := frameNear p r.spanLo / max 1 q.stroke
      let i1 := frameNear p r.spanHi / max 1 q.stroke
      let es := x.sched.entries.filter (fun e => decide (e.pool = k))
      let lo := es.foldl (fun (a : Int) e => min a (deadlineOf s q e (i0, 0))) (2 ^ 64)
      let hi := es.foldl (fun (a : Int) e => max a (deadlineOf s q e (i1, e.count - 1))) r.spanHi
      (lo.toNat, hi.toNat)

/-- A window of an arbitration or verdict touches a record's. -/
def touches (w : Nat × Nat) (first last : Nat) : Bool := decide (first ≤ w.2 ∧ w.1 ≤ last)

/-- The agree code of a record, `none` while it is not final (Table 17-3). -/
def agreeCode (s : State) (r : Staged) : Option Nat :=
  let partnerOk := s.twin.present && (match s.twin.partner with
    | some p => !bitOf p.health 2
    | none => false)
  match s.twin.partnerStepAt with
  | none => some 0
  | some at_ =>
    if [0x01, 0x50, 0x60, 0x70].contains r.kind || !s.twinEn || !partnerOk || decide (r.spanLo < at_) then some 0
    else
      let w := feedWindow s r
      let mine (cls subject first last : Nat) : Bool := decide (cls = 2 ∧ subject = recSubject r) || touches w first last
      if (s.twin.arb.toList ++ s.twin.arbQ).any (fun a => mine a.cls a.subject a.first a.last) then none
      else
        let codes := (s.twin.verdicts.filter (fun v => decide (v.1 = 2 ∧ v.2.1 = recSubject r))).map (·.2.2) ++
          (s.twin.windows.filter (fun v => touches w v.1 v.2.1)).map (·.2.2)
        if codes.contains 2 then some 2 else if codes.contains 3 then some 3 else if codes.contains 1 then some 1
        else
          let theirs := s.twin.theirs.filter (fun x => decide (x.cls = 2 ∧ x.subject = recSubject r ∧ x.aux % 4 = 0))
          if theirs.any (fun x => decide (x.digest = recHash r.bytes)) then some 1
          else if theirs.isEmpty && decide (2 * tickHz ≤ s.now - r.at_) then some 3
          else none

/-! ## Records as they leave (R387 to R394) -/

/-- The trailer of a record (Table 15-10). -/
def trailer (bytes : Bytes) (agree : Nat) (untrusted resent : Bool) : Bytes :=
  le 4 (crc32c bytes).toNat ++ le 1 agree ++ le 1 (b01 untrusted + 2 * b01 resent) ++ zeros 2 ++ le 8 (fieldU bytes 8 8) ++
    le 4 (fieldU bytes 4 4) ++ le 2 (fieldU bytes 0 2) ++ zeros 10

/-- Trust bit 0 of a record when its trailer is written (R361, R363, R458). -/
def trustBit (s : State) (r : Staged) : Bool := r.untrusted || spanUntrusted s r.spanLo r.spanHi

/-- A loss record's header and body (R394, Table 15-12). -/
def lossBytes (s : State) (l : Loss) : Bytes :=
  recHeader 1 l.binding 128 l.lastSeq s.tw s.chip 0xFFFF ++ le 4 l.dropped ++ le 4 l.causes ++ le 8 l.firstSeq ++ le 8 l.firstTime ++
    le 4 l.bindings.length ++ zeros 4

/-- A pad record (R390). -/
def padBytes (s : State) (binding len : Nat) : Bytes :=
  let h := le 2 0 ++ [1] ++ le 1 binding ++ le 4 len ++ le 8 (2 ^ 64 - 1) ++ le 8 s.tw ++ le 2 s.chip ++ le 2 0xFFFF
  h ++ le 4 (crc32c h).toNat ++ zeros 32

/-- What an outlet takes next: the record that a pad has been written for (R390); otherwise its loss record, then the head of its queue. -/
def nextTaking (x : OutletState) : Option Taking :=
  match x.pinned.filter (fun id => x.queue.contains id), x.loss, x.queue with
  | some id, _, _ => some (.record id)
  | none, some l, _ => some (.loss l)
  | none, none, id :: _ => some (.record id)
  | none, none, [] => none

/-- Take it off the outlet. -/
def takeOff (w : Taking) (x : OutletState) : OutletState :=
  match w with
  | .loss _ => { x with loss := none, failed := Tab.del x.failed 0 }
  | .record id => { x with queue := x.queue.filter (fun i => i ≠ id), pinned := none, failed := Tab.del x.failed (id + 1) }
  | .pad => x

/-- What an outlet writes begins, with the failures it has met before it was abandoned (R402). -/
def begin_ (w : Taking) (phase : Phase) (bytes : Bytes) (offset agree : Nat) (x : OutletState) : Active :=
  let n := Tab.getD x.failed w.key 0
  ⟨w, phase, bytes, offset, n, decide (0 < n), agree⟩

/-- Header and body, and the binding, of what an outlet takes. -/
def takenBytes (s : State) (w : Taking) : Bytes × Nat :=
  match w with
  | .loss l => (lossBytes s l, l.binding)
  | .record id => match Tab.get s.host.staged id with
    | some r => (r.bytes, r.binding)
    | none => ([], 0)
  | .pad => ([], 0)

/-- Producer byte offset of a product ring. -/
def prodOf (s : State) (r : Nat) : Nat := (vget s.host.prodProd r 0).toNat

/-- Bytes of a product ring up to `off` bytes past its producer offset are free at the latest poll (R378). -/
def ringFree (s : State) (r off : Nat) : Bool :=
  decide (prodOf s r + off ≤ (vget s.host.db.prodCons r 0).toNat + ringSize s (r + 3))

/-- The ring offset that a record of `n` bytes with its trailer takes. -/
def stride (n : Nat) : Nat := 64 * ceilDiv n 64

/-! ## DMA channels (R397, R398) -/

/-- The DMA channel of a product or source ring (Table 15-16). -/
def ringChannel (s : State) (ring : Nat) : Nat := fld (ringCfgOf s ring) 13 5

/-- Ring bytes of a source ring that a poll has shown and no read has taken. -/
def srcAvail (s : State) (r : Nat) : Nat := (vget s.host.db.srcProd r 0).toNat - ((srcRingOf s r).base + (srcRingOf s r).read)

/-- The bytes that a product ring must have free for the next record of its outlet, with the pad ahead of it where it needs one. -/
def takeNeeds (s : State) (r size : Nat) : Nat :=
  let room := ringSize s (r + 3) - prodOf s r % ringSize s (r + 3)
  if room < size then room + stride size else stride size

/-- A record is larger than half the ring that takes it (R393). -/
def tooLarge (s : State) (ring : Nat) (w : Taking) : Bool :=
  match w with
  | .record id => decide (ringSize s ring / 2 < ((Tab.get s.host.staged id).map Staged.length).getD 0)
  | _ => false

/-- A product or source ring has a record or a read for its channel; one that the ring drops for its size needs no room. -/
def wantsDma (s : State) (ring : Nat) : Bool :=
  ringEn s ring && (if h : ring - 3 < 64 then
    let x := outletOf s (.ring ⟨ring - 3, h⟩)
    x.active.isNone && (match nextTaking x with
      | some w => tooLarge s ring w || ringFree s (ring - 3) (takeNeeds s (ring - 3) ((takenBytes s w).1.length + 32))
      | none => false)
  else decide (2 ≤ srcAvail s (ring - 67)))

/-- A channel carries a write that is not confirmed: one record at a time (R397). -/
def dmaBusy (s : State) (c : Nat) : Bool :=
  s.host.outlets.any (fun p => decide (p.1 < 64 ∧ ringChannel s (p.1 + 3) = c) && (match p.2.active with
    | some a => decide (a.phase ≠ .bodyConfirmed)
    | none => false))

/-- It is a ring's turn on its channel: round-robin by ring, after the ring served last (R397). -/
def dmaTurn (s : State) (ring : Nat) : Bool :=
  let c := ringChannel s ring
  let l := ((List.range 96).map (· + 3)).filter (fun k => decide (ringChannel s k = c) && wantsDma s k)
  let after := match Tab.get s.host.dmaLast c with
    | some k => l.find? (fun x => decide (k < x))
    | none => none
  decide ((after <|> l.head?) = some ring)

/-- The channel's bursts are far enough apart (R398). -/
def dmaReady (s : State) (c : Nat) : Bool := decide (Tab.getD s.host.dmaNext c 0 ≤ s.now)

/-- A ring may start a record or a read. -/
def dmaOpen (s : State) (ring : Nat) : Bool :=
  dmaReady s (ringChannel s ring) && !dmaBusy s (ringChannel s ring) && dmaTurn s ring

/-- SHARE of a channel; 0 is treated as 256 (Table 15-18). -/
def dmaShare (s : State) (c : Nat) : Nat :=
  let x := fld (vget s.host.dmaCh c 0) 0 9
  if x = 0 then 256 else x

/-- Ticks that `b` bytes keep a channel (R370, R398): 256·b ÷ (s·R), with R = width × rate × 128 ÷ 130. SHARE 256 spaces nothing. -/
def dmaSpace (s : State) (c b : Nat) : Nat :=
  if 256 ≤ dmaShare s c then 0
  else ceilDiv (256 * 8 * b * 130 * tickHz) (dmaShare s c * max 1 s.host.width * (1000000000 * 2 ^ s.host.gen) * 128)

/-- A channel has moved `b` bytes. -/
def dmaSpend (ring b : Nat) (s : State) : State :=
  let c := ringChannel s ring
  { s with host.dmaNext := Tab.put s.host.dmaNext c (max s.now (Tab.getD s.host.dmaNext c 0) + dmaSpace s c b) }

/-- A channel serves a ring: its turn passes on. -/
def dmaServe (ring b : Nat) (s : State) : State :=
  dmaSpend ring b { s with host.dmaLast := Tab.put s.host.dmaLast (ringChannel s ring) ring }

/-- A record is dropped at an outlet that was to take it, and joins the outlet's loss record (R394). -/
def dropTaken (o : Outlet) (id cause : Nat) (s : State) : State :=
  match Tab.get s.host.staged id with
  | none => s
  | some r =>
    let x := outletOf s o
    let s := setOutlet o { takeOff (.record id) x with active := none } s
    let s := releaseStaged id o (dropAt o r.binding r.seq r.time cause s)
    if Tab.has s.host.staged id then s else digestPhase r.binding r.seq 2 0 r.bytes s

/-- Take the next record into a product ring: a pad first where it would cross the end, which names the binding of what then follows it,
otherwise its header and body (R388, R390, R393). -/
def takeIntoRing (o : Outlet) (r : Nat) (w : Taking) (s : State) : State :=
  let x := outletOf s o
  let (bytes, bid) := takenBytes s w
  let size := bytes.length + 32
  let at_ := prodOf s r
  let room := ringSize s (r + 3) - at_ % ringSize s (r + 3)
  if room < size then
    if !ringFree s r (room + stride size) then s
    else
      let b := padBytes s bid room
      let a : Active := ⟨.pad, .body, b, at_, 0, false, 0⟩
      let p := match w with
        | .record id => some id
        | _ => none
      startJob (.body o) [⟨ringAddr s (r + 3) at_, b⟩] [] (setOutlet o { x with active := some a, pinned := p } (dmaSpend (r + 3) b.length s))
  else if !ringFree s r (stride size) then s
  else
    let a := begin_ w .body bytes at_ 0 x
    startJob (.body o) [⟨ringAddr s (r + 3) at_, bytes⟩] []
      (setOutlet o { takeOff w x with active := some a } (dmaServe (r + 3) bytes.length s))

/-- Send the segments of a record on a quad as far as credit goes (R317, R319): bytes sent so far, and the state. `fuel` bounds the
segments. -/
def sendSegments (q bid : Nat) (rec_ : Bytes) : Nat → Nat → State → Nat × State
  | 0, off, s => (off, s)
  | k + 1, off, s =>
    if rec_.length ≤ off then (off, s)
    else
      let part := (rec_.drop off).take 8176
      let n := 2 + ceilDiv part.length 8
      let u := quadOf s q
      if creditLeft u 0 < credits n then (off, s)
      else
        let o : Outlet := .quad ⟨q % 16, Nat.mod_lt _ (by decide)⟩
        let x := outletOf s o
        let seq := Tab.getD x.fseq bid 0
        let last := decide (rec_.length ≤ off + part.length)
        let data := le 1 bid ++ le 1 (b01 (decide (off = 0)) + 2 * b01 last) ++ zeros 2 ++ le 4 seq ++ le 4 off ++ le 4 part.length ++ part
        let s := setOutlet o { x with fseq := Tab.put x.fseq bid ((seq + 1) % 2 ^ 32) } s
        let s := emitOn q (.frame (mkFrame (quadRole s q) 0 data)) (setQuad q (useCredit u 0 (credits n)) s)
        sendSegments q bid rec_ k (off + part.length) s

/-- A record has left an outlet whole (R388, Table 17-2). -/
def doneRecord (o : Outlet) (w : Taking) (agree : Nat) (s : State) : State :=
  match w with
  | .record id => match Tab.get s.host.staged id with
    | some r => published r.binding (releaseStaged id o (digestPhase r.binding r.seq 1 agree r.bytes s))
    | none => s
  | _ => s

/-- Go on with the record that a quad is sending. -/
def quadSend (o : Outlet) (q : Nat) (s : State) : State :=
  let x := outletOf s o
  match x.active with
  | none => s
  | some a =>
    let (off, s) := sendSegments q (fieldU a.bytes 3 1) a.bytes (a.bytes.length / 8176 + 1) a.offset s
    let x := outletOf s o
    if a.bytes.length ≤ off then doneRecord o a.what a.agree (setOutlet o { x with active := none } s)
    else setOutlet o { x with active := some { a with offset := off } } s

/-- Begin a record on a quad: its trailer goes with it, so its agreement must be final (R388, R447). -/
def takeOntoQuad (o : Outlet) (q : Nat) (w : Taking) (s : State) : State :=
  let x := outletOf s o
  let (bytes, _) := takenBytes s w
  let fin : Option (Nat × Bool) := match w with
    | .record id => (Tab.get s.host.staged id).bind (fun r => (agreeCode s r).map (fun c => (c, trustBit s r)))
    | _ => some (0, s.host.untrusted.getLsbD 0)
  match fin with
  | none => s
  | some (agree, bad) =>
    let a : Active := ⟨w, .body, bytes ++ trailer bytes agree bad false, 0, 0, false, agree⟩
    quadSend o q (setOutlet o { takeOff w x with active := some a } s)

/-- OUTLET_TAKE_RECORD (R28, R363, R388, R392, R393, R397; no record after a trip, R418): a record larger than half its ring is dropped; the outlet takes its next record, a ring when it is its turn on its channel, or
goes on with the one it sends on a quad. -/
def execOutletTakeRecord (t : Tick) (o : Outlet) (ecc : List Ecc) (s : State) : Host.Outcome State Fault Refusal :=
  let s := s.advance t
  let x := outletOf s o
  let open_ := s.emits && !s.mgmt.trip && (match o with
    | .ring r => s.host.running && dmaOpen s (r.val + 3)
    | .quad q => (quadHas s q.val 6 || quadHas s q.val 7) && (quadOf s q.val).up)
  if !open_ then .next s
  else match x.active, o with
    | some _, .quad q => .next (quadSend o q.val s)
    | some _, .ring _ => .next s
    | none, _ => match nextTaking x with
      | none => .next s
      | some w =>
        let fromHbm := match w with
          | .record _ => true
          | _ => false
        let n := match w with
          | .record id => ((Tab.get s.host.staged id).map Staged.size).getD 0 / 32
          | _ => 0
        let ecc := if fromHbm then regionSeen s 2 0 n ecc else ecc
        let s := if fromHbm then eccRead 4 2 ecc s else s
        let large := match o with
          | .ring r => tooLarge s (r.val + 3) w
          | .quad _ => false
        match w, large, fromHbm && poisonedIn ecc with
        | .record id, true, _ => .next (dropTaken o id 1 s)
        | .record id, false, true => .next (dropTaken o id 2 s)
        | _, _, _ => match o with
          | .ring r => .next (takeIntoRing o r.val w s)
          | .quad q => .next (takeOntoQuad o q.val w s)

/-- Write the trailer of the record an outlet has in its ring. -/
def writeTrailer (o : Outlet) (r : Nat) (a : Active) (agree : Nat) (bad : Bool) (s : State) : State :=
  let x := outletOf s o
  let a := { a with phase := .trailer, agree := agree }
  startJob (.trailer o) [⟨ringAddr s (r + 3) (a.offset + a.bytes.length), trailer a.bytes agree bad a.resent⟩] []
    (setOutlet o { x with active := some a } (dmaSpend (r + 3) 32 s))

/-- The agree code and trust bit 0 with which a record's trailer is written, once final. -/
def trailerCodes (s : State) (w : Taking) : Option (Nat × Bool) :=
  match w with
  | .record id => (Tab.get s.host.staged id).bind (fun y => (agreeCode s y).map (fun c => (c, trustBit s y)))
  | _ => some (0, s.host.untrusted.getLsbD 0)

/-- TRAILER_WRITE (R388, R447); no record after a trip (R418). -/
def execTrailerWrite (t : Tick) (o : Outlet) (s : State) : Host.Outcome State Fault Refusal :=
  let s := s.advance t
  match o, (outletOf s o).active with
  | .ring r, some a =>
    if a.phase ≠ .bodyConfirmed || !s.host.running || !s.emits || s.mgmt.trip || !dmaReady s (ringChannel s (r.val + 3)) then .next s
    else match trailerCodes s a.what with
      | some (agree, bad) => .next (writeTrailer o r.val a agree bad s)
      | none => .next s
  | _, _ => .next s

/-! ## Write jobs (R401, R402, R404) -/

/-- One published item reaches the host: its latency, and its interrupt; a glint publication fires at once. -/
def itemVisible (glint : Bool) (i : Item) (s : State) : State :=
  let s := monSample 4 i.ring (toNs ((s.now : Int) - i.at_)) s
  match i.vec with
  | none => s
  | some v => if glint && decide (i.ring = 2) then msixFire v s else msixSignal s v

/-- A product ring outlet's pad or record is confirmed. -/
def confirmRing (o : Outlet) (trailerDone : Bool) (s : State) : State :=
  let x := outletOf s o
  match o, x.active with
  | .ring r, some a =>
    let adv (n : Nat) (s : State) : State := { s with host.prodProd := vset s.host.prodProd r.val (BitVec.ofNat 64 (prodOf s r.val + n)) }
    match a.what, trailerDone with
    | .pad, _ => adv (fieldU a.bytes 4 4) (setOutlet o { x with active := none } s)
    | _, false => setOutlet o { x with active := some { a with phase := .bodyConfirmed } } s
    | w, true =>
      let since := match w with
        | .record id => ((Tab.get s.host.staged id).map (·.at_)).getD s.now
        | _ => s.now
      let s := adv (stride (a.bytes.length + 32)) (setOutlet o { x with active := none } s)
      let s := { s with host.unpub := s.host.unpub ++ [⟨some (ringVec s (r.val + 3)), r.val + 3, since⟩] }
      doneRecord o w a.agree s
  | _, _ => s

/-- A write job is confirmed. -/
def confirmJob (j : WriteJob) (s : State) : State :=
  let glint := match j.kind with
    | .events _ g => g
    | _ => false
  let s := j.items.foldl (fun s i => itemVisible glint i s) s
  match j.kind with
  | .result _ =>
    flushOwed { s with host.owed := match s.host.owed with
      | c :: l => { c with result := none } :: l
      | [] => [] }
  | .body o => confirmRing o false s
  | .trailer o => confirmRing o true s
  | _ => s

/-- Post a dma-error event (Table 15-8, R402). -/
def dmaError (subject : Nat) (cause : DmaCause) (seq : Nat) (s : State) : State :=
  postEvent 0xC0 subject (le 1 (dmaCode cause) ++ zeros 3 ++ le 8 seq) s

/-- Put a job back, its bytes written again. -/
def resendJob (id : Nat) (j : WriteJob) (s : State) : State := hostWrite j.writes { s with host.jobs := Tab.put s.host.jobs id j }

/-- The write of a record or trailer has failed: it is sent again whole with trust bit 1, and dropped at the fourth failure. -/
def failRecord (id : Nat) (j : WriteJob) (o : Outlet) (cause : DmaCause) (s : State) : State :=
  let x := outletOf s o
  match o, x.active with
  | .ring r, some a =>
    let a := { a with fails := a.fails + 1, resent := true }
    match a.what, decide (4 ≤ a.fails) with
    | .record rid, true => dmaError (r.val + 3) cause (fieldU a.bytes 8 8) (dropTaken o rid 3 s)
    | _, full =>
      let s := if full && decide (a.fails % 4 = 0) then dmaError (r.val + 3) cause (fieldU a.bytes 8 8) s else s
      let s := dmaSpend (r.val + 3) ((j.writes.map (fun w => w.bytes.length)).sum) (setOutlet o { x with active := some a } s)
      if a.phase = .trailer then
        let sent := j.writes.any (fun w => bitOf (fieldU w.bytes 5 1) 0)
        let bad := ((trailerCodes s a.what).map (·.2)).getD sent
        resendJob id { j with
          fails := j.fails + 1, writes := j.writes.map (fun w => { w with bytes := trailer a.bytes a.agree (bad || sent) true }) } s
      else resendJob id { j with fails := j.fails + 1 } s
  | _, _ => s

/-- The subject of a dma-error event for a job that is no record. -/
def jobRing (k : JobKind) : Nat :=
  match k with
  | .completions _ => 1
  | .events _ _ => 2
  | .result _ => 0
  | _ => 0xFFFFFFFF

/-- The bit of the AER uncorrectable status that a failed read-back sets in the requester (Table 15-1; PRESUMED from PCIe, log entry 131): a
poisoned completion or a completion timeout. -/
def aerBit (c : DmaCause) : BitVec 32 :=
  match c with
  | .poisoned => 0x1000
  | .timeout => 0x4000
  | _ => 0

/-- WRITE_JOB_READBACK (R401, R402). -/
def execWriteJobReadback (t : Tick) (job : Nat) (result : Option DmaCause) (s : State) : Host.Outcome State Fault Refusal :=
  let s := s.advance t
  match Tab.get s.host.jobs job, result with
  | none, _ => .next s
  | some j, none => if s.host.running then .next (confirmJob j { s with host.jobs := Tab.del s.host.jobs job }) else .next s
  | some j, some cause =>
    if !s.host.running then .next s
    else
      let s := { s with host.jobs := Tab.del s.host.jobs job, host.aer := s.host.aer ||| aerBit cause }
      match j.kind with
      | .body o => .next (failRecord job j o cause s)
      | .trailer o => .next (failRecord job j o cause s)
      | k =>
        let s := resendJob job { j with fails := j.fails + 1 } s
        .next (if (j.fails + 1) % 4 = 0 then dmaError (jobRing k) cause (2 ^ 64 - 1) s else s)

/-! ## Status block, events, interrupts -/

/-- STATUS_BLOCK_REFRESH (R374): 10 ms without a rewrite. -/
def execStatusBlockRefresh (t : Tick) (s : State) : Host.Outcome State Fault Refusal :=
  let s := noteActs (s.advance t)
  .next (if atLeastMs (s.now - s.host.sbAt) 10 then statusWrite s else s)

/-- Write queued events as far as the ring has room. -/
def drainN : Nat → State → State
  | 0, s => s
  | k + 1, s =>
    match s.host.evQueue with
    | [] => s
    | e :: l => if evtRoom s then drainN k (writeEvent e { s with host.evQueue := l }) else s

/-- The events-lost event (R386). -/
def lostEvent (s : State) : Ev := ⟨1, le 4 0 ++ le 8 s.tw ++ evArgs (le 4 s.host.evLost), s.now⟩

/-- EVENT_QUEUE_DRAIN (R386): the events-lost event first, then the queued events. -/
def execEventQueueDrain (t : Tick) (s : State) : Host.Outcome State Fault Refusal :=
  let s := s.advance t
  if !evtRoom s then .next s
  else
    let s := if s.host.evLost = 0 then s
      else
        let e := lostEvent s
        writeEvent e (noteLog (.event e) { s with host.evLost := 0 })
    .next (drainN s.host.evQueue.length s)

/-- MSIX_TIMER_EXPIRY (R404): a message is a write to the host, so the link must run (R369, R371). -/
def execMsixTimerExpiry (t : Tick) (v : Fin 64) (s : State) : Host.Outcome State Fault Refusal :=
  let s := s.advance t
  match (vget s.host.msix v.val ⟨0, none, 0⟩).since with
  | some a =>
    if s.host.running ∧ msixTime s v.val ≠ 0 ∧ atLeastUs (s.now - a) (msixTime s v.val) then .next (msixFire v.val s) else .next s
  | none => .next s

/-! ## Source rings (R395, R396) -/

/-- SOURCE_RING_READ (R396, R397): when it is the ring's turn on its channel: whole samples, at most 4,096 B and as far as the observed src_prod; a read that failed leaves its samples
absent. -/
def execSourceRingRead (t : Tick) (ring : Fin 32) (bytes : Option Bytes) (s : State) : Host.Outcome State Fault Refusal :=
  let s := s.advance t
  let k := srcRingOf s ring.val
  match bytes with
  | none => .next (if s.host.running && dmaOpen s (ring.val + 67) then dmaServe (ring.val + 67) 0 s else s)
  | some b =>
    let avail := srcAvail s ring.val
    let n := min (min b.length 4096) avail / 2
    if !s.host.running || !dmaOpen s (ring.val + 67) || decide (n = 0) then .next s
    else
      let s := dmaServe (ring.val + 67) (2 * n) s
      let j0 := k.read / 2
      let samples := (List.range n).foldl (fun (t : Tab Int) i => Tab.put t (j0 + i) (fieldS b (2 * i) 2)) k.samples
      let s := match Tab.get s.host.srcSeen ring.val with
        | some a => monSample 4 (ring.val + 67) (toNs ((s.now : Int) - a)) s
        | none => s
      let s := { s with
        host.src := vset s.host.src ring.val { k with samples := samples, read := k.read + 2 * n }
        host.srcSeen := if avail < 2 * n + 2 then Tab.del s.host.srcSeen ring.val else s.host.srcSeen }
      .next (srcTrim ring.val s)

/-! ## The link (R369, R371) -/

/-- Polling and DMA run: EN is 1, R371 has not stopped them, Bus Master Enable is set, and the link runs at 8 GT/s or faster. -/
def mayRun (s : State) : Bool := rbit s.host.ctl 0 && !s.host.stopped && s.host.pci.busMaster && decide (3 ≤ s.host.gen)

/-- A job that writes the status block alone. -/
def statusJob (j : WriteJob) : Bool :=
  match j.kind with
  | .status => true
  | _ => false

/-- Abandon every DMA job in flight. Records go back to their outlets; what carries completions, events or a result block is kept to be
written again; the records that a status block alone was to publish wait for the next one (R404). -/
def haltDma (s : State) : State :=
  let s := abandonOutlets true { s with host.running := false, host.pollAt := none }
  { s with
    host.unpub := (s.host.jobs.filter (fun p => statusJob p.2)).flatMap (·.2.items) ++ s.host.unpub
    host.jobs := s.host.jobs.filter (fun p => !statusJob p.2) }

/-- Resume: what was abandoned is sent again, completions still owed are written, and the status block. -/
def resumeDma (s : State) : State :=
  let s := { s with host.running := true }
  let s := s.host.jobs.foldl (fun s p => hostWrite p.2.writes s) s
  statusWrite (flushOwed s)

/-- Start or stop DMA when its conditions have changed. -/
def followLink (s : State) : State :=
  if mayRun s = s.host.running then s else if mayRun s then resumeDma s else haltDma s

/-- A HOSTIF.CTL write (Table 15-13): EN resumes what R371 stopped, once the link and Bus Master Enable have been restored. -/
def writeHostCtl (v : Reg) (s : State) : State :=
  let v := v &&& 1
  let back := rbit v 0 && s.host.pci.busMaster && decide (s.host.gen ≠ 0)
  followLink { s with host.ctl := v, host.stopped := s.host.stopped && !back }

/-- The link has gone, or Bus Master Enable (R371): jobs are abandoned and polling stops; every register and ring state is kept. With the
link goes what configuration space held, but for the status of AER, which a link going down leaves. -/
def loseLink (cause : LinkLoss) (s : State) : State :=
  let s := { s with host.perstSeen := true, host.stopped := true }
  followLink (match cause with
    | .busMasterCleared => { s with host.pci.busMaster := false }
    | .linkDown => { s with host.gen := 0, host.width := 0, host.slow := false, host.pci := pciReset }
    | .perst => { s with host.gen := 0, host.width := 0, host.slow := false, host.pci := pciReset, host.aer := 0 })

/-- HOST_LINK_LOSS (R371). -/
def execHostLinkLoss (t : Tick) (cause : LinkLoss) (s : State) : Host.Outcome State Fault Refusal := .next (loseLink cause (s.advance t))

/-- PCIE_LINK_TRAINED (R369, Table 15-1), with what the host has set in configuration space; generation 0 is a link that has gone down. -/
def execPcieLinkTrained (t : Tick) (gen : Fin 6) (link : PciLink) (s : State) : Host.Outcome State Fault Refusal :=
  let s := s.advance t
  if gen.val = 0 then .next (loseLink .linkDown s)
  else .next (followLink { s with
    host.gen := gen.val, host.width := link.width.toNat, host.slow := decide (gen.val = 1 ∨ gen.val = 2), host.pci := link.cfg })

end Sys2Proof.Machine
end

