-- ==== Sys2Proof/Machine/Boot.lean ====
section
/-!
DEFINITION. Resets, boot and supplies (18_startup.md, 20_package_electrical.md R501).
-/
namespace Sys2Proof.Machine

/-! ## Resets (R464, Table 18-2, Table 19-2) -/

/-- The device is held in reset. -/
def inReset (s : State) : Bool := s.pins.porstLow || s.pins.sysrstLow

/-- The registers and the transient state of the timebase at their reset values; the time word, the DPLL and the history are kept. -/
def TimeState.sysReset (tb : TimeState) (now : Nat) : TimeState :=
  let r := TimeState.reset
  let gates := (List.range 2).foldl (fun g k =>
    if fld (vget tb.sclkCfg k 0) 0 28 = 0 then g else vset g (k + 1) ⟨true, 2, now⟩) tb.gates
  { tb with
    ctl := r.ctl, slew := r.slew, tsetLo := r.tsetLo, tsetHi := r.tsetHi, armed := false, refCfg := r.refCfg, sclkCfg := r.sclkCfg
    tsetErr := false, sclkErr := false, offHiLatch := none, refs := r.refs, phaseErr := 0, gates := gates, ppsRise := none }

/-- What PORST_N leaves: everything at reset but what is fixed, what stands outside the device, and the model's own fields. -/
def porReset (s : State) : State :=
  { State.reset with
    pending := s.pending
    now := s.now
    free := s.free
    out := s.out
    boot.fuses := s.boot.fuses
    twin.pinIn := s.twin.pinIn
    pins := { s.pins with glint := 0 } }

/-- The events of the SCLKOUT gates that closed since they stood as in `was` (R277, R515). -/
def postClosings (was : Vector Gate 3) (s : State) : State :=
  (List.range 2).foldl (fun s k =>
    if !(vget was (k + 1) ⟨false, 0, 0⟩).closed && (vget s.tb.gates (k + 1) ⟨false, 0, 0⟩).closed then postEvent 0x59 (k + 1) [1, 2] s
    else s) s

/-- References whose time a reset of the registers makes invalid, each with its event (R515): PPS_EN is cleared, and no frame of a time profile has
come since. -/
def postTimeLoss (was : State) (s : State) : State :=
  ((List.range 4).filter (refTime was)).foldl (fun s n => postEvent 0x52 n [0, if n < 2 then 5 else 4] s) s

/-- What SYSRST_N leaves. A sample clock whose rate it changes is gated, and a reference loses its time, each with its event (R277, R515). -/
def sysReset (s : State) : State :=
  let r := porReset s
  let s' := { r with
    tOffset := s.tOffset
    tb := s.tb.sysReset s.now
    host.untrusted := s.host.untrusted
    host.pci := s.host.pci
    host.aer := s.host.aer
    hbm := { HbmState.reset with
      trained := s.hbm.trained, trainDone := s.hbm.trainDone, chFail := s.hbm.chFail, refreshAt := s.hbm.refreshAt, refreshBank := s.hbm.refreshBank, tempAt := s.hbm.tempAt
      perBank := s.hbm.perBank, done := s.hbm.done, scrubAt := s.now }
    mgmt.trip := s.mgmt.trip
    twin.faulty := s.twin.faulty
    twin.role := if s.twin.faulty then .faulty else .standalone
    boot.scratch := s.boot.scratch
    boot.dbgLock := s.boot.dbgLock }
  let s' := postTimeLoss s (postClosings s.tb.gates s')
  if s'.tb.sel.isSome then loseRef s' else walkCheck s'

/-- RESET_ASSERT (R501): the device stops, and its trigger, role and pulse outputs go low. -/
def execResetAssert (t : Tick) (pin : ResetPin) (s : State) : Host.Outcome State Fault Refusal :=
  let s := s.advance t
  match pin with
  | .porst =>
    let r := porReset s
    .next { r with pins.porstLow := true }
  | .sysrst =>
    if s.pins.porstLow then .next { s with pins.sysrstLow := true }
    else
      let r := sysReset s
      .next { r with pins.sysrstLow := true }

/-- PORST_RELEASE (R464, R465): the clock of the model and the time word start from 0, and the three synthesiser outputs are gated, each
with its event (R277, R515). A trip latched while PORST_N was low stays (R463). -/
def execPorstRelease (t : Tick) (mode : BitVec 2) (s : State) : Host.Outcome State Fault Refusal :=
  let r := porReset (s.advance t)
  let r := { r with now := 0, pins.porstLow := false, boot.mode := mode, mgmt.trip := s.pins.porstLow && s.mgmt.trip }
  .next ((List.range 3).foldl (fun s o => postEvent 0x59 o [1, 1] s) r)

/-- SYSRST_RELEASE (R464, R465). While PORST_N is low, the device stays in reset. -/
def execSysrstRelease (t : Tick) (mode : BitVec 2) (s : State) : Host.Outcome State Fault Refusal :=
  let s := s.advance t
  if s.pins.porstLow then .next { s with pins.sysrstLow := false }
  else
    let r := sysReset s
    .next { r with pins.sysrstLow := false, boot.mode := mode }

/-! ## Boot (R465 to R471) -/

/-- The boot ROM waits for the image of a source: reading flash with the fast read command 0x6B, its 24-bit address and 8 dummy clocks
(R467), or waiting for the host. -/
def readFrom (x : BootSrc) (s : State) : State :=
  match x with
  | .host => { s with boot.phase := 2, boot.reading := none }
  | .primary => { s with boot.phase := 1, boot.reading := some x, out.flash := s.out.flash ++ [(0x6B, 0x000000, 8)] }
  | .secondary => { s with boot.phase := 1, boot.reading := some x, out.flash := s.out.flash ++ [(0x6B, 0x100000, 8)] }

/-- Boot fails: phase 15, and the device stays in boot ROM. -/
def bootFail (s : State) : State := { s with boot.phase := 15, boot.reading := none }

/-- BOOT_SELF_CHECK_DONE (R465, R466, Table 18-3). -/
def execBootSelfCheckDone (t : Tick) (s : State) : Host.Outcome State Fault Refusal :=
  let s := s.advance t
  if inReset s || s.boot.cfgOk || decide (s.boot.phase ≠ 0) then .next s
  else
    let s := { s with boot.cfgOk := true }
    if s.boot.mode = 1 then .next (readFrom .host s)
    else if s.boot.mode = 3 then
      (if dbgLocked s then .next (bootFail { s with boot.err := 9 }) else .next s)
    else .next (readFrom .primary s)

/-- HOST_BOOT_GO (R470): a write to ID_BOOT.HOST_CTL. -/
def writeHostBoot (v : Reg) (s : State) : State :=
  if rbit v 0 && decide (s.boot.phase = 2) && s.boot.reading.isNone && decide (s.boot.goes < 3) && !inReset s then
    { s with boot.reading := some .host, boot.goes := s.boot.goes + 1 }
  else s

/-- The checks 2 to 6 of Table 18-5 on an image: the error code of the first that fails. -/
def imageChk (s : State) (b : Bytes) : Option Nat :=
  let f := fieldU b
  let size := f 16 4
  let slot := f 6 1
  let key := if slot < 4 ∧ s.boot.fuses.revoked.getLsbD slot = false then vget s.boot.fuses.keys slot none else none
  let signed := slice b 0 160 ++ slice b 256 size
  if ¬ (f 0 4 = 0x57465847 ∧ f 4 2 = 1) then some 2
  else if ¬ (size % 64 = 0 ∧ 64 ≤ size ∧ size ≤ 917504 ∧ f 20 4 % 4 = 0 ∧ f 20 4 < size ∧ f 12 4 ≤ 65535 ∧ f 7 1 = 0 ∧ f 24 40 = 0)
    then some 3
  else if key ≠ some (BitVec.ofNat 384 (sha384 (slice b 64 96))) then some 4
  else if f 12 4 < s.boot.fuses.svnMin then some 6
  else if !ecdsaOk (sha384 signed) (ofBe (slice b 64 48)) (ofBe (slice b 112 48)) (ofBe (slice b 160 48)) (ofBe (slice b 208 48))
    then some 5
  else none

/-- The code of BOOT_STAT.SOURCE. -/
def BootSrc.code : BootSrc → Nat
  | .primary => 1
  | .secondary => 2
  | .host => 3

/-- A check failed: the error code, and the next source (R469). -/
def nextSource (x : BootSrc) (err : Nat) (s : State) : State :=
  let s := { s with boot.err := err }
  match x with
  | .primary => readFrom .secondary s
  | .secondary => if s.boot.mode = 2 then readFrom .host s else bootFail s
  | .host => if err = 7 then readFrom .host s else bootFail s

/-- An image is accepted (R471): its body goes to the start of the scribe SRAM, the map of address 0 moves there, and the cores start. -/
def acceptImage (x : BootSrc) (b : Bytes) (s : State) : State :=
  let size := fieldU b 16 4
  { s with
    boot.fwVer := BitVec.ofNat 32 (fieldU b 8 4)
    boot.fwSvn := BitVec.ofNat 32 (fieldU b 12 4)
    boot.fwSlot := some (fieldU b 6 1)
    boot.entry := some (fieldU b 20 4)
    boot.source := x.code
    boot.reading := none
    boot.phase := 4
    mgmt.xctl := s.mgmt.xctl ||| 1
    mgmt.scribe := ((slice b 256 size).zipIdx.map (fun p => (p.2, p.1))) ++ s.mgmt.scribe.filter (fun p => decide (size ≤ p.1)) }

/-- FIRMWARE_IMAGE_READ (R469, Table 18-5). A host read does not complete while Bus Master Enable is 0 (R470). -/
def execFirmwareImageRead (t : Tick) (image : ImageRead) (s : State) : Host.Outcome State Fault Refusal :=
  let s := s.advance t
  match s.boot.reading with
  | none => .next s
  | some x =>
    if inReset s then .next s
    else
      match image with
      | .noAnswer => .next (nextSource x (if x = .host then 7 else 1) s)
      | .bytes b =>
        if x = .host ∧ s.host.pci.busMaster = false then .next (nextSource x 7 s)
        else if x ≠ .host ∧ fieldU b 0 4 = 0xFFFFFFFF then .next (nextSource x 1 s)
        else match imageChk s b with
          | some e => .next (nextSource x e s)
          | none => .next (acceptImage x b s)

/-- FIRMWARE_READY (R474): stewards started, every stack trained or failed, the check job run on all 256 engines. -/
def execFirmwareReady (t : Tick) (failed : List (Fin 256)) (s : State) : Host.Outcome State Fault Refusal :=
  let s := s.advance t
  if inReset s || decide (s.boot.phase ≠ 4) || !s.hbm.trainDone then .next s
  else
    let bad := (List.range 256).filter (fun e => failed.any (fun f => decide (f.val = e)))
    let dom := (List.range 17).foldl (fun v d =>
      vset v d { vget v d (Domain.reset false) with vnow := if d = 16 then vcapEff s 16 else 8 }) s.mgmt.dom
    let s := bad.foldl (fun s e => markFailed e 2 s) { s with mgmt.dom := dom }
    .next { s with boot.failed := bad.length, boot.ready := true, boot.phase := 5 }

/-! ## Supplies (R463, R501) -/

/-- SUPPLY_RANGE_CHANGE: with VIO out of range the outputs are at high impedance; thermal sensing acts while VCORE is in range. -/
def execSupplyRangeChange (t : Tick) (rail : Rail) (ok : Bool) (s : State) : Host.Outcome State Fault Refusal :=
  let s := s.advance t
  match rail with
  | .vio => .next { s with pins.vio := ok }
  | .vcore => .next { s with pins.vcore := ok }

/-- BOOT_STAT (Table 18-6). -/
def bootStat (s : State) : Nat :=
  s.boot.phase + 16 * b01 s.boot.ready + 32 * s.boot.source + 128 * b01 s.boot.earlyWr + 256 * s.boot.err + 4096 * s.boot.failed

/-! ## Debug lock and key store (R472, R473) -/

/-- SECURITY.STAT (Table 18-7). -/
def securityStat (s : State) : Nat :=
  let valid := (List.range 4).foldl (fun a k => a + (if (vget s.boot.fuses.keys k none).isSome then 2 ^ k else 0)) 0
  b01 (dbgLocked s) + 2 * b01 s.boot.fuses.dbgFused + 4 * valid + 64 * s.boot.fuses.revoked.toNat + 65536 * s.boot.fuses.svnMin

/-- Commit the svn of the running image: at most 64 raises, and never lower (R472). -/
def commitSvn (s : State) : State :=
  let v := s.boot.fwSvn.toNat
  if s.boot.fwSlot.isSome && decide (s.boot.fuses.svnMin < v) && decide (s.boot.fuses.raises < 64) then
    { s with boot.fuses.svnMin := v, boot.fuses.raises := s.boot.fuses.raises + 1 }
  else s

/-- Revoke slots, except the one that verified the running firmware (R472). -/
def revokeSlots (m : BitVec 4) (s : State) : State :=
  let keep : BitVec 4 := match s.boot.fwSlot with
    | some k => ~~~ (BitVec.ofNat 4 (2 ^ k))
    | none => BitVec.allOnes 4
  { s with boot.fuses.revoked := s.boot.fuses.revoked ||| (m &&& keep) }

/-- A write to SECURITY.CTL (Table 18-8). -/
def writeSecurityCtl (v : Reg) (s : State) : State :=
  let s := if rbit v 0 then { s with boot.dbgLock := true } else s
  let s := if rbit v 1 then { s with boot.fuses.dbgFused := true } else s
  let s := if rbit v 2 then commitSvn s else s
  revokeSlots (BitVec.ofNat 4 (fld v 3 4)) s

/-! ## Balls (R501) -/

/-- Level of an output ball that the device drives low in reset (GLINT0 to GLINT3, TWIN_LIT_OUT, PPSOUT), given the level its own rule asks
for; `none` is high impedance, while VIO is out of range. -/
def ballLevel (s : State) (level : Bool) : Option Bool := if s.pins.vio then some (level && !inReset s) else none

/-- GLINT0 to GLINT3 at their balls. -/
def glintBall (s : State) (p : Fin 4) : Option Bool := ballLevel s s.pins.glint[p]

/-- TWIN_LIT_OUT at its ball (R435). -/
def litBall (s : State) : Option Bool := ballLevel s s.twin.pinOut

/-! ## SMBus target (R504) -/

/-- The 7-bit address of the SMBus target. -/
def smbusAddress : Nat := 0x4A

/-- The hottest domain or stack temperature in 1/16 °C: SENSE.TEMP of every steward, and the last reading of every stack that has one. -/
def hottest16 (s : State) : Int :=
  let l := (List.range 17).map (fun d => (domOf s d).temp) ++ (List.range 4).filterMap (fun k => (vget s.hbm.temps k none).map (16 * ·))
  satS 16 (l.foldl max (l.headD 0))

/-- The words of Table 20-9. -/
def smbusWord (s : State) (code : Nat) : BitVec 16 :=
  match code with
  | 1 => BitVec.ofInt 16 (hottest16 s)
  | 2 => if s.boot.ready then BitVec.ofNat 16 (s.mgmt.powerMw / 1000) else 0
  | 3 => BitVec.ofNat 16 (b01 s.boot.ready + 2 * b01 (alertLow s) + 4 * b01 s.mgmt.trip + 8 * b01 (decide (s.host.untrusted ≠ 0)))
  | 4 => 0x3136
  | 5 => 0x4741
  | _ => 0

/-- What a Read Word of an address answers (R504): nothing for another address, or while VIO or VCORE is out of range; the resets do not
matter. -/
def smbusRead (s : State) (address code : Nat) : Option (BitVec 16) :=
  if address = smbusAddress ∧ s.pins.vio = true ∧ s.pins.vcore = true then some (smbusWord s code) else none

/-! ## IEEE 1149.1 port (R473, R505) -/

/-- IDCODE of stepping B0: version 1, part number 0xA160, manufacturer 0x70F, and the bit that 1149.1 sets. -/
def idcode : BitVec 32 := 0x1A160E1F

/-- What the port can be asked for: the instructions R473 names, and the debug port's way into the crossbar. -/
inductive JtagInstr where
  | bypass
  | idcode
  | samplePreload
  | extest
  | debug
  deriving DecidableEq, Repr

/-- The instruction is open: either lock closes the crossbar alone (R473, R505). -/
def jtagOpen (s : State) (i : JtagInstr) : Bool := decide (i ≠ .debug) || !dbgLocked s

end Sys2Proof.Machine
end

