-- ==== Sys2Proof/Machine/Regs.lean ====
section
/-!
DEFINITION. The set-up register map (19_registers.md): which register lies where, what a read returns, what a write does, and the accesses
of the masters of the control crossbar (16_management.md R410, R411).
-/
namespace Sys2Proof.Machine

/-! ## The map (Table 19-8) -/

/-- The registers of BAR0. Indices: r ring, v vector, c channel, k as the table states, n reference or window, q quad, l lane 0 to 63,
d steward, i counter in the table's order. -/
inductive RegId where
  | ident | part | step | romVer | fwVer | fwSvn | serialLo | serialHi | caps | banks | accStat | scratch | bootStat | imgLo | imgHi
  | hostCtl
  | hifCtl | hifStat | poll | dbLo | dbHi | sbLo | sbHi | ringLo (r : Nat) | ringHi (r : Nat) | ringCfg (r : Nat) | msixMod (v : Nat)
  | dmaCh (c : Nat) | quadQuota (k : Nat) | msixTable (i : Nat) | msixPba (i : Nat)
  | tbCtl | tbStatus | slew | tsetLo | tsetHi | tsetCtl | offLo | offHi | refCfg (n : Nat) | refStat (n : Nat) | sclkCfg (k : Nat)
  | quadCfg (q : Nat) | quadStat (q : Nat) | sleepCfg (q : Nat) | linkCfg (q : Nat) | linkCnt (q i : Nat) | linkClr (q : Nat)
  | laneEq (l : Nat) | laneTest (l : Nat) | laneStat (l : Nat) | laneCnt (l i : Nat) | cntClr (l : Nat) | meshCfg | meshPort
  | rsvA | rsvB | hbmCtl | hbmStat | chFailLo | chFailHi | hbmTemp | hbmCnt (k i : Nat)
  | vcap (d : Nat) | domStat (d : Nat) | sense (d : Nat) | miss (d : Nat) | pcap
  | winCfg (n : Nat) | winValue (n k : Nat) | monStat | gdlySel | gdly | gdlyInfo
  | twinCtl | twinStat | skew | twinCnt (i : Nat)
  | secStat | secCtl
  | xbarCtl | xbarStage | xbarStat
  deriving DecidableEq, Repr

/-- The registers of ID_BOOT by offset in the bank. -/
def regIdBoot (o : Nat) : Option RegId :=
  match o with
  | 0x00 => some .ident
  | 0x04 => some .part
  | 0x08 => some .step
  | 0x0C => some .romVer
  | 0x10 => some .fwVer
  | 0x14 => some .fwSvn
  | 0x18 => some .serialLo
  | 0x1C => some .serialHi
  | 0x20 => some .caps
  | 0x24 => some .banks
  | 0x28 => some .accStat
  | 0x30 => some .scratch
  | 0x100 => some .bootStat
  | 0x104 => some .imgLo
  | 0x108 => some .imgHi
  | 0x10C => some .hostCtl
  | _ => none

/-- The registers of HOSTIF by offset in the bank. -/
def regHostif (o : Nat) : Option RegId :=
  if o < 0x1000 then
    match o with
    | 0x00 => some .hifCtl
    | 0x04 => some .hifStat
    | 0x08 => some .poll
    | 0x10 => some .dbLo
    | 0x14 => some .dbHi
    | 0x18 => some .sbLo
    | 0x1C => some .sbHi
    | _ => none
  else if o < 0x2000 then
    let r := (o - 0x1000) / 16
    if 99 ≤ r then none
    else if o % 16 = 0 then some (.ringLo r)
    else if o % 16 = 4 then some (.ringHi r)
    else if o % 16 = 8 then some (.ringCfg r)
    else none
  else if o < 0x2100 then some (.msixMod ((o - 0x2000) / 4))
  else if 0x3000 ≤ o ∧ o < 0x3080 then some (.dmaCh ((o - 0x3000) / 4))
  else if 0x4000 ≤ o ∧ o < 0x4010 then some (.quadQuota ((o - 0x4000) / 4))
  else if 0x8000 ≤ o ∧ o < 0x8400 then some (.msixTable ((o - 0x8000) / 4))
  else if 0x9000 ≤ o ∧ o < 0x9008 then some (.msixPba ((o - 0x9000) / 4))
  else none

/-- The registers of TIMEBASE by offset in the bank. -/
def regTimebase (o : Nat) : Option RegId :=
  match o with
  | 0x00 => some .tbCtl
  | 0x04 => some .tbStatus
  | 0x08 => some .slew
  | 0x10 => some .tsetLo
  | 0x14 => some .tsetHi
  | 0x18 => some .tsetCtl
  | 0x20 => some .offLo
  | 0x24 => some .offHi
  | 0x80 => some (.sclkCfg 0)
  | 0x84 => some (.sclkCfg 1)
  | _ =>
    if 0x40 ≤ o ∧ o < 0x80 then
      (if o % 16 = 0 then some (.refCfg ((o - 0x40) / 16)) else if o % 16 = 4 then some (.refStat ((o - 0x40) / 16)) else none)
    else none

/-- The registers of LANE by offset in the bank. -/
def regLane (o : Nat) : Option RegId :=
  if o < 0x4000 then
    let q := o / 0x400
    let a := o % 0x400
    if a < 0x100 then
      match a with
      | 0x00 => some (.quadCfg q)
      | 0x04 => some (.quadStat q)
      | 0x08 => some (.sleepCfg q)
      | 0x0C => some (.linkCfg q)
      | 0x10 => some (.linkCnt q 0)
      | 0x14 => some (.linkCnt q 1)
      | 0x18 => some (.linkCnt q 2)
      | 0x1C => some (.linkCnt q 3)
      | 0x20 => some (.linkCnt q 4)
      | 0x24 => some (.linkClr q)
      | _ => none
    else if a < 0x200 then
      let l := 4 * q + (a - 0x100) / 0x40
      match a % 0x40 with
      | 0x00 => some (.laneEq l)
      | 0x04 => some (.laneTest l)
      | 0x08 => some (.laneStat l)
      | 0x10 => some (.laneCnt l 0)
      | 0x14 => some (.laneCnt l 1)
      | 0x18 => some (.laneCnt l 2)
      | 0x1C => some (.laneCnt l 3)
      | 0x20 => some (.cntClr l)
      | _ => none
    else none
  else if o = 0x4000 then some .meshCfg
  else if o = 0x4004 then some .meshPort
  else none

/-- The registers of HBM by offset in the bank. -/
def regHbm (o : Nat) : Option RegId :=
  match o with
  | 0x00 => some .rsvA
  | 0x04 => some .rsvB
  | 0x08 => some .hbmCtl
  | 0x0C => some .hbmStat
  | 0x10 => some .chFailLo
  | 0x14 => some .chFailHi
  | 0x18 => some .hbmTemp
  | _ => if 0x100 ≤ o ∧ o < 0x140 then some (.hbmCnt ((o - 0x100) / 16) (o % 16 / 4)) else none

/-- The registers of DOMAIN by offset in the bank. -/
def regDomain (o : Nat) : Option RegId :=
  let d := o / 0x800
  if 17 ≤ d then none
  else
    match o % 0x800 with
    | 0x00 => some (.vcap d)
    | 0x04 => some (.domStat d)
    | 0x08 => some (.sense d)
    | 0x0C => some (.miss d)
    | 0x10 => if d = 16 then some .pcap else none
    | _ => none

/-- The registers of MONITOR by offset in the bank. -/
def regMonitor (o : Nat) : Option RegId :=
  if o < 0x100 then (if o % 16 = 0 then some (.winCfg (o / 16)) else some (.winValue (o / 16) (o % 16 / 4 - 1)))
  else
    match o with
    | 0x100 => some .monStat
    | 0xF00 => some .gdlySel
    | 0xF04 => some .gdly
    | 0xF08 => some .gdlyInfo
    | _ => none

/-- The register at a 32-bit aligned offset of BAR0; `none` at a reserved address. -/
def regAt (off : Nat) : Option RegId :=
  let o := off % 0x10000
  match off / 0x10000 with
  | 0 => regIdBoot o
  | 1 => regHostif o
  | 2 => regTimebase o
  | 3 => regLane o
  | 4 => regHbm o
  | 5 => regDomain o
  | 6 => regMonitor o
  | 7 => (match o with
    | 0x00 => some .twinCtl
    | 0x04 => some .twinStat
    | 0x08 => some .skew
    | 0x10 => some (.twinCnt 0)
    | 0x14 => some (.twinCnt 1)
    | 0x18 => some (.twinCnt 2)
    | 0x1C => some (.twinCnt 3)
    | _ => none)
  | 8 => (match o with
    | 0x00 => some .secStat
    | 0x04 => some .secCtl
    | _ => none)
  | 9 => (match o with
    | 0x00 => some .xbarCtl
    | 0x04 => some .xbarStage
    | 0x08 => some .xbarStat
    | _ => none)
  | _ => none

/-! ## Reads (R477, R478, R481, R482) -/

/-- The low and high words of a 64-bit value. -/
def word64 (v : Nat) (i : Nat) : Nat := v / 2 ^ (32 * i) % 2 ^ 32

/-- LANE.QUAD_STAT (Table 12-7). -/
def quadStat (s : State) (q : Nat) : Nat :=
  let u := quadOf s q
  b01 u.up + 2 * b01 u.pll + ((List.range 4).map (fun l => if (laneOf s (4 * q + l)).lock then 2 ^ (2 + l) else 0)).sum +
    64 * b01 u.aligned + 128 * u.tx.st.code + 512 * u.rx.st.code + 2048 * b01 u.ssc + 4096 * b01 u.cfgErr

/-- LANE.LANE_STAT (Table 12-11). -/
def laneStat (s : State) (l : Nat) : Nat :=
  let x := laneOf s l
  b01 x.sig + 2 * b01 x.cdr + 4 * b01 x.lock + 8 * b01 x.prbsLock + 16 * b01 x.fault

/-- XBAR.CTL: a window base beyond the part's HBM reads back 0 (Table 16-3). -/
def xbarCtl (s : State) : Nat :=
  let w := fld s.mgmt.xctl 1 7
  b01 (rbit s.mgmt.xctl 0) + 2 * (if w < 4 * stackGib s then w else 0)

/-- What a read of a register returns; a wo field reads 0. -/
def readReg (s : State) (r : RegId) : Nat :=
  let dom (d : Nat) := vget s.mgmt.dom d (Domain.reset false)
  match r with
  | .ident => 0x47413136
  | .part => partReg s
  | .step => 0x42
  | .romVer => 0x00010002
  | .fwVer => s.boot.fwVer.toNat
  | .fwSvn => s.boot.fwSvn.toNat
  | .serialLo => word64 s.boot.fuses.serial.toNat 0
  | .serialHi => (s.boot.serialHi.map (·.toNat)).getD (word64 s.boot.fuses.serial.toNat 1)
  | .caps => 0x00212100
  | .banks => 0x3FF
  | .accStat => s.boot.accStat.toNat + 65536 * s.boot.accCount
  | .scratch => s.boot.scratch.toNat
  | .bootStat => bootStat s
  | .imgLo => s.boot.imgLo.toNat
  | .imgHi => s.boot.imgHi.toNat
  | .hostCtl => 0
  | .hifCtl => s.host.ctl.toNat
  | .hifStat => hostStat s
  | .poll => s.host.poll.toNat
  | .dbLo => s.host.dbLo.toNat
  | .dbHi => s.host.dbHi.toNat
  | .sbLo => s.host.sbLo.toNat
  | .sbHi => s.host.sbHi.toNat
  | .ringLo k => (vget s.host.ringLo k 0).toNat
  | .ringHi k => (vget s.host.ringHi k 0).toNat
  | .ringCfg k => (vget s.host.ringCfg k 0).toNat
  | .msixMod v => (vget s.host.msixMod v 0).toNat
  | .dmaCh c => (vget s.host.dmaCh c 0).toNat
  | .quadQuota k => (vget s.host.quadQuota k 0).toNat
  | .msixTable i => (vget s.host.msixTable i 0).toNat
  | .msixPba i => word64 s.host.msixPba.toNat i
  | .tbCtl => s.tb.ctl.toNat
  | .tbStatus => tbStatus s
  | .slew => s.tb.slew.toNat
  | .tsetLo => s.tb.tsetLo.toNat
  | .tsetHi => s.tb.tsetHi.toNat
  | .tsetCtl => b01 s.tb.armed
  | .offLo => word64 (s.offsetO % 2 ^ 64).toNat 0
  | .offHi => (s.tb.offHiLatch.map (·.toNat)).getD (word64 (s.offsetO % 2 ^ 64).toNat 1)
  | .refCfg n => (vget s.tb.refCfg n 0).toNat
  | .refStat n => refStat s n
  | .sclkCfg k => (vget s.tb.sclkCfg k 0).toNat
  | .quadCfg q => (quadOf s q).cfg.toNat
  | .quadStat q => quadStat s q
  | .sleepCfg q => (quadOf s q).sleepCfg.toNat
  | .linkCfg q => (quadOf s q).linkCfg.toNat
  | .linkCnt q i =>
    let u := quadOf s q
    [u.crcErr, u.ctlErr, u.replay, u.dup, u.late].getD i 0
  | .linkClr _ => 0
  | .laneEq l => (laneOf s l).eq.toNat
  | .laneTest l => (laneOf s l).test.toNat
  | .laneStat l => laneStat s l
  | .laneCnt l i =>
    let x := laneOf s l
    [x.hdrErr, x.lockLoss, x.retrain, x.prbsErr].getD i 0
  | .cntClr _ => 0
  | .meshCfg => s.link.meshCfg.toNat
  | .meshPort => s.link.meshPort.toNat
  | .rsvA => s.hbm.rsvA.toNat
  | .rsvB => s.hbm.rsvB.toNat
  | .hbmCtl => s.hbm.ctl.toNat
  | .hbmStat => hbmStat s
  | .chFailLo => word64 s.hbm.chFail.toNat 0
  | .chFailHi => (s.hbm.chFailHi.map (·.toNat)).getD (word64 s.hbm.chFail.toNat 1)
  | .hbmTemp => hbmTemp s
  | .hbmCnt k i =>
    let c := stackCnt s k
    [c.corr, c.uncorr, c.replay, c.pairDisc].getD i 0
  | .vcap d => (dom d).vcap.toNat
  | .domStat d => domStat s d
  | .sense d => (satS 16 (dom d).temp % 65536).toNat + 65536 * (satU 16 (dom d).power)
  | .miss d => (dom d).miss
  | .pcap => fld s.mgmt.pcap 0 9 + 65536 * satU 9 (s.mgmt.powerMw / 1000)
  | .winCfg n => (winOf s n).cfg.toNat
  | .winValue n k =>
    let w := winOf s n
    (if k = 0 then w.base else if k = 1 then w.step else w.len).toNat
  | .monStat => ((List.range 16).map (fun n => if (winOf s n).acc.isSome then 2 ^ n else 0)).sum + 65536 * b01 s.mgmt.winErr
  | .gdlySel => s.mgmt.gdlySel.toNat
  | .gdly => s.mgmt.gdly.toNat
  | .gdlyInfo => s.mgmt.gdlyInfo.toNat
  | .twinCtl => s.twin.ctl.toNat
  | .twinStat => twinStat s
  | .skew => (satS 32 s.twin.skew % 2 ^ 32).toNat
  | .twinCnt i => [s.twin.mismatch, s.twin.arbs, s.twin.switches, s.twin.late].getD i 0
  | .secStat => securityStat s
  | .secCtl => b01 s.boot.dbgLock
  | .xbarCtl => xbarCtl s
  | .xbarStage => s.mgmt.xstage.toNat
  | .xbarStat => b01 s.mgmt.lockBroken + 2 * b01 s.mgmt.accessErr + 65536 * s.mgmt.errCount

/-- ID_BOOT.ACC_STAT: an access sets flags and counts once (Table 19-7). -/
def accFlag (flags : BitVec 4) (s : State) : State :=
  { s with boot.accStat := s.boot.accStat ||| flags, boot.accCount := bump 16 s.boot.accCount 1 }

/-- Bytes of an access. -/
def accBytes : AccessWidth → Nat
  | .w8 => 1
  | .w16 => 2
  | .w32 => 4
  | .w64 => 8

/-- The bank is served: ID_BOOT and SECURITY always, the others from READY (R466). -/
def bankServed (s : State) (off : Nat) : Bool := s.boot.ready || decide (off / 0x10000 = 0 ∨ off / 0x10000 = 8)

/-- A read of the low register of a latched pair latches the high one (R482). -/
def latchHi (r : RegId) (s : State) : State :=
  match r with
  | .serialLo => { s with boot.serialHi := some (BitVec.ofNat 32 (word64 s.boot.fuses.serial.toNat 1)) }
  | .offLo => { s with tb.offHiLatch := some (BitVec.ofNat 32 (word64 (s.offsetO % 2 ^ 64).toNat 1)) }
  | .chFailLo => { s with hbm.chFailHi := some (BitVec.ofNat 32 (word64 s.hbm.chFail.toNat 1)) }
  | _ => s

/-- A read of the 32-bit register at an aligned offset. -/
def regRead32 (off : Nat) (s : State) : Nat × State :=
  if 10 ≤ off / 0x10000 then (0, accFlag 2 s)
  else if !bankServed s off then (0, s)
  else match regAt off with
    | none => (0, s)
    | some r => (readReg s r, latchHi r s)

/-- A register read (R477). -/
def regRead (off : Nat) (width : AccessWidth) (s : State) : Nat × State :=
  if off % accBytes width ≠ 0 then (0, accFlag 8 s)
  else match width with
    | .w64 =>
      let a := regRead32 off s
      let b := regRead32 (off + 4) a.2
      (a.1 + 2 ^ 32 * b.1, b.2)
    | .w32 => regRead32 off s
    | w =>
      let a := regRead32 (off / 4 * 4) s
      (bitsOf a.1 (8 * (off % 4)) (8 * accBytes w), a.2)

/-! ## Writes (R477 to R486) -/

/-- The write places a reserved code, or a value where 0 is required (R479). -/
def reservedCode (r : RegId) (v : Reg) : Bool :=
  match r with
  | .refCfg n => if n < 2 then decide (fld v 1 2 = 3) else decide (fld v 1 2 ≠ 0)
  | .quadCfg _ => decide (9 ≤ fld v 1 4) || decide (fld v 7 2 = 3)
  | .sleepCfg _ => decide (fld v 0 2 = 3) || decide (fld v 16 2 = 3)
  | .laneTest _ => decide (6 ≤ fld v 0 3) || decide (6 ≤ fld v 3 3)
  | .winCfg _ => decide (9 ≤ fld v 1 4)
  | .ringCfg k =>
    let log := fld v 0 6
    let ok := if k < 3 then decide (4 ≤ log ∧ log ≤ 16) else decide (16 ≤ log ∧ log ≤ 40)
    (rbit v 6 && !ok) || (decide (3 ≤ k) && decide (fld v 13 5 < 2))
  | _ => false

/-- A base register of HOSTIF takes a value while its structure is not enabled (R405, R486). -/
def baseWrite (enabled : Bool) (old new : Reg) (store : State → State) (s : State) : State :=
  if enabled && decide (old ≠ new) then { s with host.cfgErr := true } else store s

/-- RING_CFG.EN of a product ring is cleared: what is being written there is abandoned and kept. -/
def stopRing (r : Nat) (s : State) : State :=
  if h : 3 ≤ r ∧ r < 67 then
    let o := Outlet.ring ⟨r - 3, by omega⟩
    let s := { s with host.jobs := s.host.jobs.filter (fun p => match p.2.kind with
      | .body x => decide (x ≠ o)
      | .trailer x => decide (x ≠ o)
      | _ => true) }
    setOutlet o (abandonOutlet (outletOf s o)) s
  else s

/-- RING_CFG.EN of a ring is set: a source ring counts its samples anew (R395), owed completions find room. -/
def startRing (r : Nat) (s : State) : State :=
  if 67 ≤ r then
    { s with
      host.src := vset s.host.src (r - 67) ⟨[], 0, (vget s.host.srcCons (r - 67) 0).toNat⟩
      host.srcSeen := Tab.del s.host.srcSeen (r - 67) }
  else if r = 1 then flushOwed s else s

/-- A RING_CFG write that no reserved code refuses (Table 15-16, R405). -/
def writeRingCfg (r : Nat) (v : Reg) (s : State) : State :=
  let v := v &&& 0xFFFFFF
  let old := vget s.host.ringCfg r 0
  if rbit old 6 && rbit v 6 then (if v = old then s else { s with host.cfgErr := true })
  else
    let s := { s with host.ringCfg := vset s.host.ringCfg r v }
    if rbit v 6 then startRing r s else if rbit old 6 then stopRing r s else s

/-- A DMA_CH write (Table 15-18): the buffers may not exceed 128 units together. -/
def writeDmaCh (c : Nat) (v : Reg) (s : State) : State :=
  let v := v &&& 0xFFFF
  let all := vset s.host.dmaCh c v
  if 128 < (all.toList.map (fun x => fld x 9 7)).sum then { s with host.cfgErr := true } else { s with host.dmaCh := all }

/-- A write into the MSI-X table, as PCIe defines it: a vector that is unmasked with its pending bit set fires. -/
def writeMsix (i : Nat) (v : Reg) (s : State) : State :=
  let v := if i % 4 = 0 then v &&& 0xFFFFFFFC else if i % 4 = 3 then v &&& 1 else v
  let s := { s with host.msixTable := vset s.host.msixTable i v }
  if i % 4 = 3 ∧ v = 0 ∧ s.host.msixPba.getLsbD (i / 4) then
    let w (k : Nat) := (vget s.host.msixTable (4 * (i / 4) + k) 0).toNat
    hostWrite [⟨w 0 + 2 ^ 32 * w 1, le 4 (w 2)⟩] { s with host.msixPba := s.host.msixPba &&& ~~~ (BitVec.ofNat 64 (2 ^ (i / 4))) }
  else s

/-- A LANE_EQ write (Table 12-9). -/
def writeLaneEq (l : Nat) (v : Reg) (s : State) : State :=
  let s := setLane l { laneOf s l with eq := v &&& 0x1BFFF } s
  if rbit v 14 then restartLane l s else s

/-- A LANE_TEST write (Table 12-10): a checker whose pattern changes loads again. -/
def writeLaneTest (l : Nat) (v : Reg) (s : State) : State :=
  let x := laneOf s l
  let keep := decide (fld v 3 4 = fld x.test 3 4)
  let s := setLane l { x with
    test := v &&& 0x7F, prbsLock := x.prbsLock && keep, chk := if keep then x.chk else Checker.reset
    tx := if fld v 0 3 = fld x.test 0 3 then x.tx else { x.tx with gen := 2 ^ 31 - 1 } } s
  if rbit v 7 then injectError l s else s

/-- A mesh register takes a changed value only while no mesh or twin quad is enabled (R342). -/
def meshWrite (old new : Reg) (store : State → State) (s : State) : State :=
  if decide (old ≠ new) && !(quadsOf s 4 ++ quadsOf s 5).isEmpty then
    (List.range 16).foldl (fun s q =>
      if fld (quadOf s q).cfg 1 4 = 4 then setQuad q { quadOf s q with cfgErr := true } s else s) s
  else store s

/-- A VCAP write (Table 16-10); the hub runs at its cap (R417), and holds its last voltage once steward 16 is lost (R407). -/
def writeVcap (d : Nat) (v : Reg) (s : State) : State :=
  let x := vget s.mgmt.dom d (Domain.reset false)
  let s := { s with mgmt.dom := vset s.mgmt.dom d { x with vcap := v &&& 0x1F } }
  if d = 16 ∧ ¬ (domOf s 16).lost then { s with mgmt.dom := vset s.mgmt.dom 16 { vget s.mgmt.dom 16 (Domain.reset true) with vnow := vcapEff s 16 } } else s

/-- The effect of a write that no reserved code refuses. Read-only registers ignore it; a 1 clears a w1c bit. -/
def storeReg (m : Master) (r : RegId) (v : Reg) (s : State) : State :=
  match r with
  | .accStat => { s with boot.accStat := s.boot.accStat &&& ~~~ (v.setWidth 4) }
  | .scratch => { s with boot.scratch := v }
  | .bootStat => { s with boot.earlyWr := s.boot.earlyWr && !rbit v 7 }
  | .imgLo => { s with boot.imgLo := v }
  | .imgHi => { s with boot.imgHi := v }
  | .hostCtl => writeHostBoot v s
  | .hifCtl => writeHostCtl v s
  | .hifStat => { s with host.cfgErr := s.host.cfgErr && !rbit v 1, host.perstSeen := s.host.perstSeen && !rbit v 11 }
  | .poll => { s with host.poll := v &&& 0x1FF }
  | .dbLo => baseWrite (rbit s.host.ctl 0) s.host.dbLo (v &&& 0xFFFFF000) (fun s => { s with host.dbLo := v &&& 0xFFFFF000 }) s
  | .dbHi => baseWrite (rbit s.host.ctl 0) s.host.dbHi v (fun s => { s with host.dbHi := v }) s
  | .sbLo => baseWrite (rbit s.host.ctl 0) s.host.sbLo (v &&& 0xFFFFFC00) (fun s => { s with host.sbLo := v &&& 0xFFFFFC00 }) s
  | .sbHi => baseWrite (rbit s.host.ctl 0) s.host.sbHi v (fun s => { s with host.sbHi := v }) s
  | .ringLo k => baseWrite (ringEn s k) (vget s.host.ringLo k 0) v (fun s => { s with host.ringLo := vset s.host.ringLo k v }) s
  | .ringHi k => baseWrite (ringEn s k) (vget s.host.ringHi k 0) v (fun s => { s with host.ringHi := vset s.host.ringHi k v }) s
  | .ringCfg k => writeRingCfg k v s
  | .msixMod k =>
    let s := { s with host.msixMod := vset s.host.msixMod k (v &&& 0xFFFFF) }
    if msixCount s k ≤ (vget s.host.msix k ⟨0, none, 0⟩).items then msixFire k s else s
  | .dmaCh c => writeDmaCh c v s
  | .quadQuota k => { s with host.quadQuota := vset s.host.quadQuota k (v &&& 0x3F3F3F3F) }
  | .msixTable i => writeMsix i v s
  | .tbCtl => writeTbCtl v s
  | .tbStatus => { s with tb.tsetErr := s.tb.tsetErr && !rbit v 13, tb.sclkErr := s.tb.sclkErr && !rbit v 14 }
  | .slew => { s with tb.slew := v &&& 0x3FFF }
  | .tsetLo => { s with tb.tsetLo := v }
  | .tsetHi => { s with tb.tsetHi := v }
  | .tsetCtl => writeTsetCtl v s
  | .refCfg n => writeRefCfg n v s
  | .sclkCfg k => writeSclkCfg k v s
  | .quadCfg q => writeQuadCfg q v s
  | .quadStat q => setQuad q { quadOf s q with cfgErr := (quadOf s q).cfgErr && !rbit v 12 } s
  | .sleepCfg q => writeSleepCfg q v s
  | .linkCfg q => setQuad q { quadOf s q with linkCfg := v &&& 0x3FFF } s
  | .linkClr q => if rbit v 0 then clearLink q s else s
  | .laneEq l => writeLaneEq l v s
  | .laneTest l => writeLaneTest l v s
  | .cntClr l => if rbit v 0 then clearLane l s else s
  | .meshCfg => meshWrite s.link.meshCfg (v &&& 0x3FFFFF) (fun s => { s with link.meshCfg := v &&& 0x3FFFFF }) s
  | .meshPort => meshWrite s.link.meshPort (v &&& 0xFFFFF) (fun s => { s with link.meshPort := v &&& 0xFFFFF }) s
  | .rsvA => { s with hbm.rsvA := v &&& 0x7FFFFFF }
  | .rsvB => { s with hbm.rsvB := v &&& 0x7FFFFFF }
  | .hbmCtl => writeHbmCtl v s
  | .hbmStat => { s with hbm.layoutErr := s.hbm.layoutErr && !rbit v 12 }
  | .vcap d => writeVcap d v s
  | .pcap => { s with mgmt.pcap := v &&& 0x1FF }
  | .winCfg n => writeWinCfg n v s
  | .winValue n k => writeWinValue n k v s
  | .monStat => { s with mgmt.winErr := s.mgmt.winErr && !rbit v 16 }
  | .gdlySel => writeGdlySel v s
  | .twinCtl => writeTwinCtl v s
  | .twinStat => { s with twin.cfgErr := s.twin.cfgErr && !rbit v 9 }
  | .secCtl => writeSecurityCtl v s
  | .xbarCtl => if m = .hostBridge then { s with mgmt.accessErr := true } else { s with mgmt.xctl := v &&& 0xFF }
  | .xbarStage => { s with mgmt.xstage := v &&& 0x3FFF }
  | .xbarStat => { s with mgmt.lockBroken := s.mgmt.lockBroken && !rbit v 0, mgmt.accessErr := s.mgmt.accessErr && !rbit v 1 }
  | _ => s

/-- A write of the 32-bit register at an aligned offset: bank, READY (R466: of the reserved banks too), reserved codes, then the register. -/
def regWrite32 (m : Master) (off : Nat) (v : Reg) (s : State) : State :=
  let s := if bankServed s off then s else { s with boot.earlyWr := true }
  if 10 ≤ off / 0x10000 then accFlag 2 s
  else if !bankServed s off then s
  else match regAt off with
    | none => s
    | some r => if reservedCode r v then accFlag 4 s else storeReg m r v s

/-- A register write (R477); a narrow one is ignored before READY for both reasons (R466). -/
def regWrite (m : Master) (off : Nat) (width : AccessWidth) (v : BitVec 64) (s : State) : State :=
  if inReset s then s
  else if off % accBytes width ≠ 0 then accFlag 8 s
  else match width with
    | .w64 => regWrite32 m (off + 4) ((v >>> 32).setWidth 32) (regWrite32 m off (v.setWidth 32) s)
    | .w32 => regWrite32 m off (v.setWidth 32) s
    | _ => accFlag (if 10 ≤ off / 0x10000 then 3 else 1) (if bankServed s off then s else { s with boot.earlyWr := true })

/-! ## The control crossbar (R410, R411) -/

/-- The number of a master (Table 16-4). -/
def masterCode : Master → Nat
  | .core n => n.val
  | .hostBridge => 4
  | .fetcher => 5
  | .debug => 6

/-- The open locked sequence of a target. -/
def openLock (s : State) (x : XTarget) : Option XLock :=
  (s.mgmt.locks.find? (fun p => decide (p.1 = x) && !p.2.broken)).map (·.2)

/-- The master's sequence on the target was broken, and its next access has not come yet. -/
def brokenLock (s : State) (x : XTarget) (m : Master) : Bool :=
  s.mgmt.locks.any (fun p => decide (p.1 = x ∧ p.2.master = m) && p.2.broken)

/-- Remove the master's sequence on the target. -/
def dropLock (x : XTarget) (m : Master) (s : State) : State :=
  { s with mgmt.locks := s.mgmt.locks.filter (fun p => !decide (p.1 = x ∧ p.2.master = m)) }

/-- A transaction of the open sequence counts (R411). -/
def countLock (x : XTarget) (s : State) : State :=
  { s with mgmt.locks := s.mgmt.locks.map (fun p => if p.1 = x ∧ p.2.broken = false then (p.1, { p.2 with count := p.2.count + 1 }) else p) }

/-- Where address `a` of the crossbar leads, with the offset there (Table 16-2, R409): `none` reaches no target. -/
def xTarget (s : State) (a : Nat) : Option (XTarget × Nat) :=
  let at_ (x : XTarget) (base size : Nat) : Option (XTarget × Nat) := if base ≤ a ∧ a < base + size then some (x, a - base) else none
  let alias_ := if rbit s.mgmt.xctl 0 then at_ .scribeSram 0 (hubSize 1) else at_ .bootRom 0 0x10000
  alias_ <|> at_ .scribeSram 0x00100000 (hubSize 1) <|> at_ .bootRom 0x08000000 0x10000 <|> at_ .banks 0x10000000 0x400000 <|>
    at_ .mailboxes 0x20000000 (17 * 0x1000) <|> at_ .keyStore 0x30000000 0x1000 <|> at_ .hbmWindow 0x40000000 0x40000000

/-- Bytes of a memory of the management side that a read of `n` takes; one that nothing has written reads 0 (R474). -/
def memRead (t : Tab Byte) (off n : Nat) : Nat := ofLe ((List.range n).map (fun i => Tab.getD t (off + i) 0))

/-- Write bytes into such a memory. -/
def memWrite (t : Tab Byte) (off : Nat) (b : Bytes) : Tab Byte := b.zipIdx.foldl (fun t x => Tab.put t (off + x.2) x.1) t

/-- The HBM address of an offset of the HBM window (Table 16-3). -/
def windowAddr (s : State) (off : Nat) : Nat := fld s.mgmt.xctl 1 7 * 2 ^ 30 + off

/-- A write that a target other than the register banks serves: boot ROM and key store keep what they hold, and the HBM window is a request of
the management port (log entry 132). -/
def memStore (x : XTarget) (off n : Nat) (v : BitVec 64) (s : State) : State :=
  match x with
  | .scribeSram => { s with mgmt.scribe := memWrite s.mgmt.scribe off (le n v.toNat) }
  | .mailboxes => { s with mgmt.mailbox := memWrite s.mgmt.mailbox off (le n v.toNat) }
  | .hbmWindow => hbmWritten (windowAddr s off) n (hbmRequest 7 .outside (windowAddr s off) s)
  | _ => s

/-- A read of one of them: boot ROM, key store and HBM window answer free values, since no layout of theirs is stated (log entry 132). -/
def memLoad (x : XTarget) (off n : Nat) (s : State) : Nat × State :=
  match x with
  | .scribeSram => (memRead s.mgmt.scribe off n, s)
  | .mailboxes => (memRead s.mgmt.mailbox off n, s)
  | .hbmWindow => (hbmRequest 7 .outside (windowAddr s off) s).drawFree (8 * n)
  | _ => s.drawFree (8 * n)

/-- What a target does with an access it serves. -/
def serve (m : Master) (x : XTarget) (a : Access) (s : State) : State :=
  match a with
  | .write off w v => if x = .banks then regWrite m off w v s else memStore x off (accBytes w) v s
  | .read off w =>
    let p := if x = .banks then regRead off w s else memLoad x off (accBytes w) s
    { p.2 with out.read := BitVec.ofNat 64 p.1 }
  | .openLock => if (openLock s x).isSome then s else { s with mgmt.locks := s.mgmt.locks ++ [(x, ⟨m, 0, s.now, false⟩)] }

/-- A master has an access outstanding (R410). -/
def outstanding (s : State) (m : Master) : Bool := s.mgmt.waiting.any (fun p => decide (p.2.1 = m))

/-- One access of a master reaches a target: an error response, a wait behind another master's open sequence, or service. A master with an access
outstanding keeps the next one until that has ended (R410, R480). At 2.5 and 5.0 GT/s the host reaches configuration space alone (R368). -/
def access (m : Master) (x : XTarget) (a : Access) (s : State) : State :=
  if m = .hostBridge ∧ s.host.slow = true then s
  else if outstanding s m then { s with mgmt.waiting := s.mgmt.waiting ++ [(x, m, a)] }
  else if !reaches s m x then accessError s
  else if brokenLock s x m then accessError (dropLock x m s)
  else match openLock s x with
    | none => serve m x a s
    | some l => if l.master = m then serve m x a (countLock x s) else { s with mgmt.waiting := s.mgmt.waiting ++ [(x, m, a)] }

/-- The outstanding accesses: the first of each master (R410). -/
def firstWaiting (s : State) : List (XTarget × Master × Access) :=
  s.mgmt.waiting.foldl (fun l p => if l.any (fun q => decide (q.2.1 = p.2.1)) then l else l ++ [p]) []

/-- The outstanding access that is served next, of those whose target no other master holds: round robin from the master served last (R410). -/
def nextWaiting (s : State) (last : Nat) : Option (XTarget × Master × Access) :=
  let l := (firstWaiting s).filter (fun p => match openLock s p.1 with
    | some k => decide (k.master = p.2.1)
    | none => true)
  let dist (p : XTarget × Master × Access) := (masterCode p.2.1 + 6 - last) % 7
  l.foldl (fun b p => match b with
    | none => some p
    | some q => if dist p < dist q then some p else b) none

/-- An outstanding access is served, with the rest of its master's held back meanwhile. -/
def serveOne (p : XTarget × Master × Access) (s : State) : State :=
  let rest := s.mgmt.waiting.erase p
  let t := access p.2.1 p.1 p.2.2 { s with mgmt.waiting := [] }
  { t with mgmt.waiting := t.mgmt.waiting ++ rest }

/-- Serve what waits, as far as no sequence is open on its target. -/
def serveWaiting : Nat → Nat → State → State
  | 0, _, s => s
  | n + 1, last, s =>
    match nextWaiting s last with
    | none => s
    | some p => serveWaiting n (masterCode p.2.1) (serveOne p s)

/-- A sequence of a master has ended: what waits is served. -/
def releaseTarget (m : Master) (s : State) : State := serveWaiting s.mgmt.waiting.length (masterCode m) s

/-- The same access at another offset. -/
def Access.moved (a : Access) (off : Nat) : Access :=
  match a with
  | .write _ w v => .write off w v
  | .read _ w => .read off w
  | .openLock => .openLock

/-- An access of a master to an address: of BAR0 for the host bridge, of the crossbar for the others (Table 16-2). -/
def accessAt (m : Master) (addr : Nat) (a : Access) (s : State) : State :=
  match (if m = .hostBridge then some (.banks, addr % 2 ^ 22) else xTarget s addr) with
  | none => accessError s
  | some (x, off) => access m x (a.moved off) s

/-- CROSSBAR_LOCK (R411): a scribe core or the debug port opens or ends a locked sequence. -/
def execCrossbarLock (t : Tick) (m : Master) (target : XTarget) (unlock : Bool) (s : State) : Host.Outcome State Fault Refusal :=
  let s := s.advance t
  let x := aliased s target
  if !(coreMaster m || decide (m = .debug)) then .next s
  else if !unlock then .next (access m x .openLock s)
  else if !reaches s m x then .next (accessError s)
  else if brokenLock s x m then .next (accessError (dropLock x m s))
  else match openLock s x with
    | some l => if l.master = m then .next (releaseTarget m (dropLock x m s)) else .next s
    | none => .next s

/-- CROSSBAR_LOCK_BROKEN (R411): after 32 transactions or 5 µs. -/
def execCrossbarLockBroken (t : Tick) (target : XTarget) (s : State) : Host.Outcome State Fault Refusal :=
  let s := s.advance t
  let x := aliased s target
  match openLock s x with
  | some l =>
    if decide (32 ≤ l.count) || atLeastUs (s.now - l.at_) 5 then
      let locks := s.mgmt.locks.map (fun p => if p.1 = x then (p.1, { p.2 with broken := true }) else p)
      .next (releaseTarget l.master { s with mgmt.locks := locks, mgmt.lockBroken := true })
    else .next s
  | none => .next s

/-- REGISTER_WRITE: a write of any master to any offset of BAR0 (R476 to R486) or any address of the crossbar (R409). -/
def execRegisterWrite (t : Tick) (m : Master) (addr : BitVec 32) (width : AccessWidth) (value : BitVec 64) (s : State) :
    Host.Outcome State Fault Refusal :=
  .next (accessAt m addr.toNat (.write 0 width value) (s.advance t))

/-! ## Registers with rows of their own: 32-bit accesses of the host bridge -/

/-- A 32-bit write of the host bridge. -/
def hostReg (off : Nat) (v : Reg) (s : State) : State := access .hostBridge .banks (.write off .w32 (v.setWidth 64)) s

/-- HOSTIF_ENABLE: HOSTIF.CTL. -/
def execHostifEnable (t : Tick) (value : Reg) (s : State) : Host.Outcome State Fault Refusal := .next (hostReg 0x10000 value (s.advance t))

/-- HOST_BOOT_GO: ID_BOOT.HOST_CTL. -/
def execHostBootGo (t : Tick) (value : Reg) (s : State) : Host.Outcome State Fault Refusal := .next (hostReg 0x10C value (s.advance t))

/-- TIME_SET_ARM: TIMEBASE.TSET_CTL. -/
def execTimeSetArm (t : Tick) (value : Reg) (s : State) : Host.Outcome State Fault Refusal := .next (hostReg 0x20018 value (s.advance t))

/-- REF_SUSPECT_CLEAR: TIMEBASE.REF_CFGn. -/
def execRefSuspectClear (t : Tick) (n : Fin 4) (value : Reg) (s : State) : Host.Outcome State Fault Refusal :=
  .next (hostReg (0x20040 + 0x10 * n.val) value (s.advance t))

/-- SCLK_CFG_WRITE: TIMEBASE.SCLK_CFGk. -/
def execSclkCfgWrite (t : Tick) (k : Fin 2) (value : Reg) (s : State) : Host.Outcome State Fault Refusal :=
  .next (hostReg (0x20080 + 4 * k.val) value (s.advance t))

/-- The offset of register `o` of a lane. -/
def laneOff (lane o : Nat) : Nat := 0x30000 + 0x400 * (lane / 4) + 0x100 + 0x40 * (lane % 4) + o

/-- LANE_RESTART: LANE.LANE_EQ. -/
def execLaneRestart (t : Tick) (lane : Fin 64) (value : Reg) (s : State) : Host.Outcome State Fault Refusal :=
  .next (hostReg (laneOff lane.val 0) value (s.advance t))

/-- ERR_INJ: LANE.LANE_TEST. -/
def execErrInj (t : Tick) (lane : Fin 64) (value : Reg) (s : State) : Host.Outcome State Fault Refusal :=
  .next (hostReg (laneOff lane.val 4) value (s.advance t))

/-- LANE_CNT_CLR: LANE.CNT_CLR. -/
def execLaneCntClr (t : Tick) (lane : Fin 64) (value : Reg) (s : State) : Host.Outcome State Fault Refusal :=
  .next (hostReg (laneOff lane.val 0x20) value (s.advance t))

/-- LINK_CLR: LANE.LINK_CLR. -/
def execLinkClr (t : Tick) (q : Fin 16) (value : Reg) (s : State) : Host.Outcome State Fault Refusal :=
  .next (hostReg (0x30024 + 0x400 * q.val) value (s.advance t))

/-- QUAD_ENABLE: LANE.QUAD_CFG. -/
def execQuadEnable (t : Tick) (q : Fin 16) (value : Reg) (s : State) : Host.Outcome State Fault Refusal :=
  .next (hostReg (0x30000 + 0x400 * q.val) value (s.advance t))

/-- QUAD_DISABLE: LANE.QUAD_CFG. -/
def execQuadDisable (t : Tick) (q : Fin 16) (value : Reg) (s : State) : Host.Outcome State Fault Refusal :=
  .next (hostReg (0x30000 + 0x400 * q.val) value (s.advance t))

/-- HBM_APPLY: HBM.CTL. -/
def execHbmApply (t : Tick) (value : Reg) (s : State) : Host.Outcome State Fault Refusal := .next (hostReg 0x40008 value (s.advance t))

/-- HBM_CNT_CLR: HBM.CTL. -/
def execHbmCntClr (t : Tick) (value : Reg) (s : State) : Host.Outcome State Fault Refusal := .next (hostReg 0x40008 value (s.advance t))

/-- GDLY_SEL_WRITE: MONITOR.GDLY_SEL. -/
def execGdlySelWrite (t : Tick) (value : Reg) (s : State) : Host.Outcome State Fault Refusal := .next (hostReg 0x60F00 value (s.advance t))

/-- WINDOW_START: MONITOR.WIN_CFGn. -/
def execWindowStart (t : Tick) (n : Fin 16) (value : Reg) (s : State) : Host.Outcome State Fault Refusal :=
  .next (hostReg (0x60000 + 0x10 * n.val) value (s.advance t))

/-- WINDOW_STOP: MONITOR.WIN_CFGn. -/
def execWindowStop (t : Tick) (n : Fin 16) (value : Reg) (s : State) : Host.Outcome State Fault Refusal :=
  .next (hostReg (0x60000 + 0x10 * n.val) value (s.advance t))

/-- TWIN_CTL_WRITE: TWIN.CTL. -/
def execTwinCtlWrite (t : Tick) (value : Reg) (s : State) : Host.Outcome State Fault Refusal := .next (hostReg 0x70000 value (s.advance t))

/-- DBG_LOCK: SECURITY.CTL. -/
def execDbgLock (t : Tick) (value : Reg) (s : State) : Host.Outcome State Fault Refusal := .next (hostReg 0x80004 value (s.advance t))

/-- DBG_FUSE: SECURITY.CTL. -/
def execDbgFuse (t : Tick) (value : Reg) (s : State) : Host.Outcome State Fault Refusal := .next (hostReg 0x80004 value (s.advance t))

/-- SVN_COMMIT: SECURITY.CTL. -/
def execSvnCommit (t : Tick) (value : Reg) (s : State) : Host.Outcome State Fault Refusal := .next (hostReg 0x80004 value (s.advance t))

/-- REVOKE: SECURITY.CTL. -/
def execRevoke (t : Tick) (value : Reg) (s : State) : Host.Outcome State Fault Refusal := .next (hostReg 0x80004 value (s.advance t))

/-- LATCHED_LO_READ (R482): a 32-bit read of the low register of a latched pair. -/
def execLatchedLoRead (t : Tick) (pair : LatchedPair) (s : State) : Host.Outcome State Fault Refusal :=
  let off := match pair with
    | .serial => 0x18
    | .offset => 0x20020
    | .chFail => 0x40010
  .next (access .hostBridge .banks (.read off .w32) (s.advance t))

/-- BAD_REGISTER_READ (R477, R478, R409): a read of any master; of the registers, a misaligned one or one of a reserved bank returns 0 and sets
flags. -/
def execBadRegisterRead (t : Tick) (at_ : BusAddress) (width : AccessWidth) (s : State) : Host.Outcome State Fault Refusal :=
  .next (accessAt at_.master at_.addr.toNat (.read 0 width) (s.advance t))

end Sys2Proof.Machine
end

