-- ==== Sys2Proof/Machine/Ring.lean ====
section
/-!
DEFINITION. The command ring (15_host_interface.md R372 to R384, R403): polls of the doorbell block, descriptors, completions, the dispatch
of a descriptor by its opcode (Table 15-5), and the commands of the host interface itself (R56, R376, R383, R391, R513).
-/
namespace Sys2Proof.Machine

/-! ## nop and read-outs -/

/-- NOP (Table 15-5): it does nothing and completes with OK. -/
def runNop (d : Desc) (_data : Bytes) (s : State) : State :=
  match descChk d [] with
  | some c => refuse d c s
  | none => complete d stOk 0 s

def execNop (t : Tick) (d : Desc) (data : Bytes) (s : State) : Host.Outcome State Fault Refusal := .next (runNop d data (s.advance t))

/-- The rows of Table 03-10 of a plan in the order of R513. -/
def planCounters (s : State) (plan : Nat) (p : Plan) : List Nat :=
  let chips := ((List.range 1024).filter (fun c => p.devs.any (fun e => decide (e.chip = c))))
  let row (i : Nat) (keys : List Nat) : List Nat := keys.map (fun k => Tab.getD (vget s.chan.cnt i []) (plan * 65536 + k) 0)
  let chans := List.range p.count
  row 0 chips ++ row 1 chans ++ row 2 chips ++ row 3 chans ++ row 4 chips ++ row 5 chips ++ row 6 chips ++ row 7 chips ++ row 8 chips ++
    row 9 (List.range 4)

/-- The checks of COUNTER_READ_OUT, in order. -/
def counterReadOutChk (d : Desc) (_data : Bytes) (s : State) : Chk :=
  let block := par d 32 2
  let index := par d 34 2
  let vs : List Nat := match (planVersions s index).getLast? with
    | some p => planCounters s index p
    | none => []
  firstFail [descChk d [(32, 2), (34, 2)], need (decide (block = 0x030A)) stNotFound block,
    need (!(planVersions s index).isEmpty) stNotFound index, need (decide (16 + 8 * vs.length ≤ d.len.toNat)) stSize (16 + 8 * vs.length)]

/-- COUNTER_READ_OUT (R513): a 16-byte header and the counters as u64, written to `addr`. -/
def runCounterReadOut (d : Desc) (data : Bytes) (s : State) : State :=
  let block := par d 32 2
  let index := par d 34 2
  let vs : List Nat := match (planVersions s index).getLast? with
    | some p => planCounters s index p
    | none => []
  match counterReadOutChk d data s with
  | some c => refuse d c s
  | none =>
    let bytes := le 2 block ++ le 2 index ++ le 4 vs.length ++ le 8 s.tw ++ vs.flatMap (le 8)
    complete d stOk 0 (hostWrite [⟨d.addr.toNat, bytes⟩] s)

def execCounterReadOut (t : Tick) (d : Desc) (data : Bytes) (s : State) : Host.Outcome State Fault Refusal :=
  .next (runCounterReadOut d data (s.advance t))

/-- The number of values of a boot ROM table (R55, R59, R77, R231, R235, R246). -/
def romCount (table : Nat) : Nat :=
  match table with
  | 3 => 31
  | 4 => 131072
  | 5 => 8192
  | 6 => 20
  | 7 => 512
  | 8 => 256
  | 9 => 128
  | k => (presetTaps k).1 + (presetTaps k).2

/-- Value `i` of a boot ROM table, in stored order. -/
def romValue (table i : Nat) : Int :=
  match table with
  | 3 => compCoef i
  | 4 =>
    let u := unitCircle (i / 2)
    if i % 2 = 0 then u.1 else u.2
  | 5 => audioCoef (i / 32) (i % 32)
  | 6 => (audioHpCoef (i / 5)).getD (i % 5) 0
  | 7 => romCoef 8 (i / 8) (i % 8)
  | 8 => romCoef 4 (i / 4) (i % 4)
  | 9 => romCoef 2 (i / 2) (i % 2)
  | k =>
    let n := (presetTaps k).1
    if i < n then presetCoef k false i else presetCoef k true (i - n)

/-- The checks of PRESET_READ_OUT, in order. -/
def presetReadOutChk (d : Desc) (_data : Bytes) (_s : State) : Chk :=
  let table := par d 32 1
  let n := romCount table
  firstFail [descChk d [(32, 1)], need (decide (table ≤ 9)) stRange 32, need (decide (4 * n ≤ d.len.toNat)) stSize (4 * n)]

/-- PRESET_READ_OUT (Table 15-5): s32 values in stored order, written to `addr`. -/
def runPresetReadOut (d : Desc) (data : Bytes) (s : State) : State :=
  let table := par d 32 1
  let n := romCount table
  match presetReadOutChk d data s with
  | some c => refuse d c s
  | none => complete d stOk 0 (hostWrite [⟨d.addr.toNat, (List.range n).flatMap (fun i => leS 4 (romValue table i))⟩] s)

def execPresetReadOut (t : Tick) (d : Desc) (data : Bytes) (s : State) : Host.Outcome State Fault Refusal :=
  .next (runPresetReadOut d data (s.advance t))

/-- CLEAR_UNTRUSTED (R376): cause bits 1 to 3. -/
def runClearUntrusted (d : Desc) (_data : Bytes) (s : State) : State :=
  let bits := par d 32 4
  match firstFail [descChk d [(32, 4)], need (decide (bits &&& 0xE = bits)) stRange 32] with
  | some c => refuse d c s
  | none =>
    let s := noteActs s
    accept d { s with host.untrusted := s.host.untrusted &&& ~~~ (BitVec.ofNat 4 bits) }

def execClearUntrusted (t : Tick) (d : Desc) (data : Bytes) (s : State) : Host.Outcome State Fault Refusal :=
  .next (runClearUntrusted d data (s.advance t))

/-! ## Image unload (R383) -/

/-- A waveform table that a running or queued start or an echo calibration names. -/
def waveNamed (s : State) (id : Nat) : Bool :=
  s.tx.starts.any (fun p => match p.2.origin with
    | .echo _ c => decide (c.probe = id ∨ c.ref = id)
    | _ => match Tab.get s.tx.progs p.2.program with
      | some g => g.beams.any (fun b => decide (b.source = 0 ∧ b.srcId = id))
      | none => false)

/-- A running beam drives elements of drive group `g`, or of any group. -/
def groupBusy (s : State) (g : Option Nat) : Bool :=
  s.tx.beams.any (fun p => match g with
    | some k => decide (p.2.entry.group = k)
    | none => true)

/-- What an image unload finds: the image is named, absent, or removed with this effect. -/
inductive Unload where
  | named
  | absent
  | removed (s : State)

/-- Remove an entry of a table of images unless it is named. -/
def unloadEntry {α : Type} (t : Tab α) (id : Nat) (named : Bool) (put : Tab α → State) : Unload :=
  if !Tab.has t id then .absent else if named then .named else .removed (put (Tab.del t id))

/-- Remove the image of a kind and id (R383). -/
def unloadImage (kind id : Nat) (s : State) : Unload :=
  let sets := setsNamed s ++ s.corr.scheds.flatMap (fun r => (r.sched.pools.filter (fun q => decide (q.mode = 1))).map (·.bset))
  let inEffect := sets.filterMap (fun i => Tab.get s.corr.bsets i)
  match kind with
  | 0 => unloadEntry s.chan.protos id (protoNamed s id) (fun t => { s with chan.protos := t })
  | 1 => unloadEntry s.chan.gains id (gainNamed s id) (fun t => { s with chan.gains := t })
  | 2 =>
    let named := (allDescs s).any (fun g => decide (g.plan = id)) ||
      s.corr.scheds.any (fun r => r.sched.pools.any (fun q => decide (q.plan = id))) || inEffect.any (fun b => decide (b.plan = id))
    unloadEntry s.chan.plans id named (fun t => { s with
      chan.plans := t
      chan.owned := s.chan.owned.filter (fun p => decide (p.1 / 65536 ≠ id))
      chan.stamps := s.chan.stamps.filter (fun p => decide (p.1 / 2 ^ 160 ≠ id))
      chan.digestSent := s.chan.digestSent.filter (fun x => decide (x.1 ≠ id))
      chan.mismatch := s.chan.mismatch.filter (fun x => decide (x.1 ≠ id))
      chan.send := s.chan.send.filter (fun p => decide (p.1 / 65536 ≠ id))
      corr.stats := Tab.del s.corr.stats id })
  | 3 =>
    if cfgHeld s 3 id then match unloadSched id s with
      | some s' => .removed s'
      | none => .absent
    else .absent
  | 4 => unloadEntry s.corr.bsets id (sets.contains id) (fun t => { s with corr.bsets := t })
  | 5 => unloadEntry s.corr.tapers id (inEffect.any (fun b => decide (b.apod = 2 ∧ b.taper = id))) (fun t => { s with corr.tapers := t })
  | 6 => unloadEntry s.corr.weights id (inEffect.any (fun b => decide (b.source = 1 ∧ b.table = id))) (fun t => { s with corr.weights := t })
  | 7 => unloadEntry s.glint.sets id (glintSetNamed s id) (fun t => { s with glint.sets := t })
  | 8 => unloadEntry s.tx.waves id (waveNamed s id) (fun t => { s with tx.waves := t })
  | 9 => unloadEntry s.tx.progs id (programNamed s id) (fun t => { s with tx.progs := t })
  | 10 =>
    if id ≠ 0 ∨ s.tx.map.isEmpty then .absent else if groupBusy s none then .named else .removed { s with tx.map := [] }
  | 11 =>
    let named := groupBusy s (some id) || s.tx.map.any (fun m => decide (m.group = id))
    if Tab.has s.tx.groups id || Tab.has s.tx.newGroups id then
      (if named then .named
       else .removed { s with tx.groups := Tab.del s.tx.groups id, tx.newGroups := Tab.del s.tx.newGroups id })
    else .absent
  | 12 =>
    let is (r : Option RoutingSet) : Bool := match r with
      | some x => decide (x.id = id)
      | none => false
    if is s.audio.active || (is s.audio.idle && s.audio.swap.isSome) then .named
    else if is s.audio.idle then .removed { s with audio.idle := none } else .absent
  | 13 => if (s.lbox.scene.toList ++ s.lbox.pending).any (fun c => decide (c.id = id)) then .named else .absent
  | _ =>
    let keys := (s.lbox.tables.filter (fun p => decide (p.1 % 65536 = id))).map (·.1)
    if keys.isEmpty then .absent
    else if keys.any (fun k => lbNamed s (k / 65536) id) then .named
    else .removed { s with lbox.tables := s.lbox.tables.filter (fun p => decide (p.1 % 65536 ≠ id)) }

/-- What leaves the configuration digest with an image. -/
def unloadCfg (kind id : Nat) (s : State) : State :=
  if kind = 14 then (List.range 8).foldl (fun s k => cfgDel 14 (lbKey k id) s) s else cfgDel kind id s

/-- IMAGE_UNLOAD (R383). -/
def runImageUnload (d : Desc) (_data : Bytes) (s : State) : State :=
  let kind := par d 32 1
  let id := par d 34 2
  match firstFail [descChk d [(32, 1), (34, 2)], need (decide (kind ≤ 14)) stRange 32] with
  | some c => refuse d c s
  | none => match unloadImage kind id s with
    | .named => refuse d (stInUse, id) s
    | .absent => refuse d (stNotFound, id) s
    | .removed s' => accept d (unloadCfg kind id s')

def execImageUnload (t : Tick) (d : Desc) (data : Bytes) (s : State) : Host.Outcome State Fault Refusal :=
  .next (runImageUnload d data (s.advance t))

/-! ## Product binding (R391, R140) -/

/-- How many sources a product class has (Table 15-11). -/
def classSources (cls : Nat) : Nat :=
  match cls with
  | 0 => 64
  | 1 => 16
  | 2 => 64
  | 3 => 64
  | 6 => 64
  | 9 => 16
  | _ => 1

/-- Another source holds a binding id, or waits to take it. -/
def idHeld (s : State) (id cls source : Nat) : Bool :=
  s.host.bindings.any (fun p => decide (¬ (p.2.cls = cls ∧ p.2.source = source)) && (decide (p.1 = id) || (match p.2.replacement with
    | some (some r) => decide (r.1 = id)
    | _ => false)))

/-- The payload format of pool `k` changes at its next integration boundary (R140). -/
def setFormat (k fmt fscale : Nat) (s : State) : State :=
  { s with corr.scheds := s.corr.scheds.map (fun r => match r.pool? k with
      | some q =>
        if q.mode = 0 then
          let n := ceilDiv (nextRelease s q - q.first) (max 1 q.integ)
          let old := (Tab.getD r.formats k []).filter (fun f => decide (f.1 < n))
          { r with formats := Tab.put r.formats k ((n, fmt, fscale) :: old) }
        else r
      | none => r) }

/-- The checks of a product binding. -/
def bindChk (d : Desc) (s : State) : Chk :=
  let cls := par d 33 1
  let source := par d 34 2
  let ring := par d 36 1
  let quad := par d 37 1
  let fmt := par d 38 1
  let fscale := par d 39 1
  firstFail [descChk d [(32, 8)], need (decide (cls ≤ 9)) stRange 33, need (decide (source < classSources cls)) stRange 34,
    need (decide (ring = 0xFF) || decide (ring < 64 ∧ cls ≠ 8)) stRange 36, need (decide (quad = 0xFF ∨ quad < 16)) stRange 37,
    need (decide (fmt ≤ 2 ∧ (cls = 0 ∨ fmt = 0))) stRange 38, need (decide (fscale ≤ 63 ∧ (cls = 0 ∨ fscale = 0))) stRange 39,
    need (decide (ring = 0xFF ∧ quad = 0xFF) || !idHeld s (par d 32 1) cls source) stConflict (par d 32 1)]

/-- The transmit direction of a trigger outlet never sleeps (R186): a quad that sleeps when it is bound to glint events wakes. -/
def wakeOutlet (b : Binding) (s : State) : State := if b.cls = 8 ∧ b.quad < 16 then startWake b.quad s else s

/-- PRODUCT_BINDING (R391, Table 15-11). A replacement waits for the source's next record; a trigger outlet forms no records, so its binding
changes at once. -/
def runProductBinding (d : Desc) (_data : Bytes) (s : State) : State :=
  let id := par d 32 1
  let cls := par d 33 1
  let source := par d 34 2
  let ring := par d 36 1
  let quad := par d 37 1
  let fmt := par d 38 1
  let fscale := par d 39 1
  let off := decide (ring = 0xFF ∧ quad = 0xFF)
  match bindChk d s with
  | some c => refuse d c s
  | none =>
    let key := cls * 65536 + source
    let enter (s : State) : State := if off then cfgDel 17 key s else cfgPut 17 key (slice d.params 0 8) s
    let s := if cls = 0 then setFormat source (if off then 0 else fmt) (if off then 0 else fscale) s else s
    let fresh : Binding := ⟨cls, source, ring, quad, fmt, fscale, 0, none⟩
    match bindingOf s cls source with
    | none => accept d (enter (if off then s else wakeOutlet fresh { s with host.bindings := Tab.put s.host.bindings id fresh }))
    | some (old, b) =>
      if cls = 8 then
        let t := Tab.del s.host.bindings old
        accept d (enter (if off then { s with host.bindings := t } else wakeOutlet fresh { s with host.bindings := Tab.put t id fresh }))
      else
        let r := if off then none else some (id, ring, quad, fmt, fscale)
        complete d stOk 0 { s with host.bindings := Tab.put s.host.bindings old { b with replacement := some r } }

def execProductBinding (t : Tick) (d : Desc) (data : Bytes) (s : State) : Host.Outcome State Fault Refusal :=
  .next (runProductBinding d data (s.advance t))

/-! ## Dispatch by opcode (Tables 15-5, 16-17, 17-13) -/

/-- An image load by its kind. -/
def runImageLoad (d : Desc) (data : Bytes) (s : State) : State :=
  match par d 32 1 with
  | 0 => runPrototypeLoad d data s
  | 1 => runGainTableLoad d data s
  | 2 => runPlanLoad d data s
  | 3 => runScheduleLoad d data s
  | 4 => runBeamSetLoad d data s
  | 5 => runTaperTableLoad d data s
  | 6 => runWeightTableLoad d data s
  | 7 => runGlintBeamSetLoad d data s
  | 8 => runWaveformTableLoad d data s
  | 9 => runTransmitProgramLoad d data s
  | 10 => runDriveMapLoad d data s
  | 11 => runDriveGroupLoad d data s
  | 12 => runRoutingSetLoad d data s
  | 13 => runSceneLoad d data s
  | 14 => runLightboxTableLoad d data s
  | _ => match descChk d [(32, 1)] with
    | some c => refuse d c s
    | none => refuse d (stRange, 32) s

/-- A twin role command by its op. -/
def runTwinRole (d : Desc) (data : Bytes) (s : State) : State :=
  match par d 32 1 with
  | 0 => runTwinHandover d data s
  | 1 => runTwinClaim d data s
  | _ => match descChk d [(32, 1)] with
    | some c => refuse d c s
    | none => refuse d (stRange, 32) s

/-- Execute a command. -/
def runCommand (d : Desc) (data : Bytes) (s : State) : State :=
  match d.opcode.toNat with
  | 0x0001 => runNop d data s
  | 0x0002 => runCounterReadOut d data s
  | 0x0003 => runPresetReadOut d data s
  | 0x0004 => runClearUntrusted d data s
  | 0x0010 => runElementTableChange d data s
  | 0x0011 => runGroupDescriptor d data s
  | 0x0012 => runGroupStart d data s
  | 0x0013 => runGroupStop d data s
  | 0x0014 => runImageLoad d data s
  | 0x0015 => runImageUnload d data s
  | 0x0020 => runProductBinding d data s
  | 0x0021 => runShed d data s
  | 0x0022 => runRestore d data s
  | 0x0030 => runBeamSetSwitch d data s
  | 0x0040 => runGlintConfigure d data s
  | 0x0041 => runGlintDetector d data s
  | 0x0042 => runGlintArm d data s
  | 0x0043 => runGlintSetSwitch d data s
  | 0x0044 => runGlintPinClear d data s
  | 0x0050 => runDriveGroupStart d data s
  | 0x0051 => runTransmitStart d data s
  | 0x0052 => runTransmitStop d data s
  | 0x0053 => runEchoCalibration d data s
  | 0x0054 => runLoadWatchClear d data s
  | 0x0060 => runAudioConfigure d data s
  | 0x0061 => runRoutingSwap d data s
  | 0x0070 => runSurfaceWrite d data s
  | 0x0080 => runMonitorSnapshot d data s
  | 0x0081 => runEngineFence d data s
  | 0x00A0 => runTwinRole d data s
  | 0x00A1 => runTwinMap d data s
  | _ => refuse d (stBadOpcode, 0) s

/-! ## The ring (R380 to R382, R403) -/

/-- A fetched command starts: it completes with DMA_ERROR when it could not be read, and is executed otherwise. -/
def startCommand (h : Held) (s : State) : State :=
  match h.failed with
  | some c => complete h.desc stDma c s
  | none => runCommand h.desc h.data s

/-- A command may start: the completion ring has a free entry, and with the fence flag every earlier command has completed. -/
def mayStart (s : State) (d : Desc) : Bool := cplRoom s && (!d.flags.getLsbD 0 || s.host.owed.isEmpty)

/-- Start held commands in ring order as far as they may start. -/
def startHeldN : Nat → State → State
  | 0, s => s
  | n + 1, s =>
    match s.host.held with
    | [] => s
    | h :: rest => if mayStart s h.desc then startHeldN n (startCommand h { s with host.held := rest }) else s

/-- Start held commands. -/
def startHeld (s : State) : State := startHeldN s.host.held.length s

/-- A descriptor may be fetched (R380). -/
def mayFetch (s : State) : Bool := s.host.running && ringEn s 0 && decide (s.host.cmdCons ≠ s.host.db.cmdProd)

/-- The A16 holds a fetched command: cmd_cons advances, and the command starts when its turn comes. -/
def takeCommand (h : Held) (s : State) : State :=
  startHeld { s with host.cmdCons := s.host.cmdCons + 1, host.held := s.host.held ++ [h] }

/-- DESCRIPTOR_FETCHED (R380): 64 bytes of the descriptor at cmd_cons, and its data. -/
def execDescriptorFetched (t : Tick) (bytes data : Bytes) (s : State) : Host.Outcome State Fault Refusal :=
  let s := s.advance t
  if mayFetch s then .next (takeCommand ⟨parseDesc bytes s.host.cmdCons, data, none⟩ s) else .next s

/-- The descriptor that stands for one that could not be read (Table 15-6). -/
def unreadable (index : BitVec 32) : Desc := ⟨0, 0, 0xFFFFFFFF, 0, 0, 0, 0, zeros 32, index⟩

/-- COMMAND_READ_FAILED (R403). -/
def execCommandReadFailed (t : Tick) (bytes : Option Bytes) (cause : DmaCause) (s : State) : Host.Outcome State Fault Refusal :=
  let s := s.advance t
  let d := match bytes with
    | some b => parseDesc b s.host.cmdCons
    | none => unreadable s.host.cmdCons
  if mayFetch s then .next (takeCommand ⟨d, [], some (dmaCode cause)⟩ s) else .next s

/-- DEFERRED_COMPLETION (R381): the work of the deferred command with this ring index has ended. -/
def execDeferredCompletion (t : Tick) (index : BitVec 32) (s : State) : Host.Outcome State Fault Refusal :=
  let s := s.advance t
  match s.host.deferred.find? (fun x => decide (x.desc.index = index) && x.ended.isSome) with
  | none => .next s
  | some x => match x.ended with
    | none => .next s
    | some (status, info) => .next (complete x.desc status info { s with host.deferred := s.host.deferred.erase x })

/-! ## Polls (R372 to R374) -/

/-- The doorbell values of a block (Table 15-2). -/
def parseDoorbell (b : Bytes) : Doorbell where
  cmdProd := BitVec.ofNat 32 (fieldU b 0 4)
  cplCons := BitVec.ofNat 32 (fieldU b 4 4)
  evtCons := BitVec.ofNat 32 (fieldU b 8 4)
  prodCons := Vector.ofFn (fun i => BitVec.ofNat 64 (fieldU b (64 + 8 * i.val) 8))
  srcProd := Vector.ofFn (fun i => BitVec.ofNat 64 (fieldU b (576 + 8 * i.val) 8))

/-- Source rings in which this poll shows the first unread sample (Table 16-8 kind 4). -/
def noteSources (s : State) : State :=
  (List.range 32).foldl (fun s r =>
    let k := srcRingOf s r
    if ringEn s (r + 67) && decide (k.base + k.read + 1 < (vget s.host.db.srcProd r 0).toNat) && !Tab.has s.host.srcSeen r then
      { s with host.srcSeen := Tab.put s.host.srcSeen r s.now }
    else s) s

/-- HOSTIF.POLL in µs: 0 and values above 256 are treated as 256 (Table 15-15). -/
def pollUs (s : State) : Nat :=
  let x := fld s.host.poll 0 9
  if x = 0 then 256 else min 256 x

/-- A poll interval has passed since the last poll (R373). -/
def pollDue (s : State) : Bool :=
  match s.host.pollAt with
  | some a => atLeastUs (s.now - a) (pollUs s)
  | none => true

/-- DOORBELL_POLL (R373, R374): the new indices, what they let go on, and the status block when a field has changed. -/
def execDoorbellPoll (t : Tick) (block : Bytes) (s : State) : Host.Outcome State Fault Refusal :=
  let s := s.advance t
  if !s.host.running || decide (block.length < 832) || !pollDue s then .next s
  else
    let db := parseDoorbell block
    let polls := if db.cmdProd = s.host.db.cmdProd then s.host.polls else (db.cmdProd, s.now) :: s.host.polls
    let s := startHeld (flushOwed (noteSources { noteActs s with host.db := db, host.polls := polls, host.pollAt := some s.now }))
    .next (if statusBody s = s.host.sbLast then s else statusWrite s)

end Sys2Proof.Machine
end

