-- ==== Sys2Proof/Machine/Wire.lean ====
section
/-!
DEFINITION. From the bits of the lanes to frames and control blocks (12_lanes.md R289 to R292, 13_link_frames.md R306 to R311): blocks in
stripe order, frames put together, and each handed to the meaning of its command.
-/
namespace Sys2Proof.Machine

/-- The state that an outcome goes on in. -/
def after (o : Host.Outcome State Fault Refusal) (s : State) : State :=
  match o with
  | .next t => t
  | _ => s

/-- A frame that a board or peer sent arrives on a quad: the meaning of its command takes it (log entry 95). A quad whose role receives no
frames discards it (R306, R311). `arrival` is the time word of the first bit of its SOF (R320). -/
def takeFrame (q : Fin 16) (arrival : Nat) (f : RawFrame) (s : State) : State :=
  match quadRole s q.val with
  | 1 => after (execIngestFrame s.now q f s) s
  | 2 => after (execSenseFrame s.now q f s) s
  | 3 => after (execSenseFrame s.now q f s) s
  | 4 =>
    if f.kind = 2 then after (execLinkStateFrame s.now q f s) s
    else if f.kind = 1 then after (execPlanDigestFrame s.now q f s) s
    else after (execBatchFrame s.now q f s) s
  | 5 =>
    if (quadsOf s 5).head? ≠ some q.val then (twinLink q.val f s).2
    else if f.kind = 1 then after (execDigestFrame s.now f s) s
    else if f.kind = 2 then
      let op := fieldU f.data 16 1
      if op = 4 then after (execArbitrationResult s.now f s) s
      else if op = 5 then after (execEffectFrame s.now f s) s
      else after (execArbitrationOpen s.now f s) s
    else after (execTwinHeartbeat s.now f s) s
  | 8 => after (execTimeFrame s.now q (BitVec.ofNat 64 arrival) f s) s
  | _ => crcErr q.val s

/-- The frame of an SOF's payload, its data blocks and its EOF's payload (R307, R308). -/
def frameOf (sof : BitVec 64) (data : List (BitVec 64)) (eof : BitVec 64) (damaged : Bool) : RawFrame where
  profile := BitVec.ofNat 8 (blkByte sof 1)
  kind := BitVec.ofNat 8 (blkByte sof 2)
  rsv3 := BitVec.ofNat 8 (blkByte sof 3)
  n := BitVec.ofNat 16 (bitsOf sof.toNat 32 16)
  rsv6 := BitVec.ofNat 16 (bitsOf sof.toNat 48 16)
  data := data.flatMap (fun p => le 8 p.toNat)
  crc := BitVec.ofNat 32 (bitsOf eof.toNat 32 32)
  damaged := damaged
  spoilt := false

/-- The frame under way ends here, by its EOF or by the SOF of another (R311): one that an invalid header fell into is discarded and counted
once, here. -/
def endFrame (q : Fin 16) (eof : BitVec 64) (damaged : Bool) (s : State) : State :=
  let u := quadOf s q.val
  match u.rxFrame with
  | none => s
  | some f => takeFrame q f.at_ (frameOf f.sof f.data eof (damaged || f.bad)) (setQuad q.val { u with rxFrame := none } s)

/-- A control block arrives (R306): inside a frame it acts as outside it (R307). -/
def takeCtl (q : Fin 16) (at_ : Nat) (p : BitVec 64) (s : State) : State :=
  if ctlBad p then ctlErr q.val s
  else match blkByte p 0, ctlOp p with
    | 0x78, _ =>
      let s := endFrame q 0 true s
      setQuad q.val { quadOf s q.val with rxFrame := some ⟨p, [], false, at_⟩ } s
    | 0x87, _ => if (quadOf s q.val).rxFrame.isSome then endFrame q p false s else crcErr q.val s
    | 0x2D, _ => after (execCreditBlock s.now q p s) s
    | 0x33, 1 => after (execAckReceived s.now q p s) s
    | 0x33, 2 => after (execNakReceived s.now q p s) s
    | 0x33, 3 => after (execLateNoticeReceived s.now q p s) s
    | 0x55, 1 => after (execSleepReqReceived s.now q p s) s
    | 0x55, 2 => after (execSleepAckReceived s.now q p s) s
    | 0x55, 3 => after (execSleepNakReceived s.now q p s) s
    | 0x55, 4 => after (execCommitReceived s.now q p s) s
    | 0x55, 5 => after (execAbortReceived s.now q p s) s
    | 0x55, 6 => after (execWakeReceived s.now q p s) s
    | _, _ => s

/-- One block of a quad, in stripe order. -/
def takeBlk (q : Fin 16) (at_ : Nat) (b : Blk) (s : State) : State :=
  if b.isCtl then takeCtl q at_ b.payload s
  else
    let u := quadOf s q.val
    match u.rxFrame with
    | none => if b.isData then crcErr q.val s else s
    | some f =>
      setQuad q.val { u with rxFrame := some (if b.isData then { f with data := f.data ++ [b.payload] } else { f with bad := true }) } s

/-- Deliver the blocks of a quad that delivers, block k from lane k mod W, as far as they have arrived (R289, R293). -/
def pullN : Nat → Fin 16 → State → State
  | 0, _, s => s
  | k + 1, q, s =>
    let u := quadOf s q.val
    let l := 4 * q.val + u.rxK % cfgWidth u.cfg
    let x := laneOf s l
    match x.rx.fifo with
    | [] => s
    | b :: rest =>
      if delivers s q.val then pullN k q (takeBlk q b.1 b.2 (setLane l { x with rx.fifo := rest } (setQuad q.val { u with rxK := u.rxK + 1 } s)))
      else s

/-- Deliver what the lanes of a quad have queued. -/
def pull (q : Fin 16) (s : State) : State :=
  pullN ((List.range 4).map (fun l => (laneOf s (4 * q.val + l)).rx.fifo.length)).sum q s

/-- The quad of a lane (R283). -/
def laneQuad (lane : Fin 64) : Fin 16 := ⟨lane.val / 4, by omega⟩

/-- BLOCK_LOCK_ACQUIRED (R287, R291): the bits that bring block lock, 64 valid headers in a row on one boundary. -/
def execBlockLockAcquired (t : Tick) (lane : Fin 64) (bits : List Bool) (s : State) : Host.Outcome State Fault Refusal :=
  .next (pull (laneQuad lane) (blockBits lane.val bits (s.advance t)))

/-- BLOCK_LOCK_LOST (R287, R292): the bits that lose it, 16 invalid headers in a group of 64. -/
def execBlockLockLost (t : Tick) (lane : Fin 64) (bits : List Bool) (s : State) : Host.Outcome State Fault Refusal :=
  .next (pull (laneQuad lane) (blockBits lane.val bits (s.advance t)))

end Sys2Proof.Machine
end

