-- ==== Sys2Proof/Machine/Dispatch.lean ====
section
/-!
DEFINITION. The one dispatch of the block: each command to its meaning.
-/
namespace Sys2Proof.Machine

def exec (i : Instr) (s : State) : Host.Outcome State Fault Refusal :=
  match i with
  | .nop t d data => Sys2Proof.Machine.execNop t d data s
  | .counterReadOut t d data => Sys2Proof.Machine.execCounterReadOut t d data s
  | .presetReadOut t d data => Sys2Proof.Machine.execPresetReadOut t d data s
  | .clearUntrusted t d data => Sys2Proof.Machine.execClearUntrusted t d data s
  | .elementTableChange t d data => Sys2Proof.Machine.execElementTableChange t d data s
  | .groupDescriptor t d data => Sys2Proof.Machine.execGroupDescriptor t d data s
  | .groupStart t d data => Sys2Proof.Machine.execGroupStart t d data s
  | .groupStop t d data => Sys2Proof.Machine.execGroupStop t d data s
  | .prototypeLoad t d data => Sys2Proof.Machine.execPrototypeLoad t d data s
  | .gainTableLoad t d data => Sys2Proof.Machine.execGainTableLoad t d data s
  | .planLoad t d data => Sys2Proof.Machine.execPlanLoad t d data s
  | .scheduleLoad t d data => Sys2Proof.Machine.execScheduleLoad t d data s
  | .beamSetLoad t d data => Sys2Proof.Machine.execBeamSetLoad t d data s
  | .taperTableLoad t d data => Sys2Proof.Machine.execTaperTableLoad t d data s
  | .weightTableLoad t d data => Sys2Proof.Machine.execWeightTableLoad t d data s
  | .glintBeamSetLoad t d data => Sys2Proof.Machine.execGlintBeamSetLoad t d data s
  | .waveformTableLoad t d data => Sys2Proof.Machine.execWaveformTableLoad t d data s
  | .transmitProgramLoad t d data => Sys2Proof.Machine.execTransmitProgramLoad t d data s
  | .driveMapLoad t d data => Sys2Proof.Machine.execDriveMapLoad t d data s
  | .driveGroupLoad t d data => Sys2Proof.Machine.execDriveGroupLoad t d data s
  | .routingSetLoad t d data => Sys2Proof.Machine.execRoutingSetLoad t d data s
  | .sceneLoad t d data => Sys2Proof.Machine.execSceneLoad t d data s
  | .lightboxTableLoad t d data => Sys2Proof.Machine.execLightboxTableLoad t d data s
  | .imageUnload t d data => Sys2Proof.Machine.execImageUnload t d data s
  | .productBinding t d data => Sys2Proof.Machine.execProductBinding t d data s
  | .shed t d data => Sys2Proof.Machine.execShed t d data s
  | .restore t d data => Sys2Proof.Machine.execRestore t d data s
  | .beamSetSwitch t d data => Sys2Proof.Machine.execBeamSetSwitch t d data s
  | .glintConfigure t d data => Sys2Proof.Machine.execGlintConfigure t d data s
  | .glintDetector t d data => Sys2Proof.Machine.execGlintDetector t d data s
  | .glintArm t d data => Sys2Proof.Machine.execGlintArm t d data s
  | .glintSetSwitch t d data => Sys2Proof.Machine.execGlintSetSwitch t d data s
  | .glintPinClear t d data => Sys2Proof.Machine.execGlintPinClear t d data s
  | .driveGroupStart t d data => Sys2Proof.Machine.execDriveGroupStart t d data s
  | .transmitStart t d data => Sys2Proof.Machine.execTransmitStart t d data s
  | .transmitStop t d data => Sys2Proof.Machine.execTransmitStop t d data s
  | .echoCalibration t d data => Sys2Proof.Machine.execEchoCalibration t d data s
  | .loadWatchClear t d data => Sys2Proof.Machine.execLoadWatchClear t d data s
  | .audioConfigure t d data => Sys2Proof.Machine.execAudioConfigure t d data s
  | .routingSwap t d data => Sys2Proof.Machine.execRoutingSwap t d data s
  | .surfaceWrite t d data => Sys2Proof.Machine.execSurfaceWrite t d data s
  | .monitorSnapshot t d data => Sys2Proof.Machine.execMonitorSnapshot t d data s
  | .engineFence t d data => Sys2Proof.Machine.execEngineFence t d data s
  | .twinHandover t d data => Sys2Proof.Machine.execTwinHandover t d data s
  | .twinClaim t d data => Sys2Proof.Machine.execTwinClaim t d data s
  | .twinMap t d data => Sys2Proof.Machine.execTwinMap t d data s
  | .doorbellPoll t block => Sys2Proof.Machine.execDoorbellPoll t block s
  | .descriptorFetched t bytes data => Sys2Proof.Machine.execDescriptorFetched t bytes data s
  | .commandReadFailed t bytes cause => Sys2Proof.Machine.execCommandReadFailed t bytes cause s
  | .deferredCompletion t index => Sys2Proof.Machine.execDeferredCompletion t index s
  | .writeJobReadback t job result => Sys2Proof.Machine.execWriteJobReadback t job result s
  | .statusBlockRefresh t => Sys2Proof.Machine.execStatusBlockRefresh t s
  | .eventQueueDrain t => Sys2Proof.Machine.execEventQueueDrain t s
  | .outletTakeRecord t o ecc => Sys2Proof.Machine.execOutletTakeRecord t o ecc s
  | .trailerWrite t o => Sys2Proof.Machine.execTrailerWrite t o s
  | .sourceRingRead t ring bytes => Sys2Proof.Machine.execSourceRingRead t ring bytes s
  | .msixTimerExpiry t v => Sys2Proof.Machine.execMsixTimerExpiry t v s
  | .hostLinkLoss t cause => Sys2Proof.Machine.execHostLinkLoss t cause s
  | .pcieLinkTrained t gen link => Sys2Proof.Machine.execPcieLinkTrained t gen link s
  | .hostifEnable t value => Sys2Proof.Machine.execHostifEnable t value s
  | .hostBootGo t value => Sys2Proof.Machine.execHostBootGo t value s
  | .timeSetArm t value => Sys2Proof.Machine.execTimeSetArm t value s
  | .refSuspectClear t n value => Sys2Proof.Machine.execRefSuspectClear t n value s
  | .sclkCfgWrite t k value => Sys2Proof.Machine.execSclkCfgWrite t k value s
  | .laneRestart t lane value => Sys2Proof.Machine.execLaneRestart t lane value s
  | .errInj t lane value => Sys2Proof.Machine.execErrInj t lane value s
  | .laneCntClr t lane value => Sys2Proof.Machine.execLaneCntClr t lane value s
  | .linkClr t q value => Sys2Proof.Machine.execLinkClr t q value s
  | .quadEnable t q value => Sys2Proof.Machine.execQuadEnable t q value s
  | .quadDisable t q value => Sys2Proof.Machine.execQuadDisable t q value s
  | .hbmApply t value => Sys2Proof.Machine.execHbmApply t value s
  | .hbmCntClr t value => Sys2Proof.Machine.execHbmCntClr t value s
  | .gdlySelWrite t value => Sys2Proof.Machine.execGdlySelWrite t value s
  | .windowStart t n value => Sys2Proof.Machine.execWindowStart t n value s
  | .windowStop t n value => Sys2Proof.Machine.execWindowStop t n value s
  | .twinCtlWrite t value => Sys2Proof.Machine.execTwinCtlWrite t value s
  | .dbgLock t value => Sys2Proof.Machine.execDbgLock t value s
  | .dbgFuse t value => Sys2Proof.Machine.execDbgFuse t value s
  | .svnCommit t value => Sys2Proof.Machine.execSvnCommit t value s
  | .revoke t value => Sys2Proof.Machine.execRevoke t value s
  | .latchedLoRead t pair => Sys2Proof.Machine.execLatchedLoRead t pair s
  | .badRegisterRead t at_ width => Sys2Proof.Machine.execBadRegisterRead t at_ width s
  | .registerWrite t m addr width value => Sys2Proof.Machine.execRegisterWrite t m addr width value s
  | .crossbarLock t m target unlock => Sys2Proof.Machine.execCrossbarLock t m target unlock s
  | .crossbarLockBroken t target => Sys2Proof.Machine.execCrossbarLockBroken t target s
  | .porstRelease t bootMode => Sys2Proof.Machine.execPorstRelease t bootMode s
  | .sysrstRelease t bootMode => Sys2Proof.Machine.execSysrstRelease t bootMode s
  | .bootSelfCheckDone t => Sys2Proof.Machine.execBootSelfCheckDone t s
  | .firmwareImageRead t image => Sys2Proof.Machine.execFirmwareImageRead t image s
  | .hbmTrainingDone t trained => Sys2Proof.Machine.execHbmTrainingDone t trained s
  | .firmwareReady t failed => Sys2Proof.Machine.execFirmwareReady t failed s
  | .thermalSample t temps => Sys2Proof.Machine.execThermalSample t temps s
  | .thermalCeilingStep t => Sys2Proof.Machine.execThermalCeilingStep t s
  | .powerCapCheck t deviceMw domainMw => Sys2Proof.Machine.execPowerCapCheck t deviceMw domainMw s
  | .stewardHeartbeatMiss t st => Sys2Proof.Machine.execStewardHeartbeatMiss t st s
  | .slackWindowEval t d => Sys2Proof.Machine.execSlackWindowEval t d s
  | .voltageSettled t d => Sys2Proof.Machine.execVoltageSettled t d s
  | .ceilingLoweringStep t d => Sys2Proof.Machine.execCeilingLoweringStep t d s
  | .blockRelease t e => Sys2Proof.Machine.execBlockRelease t e s
  | .afterimageWriteTimeout t e block => Sys2Proof.Machine.execAfterimageWriteTimeout t e block s
  | .conditioningSlice t engine glintAccepts => Sys2Proof.Machine.execConditioningSlice t engine glintAccepts s
  | .channeliserFrame t e => Sys2Proof.Machine.execChanneliserFrame t e s
  | .sourceStatsRecord t plan => Sys2Proof.Machine.execSourceStatsRecord t plan s
  | .cornerTurnSend t plan pchan dest room => Sys2Proof.Machine.execCornerTurnSend t plan pchan dest room s
  | .strokeRelease t plan pchan => Sys2Proof.Machine.execStrokeRelease t plan pchan s
  | .engineSlotStart t engine ecc => Sys2Proof.Machine.execEngineSlotStart t engine ecc s
  | .engineHandoff t engine carried => Sys2Proof.Machine.execEngineHandoff t engine carried s
  | .inkwellUpdate t engine ecc => Sys2Proof.Machine.execInkwellUpdate t engine ecc s
  | .spillGrant t => Sys2Proof.Machine.execSpillGrant t s
  | .slotUnserved t engine => Sys2Proof.Machine.execSlotUnserved t engine s
  | .segmentReadoutDone t pool firstJob bank ecc => Sys2Proof.Machine.execSegmentReadoutDone t pool firstJob bank ecc s
  | .dumpRecord t => Sys2Proof.Machine.execDumpRecord t s
  | .engineStallTimeout t engine => Sys2Proof.Machine.execEngineStallTimeout t engine s
  | .fenceCheckDone t engine reloaded passed => Sys2Proof.Machine.execFenceCheckDone t engine reloaded passed s
  | .beamOutput t pool k block => Sys2Proof.Machine.execBeamOutput t pool k block s
  | .beamRecord t pool => Sys2Proof.Machine.execBeamRecord t pool s
  | .ingestFrame t q f => Sys2Proof.Machine.execIngestFrame t q f s
  | .senseFrame t q f => Sys2Proof.Machine.execSenseFrame t q f s
  | .loadWatchEval t e => Sys2Proof.Machine.execLoadWatchEval t e s
  | .driveFrameSend t q group stream chan0 nch nsamp ecc => Sys2Proof.Machine.execDriveFrameSend t q group stream chan0 nch nsamp ecc s
  | .transmitStartDue t => Sys2Proof.Machine.execTransmitStartDue t s
  | .heldStartReady t start => Sys2Proof.Machine.execHeldStartReady t start s
  | .programEnd t start => Sys2Proof.Machine.execProgramEnd t start s
  | .echoRepeat t => Sys2Proof.Machine.execEchoRepeat t s
  | .echoRecord t => Sys2Proof.Machine.execEchoRecord t s
  | .glintOutputDue t e => Sys2Proof.Machine.execGlintOutputDue t e s
  | .glintBeamSample t => Sys2Proof.Machine.execGlintBeamSample t s
  | .publishHoldExpiry t det => Sys2Proof.Machine.execPublishHoldExpiry t det s
  | .voidTimeout t det => Sys2Proof.Machine.execVoidTimeout t det s
  | .captureCopy t pin ecc => Sys2Proof.Machine.execCaptureCopy t pin ecc s
  | .markerHoldExpiry t layer m => Sys2Proof.Machine.execMarkerHoldExpiry t layer m s
  | .blankEnd t entry => Sys2Proof.Machine.execBlankEnd t entry s
  | .audioIndex t => Sys2Proof.Machine.execAudioIndex t s
  | .lightboxFrameBoundary t ecc => Sys2Proof.Machine.execLightboxFrameBoundary t ecc s
  | .lightboxWaitExpiry t ecc => Sys2Proof.Machine.execLightboxWaitExpiry t ecc s
  | .ppsEdge t r => Sys2Proof.Machine.execPpsEdge t r s
  | .timeFrame t q arrival f => Sys2Proof.Machine.execTimeFrame t q arrival f s
  | .timeFrameSend t q => Sys2Proof.Machine.execTimeFrameSend t q s
  | .refInactive t r cause => Sys2Proof.Machine.execRefInactive t r cause s
  | .ppsMissing t r => Sys2Proof.Machine.execPpsMissing t r s
  | .refQualifyEval t r offset => Sys2Proof.Machine.execRefQualifyEval t r offset s
  | .driftGuard t offsets => Sys2Proof.Machine.execDriftGuard t offsets s
  | .lockAchieved c => Sys2Proof.Machine.execLockAchieved c s
  | .historyEntry sec frac => Sys2Proof.Machine.execHistoryEntry sec frac s
  | .walkStep t => Sys2Proof.Machine.execWalkStep t s
  | .synthLockLost t out => Sys2Proof.Machine.execSynthLockLost t out s
  | .gateOpen t out => Sys2Proof.Machine.execGateOpen t out s
  | .ppsoutPulse t => Sys2Proof.Machine.execPpsoutPulse t s
  | .blockLockAcquired t lane bits => Sys2Proof.Machine.execBlockLockAcquired t lane bits s
  | .blockLockLost t lane bits => Sys2Proof.Machine.execBlockLockLost t lane bits s
  | .alignmentMarker t q markers => Sys2Proof.Machine.execAlignmentMarker t q markers s
  | .laneRetrain t lane => Sys2Proof.Machine.execLaneRetrain t lane s
  | .adaptationDone t lane => Sys2Proof.Machine.execAdaptationDone t lane s
  | .prbsLockAcquired t b => Sys2Proof.Machine.execPrbsLockAcquired t b s
  | .prbsLockLost t lane bits => Sys2Proof.Machine.execPrbsLockLost t lane bits s
  | .batchFrame t q f => Sys2Proof.Machine.execBatchFrame t q f s
  | .planDigestFrame t q f => Sys2Proof.Machine.execPlanDigestFrame t q f s
  | .linkStateFrame t q f => Sys2Proof.Machine.execLinkStateFrame t q f s
  | .linkStateOriginate t => Sys2Proof.Machine.execLinkStateOriginate t s
  | .forwardTimeout t frame => Sys2Proof.Machine.execForwardTimeout t frame s
  | .creditBlock t q block => Sys2Proof.Machine.execCreditBlock t q block s
  | .creditGrantSend t q vc => Sys2Proof.Machine.execCreditGrantSend t q vc s
  | .ackReceived t q block => Sys2Proof.Machine.execAckReceived t q block s
  | .nakReceived t q block => Sys2Proof.Machine.execNakReceived t q block s
  | .retryTimeout t q => Sys2Proof.Machine.execRetryTimeout t q s
  | .lateNoticeReceived t q block => Sys2Proof.Machine.execLateNoticeReceived t q block s
  | .sleepRequest t q => Sys2Proof.Machine.execSleepRequest t q s
  | .sleepReqReceived t q block => Sys2Proof.Machine.execSleepReqReceived t q block s
  | .sleepAckReceived t q block => Sys2Proof.Machine.execSleepAckReceived t q block s
  | .sleepNakReceived t q block => Sys2Proof.Machine.execSleepNakReceived t q block s
  | .sleepReqTimeout t q => Sys2Proof.Machine.execSleepReqTimeout t q s
  | .commitReceived t q block => Sys2Proof.Machine.execCommitReceived t q block s
  | .abortReceived t q block => Sys2Proof.Machine.execAbortReceived t q block s
  | .signalLostAfterAck t q => Sys2Proof.Machine.execSignalLostAfterAck t q s
  | .sleepAfterExpiry t q transmit => Sys2Proof.Machine.execSleepAfterExpiry t q transmit s
  | .wakeReceived t q block => Sys2Proof.Machine.execWakeReceived t q block s
  | .txWake t q => Sys2Proof.Machine.execTxWake t q s
  | .signalDetect t q => Sys2Proof.Machine.execSignalDetect t q s
  | .hbmRefresh t pc => Sys2Proof.Machine.execHbmRefresh t pc s
  | .hbmTempRead t stack reading => Sys2Proof.Machine.execHbmTempRead t stack reading s
  | .hbmAlert t channel recurs => Sys2Proof.Machine.execHbmAlert t channel recurs s
  | .scrubStep t word ecc => Sys2Proof.Machine.execScrubStep t word ecc s
  | .pairHalfArrival t half => Sys2Proof.Machine.execPairHalfArrival t half s
  | .pairTimeout t tag => Sys2Proof.Machine.execPairTimeout t tag s
  | .pairQuery t tag => Sys2Proof.Machine.execPairQuery t tag s
  | .monitorWindowEnd t n => Sys2Proof.Machine.execMonitorWindowEnd t n s
  | .twinHeartbeatSend t => Sys2Proof.Machine.execTwinHeartbeatSend t s
  | .twinHeartbeat t f => Sys2Proof.Machine.execTwinHeartbeat t f s
  | .partnerLost t => Sys2Proof.Machine.execPartnerLost t s
  | .timeSkew t => Sys2Proof.Machine.execTimeSkew t s
  | .inStep t => Sys2Proof.Machine.execInStep t s
  | .litTimerExpiry t => Sys2Proof.Machine.execLitTimerExpiry t s
  | .twinLitInChange t level => Sys2Proof.Machine.execTwinLitInChange t level s
  | .twinClaimTimer t => Sys2Proof.Machine.execTwinClaimTimer t s
  | .twinGateOpen t => Sys2Proof.Machine.execTwinGateOpen t s
  | .pinMismatch t => Sys2Proof.Machine.execPinMismatch t s
  | .digestSend t => Sys2Proof.Machine.execDigestSend t s
  | .digestFrame t f => Sys2Proof.Machine.execDigestFrame t f s
  | .mirrorCheckLate t cls subject => Sys2Proof.Machine.execMirrorCheckLate t cls subject s
  | .arbitrationOpen t f => Sys2Proof.Machine.execArbitrationOpen t f s
  | .recomputationDone t => Sys2Proof.Machine.execRecomputationDone t s
  | .arbitrationResult t f => Sys2Proof.Machine.execArbitrationResult t f s
  | .arbitrationTimeout t => Sys2Proof.Machine.execArbitrationTimeout t s
  | .effectFrame t f => Sys2Proof.Machine.execEffectFrame t f s
  | .hostTimedEffect t index => Sys2Proof.Machine.execHostTimedEffect t index s
  | .engineBufferError t engine => Sys2Proof.Machine.execEngineBufferError t engine s
  | .resetAssert t pin => Sys2Proof.Machine.execResetAssert t pin s
  | .supplyRangeChange t rail inRange => Sys2Proof.Machine.execSupplyRangeChange t rail inRange s

end Sys2Proof.Machine
end

