-- ==== Sys2Proof/Safety.lean ====
section
/-! DEFINITION. What a safe run keeps, in the terms the statements use: what completing a command may touch, and the blocks of the
state that each command may change. -/

namespace Sys2Proof.Machine

/-- Nothing but the host interface, the scribe's event log, the recovery windows, what was put out and the count of free
values differs between the two states. -/
def SameOutsideHost (s s' : State) : Prop :=
  { s' with host := s.host, mgmt.log := s.mgmt.log, twin.recov := s.twin.recov, out := s.out, free := s.free } = s

/-- The blocks of the state, one per field but for the queue of commands. `offset` is the time word minus the clock, `clock` the
clock, `time` the time base, `free` the count of free values drawn, and `out` what the device has put out (host memory and
lanes). -/
inductive Block where
  | host | out | mgmt | twin | free | link | corr | tx | cond | glint | hbm | chan | boot | lbox | pins | audio | offset | time | clock
  deriving DecidableEq, Repr

/-- Two states hold the same in a block. -/
def Block.same (s t : State) : Block → Prop
  | .host => t.host = s.host
  | .out => t.out = s.out
  | .mgmt => t.mgmt = s.mgmt
  | .twin => t.twin = s.twin
  | .free => t.free = s.free
  | .link => t.link = s.link
  | .corr => t.corr = s.corr
  | .tx => t.tx = s.tx
  | .cond => t.cond = s.cond
  | .glint => t.glint = s.glint
  | .hbm => t.hbm = s.hbm
  | .chan => t.chan = s.chan
  | .boot => t.boot = s.boot
  | .lbox => t.lbox = s.lbox
  | .pins => t.pins = s.pins
  | .audio => t.audio = s.audio
  | .offset => t.tOffset = s.tOffset
  | .time => t.tb = s.tb
  | .clock => t.now = s.now

/-- Every block: what a reset may change. -/
def everyBlock : List Block :=
  [.host, .out, .mgmt, .twin, .free, .link, .corr, .tx, .cond, .glint, .hbm, .chan, .boot, .lbox, .pins, .audio, .offset, .time, .clock]

/-- The instant of a command. -/
def tick : Instr → Tick
  | .nop t _ _ => t
  | .counterReadOut t _ _ => t
  | .presetReadOut t _ _ => t
  | .clearUntrusted t _ _ => t
  | .elementTableChange t _ _ => t
  | .groupDescriptor t _ _ => t
  | .groupStart t _ _ => t
  | .groupStop t _ _ => t
  | .prototypeLoad t _ _ => t
  | .gainTableLoad t _ _ => t
  | .planLoad t _ _ => t
  | .scheduleLoad t _ _ => t
  | .beamSetLoad t _ _ => t
  | .taperTableLoad t _ _ => t
  | .weightTableLoad t _ _ => t
  | .glintBeamSetLoad t _ _ => t
  | .waveformTableLoad t _ _ => t
  | .transmitProgramLoad t _ _ => t
  | .driveMapLoad t _ _ => t
  | .driveGroupLoad t _ _ => t
  | .routingSetLoad t _ _ => t
  | .sceneLoad t _ _ => t
  | .lightboxTableLoad t _ _ => t
  | .imageUnload t _ _ => t
  | .productBinding t _ _ => t
  | .shed t _ _ => t
  | .restore t _ _ => t
  | .beamSetSwitch t _ _ => t
  | .glintConfigure t _ _ => t
  | .glintDetector t _ _ => t
  | .glintArm t _ _ => t
  | .glintSetSwitch t _ _ => t
  | .glintPinClear t _ _ => t
  | .driveGroupStart t _ _ => t
  | .transmitStart t _ _ => t
  | .transmitStop t _ _ => t
  | .echoCalibration t _ _ => t
  | .loadWatchClear t _ _ => t
  | .audioConfigure t _ _ => t
  | .routingSwap t _ _ => t
  | .surfaceWrite t _ _ => t
  | .monitorSnapshot t _ _ => t
  | .engineFence t _ _ => t
  | .twinHandover t _ _ => t
  | .twinClaim t _ _ => t
  | .twinMap t _ _ => t
  | .doorbellPoll t _ => t
  | .descriptorFetched t _ _ => t
  | .commandReadFailed t _ _ => t
  | .deferredCompletion t _ => t
  | .writeJobReadback t _ _ => t
  | .statusBlockRefresh t => t
  | .eventQueueDrain t => t
  | .outletTakeRecord t _ _ => t
  | .trailerWrite t _ => t
  | .sourceRingRead t _ _ => t
  | .msixTimerExpiry t _ => t
  | .hostLinkLoss t _ => t
  | .pcieLinkTrained t _ _ => t
  | .hostifEnable t _ => t
  | .hostBootGo t _ => t
  | .timeSetArm t _ => t
  | .refSuspectClear t _ _ => t
  | .sclkCfgWrite t _ _ => t
  | .laneRestart t _ _ => t
  | .errInj t _ _ => t
  | .laneCntClr t _ _ => t
  | .linkClr t _ _ => t
  | .quadEnable t _ _ => t
  | .quadDisable t _ _ => t
  | .hbmApply t _ => t
  | .hbmCntClr t _ => t
  | .gdlySelWrite t _ => t
  | .windowStart t _ _ => t
  | .windowStop t _ _ => t
  | .twinCtlWrite t _ => t
  | .dbgLock t _ => t
  | .dbgFuse t _ => t
  | .svnCommit t _ => t
  | .revoke t _ => t
  | .latchedLoRead t _ => t
  | .badRegisterRead t _ _ => t
  | .registerWrite t _ _ _ _ => t
  | .crossbarLock t _ _ _ => t
  | .crossbarLockBroken t _ => t
  | .porstRelease t _ => t
  | .sysrstRelease t _ => t
  | .bootSelfCheckDone t => t
  | .firmwareImageRead t _ => t
  | .hbmTrainingDone t _ => t
  | .firmwareReady t _ => t
  | .thermalSample t _ => t
  | .thermalCeilingStep t => t
  | .powerCapCheck t _ _ => t
  | .stewardHeartbeatMiss t _ => t
  | .slackWindowEval t _ => t
  | .voltageSettled t _ => t
  | .ceilingLoweringStep t _ => t
  | .blockRelease t _ => t
  | .afterimageWriteTimeout t _ _ => t
  | .conditioningSlice t _ _ => t
  | .channeliserFrame t _ => t
  | .sourceStatsRecord t _ => t
  | .cornerTurnSend t _ _ _ _ => t
  | .strokeRelease t _ _ => t
  | .engineSlotStart t _ _ => t
  | .engineHandoff t _ _ => t
  | .inkwellUpdate t _ _ => t
  | .spillGrant t => t
  | .slotUnserved t _ => t
  | .segmentReadoutDone t _ _ _ _ => t
  | .dumpRecord t => t
  | .engineStallTimeout t _ => t
  | .fenceCheckDone t _ _ _ => t
  | .beamOutput t _ _ _ => t
  | .beamRecord t _ => t
  | .ingestFrame t _ _ => t
  | .senseFrame t _ _ => t
  | .loadWatchEval t _ => t
  | .driveFrameSend t _ _ _ _ _ _ _ => t
  | .transmitStartDue t => t
  | .heldStartReady t _ => t
  | .programEnd t _ => t
  | .echoRepeat t => t
  | .echoRecord t => t
  | .glintOutputDue t _ => t
  | .glintBeamSample t => t
  | .publishHoldExpiry t _ => t
  | .voidTimeout t _ => t
  | .captureCopy t _ _ => t
  | .markerHoldExpiry t _ _ => t
  | .blankEnd t _ => t
  | .audioIndex t => t
  | .lightboxFrameBoundary t _ => t
  | .lightboxWaitExpiry t _ => t
  | .ppsEdge t _ => t
  | .timeFrame t _ _ _ => t
  | .timeFrameSend t _ => t
  | .refInactive t _ _ => t
  | .ppsMissing t _ => t
  | .refQualifyEval t _ _ => t
  | .driftGuard t _ => t
  | .lockAchieved c => c.at_
  | .historyEntry sec frac => secTick sec frac
  | .walkStep t => t
  | .synthLockLost t _ => t
  | .gateOpen t _ => t
  | .ppsoutPulse t => t
  | .blockLockAcquired t _ _ => t
  | .blockLockLost t _ _ => t
  | .alignmentMarker t _ _ => t
  | .laneRetrain t _ => t
  | .adaptationDone t _ => t
  | .prbsLockAcquired t _ => t
  | .prbsLockLost t _ _ => t
  | .batchFrame t _ _ => t
  | .planDigestFrame t _ _ => t
  | .linkStateFrame t _ _ => t
  | .linkStateOriginate t => t
  | .forwardTimeout t _ => t
  | .creditBlock t _ _ => t
  | .creditGrantSend t _ _ => t
  | .ackReceived t _ _ => t
  | .nakReceived t _ _ => t
  | .retryTimeout t _ => t
  | .lateNoticeReceived t _ _ => t
  | .sleepRequest t _ => t
  | .sleepReqReceived t _ _ => t
  | .sleepAckReceived t _ _ => t
  | .sleepNakReceived t _ _ => t
  | .sleepReqTimeout t _ => t
  | .commitReceived t _ _ => t
  | .abortReceived t _ _ => t
  | .signalLostAfterAck t _ => t
  | .sleepAfterExpiry t _ _ => t
  | .wakeReceived t _ _ => t
  | .txWake t _ => t
  | .signalDetect t _ => t
  | .hbmRefresh t _ => t
  | .hbmTempRead t _ _ => t
  | .hbmAlert t _ _ => t
  | .scrubStep t _ _ => t
  | .pairHalfArrival t _ => t
  | .pairTimeout t _ => t
  | .pairQuery t _ => t
  | .monitorWindowEnd t _ => t
  | .twinHeartbeatSend t => t
  | .twinHeartbeat t _ => t
  | .partnerLost t => t
  | .timeSkew t => t
  | .inStep t => t
  | .litTimerExpiry t => t
  | .twinLitInChange t _ => t
  | .twinClaimTimer t => t
  | .twinGateOpen t => t
  | .pinMismatch t => t
  | .digestSend t => t
  | .digestFrame t _ => t
  | .mirrorCheckLate t _ _ => t
  | .arbitrationOpen t _ => t
  | .recomputationDone t => t
  | .arbitrationResult t _ => t
  | .arbitrationTimeout t => t
  | .effectFrame t _ => t
  | .hostTimedEffect t _ => t
  | .engineBufferError t _ => t
  | .resetAssert t _ => t
  | .supplyRangeChange t _ _ => t

/-- The blocks that a command may change, beside what the passing of time up to its instant changes (`State.advance`). Every other
block is as it was after the command. A command whose completion or event goes to the host lists `host`, `out`, the event log in
`mgmt` and the recovery windows in `twin`. -/
def mayChange : Instr → List Block
  | .nop _ _ _ => [.host, .out, .free]
  | .counterReadOut _ _ _ => [.host, .out, .free]
  | .presetReadOut _ _ _ => [.host, .out, .free]
  | .clearUntrusted _ _ _ => [.host, .out, .mgmt, .twin, .free]
  | .elementTableChange _ _ _ => [.host, .out, .mgmt, .twin, .free, .cond]
  | .groupDescriptor _ _ _ => [.host, .out, .mgmt, .twin, .free, .cond]
  | .groupStart _ _ _ => [.host, .out, .mgmt, .twin, .free, .cond, .glint, .audio]
  | .groupStop _ _ _ => [.host, .out, .mgmt, .twin, .free, .cond]
  | .prototypeLoad _ _ _ => [.host, .out, .mgmt, .twin, .free, .chan]
  | .gainTableLoad _ _ _ => [.host, .out, .mgmt, .twin, .free, .chan]
  | .planLoad _ _ _ => [.host, .out, .mgmt, .twin, .free, .corr, .chan]
  | .scheduleLoad _ _ _ => [.host, .out, .mgmt, .twin, .free, .corr, .cond, .chan]
  | .beamSetLoad _ _ _ => [.host, .out, .mgmt, .twin, .free, .corr]
  | .taperTableLoad _ _ _ => [.host, .out, .mgmt, .twin, .free, .corr]
  | .weightTableLoad _ _ _ => [.host, .out, .mgmt, .twin, .free, .corr]
  | .glintBeamSetLoad _ _ _ => [.host, .out, .mgmt, .twin, .free, .glint]
  | .waveformTableLoad _ _ _ => [.host, .out, .mgmt, .twin, .free, .tx]
  | .transmitProgramLoad _ _ _ => [.host, .out, .mgmt, .twin, .free, .tx]
  | .driveMapLoad _ _ _ => [.host, .out, .mgmt, .twin, .free, .tx]
  | .driveGroupLoad _ _ _ => [.host, .out, .mgmt, .twin, .free, .tx]
  | .routingSetLoad _ _ _ => [.host, .out, .mgmt, .twin, .free, .audio]
  | .sceneLoad _ _ _ => [.host, .out, .mgmt, .twin, .free, .lbox]
  | .lightboxTableLoad _ _ _ => [.host, .out, .mgmt, .twin, .free, .lbox]
  | .imageUnload _ _ _ => [.host, .out, .mgmt, .twin, .free, .corr, .tx, .cond, .glint, .chan, .lbox, .audio]
  | .productBinding _ _ _ => [.host, .out, .mgmt, .twin, .free, .link, .corr]
  | .shed _ _ _ => [.host, .out, .mgmt, .twin, .free, .link, .corr]
  | .restore _ _ _ => [.host, .out, .mgmt, .twin, .free, .link, .corr]
  | .beamSetSwitch _ _ _ => [.host, .out, .mgmt, .twin, .free, .corr]
  | .glintConfigure _ _ _ => [.host, .out, .mgmt, .twin, .free, .link, .tx, .glint, .lbox, .pins]
  | .glintDetector _ _ _ => [.host, .out, .mgmt, .twin, .free, .glint]
  | .glintArm _ _ _ => [.host, .out, .mgmt, .twin, .free, .glint, .pins]
  | .glintSetSwitch _ _ _ => [.host, .out, .mgmt, .twin, .free, .glint]
  | .glintPinClear _ _ _ => [.host, .out, .mgmt, .twin, .free, .link, .glint, .pins]
  | .driveGroupStart _ _ _ => [.host, .out, .mgmt, .twin, .free, .tx]
  | .transmitStart _ _ _ => [.host, .out, .mgmt, .twin, .free, .link, .tx]
  | .transmitStop _ _ _ => [.host, .out, .mgmt, .twin, .free, .link, .tx, .glint]
  | .echoCalibration _ _ _ => [.host, .out, .mgmt, .twin, .free, .tx]
  | .loadWatchClear _ _ _ => [.host, .out, .mgmt, .twin, .free, .link, .tx]
  | .audioConfigure _ _ _ => [.host, .out, .mgmt, .twin, .free, .audio]
  | .routingSwap _ _ _ => [.host, .out, .mgmt, .twin, .free, .audio]
  | .surfaceWrite _ _ _ => [.host, .out, .mgmt, .twin, .free, .hbm, .lbox]
  | .monitorSnapshot _ _ _ => [.host, .out, .mgmt, .twin, .free, .hbm]
  | .engineFence _ _ _ => [.host, .out, .mgmt, .twin, .free, .link, .corr, .cond, .chan]
  | .twinHandover _ _ _ => [.host, .out, .mgmt, .twin, .free, .link]
  | .twinClaim _ _ _ => [.host, .out, .mgmt, .twin, .free, .corr, .tx, .glint, .pins]
  | .twinMap _ _ _ => [.host, .out, .mgmt, .twin, .free]
  | .doorbellPoll _ _ => [.host, .out, .mgmt, .twin, .free, .link, .corr, .tx, .cond, .glint, .hbm, .chan, .lbox, .pins, .audio]
  | .descriptorFetched _ _ _ => [.host, .out, .mgmt, .twin, .free, .link, .corr, .tx, .cond, .glint, .hbm, .chan, .lbox, .pins, .audio]
  | .commandReadFailed _ _ _ => [.host, .out, .mgmt, .twin, .free, .link, .corr, .tx, .cond, .glint, .hbm, .chan, .lbox, .pins, .audio]
  | .deferredCompletion _ _ => [.host, .out]
  | .writeJobReadback _ _ _ => [.host, .out, .mgmt, .twin]
  | .statusBlockRefresh _ => [.host, .out]
  | .eventQueueDrain _ => [.host, .out, .mgmt]
  | .outletTakeRecord _ _ _ => [.host, .out, .mgmt, .twin, .free, .link, .hbm]
  | .trailerWrite _ _ => [.host, .out]
  | .sourceRingRead _ _ _ => [.host, .mgmt]
  | .msixTimerExpiry _ _ => [.host, .out]
  | .hostLinkLoss _ _ => [.host, .out]
  | .pcieLinkTrained _ _ _ => [.host, .out]
  | .hostifEnable _ _ => [.host, .out, .mgmt, .twin, .free, .link, .corr, .tx, .cond, .glint, .hbm, .boot, .pins, .offset, .time]
  | .hostBootGo _ _ => [.host, .out, .mgmt, .twin, .free, .link, .corr, .tx, .cond, .glint, .hbm, .boot, .pins, .offset, .time]
  | .timeSetArm _ _ => [.host, .out, .mgmt, .twin, .free, .link, .corr, .tx, .cond, .glint, .hbm, .boot, .pins, .offset, .time]
  | .refSuspectClear _ _ _ => [.host, .out, .mgmt, .twin, .free, .link, .corr, .tx, .cond, .glint, .hbm, .boot, .pins, .offset, .time]
  | .sclkCfgWrite _ _ _ => [.host, .out, .mgmt, .twin, .free, .link, .corr, .tx, .cond, .glint, .hbm, .boot, .pins, .offset, .time]
  | .laneRestart _ _ _ => [.host, .out, .mgmt, .twin, .free, .link, .corr, .tx, .cond, .glint, .hbm, .boot, .pins, .offset, .time]
  | .errInj _ _ _ => [.host, .out, .mgmt, .twin, .free, .link, .corr, .tx, .cond, .glint, .hbm, .boot, .pins, .offset, .time]
  | .laneCntClr _ _ _ => [.host, .out, .mgmt, .twin, .free, .link, .corr, .tx, .cond, .glint, .hbm, .boot, .pins, .offset, .time]
  | .linkClr _ _ _ => [.host, .out, .mgmt, .twin, .free, .link, .corr, .tx, .cond, .glint, .hbm, .boot, .pins, .offset, .time]
  | .quadEnable _ _ _ => [.host, .out, .mgmt, .twin, .free, .link, .corr, .tx, .cond, .glint, .hbm, .boot, .pins, .offset, .time]
  | .quadDisable _ _ _ => [.host, .out, .mgmt, .twin, .free, .link, .corr, .tx, .cond, .glint, .hbm, .boot, .pins, .offset, .time]
  | .hbmApply _ _ => [.host, .out, .mgmt, .twin, .free, .link, .corr, .tx, .cond, .glint, .hbm, .boot, .pins, .offset, .time]
  | .hbmCntClr _ _ => [.host, .out, .mgmt, .twin, .free, .link, .corr, .tx, .cond, .glint, .hbm, .boot, .pins, .offset, .time]
  | .gdlySelWrite _ _ => [.host, .out, .mgmt, .twin, .free, .link, .corr, .tx, .cond, .glint, .hbm, .boot, .pins, .offset, .time]
  | .windowStart _ _ _ => [.host, .out, .mgmt, .twin, .free, .link, .corr, .tx, .cond, .glint, .hbm, .boot, .pins, .offset, .time]
  | .windowStop _ _ _ => [.host, .out, .mgmt, .twin, .free, .link, .corr, .tx, .cond, .glint, .hbm, .boot, .pins, .offset, .time]
  | .twinCtlWrite _ _ => [.host, .out, .mgmt, .twin, .free, .link, .corr, .tx, .cond, .glint, .hbm, .boot, .pins, .offset, .time]
  | .dbgLock _ _ => [.host, .out, .mgmt, .twin, .free, .link, .corr, .tx, .cond, .glint, .hbm, .boot, .pins, .offset, .time]
  | .dbgFuse _ _ => [.host, .out, .mgmt, .twin, .free, .link, .corr, .tx, .cond, .glint, .hbm, .boot, .pins, .offset, .time]
  | .svnCommit _ _ => [.host, .out, .mgmt, .twin, .free, .link, .corr, .tx, .cond, .glint, .hbm, .boot, .pins, .offset, .time]
  | .revoke _ _ => [.host, .out, .mgmt, .twin, .free, .link, .corr, .tx, .cond, .glint, .hbm, .boot, .pins, .offset, .time]
  | .latchedLoRead _ _ => [.host, .out, .mgmt, .twin, .free, .link, .corr, .tx, .cond, .glint, .hbm, .boot, .pins, .offset, .time]
  | .badRegisterRead _ _ _ => [.host, .out, .mgmt, .twin, .free, .link, .corr, .tx, .cond, .glint, .hbm, .boot, .pins, .offset, .time]
  | .registerWrite _ _ _ _ _ => [.host, .out, .mgmt, .twin, .free, .link, .corr, .tx, .cond, .glint, .hbm, .boot, .pins, .offset, .time]
  | .crossbarLock _ _ _ _ => [.host, .out, .mgmt, .twin, .free, .link, .corr, .tx, .cond, .glint, .hbm, .boot, .pins, .offset, .time]
  | .crossbarLockBroken _ _ => [.host, .out, .mgmt, .twin, .free, .link, .corr, .tx, .cond, .glint, .hbm, .boot, .pins, .offset, .time]
  | .porstRelease _ _ => everyBlock
  | .sysrstRelease _ _ => everyBlock
  | .bootSelfCheckDone _ => [.out, .boot]
  | .firmwareImageRead _ _ => [.out, .mgmt, .boot]
  | .hbmTrainingDone _ _ => [.host, .out, .mgmt, .hbm]
  | .firmwareReady _ _ => [.host, .out, .mgmt, .twin, .corr, .cond, .chan, .boot]
  | .thermalSample _ _ => [.host, .out, .mgmt]
  | .thermalCeilingStep _ => [.mgmt]
  | .powerCapCheck _ _ _ => [.mgmt]
  | .stewardHeartbeatMiss _ _ => [.host, .out, .mgmt, .twin, .corr, .cond, .chan]
  | .slackWindowEval _ _ => [.host, .out, .mgmt, .corr]
  | .voltageSettled _ _ => [.mgmt]
  | .ceilingLoweringStep _ _ => [.mgmt]
  | .blockRelease _ _ => [.mgmt, .free, .cond, .glint, .hbm]
  | .afterimageWriteTimeout _ _ _ => [.cond]
  | .conditioningSlice _ _ _ => [.host, .out, .mgmt, .tx, .cond, .glint, .audio]
  | .channeliserFrame _ _ => [.corr, .cond, .chan]
  | .sourceStatsRecord _ _ => [.host, .mgmt, .twin, .free, .corr, .hbm]
  | .cornerTurnSend _ _ _ _ _ => [.host, .out, .mgmt, .link, .chan]
  | .strokeRelease _ _ _ => [.twin, .corr, .cond, .chan]
  | .engineSlotStart _ _ _ => [.host, .out, .mgmt, .twin, .free, .corr, .cond, .hbm, .chan]
  | .engineHandoff _ _ _ => [.host, .out, .mgmt, .twin, .corr, .cond, .chan]
  | .inkwellUpdate _ _ _ => [.host, .out, .mgmt, .twin, .free, .corr, .cond, .hbm, .chan]
  | .spillGrant _ => [.host, .out, .mgmt, .twin, .corr, .cond, .chan]
  | .slotUnserved _ _ => [.twin, .corr, .cond, .chan]
  | .segmentReadoutDone _ _ _ _ _ => [.host, .out, .mgmt, .twin, .free, .corr, .cond, .hbm, .chan]
  | .dumpRecord _ => [.host, .mgmt, .twin, .free, .corr, .cond, .hbm, .chan]
  | .engineStallTimeout _ _ => [.host, .out, .mgmt, .twin, .corr, .cond, .chan]
  | .fenceCheckDone _ _ _ _ => [.host, .out, .mgmt, .twin, .corr, .cond, .chan]
  | .beamOutput _ _ _ _ => [.corr]
  | .beamRecord _ _ => [.host, .out, .mgmt, .twin, .free, .corr, .cond, .hbm, .chan, .lbox]
  | .ingestFrame _ _ _ => [.mgmt, .link, .cond]
  | .senseFrame _ _ _ => [.host, .out, .mgmt, .link, .tx]
  | .loadWatchEval _ _ => [.host, .out, .mgmt, .tx]
  | .driveFrameSend _ _ _ _ _ _ _ _ => [.host, .out, .mgmt, .twin, .free, .link, .tx, .hbm]
  | .transmitStartDue _ => [.host, .out, .mgmt, .twin, .free, .tx, .glint, .hbm]
  | .heldStartReady _ _ => [.host, .out, .mgmt, .free, .tx, .glint]
  | .programEnd _ _ => [.host, .out, .mgmt, .tx, .glint]
  | .echoRepeat _ => [.tx]
  | .echoRecord _ => [.host, .out, .mgmt, .twin, .free, .tx, .glint, .hbm]
  | .glintOutputDue _ _ => [.glint]
  | .glintBeamSample _ => [.host, .out, .mgmt, .twin, .link, .tx, .cond, .glint, .lbox, .pins]
  | .publishHoldExpiry _ _ => [.host, .out, .mgmt, .twin, .link, .tx, .glint, .lbox, .pins]
  | .voidTimeout _ _ => [.host, .out, .mgmt, .twin, .link, .tx, .glint, .lbox, .pins]
  | .captureCopy _ _ _ => [.host, .out, .mgmt, .twin, .free, .glint, .hbm]
  | .markerHoldExpiry _ _ _ => [.lbox]
  | .blankEnd _ _ => [.glint]
  | .audioIndex _ => [.host, .out, .mgmt, .twin, .free, .hbm, .audio]
  | .lightboxFrameBoundary _ _ => [.host, .out, .mgmt, .twin, .free, .hbm, .lbox]
  | .lightboxWaitExpiry _ _ => [.host, .out, .mgmt, .twin, .free, .hbm, .lbox]
  | .ppsEdge _ _ => [.host, .out, .mgmt, .offset, .time]
  | .timeFrame _ _ _ _ => [.host, .out, .mgmt, .twin, .link, .offset, .time]
  | .timeFrameSend _ _ => [.out, .mgmt, .link]
  | .refInactive _ _ _ => [.host, .out, .mgmt, .twin, .time]
  | .ppsMissing _ _ => [.host, .out, .mgmt, .time]
  | .refQualifyEval _ _ _ => [.host, .out, .mgmt, .twin, .time]
  | .driftGuard _ _ => [.host, .out, .mgmt, .twin, .time]
  | .lockAchieved _ => [.host, .out, .mgmt, .twin, .time]
  | .historyEntry _ _ => [.time]
  | .walkStep _ => [.host, .out, .mgmt, .time]
  | .synthLockLost _ _ => [.host, .out, .mgmt, .time]
  | .gateOpen _ _ => [.host, .out, .mgmt, .twin, .time]
  | .ppsoutPulse _ => [.time]
  | .blockLockAcquired _ _ _ => [.host, .out, .mgmt, .twin, .free, .link, .corr, .tx, .cond, .glint, .chan, .pins, .offset, .time]
  | .blockLockLost _ _ _ => [.host, .out, .mgmt, .twin, .free, .link, .corr, .tx, .cond, .glint, .chan, .pins, .offset, .time]
  | .alignmentMarker _ _ _ => [.host, .out, .mgmt, .twin, .link, .cond]
  | .laneRetrain _ _ => [.host, .out, .mgmt, .link]
  | .adaptationDone _ _ => [.free, .link]
  | .prbsLockAcquired _ _ => [.out, .link]
  | .prbsLockLost _ _ _ => [.out, .link]
  | .batchFrame _ _ _ => [.out, .mgmt, .link, .corr, .chan]
  | .planDigestFrame _ _ _ => [.host, .out, .mgmt, .link, .chan]
  | .linkStateFrame _ _ _ => [.out, .mgmt, .link]
  | .linkStateOriginate _ => [.out, .mgmt, .link]
  | .forwardTimeout _ _ => [.out, .mgmt, .link]
  | .creditBlock _ _ _ => [.out, .mgmt, .link]
  | .creditGrantSend _ _ _ => [.out, .mgmt, .link]
  | .ackReceived _ _ _ => [.out, .mgmt, .link]
  | .nakReceived _ _ _ => [.out, .mgmt, .link]
  | .retryTimeout _ _ => [.out, .mgmt, .link]
  | .lateNoticeReceived _ _ _ => [.out, .mgmt, .link, .chan]
  | .sleepRequest _ _ => [.out, .mgmt, .link]
  | .sleepReqReceived _ _ _ => [.out, .mgmt, .link]
  | .sleepAckReceived _ _ _ => [.out, .mgmt, .link]
  | .sleepNakReceived _ _ _ => [.link]
  | .sleepReqTimeout _ _ => [.out, .mgmt, .link]
  | .commitReceived _ _ _ => [.out, .mgmt, .link]
  | .abortReceived _ _ _ => [.link]
  | .signalLostAfterAck _ _ => [.out, .mgmt, .link]
  | .sleepAfterExpiry _ _ _ => [.link]
  | .wakeReceived _ _ _ => [.link]
  | .txWake _ _ => [.out, .mgmt, .link]
  | .signalDetect _ _ => [.link]
  | .hbmRefresh _ _ => [.mgmt, .free, .hbm]
  | .hbmTempRead _ _ _ => [.host, .out, .mgmt, .hbm]
  | .hbmAlert _ _ _ => [.host, .out, .mgmt, .twin, .free, .hbm]
  | .scrubStep _ _ _ => [.host, .out, .mgmt, .twin, .free, .hbm]
  | .pairHalfArrival _ _ => [.mgmt, .free, .hbm]
  | .pairTimeout _ _ => [.mgmt, .free, .hbm]
  | .pairQuery _ _ => [.mgmt, .free, .hbm]
  | .monitorWindowEnd _ _ => [.host, .mgmt, .twin, .free, .hbm]
  | .twinHeartbeatSend _ => [.out, .mgmt, .link]
  | .twinHeartbeat _ _ => [.host, .out, .mgmt, .twin, .free, .link, .corr, .tx, .glint, .pins]
  | .partnerLost _ => [.host, .out, .mgmt, .twin, .free, .link]
  | .timeSkew _ => [.host, .out, .mgmt, .twin]
  | .inStep _ => [.host, .out, .mgmt, .twin]
  | .litTimerExpiry _ => [.host, .out, .mgmt, .twin]
  | .twinLitInChange _ _ => [.host, .out, .mgmt, .twin, .free, .corr, .tx, .glint, .pins]
  | .twinClaimTimer _ => [.host, .out, .mgmt, .twin, .free, .corr, .tx, .glint, .pins]
  | .twinGateOpen _ => [.host, .out, .mgmt, .twin, .free, .link, .tx, .glint, .pins]
  | .pinMismatch _ => [.host, .out, .mgmt, .twin]
  | .digestSend _ => [.out, .mgmt, .twin, .link]
  | .digestFrame _ _ => [.host, .out, .mgmt, .twin, .free, .link]
  | .mirrorCheckLate _ _ _ => [.host, .out, .mgmt, .twin, .free, .link]
  | .arbitrationOpen _ _ => [.host, .out, .mgmt, .twin, .free, .link]
  | .recomputationDone _ => [.host, .out, .mgmt, .twin, .free, .link]
  | .arbitrationResult _ _ => [.host, .out, .mgmt, .twin, .free, .link]
  | .arbitrationTimeout _ => [.host, .out, .mgmt, .twin, .free, .link]
  | .effectFrame _ _ => [.host, .out, .mgmt, .twin, .link, .corr, .tx, .glint]
  | .hostTimedEffect _ _ => [.host, .out, .mgmt, .twin, .corr, .tx, .cond, .glint, .chan, .pins]
  | .engineBufferError _ _ => [.host, .out, .mgmt, .twin, .corr, .cond, .chan]
  | .resetAssert _ _ => everyBlock
  | .supplyRangeChange _ _ _ => [.pins]

end Sys2Proof.Machine
end

