-- ==== Sys2Proof/WellFormed.lean ====
section
/-!
DEFINITION. What the operands of a command must satisfy to be something that the outside can send: lengths of what the device
reads, and values that fit their width. `exec` answers on every term; the statements that need a shape name these checks.
-/
namespace Sys2Proof

/-- A descriptor holds 32 parameter bytes (Table 15-4), and the command's data is what it named: nothing, or `len` bytes (R380). -/
def ringWf (d : Desc) (data : Bytes) : Bool :=
  decide (d.params.length = 32) && (data.isEmpty || decide (data.length = d.len.toNat))

/-- A frame's data area is its whole blocks of 8 bytes (R308); a damaged one may have lost some. -/
def RawFrame.wf (f : RawFrame) : Bool := decide (f.data.length % 8 = 0)

/-- The index of an ECC word lies within a 32-bit byte count (R362). -/
def eccWf (l : List Ecc) : Bool := l.all (fun e => decide (e.word < 2 ^ 32))

/-- The bits of an access (R477). -/
def AccessWidth.bits : AccessWidth → Nat
  | .w8 => 8
  | .w16 => 16
  | .w32 => 32
  | .w64 => 64

/-- Whether the operands of a command fit. -/
def Instr.wf : Instr → Bool
  | .nop _ d data => ringWf d data
  | .counterReadOut _ d data => ringWf d data
  | .presetReadOut _ d data => ringWf d data
  | .clearUntrusted _ d data => ringWf d data
  | .elementTableChange _ d data => ringWf d data
  | .groupDescriptor _ d data => ringWf d data
  | .groupStart _ d data => ringWf d data
  | .groupStop _ d data => ringWf d data
  | .prototypeLoad _ d data => ringWf d data
  | .gainTableLoad _ d data => ringWf d data
  | .planLoad _ d data => ringWf d data
  | .scheduleLoad _ d data => ringWf d data
  | .beamSetLoad _ d data => ringWf d data
  | .taperTableLoad _ d data => ringWf d data
  | .weightTableLoad _ d data => ringWf d data
  | .glintBeamSetLoad _ d data => ringWf d data
  | .waveformTableLoad _ d data => ringWf d data
  | .transmitProgramLoad _ d data => ringWf d data
  | .driveMapLoad _ d data => ringWf d data
  | .driveGroupLoad _ d data => ringWf d data
  | .routingSetLoad _ d data => ringWf d data
  | .sceneLoad _ d data => ringWf d data
  | .lightboxTableLoad _ d data => ringWf d data
  | .imageUnload _ d data => ringWf d data
  | .productBinding _ d data => ringWf d data
  | .shed _ d data => ringWf d data
  | .restore _ d data => ringWf d data
  | .beamSetSwitch _ d data => ringWf d data
  | .glintConfigure _ d data => ringWf d data
  | .glintDetector _ d data => ringWf d data
  | .glintArm _ d data => ringWf d data
  | .glintSetSwitch _ d data => ringWf d data
  | .glintPinClear _ d data => ringWf d data
  | .driveGroupStart _ d data => ringWf d data
  | .transmitStart _ d data => ringWf d data
  | .transmitStop _ d data => ringWf d data
  | .echoCalibration _ d data => ringWf d data
  | .loadWatchClear _ d data => ringWf d data
  | .audioConfigure _ d data => ringWf d data
  | .routingSwap _ d data => ringWf d data
  | .surfaceWrite _ d data => ringWf d data
  | .monitorSnapshot _ d data => ringWf d data
  | .engineFence _ d data => ringWf d data
  | .twinHandover _ d data => ringWf d data
  | .twinClaim _ d data => ringWf d data
  | .twinMap _ d data => ringWf d data
  | .doorbellPoll _ block => decide (block.length = 832)
  | .descriptorFetched _ bytes _ => decide (bytes.length = 64)
  | .commandReadFailed _ bytes _ => bytes.all (fun b => decide (b.length = 64))
  | .deferredCompletion _ _ => true
  | .writeJobReadback _ _ _ => true
  | .statusBlockRefresh _ => true
  | .eventQueueDrain _ => true
  | .outletTakeRecord _ _ ecc => eccWf ecc
  | .trailerWrite _ _ => true
  | .sourceRingRead _ _ bytes => bytes.all (fun b => decide (b.length ≤ 4096))
  | .msixTimerExpiry _ _ => true
  | .hostLinkLoss _ _ => true
  | .pcieLinkTrained _ gen link => decide (gen.val = 0) == decide (link.width = 0)
  | .hostifEnable _ _ => true
  | .hostBootGo _ _ => true
  | .timeSetArm _ _ => true
  | .refSuspectClear _ _ _ => true
  | .sclkCfgWrite _ _ _ => true
  | .laneRestart _ _ _ => true
  | .errInj _ _ _ => true
  | .laneCntClr _ _ _ => true
  | .linkClr _ _ _ => true
  | .quadEnable _ _ _ => true
  | .quadDisable _ _ _ => true
  | .hbmApply _ _ => true
  | .hbmCntClr _ _ => true
  | .gdlySelWrite _ _ => true
  | .windowStart _ _ _ => true
  | .windowStop _ _ _ => true
  | .twinCtlWrite _ _ => true
  | .dbgLock _ _ => true
  | .dbgFuse _ _ => true
  | .svnCommit _ _ => true
  | .revoke _ _ => true
  | .latchedLoRead _ _ => true
  | .badRegisterRead _ _ _ => true
  | .registerWrite _ _ _ width value => decide (value.toNat < 2 ^ width.bits)
  | .crossbarLock _ _ _ _ => true
  | .crossbarLockBroken _ _ => true
  | .porstRelease _ _ => true
  | .sysrstRelease _ _ => true
  | .bootSelfCheckDone _ => true
  | .firmwareImageRead _ _ => true
  | .hbmTrainingDone _ _ => true
  | .firmwareReady _ failed => decide failed.Nodup
  | .thermalSample _ temps => temps.toList.all (fun x => decide (-2048000 ≤ x ∧ x < 2048000))
  | .thermalCeilingStep _ => true
  | .powerCapCheck _ _ _ => true
  | .stewardHeartbeatMiss _ _ => true
  | .slackWindowEval _ _ => true
  | .voltageSettled _ _ => true
  | .ceilingLoweringStep _ _ => true
  | .blockRelease _ _ => true
  | .afterimageWriteTimeout _ _ _ => true
  | .conditioningSlice _ _ _ => true
  | .channeliserFrame _ _ => true
  | .sourceStatsRecord _ _ => true
  | .cornerTurnSend _ _ _ _ _ => true
  | .strokeRelease _ _ _ => true
  | .engineSlotStart _ _ ecc => eccWf ecc
  | .engineHandoff _ _ _ => true
  | .inkwellUpdate _ _ ecc => eccWf ecc
  | .spillGrant _ => true
  | .slotUnserved _ _ => true
  | .segmentReadoutDone _ _ _ bank ecc => decide (bank < 2) && eccWf ecc
  | .dumpRecord _ => true
  | .engineStallTimeout _ _ => true
  | .fenceCheckDone _ _ _ _ => true
  | .beamOutput _ _ _ _ => true
  | .beamRecord _ _ => true
  | .ingestFrame _ _ f => f.wf
  | .senseFrame _ _ f => f.wf
  | .loadWatchEval _ _ => true
  | .driveFrameSend _ _ _ _ _ nch nsamp ecc => decide (0 < nch ∧ 0 < nsamp) && eccWf ecc
  | .transmitStartDue _ => true
  | .heldStartReady _ _ => true
  | .programEnd _ _ => true
  | .echoRepeat _ => true
  | .echoRecord _ => true
  | .glintOutputDue _ _ => true
  | .glintBeamSample _ => true
  | .publishHoldExpiry _ _ => true
  | .voidTimeout _ _ => true
  | .captureCopy _ _ ecc => eccWf ecc
  | .markerHoldExpiry _ _ _ => true
  | .blankEnd _ _ => true
  | .audioIndex _ => true
  | .lightboxFrameBoundary _ ecc => eccWf ecc
  | .lightboxWaitExpiry _ ecc => eccWf ecc
  | .ppsEdge _ _ => true
  | .timeFrame _ _ _ f => f.wf
  | .timeFrameSend _ _ => true
  | .refInactive _ _ _ => true
  | .ppsMissing _ _ => true
  | .refQualifyEval _ _ _ => true
  | .driftGuard _ _ => true
  | .lockAchieved _ => true
  | .historyEntry _ _ => true
  | .walkStep _ => true
  | .synthLockLost _ _ => true
  | .gateOpen _ _ => true
  | .ppsoutPulse _ => true
  | .blockLockAcquired _ _ _ => true
  | .blockLockLost _ _ _ => true
  | .alignmentMarker _ _ markers => decide (markers.map (·.lane)).Nodup
  | .laneRetrain _ _ => true
  | .adaptationDone _ _ => true
  | .prbsLockAcquired _ _ => true
  | .prbsLockLost _ _ _ => true
  | .batchFrame _ _ f => f.wf
  | .planDigestFrame _ _ f => f.wf
  | .linkStateFrame _ _ f => f.wf
  | .linkStateOriginate _ => true
  | .forwardTimeout _ _ => true
  | .creditBlock _ _ _ => true
  | .creditGrantSend _ _ _ => true
  | .ackReceived _ _ _ => true
  | .nakReceived _ _ _ => true
  | .retryTimeout _ _ => true
  | .lateNoticeReceived _ _ _ => true
  | .sleepRequest _ _ => true
  | .sleepReqReceived _ _ _ => true
  | .sleepAckReceived _ _ _ => true
  | .sleepNakReceived _ _ _ => true
  | .sleepReqTimeout _ _ => true
  | .commitReceived _ _ _ => true
  | .abortReceived _ _ _ => true
  | .signalLostAfterAck _ _ => true
  | .sleepAfterExpiry _ _ _ => true
  | .wakeReceived _ _ _ => true
  | .txWake _ _ => true
  | .signalDetect _ _ => true
  | .hbmRefresh _ _ => true
  | .hbmTempRead _ _ _ => true
  | .hbmAlert _ _ _ => true
  | .scrubStep _ _ ecc => eccWf ecc
  | .pairHalfArrival _ half => decide (half.payload.length ≤ 64)
  | .pairTimeout _ _ => true
  | .pairQuery _ _ => true
  | .monitorWindowEnd _ _ => true
  | .twinHeartbeatSend _ => true
  | .twinHeartbeat _ f => f.wf
  | .partnerLost _ => true
  | .timeSkew _ => true
  | .inStep _ => true
  | .litTimerExpiry _ => true
  | .twinLitInChange _ _ => true
  | .twinClaimTimer _ => true
  | .twinGateOpen _ => true
  | .pinMismatch _ => true
  | .digestSend _ => true
  | .digestFrame _ f => f.wf
  | .mirrorCheckLate _ _ _ => true
  | .arbitrationOpen _ f => f.wf
  | .recomputationDone _ => true
  | .arbitrationResult _ f => f.wf
  | .arbitrationTimeout _ => true
  | .effectFrame _ f => f.wf
  | .hostTimedEffect _ _ => true
  | .engineBufferError _ _ => true
  | .resetAssert _ _ => true
  | .supplyRangeChange _ _ _ => true

end Sys2Proof
end

