-- ==== Sys2Proof/Certificates/Slice0/Obligations.lean ====
section
/-! DEFINITION. The statements for the provers: one proposition each, its docstring saying what it states. -/

open Sys2Proof Sys2Proof.Machine

/-- For every command c and state s whose queue has c at its front, step is exec of c on s with the queue's rest; with an
    empty queue a step changes nothing. The queue is the model's own (log entry 2), and that an empty queue idles is the
    model's choice (log entry 1). (Table "What each step holds" (95_what_each_step_holds.md); assumption log entry 1) -/
def Obligations.StepTakesTheFrontCommand : Prop :=
  (∀ (c : Instr) (rest : List Instr) (s : State), step { s with pending := c :: rest } = exec c { s with pending := rest }) ∧
  ∀ s : State, s.pending = [] → step s = .next s

/-- The frame of every command, in one statement: each of the 208 commands, with any operands and in any state, answers a
    next state (a command that the rules refuse, or whose conditions do not hold, answers one too), and against the state
    to which its instant has brought the clock every block of the state that the command's row of the table mayChange does
    not list is exactly as it was: its registers, tables, queues, counters, status and outputs. For a command that lists
    no out, nothing is written to host memory and nothing goes onto a lane. So exec completes for every state and
    operands, without a premise, for each constructor of Instr, among them shed, restore, engineFence, engineStallTimeout,
    engineBufferError, fenceCheckDone, monitorSnapshot, strokeRelease, engineSlotStart, engineHandoff, slotUnserved,
    inkwellUpdate, spillGrant, segmentReadoutDone, dumpRecord, beamOutput, beamRecord, glintConfigure, glintBeamSetLoad,
    glintDetector, glintArm, glintSetSwitch, glintPinClear, glintOutputDue, glintBeamSample, publishHoldExpiry,
    voidTimeout, captureCopy, markerHoldExpiry, blankEnd, waveformTableLoad, transmitProgramLoad, driveMapLoad,
    driveGroupLoad, driveGroupStart, transmitStart, transmitStop, echoCalibration, loadWatchClear, transmitStartDue,
    heldStartReady, programEnd, driveFrameSend, senseFrame, loadWatchEval, echoRepeat, echoRecord, audioConfigure,
    routingSetLoad, routingSwap, sceneLoad, lightboxTableLoad, surfaceWrite, audioIndex, lightboxFrameBoundary,
    lightboxWaitExpiry; what the next state holds under which conditions is said by the statements of their families.
    (Table "What each step holds" (95_what_each_step_holds.md); assumption log entries 1, 2) -/
def Obligations.CommandsChangeOnlyTheirBlocks : Prop :=
  (∀ (i : Instr) (s : State), ∃ t : State, exec i s = .next t) ∧
  ∀ (i : Instr) (s t : State), exec i s = .next t → ∀ b : Block, b ∉ mayChange i → b.same (s.advance (tick i)) t

/-- For every state, whatever the command at the front is and whatever its meaning does, a step that answers a next state
    leaves in the queue exactly the commands that stood behind the front, in their order. So the invariant that every
    waiting command is well-formed is kept by every step. The queue is the model's own (log entry 2). (Table "What each
    step holds" (95_what_each_step_holds.md); assumption log entry 2) -/
def Obligations.EveryStepConsumesOneCommand : Prop :=
  ∀ s s' : State, step s = .next s' →
    s'.pending = s.pending.tail ∧ ((∀ c ∈ s.pending, c.wf = true) → ∀ c ∈ s'.pending, c.wf = true)

/-- For every state and every command, a step keeps the key store's invariant of R472 and R473: at most 64 raises of
    SVN_MIN are ever recorded, SVN_MIN never falls, a revoked slot stays revoked, a burnt debug fuse stays burnt, and the
    part, the serial number and the key hashes never change. This holds through PORST_N and SYSRST_N too. (R472; R473;
    18_startup.md) -/
def Obligations.KeyStoreOnlyTightens : Prop :=
  ∀ s s' : State, step s = .next s' →
    (s.boot.fuses.raises ≤ 64 → s'.boot.fuses.raises ≤ 64) ∧ s.boot.fuses.svnMin ≤ s'.boot.fuses.svnMin ∧
    s.boot.fuses.revoked &&& s'.boot.fuses.revoked = s.boot.fuses.revoked ∧
    (s.boot.fuses.dbgFused = true → s'.boot.fuses.dbgFused = true) ∧
    s'.boot.fuses.part = s.boot.fuses.part ∧ s'.boot.fuses.serial = s.boot.fuses.serial ∧ s'.boot.fuses.keys = s.boot.fuses.keys

/-- At reset no command waits, no raise of SVN_MIN is recorded, and SVN_MIN is 0. The fuse values are the model's choice
    (log entry 4). (R472; R464; 18_startup.md; assumption log entries 2, 4) -/
def Obligations.ResetMeetsTheInvariants : Prop :=
  State.reset.pending = [] ∧ State.reset.boot.fuses.raises = 0 ∧ State.reset.boot.fuses.svnMin = 0

/-- Before its effect every command lets time pass to its instant t: the clock becomes the later of its value and t,
    PPSOUT falls when 100 ms have passed since it rose (R280), the DPLL's frequency moves by at most SLEW.RATE for each
    tick (R276), without a walk towards its one goal, the time word gains what the DPLL's frequency adds over the span, to
    the fraction that the phase holds (R259), a walk lowers |O| by WALK_RATE ns for each second until it is 0 and stands
    still while an output is gated (R274), the instant since which the frequency error lies within 0.05 ppm stays while it
    does (R270), and every other piece of state is as it was. That an instant in the past leaves the clock is the model's
    choice (log entry 1), and so is the DPLL's goal (log entry 94). (R8; R259; R270; R274; R276; R280; assumption log
    entries 1, 94) -/
def Obligations.TimeOnlyAdvances : Prop :=
  ∀ (t : Tick) (s : State), let v := s.advance t
    v.now = max s.now t ∧
    (∀ r, s.tb.ppsRise = some r → v.tb.ppsRise = if (max s.now t - r) * 1000 < 100 * tickHz then some r else none) ∧
    (s.tb.ppsRise = none → v.tb.ppsRise = none) ∧
    { v with now := s.now, tOffset := s.tOffset, tb := s.tb } = s ∧
    { v.tb with
      ppsRise := s.tb.ppsRise, freq := s.tb.freq, phase := s.tb.phase, freqSum := s.tb.freqSum, oNano := s.tb.oNano
      lockFrom := s.tb.lockFrom } = s.tb ∧
    (v.tb.freq - s.tb.freq).natAbs ≤ slewStep s * (v.now - s.now) ∧ 0 ≤ v.tb.phase ∧ v.tb.phase < 2 * dpllUnit ∧
    2 * dpllUnit * v.tOffset + v.tb.phase = 2 * dpllUnit * s.tOffset + s.tb.phase + (v.tb.freqSum - s.tb.freqSum) ∧
    (s.tb.walking = false → (v.tb.freq - dpllGoal s).natAbs ≤ (s.tb.freq - dpllGoal s).natAbs ∧ v.tb.oNano = s.tb.oNano ∧
      v.tb.freqSum - s.tb.freqSum = (dpllRun s.tb.freq (dpllGoal s) (slewStep s) (v.now - s.now)).2) ∧
    (s.tb.walking = true → gated s = true → v.tb.oNano = s.tb.oNano) ∧
    (s.tb.walking = true → gated s = false → v.tb.oNano.natAbs = s.tb.oNano.natAbs - walkRate s * (v.now - s.now)) ∧
    ((s.tb.freq - refFreq s).natAbs ≤ 50000 * 2 ^ 32 → v.tb.lockFrom = s.tb.lockFrom)

/-- While the completion ring has no free entry, the starting of held commands changes nothing. A completion (of any
    descriptor, status and info, with or without a result block, and whatever the rings hold) is never dropped: the
    completions written to the ring since, together with those still owed, are those owed before and this one, in order.
    (R382) -/
def Obligations.CompletionsAreNeverDropped : Prop :=
  (∀ s : State, cplRoom s = false → startHeld s = s) ∧
  ∀ (d : Desc) (status info : Nat) (result : Option Bytes) (s : State), s.host.owed.length < 2 ^ 31 →
    ((completeWith d status info result s).host.cplProd - s.host.cplProd).toNat + (completeWith d status info result s).host.owed.length =
      s.host.owed.length + 1 ∧
    ∃ c : Compl, c.tag = d.tag ∧ c.opcode = d.opcode ∧ c.status = status ∧ c.info = info ∧ c.index = d.index ∧
      (completeWith d status info result s).host.owed =
        (s.host.owed ++ [c]).drop ((completeWith d status info result s).host.cplProd - s.host.cplProd).toNat

/-- What one end scrambles the other descrambles. On a candidate boundary 64 valid headers in a row bring block lock; one
    invalid header sets the count to 0 and moves the boundary one bit; in lock fewer than 16 invalid headers in a group of
    64 keep it and each is counted, the sixteenth loses it. For a lane of an enabled quad (R287): the bits that bring
    lock, while LANE_EQ.ADAPT is 0, give the lane new settings, a free value (log entry 92); the bits that lose it open a
    lane recovery and take the quad down; the blocks that arrived are then delivered. 1 ms out of lock (51 ms while it
    adapts, 1 s when faulted) retrains the lane; one that has had three retrains in a row without lock gets FAULT and
    lane-fault is posted; a lane that adapts takes no block from its bits, and the end of adaptation starts the hunt.
    Completes, for every state and operands that meet the premises: blockLockAcquired, blockLockLost, laneRetrain,
    adaptationDone. (R287; R291; R292; R293; R294; R295; R305; assumption log entry 92) -/
def Obligations.LaneLockFollowsTheHeaders : Prop :=
  (∀ x st : Nat, st < 2 ^ 58 → descramN 64 (scramN 64 x st).1 st = (x % 2 ^ 64, (scramN 64 x st).2)) ∧
  (∀ (ws : List (BitVec 66)) (up : Bool) (clock : Nat → Nat) (x : RxStep), x.rx.have_ = 0 → x.rx.slip = 0 → x.rx.acc = 0 →
    let y := (ws.flatMap (fun w => (List.range 66).map w.getLsbD)).foldl (rxBit up clock) x
    let bad := ws.countP (fun w => w.getLsbD 0 == w.getLsbD 1)
    (x.locked = false → x.rx.hunt = 0 → ws.length = 64 → bad = 0 → y.locked = true ∧ y.bad = x.bad) ∧
    (x.locked = false → ws.length = 1 → bad = 1 → y.locked = false ∧ y.rx.hunt = 0 ∧ y.rx.slip = 1 ∧ y.bad = x.bad + 1) ∧
    (x.locked = true → x.rx.grpN = 0 → x.rx.grpBad = 0 → ws.length = 64 → bad < 16 →
      y.locked = true ∧ y.bad = x.bad + bad ∧ y.losses = x.losses ∧ y.rx.grpN = 0 ∧ y.rx.grpBad = 0) ∧
    (x.locked = true → x.rx.grpN = 0 → x.rx.grpBad = 0 → ws.length ≤ 64 → bad = 16 →
      (∀ w, ws.getLast? = some w → w.getLsbD 0 = w.getLsbD 1) → y.locked = false ∧ y.bad = x.bad + 16 ∧ y.losses = x.losses + 1)) ∧
  ∀ (t : Tick) (lane : Fin 64) (bits : List Bool) (s : State), let u := s.advance t; let x := laneOf u lane.val
    (let r := receiveBits lane.val true bits u; let v := r.2; let x := laneOf v lane.val
     let y := rxLane (delivers v (lane.val / 4)) (bitTime v.tw (laneRate (fld (quadOf v (lane.val / 4)).cfg 5 2))) v.now r.1 x
     laneUsed u lane.val = true → rxAsleep u (lane.val / 4) = false →
      (x.adapting = true → exec (.blockLockAcquired t lane bits) s = .next (pull (laneQuad lane) (setLane lane.val { x with
        sig := x.sig || !r.1.isEmpty, cdr := x.cdr || !r.1.isEmpty } v))) ∧
      (x.adapting = false → x.lock = false → y.lock = true → rbit x.eq 13 = true → exec (.blockLockAcquired t lane bits) s =
        .next (pull (laneQuad lane) (setLane lane.val y v))) ∧
      (x.adapting = false → x.lock = false → y.lock = true → rbit x.eq 13 = false → exec (.blockLockAcquired t lane bits) s =
        .next (pull (laneQuad lane) (setLane lane.val { y with eqSet := (v.drawFree 32).1 } (v.drawFree 32).2))) ∧
      (x.adapting = false → x.lock = true → y.lock = false → exec (.blockLockLost t lane bits) s =
        .next (pull (laneQuad lane) (quadDown (lane.val / 4) (setLane lane.val y (openRecovery 0 (lane.val / 4) v)))))) ∧
    (laneUsed u lane.val = true → x.lock = false → rxAsleep u (lane.val / 4) = false → x.fault = false →
      (if x.adapting then 51 else 1) * tickHz ≤ (u.now - x.outSince) * 1000 →
      (x.retrains < 3 → exec (.laneRetrain t lane) s = .next (setLane lane.val { x with
        adapting := true, cdr := false, outSince := u.now, eqSet := 0, rx := BlockRx.reset, retrain := bump 32 x.retrain 1
        retrains := x.retrains + 1 } u)) ∧
      (3 ≤ x.retrains → exec (.laneRetrain t lane) s = .next (postEvent 0x62 lane.val [] (setLane lane.val { x with
        adapting := true, cdr := false, outSince := u.now, eqSet := 0, rx := BlockRx.reset, retrain := bump 32 x.retrain 1
        retrains := x.retrains + 1, fault := true } u)))) ∧
    (laneUsed u lane.val = true → x.lock = false → rxAsleep u (lane.val / 4) = false → x.fault = true →
      1000 * tickHz ≤ (u.now - x.outSince) * 1000 → exec (.laneRetrain t lane) s = .next (setLane lane.val { x with
        adapting := true, cdr := false, outSince := u.now, eqSet := 0, rx := BlockRx.reset, retrain := bump 32 x.retrain 1
        retrains := x.retrains + 1 } u)) ∧
    (x.adapting = true → exec (.adaptationDone t lane) s = .next (setLane lane.val { x with
      adapting := false, outSince := if x.fault then x.outSince else u.now, eqSet := (u.drawFree 32).1 + 1 } (u.drawFree 32).2))

/-- On an enabled quad whose receive direction is not asleep, a set of markers that satisfies R289 makes a quad that is
    not up become up: quad-up is posted with role and lane mask, a lane recovery gets its end one second later, the stripe
    starts at lane 0, and a mesh or twin quad sends ACK of the last accepted sequence and then what waits; a set that does
    not satisfy it takes the quad down. On a quad that is up a good set leaves it up; behind one that ends a wake the
    stripe starts at lane 0 too. The set says whether the lanes see spread (SSC), and a good set ends a wake of the
    receive direction. Completes, for every state and operands that meet the premises: alignmentMarker. (R288; R289; R293;
    R303; R44; R333) -/
def Obligations.QuadAlignsOnAGoodMarkerSet : Prop :=
  ∀ (t : Tick) (q : Fin 16) (ms : List MarkerSeen) (s : State), let u := s.advance t
    let x := { quadOf u q.val with ssc := ms.any (·.spread) }
    let v := setQuad q.val { x with rx := { x.rx with st := .active }, rxK := if x.rx.st = .waking then 0 else x.rxK } u
    let w := closeRecovery 0 q.val (v.tw + tickHz) v
    let z := ackNow q.val (postEvent 0x60 q.val [BitVec.ofNat 8 (quadRole v q.val), BitVec.ofNat 8 (laneMask v q.val)]
      (setQuad q.val { quadOf v q.val with rxK := 0, rxFrame := none, up := true, aligned := true } w))
    rbit (quadOf u q.val).cfg 0 = true → rxAsleep u q.val = false →
    (markersGood u q.val ms = true → (quadOf u q.val).up = false →
      exec (.alignmentMarker t q ms) s = .next (if retries u q.val then pump q.val z else z)) ∧
    (markersGood u q.val ms = true → (quadOf u q.val).up = true → exec (.alignmentMarker t q ms) s = .next v) ∧
    (markersGood u q.val ms = false → exec (.alignmentMarker t q ms) s = .next (quadDown q.val (setQuad q.val x u)))

/-- For each of the five patterns, inverted or not: a checker that starts to load and gets the bits of the generator is in
    lock after its register and 1,024 bits, and counts no error then or later; a checker in lock at the start of a group
    that gets 128 bits none of which is its prediction counts 128 errors and drops lock. While the checker of a lane runs
    (an enabled quad of role 0 and a pattern in CHK), the bits that arrive on the lane, through its loop, go through its
    checker, and PRBS_LOCK and PRBS_ERR are what the checker says; nothing else of the lane changes but SIG and CDR. The
    taps of the patterns are the recommendation's (log entry 93). Completes, for every state and operands that meet the
    premises: prbsLockAcquired, prbsLockLost. (R296; R297; R298; assumption log entry 93) -/
def Obligations.PatternLockAndItsLoss : Prop :=
  (∀ (code k : Nat) (inv : Bool) (tx : LaneTx), 1 ≤ code → code ≤ 5 → tx.inject = 0 →
    (((genBits code inv ((prbsTaps code).1 + 1024 + k) tx).1.foldl (chkBit code inv) (Checker.reset, false, 0)).2 = (true, 0))) ∧
  (∀ (code e : Nat) (inv : Bool) (c : Checker), 1 ≤ code → code ≤ 5 → c.grpN = 0 → c.grpBad = 0 →
    (((genBits code inv 128 { LaneTx.reset with gen := c.reg }).1.map not).foldl (chkBit code inv) (c, true, e)).2 = (false, e + 128)) ∧
  ∀ (t : Tick) (lane : Fin 64) (bits : List Bool) (s : State), let u := s.advance t
    let r := receiveBits lane.val false bits u; let x := laneOf r.2 lane.val
    let y := r.1.foldl (chkBit (fld x.test 3 3) (rbit x.test 6)) (x.chk, x.prbsLock, 0)
    let v := setLane lane.val { x with
      chk := y.1, prbsLock := y.2.1, prbsErr := bump 32 x.prbsErr y.2.2, sig := x.sig || !r.1.isEmpty, cdr := x.cdr || !r.1.isEmpty } r.2
    (checkerOn u lane.val = true → exec (.prbsLockAcquired t ⟨lane, bits⟩) s = .next v ∧ exec (.prbsLockLost t lane bits) s = .next v) ∧
    (loopOf u lane.val = 0 → genOn u lane.val = false → r = (bits.map (fun b => xor b (rbit (laneOf u lane.val).eq 16)), u))

/-- An enabled transmit direction that is ACTIVE, has no request pending and nothing to send, and has been idle for
    TX_IDLE µs, sends REQ with the next token, the lower of TX_MODE and what Table 12-5 allows, and SLEEP_AFTER when that
    is 2. A good REQ on a quad that is up is answered, under its token, by ACK with the lowest of the requested state,
    RX_ACCEPT and Table 12-5, or by NAK when that is 0 or the request is 3. Completes, for every state and operands that
    meet the premises: sleepRequest, sleepReqReceived. (R336; R337; R338; R302) -/
def Obligations.SleepRequestIsMadeAndAnswered : Prop :=
  ∀ (t : Tick) (q : Fin 16) (b : BitVec 64) (s : State), let u := s.advance t; let x := quadOf u q.val
    let mode := min (fld x.sleepCfg 0 2) (txAllowed u q.val)
    let after := if mode = 2 then max 1 (fld x.sleepCfg 18 14) else 0
    let grant := min (ctlParam b % 4) (min (fld x.sleepCfg 16 2) (rxAllowed u q.val))
    rbit x.cfg 0 = true →
    (1 ≤ mode → x.tx.st = .active → x.tx.reqAt = none → x.txq = [] → max 1 (fld x.sleepCfg 2 14) * tickHz ≤ (u.now - x.tx.idleAt) * 1000000 →
      exec (.sleepRequest t q) s = .next (let v := emitOn q.val (.block (sleepBlock 1 ((x.tx.token + 1) % 16) (mode + 4 * after))) u
        setQuad q.val { quadOf v q.val with tx := { (quadOf v q.val).tx with
          token := (x.tx.token + 1) % 16, reqAt := some v.now, wakeSeen := false } } v)) ∧
    (x.up = true → ctlGood b = true → isSleep b 1 = true → ctlParam b % 4 ≠ 3 → 1 ≤ grant →
      exec (.sleepReqReceived t q b) s = .next (let v := emitOn q.val (.block (sleepBlock 2 (ctlHi b) (grant + 4 * (ctlParam b / 4)))) u
        setQuad q.val { quadOf v q.val with rx := { (quadOf v q.val).rx with
          token := ctlHi b, ackAt := some v.now, granted := grant, sleepAfter := ctlParam b / 4 } } v)) ∧
    (x.up = true → ctlGood b = true → isSleep b 1 = true → (ctlParam b % 4 = 3 ∨ grant = 0) →
      exec (.sleepReqReceived t q b) s = .next (let v := emitOn q.val (.block (sleepBlock 3 (ctlHi b) 0)) u
        setQuad q.val { quadOf v q.val with rx := { (quadOf v q.val).rx with token := ctlHi b } } v))

/-- On an enabled quad that is up: the requester that gets the ACK of its token sends COMMIT and enters DOZE when nothing
    waits, no WAKE came and Table 12-5 still lets it sleep, and ABORT otherwise; a NAK or 250 µs without an answer ends
    its request, the latter with ABORT. The far end enters DOZE at the COMMIT of its token where Table 12-5 lets it (and
    otherwise stays ACTIVE and sends WAKE), stays ACTIVE at ABORT, and enters DOZE when signal is lost within 250 µs after
    its ACK; with DOZE the lanes of the quad read SIG 0. Completes, for every state and operands that meet the premises:
    sleepAckReceived, sleepNakReceived, sleepReqTimeout, commitReceived, abortReceived, signalLostAfterAck. (R293; R302;
    R338; R339; R340) -/
def Obligations.SleepHandshakeCommitsOrAborts : Prop :=
  ∀ (t : Tick) (q : Fin 16) (b : BitVec 64) (s : State), let u := s.advance t; let x := quadOf u q.val
    rbit x.cfg 0 = true → x.up = true → let grant := min (ctlParam b % 4) (txAllowed u q.val)
    (ctlGood b = true → isSleep b 2 = true → x.tx.reqAt ≠ none → ctlHi b = x.tx.token → x.held = [] → x.txq = [] → x.tx.wakeSeen = false →
      1 ≤ grant → exec (.sleepAckReceived t q b) s = .next (let v := emitOn q.val (.block (sleepBlock 4 x.tx.token (ctlParam b))) u
        setQuad q.val { quadOf v q.val with tx := { (quadOf v q.val).tx with
          st := .doze, reqAt := none, granted := grant, sleepAfter := ctlParam b / 4, since := v.now } } v)) ∧
    (ctlGood b = true → isSleep b 2 = true → x.tx.reqAt ≠ none → ctlHi b = x.tx.token → (x.tx.wakeSeen = true ∨ grant = 0) →
      exec (.sleepAckReceived t q b) s = .next (abortReq q.val u)) ∧
    (ctlGood b = true → isSleep b 3 = true → x.tx.reqAt ≠ none → ctlHi b = x.tx.token →
      exec (.sleepNakReceived t q b) s = .next (setQuad q.val { x with tx := { x.tx with reqAt := none, idleAt := u.now } } u)) ∧
    (∀ r, x.tx.reqAt = some r → 250 * tickHz ≤ (u.now - r) * 1000000 → exec (.sleepReqTimeout t q) s = .next (abortReq q.val u)) ∧
    (ctlGood b = true → isSleep b 4 = true → x.rx.ackAt ≠ none → ctlHi b = x.rx.token →
      (1 ≤ rxAllowed u q.val → exec (.commitReceived t q b) s =
        .next (setSig q.val false (setQuad q.val { x with rx := { x.rx with st := .doze, ackAt := none, since := u.now } } u))) ∧
      (rxAllowed u q.val = 0 → exec (.commitReceived t q b) s =
        .next (sendWake q.val (setQuad q.val { x with rx := { x.rx with ackAt := none } } u)))) ∧
    (ctlGood b = true → isSleep b 5 = true →
      exec (.abortReceived t q b) s = .next (setQuad q.val { x with rx := { x.rx with ackAt := none } } u)) ∧
    (∀ a, x.rx.ackAt = some a → (u.now - a) * 1000000 ≤ 250 * tickHz → 1 ≤ rxAllowed u q.val → exec (.signalLostAfterAck t q) s =
      .next (setSig q.val false (setSig q.val false
        (setQuad q.val { x with rx := { x.rx with st := .doze, ackAt := none, since := u.now } } u))))

/-- On an enabled quad a direction in DOZE with granted state 2 that Table 12-5 lets sleep enters SLEEP after sleep-after
    ms, transmit and receive alike. WAKE on a quad that is up wakes a transmit direction that sleeps, or marks the request
    pending; a direction that wakes sends 128 idle blocks on each lane, a marker set and then what waited, in order, and
    is ACTIVE; signal detect makes a sleeping receive direction wake and sets SIG on the quad's lanes. Completes, for
    every state and operands that meet the premises: sleepAfterExpiry, wakeReceived, txWake, signalDetect. (R300; R301;
    R302; R338; R339; R340; R341) -/
def Obligations.SleepAndWake : Prop :=
  ∀ (t : Tick) (q : Fin 16) (b : BitVec 64) (s : State), let u := s.advance t; let x := quadOf u q.val
    rbit x.cfg 0 = true →
    (x.tx.st = .doze → x.tx.granted = 2 → txAllowed u q.val = 2 → x.tx.sleepAfter * tickHz ≤ (u.now - x.tx.since) * 1000 →
      exec (.sleepAfterExpiry t q true) s = .next (setQuad q.val { x with tx := { x.tx with st := .sleep } } u)) ∧
    (x.rx.st = .doze → x.rx.granted = 2 → rxAllowed u q.val = 2 → x.rx.sleepAfter * tickHz ≤ (u.now - x.rx.since) * 1000 →
      exec (.sleepAfterExpiry t q false) s = .next (setQuad q.val { x with rx := { x.rx with st := .sleep } } u)) ∧
    (x.up = true → ctlGood b = true → isSleep b 6 = true → x.tx.reqAt ≠ none →
      exec (.wakeReceived t q b) s = .next (setQuad q.val { x with tx := { x.tx with wakeSeen := true } } u)) ∧
    (x.up = true → ctlGood b = true → isSleep b 6 = true → x.tx.reqAt = none → (x.tx.st = .doze ∨ x.tx.st = .sleep) →
      exec (.wakeReceived t q b) s = .next (setQuad q.val { x with tx := { x.tx with st := .waking } } u)) ∧
    (x.tx.st = .waking → let c := vget u.link.coder q.val Coder.reset
      let items := (u.now, LaneOut.idle 128) :: (u.now, LaneOut.markerSet c.marker) :: x.held
      exec (.txWake t q) s = .next (items.foldl (fun s y => sendOn q.val y.1 y.2 s) (setQuad q.val { x with
        held := [], tx := { x.tx with st := .active, since := u.now, idleAt := u.now } } u)) ∧
      ∃ v, exec (.txWake t q) s = .next v ∧ v.out.lanes = u.out.lanes ++ items.map (fun y => (q.val, y.2)) ∧
        (quadOf v q.val).tx.st = .active ∧ (quadOf v q.val).held = []) ∧
    (rxAsleep u q.val = true → exec (.signalDetect t q) s =
      .next (setSig q.val true (setQuad q.val { x with rx := { x.rx with st := .waking, ackAt := none } } u)))

/-- For every protected control block (of type credit, sequence or sleep, and every op) that arrives on a quad that is up:
    when bytes 5 to 7 are not the bitwise complement of bytes 1 to 3, or byte 4 is not 0, the block has no effect but that
    CTL_ERR counts one, saturating. So does a block of any type outside Table 13-1. And every block that the A16 itself
    builds keeps the rule. (R310) -/
def Obligations.BrokenControlBlocksAreCounted : Prop :=
  (∀ (t : Tick) (q : Fin 16) (b : BitVec 64) (s : State), let u := s.advance t; let x := quadOf u q.val
    x.up = true →
    ((b.extractLsb' 0 8 = 0x2D ∨ b.extractLsb' 0 8 = 0x33 ∨ b.extractLsb' 0 8 = 0x55) ∧
        (b.extractLsb' 32 8 ≠ 0 ∨ b.extractLsb' 40 24 ≠ ~~~ (b.extractLsb' 8 24)) ∨
      ctlTypes.contains (b.extractLsb' 0 8).toNat = false) →
    ∀ c : Instr, c = .ackReceived t q b ∨ c = .nakReceived t q b ∨ c = .lateNoticeReceived t q b ∨ c = .creditBlock t q b ∨
      c = .sleepReqReceived t q b ∨ c = .sleepAckReceived t q b ∨ c = .sleepNakReceived t q b ∨ c = .commitReceived t q b ∨
      c = .abortReceived t q b ∨ c = .wakeReceived t q b →
    exec c s = .next (setQuad q.val { x with ctlErr := bump 32 x.ctlErr 1 } u)) ∧
  ∀ type b1 param : Nat, type < 256 → b1 < 256 → param < 65536 →
    (mkCtl type b1 param).extractLsb' 32 8 = 0 ∧ (mkCtl type b1 param).extractLsb' 40 24 = ~~~ ((mkCtl type b1 param).extractLsb' 8 24)

/-- On an enabled mesh or twin quad that is up, an ACK of a sequence in flight acknowledges every frame up to it; a NAK of
    the oldest frame or a later one acknowledges what lies before it and resends the rest from it in order; when
    unacknowledged frames exist and no acknowledgement has advanced for RTO µs, all of them are resent from the oldest,
    and the timer starts anew. Completes, for every state and operands that meet the premises: ackReceived, nakReceived,
    retryTimeout. (R293; R332; R333) -/
def Obligations.AcknowledgementMovesTheWindow : Prop :=
  ∀ (t : Tick) (q : Fin 16) (b : BitVec 64) (s : State), let u := s.advance t; let x := quadOf u q.val
    rbit x.cfg 0 = true → retries u q.val = true →
    (x.up = true → ctlGood b = true → isSeq b 1 = true → seqDist x.oldest (ctlParam b) < seqDist x.oldest x.txSeq →
      exec (.ackReceived t q b) s = .next (pump q.val (ackUpTo q.val ((ctlParam b + 1) % 65536) u))) ∧
    (x.up = true → ctlGood b = true → isSeq b 2 = true → seqDist x.oldest (ctlParam b) ≤ seqDist x.oldest x.txSeq →
      exec (.nakReceived t q b) s = .next (resendAll q.val (ackUpTo q.val (ctlParam b) u))) ∧
    (x.oldest ≠ x.txSeq → max 1 (fld x.linkCfg 0 14) * tickHz ≤ (u.now - x.ackAt) * 1000000 →
      exec (.retryTimeout t q) s = .next (pump q.val (setQuad q.val { x with resend := seqRange x.oldest x.txSeq, ackAt := u.now } u)))

/-- For every state, a good frame with the expected sequence is accepted, E advances by one modulo 65,536, and ACK of that
    sequence is sent; delivered again, it is not accepted but counted as a duplicate and acknowledged again; a frame that
    is not good, or lies ahead of E, is never accepted, and E stays. (R333; R332) -/
def Obligations.ReceiverTakesTheExpectedFrameOnce : Prop :=
  ∀ (q : Fin 16) (s : State), (quadOf s q.val).expect < 65536 → let e := (quadOf s q.val).expect
    (linkReceive q.val true e s).1 = true ∧ (quadOf (linkReceive q.val true e s).2 q.val).expect = (e + 1) % 65536 ∧
    (linkReceive q.val true e (linkReceive q.val true e s).2).1 = false ∧
    (quadOf (linkReceive q.val true e (linkReceive q.val true e s).2).2 q.val).dup = bump 32 (quadOf s q.val).dup 1 ∧
    (quadOf (linkReceive q.val true e (linkReceive q.val true e s).2).2 q.val).expect = (e + 1) % 65536 ∧
    ∀ (good : Bool) (seq : Nat), (good = false ∨ seq ≠ e) →
      (linkReceive q.val good seq s).1 = false ∧ (quadOf (linkReceive q.val good seq s).2 q.val).expect = e

/-- On an enabled quad that is up a good credit block of a virtual channel the role has sets the cumulative credit
    received on it (a mesh or twin quad then sends what it now may); and the grant is sent as a credit block of the
    cumulative credit given out. Completes, for every state and operands that meet the premises: creditBlock,
    creditGrantSend. (R319; R328; R331; R293) -/
def Obligations.CreditIsCumulative : Prop :=
  ∀ (t : Tick) (q : Fin 16) (vc : Fin 2) (b : BitVec 64) (s : State), let u := s.advance t; let x := quadOf u q.val
    rbit x.cfg 0 = true →
    (x.up = true → ctlGood b = true → blkByte b 0 = 0x2D → ctlHi b = 0 →
      ((quadRole u q.val = 6 ∨ quadRole u q.val = 7) → ctlOp b = 0 →
        exec (.creditBlock t q b) s = .next (setQuad q.val { x with crIn := vset x.crIn 0 (ctlParam b) } u)) ∧
      (quadRole u q.val = 4 ∧ ctlOp b < 2 ∨ quadRole u q.val = 5 ∧ ctlOp b = 0 →
        exec (.creditBlock t q b) s = .next (pump q.val (setQuad q.val { x with crIn := vset x.crIn (ctlOp b) (ctlParam b) } u)))) ∧
    ((roleVcs (quadRole u q.val)).contains vc.val = true →
      exec (.creditGrantSend t q vc) s = .next (emitOn q.val (.block (creditBlock vc.val (vget x.crOut vc.val 0))) u))

/-- Originating raises lseq by one and sends the port mask, with hops 0, on every port that is up. A good link-state frame
    for this device that is new is stored and sent on over the other ports with one more hop. A frame not forwarded within
    1 ms for lack of credit is discarded, counted against its destination, and its credit returned. A late notice with
    cause 1 for a mesh frame, whether or not its acknowledgement has come, makes it a new frame of the same content, once;
    one with cause 2 for a batch that this device sent counts against the owner and ends the rest of that contribution, in
    the version of the plan that the batch names. Completes, for every state and operands that meet the premises:
    linkStateOriginate, forwardTimeout, lateNoticeReceived, linkStateFrame. (R324; R325; R326; R329; R333; R335; R91) -/
def Obligations.MeshLinksKeepTheirState : Prop :=
  ∀ (t : Tick) (q : Fin 16) (f : RawFrame) (n : Nat) (b : BitVec 64) (s : State), let u := s.advance t; let x := quadOf u q.val
    exec (.linkStateOriginate t) s = .next (sendLinkState u.chip 0 (routeChip u) ((u.link.lseq + 1) % 2 ^ 32) (ownPorts u) none
      { u with link.lseq := (u.link.lseq + 1) % 2 ^ 32 }) ∧
    (∀ e, Tab.get u.link.fwd n = some e → tickHz ≤ (u.now - e.at_) * 1000 →
      creditLeft (quadOf u e.outQuad) e.vc < credits (blocksOf e.data) →
      exec (.forwardTimeout t n) s = .next (returnCredit e.inQuad e.inVc (ceilDiv e.data.length 8)
        (countDiscard e.dest { u with link.fwd := Tab.del u.link.fwd n }))) ∧
    (quadHas u q.val 4 = true → x.up = true → ctlGood b = true → isSeq b 3 = true →
      ∀ r, x.replayBuf.find? (fun r => decide (r.seq = ctlParam b) && !r.told) = some r →
      let v := setQuad q.val { x with replayBuf := x.replayBuf.map (fun y => if y.seq = r.seq then { y with told := true } else y) } u
      (ctlHi b = 1 → exec (.lateNoticeReceived t q b) s = .next (linkSend q.val r.vc r.kind r.data v)) ∧
      (ctlHi b = 2 → r.kind = 0 → fieldU r.data 4 2 = u.chip → let key := fieldU r.data 16 1 * 65536 + fieldU r.data 18 2
        let w := countDiscard (fieldU r.data 2 2) v
        ∀ y p, Tab.get w.chan.send key = some y → planFor w (key / 65536) (key % 65536) (fieldU r.data 20 4) (fieldU r.data 24 8) = some p →
        exec (.lateNoticeReceived t q b) s = .next
          { w with chan.send := Tab.put w.chan.send key { y with
            cut := Tab.put y.cut (fieldU r.data 2 2) (strokeKey p.vid (fieldU r.data 24 8)) } })) ∧
    (quadHas u q.val 4 = true → x.up = true → meshFits f = true → f.kind.toNat = 2 → f.spoilt = false →
      fieldU f.data 0 2 = x.expect → fieldU f.data 2 2 = routeChip u → routeChip u < xdim u * ydim u →
      Tab.get u.link.links (fieldU f.data 16 2) = none → fieldU f.data 16 2 ≠ routeChip u →
      ∃ v, exec (.linkStateFrame t q f) s = .next (returnCredit q.val (fieldU f.data 6 1 % 2) f.n.toNat
        (sendLinkState (fieldU f.data 4 2) (fieldU f.data 7 1 + 1) (fieldU f.data 16 2) (fieldU f.data 20 4) (fieldU f.data 24 1) (some q.val) v)) ∧
        Tab.get v.link.links (fieldU f.data 16 2) = some ⟨fieldU f.data 20 4, fieldU f.data 24 1, u.now⟩)

/-- For a device out of reset whose banks the host reaches (a link of 8.0 GT/s or faster, no access of the host
    outstanding) with no locked sequence open, each register with a command of its own is written: while it boots
    ID_BOOT.HOST_CTL, and when it is ready HOSTIF.CTL, TIMEBASE.TSET_CTL, REF_CFGn (no reserved kind), SCLK_CFGk, LANE_EQ,
    LANE_TEST (no reserved pattern), CNT_CLR, LINK_CLR, QUAD_CFG (no reserved role or width; enabling and disabling
    alike), HBM.CTL, GDLY_SEL, WIN_CFGn (no reserved quantity; starting and stopping alike), TWIN.CTL and SECURITY.CTL.
    The next state is the effect of that write and nothing else. Completes, for every state and operands that meet the
    premises: hostBootGo, hostifEnable, timeSetArm, refSuspectClear, sclkCfgWrite, laneRestart, errInj, laneCntClr,
    linkClr, quadEnable, quadDisable, hbmApply, hbmCntClr, gdlySelWrite, windowStart, windowStop, twinCtlWrite, dbgLock,
    dbgFuse, svnCommit, revoke. (R476; R477; R486; R371; R470; R278; R269; R277; 19_registers.md) -/
def Obligations.HostRegisterWritesReachTheirRegister : Prop :=
  ∀ (t : Tick) (v : Reg) (s : State), let u := s.advance t
    inReset u = false → reaches u .hostBridge .banks = true → u.mgmt.locks = [] → u.host.slow = false →
    outstanding u .hostBridge = false →
    (rbit v 0 = true → u.boot.phase = 2 → u.boot.reading = none → u.boot.goes < 3 → exec (.hostBootGo t v) s =
      .next { u with boot.reading := some .host, boot.goes := u.boot.goes + 1 }) ∧
    (u.boot.ready = true →
    exec (.hostifEnable t v) s = .next (followLink { u with host.ctl := v &&& 1, host.stopped := u.host.stopped && !rbit v 0 }) ∧
    exec (.timeSetArm t v) s = .next (writeTsetCtl v u) ∧
    (∀ n : Fin 4, reservedCode (.refCfg n.val) v = false → exec (.refSuspectClear t n v) s = .next (writeRefCfg n.val v u)) ∧
    (∀ k : Fin 2, exec (.sclkCfgWrite t k v) s = .next (writeSclkCfg k.val v u)) ∧
    (∀ lane : Fin 64, exec (.laneRestart t lane v) s = .next (writeLaneEq lane.val v u)) ∧
    (∀ lane : Fin 64, reservedCode (.laneTest lane.val) v = false → exec (.errInj t lane v) s = .next (writeLaneTest lane.val v u)) ∧
    (∀ lane : Fin 64, rbit v 0 = true → exec (.laneCntClr t lane v) s = .next (setLane lane.val
      { laneOf u lane.val with hdrErr := 0, lockLoss := 0, retrain := 0, prbsErr := 0 } u)) ∧
    (∀ q : Fin 16, rbit v 0 = true → exec (.linkClr t q v) s = .next (setQuad q.val
      { quadOf u q.val with crcErr := 0, ctlErr := 0, replay := 0, dup := 0, late := 0 } u)) ∧
    (∀ q : Fin 16, reservedCode (.quadCfg q.val) v = false →
      exec (.quadEnable t q v) s = .next (writeQuadCfg q.val v u) ∧ exec (.quadDisable t q v) s = .next (writeQuadCfg q.val v u)) ∧
    exec (.hbmApply t v) s = .next (writeHbmCtl v u) ∧ exec (.hbmCntClr t v) s = .next (writeHbmCtl v u) ∧
    exec (.gdlySelWrite t v) s = .next (writeGdlySel v u) ∧
    (∀ n : Fin 16, reservedCode (.winCfg n.val) v = false →
      exec (.windowStart t n v) s = .next (writeWinCfg n.val v u) ∧ exec (.windowStop t n v) s = .next (writeWinCfg n.val v u)) ∧
    exec (.twinCtlWrite t v) s = .next (writeTwinCtl v u) ∧ exec (.dbgLock t v) s = .next (writeSecurityCtl v u) ∧
    exec (.dbgFuse t v) s = .next (writeSecurityCtl v u) ∧ exec (.svnCommit t v) s = .next (writeSecurityCtl v u) ∧
    exec (.revoke t v) s = .next (writeSecurityCtl v u))

/-- While the host reaches the banks (a link of 8.0 GT/s or faster, no access of it outstanding, no locked sequence open)
    and the device is out of reset, for every address of BAR0, which the bridge decodes modulo its 4 MiB: a misaligned
    write sets MISALIGN; a write of 8 or 16 bits sets NARROW, with UNMAPPED in a reserved bank; a 32-bit write to a
    reserved bank sets UNMAPPED; one with a reserved code sets RESCODE; each counts one access. A write to a bank that is
    not served before READY sets EARLY_WR as well, with UNMAPPED in a reserved bank. A plain write of SCRATCH stores its
    value. A misaligned read, and one of a reserved bank, returns 0 and sets its flag. An address that no crossbar target
    holds answers a core with an error. A read of a low latched register returns it and latches the high one. Completes,
    for every state and operands that meet the premises: registerWrite, badRegisterRead, latchedLoRead. (R477; R478; R479;
    R481; R482; R466; R409; 19_registers.md) -/
def Obligations.RegisterWidthsAndBanks : Prop :=
  ∀ (t : Tick) (addr : BitVec 32) (w : AccessWidth) (x : BitVec 64) (s : State), let u := s.advance t; let off := addr.toNat % 2 ^ 22
    inReset u = false → reaches u .hostBridge .banks = true → u.mgmt.locks = [] → u.host.slow = false →
    outstanding u .hostBridge = false →
    (off % accBytes w ≠ 0 → exec (.registerWrite t .hostBridge addr w x) s = .next { u with
      boot.accStat := u.boot.accStat ||| 8, boot.accCount := bump 16 u.boot.accCount 1 }) ∧
    (∀ n, n = .w8 ∨ n = .w16 → off % accBytes n = 0 → exec (.registerWrite t .hostBridge addr n x) s = .next { u with
      boot.earlyWr := u.boot.earlyWr || !bankServed u off
      boot.accStat := u.boot.accStat ||| (if 0xA0000 ≤ off then 3 else 1), boot.accCount := bump 16 u.boot.accCount 1 }) ∧
    (u.boot.ready = true → 0xA0000 ≤ off → off % 4 = 0 → exec (.registerWrite t .hostBridge addr .w32 x) s = .next { u with
      boot.accStat := u.boot.accStat ||| 2, boot.accCount := bump 16 u.boot.accCount 1 }) ∧
    (u.boot.ready = false → 0x10000 ≤ off → off < 0x80000 → off % 4 = 0 →
      exec (.registerWrite t .hostBridge addr .w32 x) s = .next { u with boot.earlyWr := true }) ∧
    (u.boot.ready = false → 0xA0000 ≤ off → off % 4 = 0 → exec (.registerWrite t .hostBridge addr .w32 x) s = .next { u with
      boot.earlyWr := true, boot.accStat := u.boot.accStat ||| 2, boot.accCount := bump 16 u.boot.accCount 1 }) ∧
    (∀ r, u.boot.ready = true → off % 4 = 0 → off < 0xA0000 → regAt off = some r → reservedCode r (x.setWidth 32) = true →
      exec (.registerWrite t .hostBridge addr .w32 x) s = .next { u with
        boot.accStat := u.boot.accStat ||| 4, boot.accCount := bump 16 u.boot.accCount 1 }) ∧
    (exec (.registerWrite t .hostBridge 0x30 .w32 x) s = .next { u with boot.scratch := x.setWidth 32 }) ∧
    (off % accBytes w ≠ 0 → exec (.badRegisterRead t ⟨.hostBridge, addr⟩ w) s = .next { u with
      boot.accStat := u.boot.accStat ||| 8, boot.accCount := bump 16 u.boot.accCount 1, out.read := 0 }) ∧
    (0xA0000 ≤ off → off % 4 = 0 → exec (.badRegisterRead t ⟨.hostBridge, addr⟩ .w32) s = .next { u with
      boot.accStat := u.boot.accStat ||| 2, boot.accCount := bump 16 u.boot.accCount 1, out.read := 0 }) ∧
    (∀ n : Fin 4, xTarget u addr.toNat = none → exec (.registerWrite t (.core n) addr w x) s = .next (accessError u)) ∧
    exec (.latchedLoRead t .serial) s = .next { u with boot.serialHi := some (u.boot.fuses.serial.extractLsb' 32 32)
                                                       out.read := (u.boot.fuses.serial.extractLsb' 0 32).setWidth 64 }

/-- A scribe core that has no access outstanding and reaches a target with no sequence opens one; while it is open, an
    access of another master waits behind it. After 32 transactions or 5 µs the sequence is broken: LOCK_BROKEN is set,
    and what waits is served. Completes, for every state and operands that meet the premises: crossbarLock, registerWrite,
    crossbarLockBroken. (R410; R411; 16_management.md) -/
def Obligations.LockedSequencesHoldTheTarget : Prop :=
  ∀ (t : Tick) (n : Fin 4) (addr : BitVec 32) (w : AccessWidth) (x : BitVec 64) (s : State), let u := s.advance t
    (u.mgmt.locks = [] → outstanding u (.core n) = false → exec (.crossbarLock t (.core n) .banks false) s = .next { u with mgmt.locks := [(.banks, ⟨.core n, 0, u.now, false⟩)] }) ∧
    (∀ k a, u.mgmt.locks = [(.banks, ⟨.core n, k, a, false⟩)] →
      (u.host.slow = false → exec (.registerWrite t .hostBridge addr w x) s =
        .next { u with mgmt.waiting := u.mgmt.waiting ++ [(.banks, .hostBridge, .write (addr.toNat % 2 ^ 22) w x)] }) ∧
      (32 ≤ k ∨ 5 * tickHz ≤ (u.now - a) * 1000000 → exec (.crossbarLockBroken t .banks) s =
        .next (releaseTarget (.core n) { u with mgmt.locks := [(.banks, ⟨.core n, k, a, true⟩)], mgmt.lockBroken := true })))

/-- Writing DBG_LOCK or DBG_FUSE locks the debug port; SVN_COMMIT raises SVN_MIN to the running image's svn when it is
    higher and fewer than 64 raises are recorded, and is ignored otherwise; REVOKE revokes the slots written 1, except the
    one that verified the running firmware. The debug lock closes no instruction of the 1149.1 port but the debug port's,
    and IDCODE carries version, part, manufacturer and the fixed 1. (R472; R473; R505; 18_startup.md) -/
def Obligations.SecurityControlActs : Prop :=
  ∀ s : State,
    (writeSecurityCtl 1 s).boot.dbgLock = true ∧ (writeSecurityCtl 2 s).boot.fuses.dbgFused = true ∧
    dbgLocked (writeSecurityCtl 1 s) = true ∧ dbgLocked (writeSecurityCtl 2 s) = true ∧
    (s.boot.fwSlot ≠ none → s.boot.fuses.svnMin < s.boot.fwSvn.toNat → s.boot.fuses.raises < 64 →
      (writeSecurityCtl 4 s).boot.fuses.svnMin = s.boot.fwSvn.toNat ∧ (writeSecurityCtl 4 s).boot.fuses.raises = s.boot.fuses.raises + 1) ∧
    (64 ≤ s.boot.fuses.raises ∨ s.boot.fwSvn.toNat ≤ s.boot.fuses.svnMin → (writeSecurityCtl 4 s).boot.fuses.svnMin = s.boot.fuses.svnMin) ∧
    (∀ (m : BitVec 4) (slot : Nat), slot < 4 → s.boot.fwSlot = some slot →
      (writeSecurityCtl (m.setWidth 32 <<< 3) s).boot.fuses.revoked =
        s.boot.fuses.revoked ||| (m &&& ~~~ (BitVec.ofNat 4 (2 ^ slot)))) ∧
    (∀ i : JtagInstr, jtagOpen (writeSecurityCtl 1 s) i = decide (i ≠ .debug)) ∧
    idcode.extractLsb' 0 1 = 1 ∧ idcode.extractLsb' 1 11 = 0x70F ∧ idcode.extractLsb' 12 16 = 0xA160 ∧ idcode.extractLsb' 28 4 = 1

/-- A qualifying reference whose 100th 100 ms mean in a row lies within 2 ppm becomes qualified, posts ref-qualified and
    is considered for selection; one mean out of band starts the count anew. A qualified reference beyond 4 ppm is
    disqualified. When a case of R263 holds, the reference becomes inactive. While no reference is selected, the drift
    guard gives each its means. Ten seconds after selection with the frequency error within 0.05 ppm (the DPLL's own
    frequency against the reference's and the walk's, and the errors measured) and, for a time-bearing reference, the
    phase error within 50 ns, PULL-IN becomes LOCKED, and not before; a second after the last history entry, in LOCKED,
    the mean DPLL frequency over it joins the last 1,800. Completes, for every state and operands that meet the premises:
    refQualifyEval, refInactive, driftGuard, lockAchieved, historyEntry. (R263; R264; R265; R268; R270; R271;
    11_timebase.md) -/
def Obligations.ReferencesQualifyAndFail : Prop :=
  ∀ (t : Tick) (n : Fin 4) (off : Int) (c : InactiveCause) (fe pe : Int) (s : State), let u := s.advance t; let r := refOf u n.val
    (r.st = .qualifying → off.natAbs ≤ 2000 → r.inBand = 99 → exec (.refQualifyEval t n off) s =
      .next (let v := setRef n.val { r with offs := off, st := .qualified, inBand := 100, means := [] } u
        reselect (postEvent 0x50 n.val (le 1 (refQual v n.val)) v))) ∧
    (r.st = .qualifying → 2000 < off.natAbs → exec (.refQualifyEval t n off) s = .next (setRef n.val { r with offs := off, inBand := 0 } u)) ∧
    (r.st = .qualified → 4000 < off.natAbs → exec (.refQualifyEval t n off) s =
      .next (dropRef n.val .disqualified 4 (setRef n.val { r with offs := off } u))) ∧
    (inactiveHolds u n.val c = true → exec (.refInactive t n c) s = .next (makeInactive n.val c u)) ∧
    (u.tb.sel = none → ∀ offs : Vector Int 4, exec (.driftGuard t offs) s =
      .next ((List.range 4).foldl (fun s k => keepMean k (vget offs k 0) s) u)) ∧
    (∀ m : Fin 4, u.tb.sel = some m → u.tb.st = .pullIn →
      let near := (u.tb.freq - refFreq u).natAbs ≤ 50000 * 2 ^ 32
      (fe.natAbs ≤ 50 → near → (refTime u m.val = true → pe.natAbs ≤ 50) → 10000 * tickHz ≤ (u.now - u.tb.lockFrom) * 1000 →
        exec (.lockAchieved ⟨t, fe, pe⟩) s = .next (enterState .locked (closeRecovery 4 0 u.tw u))) ∧
      (50 < fe.natAbs ∨ ¬ near ∨ refTime u m.val = true ∧ 50 < pe.natAbs ∨ (u.now - u.tb.lockFrom) * 1000 < 10000 * tickHz →
        exec (.lockAchieved ⟨t, fe, pe⟩) s = .next u)) ∧
    (∀ (sec : Nat) (frac : BitVec 32), let u := s.advance (secTick sec frac)
      (u.tb.st = .locked → tickHz ≤ u.now - u.tb.histFrom → exec (.historyEntry sec frac) s = .next { u with
        tb.hist := ((u.now, meanFreq u) :: u.tb.hist).take 1800, tb.freqSum := 0, tb.histFrom := u.now }) ∧
      (u.tb.st ≠ .locked ∨ u.now - u.tb.histFrom < tickHz → exec (.historyEntry sec frac) s = .next u))

/-- The first edge of a reference records the edge and the difference from the second; an edge missing for 1.1 s ends its
    valid time. A time frame is sent on a time quad with the state, the time word and the echo. A damaged time frame is
    counted; a good one without an echo, on a quad that carries no enabled reference, leaves its time and arrival for the
    next echo. Completes, for every state and operands that meet the premises: ppsEdge, ppsMissing, timeFrameSend,
    timeFrame. (R264; R278; R320; R321; 11_timebase.md; 13_link_frames.md) -/
def Obligations.TimeIsTakenFromTheReference : Prop :=
  ∀ (t : Tick) (n : Fin 2) (q : Fin 16) (a : BitVec 64) (f : RawFrame) (s : State), let u := s.advance t; let r := refOf u n.val
    (r.lastAt = none → exec (.ppsEdge t n) s = .next (showPhase n.val (timeChange n.val 2 (refTime u n.val)
      (setRef n.val { r with lastAt := some u.now, good := 0, timeValid := false, diff := wrapS 32 (-(u.tw : Int)) } u)))) ∧
    (∀ b, r.lastAt = some b → 1100 * tickHz ≤ (u.now - b) * 1000 → exec (.ppsMissing t n) s =
      .next (timeChange n.val 1 (refTime u n.val) (setRef n.val { r with timeValid := false, good := 0 } u))) ∧
    (quadHas u q.val 8 = true → (quadOf u q.val).lastT = none → exec (.timeFrameSend t q) s = .next (emitOn q.val
      (.frame (mkFrame 8 0 (le 1 (advQual u) ++ le 1 u.tb.st.code ++ le 2 0 ++ zeros 4 ++ le 8 u.tw ++ le 8 0 ++ le 8 0)))
      (setQuad q.val { quadOf u q.val with
        sentT := u.tw :: (quadOf u q.val).sentT.filter (fun x => decide ((u.tw - x) * 10 ≤ tickHz)) } u))) ∧
    (quadHas u q.val 8 = true → (quadOf u q.val).up = true → f.damaged = true →
      (∀ k ∈ ([2, 3] : List Nat), rbit (vget u.tb.refCfg k 0) 0 = false) → exec (.timeFrame t q a f) s =
        .next (setQuad q.val { quadOf u q.val with crcErr := bump 32 (quadOf u q.val).crcErr 1 } u)) ∧
    (quadHas u q.val 8 = true → (quadOf u q.val).up = true → frameGood f = true → frameIs f 8 0 = true → f.n.toNat = 4 →
      fieldU f.data 0 1 < 16 → fieldU f.data 1 1 < 4 → fieldU f.data 2 2 = 0 →
      (∀ k ∈ ([2, 3] : List Nat), rbit (vget u.tb.refCfg k 0) 0 = false) → exec (.timeFrame t q a f) s =
        .next (setQuad q.val { quadOf u q.val with lastT := some (fieldU f.data 8 8, a.toNat) } (frameTaken q.val u)))

/-- For every state out of reset with nothing active and no reference selected: after TIME_SET_ARM with ARM set the time
    word is the value in TSET, ARM reads 0, O is 0, and no walk goes on; and while the DPLL stands at the nominal
    frequency the time word then advances with the clock. Completes, for every state and operands that meet the premises:
    timeSetArm. (R278; R279; R8) -/
def Obligations.TimeSetLoadsAtOnce : Prop :=
  ∀ (t t' : Tick) (v : Reg) (s : State), let u := s.advance t
    inReset u = false → u.boot.ready = true → reaches u .hostBridge .banks = true → u.mgmt.locks = [] → u.host.slow = false →
    outstanding u .hostBridge = false → rbit v 0 = true →
    anyActive u = false → u.tb.armed = false → u.tb.sel = none →
    ∃ w, exec (.timeSetArm t v) s = .next w ∧ w.tw = u.tb.tsetLo.toNat + 2 ^ 32 * u.tb.tsetHi.toNat ∧ w.tb.armed = false ∧ w.offsetO = 0 ∧
      w.tb.walking = false ∧ w.tb.phase = 0 ∧
      (w.tb.freq = 0 → dpllGoal w = 0 → (w.advance t').tw = (w.tw + (max w.now t' - w.now)) % 2 ^ 64)

/-- In a second of a walk |O| falls by WALK_RATE ns (0 taken as 1, more than 10 as 10) and ends at 0; while an output is
    gated the walk stands still; a walk step ends the walk when O has reached 0. Loss of synthesiser lock closes the
    output's gate with cause 3; a gate closed for 10 ms opens, and with no gate left closed, selection is looked at again.
    PPSOUT rises while the fraction of the time word is 0 within 5 ns, but not after a failed boot. Completes, for every
    state and operands that meet the premises: walkStep, synthLockLost, gateOpen, ppsoutPulse. (R274; R277; R280; R267;
    R469) -/
def Obligations.OffsetWalksToZero : Prop :=
  ∀ (t : Tick) (o : Fin 3) (s : State), let u := s.advance t
    let step : Nat := 2 ^ 32 * min 10 (max 1 (fld s.tb.ctl 1 4))
    (s.tb.walking = true → gated s = true → u.tb.oNano = s.tb.oNano) ∧
    (s.tb.walking = true → gated s = false → t = s.now + tickHz → step ≤ s.tb.oNano.natAbs →
      u.tb.oNano.natAbs + step = s.tb.oNano.natAbs ∧ (u.tb.oNano < 0 → s.tb.oNano < 0) ∧ (0 < u.tb.oNano → 0 < s.tb.oNano)) ∧
    (s.tb.walking = true → gated s = false → t = s.now + tickHz → s.tb.oNano.natAbs ≤ step → u.tb.oNano = 0) ∧
    (u.tb.walking = true → rbit u.tb.ctl 0 = true → u.tb.oNano ≠ 0 → exec (.walkStep t) s = .next u) ∧
    (u.tb.walking = true → u.tb.oNano = 0 → exec (.walkStep t) s = .next (endWalk 0 u)) ∧
    exec (.synthLockLost t o) s = .next (closeGate o.val 3 u) ∧
    ((vget u.tb.gates o.val ⟨false, 0, 0⟩).closed = true → 10 * tickHz ≤ (u.now - (vget u.tb.gates o.val ⟨false, 0, 0⟩).since) * 1000 →
      exec (.gateOpen t o) s = .next (let v := postEvent 0x59 o.val [0, 0] { u with tb.gates := vset u.tb.gates o.val ⟨false, 0, u.now⟩ }
        if gated v then v else reselect v)) ∧
    (u.boot.phase ≠ 15 → (u.tw % tickHz ≤ 21 ∨ tickHz - 21 ≤ u.tw % tickHz) →
      exec (.ppsoutPulse t) s = .next { u with tb.ppsRise := some u.now }) ∧
    (u.boot.phase = 15 → exec (.ppsoutPulse t) s = .next u)

/-- A refresh that is due (3.9 µs, or 1.95 µs while the interval is halved, after the last; of single banks at the same
    overall rate) records its instant, and per bank its bank, while the pseudo-channel goes on (log entry 96). Every 1 ms
    a reading of a stack above 85 °C makes it hot, one below 80 °C not, and one between keeps it; a failed reading is
    counted. While VCORE is in range a reading of 95 °C or more takes ALERT_N low, one of 105 °C or more trips the device.
    A fourth recurring alert fails its channel; an earlier one replays, and moves the end of the recovery's one window to
    1 ms later. The end of training records the stacks and fails every channel of a failed one. The scrubber, at a word
    that is due, places its request, counts what its read was told and clears the word of any pending mark; a word of a
    tile with an open pair is left for later in the pass. Completes, for every state and operands that meet the premises:
    hbmRefresh, hbmTempRead, hbmAlert, hbmTrainingDone, scrubStep. (R358; R359; R360; R361; R364; R418; R475;
    14_memory.md; assumption log entry 96) -/
def Obligations.MemoryKeepsItself : Prop :=
  ∀ (t : Tick) (pc : Fin 128) (k : Fin 4) (ch : Fin 64) (v : Int) (tr : BitVec 4) (word : Nat) (ecc : List Ecc) (s : State), let u := s.advance t
    (refreshDue u pc.val = true → exec (.hbmRefresh t pc) s = .next (let w := hbmServe pc.val (fun q => q) u
      { w with
        hbm.refreshAt := Tab.put w.hbm.refreshAt pc.val u.now, hbm.perBank := w.hbm.perBank + b01 (perBankNow w pc.val)
        hbm.refreshBank := if perBankNow w pc.val then Tab.put w.hbm.refreshBank pc.val (refreshBank w pc.val) else w.hbm.refreshBank })) ∧
    (refreshDue u pc.val = false → exec (.hbmRefresh t pc) s = .next u) ∧
    (tempDue u k.val = true → v < 90 → exec (.hbmTempRead t k (some v)) s = .next { u with
      hbm.tempAt := Tab.put u.hbm.tempAt k.val u.now, hbm.temps := vset u.hbm.temps k.val (some v)
      hbm.readFails := vset u.hbm.readFails k.val 0
      hbm.hot := vset u.hbm.hot k.val (if 85 < v then true else if v < 80 then false else vget u.hbm.hot k.val false) }) ∧
    (tempDue u k.val = true → ∃ w, exec (.hbmTempRead t k (some v)) s = .next w ∧ vget w.hbm.temps k.val none = some v ∧ vget w.hbm.readFails k.val 0 = 0 ∧
      (85 < v → vget w.hbm.hot k.val false = true) ∧ (u.pins.vcore = true → 95 ≤ v → w.mgmt.hot = true) ∧
      (u.pins.vcore = true → 105 ≤ v → w.mgmt.trip = true)) ∧
    (tempDue u k.val = true → exec (.hbmTempRead t k none) s = .next { u with
      hbm.tempAt := Tab.put u.hbm.tempAt k.val u.now
      hbm.readFails := vset u.hbm.readFails k.val (vget u.hbm.readFails k.val 0 + 1) }) ∧
    (u.hbm.chFail.getLsbD ch.val = false → 3 ≤ Tab.getD u.hbm.replays ch.val 0 →
      exec (.hbmAlert t ch true) s = .next (failChannel ch.val { u with hbm.replays := Tab.del u.hbm.replays ch.val })) ∧
    (u.hbm.chFail.getLsbD ch.val = false → ∃ w, exec (.hbmAlert t ch false) s = .next w ∧ w.hbm.chFail = u.hbm.chFail ∧
      Tab.getD w.hbm.replays ch.val 0 = 1 ∧ Tab.get w.hbm.replayAt ch.val = some u.now) ∧
    (∀ n, u.hbm.chFail.getLsbD ch.val = false → Tab.getD u.hbm.replays ch.val 0 = n → 0 < n → n < 3 → ∃ w, exec (.hbmAlert t ch true) s = .next w ∧
      Tab.getD w.hbm.replays ch.val 0 = n + 1 ∧ w.twin.recov = (moveRecovery 1 ch.val (u.tw + tickHz / 1000) u).twin.recov) ∧
    (u.hbm.trainDone = false → exec (.hbmTrainingDone t tr) s = .next ((List.range 64).foldl
      (fun s c => if tr.getLsbD (c / 16) then s else failChannel c s) { u with hbm.trained := tr, hbm.trainDone := true })) ∧
    (let v := scrubPass u
     let z := { v with hbm.scrubNext := Nat.max v.hbm.scrubNext (word + 1), hbm.skipped := v.hbm.skipped.filter (fun x => x ≠ word) }
     let e := eccSeen z (fun _ => 32 * word) 0 1 ecc
     let w := e.foldl (fun s x => eccWord 7 (32 * word) x.corrected s) (hbmRequest 7 .outside (32 * word) z)
     scrubDue v word = true →
      ((∀ y, wordTile z word = some y → tileOpen z y = false) → exec (.scrubStep t word ecc) s = .next { w with
        hbm.soft := w.hbm.soft.filter (fun x => x ≠ word)
        mgmt.logSkipped := w.mgmt.logSkipped + b01 (poisonedIn e &&
          decide (regionBase w 5 + regionSize w 5 / 2 ≤ 32 * word ∧ 32 * word < regionBase w 6)) }) ∧
      (∀ y, wordTile z word = some y → tileOpen z y = true → exec (.scrubStep t word ecc) s =
        .next { z with hbm.skipped := z.hbm.skipped ++ [word] }))

/-- The first half of a tag opens a pair, and the read of an inkwell update is requested; the other half within 64 µs
    applies both bursts in address order, and the entry leaves the table with its acknowledgement, with the completion or
    at a later query (which of them is a free value, log entry 41). After 64 µs the pair is discarded and its data
    dropped, and its requester has to issue it again. A query 128 µs after the pair opened is answered with the entry's
    state, and ends a discarded pair's entry; an open pair stays. Completes, for every state and operands that meet the
    premises: pairHalfArrival, pairTimeout, pairQuery. (R355; R356; R357; 14_memory.md; assumption log entry 41) -/
def Obligations.PairedBurstsApplyWhole : Prop :=
  ∀ (t : Tick) (h : PairHalf) (e : PairEntry) (s : State), let u := s.advance t
    (Tab.get u.hbm.pairs h.tag.toNat = none → mustWait u h = false → u.hbm.waiting = [] → exec (.pairHalfArrival t h) s = .next (pairRequests true h { u with
      hbm.pairs := Tab.put u.hbm.pairs h.tag.toNat ⟨h.kind, h.escape, h.stack.val, h.payload, h.second, u.now, .opened⟩ })) ∧
    (Tab.get u.hbm.pairs h.tag.toNat = some e → e.st = .opened → (u.now - e.at_) * 1000000 < 64 * tickHz → e.kind = .splitWrite →
      h.second = true → e.firstSecond = false → u.hbm.waiting = [] → exec (.pairHalfArrival t h) s = .next (
        let z := { (u.drawFree 1).2 with
          hbm.done := u.hbm.done ++ [⟨h.tag.toNat, .splitWrite, [e.first, h.payload]⟩]
          hbm.pairs := if (u.drawFree 1).1 = 0 then Tab.del u.hbm.pairs h.tag.toNat
            else Tab.put u.hbm.pairs h.tag.toNat { e with st := .applied, first := [] } }
        pairRequests false { h with kind := e.kind, escape := e.escape } z)) ∧
    (Tab.get u.hbm.pairs h.tag.toNat = some e → e.st = .opened → 64 * tickHz ≤ (u.now - e.at_) * 1000000 → u.hbm.waiting = [] →
      exec (.pairTimeout t h.tag) s = .next { u with
        hbm.pairs := Tab.put u.hbm.pairs h.tag.toNat { e with st := .discarded, first := [] }
        hbm.reissue := u.hbm.reissue ++ [(h.tag.toNat, e.kind)] }) ∧
    (Tab.get u.hbm.pairs h.tag.toNat = some e → 128 * tickHz ≤ (u.now - e.at_) * 1000000 →
      (e.st = .opened → exec (.pairQuery t h.tag) s = .next { u with hbm.answer := some (h.tag.toNat, some .opened) }) ∧
      (e.st = .discarded → u.hbm.waiting = [] → exec (.pairQuery t h.tag) s = .next { u with
        hbm.answer := some (h.tag.toNat, some .discarded), hbm.pairs := Tab.del u.hbm.pairs h.tag.toNat
        hbm.reissue := u.hbm.reissue.filter (fun x => decide (x.1 ≠ h.tag.toNat)) })) ∧
    (Tab.get u.hbm.pairs h.tag.toNat = none → exec (.pairQuery t h.tag) s = .next { u with hbm.answer := some (h.tag.toNat, none) })

/-- With the lowest slack below zero and the voltage below the ceiling, no step settling, the voltage rises one code at
    once; with ample slack over 64 strokes since the last step it falls one. When a step has settled (within 20 µs of it),
    its window starts anew. Above the effective ceiling the voltage falls one code per 20 µs. When device power exceeds
    PCAP the highest-power domain's power ceiling falls by one. Completes, for every state and operands that meet the
    premises: slackWindowEval, voltageSettled, ceilingLoweringStep, powerCapCheck. (R20; R413; R414; R415; R416;
    16_management.md) -/
def Obligations.VoltageFollowsTheSlack : Prop :=
  ∀ (t : Tick) (d : Fin 16) (x : Int × Nat) (a mw : Nat) (dm : Vector Nat 17) (s : State), let u := s.advance t; let m := domOf u d.val
    (lowSlack m.slacks = some x → x.1 < 0 → 0 < x.2 → m.lost = false → u.mgmt.trip = false → m.stepAt = none → m.vnow < domCeil u d.val →
      m.capped = false → ∃ w, exec (.slackWindowEval t d) s = .next w ∧ (domOf w d.val).vnow = m.vnow + 1 ∧ (domOf w d.val).stepAt = some u.now ∧
        (domOf w d.val).band = .missed) ∧
    (lowSlack m.slacks = some x → x.2 ≤ x.1 * 4 → 0 < x.2 → m.lost = false → u.mgmt.trip = false → m.stepAt = none → 64 ≤ m.since →
      m.slacks.length = 64 → 0 < m.vnow → ∃ w, exec (.slackWindowEval t d) s = .next w ∧ (domOf w d.val).vnow = m.vnow - 1 ∧
        (domOf w d.val).band = .ample) ∧
    (m.stepAt = some a →
      exec (.voltageSettled t d) s = .next (setDom d.val { m with stepAt := none, slacks := [] } u)) ∧
    (m.lost = false → m.stepAt = none → domCeil u d.val < m.vnow → exec (.ceilingLoweringStep t d) s =
      .next (setDom d.val { m with vnow := m.vnow - 1, stepAt := some u.now, slacks := [], since := 0 } u)) ∧
    ((domOf (notePowers dm u) 16).lost = false → pcapMw u < mw → ∃ w k, exec (.powerCapCheck t mw dm) s = .next w ∧ w.mgmt.powerMw = mw ∧ w.mgmt.lowMs = 0 ∧
      k < 16 ∧ (∀ i < 16, vget dm i 0 ≤ vget dm k 0) ∧
      ∀ i < 17, (domOf w i).pceil = if i = k then (domOf u i).pceil - 1 else (domOf u i).pceil)

/-- While VCORE is in range, with the hottest reading 10 °C or more above its Tmax the device trips. While a reading is at
    or above Tmax every engine domain's thermal ceiling falls one code per 10 ms. A steward that has missed three
    heartbeats is lost: the event, and its engines fail (the hub steward sets untrusted cause 2). The SMBus target answers
    Read Word with its words while VIO and VCORE are in range. A monitor window of LEN ms ends, forms its snapshot and
    starts anew. Completes, for every state and operands that meet the premises: thermalSample, thermalCeilingStep,
    stewardHeartbeatMiss, monitorWindowEnd. (R418; R407; R426; R463; R504; 16_management.md) -/
def Obligations.ThermalLimitsAct : Prop :=
  ∀ (t : Tick) (temps : Vector Int 17) (x : Nat × Int × Int) (w : Fin 17) (n : Fin 16) (a : WinAcc) (s : State), let u := s.advance t
    (u.pins.vcore = true → hottest (thermalReadings (noteTemps temps u) temps) = some x → 10000 ≤ x.2.2 → ∃ v, exec (.thermalSample t temps) s = .next v ∧ v.mgmt.trip = true ∧ v.mgmt.hot = true) ∧
    (u.pins.vcore = false → exec (.thermalSample t temps) s = .next u) ∧
    (u.pins.vio = true → u.pins.vcore = true → (u.boot.ready = false → smbusRead u 0x4A 2 = some 0) ∧ smbusRead u 0x4A 4 = some 0x3136 ∧
      smbusRead u 0x4A 5 = some 0x4741 ∧ (∀ code > 5, smbusRead u 0x4A code = some 0) ∧
      ((smbusRead u 0x4A 3).map (·.getLsbD 2)) = some u.mgmt.trip ∧ smbusRead u 0x4B 3 = none) ∧
    ((u.pins.vio && u.pins.vcore) = false → ∀ code, smbusRead u 0x4A code = none) ∧
    (u.mgmt.hot = true → 10 * tickHz ≤ (u.now - u.mgmt.tceilAt) * 1000 → exec (.thermalCeilingStep t) s = .next (modThermal (· - 1) u)) ∧
    ((domOf u w.val).lost = false → w.val < 16 → exec (.stewardHeartbeatMiss t w) s = .next ((domainEngines w.val).foldl (fun s e => markFailed e 4 s)
      (postEvent 0x85 w.val [] (setDom w.val { domOf u w.val with lost := true } u)))) ∧
    ((domOf u 16).lost = false → exec (.stewardHeartbeatMiss t 16) s = .next (setUntrusted 2
      (postEvent 0x85 16 [] (setDom 16 { domOf u 16 with lost := true } u)))) ∧
    ((winOf u n.val).acc = some a → fld (winOf u n.val).len 0 16 ≠ 0 → fld (winOf u n.val).len 0 16 * tickHz ≤ (u.now - a.startAt) * 1000 →
      exec (.monitorWindowEnd t n) s = .next (startWindow n.val (snapshot n.val false u)))

/-- Assertion and release of PORST_N leave every register at reset, with the fuses kept, and the release posts that the
    three outputs are gated (that the model's clock and its time word start at 0 is log entry 1; a trip latched while
    PORST_N was low stays); the release of SYSRST_N keeps the time word. The boot ROM's self check lets configuration
    requests be answered and starts at the source of BOOT_MODE. A source that does not answer gives error 1 and the next
    source. The last step sets READY and phase 5 with the count of failed engines. VIO and VCORE in or out of range are
    recorded. Completes, for every state and operands that meet the premises: porstRelease, resetAssert, sysrstRelease,
    bootSelfCheckDone, firmwareImageRead, firmwareReady, supplyRangeChange. (R463; R464; R465; R466; R469; R470; R471;
    R474; R501; 18_startup.md; assumption log entry 1) -/
def Obligations.ResetsAndBoot : Prop :=
  ∀ (t : Tick) (mode : BitVec 2) (s : State), let u := s.advance t
    exec (.porstRelease t mode) s = .next (([0, 1, 2] : List Nat).foldl (fun s o => postEvent 0x59 o [1, 1] s)
      { porReset u with now := 0, pins.porstLow := false, boot.mode := mode, mgmt.trip := u.pins.porstLow && u.mgmt.trip }) ∧
    (porReset u).host = HostState.reset ∧ (porReset u).tb = TimeState.reset ∧ (porReset u).link = LinkState.reset ∧
    (porReset u).hbm = HbmState.reset ∧ (porReset u).mgmt = MgmtState.reset ∧ (porReset u).cond = CondState.reset ∧
    (porReset u).chan = ChanState.reset ∧ (porReset u).corr = CorrState.reset ∧ (porReset u).glint = GlintState.reset ∧
    (porReset u).tx = TxState.reset ∧ (porReset u).audio = AudioState.reset ∧ (porReset u).lbox = LboxState.reset ∧
    { (porReset u).boot with fuses := Fuses.reset } = BootState.reset ∧ (porReset u).boot.fuses = s.boot.fuses ∧
    exec (.resetAssert t .porst) s = .next { porReset u with pins.porstLow := true } ∧
    (u.pins.porstLow = false → ∃ v, exec (.sysrstRelease t mode) s = .next v ∧ v.tw = u.tw ∧ v.now = u.now ∧ v.boot.mode = mode ∧
      v.pins.sysrstLow = false ∧ v.cond = CondState.reset ∧ v.boot.scratch = s.boot.scratch ∧ v.boot.dbgLock = s.boot.dbgLock) ∧
    (inReset u = false → u.boot.cfgOk = false → u.boot.phase = 0 → u.boot.mode = 0 → exec (.bootSelfCheckDone t) s =
      .next { u with boot.cfgOk := true, boot.phase := 1, boot.reading := some .primary, out.flash := u.out.flash ++ [(0x6B, 0, 8)] }) ∧
    (inReset u = false → u.boot.reading = some .primary → exec (.firmwareImageRead t .noAnswer) s =
      .next { u with
        boot.err := 1, boot.phase := 1, boot.reading := some .secondary, out.flash := u.out.flash ++ [(0x6B, 0x100000, 8)] }) ∧
    (inReset u = false → u.boot.phase = 4 → u.hbm.trainDone = true → ∃ v, exec (.firmwareReady t []) s = .next v ∧ v.boot.ready = true ∧
      v.boot.phase = 5 ∧ v.boot.failed = 0 ∧ ∀ d < 16, (domOf v d).vnow = 8) ∧
    ∀ b, exec (.supplyRangeChange t .vio b) s = .next { u with pins.vio := b } ∧
      exec (.supplyRangeChange t .vcore b) s = .next { u with pins.vcore := b }

/-- An in-step shadow in auto with TWIN_LIT_IN low for 200 µs (member 1: 400 µs) claims; the lit timer's expiry makes the
    member a shadow that is not in step; a pin mismatch of 1 ms is posted; the handover command withdraws the lit member
    in favour of a partner in step; the claim command makes a shadow claim by force; the gate opens once a member has
    claimed with the other pin low. TWIN_LIT_IN rising at a member whose own pin is low ends its gap; falling, it starts
    one unless the own gate is open (with the switch-over's window at a member that had claimed over a lit partner), and a
    handover flag received makes the member claim. Completes, for every state and operands that meet the premises:
    twinClaimTimer, litTimerExpiry, pinMismatch, twinHandover, twinClaim, twinGateOpen, twinLitInChange. (R435; R437;
    R438; R439; R442; R452; R456; 17_twin_recovery.md) -/
def Obligations.TwinRoleMoves : Prop :=
  ∀ (t : Tick) (d : Desc) (data : Bytes) (a : Nat) (s : State), let u := s.advance t
    (mayClaim u = true → u.twin.step = true → (if u.member = 0 then 200 else 400) * tickHz ≤ (u.now - u.twin.pinLowAt) * 1000000 →
      exec (.twinClaimTimer t) s = .next (claim 0 u)) ∧
    (u.twin.pinOut = true → exec (.litTimerExpiry t) s = .next (leaveStep (roleChange .shadow 4 (dropPin u)))) ∧
    (u.twin.mismatchAt = some a → u.twinEn = true → u.twin.pinErr = false → tickHz ≤ (u.now - a) * 1000 → exec (.pinMismatch t) s =
      .next (postEvent 0xA4 u.member (le 1 (b01 u.twin.pinIn) ++ le 1 ((u.twin.partner.map (·.role)).getD 0)) { u with twin.pinErr := true })) ∧
    (descChk d [(32, 1)] = none → u.twin.role = .lit → u.twin.present = true → u.twin.partnerStepAt ≠ none → exec (.twinHandover t d data) s =
      .next (withdraw .shadow 1 { disturb u with host.deferred := u.host.deferred ++ [⟨d, .twinRole, none⟩] })) ∧
    (descChk d [(32, 1)] = none → u.twinEn = true → u.twin.role = .shadow → u.twin.faulty = false → exec (.twinClaim t d data) s =
      .next (claim 2 { disturb u with host.deferred := u.host.deferred ++ [⟨d, .twinRole, none⟩] })) ∧
    (u.twinEn = true → u.twin.gate = false → u.twin.pinOut = true → u.twin.pinIn = false → u.twin.role = .lit → u.twin.gapAt = none →
      exec (.twinGateOpen t) s = .next (drivePins { u with twin.gate := true })) ∧
    (u.twin.pinIn = false → u.twin.pinOut = false → exec (.twinLitInChange t true) s =
      .next (noteMismatch (gapOver { u with twin.pinIn := true, twin.everLit := u.twin.everLit || u.twinEn }))) ∧
    (u.twin.pinIn = true → let gap := u.twinEn && !u.twin.gate
      let v := { u with twin.pinIn := false, twin.pinLowAt := u.now, twin.gapAt := if gap then some u.tw else u.twin.gapAt }
      exec (.twinLitInChange t false) s = .next (noteMismatch (handoverClaim (if gap && u.twin.pinOut then openSwitchover v else v))))

/-- A heartbeat is sent every 100 µs; one that arrives good, in range and in sequence at a lit member records the
    partner's role, health, flags and digest; after a millisecond without one, or since EN was set, the partner is lost;
    skew out of range for a second is posted; a digest equal for 100 ms brings the member into step. Pending digest
    entries are sent 340 at a time, and what has a counterpart is compared. A batch entry without counterpart for 2 s is
    posted late, a publication is a mismatch. The twin map is stored as loaded. Completes, for every state and operands
    that meet the premises: twinHeartbeatSend, twinHeartbeat, partnerLost, timeSkew, inStep, digestSend, mirrorCheckLate,
    twinMap. (R434; R440; R441; R443; R445; R455; 17_twin_recovery.md) -/
def Obligations.TwinMembersKeepInTouch : Prop :=
  ∀ (t : Tick) (d : Desc) (data : Bytes) (f : RawFrame) (a : Nat) (p : Partner) (x : DigestEntry) (s : State), let u := s.advance t
    let q := twinQuad u
    (u.twinEn = true → exec (.twinHeartbeatSend t) s = .next (sendHeartbeat (noteActs u))) ∧
    (u.twinEn = true → (quadsOf u 5).head? = some q → (quadOf u q).up = true → f.kind.toNat = 0 → twinFits f = true →
      fieldU f.data 0 2 = (quadOf u q).expect → u.twin.role = .lit →
      ∃ v, exec (.twinHeartbeat t f) s = .next v ∧ v.twin.present = true ∧ v.twin.partner = some
        ⟨fieldU f.data 16 1, fieldU f.data 17 1, fieldU f.data 18 2, fieldU f.data 20 4, u.now⟩) ∧
    ((u.twin.partner = some p ∧ p.at_ = a ∨ u.twin.partner = none ∧ u.twin.enAt = a) → u.twinEn = true → u.twin.lost = false →
      tickHz ≤ (u.now - a) * 1000 → exec (.partnerLost t) s = .next (decideArb (postEvent 0xA1 u.member [0] { u with
        twin.lost := true, twin.present := false, twin.partnerStepAt := none }))) ∧
    (u.twin.skewBadAt = some a → u.twinEn = true → u.twin.skewTold = false → tickHz ≤ u.now - a → exec (.timeSkew t) s =
      .next (postEvent 0xA7 u.member (leS 4 u.twin.skew) { u with
        twin.skewOut := true, twin.skewTold := true, twin.skewGoodAt := none })) ∧
    (u.twin.equalAt = some a → u.twinEn = true → u.twin.faulty = false → u.twin.step = false →
      (u.twin.role = .lit ∨ u.twin.present = true ∧ u.twin.partner = some p ∧ p.role = 0) → 100 * tickHz ≤ (u.now - a) * 1000 → exec (.inStep t) s =
        .next (gstepCheck (stepEvent { u with twin.step := true, twin.stepAt := u.tw, twin.gcount := [] }))) ∧
    (u.twinEn = true → u.twin.unsent ≠ [] → exec (.digestSend t) s = .next (let l := u.twin.unsent.take 340
      compareAll (twinSend 1 (le 2 l.length ++ zeros 6 ++ l.flatMap entryBytes) { u with twin.unsent := u.twin.unsent.drop 340 }))) ∧
    (u.twinEn = true → compares u 0 = true → ∀ subject : BitVec 64, lateEntry u 0 subject.toNat = some x → x.cls = 0 →
      exec (.mirrorCheckLate t 0 subject) s = .next (let v := markCompared x u
        postEvent 0xA5 0 (le 8 subject.toNat) { v with twin.late := bump 32 v.twin.late 1 })) ∧
    (u.twinEn = true → compares u 1 = true → ∀ subject : BitVec 64, lateEntry u 1 subject.toNat = some x → x.cls = 1 →
      exec (.mirrorCheckLate t 1 subject) s = .next (mismatchOn 1 subject.toNat (markCompared x u))) ∧
    (let n := par d 32 2; let b := dataOf d data
     descChk d [(32, 2)] = none → sizeChk d (4 * n) = none → (∀ i < 2 * n, fieldU b (2 * i) 2 < 1024) → exec (.twinMap t d data) s =
      .next (accept d { u with twin.map := (List.range n).map (fun i => (fieldU b (4 * i) 2, fieldU b (4 * i + 2) 2)) }))

/-- In a pair whose quad is up, with the frame good, in range and in sequence: a shadow that takes an ARB_RECORD frame
    answers with the same op and begins its own arbitration; a digest frame's entries are compared; a RESULT of the
    arbitration that runs is its partner's outcome; an EFFECT frame for a command not seen yet is kept for it. A member
    that has finished its recomputation sends its outcome. Without a verdict within 200 ms the arbitration ends with agree
    3. A host-timed pin-clear acts at its T. Completes, for every state and operands that meet the premises:
    recomputationDone, arbitrationTimeout, hostTimedEffect, arbitrationOpen, arbitrationResult, effectFrame, digestFrame.
    (R442; R445; R447; R449; R450; 17_twin_recovery.md) -/
def Obligations.ArbitrationRuns : Prop :=
  ∀ (t : Tick) (f : RawFrame) (a : Arb) (x : Timed) (T : Nat) (s : State), let u := s.advance t; let q := twinQuad u
    let w := frameTaken q (returnCredit q 0 f.n.toNat (linkReceive q true (fieldU f.data 0 2) u).2)
    (u.twin.arb = some a → a.own = none → exec (.recomputationDone t) s =
      .next (decideArb (sendArb 4 a (ownOutcome u a) { u with twin.arb := some { a with own := some (ownOutcome u a) } }))) ∧
    (u.twin.arb = some a → 200 * tickHz ≤ (u.now - a.at_) * 1000 → exec (.arbitrationTimeout t) s = .next (endArb a 3 u)) ∧
    (u.twin.timed = [x] → x.t = some T → x.desc.opcode = 0x44 → T ≤ u.tw → exec (.hostTimedEffect t x.desc.index) s =
      .next (clearPins (par x.desc 32 1) { u with twin.timed := [] })) ∧
    (u.twinEn = true → (quadsOf u 5).head? = some q → (quadOf u q).up = true → twinFits f = true →
      fieldU f.data 0 2 = (quadOf u q).expect →
      (f.kind.toNat = 2 → fieldU f.data 16 1 = 3 → w.twin.role = .shadow → exec (.arbitrationOpen t f) s =
        .next (let b : Arb := ⟨2, fieldU f.data 40 8, fieldU f.data 24 8, fieldU f.data 32 8, none, none, w.now⟩
          let v := openArbWindow 2 (fieldU f.data 40 8) (sendArb 3 b (fieldU f.data 40 8) w)
          nextArb { v with twin.arbQ := v.twin.arbQ ++ [b] })) ∧
      (f.kind.toNat = 2 → fieldU f.data 16 1 = 4 → w.twin.arb = some a → a.first = fieldU f.data 24 8 →
        a.last = fieldU f.data 32 8 → a.partner = none → exec (.arbitrationResult t f) s =
          .next (decideArb { w with twin.arb := some { a with partner := some (min 2 (fieldU f.data 40 8)) } })) ∧
      (f.kind.toNat = 2 → fieldU f.data 16 1 = 5 → w.twin.role = .shadow → w.twin.timed = [] →
        exec (.effectFrame t f) s = .next { w with twin.effects := w.twin.effects ++ [(fieldU f.data 40 8, fieldU f.data 24 8)] }) ∧
      (f.kind.toNat = 1 → fieldU f.data 16 2 = 1 → ∃ v, exec (.digestFrame t f) s = .next (compareAll v) ∧
        v.twin.theirs.getLast? = some ⟨fieldU f.data 24 1, fieldU f.data 28 4, fieldU f.data 32 8, fieldU f.data 40 8, w.now, false, 2 ^ 64⟩))

/-- For every state: owing a completion (with or without a result block), completing a command with OK, refusing it with a
    status, and posting an event change nothing but the host interface, the scribe's event log, the recovery windows that
    they disturb, what was put out and the count of free values. Every setting and signal of every other block stays as it
    was. (R381; R376; R458; 15_host_interface.md) -/
def Obligations.CompletingTouchesTheHostInterfaceOnly : Prop :=
  ∀ (d : Desc) (status info code subject : Nat) (args : Bytes) (result : Option Bytes) (c : Nat × Nat) (s : State),
    SameOutsideHost s (completeWith d status info result s) ∧ SameOutsideHost s (accept d s) ∧ SameOutsideHost s (refuse d c s) ∧
    SameOutsideHost s (postEvent code subject args s)

/-- When nothing is owed and the completion ring has room, completing a command writes exactly two things into host
    memory: at slot cpl_prod mod 2^LOG2 of ring 1 the 16 bytes of Table 15-6 (tag, opcode, status, info, index), then at
    SB_BASE a status block of 1,024 bytes (neither is split where the bases are aligned) whose seq and seq_end are equal
    and one more than before and whose cpl_prod is the new index; cpl_prod advances by one and nothing is owed. Without
    room nothing is written and the completion is owed. (R377; R378; R381; R384; R374; R375; 15_host_interface.md) -/
def Obligations.CompletionEntriesAreWrittenAndPublished : Prop :=
  ∀ (d : Desc) (status info : Nat) (s : State), s.host.owed = [] → let v := complete d status info s
    (cplRoom s = true → v.host.owed = [] ∧ v.host.cplProd = s.host.cplProd + 1 ∧ v.host.sbSeq = s.host.sbSeq + 1 ∧
      ∃ sb : Bytes, let l : List HostWrite := [⟨ringBase s 1 + 16 * (s.host.cplProd.toNat % 2 ^ fld (ringCfgOf s 1) 0 6),
          le 4 d.tag.toNat ++ le 2 d.opcode.toNat ++ le 2 status ++ le 4 info ++ le 4 d.index.toNat⟩, ⟨sbBase s, sb⟩]
        v.out.host = s.out.host ++ hostBursts l ∧ (ringBase s 1 % 16 = 0 → sbBase s % 1024 = 0 → hostBursts l = l) ∧
        sb.length = 1024 ∧ slice sb 0 8 = le 8 (s.host.sbSeq + 1).toNat ∧ slice sb 1016 8 = slice sb 0 8 ∧
        slice sb 20 4 = le 4 (s.host.cplProd + 1).toNat ∧ slice sb 8 8 = le 8 s.tw) ∧
    (cplRoom s = false → v.out = s.out ∧ v.host.owed = [⟨d.tag, d.opcode, status, info, d.index, none, s.now⟩] ∧
      v.host.cplProd = s.host.cplProd)

/-- Posting an event with room and an empty queue writes 32 bytes at slot evt_prod mod 2^LOG2 of ring 2 (code, sequence,
    subject, time word, 16 argument bytes padded with 0) and advances the index and the sequence; without room it joins
    the queue while fewer than 4,096 wait, taking no number, and is counted as lost when the queue is full. When the ring
    has room again, the drain writes one events-lost event with the count first, and then the queued events. Completes,
    for every state and operands that meet the premises: eventQueueDrain. (R385; R386; R408; 15_host_interface.md) -/
def Obligations.EventsAreNumberedQueuedAndCounted : Prop :=
  (∀ (code subject : Nat) (args : Bytes) (s : State), let v := postEvent code subject args s
    let e : Ev := ⟨code, le 4 subject ++ le 8 s.tw ++ (args.take 16 ++ zeros (16 - args.length)), s.now⟩
    (s.host.evQueue = [] → s.host.evLost = 0 → evtRoom s = true → v.host.evtProd = s.host.evtProd + 1 ∧ v.host.evSeq = s.host.evSeq + 1 ∧
      ∃ sb : Bytes, let l : List HostWrite := [⟨ringBase s 2 + 32 * (s.host.evtProd.toNat % 2 ^ fld (ringCfgOf s 2) 0 6),
        le 2 code ++ le 2 s.host.evSeq.toNat ++ e.body⟩, ⟨sbBase s, sb⟩]
        v.out.host = s.out.host ++ hostBursts l ∧ (ringBase s 2 % 32 = 0 → sbBase s % 1024 = 0 → hostBursts l = l) ∧
        slice sb 24 4 = le 4 (s.host.evtProd + 1).toNat) ∧
    (evtRoom s = false → s.host.evQueue.length < 4096 → v.host.evQueue = s.host.evQueue ++ [e] ∧ v.host.evSeq = s.host.evSeq ∧ v.out = s.out) ∧
    (evtRoom s = false → 4096 ≤ s.host.evQueue.length → v.host.evQueue = s.host.evQueue ∧ v.host.evSeq = s.host.evSeq ∧ v.out = s.out ∧
      v.host.evLost = bump 32 s.host.evLost 1)) ∧
  ∀ (t : Tick) (e : Ev) (s : State), let u := s.advance t
    evtRoom u = true →
    (u.host.evLost = 0 → u.host.evQueue = [e] → exec (.eventQueueDrain t) s = .next (writeEvent e { u with host.evQueue := [] })) ∧
    (u.host.evLost ≠ 0 → u.host.evQueue = [] →
      let e : Ev := ⟨1, le 4 0 ++ le 8 u.tw ++ (le 4 u.host.evLost ++ zeros 12), u.now⟩
      exec (.eventQueueDrain t) s = .next (writeEvent e (noteLog (.event e) { u with host.evLost := 0 }))) ∧
    (u.host.evLost ≠ 0 → u.host.evQueue = [e] →
      let l : Ev := ⟨1, le 4 0 ++ le 8 u.tw ++ (le 4 u.host.evLost ++ zeros 12), u.now⟩
      let w := writeEvent l (noteLog (.event l) { u with host.evLost := 0 })
      (evtRoom w = true → exec (.eventQueueDrain t) s = .next (writeEvent e { w with host.evQueue := [] })) ∧
      (evtRoom w = false → exec (.eventQueueDrain t) s = .next w))

/-- With their reserved fields 0 and their parameters in range: nop only completes with OK; counter read-out of block
    0x030A writes its 16-byte header and the plan's counters as u64 to addr; preset read-out writes the table's values as
    s32; clear-untrusted clears the cause bits written 1, after what timed commands have set so far; image unload removes
    a prototype that nothing names, and is refused with ID_IN_USE or NOT_FOUND otherwise; every other kind is removed as
    its own rule says; a first binding of a source is stored with sequence 0, and one of a trigger outlet wakes the quad's
    transmit direction. Completes, for every state and operands that meet the premises: nop, counterReadOut,
    presetReadOut, clearUntrusted, imageUnload, productBinding. (R376; R383; R391; R513; R140; 15_host_interface.md) -/
def Obligations.HostInterfaceCommandsAct : Prop :=
  ∀ (t : Tick) (d : Desc) (data : Bytes) (p : Plan) (v s : State), let u := s.advance t; let id := par d 34 2
    (descChk d [] = none → exec (.nop t d data) s = .next (complete d 0 0 u)) ∧
    (descChk d [(32, 2), (34, 2)] = none → par d 32 2 = 0x030A → (planVersions u id).getLast? = some p →
      16 + 8 * (planCounters u id p).length ≤ d.len.toNat → exec (.counterReadOut t d data) s = .next (complete d 0 0 (hostWrite
        [⟨d.addr.toNat, le 2 0x030A ++ le 2 id ++ le 4 (planCounters u id p).length ++ le 8 u.tw ++ (planCounters u id p).flatMap (le 8)⟩] u))) ∧
    (descChk d [(32, 1)] = none → par d 32 1 ≤ 9 → 4 * romCount (par d 32 1) ≤ d.len.toNat → exec (.presetReadOut t d data) s =
      .next (complete d 0 0 (hostWrite [⟨d.addr.toNat, (List.range (romCount (par d 32 1))).flatMap (fun i => leS 4 (romValue (par d 32 1) i))⟩] u))) ∧
    (descChk d [(32, 4)] = none → par d 32 4 &&& 0xE = par d 32 4 → exec (.clearUntrusted t d data) s =
      .next (accept d (let w := noteActs u; { w with host.untrusted := w.host.untrusted &&& ~~~ (BitVec.ofNat 4 (par d 32 4)) }))) ∧
    (descChk d [(32, 1), (34, 2)] = none →
      (par d 32 1 = 0 → Tab.has u.chan.protos id = true → protoNamed u id = false → exec (.imageUnload t d data) s =
        .next (accept d (cfgDel 0 id { u with chan.protos := Tab.del u.chan.protos id }))) ∧
      (par d 32 1 = 0 → Tab.has u.chan.protos id = true → protoNamed u id = true → exec (.imageUnload t d data) s = .next (refuse d (6, id) u)) ∧
      (par d 32 1 = 0 → Tab.has u.chan.protos id = false → exec (.imageUnload t d data) s = .next (refuse d (7, id) u)) ∧
      (par d 32 1 ≤ 14 → unloadImage (par d 32 1) id u = .removed v → exec (.imageUnload t d data) s = .next (accept d (unloadCfg (par d 32 1) id v)))) ∧
    (bindChk d u = none → bindingOf u (par d 33 1) (par d 34 2) = none → par d 33 1 ≠ 0 → (par d 36 1 ≠ 0xFF ∨ par d 37 1 ≠ 0xFF) →
      let b : Binding := ⟨par d 33 1, id, par d 36 1, par d 37 1, par d 38 1, par d 39 1, 0, none⟩
      exec (.productBinding t d data) s = .next (accept d (let w := cfgPut 17 (par d 33 1 * 65536 + id) (slice d.params 0 8) u
        wakeOutlet b { w with host.bindings := Tab.put w.host.bindings (par d 32 1) b })))

/-- While polling runs and a poll interval has passed since the last poll, a poll of the whole block takes every index of
    Table 15-2. A descriptor at cmd_cons before the observed cmd_prod is held and cmd_cons advances; with room it is
    executed at once, and without room it waits. A descriptor or data that could not be read completes with DMA_ERROR and
    the cause, with tag 0xFFFFFFFF when the descriptor itself could not be read. A deferred command whose work has ended
    completes with the status of its end. Completes, for every state and operands that meet the premises: doorbellPoll,
    descriptorFetched, commandReadFailed, deferredCompletion. (R372; R373; R380; R381; R382; R403; R374;
    15_host_interface.md) -/
def Obligations.CommandsAreFetchedAndStarted : Prop :=
  ∀ (t : Tick) (block data : Bytes) (cause : DmaCause) (x : Deferred) (status info : Nat) (s : State), let u := s.advance t
    (u.host.running = true → 832 ≤ block.length → pollDue u = true → u.host.held = [] → u.host.owed = [] → ∃ v, exec (.doorbellPoll t block) s = .next v ∧
      v.host.db = parseDoorbell block ∧ v.host.db.cmdProd = BitVec.ofNat 32 (fieldU block 0 4) ∧
      v.host.db.cplCons = BitVec.ofNat 32 (fieldU block 4 4) ∧ v.host.db.evtCons = BitVec.ofNat 32 (fieldU block 8 4) ∧
      v.host.cmdCons = u.host.cmdCons ∧ SameOutsideHost (noteActs u) v) ∧
    (u.host.running = true → ringEn u 0 = true → u.host.cmdCons ≠ u.host.db.cmdProd → u.host.held = [] →
      (cplRoom u = true → u.host.owed = [] → exec (.descriptorFetched t block data) s =
        .next (runCommand (parseDesc block u.host.cmdCons) data { u with host.cmdCons := u.host.cmdCons + 1 })) ∧
      (cplRoom u = false → exec (.descriptorFetched t block data) s = .next { u with
        host.cmdCons := u.host.cmdCons + 1, host.held := [⟨parseDesc block u.host.cmdCons, data, none⟩] }) ∧
      (cplRoom u = true → u.host.owed = [] → exec (.commandReadFailed t (some block) cause) s =
        .next (complete (parseDesc block u.host.cmdCons) 12 (dmaCode cause) { u with host.cmdCons := u.host.cmdCons + 1 })) ∧
      (cplRoom u = true → u.host.owed = [] → exec (.commandReadFailed t none cause) s = .next (complete
        ⟨0, 0, 0xFFFFFFFF, 0, 0, 0, 0, zeros 32, u.host.cmdCons⟩ 12 (dmaCode cause) { u with host.cmdCons := u.host.cmdCons + 1 }))) ∧
    (u.host.deferred = [x] → x.ended = some (status, info) → exec (.deferredCompletion t x.desc.index) s =
      .next (complete x.desc status info { u with host.deferred := [] }))

/-- When it is its turn on its DMA channel an enabled product ring takes the record that waits at its head: header and
    body are written at prod_prod as one job, or first a pad to the end of the ring where the record would cross it; a
    record larger than half the ring, or one with a poisoned word, is dropped. After a trip no record is taken and no
    trailer written. Once they are confirmed and the agreement code is final, the trailer is written behind them; its
    confirmation advances prod_prod past the record by a multiple of 64 B. A failed job is sent again whole; the fourth
    failure of a job that carries completions posts dma-error. Completes, for every state and operands that meet the
    premises: outletTakeRecord, trailerWrite, writeJobReadback. (R388; R390; R392; R393; R397; R398; R401; R402; R447;
    15_host_interface.md) -/
def Obligations.RecordsLeaveWholeOrAreResent : Prop :=
  ∀ (t : Tick) (r : Fin 64) (id job : Nat) (x : Staged) (a : Active) (j : WriteJob) (agree : Nat) (bad : Bool) (cause : DmaCause) (c : BitVec 32)
      (ecc : List Ecc) (s : State), let u := s.advance t; let o := Outlet.ring r; let y := outletOf u o
    let seen := regionSeen u 2 0 (x.size / 32) ecc; let v := eccRead 4 2 seen u; let z := outletOf v o; let n := Tab.getD z.failed (id + 1) 0
    let room := ringSize v (r.val + 3) - prodOf v r.val % ringSize v (r.val + 3)
    (u.mgmt.trip = true → exec (.outletTakeRecord t o ecc) s = .next u ∧ exec (.trailerWrite t o) s = .next u) ∧
    (u.emits = true → u.host.running = true → u.mgmt.trip = false → ringEn u (r.val + 3) = true →
    (dmaOpen u (r.val + 3) = true → y.active = none → y.loss = none → y.pinned = none → y.queue = [id] → Tab.get u.host.staged id = some x →
      (ringSize u (r.val + 3) / 2 < x.length → exec (.outletTakeRecord t o ecc) s = .next (dropTaken o id 1 v)) ∧
      (x.length ≤ ringSize u (r.val + 3) / 2 → poisonedIn seen = true → exec (.outletTakeRecord t o ecc) s = .next (dropTaken o id 2 v)) ∧
      (x.length ≤ ringSize u (r.val + 3) / 2 → poisonedIn seen = false → Tab.get v.host.staged id = some x →
        (x.length ≤ room → ringFree v r.val (stride x.length) = true → exec (.outletTakeRecord t o ecc) s =
          .next (startJob (.body o) [⟨ringAddr v (r.val + 3) (prodOf v r.val), x.bytes⟩] []
            (setOutlet o { z with
                queue := z.queue.filter (fun i => i ≠ id), pinned := none, failed := Tab.del z.failed (id + 1)
                active := some ⟨.record id, .body, x.bytes, prodOf v r.val, n, decide (0 < n), 0⟩ }
              (dmaServe (r.val + 3) x.bytes.length v)))) ∧
        (room < x.length → ringFree v r.val (room + stride x.length) = true → exec (.outletTakeRecord t o ecc) s =
          .next (startJob (.body o) [⟨ringAddr v (r.val + 3) (prodOf v r.val), padBytes v x.binding room⟩] []
            (setOutlet o { z with active := some ⟨.pad, .body, padBytes v x.binding room, prodOf v r.val, 0, false, 0⟩, pinned := some id }
              (dmaSpend (r.val + 3) (padBytes v x.binding room).length v)))))) ∧
    (dmaReady u (ringChannel u (r.val + 3)) = true → y.active = some a → a.phase = .bodyConfirmed → trailerCodes u a.what = some (agree, bad) → exec (.trailerWrite t o) s =
      .next (startJob (.trailer o) [⟨ringAddr u (r.val + 3) (a.offset + a.bytes.length), trailer a.bytes agree bad a.resent⟩] []
        (setOutlet o { y with active := some { a with phase := .trailer, agree := agree } } (dmaSpend (r.val + 3) 32 u)))) ∧
    (Tab.get u.host.jobs job = some j → j.items = [] → y.active = some a → a.what = .record id →
      (j.kind = .body o → exec (.writeJobReadback t job none) s = .next (setOutlet o { y with active := some { a with phase := .bodyConfirmed } }
        { u with host.jobs := Tab.del u.host.jobs job })) ∧
      (j.kind = .trailer o → ∃ v, exec (.writeJobReadback t job none) s = .next v ∧
        vget v.host.prodProd r.val 0 = BitVec.ofNat 64 (prodOf u r.val + 64 * ceilDiv (a.bytes.length + 32) 64) ∧ (outletOf v o).active = none)) ∧
    (Tab.get u.host.jobs job = some j → j.kind = .completions c →
      (j.fails % 4 ≠ 3 → exec (.writeJobReadback t job (some cause)) s = .next (hostWrite j.writes { u with
        host.jobs := Tab.put (Tab.del u.host.jobs job) job { j with fails := j.fails + 1 }
        host.aer := u.host.aer ||| aerBit cause })) ∧
      (j.fails % 4 = 3 → exec (.writeJobReadback t job (some cause)) s = .next (dmaError 1 cause (2 ^ 64 - 1) (hostWrite j.writes { u with
        host.jobs := Tab.put (Tab.del u.host.jobs job) job { j with fails := j.fails + 1 }
        host.aer := u.host.aer ||| aerBit cause })))))

/-- After 10 ms without a rewrite the status block is written. A vector whose first item has waited TIME µs fires while
    the link runs. A read of a source ring whose turn it is stores the samples that src_prod shows; a failed read stores
    none and passes the turn on. When the link goes, polling stops, registers and ring indices stay, and generation and
    width read 0; when a link of 8 GT/s or faster trains with Bus Master Enable while EN is set and R371 does not hold it,
    polling runs again. Completes, for every state and operands that meet the premises: statusBlockRefresh,
    msixTimerExpiry, sourceRingRead, hostLinkLoss, pcieLinkTrained. (R369; R371; R374; R396; R397; R398; R404;
    15_host_interface.md) -/
def Obligations.HostLinkAndItsUpkeep : Prop :=
  ∀ (t : Tick) (m : Fin 64) (r : Fin 32) (b : Bytes) (a : Nat) (cause : LinkLoss) (gen : Fin 6) (link : PciLink) (s : State), let u := s.advance t
    let k := srcRingOf u r.val; let avail := (vget u.host.db.srcProd r.val 0).toNat - (k.base + k.read); let n := min (min b.length 4096) avail / 2
    (u.host.running = true → 10 * tickHz ≤ (u.now - u.host.sbAt) * 1000 → exec (.statusBlockRefresh t) s =
      .next (publish .status [] [] (noteActs u))) ∧
    (u.host.running = true → (vget u.host.msix m.val ⟨0, none, 0⟩).since = some a → msixTime u m.val ≠ 0 → msixTime u m.val * tickHz ≤ (u.now - a) * 1000000 →
      exec (.msixTimerExpiry t m) s = .next (msixFire m.val u)) ∧
    (u.host.running = true → dmaOpen u (r.val + 67) = true → n ≠ 0 → Tab.get u.host.srcSeen r.val = none →
      exec (.sourceRingRead t r (some b)) s = .next (let w := dmaServe (r.val + 67) (2 * n) u; srcTrim r.val { w with
        host.src := vset u.host.src r.val { k with
          read := k.read + 2 * n
          samples := (List.range n).foldl (fun (c : Tab Int) i => Tab.put c (k.read / 2 + i) (fieldS b (2 * i) 2)) k.samples }
        host.srcSeen := if avail < 2 * n + 2 then Tab.del u.host.srcSeen r.val else u.host.srcSeen })) ∧
    (u.host.running = true → dmaOpen u (r.val + 67) = true → exec (.sourceRingRead t r none) s = .next (dmaServe (r.val + 67) 0 u)) ∧
    (dmaOpen u (r.val + 67) = false → exec (.sourceRingRead t r none) s = .next u) ∧
    (∃ v, exec (.hostLinkLoss t cause) s = .next v ∧ v.host.perstSeen = true ∧ v.host.running = false ∧ v.host.ctl = u.host.ctl ∧
      v.host.ringCfg = u.host.ringCfg ∧ v.host.cmdCons = u.host.cmdCons ∧ v.host.cplProd = u.host.cplProd ∧ v.host.evtProd = u.host.evtProd ∧
      v.host.prodProd = u.host.prodProd ∧ v.host.owed = u.host.owed ∧ (cause ≠ .busMasterCleared → v.host.gen = 0 ∧ v.host.width = 0) ∧
      SameOutsideHost u v) ∧
    (rbit u.host.ctl 0 = true → u.host.stopped = false → link.cfg.busMaster = true → 3 ≤ gen.val →
      ∃ v, exec (.pcieLinkTrained t gen link) s = .next v ∧ v.host.running = true ∧ v.host.gen = gen.val ∧
      v.host.width = link.width.toNat ∧ v.host.slow = false ∧ v.host.pci = link.cfg)

/-- An element table change that passes its checks and those of R511 is entered and accepted: entries of elements in no
    started group change at once, and a command whose effect comes later disturbs the recoveries that are open at that
    instant and not now (R458). A group descriptor acts at once for a group that is not started and waits for its
    activation in a started one (at the earliest the first block not conditioned, log entry 97). A group start is accepted
    at its origin, which the started group holds; a group stop is accepted at the instant of its stop. A failed check
    refuses the command and changes nothing else. Completes, for every state and operands that meet the premises:
    elementTableChange, groupDescriptor, groupStart, groupStop. (R35; R37; R39; R458; R510; R511; R514;
    02_conditioning.md; assumption log entry 97) -/
def Obligations.ElementsAndGroupsChangeByCommand : Prop :=
  ∀ (t : Tick) (d : Desc) (data : Bytes) (c : Nat × Nat) (r : GroupRun) (s : State), let u := s.advance t
    let b := dataOf d data; let items := changeItems b (fieldU b 0 4); let p := splitChange (par d 32 8) items u; let g := par d 32 1
    let pend := p.2.map (clampPend u); let x := clampPend u ⟨par d 40 8, .group g (parseGroup b)⟩
    (elementTableChangeChk d data u = none → changeChk u [p.1] (withPends u pend) = none →
      let w := afterCheck (digestItems b (fieldU b 0 4) items (itemTime u pend) (enterChange p.1 pend u))
      (p.2 = [] → exec (.elementTableChange t d data) s = .next (accept d w)) ∧
      (p.2 ≠ [] → p.1 = .elems [] → exec (.elementTableChange t d data) s = .next (complete d 0 0 w)) ∧
      (∀ y l, p.2 ≠ [] → p.1 = .elems (y :: l) → exec (.elementTableChange t d data) s = .next (complete d 0 0 (disturb w))) ∧
      (p.2 = [] → (enterChange p.1 pend u).cond.elems = putElems u.cond.elems items ∧ (enterChange p.1 pend u).cond.pending = u.cond.pending)) ∧
    (elementTableChangeChk d data u = some c → exec (.elementTableChange t d data) s = .next (refuse d c u)) ∧
    (firstFail [descChk d [(32, 1), (40, 8)], sizeChk d 64, groupChk b, imagesChk u (parseGroup b)] = none →
      (Tab.has u.cond.started g = false → changeChk u [.group g (parseGroup b)] u.cond.pending = none →
        exec (.groupDescriptor t d data) s = .next (accept d (afterCheck (cfgPut 15 g b { u with
          cond.groups := Tab.put u.cond.groups g (parseGroup b) })))) ∧
      (Tab.has u.cond.started g = true → changeChk u [] (withPends u [x]) = none →
        exec (.groupDescriptor t d data) s = .next (complete d 0 0
          (cfgPutAt (x.instant u) 15 g b (fitRings { u with cond.pending := withPends u [x] }))))) ∧
    (firstFail [descChk d [(32, 1), (40, 8)], sizeChk d 64, groupChk b, imagesChk u (parseGroup b)] = some c →
      exec (.groupDescriptor t d data) s = .next (refuse d c u)) ∧
    (descChk d [(32, 1), (40, 8)] = none →
      (Tab.has u.cond.groups g = true → Tab.has u.cond.started g = false → originClash u g (par d 40 8) = false →
        exec (.groupStart t d data) s = .next (acceptAt (par d 40 8) d (startGroup g (par d 40 8) u)) ∧
        Tab.get (startGroup g (par d 40 8) u).cond.started g = some ⟨par d 40 8, none⟩) ∧
      (Tab.has u.cond.groups g = false → exec (.groupStart t d data) s = .next (refuse d (7, g) u)) ∧
      (Tab.get u.cond.started g = some r → r.stopAt = none → exec (.groupStop t d data) s =
        .next (acceptAt (stopTime u g (par d 40 8)) d (stopGroup g (par d 40 8) u))))

/-- For every state and every element table change, whatever its bytes: when, after the part that acts at once, two
    different elements are enabled to receive and carry the same stream and channel, the command completes with an error
    status, and nothing else happens. (R36) -/
def Obligations.SharedStreamChannelIsRefused : Prop :=
  ∀ (t : Tick) (d : Desc) (data : Bytes) (s : State), let u := s.advance t
    let b := dataOf d data; let v := (splitChange (par d 32 8) (changeItems b (fieldU b 0 4)) u).1.apply u.view
    ∀ (i j : Nat) (x y : Nat × ElemEntry), i < j → v.elems[i]? = some x → v.elems[j]? = some y → x.2.rx = true → y.2.rx = true →
      x.2.stream = y.2.stream → x.2.channel = y.2.channel →
      ∃ c : Nat × Nat, c.1 ≠ 0 ∧ exec (.elementTableChange t d data) s = .next (refuse d c u)

/-- For every state and every sample of a good ingest frame that finds its element running, its block unreleased and in
    time, and its slot already holding a sample of the same index: the slot keeps the first copy, the element's duplicate
    count rises by one, its conflict count by one exactly when the two values differ, and no other count and no other
    element changes. (R45) -/
def Obligations.DuplicateSamplesAreDiscarded : Prop :=
  ∀ (q stream channel n e : Nat) (v w : Int) (x x' : ElemEntry) (g : GroupDesc) (r : ElemRun) (s : State),
    (viewAt s (n / 64)).elems.find? (fun p => p.2.rx && decide (p.2.stream = stream ∧ p.2.channel = channel)) = some (e, x) →
    activeAt s e (n / 64) = some (x', g) → Tab.get s.cond.run e = some r → r.next ≤ n / 64 →
    deadlineDue (originAt s e (n / 64) r).tOrg g (n / 64) s.tw true = false → Tab.get r.slots (n % max 1 r.size) = some (n, w) →
    let u := takeSample q stream channel n v s
    Tab.get u.cond.run e = some (originAt s e (n / 64) r) ∧
    cntOf u e = { cntOf s e with dup := (cntOf s e).dup + 1, conflict := (cntOf s e).conflict + (if v = w then 0 else 1) } ∧
    (∀ k, k ≠ e → Tab.get u.cond.run k = Tab.get s.cond.run k ∧ cntOf u k = cntOf s k) ∧
    { u with cond.run := s.cond.run, cond.cnt := s.cond.cnt, cond.onQuad := s.cond.onQuad } = s

/-- A good ingest frame on a quad of role 1 that is up places every sample at its stream, channel and index, in either
    order; a damaged one is counted and notes a link cause. A block whose samples are all present, or whose deadline has
    come, is released; an afterimage write that its port has not placed within 100 µs is given up: it becomes a hole, and
    what it would have replaced stays. A gap at release has value 0 and the highest cause noted; a present sample keeps
    its value. Completes, for every state and operands that meet the premises: ingestFrame, blockRelease,
    afterimageWriteTimeout. (R30; R42; R43; R47; R313; R316; R348; 02_conditioning.md) -/
def Obligations.IngestPlacesSamplesAndReleasesBlocks : Prop :=
  ∀ (t : Tick) (q : Fin 16) (f : RawFrame) (e : Fin 16384) (block b : Nat) (r : ElemRun) (x : ElemEntry) (g : GroupDesc) (s : State), let u := s.advance t
    let nch := fieldU f.data 4 2; let ns := fieldU f.data 6 2; let r0 := originAt u e.val b r
    (quadHas u q.val 1 = true → (quadOf u q.val).up = true →
      (ingestOk f = true → exec (.ingestFrame t q f) s = .next ((List.range (nch * ns)).foldl (fun v i =>
        takeSample q.val (fieldU f.data 0 2) (fieldU f.data 2 2 + (if fieldU f.data 16 1 = 1 then i % nch else i / ns))
          (fieldU f.data 8 8 + (if fieldU f.data 16 1 = 1 then i / nch else i % ns)) (packed12 f.data 24 i) v) (frameTaken q.val u))) ∧
      (f.damaged = true → exec (.ingestFrame t q f) s = .next (noteLink q.val (setQuad q.val { quadOf u q.val with
        crcErr := bump 32 (quadOf u q.val).crcErr 1 } u)))) ∧
    (Tab.get u.cond.run e.val = some r → oldestBlock u e.val r = some b → activeAt u e.val b = some (x, g) →
      (deadlineDue r0.tOrg g b u.tw false = true ∨ ∀ i < 64, ∃ v, Tab.get r.slots ((64 * b + i) % max 1 r.size) = some (64 * b + i, v)) →
      exec (.blockRelease t e) s = .next (finishStops (settle (releaseBlock e.val b r0 u)))) ∧
    (∃ r' vals, Tab.get (releaseBlock e.val b r u).cond.run e.val = some r' ∧ r'.next = b + 1 ∧ r'.ready = r.ready ++ [⟨b, u.now, vals⟩] ∧
      ∀ i < 64, vals[i]? = some (match Tab.get r.slots ((64 * b + i) % max 1 r.size) with
        | some (n, v) => if n = 64 * b + i then (v, 0) else (0, topCause (Tab.getD r.causes b 0))
        | none => (0, topCause (Tab.getD r.causes b 0)))) ∧
    (let v := afterLanded u
     ∀ w, Tab.get v.cond.afterWait (afterKey e.val block) = some w → 100 * tickHz ≤ (u.now - w.at_) * 1000000 →
      ∃ z, exec (.afterimageWriteTimeout t e block) s =
        .next (gapEnter ⟨64 * block, 64, e.val, 6, false⟩ (modCnt e.val (fun c => { c with holes := c.holes + 1 }) z)) ∧
        z.cond.after = v.cond.after ∧ z.cond.afterWait = Tab.del v.cond.afterWait (afterKey e.val block) ∧
        (∀ r ∈ (pcQueue z (pcOf w.addr)).cmd ++ (pcQueue z (pcOf w.addr)).waiting, ¬ (r.port = 2 ∧ r.addr = w.addr ∧ r.at_ = w.at_)) ∧
        { z with cond.afterWait := v.cond.afterWait, hbm.queues := v.hbm.queues } = v)

/-- For every chain state, descriptor, element entry and block of samples, every output of the chain lies in s16, and the
    counts of saturations never exceed the samples and outputs. A slice of an engine that has a released block takes the
    earliest released one of its elements through the chain, unless that block would restart a filterbank which has still
    to form a frame (log entry 61). Completes, for every state and operands that meet the premises: conditioningSlice.
    (R34; R52; R53; R61; R65; 02_conditioning.md; assumption log entry 61) -/
def Obligations.ConditioningOutputsFitTheirWords : Prop :=
  (∀ (g : GroupDesc) (x : ElemEntry) (c : Chain) (b : Nat) (vals : List (Int × Nat)), let o := chainBlock g x c b vals
    (∀ p ∈ o.outs, -32768 ≤ p.2.v ∧ p.2.v ≤ 32767) ∧ o.front ≤ vals.length ∧ o.sat ≤ o.outs.length ∧ o.outs.length ≤ vals.length) ∧
  ∀ (t : Tick) (engine : Fin 32) (accepts : Bool) (e : Nat) (s : State), let u := s.advance t
    u.mgmt.trip = false → nextSlice u engine.val = some e →
      (bankWaits u e = false → exec (.conditioningSlice t engine accepts) s = .next (sliceBlock e accepts u)) ∧
      (bankWaits u e = true → exec (.conditioningSlice t engine accepts) s = .next u)

/-- A prototype image that passes its checks is stored with its coefficients, a gain table with its complex gains, and a
    plan version joins its plan in order of activation, the first version opening the plan's statistics; its digest is
    exchanged anew on every link, and it enters the configuration digest at its activation. An image that fails a check is
    refused with that check's status, and nothing else changes. Completes, for every state and operands that meet the
    premises: prototypeLoad, gainTableLoad, planLoad. (R74; R75; R76; R83; R84; R87; 03_channeliser.md) -/
def Obligations.ChanneliserImagesAreLoaded : Prop :=
  ∀ (t : Tick) (d : Desc) (data : Bytes) (c : Nat × Nat) (s : State), let u := s.advance t; let b := dataOf d data; let id := fieldU b 0 2
    let at_ := (planStamp (parsePlan b) (parsePlan b).activate).toNat
    (prototypeLoadChk d data u = none → exec (.prototypeLoad t d data) s = .next (accept d (cfgPut 0 id b { u with
      chan.protos := Tab.put u.chan.protos id ⟨fieldU b 2 1, fieldU b 3 1,
        (List.range (2 ^ fieldU b 2 1 * fieldU b 3 1)).map (fun i => fieldS b (16 + 4 * i) 4)⟩ }))) ∧
    (prototypeLoadChk d data u = some c → exec (.prototypeLoad t d data) s = .next (refuse d c u)) ∧
    (gainTableLoadChk d data u = none → exec (.gainTableLoad t d data) s = .next (accept d (cfgPut 1 id b { u with
      chan.gains := Tab.put u.chan.gains id
        ((List.range (fieldU b 2 2)).map (fun i => (fieldS b (16 + 4 * i) 2, fieldS b (18 + 4 * i) 2))) }))) ∧
    (gainTableLoadChk d data u = some c → exec (.gainTableLoad t d data) s = .next (refuse d c u)) ∧
    (planLoadChk d data u = none → planVersions u (fieldU b 0 1) ≠ [] → exec (.planLoad t d data) s = .next (complete d 0 0 (cfgPutAt at_ 2 (fieldU b 0 1) b
      { u with
        chan.plans := Tab.put u.chan.plans (fieldU b 0 1) (addVersion (parsePlan b) (planVersions u (fieldU b 0 1)))
        chan.digestSent := u.chan.digestSent.filter (fun x => !(decide (x.1 = fieldU b 0 1) && decide (x.2.1 = (parsePlan b).version))) }))) ∧
    (planLoadChk d data u = none → planVersions u (fieldU b 0 1) = [] → exec (.planLoad t d data) s = .next (complete d 0 0 (cfgPutAt at_ 2 (fieldU b 0 1) b
      { u with chan.plans := Tab.put u.chan.plans (fieldU b 0 1) [parsePlan b]
               chan.digestSent := u.chan.digestSent.filter (fun x => !(decide (x.1 = fieldU b 0 1) && decide (x.2.1 = (parsePlan b).version)))
               corr.stats := Tab.put u.corr.stats (fieldU b 0 1) ⟨(parsePlan b).activate, [], [], []⟩ }))) ∧
    (planLoadChk d data u = some c → exec (.planLoad t d data) s = .next (refuse d c u))

/-- When the inputs of an element's next frame are present and no buffer holds it back, the frame is formed. A batch that
    every local element has formed takes its turn: it is sent to its destination, or its contribution is dropped when the
    destination cannot be reached, has no room or has been lost to a late notice. Good batch and digest frames for this
    device are delivered, and the digests of the plan are exchanged over their link; a digest that differs marks the
    neighbour and is counted and posted. A statistics span whose samples are all formed becomes a record. Completes, for
    every state and operands that meet the premises: channeliserFrame, cornerTurnSend, batchFrame, planDigestFrame,
    sourceStatsRecord. (R78; R80; R86; R89; R91; R93; R142; R323; R324; 03_channeliser.md; 13_link_frames.md) -/
def Obligations.ChannelSamplesAreFormedAndDelivered : Prop :=
  ∀ (t : Tick) (e : Fin 16384) (r : ElemRun) (g : GroupDesc) (plan q : Fin 16) (j : Nat) (dest : BitVec 10) (room : Bool) (p : Plan) (dv : PlanDev)
      (f : RawFrame) (st : SrcStats) (s : State), let u := s.advance t
    (let blk := g.ratio * Nat.max ((r.frame + 1) * g.hop - g.len) r.fbStart / 64
     let gd := (descAt u e.val blk).getD g
     Tab.get u.cond.run e.val = some r → descAt u e.val (r.condNext - 1) = some g → g.channelised = true → (r.frame + 1) * g.hop ≤ r.fbNext →
      mustHold u gd.plan r.frame = false →
      exec (.channeliserFrame t e) s = .next (settle (formFrame e.val r g gd (elemAt u e.val blk) u))) ∧
    (let sd := Tab.getD u.chan.send (pchanKey plan.val j) SendState.empty
     let at_ := sendPos u plan.val j dest.toNat sd; let i := keyStroke at_.1; let x := Tab.getD sd.forming at_.1 StrokeBuf.empty
     let sd' := { sd with pos := Tab.put sd.pos dest.toNat (afterBatch u plan.val j p i at_.2) }
     planVer u plan.val (keyVersion at_.1) = some p → ownEntry u p = some dv → sendsChan u j dest.toNat p = true →
      batchReady dv x at_.2 = true → sendTurn u plan.val j dest.toNat (planStamp p (p.stroke j * i + 64 * at_.2)) = true →
      u.isShadow = false → u.emits = true → Tab.get sd.dropping dest.toNat ≠ some at_.1 →
      (unreachable u plan.val dest.toNat = false → Tab.get sd.cut dest.toNat ≠ some at_.1 → 64 * (at_.2 + 1) < p.stroke j →
        exec (.cornerTurnSend t plan j dest true) s =
          .next (sendBatch plan.val j dest.toNat p dv i at_.2 x (putSend plan.val j sd' u))) ∧
      (unreachable u plan.val dest.toNat = true ∨ room = false ∨ Tab.get sd.cut dest.toNat = some at_.1 →
        exec (.cornerTurnSend t plan j dest room) s = .next (dropContribution plan.val j dest.toNat
          (putSend plan.val j { sd' with dropping := Tab.put sd.dropping dest.toNat at_.1 } u)))) ∧
    (quadHas u q.val 4 = true → (quadOf u q.val).up = true → meshFits f = true → f.spoilt = false →
      fieldU f.data 0 2 = (quadOf u q.val).expect → fieldU f.data 2 2 = routeChip u → routeChip u < xdim u * ydim u →
      let w := frameTaken q.val (linkReceive q.val true (fieldU f.data 0 2) u).2
      (f.kind.toNat = 0 → exec (.batchFrame t q f) s =
        .next (noteTraffic q.val f (returnCredit q.val (fieldU f.data 6 1 % 2) f.n.toNat (takeBatch f w)))) ∧
      (f.kind.toNat = 1 → exec (.planDigestFrame t q f) s =
        .next (noteTraffic q.val f (returnCredit q.val (fieldU f.data 6 1 % 2) f.n.toNat (takeDigest q.val f w))))) ∧
    (∀ port, quadPort u q.val = some port → planNum u (fieldU f.data 16 1) (fieldU f.data 20 4) = some p → fieldU f.data 24 4 ≠ p.digest.toNat →
      let x := (fieldU f.data 16 1, peerOf u port)
      takeDigest q.val f u = postEvent 0x32 q.val (le 1 (fieldU f.data 16 1) ++ zeros 3 ++ le 4 (fieldU f.data 20 4))
        (chanCount 9 (fieldU f.data 16 1) port { u with chan.mismatch := u.chan.mismatch.filter (fun y => decide (y ≠ x)) ++ [x] })) ∧
    (let stop := statEnd u plan.val st.first
     Tab.get u.corr.stats plan.val = some st → planAt u plan.val st.first = some p → statDue u st p stop = true →
      exec (.sourceStatsRecord t plan) s = .next (formRecord ⟨1, plan.val, 0x0011, statsBody u plan.val p st stop, 0xFFFF,
        (planStamp p st.first).toNat, (planStamp p (stop - 1)).toNat, false⟩ { u with corr.stats := Tab.put u.corr.stats plan.val { st with
          first := stop, chans := st.chans.filter (fun q => decide (stop ≤ q.1 / 65536))
          elems := st.elems.filter (fun q => decide (stop ≤ q.1 / 65536)) } }))

/-- A schedule image that passes every check takes over from the one before it, and enters the configuration digest at its
    takeover; a beam set is stored and its spread block owed as the command's result; taper values and 12-bit complex
    weights are stored; a set switch is entered for its pool and stroke. An image or switch that fails a check is refused
    with that check's status, and nothing else changes. Completes, for every state and operands that meet the premises:
    scheduleLoad, beamSetLoad, taperTableLoad, weightTableLoad, beamSetSwitch. (R107; R111; R151; R152; R153; R154; R155;
    04_correlation_engines.md; 06_beamforming.md) -/
def Obligations.ScheduleAndBeamImagesAreLoaded : Prop :=
  ∀ (t : Tick) (d : Desc) (data : Bytes) (c : Nat × Nat) (p : Plan) (r : SchedRun) (q : Pool) (s : State), let u := s.advance t; let b := dataOf d data
    (schedChk d b u = none → exec (.scheduleLoad t d data) s = .next (complete d 0 0
      (loadSched (parseSched b) (cfgPutAt (schedTime u (parseSched b)) 3 (fieldU b 0 2) b u)))) ∧
    (schedChk d b u = some c → exec (.scheduleLoad t d data) s = .next (refuse d c u)) ∧
    (beamSetLoadChk d data u = none → planAt u (parseBeamSet b).plan (2 ^ 64) = some p → exec (.beamSetLoad t d data) s =
      .next (completeWith d 0 0 (some (spreadBlock u (parseBeamSet b) p)) (disturb (cfgPut 4 (fieldU b 0 1) b
        { u with corr.bsets := Tab.put u.corr.bsets (fieldU b 0 1) (parseBeamSet b) })))) ∧
    (beamSetLoadChk d data u = some c → exec (.beamSetLoad t d data) s = .next (refuse d c u)) ∧
    (taperTableLoadChk d data u = none → exec (.taperTableLoad t d data) s = .next (accept d (cfgPut 5 (fieldU b 0 2) b { u with
      corr.tapers := Tab.put u.corr.tapers (fieldU b 0 2) ((List.range (fieldU b 4 4)).map (fun i => fieldU b (16 + 2 * i) 2)) }))) ∧
    (taperTableLoadChk d data u = some c → exec (.taperTableLoad t d data) s = .next (refuse d c u)) ∧
    (weightTableLoadChk d data u = none → exec (.weightTableLoad t d data) s = .next (accept d
      (hbmRequest 4 .outside (placeOf u 3 (tableWord 6 (fieldU b 0 2))) <| cfgPut 6 (fieldU b 0 2) b { u with
      corr.weights := Tab.put u.corr.weights (fieldU b 0 2) ⟨fieldU b 2 1, fieldU b 4 2, fieldU b 8 4,
        (List.range (fieldU b 4 2 * fieldU b 8 4)).map (fun i =>
          (toS 12 (fieldU b (16 + 3 * i) 3 % 4096), toS 12 (fieldU b (16 + 3 * i) 3 / 4096)))⟩ }))) ∧
    (weightTableLoadChk d data u = some c → exec (.weightTableLoad t d data) s = .next (refuse d c u)) ∧
    (descChk d [(32, 2), (40, 8)] = none → switchPool d u = some (r, q) →
      (switchChk d u q = none → exec (.beamSetSwitch t d data) s = .next (acceptAt (strokeStart u q (par d 40 8)).toNat d (setSched { r with
        bsets := Tab.put r.bsets (par d 32 1) (putSwitch (par d 40 8) (par d 33 1) (Tab.getD r.bsets (par d 32 1) [])) } u))) ∧
      (switchChk d u q = some c → exec (.beamSetSwitch t d data) s = .next (refuse d c u))) ∧
    (descChk d [(32, 2), (40, 8)] = none → switchPool d u = none → exec (.beamSetSwitch t d data) s = .next (refuse d (3, 32) u))

/-- Shed sheds and restore restores every entry of the product at its effect point T: the instant of the command on a
    standalone device, 10 ms ahead at the lit member of a pair; at a shadow that has no EFFECT yet it waits. A product
    without entries is NOT_FOUND. An engine fence is deferred; it completes at once with info 1 for a failed engine, and
    otherwise fences the engine when its effect point has come, or waits for it. An engine that has handed nothing off for
    longer than 100 µs and 4 times its slot is fenced with cause 2, one whose buffer fails with cause 3; after the check
    job the engine is released, or failed. A snapshot ends a window without length. Completes, for every state and
    operands that meet the premises: shed, restore, engineFence, engineStallTimeout, engineBufferError, fenceCheckDone,
    monitorSnapshot. (R116; R119; R420; R421; R422; R423; R426; R442; 16_management.md) -/
def Obligations.SheddingAndFencingAct : Prop :=
  ∀ (t : Tick) (d : Desc) (data : Bytes) (e : Fin 256) (g : Running) (f : Fence) (s : State), let u := s.advance t; let x := engOf u e.val
    (u.twinEn = false → takeT d data u = (some u.tw, u)) ∧
    (descChk d [(32, 2)] = none → productEntries u (par d 32 2) ≠ [] → ∀ v,
      (∀ T, takeT d data u = (some T, v) → exec (.shed t d data) s = .next (acceptTimed d (shedProduct (par d 32 2) T v)) ∧
        (preshedBy u (productEntries u (par d 32 2)) = none →
          exec (.restore t d data) s = .next (acceptTimed d (restoreProduct (par d 32 2) T v)))) ∧
      (takeT d data u = (none, v) → exec (.shed t d data) s = .next (acceptTimed d v) ∧
        (preshedBy u (productEntries u (par d 32 2)) = none → exec (.restore t d data) s = .next (acceptTimed d v)))) ∧
    (descChk d [(32, 2)] = none → productEntries u (par d 32 2) = [] → exec (.shed t d data) s = .next (refuse d (7, par d 32 2) u) ∧
      exec (.restore t d data) s = .next (refuse d (7, par d 32 2) u)) ∧
    (descChk d [(32, 1)] = none → let v := if u.twinEn then u else disturb u
      let w : State := { v with host.deferred := v.host.deferred ++ [⟨d, .fence (par d 32 1), none⟩] }
      ((engOf w (par d 32 1)).failed = true → exec (.engineFence t d data) s = .next (endWork (.fence (par d 32 1)) 0 1 w)) ∧
      ((engOf w (par d 32 1)).failed = false → ∀ T z, takeT d data w = (some T, z) →
        (z.twinEn = false → fenceNow z (par d 32 1) T = true → exec (.engineFence t d data) s = .next (hostFence (par d 32 1) z)) ∧
        (z.twinEn = true ∨ fenceNow z (par d 32 1) T = false → exec (.engineFence t d data) s =
          .next { z with twin.timed := z.twin.timed ++ [⟨d, data, some T⟩] }))) ∧
    (∀ r q p, x.run = some g → schedOf u g.gen = some r → r.pool? g.pool = some q → poolPlan u q g.stroke = some p → x.out = none →
      100 * tickHz < (u.now - g.startAt) * 1000000 → 8 * q.handshakes p g.job * tickHz < (u.now - g.startAt) * 1000000000 →
      exec (.engineStallTimeout t e) s = .next (fenceEngine e.val 2 u)) ∧
    exec (.engineBufferError t e) s = .next (fenceEngine e.val 3 u) ∧
    (x.fence = some f → exec (.fenceCheckDone t e false true) s = .next (markFailed e.val 1 u) ∧
      exec (.fenceCheckDone t e true false) s = .next (markFailed e.val 2 u) ∧
      (u.corr.reruns.any (fun y => decide (y.1 = e.val)) = true → ∃ v, exec (.fenceCheckDone t e true true) s = .next v ∧
        v.corr.eng = vset u.corr.eng e.val { x with fence := none } ∧ v.corr.reruns = u.corr.reruns)) ∧
    (descChk d [(32, 1)] = none → par d 32 1 < 16 → (winOf u (par d 32 1)).acc.isSome = true → fld (winOf u (par d 32 1)).len 0 16 = 0 →
      exec (.monitorSnapshot t d data) s = .next (accept d (startWindow (par d 32 1) (snapshot (par d 32 1) true u))))

/-- A stroke whose contributions are complete, or whose latest instant has come, is released. An idle engine starts the
    slot that is due first and not shed, reading its inputs. A hand-off with the expected epoch goes to a free output
    stage; one with another epoch is discarded, counted as stale, and fences the engine. The next slot of an unserved
    engine is declared at its deadline, a shed one when its stroke has been released. Completes, for every state and
    operands that meet the premises: strokeRelease, engineSlotStart, engineHandoff, slotUnserved. (R94; R99; R105; R115;
    R145; R420; R421; 04_correlation_engines.md) -/
def Obligations.EnginesRunTheirSlotsInOrder : Prop :=
  ∀ (t : Tick) (plan : Fin 16) (j : Nat) (p : Plan) (e : Fin 256) (ecc : List Ecc) (carried : BitVec 32) (c : Cand) (r : SchedRun) (q : Pool)
      (g : Running) (y : EntryRun) (s : State), let u := s.advance t; let x := engOf u e.val
    (releasable u plan.val j = some p → exec (.strokeRelease t plan j) s = .next (afterSlot
      (declareUncovered plan.val j (pchanOf u plan.val j).next (releaseStrokeOf plan.val j p u)))) ∧
    (u.mgmt.trip = false → x.failed = false → x.fence = none → x.run = none → nextSlot u e.val = some c → c.shedBy u = none →
      schedOf u c.gen = some r → r.pool? c.pool = some q → poolPlan u q c.pos.1 = some p →
      exec (.engineSlotStart t e ecc) s = .next (startSlot e.val c q p ecc u)) ∧
    (x.run = some g → x.out = none → u.mgmt.trip = false → schedOf u g.gen = some r → r.pool? g.pool = some q → r.runs[g.run]? = some y →
      (carried.toNat = y.epochAt g.stroke → q.mode = 0 → exec (.engineHandoff t e carried) s =
        .next (setEng e.val { x with run := none, out := some (handOf u e.val carried.toNat g q y) } u)) ∧
      (carried.toNat = y.epochAt g.stroke → q.mode ≠ 0 → poolPlan u q g.stroke = some p → exec (.engineHandoff t e carried) s =
        .next (afterSlot (takeBeam (handOf u e.val carried.toNat g q y) r q p (setEng e.val { x with run := none } u)))) ∧
      (carried.toNat ≠ y.epochAt g.stroke → exec (.engineHandoff t e carried) s =
        .next (fenceEngine e.val 1 (setEng e.val { x with stale := bump 32 x.stale 1 } u)))) ∧
    (firstUnserved u e.val = some c →
      (c.shedBy u = none → c.due ≤ (u.tw : Int) → exec (.slotUnserved t e) s =
        .next (afterSlot (missSlot c.gen c.run c.pool c.job c.pos 1 u))) ∧
      ((c.shedBy u).isSome = true → (c.due ≤ (u.tw : Int) ∨ c.released u = true) → exec (.slotUnserved t e) s =
        .next (afterSlot (missSlot c.gen c.run c.pool c.job c.pos 2 (noteSkip c u)))))

/-- The update that an engine's output stage holds is applied, once no pair is open on its tile (R356), unless its
    position is already done: then it is counted as a duplicate and discarded. The first waiting spill request is answered
    when no earlier one can come. A full segment is read out, once no pair is open on its tiles. The dump with the
    earliest keys is recorded when no earlier one can come, a beam block is rounded when all its sections are there, and a
    stroke's records are emitted in order. Completes, for every state and operands that meet the premises: inkwellUpdate,
    spillGrant, segmentReadoutDone, dumpRecord, beamOutput, beamRecord. (R125; R126; R127; R132; R135; R158; R165; R356;
    05_inkwells.md; 06_beamforming.md) -/
def Obligations.InkwellsAndBeamsAreRecorded : Prop :=
  ∀ (t : Tick) (e : Fin 256) (ecc : List Ecc) (h : Handoff) (r : SchedRun) (q : Pool) (x : EntryRun) (w : Updating) (pool first bank k block : Nat)
      (o : Readout) (p : Plan) (a : BeamAcc) (gen key i : Nat) (bs : List (Nat × Nat × BeamOut)) (s : State), let u := s.advance t
    ((engOf u e.val).out = some h → u.corr.updating = [] → schedOf u h.gen = some r → r.pool? h.pool = some q → r.runs[h.run]? = some x →
      (x.done = none → updateBusy u h r q = false → exec (.inkwellUpdate t e ecc) s = .next (applyUpdate h r q ecc u)) ∧
      (x.done = some (h.stroke, h.slot) → exec (.inkwellUpdate t e ecc) s = .next (setEng e.val { engOf u e.val with
        out := none, dup := bump 32 (engOf u e.val).dup 1 } u))) ∧
    (u.corr.updating = [w] → earlierCan u w = false → 0 < spillFor u w.hand.deadline → u.corr.spillRefused = false →
      schedOf u w.hand.gen = some r → r.pool? w.hand.pool = some q → exec (.spillGrant t) s = .next (runUpdate w.hand
        (tileKey w.hand.gen w.hand.pool (q.bankOf (q.integOf w.hand.stroke)) w.hand.job) w.nib w.comp (some true)
        (setEng w.hand.engine { engOf u w.hand.engine with out := some w.hand } { u with
          corr.spillUsed := u.corr.spillUsed + 1, corr.spillHeld := takeHeld (fun p => decide (p.due u ≤ w.hand.deadline)) u.corr.spillHeld, corr.updating := [] }))) ∧
    (fullSegment u pool first bank = some (r, q) → let seg := segOfJob r pool q first; let a := tileAddr u r pool q bank first
      let l := inkWords u q seg.2 a ecc; let v := inkEcc q 1 seg.2 a l u
      (inkBusy u q seg.2 a = false → exec (.segmentReadoutDone t pool first bank ecc) s = .next (afterSlot
        (advanceSeg r.gen pool bank seg q (readout r.gen pool bank seg l v)))) ∧
      (inkBusy u q seg.2 a = true → exec (.segmentReadoutDone t pool first bank ecc) s = .next u)) ∧
    (leastDump u = some o → earlierDump u o = false → schedOf u o.gen = some r → r.pool? o.pool = some q →
      planAt u q.plan (integFrame q o.integ) = some p → exec (.dumpRecord t) s =
        .next (afterSlot (formRecordBut o.denied o.time o.at_ (dumpSpec u r q p o) (dropReadout o u)))) ∧
    (blockReady u pool k block = some (gen, key) → schedOf u gen = some r → Tab.get u.corr.beamAcc key = some a → r.pool? pool = some q →
      exec (.beamOutput t pool k block) s = .next { u with
        corr.beamAcc := Tab.del u.corr.beamAcc key
        corr.beamOut := Tab.put u.corr.beamOut key (finishBlock q (beamsAt u r pool (key / 2 ^ 32 % 2 ^ 48) block) a u) }) ∧
    (strokeReady u pool = some (r, q, p, i, bs) → ∃ v, exec (.beamRecord t pool) s = .next (resumeFrame (afterSlot (trimGeom v))) ∧
      Tab.get v.corr.beamNext (poolKey r.gen pool) = some (i + 1))

/-- For every job of a pool whose strokes are at most 32,768 frames and whose samples are 12-bit, each of the 1,024 sums
    of a stroke is at most 2^38 in each component. Applying a sum to a component that is not blotted either stops for a
    grant leaving the inkwell as it was, or adds it exactly, the value then lying in the plain range unless an entry is
    held, or blots the component; a blotted one stays blotted, an entry once held is kept, and the other component is
    untouched. (R96; R97; R120; R121; R125; R129; 04_correlation_engines.md; 05_inkwells.md) -/
def Obligations.SumsAreExactAndComponentsOnlyTighten : Prop :=
  (∀ (q : Pool) (p : Plan) (warm job : Nat) (b : StrokeBuf), q.stroke ≤ 32768 →
    (∀ e f, -2048 ≤ (b.sample e f).re ∧ (b.sample e f).re ≤ 2047 ∧ -2048 ≤ (b.sample e f).im ∧ (b.sample e f).im ≤ 2047) →
    ∀ x ∈ xSums q p warm b job, x.1.natAbs ≤ 2 ^ 38 ∧ x.2.natAbs ≤ 2 ^ 38) ∧
  ∀ (c : Nat) (dec : Option Bool) (h : Handoff) (x : Ink) (d : Int) (s : State), let r := applyComp c dec h x d s
    let old := if c = 0 then x.re else x.im; let new := if c = 0 then r.1.re else r.1.im
    (x.spilled = true → r.1.spilled = true) ∧ (if c = 0 then r.1.im = x.im else r.1.re = x.re) ∧
    (r.2.1 = true → r.1 = x) ∧ (old.blot = true → new = old) ∧
    (r.2.1 = false → old.blot = false →
      new = ⟨0, true⟩ ∨ (new.v = old.v + d ∧ new.blot = false ∧ (r.1.spilled = true ∨ (-(2 ^ 47 - 1) ≤ new.v ∧ new.v ≤ 2 ^ 47 - 1))))

/-- A set-up block that passes its checks closes every open event, restarts every detector with sequence 0 and drives the
    pins anew. A beam set is stored, detector parameters wait for their sample index, response entries replace all before
    them, a set switch is entered, and a pin clear lowers the latched pins, at once on a standalone device, in a pair at
    the instant T that the lit member sets 10 ms ahead; a shadow without EFFECT keeps it waiting. What fails a check is
    refused with that check's status, and nothing else changes. Completes, for every state and operands that meet the
    premises: glintConfigure, glintBeamSetLoad, glintDetector, glintArm, glintSetSwitch, glintPinClear. (R168; R171; R174;
    R177; R188; R194; R442; 07_glint_path.md) -/
def Obligations.GlintCommandsAct : Prop :=
  ∀ (t : Tick) (d : Desc) (data : Bytes) (c : Nat × Nat) (s : State), let u := s.advance t; let b := dataOf d data
    (glintConfigureChk d data u = none → exec (.glintConfigure t d data) s =
      .next (accept d (drivePins (cfgPut 21 0 b (glintInstall (parseGlint b) (closeAll u))))) ∧
      ∀ k < 512, (detOf (glintInstall (parseGlint b) (closeAll u)) k).seq = 0 ∧ (detOf (glintInstall (parseGlint b) (closeAll u)) k).ev = none) ∧
    (glintConfigureChk d data u = some c → exec (.glintConfigure t d data) s = .next (refuse d c u)) ∧
    (glintBeamSetLoadChk d data u = none → exec (.glintBeamSetLoad t d data) s = .next (accept d (cfgPut 7 (fieldU b 0 1) b { u with
      glint.sets := Tab.put u.glint.sets (fieldU b 0 1) ((List.range (fieldU b 2 2)).map (fun i => parseGlintBeam b (16 + 32 * i))) }))) ∧
    (glintBeamSetLoadChk d data u = some c → exec (.glintBeamSetLoad t d data) s = .next (refuse d c u)) ∧
    (glintDetectorChk d data u = none → exec (.glintDetector t d data) s = .next (complete d 0 0
      (setBeam (par d 32 2) { beamRunOf u (par d 32 2) with
        pend := insertBy (·.1) (par d 40 8, parseDet b) ((beamRunOf u (par d 32 2)).pend.filter (fun q => q.1 ≠ par d 40 8)) } u))) ∧
    (glintDetectorChk d data u = some c → exec (.glintDetector t d data) s = .next (refuse d c u)) ∧
    (descChk d [(32, 1)] = none → par d 32 1 ≤ 64 → d.len.toNat = 32 * par d 32 1 →
      firstFail ((List.range (par d 32 1)).map (fun i => respChk u b (32 * i))) = none → exec (.glintArm t d data) s =
      .next (accept d (drivePins (cfgPut 23 0 b { u with glint.resp := (List.range (par d 32 1)).map (fun i => parseResp b (32 * i)) })))) ∧
    (descChk d [(32, 1), (40, 8)] = none →
      (Tab.has u.glint.sets (par d 32 1) = true → u.glint.m ≤ par d 40 8 → exec (.glintSetSwitch t d data) s =
        .next (complete d 0 0 { u with glint.switch := some (par d 32 1, par d 40 8) })) ∧
      (Tab.has u.glint.sets (par d 32 1) = false → exec (.glintSetSwitch t d data) s = .next (refuse d (7, par d 32 1) u)) ∧
      (Tab.has u.glint.sets (par d 32 1) = true → par d 40 8 < u.glint.m → exec (.glintSetSwitch t d data) s = .next (refuse d (9, 0) u))) ∧
    (descChk d [(32, 1)] = none → par d 32 1 < 16 →
      (pinsBusy u (par d 32 1) = false → u.twinEn = false → exec (.glintPinClear t d data) s = .next (accept d (drivePins { u with
        glint.latch := u.glint.latch &&& ~~~ (BitVec.ofNat 4 (par d 32 1)) }))) ∧
      (pinsBusy u (par d 32 1) = false → u.twinEn = true → ∀ v,
        (∀ T, takeT d data u = (some T, v) → v.twinEn = true → exec (.glintPinClear t d data) s =
          .next (acceptTimed d { v with twin.timed := v.twin.timed ++ [⟨d, data, some T⟩] })) ∧
        (takeT d data u = (none, v) → exec (.glintPinClear t d data) s = .next (acceptTimed d v))) ∧
      (pinsBusy u (par d 32 1) = true → exec (.glintPinClear t d data) s = .next (refuse d (10, 0) u)))

/-- The next output of a tapped element that is not there at its due instant enters its history as a gap. When every beam
    can read its sample, all beams take it and the index advances. A declared event is published as provisional after Tp;
    one that has not run through its window within 4·c_win/fg closes with the void-timeout flag. A pinned capture is
    copied into a record and its pin released; markers and blanks end at their instants. Completes, for every state and
    operands that meet the premises: glintOutputDue, glintBeamSample, publishHoldExpiry, voidTimeout, captureCopy,
    markerHoldExpiry, blankEnd. (R170; R173; R174; R175; R181; R183; R191; R193; R197; 07_glint_path.md) -/
def Obligations.GlintSamplesAndEventsRun : Prop :=
  ∀ (t : Tick) (e : Fin 16384) (det : Fin 512) (layer m : BitVec 8) (entry : Fin 64) (pin : Nat) (ecc : List Ecc) (c : GlintCfg) (r : ElemRun)
      (g : GroupDesc) (org id : Nat) (ev : GlintEvent) (p : DetPar) (x : Pin) (s : State), let u := s.advance t
    (let h := History.settleN (historyOf u e.val r.fbNext).words.length (historyOf u e.val r.fbNext)
     let w := Tab.put h.words h.next gapWord
     u.glint.cfg = some c → Tab.get u.cond.run e.val = some r → u.view.desc e.val = some g →
      (activeAt u e.val (g.ratio * h.next / 64)).any (fun y => y.1.tapped) = true →
      glintDue u r g c h.next false = true → ∃ h' : History, exec (.glintOutputDue t e) s = .next { u with
        glint.hist := Tab.put u.glint.hist e.val { h' with words := keepNewest (2 ^ c.histLog2) w } } ∧ h'.late = h.late + 1 ∧
        h'.discarded = h.discarded ∧ h'.pathGaps = h.pathGaps) ∧
    (switchDue u = none → glintBase u = some (g, org) → u.glint.set_ = some id → u.glint.cfg = some c →
      (beamReads u u.glint.m g).all (fun y => beamReady u u.glint.m y.2.2.2) = true → exec (.glintBeamSample t) s =
        .next (gstepCheck (settle { takeSamples u.glint.m g org (beamReads u u.glint.m g) u with glint.m := u.glint.m + 1 }))) ∧
    ((detOf u det.val).ev = some ev → u.glint.cfg = some c → ev.st = .declared → c.hold * tickHz ≤ (u.now - ev.at_) * 1000000 →
      exec (.publishHoldExpiry t det) s = .next (publishEvent det.val 1 (setDet det.val { detOf u det.val with
        ev := some { ev with st := .provisional } } u))) ∧
    ((detOf u det.val).ev = some ev → u.glint.cfg = some c → (beamRunOf u (det.val / 2)).par = some p → ev.st ≠ .confirmed →
      4 * p.cWin * tickHz ≤ (u.now - ev.at_) * c.rate → exec (.voidTimeout t det) s = .next (closeEvent det.val 32 u)) ∧
    (let z := captureLand x (afterCheck u); let l := eccSeen z (captureAddr z x) 0 (captureWords x + captureIndexWords z) ecc
     let v := captureRead x l z
     Tab.get u.glint.pins pin = some x → captureReady u x = true → exec (.captureCopy t pin ecc) s = .next (formRecord
      ⟨4, 0, 0x31, captureRecord v x (poisonedWords l) x.tFirst, 0xFFFF, x.tFirst,
        ((x.tFirst : Int) + spanTicks (x.last - x.first : Nat) 1 (max 1 x.rate)).toNat, poisonedIn l⟩
      { v with glint.pins := Tab.del v.glint.pins pin })) ∧
    exec (.markerHoldExpiry t layer m) s = .next { u with lbox.marks := u.lbox.marks.filter (fun y =>
      decide (¬ (y.layer = layer.toNat ∧ y.m = m.toNat ∧ ∃ k ∈ y.clearAt, k ≤ u.now))) } ∧
    exec (.blankEnd t entry) s = .next { u with glint.blanks := u.glint.blanks.filter (fun b =>
      decide (¬ (b.entry = entry.val ∧ ∃ k ∈ b.until_, k ≤ u.now))) }

/-- A waveform table, transmit program, drive map or drive group descriptor that passes its checks is installed under its
    id; a descriptor of a running group waits for the group's next start. A drive group start puts the waiting descriptor
    in force from its instant. A transmit start (at t_s, or at once with t_s 0) and an echo calibration queue a start and
    defer their completion; a stop ramps the program's beams; a load watch clear ends a mute; in a pair an immediate one
    acts at the instant T that the lit member sets, and at a shadow without EFFECT it waits. What fails a check is refused
    with that check's status. Completes, for every state and operands that meet the premises: waveformTableLoad,
    transmitProgramLoad, driveMapLoad, driveGroupLoad, driveGroupStart, transmitStart, transmitStop, echoCalibration,
    loadWatchClear. (R198; R199; R200; R206; R208; R209; R214; R215; R224; R226; 08_transmit.md) -/
def Obligations.TransmitCommandsAct : Prop :=
  ∀ (t : Tick) (d : Desc) (data : Bytes) (c : Nat × Nat) (s : State), let u := s.advance t; let b := dataOf d data
    (waveformTableLoadChk d data u = none → exec (.waveformTableLoad t d data) s = .next (accept d
      (hbmRequest 4 .outside (placeOf u 3 (tableWord 8 (fieldU b 0 2))) <| cfgPut 8 (fieldU b 0 2) b { u with
      tx.waves := Tab.put u.tx.waves (fieldU b 0 2) ((List.range (fieldU b 4 4)).map (fun i => fieldS b (16 + 2 * i) 2)) }))) ∧
    (waveformTableLoadChk d data u = some c → exec (.waveformTableLoad t d data) s = .next (refuse d c u)) ∧
    (transmitProgramLoadChk d data u = none → exec (.transmitProgramLoad t d data) s = .next (accept d (cfgPut 9 (fieldU b 0 2) b { u with
      tx.progs := Tab.put u.tx.progs (fieldU b 0 2)
        ⟨fieldU b 4 4, (List.range (fieldU b 2 1)).map (fun i => parseBeam b (32 + 48 * i))⟩ }))) ∧
    (transmitProgramLoadChk d data u = some c → exec (.transmitProgramLoad t d data) s = .next (refuse d c u)) ∧
    (driveMapLoadChk d data u = none → let map := (List.range (d.len.toNat / 16)).map (fun i => parseDrive b (16 * i))
      exec (.driveMapLoad t d data) s =
        .next (accept d (map.foldl (fun v m => enterDrive u.tx.map m v) (cfgPut 10 0 b (dropDrives map { u with tx.map := map }))))) ∧
    (driveMapLoadChk d data u = some c → exec (.driveMapLoad t d data) s = .next (refuse d c u)) ∧
    (driveGroupLoadChk d data u = none → let g : DriveGroup := { mode := fieldU b 1 1, ratio := fieldU b 2 2, rate := fieldU b 4 4
                                                                 ifloor := fieldU b 8 4, fade := fieldU b 12 1, lead := fieldU b 14 2, t0 := none }
      (∀ o, Tab.get u.tx.groups (fieldU b 0 1) = some o → o.t0.isSome = true → exec (.driveGroupLoad t d data) s =
        .next (complete d 0 0 { u with tx.newGroups := Tab.put u.tx.newGroups (fieldU b 0 1) g })) ∧
      ((∀ o, Tab.get u.tx.groups (fieldU b 0 1) = some o → o.t0 = none) → exec (.driveGroupLoad t d data) s = .next (accept d
        (cfgPut 11 (fieldU b 0 1) b { u with tx.groups := Tab.put u.tx.groups (fieldU b 0 1) g })))) ∧
    (driveGroupLoadChk d data u = some c → exec (.driveGroupLoad t d data) s = .next (refuse d c u)) ∧
    (descChk d [(32, 1), (40, 8)] = none → ∀ g, nextGroup u (par d 32 1) = some g →
      (u.tx.beams.all (fun p => decide (p.2.entry.group ≠ par d 32 1)) = true →
        exec (.driveGroupStart t d data) s = .next (acceptAt (par d 40 8) d (startDriveGroup (par d 32 1) (par d 40 8) g
          (if Tab.has u.tx.newGroups (par d 32 1) then cfgPutAt (par d 40 8) 11 (par d 32 1) (groupBytes (par d 32 1) g) u else u)))) ∧
      (u.tx.beams.any (fun p => decide (p.2.entry.group = par d 32 1)) = true →
        exec (.driveGroupStart t d data) s = .next (refuse d (10, 0) u))) ∧
    (transmitStartChk d u = none → par d 40 8 ≠ 0 → let v := if u.tw < par d 40 8 then enterAct (par d 40 8) none u else disturb u
      exec (.transmitStart t d data) s = .next (queueStart u.tx.nextStart (.command d.index)
        (par d 32 1) (some (par d 40 8)) (par d 33 1) (deferStart d (.transmit u.tx.nextStart) v))) ∧
    (transmitStartChk d u = none → par d 40 8 = 0 → let v := deferStart d (.transmit u.tx.nextStart) (if u.twinEn then u else disturb u)
      (∀ T w, takeT d data v = (some T, w) → exec (.transmitStart t d data) s = .next (startNow d u.tx.nextStart T w.twinEn w)) ∧
      (∀ w, takeT d data v = (none, w) → exec (.transmitStart t d data) s = .next w)) ∧
    (transmitStartChk d u = some c → exec (.transmitStart t d data) s = .next (refuse d c u)) ∧
    (descChk d [(32, 1)] = none →
      (stopTargets u (par d 32 1) ≠ [] → ∀ T v, takeT d data u = (some T, v) →
        exec (.transmitStop t d data) s = .next (acceptTimed d (stopProgram (par d 32 1) T v))) ∧
      (stopTargets u (par d 32 1) ≠ [] → ∀ v, takeT d data u = (none, v) → exec (.transmitStop t d data) s = .next (acceptTimed d v)) ∧
      (stopTargets u (par d 32 1) = [] → exec (.transmitStop t d data) s = .next (refuse d (7, par d 32 1) u))) ∧
    (echoCalibrationChk d data u = none → exec (.echoCalibration t d data) s = .next (queueStart u.tx.nextStart (.echo d.index (parseEcho b))
      0x10000 none 1 (deferStart d (.echo u.tx.nextStart) (disturb u)))) ∧
    (echoCalibrationChk d data u = some c → exec (.echoCalibration t d data) s = .next (refuse d c u)) ∧
    (descChk d [(32, 2)] = none → ∀ m, driveEntry u (par d 32 2) = some m →
      (m.zNom ≠ 0 → ∀ T v, takeT d data u = (some T, v) →
        (v.twinEn = false → exec (.loadWatchClear t d data) s = .next (acceptTimed d (clearMute (par d 32 2) v))) ∧
        (v.twinEn = true → exec (.loadWatchClear t d data) s =
          .next (acceptTimed d { v with twin.timed := v.twin.timed ++ [⟨d, data, some T⟩] }))) ∧
      (m.zNom ≠ 0 → ∀ v, takeT d data u = (none, v) → exec (.loadWatchClear t d data) s = .next (acceptTimed d v)) ∧
      (m.zNom = 0 → exec (.loadWatchClear t d data) s = .next (refuse d (12, par d 32 2) u)))

/-- The start that falls due next (a preempting or a glint start ends a calibration first) begins when it is ready and not
    too soon, is held where its flag says so, and otherwise ends LATE; a held start begins once its causes have ended, one
    that preempts once the ramps have left its slots free. A program whose beams have all passed ends DONE. A drive frame
    carries its channels' next samples; a sense frame's samples reach the elements on its channels, a bad one is counted;
    a block is evaluated 2 ms after its last sample. A calibration sends its next probe in time and writes its record once
    its receivers are read. Completes, for every state and operands that meet the premises: transmitStartDue,
    heldStartReady, programEnd, driveFrameSend, senseFrame, loadWatchEval, echoRepeat, echoRecord. (R205; R208; R212;
    R213; R217; R222; R223; R225; R314; R315; 08_transmit.md) -/
def Obligations.DriveOutputsAndProgramsRun : Prop :=
  ∀ (t : Tick) (sid : Nat) (x : Start) (q group : Fin 16) (stream chan0 : BitVec 16) (nch nsamp k : Nat) (e : Fin 16384) (f : RawFrame)
      (m : DriveEntry) (g : DriveGroup) (t0 : Nat) (kr : EchoRun) (D : Nat) (ecc : List Ecc) (s : State), let u := s.advance t
    (nextDue u = some (sid, x) → let v := if x.preempts || x.isGlint then abandonEcho u else u; let w := if x.preempts then preempt x v else v
      (notReady v x = false → tooSoon v x = false →
        (slotTaken w x = false → exec (.transmitStartDue t) s = .next (beginStart sid (beginAt w x) w)) ∧
        (slotTaken w x = true → exec (.transmitStartDue t) s = .next { w with tx.starts := Tab.put w.tx.starts sid { x with held := true } }) ∧
        (x.immediate = false → beginAt v x = ((x.tS.getD 0 : Nat) : Int))) ∧
      ((notReady v x || tooSoon v x) = true → bitOf x.flags 0 = true → exec (.transmitStartDue t) s =
        .next { v with tx.starts := Tab.put v.tx.starts sid { x with held := true } }) ∧
      ((notReady v x || tooSoon v x) = true → bitOf x.flags 0 = false → exec (.transmitStartDue t) s = .next (finishStart sid 9 0 v))) ∧
    (heldReady u = some (sid, x) → let v := if x.preempts then preempt x u else u
      (slotTaken v x = false → exec (.heldStartReady t sid) s = .next (beginStart sid (beginAt v x) v)) ∧
      (slotTaken v x = true → exec (.heldStartReady t sid) s =
        .next { v with tx.starts := Tab.put v.tx.starts sid { x with held := true } })) ∧
    (Tab.get u.tx.starts sid = some x → x.running.isSome = true → x.isEcho = false → programOver u sid = true →
      exec (.programEnd t sid) s = .next ((slotsOfStart u sid).foldl (fun v n => drain n v) (finishStart sid 0 (b01 x.muted) u))) ∧
    (let chans := frameChans u group.val stream.toNat chan0.toNat nch
     Tab.get u.tx.groups group.val = some g → frameNext u g (chans.filterMap id) = some k →
      frameReady u q.val nch nsamp (chans.filterMap id) g = true → exec (.driveFrameSend t q group stream chan0 nch nsamp ecc) s =
      .next (sendDriveFrame q.val group.val stream.toNat chan0.toNat nsamp chans k g ecc (latchBeams group.val (k + nsamp) (leaveStreams group.val u)))) ∧
    (quadHas u q.val 2 = true ∨ quadHas u q.val 3 = true → (quadOf u q.val).up = true →
      (senseOk f = true → exec (.senseFrame t q f) s = .next (senseSamples f (frameTaken q.val u))) ∧
      (senseOk f = false → exec (.senseFrame t q f) s = .next (crcErr q.val u))) ∧
    ((drivers u).find? (fun y => decide (y.element = e.val)) = some m → Tab.get u.tx.groups m.group = some g → g.t0 = some t0 →
      let n := (driveRun u e.val).block.getD (firstBlock g u.tw)
      (t0 : Int) + spanTicks (8 * n + 7 : Nat) 1 8000 + usTicks 2000 ≤ (u.tw : Int) →
      exec (.loadWatchEval t e) s = .next (evalBlock m g n (setDrive e.val { driveRun u e.val with block := some n } u))) ∧
    (u.tx.echo = some kr → driveEntry u kr.cmd.drive = some m → Tab.get u.tx.groups m.group = some g →
      delayOf ((viewNow u).elem kr.cmd.drive) kr.cmd.tbase g.rate 1 0 = some D → kr.rep < kr.cmd.repeats →
      driveTime g (repeatIndex u kr g kr.rep) - lagOf g ≤ (u.tw : Int) →
      exec (.echoRepeat t) s = .next (sendProbe kr m g (repeatIndex u kr g kr.rep) D u)) ∧
    (u.tx.echo = some kr → kr.cmd.repeats ≤ kr.rep → kr.cmd.recv.all (recvReady u kr kr.cmd.repeats) = true →
      exec (.echoRecord t) s = .next (echoRecord kr false u))

/-- An audio block that passes its checks starts the audio path anew and drops the routing sets. A routing set fills the
    idle slot; a swap waits for its index. A scene waits for its first frame, its completion telling the vertical taps; a
    table image is stored. A surface of exactly the layer's size completes an update of the layer at this instant, and a
    frame that waits for it may start. What fails a check is refused with that check's status. Completes, for every state
    and operands that meet the premises: audioConfigure, routingSetLoad, routingSwap, sceneLoad, lightboxTableLoad,
    surfaceWrite. (R227; R233; R240; R244; R245; R246; R248; 09_audio_routing.md; 10_lightbox.md) -/
def Obligations.AudioAndLightboxCommandsAct : Prop :=
  ∀ (t : Tick) (d : Desc) (data : Bytes) (c : Nat × Nat) (r : RoutingSet) (sc : LbScene) (l : LbLayer) (s : State)
      , let u := s.advance t; let b := dataOf d data
    (audioConfigureChk d data u = none →
      exec (.audioConfigure t d data) s = .next (accept d (cfgPut 20 0 b { dropSets u with audio := audioBlock b }))) ∧
    (audioConfigureChk d data u = some c → exec (.audioConfigure t d data) s = .next (refuse d c u)) ∧
    (routingSetLoadChk d data u = none → u.audio.idle = none → exec (.routingSetLoad t d data) s =
      .next (accept d (cfgPut 12 (parseRouting b).id b { u with audio.idle := some (parseRouting b) }))) ∧
    (routingSetLoadChk d data u = none → u.audio.idle = some r → exec (.routingSetLoad t d data) s =
      .next (accept d (cfgPut 12 (parseRouting b).id b { cfgDel 12 r.id u with audio.idle := some (parseRouting b) }))) ∧
    (routingSetLoadChk d data u = some c → exec (.routingSetLoad t d data) s = .next (refuse d c u)) ∧
    (descChk d [(32, 1), (40, 8)] = none →
      (u.audio.idle = none → exec (.routingSwap t d data) s = .next (refuse d (7, par d 32 1) u)) ∧
      (u.audio.idle = some r → r.id = par d 32 1 →
        (u.audio.swap = none → (u.audio.idx < par d 40 8 ∨ u.audio.idx = 0 ∧ par d 40 8 = 0) →
          exec (.routingSwap t d data) s = .next (complete d 0 0 { u with audio.swap := some (par d 40 8) })) ∧
        (u.audio.swap = none → 0 < u.audio.idx → par d 40 8 ≤ u.audio.idx →
          exec (.routingSwap t d data) s = .next (refuse d (9, 0) u)) ∧
        (u.audio.swap ≠ none → exec (.routingSwap t d data) s = .next (refuse d (10, 0) u)))) ∧
    (sceneLoadChk d data u = none → ∃ z : LbScene, z.id = (parseScene b).id ∧ z.rate = (parseScene b).rate ∧
      z.layers = (parseScene b).layers ∧ z.start = (parseScene b).start ∧ z.activate = firstFrame (parseScene b) u.tw ∧
      exec (.sceneLoad t d data) s = .next (completeWith d 0 0
        (some ((List.range 8).flatMap (fun i => le 1 ((z.layers[i]?.map LbLayer.tv).getD 0))))
        (cfgPutAt (z.bound z.activate) 13 z.id b { u with lbox.pending := u.lbox.pending ++ [z] }))) ∧
    (sceneLoadChk d data u = some c → exec (.sceneLoad t d data) s = .next (refuse d c u)) ∧
    (lightboxTableLoadChk d data u = none → let key := lbKey (fieldU b 2 1) (fieldU b 0 2)
      exec (.lightboxTableLoad t d data) s = .next (accept d (cfgPut 14 key b { u with
        lbox.tables := Tab.put u.lbox.tables key ⟨fieldU b 2 1, fieldU b 3 1, fieldU b 4 4, b.drop 16⟩ }))) ∧
    (lightboxTableLoadChk d data u = some c → exec (.lightboxTableLoad t d data) s = .next (refuse d c u)) ∧
    (descChk d [(32, 1)] = none → u.lbox.scene = some sc → sc.layers[par d 32 1]? = some l → l.source = 1 →
      (sizeChk d l.bufBytes = none → ∃ v : LbRun, v.front = (layerRun u (par d 32 1)).front ∧
        v.fLast = (layerRun u (par d 32 1)).fLast ∧ v.stale = (layerRun u (par d 32 1)).stale ∧
        v.back = (layerRun u (par d 32 1)).back ++ [⟨u.tw, b, u.tw, false, 0⟩] ∧
        exec (.surfaceWrite t d data) s = .next (resumeFrame (accept d { hbmRequest 4 .outside (placeOf u 4 (par d 32 1)) u with lbox.layers := u.lbox.layers.set (par d 32 1) v }))) ∧
      (sizeChk d l.bufBytes = some c → exec (.surfaceWrite t d data) s = .next (refuse d c u))) ∧
    (descChk d [(32, 1)] = none → u.lbox.scene = none → exec (.surfaceWrite t d data) s = .next (refuse d (7, par d 32 1) u))

/-- At the instant of the next audio index the index executes and the next one follows it; before that instant only time
    passes. At a boundary, with no frame delayed, a scene that is due takes effect, and the frame due then starts; a frame
    that a WAIT layer delayed starts when its wait ends. Without a scene, and without a delayed frame, nothing starts.
    Completes, for every state and operands that meet the premises: audioIndex, lightboxFrameBoundary, lightboxWaitExpiry.
    (R228; R234; R239; R245; R254; R255; 09_audio_routing.md; 10_lightbox.md) -/
def Obligations.AudioIndicesAndFramesRun : Prop :=
  ∀ (t : Tick) (t0 : Nat) (sc : LbScene) (ecc : List Ecc) (s : State), let u := s.advance t
    (u.audio.t0 = some t0 → audioTime t0 u.audio.idx ≤ (u.tw : Int) →
      exec (.audioIndex t) s = .next (runIndex t0 u.audio.idx u)) ∧
    (u.audio.t0 = some t0 → (u.tw : Int) < audioTime t0 u.audio.idx → exec (.audioIndex t) s = .next u) ∧
    (u.audio.t0 = none → exec (.audioIndex t) s = .next u) ∧
    (sceneDue u = some sc → u.lbox.waiting = none → (takeScene sc u).lbox.scene = some sc ∧ (takeScene sc u).lbox.frame = sc.activate ∧
      exec (.lightboxFrameBoundary t ecc) s = .next (tryFrame ecc (takeScene sc u))) ∧
    (sceneDue u = none → u.lbox.waiting = none → exec (.lightboxFrameBoundary t ecc) s = .next (tryFrame ecc u)) ∧
    (u.lbox.waiting ≠ none → sceneDue (tryFrame ecc u) = none → exec (.lightboxFrameBoundary t ecc) s = .next (tryFrame ecc (tryFrame ecc u))) ∧
    (u.lbox.scene = none → tryFrame ecc u = u) ∧
    (u.lbox.scene = some sc → u.tw < sc.bound u.lbox.frame → tryFrame ecc u = u) ∧
    (u.lbox.waiting ≠ none → exec (.lightboxWaitExpiry t ecc) s = .next (tryFrame ecc u)) ∧
    (u.lbox.waiting = none → exec (.lightboxWaitExpiry t ecc) s = .next u)

/-- From every state with at most 16 open pins, a step that answers a next state answers one with at most 16 open pins,
    whatever command is at the front; and with 16 open a further capture of any event opens none, is counted as refused,
    and sets flag bit 3 of its event. (R195; R194; 07_glint_path.md) -/
def Obligations.AtMostSixteenPinsAreOpen : Prop :=
  (∀ s t : State, s.glint.pins.length ≤ 16 → step s = .next t → t.glint.pins.length ≤ 16) ∧
  ∀ (det : Nat) (e : GlintEvent) (provisional : Bool) (s : State), 16 ≤ s.glint.pins.length →
    takePin det e provisional s = modEvent det (fun e => { e with flags := e.flags ||| 8 }) { s with glint.refused := s.glint.refused + 1 }
end

