-- ==== Sys2Proof/Laws/Frame.lean ====
section
/-!
SUPPORT. What every operation of the machine leaves alone: for each operation the blocks of the state that it does not touch,
as one simp lemma, and for each meaning the same of the state it answers.
-/
set_option Elab.async false
namespace Sys2Proof.Machine

@[simp] theorem foldl_pending {α : Type} (f : State → α → State) (l : List α) (s : State) (h : ∀ s a, (f s a).pending = s.pending) :
    (l.foldl f s).pending = s.pending := by
  induction l generalizing s with
  | nil => rfl
  | cons a l ih => simp [ih, h]
@[simp] theorem foldlSnd_pending {α β : Type} (f : β × State → α → β × State) (l : List α) (p : β × State)
    (h : ∀ p a, (f p a).2.pending = p.2.pending) : (l.foldl f p).2.pending = p.2.pending := by
  induction l generalizing p with
  | nil => rfl
  | cons a l ih => simp [ih, h]
@[simp] theorem foldl_audio {α : Type} (f : State → α → State) (l : List α) (s : State) (h : ∀ s a, (f s a).audio = s.audio) :
    (l.foldl f s).audio = s.audio := by
  induction l generalizing s with
  | nil => rfl
  | cons a l ih => simp [ih, h]
@[simp] theorem foldlSnd_audio {α β : Type} (f : β × State → α → β × State) (l : List α) (p : β × State)
    (h : ∀ p a, (f p a).2.audio = p.2.audio) : (l.foldl f p).2.audio = p.2.audio := by
  induction l generalizing p with
  | nil => rfl
  | cons a l ih => simp [ih, h]
@[simp] theorem foldl_lbox {α : Type} (f : State → α → State) (l : List α) (s : State) (h : ∀ s a, (f s a).lbox = s.lbox) :
    (l.foldl f s).lbox = s.lbox := by
  induction l generalizing s with
  | nil => rfl
  | cons a l ih => simp [ih, h]
@[simp] theorem foldlSnd_lbox {α β : Type} (f : β × State → α → β × State) (l : List α) (p : β × State)
    (h : ∀ p a, (f p a).2.lbox = p.2.lbox) : (l.foldl f p).2.lbox = p.2.lbox := by
  induction l generalizing p with
  | nil => rfl
  | cons a l ih => simp [ih, h]
@[simp] theorem foldl_pins {α : Type} (f : State → α → State) (l : List α) (s : State) (h : ∀ s a, (f s a).pins = s.pins) :
    (l.foldl f s).pins = s.pins := by
  induction l generalizing s with
  | nil => rfl
  | cons a l ih => simp [ih, h]
@[simp] theorem foldlSnd_pins {α β : Type} (f : β × State → α → β × State) (l : List α) (p : β × State)
    (h : ∀ p a, (f p a).2.pins = p.2.pins) : (l.foldl f p).2.pins = p.2.pins := by
  induction l generalizing p with
  | nil => rfl
  | cons a l ih => simp [ih, h]
@[simp] theorem foldl_tOffset {α : Type} (f : State → α → State) (l : List α) (s : State) (h : ∀ s a, (f s a).tOffset = s.tOffset) :
    (l.foldl f s).tOffset = s.tOffset := by
  induction l generalizing s with
  | nil => rfl
  | cons a l ih => simp [ih, h]
@[simp] theorem foldlSnd_tOffset {α β : Type} (f : β × State → α → β × State) (l : List α) (p : β × State)
    (h : ∀ p a, (f p a).2.tOffset = p.2.tOffset) : (l.foldl f p).2.tOffset = p.2.tOffset := by
  induction l generalizing p with
  | nil => rfl
  | cons a l ih => simp [ih, h]
@[simp] theorem foldl_boot {α : Type} (f : State → α → State) (l : List α) (s : State) (h : ∀ s a, (f s a).boot = s.boot) :
    (l.foldl f s).boot = s.boot := by
  induction l generalizing s with
  | nil => rfl
  | cons a l ih => simp [ih, h]
@[simp] theorem foldlSnd_boot {α β : Type} (f : β × State → α → β × State) (l : List α) (p : β × State)
    (h : ∀ p a, (f p a).2.boot = p.2.boot) : (l.foldl f p).2.boot = p.2.boot := by
  induction l generalizing p with
  | nil => rfl
  | cons a l ih => simp [ih, h]
@[simp] theorem foldl_chan {α : Type} (f : State → α → State) (l : List α) (s : State) (h : ∀ s a, (f s a).chan = s.chan) :
    (l.foldl f s).chan = s.chan := by
  induction l generalizing s with
  | nil => rfl
  | cons a l ih => simp [ih, h]
@[simp] theorem foldlSnd_chan {α β : Type} (f : β × State → α → β × State) (l : List α) (p : β × State)
    (h : ∀ p a, (f p a).2.chan = p.2.chan) : (l.foldl f p).2.chan = p.2.chan := by
  induction l generalizing p with
  | nil => rfl
  | cons a l ih => simp [ih, h]
@[simp] theorem foldl_hbm {α : Type} (f : State → α → State) (l : List α) (s : State) (h : ∀ s a, (f s a).hbm = s.hbm) :
    (l.foldl f s).hbm = s.hbm := by
  induction l generalizing s with
  | nil => rfl
  | cons a l ih => simp [ih, h]
@[simp] theorem foldlSnd_hbm {α β : Type} (f : β × State → α → β × State) (l : List α) (p : β × State)
    (h : ∀ p a, (f p a).2.hbm = p.2.hbm) : (l.foldl f p).2.hbm = p.2.hbm := by
  induction l generalizing p with
  | nil => rfl
  | cons a l ih => simp [ih, h]
@[simp] theorem foldl_glint {α : Type} (f : State → α → State) (l : List α) (s : State) (h : ∀ s a, (f s a).glint = s.glint) :
    (l.foldl f s).glint = s.glint := by
  induction l generalizing s with
  | nil => rfl
  | cons a l ih => simp [ih, h]
@[simp] theorem foldlSnd_glint {α β : Type} (f : β × State → α → β × State) (l : List α) (p : β × State)
    (h : ∀ p a, (f p a).2.glint = p.2.glint) : (l.foldl f p).2.glint = p.2.glint := by
  induction l generalizing p with
  | nil => rfl
  | cons a l ih => simp [ih, h]
@[simp] theorem foldl_cond {α : Type} (f : State → α → State) (l : List α) (s : State) (h : ∀ s a, (f s a).cond = s.cond) :
    (l.foldl f s).cond = s.cond := by
  induction l generalizing s with
  | nil => rfl
  | cons a l ih => simp [ih, h]
@[simp] theorem foldlSnd_cond {α β : Type} (f : β × State → α → β × State) (l : List α) (p : β × State)
    (h : ∀ p a, (f p a).2.cond = p.2.cond) : (l.foldl f p).2.cond = p.2.cond := by
  induction l generalizing p with
  | nil => rfl
  | cons a l ih => simp [ih, h]
@[simp] theorem foldl_tx {α : Type} (f : State → α → State) (l : List α) (s : State) (h : ∀ s a, (f s a).tx = s.tx) :
    (l.foldl f s).tx = s.tx := by
  induction l generalizing s with
  | nil => rfl
  | cons a l ih => simp [ih, h]
@[simp] theorem foldlSnd_tx {α β : Type} (f : β × State → α → β × State) (l : List α) (p : β × State)
    (h : ∀ p a, (f p a).2.tx = p.2.tx) : (l.foldl f p).2.tx = p.2.tx := by
  induction l generalizing p with
  | nil => rfl
  | cons a l ih => simp [ih, h]
@[simp] theorem foldl_corr {α : Type} (f : State → α → State) (l : List α) (s : State) (h : ∀ s a, (f s a).corr = s.corr) :
    (l.foldl f s).corr = s.corr := by
  induction l generalizing s with
  | nil => rfl
  | cons a l ih => simp [ih, h]
@[simp] theorem foldlSnd_corr {α β : Type} (f : β × State → α → β × State) (l : List α) (p : β × State)
    (h : ∀ p a, (f p a).2.corr = p.2.corr) : (l.foldl f p).2.corr = p.2.corr := by
  induction l generalizing p with
  | nil => rfl
  | cons a l ih => simp [ih, h]
@[simp] theorem foldl_link {α : Type} (f : State → α → State) (l : List α) (s : State) (h : ∀ s a, (f s a).link = s.link) :
    (l.foldl f s).link = s.link := by
  induction l generalizing s with
  | nil => rfl
  | cons a l ih => simp [ih, h]
@[simp] theorem foldlSnd_link {α β : Type} (f : β × State → α → β × State) (l : List α) (p : β × State)
    (h : ∀ p a, (f p a).2.link = p.2.link) : (l.foldl f p).2.link = p.2.link := by
  induction l generalizing p with
  | nil => rfl
  | cons a l ih => simp [ih, h]
@[simp] theorem foldl_twin {α : Type} (f : State → α → State) (l : List α) (s : State) (h : ∀ s a, (f s a).twin = s.twin) :
    (l.foldl f s).twin = s.twin := by
  induction l generalizing s with
  | nil => rfl
  | cons a l ih => simp [ih, h]
@[simp] theorem foldlSnd_twin {α β : Type} (f : β × State → α → β × State) (l : List α) (p : β × State)
    (h : ∀ p a, (f p a).2.twin = p.2.twin) : (l.foldl f p).2.twin = p.2.twin := by
  induction l generalizing p with
  | nil => rfl
  | cons a l ih => simp [ih, h]
@[simp] theorem foldl_mgmt {α : Type} (f : State → α → State) (l : List α) (s : State) (h : ∀ s a, (f s a).mgmt = s.mgmt) :
    (l.foldl f s).mgmt = s.mgmt := by
  induction l generalizing s with
  | nil => rfl
  | cons a l ih => simp [ih, h]
@[simp] theorem foldlSnd_mgmt {α β : Type} (f : β × State → α → β × State) (l : List α) (p : β × State)
    (h : ∀ p a, (f p a).2.mgmt = p.2.mgmt) : (l.foldl f p).2.mgmt = p.2.mgmt := by
  induction l generalizing p with
  | nil => rfl
  | cons a l ih => simp [ih, h]
@[simp] theorem foldl_host {α : Type} (f : State → α → State) (l : List α) (s : State) (h : ∀ s a, (f s a).host = s.host) :
    (l.foldl f s).host = s.host := by
  induction l generalizing s with
  | nil => rfl
  | cons a l ih => simp [ih, h]
@[simp] theorem foldlSnd_host {α β : Type} (f : β × State → α → β × State) (l : List α) (p : β × State)
    (h : ∀ p a, (f p a).2.host = p.2.host) : (l.foldl f p).2.host = p.2.host := by
  induction l generalizing p with
  | nil => rfl
  | cons a l ih => simp [ih, h]
@[simp] theorem foldl_out {α : Type} (f : State → α → State) (l : List α) (s : State) (h : ∀ s a, (f s a).out = s.out) :
    (l.foldl f s).out = s.out := by
  induction l generalizing s with
  | nil => rfl
  | cons a l ih => simp [ih, h]
@[simp] theorem foldlSnd_out {α β : Type} (f : β × State → α → β × State) (l : List α) (p : β × State)
    (h : ∀ p a, (f p a).2.out = p.2.out) : (l.foldl f p).2.out = p.2.out := by
  induction l generalizing p with
  | nil => rfl
  | cons a l ih => simp [ih, h]
@[simp] theorem foldl_free {α : Type} (f : State → α → State) (l : List α) (s : State) (h : ∀ s a, (f s a).free = s.free) :
    (l.foldl f s).free = s.free := by
  induction l generalizing s with
  | nil => rfl
  | cons a l ih => simp [ih, h]
@[simp] theorem foldlSnd_free {α β : Type} (f : β × State → α → β × State) (l : List α) (p : β × State)
    (h : ∀ p a, (f p a).2.free = p.2.free) : (l.foldl f p).2.free = p.2.free := by
  induction l generalizing p with
  | nil => rfl
  | cons a l ih => simp [ih, h]
@[simp] theorem foldl_tb {α : Type} (f : State → α → State) (l : List α) (s : State) (h : ∀ s a, (f s a).tb = s.tb) :
    (l.foldl f s).tb = s.tb := by
  induction l generalizing s with
  | nil => rfl
  | cons a l ih => simp [ih, h]
@[simp] theorem foldlSnd_tb {α β : Type} (f : β × State → α → β × State) (l : List α) (p : β × State)
    (h : ∀ p a, (f p a).2.tb = p.2.tb) : (l.foldl f p).2.tb = p.2.tb := by
  induction l generalizing p with
  | nil => rfl
  | cons a l ih => simp [ih, h]
@[simp] theorem foldl_now {α : Type} (f : State → α → State) (l : List α) (s : State) (h : ∀ s a, (f s a).now = s.now) :
    (l.foldl f s).now = s.now := by
  induction l generalizing s with
  | nil => rfl
  | cons a l ih => simp [ih, h]
@[simp] theorem foldlSnd_now {α β : Type} (f : β × State → α → β × State) (l : List α) (p : β × State)
    (h : ∀ p a, (f p a).2.now = p.2.now) : (l.foldl f p).2.now = p.2.now := by
  induction l generalizing p with
  | nil => rfl
  | cons a l ih => simp [ih, h]
@[simp] theorem advance_frame (t : Tick) (s : State) :
    (State.advance t s).pending = s.pending ∧ (State.advance t s).audio = s.audio ∧ (State.advance t s).lbox = s.lbox ∧ (State.advance t s).pins = s.pins ∧ (State.advance t s).boot = s.boot ∧ (State.advance t s).chan = s.chan ∧ (State.advance t s).hbm = s.hbm ∧ (State.advance t s).glint = s.glint ∧ (State.advance t s).cond = s.cond ∧ (State.advance t s).tx = s.tx ∧ (State.advance t s).corr = s.corr ∧ (State.advance t s).link = s.link ∧ (State.advance t s).twin = s.twin ∧ (State.advance t s).mgmt = s.mgmt ∧ (State.advance t s).host = s.host ∧ (State.advance t s).out = s.out ∧ (State.advance t s).free = s.free := by
  generalize hr : State.advance t s = r
  simp only [State.advance] at hr
  repeat' split at hr
  all_goals (subst hr; simp)
@[simp] theorem drawFree_frame (bits : ℕ) (s : State) :
    (State.drawFree bits s).2.pending = s.pending ∧ (State.drawFree bits s).2.audio = s.audio ∧ (State.drawFree bits s).2.lbox = s.lbox ∧ (State.drawFree bits s).2.pins = s.pins ∧ (State.drawFree bits s).2.tOffset = s.tOffset ∧ (State.drawFree bits s).2.boot = s.boot ∧ (State.drawFree bits s).2.chan = s.chan ∧ (State.drawFree bits s).2.hbm = s.hbm ∧ (State.drawFree bits s).2.glint = s.glint ∧ (State.drawFree bits s).2.cond = s.cond ∧ (State.drawFree bits s).2.tx = s.tx ∧ (State.drawFree bits s).2.corr = s.corr ∧ (State.drawFree bits s).2.link = s.link ∧ (State.drawFree bits s).2.twin = s.twin ∧ (State.drawFree bits s).2.mgmt = s.mgmt ∧ (State.drawFree bits s).2.host = s.host ∧ (State.drawFree bits s).2.out = s.out ∧ (State.drawFree bits s).2.tb = s.tb ∧ (State.drawFree bits s).2.now = s.now := by
  simp [State.drawFree]
@[simp] theorem monSample_frame (kind : ℕ) (subject : ℕ) (v : ℤ) (s : State) :
    (monSample kind subject v s).pending = s.pending ∧ (monSample kind subject v s).audio = s.audio ∧ (monSample kind subject v s).lbox = s.lbox ∧ (monSample kind subject v s).pins = s.pins ∧ (monSample kind subject v s).tOffset = s.tOffset ∧ (monSample kind subject v s).boot = s.boot ∧ (monSample kind subject v s).chan = s.chan ∧ (monSample kind subject v s).hbm = s.hbm ∧ (monSample kind subject v s).glint = s.glint ∧ (monSample kind subject v s).cond = s.cond ∧ (monSample kind subject v s).tx = s.tx ∧ (monSample kind subject v s).corr = s.corr ∧ (monSample kind subject v s).link = s.link ∧ (monSample kind subject v s).twin = s.twin ∧ (monSample kind subject v s).host = s.host ∧ (monSample kind subject v s).out = s.out ∧ (monSample kind subject v s).free = s.free ∧ (monSample kind subject v s).tb = s.tb ∧ (monSample kind subject v s).now = s.now := by
  simp [monSample]
@[simp] theorem hbmServe_frame (pc : ℕ) (f : PcQueue → PcQueue) (s : State) :
    (hbmServe pc f s).pending = s.pending ∧ (hbmServe pc f s).audio = s.audio ∧ (hbmServe pc f s).lbox = s.lbox ∧ (hbmServe pc f s).pins = s.pins ∧ (hbmServe pc f s).tOffset = s.tOffset ∧ (hbmServe pc f s).boot = s.boot ∧ (hbmServe pc f s).chan = s.chan ∧ (hbmServe pc f s).glint = s.glint ∧ (hbmServe pc f s).cond = s.cond ∧ (hbmServe pc f s).tx = s.tx ∧ (hbmServe pc f s).corr = s.corr ∧ (hbmServe pc f s).link = s.link ∧ (hbmServe pc f s).twin = s.twin ∧ (hbmServe pc f s).host = s.host ∧ (hbmServe pc f s).out = s.out ∧ (hbmServe pc f s).tb = s.tb ∧ (hbmServe pc f s).now = s.now := by
  simp [hbmServe]
@[simp] theorem hbmRequest_frame (port : ℕ) (cls : HbmClass) (a : ℕ) (s : State) :
    (hbmRequest port cls a s).pending = s.pending ∧ (hbmRequest port cls a s).audio = s.audio ∧ (hbmRequest port cls a s).lbox = s.lbox ∧ (hbmRequest port cls a s).pins = s.pins ∧ (hbmRequest port cls a s).tOffset = s.tOffset ∧ (hbmRequest port cls a s).boot = s.boot ∧ (hbmRequest port cls a s).chan = s.chan ∧ (hbmRequest port cls a s).glint = s.glint ∧ (hbmRequest port cls a s).cond = s.cond ∧ (hbmRequest port cls a s).tx = s.tx ∧ (hbmRequest port cls a s).corr = s.corr ∧ (hbmRequest port cls a s).link = s.link ∧ (hbmRequest port cls a s).twin = s.twin ∧ (hbmRequest port cls a s).host = s.host ∧ (hbmRequest port cls a s).out = s.out ∧ (hbmRequest port cls a s).tb = s.tb ∧ (hbmRequest port cls a s).now = s.now := by
  simp [hbmRequest]
@[simp] theorem msixFire_frame (v : ℕ) (s : State) :
    (msixFire v s).pending = s.pending ∧ (msixFire v s).audio = s.audio ∧ (msixFire v s).lbox = s.lbox ∧ (msixFire v s).pins = s.pins ∧ (msixFire v s).tOffset = s.tOffset ∧ (msixFire v s).boot = s.boot ∧ (msixFire v s).chan = s.chan ∧ (msixFire v s).hbm = s.hbm ∧ (msixFire v s).glint = s.glint ∧ (msixFire v s).cond = s.cond ∧ (msixFire v s).tx = s.tx ∧ (msixFire v s).corr = s.corr ∧ (msixFire v s).link = s.link ∧ (msixFire v s).twin = s.twin ∧ (msixFire v s).mgmt = s.mgmt ∧ (msixFire v s).free = s.free ∧ (msixFire v s).tb = s.tb ∧ (msixFire v s).now = s.now := by
  generalize hr : msixFire v s = r
  simp only [msixFire] at hr
  repeat' split at hr
  all_goals (subst hr; simp)
@[simp] theorem msixSignal_frame (s : State) (v : ℕ) :
    (msixSignal s v).pending = s.pending ∧ (msixSignal s v).audio = s.audio ∧ (msixSignal s v).lbox = s.lbox ∧ (msixSignal s v).pins = s.pins ∧ (msixSignal s v).tOffset = s.tOffset ∧ (msixSignal s v).boot = s.boot ∧ (msixSignal s v).chan = s.chan ∧ (msixSignal s v).hbm = s.hbm ∧ (msixSignal s v).glint = s.glint ∧ (msixSignal s v).cond = s.cond ∧ (msixSignal s v).tx = s.tx ∧ (msixSignal s v).corr = s.corr ∧ (msixSignal s v).link = s.link ∧ (msixSignal s v).twin = s.twin ∧ (msixSignal s v).mgmt = s.mgmt ∧ (msixSignal s v).free = s.free ∧ (msixSignal s v).tb = s.tb ∧ (msixSignal s v).now = s.now := by
  generalize hr : msixSignal s v = r
  simp only [msixSignal] at hr
  repeat' split at hr
  all_goals (subst hr; simp)
@[simp] theorem hostWrite_frame (ws : List HostWrite) (s : State) :
    (hostWrite ws s).pending = s.pending ∧ (hostWrite ws s).audio = s.audio ∧ (hostWrite ws s).lbox = s.lbox ∧ (hostWrite ws s).pins = s.pins ∧ (hostWrite ws s).tOffset = s.tOffset ∧ (hostWrite ws s).boot = s.boot ∧ (hostWrite ws s).chan = s.chan ∧ (hostWrite ws s).hbm = s.hbm ∧ (hostWrite ws s).glint = s.glint ∧ (hostWrite ws s).cond = s.cond ∧ (hostWrite ws s).tx = s.tx ∧ (hostWrite ws s).corr = s.corr ∧ (hostWrite ws s).link = s.link ∧ (hostWrite ws s).twin = s.twin ∧ (hostWrite ws s).mgmt = s.mgmt ∧ (hostWrite ws s).host = s.host ∧ (hostWrite ws s).free = s.free ∧ (hostWrite ws s).tb = s.tb ∧ (hostWrite ws s).now = s.now := by
  simp [hostWrite]
@[simp] theorem startJob_frame (kind : JobKind) (ws : List HostWrite) (items : List Item) (s : State) :
    (startJob kind ws items s).pending = s.pending ∧ (startJob kind ws items s).audio = s.audio ∧ (startJob kind ws items s).lbox = s.lbox ∧ (startJob kind ws items s).pins = s.pins ∧ (startJob kind ws items s).tOffset = s.tOffset ∧ (startJob kind ws items s).boot = s.boot ∧ (startJob kind ws items s).chan = s.chan ∧ (startJob kind ws items s).hbm = s.hbm ∧ (startJob kind ws items s).glint = s.glint ∧ (startJob kind ws items s).cond = s.cond ∧ (startJob kind ws items s).tx = s.tx ∧ (startJob kind ws items s).corr = s.corr ∧ (startJob kind ws items s).link = s.link ∧ (startJob kind ws items s).twin = s.twin ∧ (startJob kind ws items s).mgmt = s.mgmt ∧ (startJob kind ws items s).free = s.free ∧ (startJob kind ws items s).tb = s.tb ∧ (startJob kind ws items s).now = s.now := by
  simp [startJob]
@[simp] theorem publish_frame (kind : JobKind) (ws : List HostWrite) (items : List Item) (s : State) :
    (publish kind ws items s).pending = s.pending ∧ (publish kind ws items s).audio = s.audio ∧ (publish kind ws items s).lbox = s.lbox ∧ (publish kind ws items s).pins = s.pins ∧ (publish kind ws items s).tOffset = s.tOffset ∧ (publish kind ws items s).boot = s.boot ∧ (publish kind ws items s).chan = s.chan ∧ (publish kind ws items s).hbm = s.hbm ∧ (publish kind ws items s).glint = s.glint ∧ (publish kind ws items s).cond = s.cond ∧ (publish kind ws items s).tx = s.tx ∧ (publish kind ws items s).corr = s.corr ∧ (publish kind ws items s).link = s.link ∧ (publish kind ws items s).twin = s.twin ∧ (publish kind ws items s).mgmt = s.mgmt ∧ (publish kind ws items s).free = s.free ∧ (publish kind ws items s).tb = s.tb ∧ (publish kind ws items s).now = s.now := by
  simp [publish]
@[simp] theorem statusWrite_frame (s : State) :
    (statusWrite s).pending = s.pending ∧ (statusWrite s).audio = s.audio ∧ (statusWrite s).lbox = s.lbox ∧ (statusWrite s).pins = s.pins ∧ (statusWrite s).tOffset = s.tOffset ∧ (statusWrite s).boot = s.boot ∧ (statusWrite s).chan = s.chan ∧ (statusWrite s).hbm = s.hbm ∧ (statusWrite s).glint = s.glint ∧ (statusWrite s).cond = s.cond ∧ (statusWrite s).tx = s.tx ∧ (statusWrite s).corr = s.corr ∧ (statusWrite s).link = s.link ∧ (statusWrite s).twin = s.twin ∧ (statusWrite s).mgmt = s.mgmt ∧ (statusWrite s).free = s.free ∧ (statusWrite s).tb = s.tb ∧ (statusWrite s).now = s.now := by
  generalize hr : statusWrite s = r
  simp only [statusWrite] at hr
  repeat' split at hr
  all_goals (subst hr; simp)
@[simp] theorem writeEvent_frame (e : Ev) (s : State) :
    (writeEvent e s).pending = s.pending ∧ (writeEvent e s).audio = s.audio ∧ (writeEvent e s).lbox = s.lbox ∧ (writeEvent e s).pins = s.pins ∧ (writeEvent e s).tOffset = s.tOffset ∧ (writeEvent e s).boot = s.boot ∧ (writeEvent e s).chan = s.chan ∧ (writeEvent e s).hbm = s.hbm ∧ (writeEvent e s).glint = s.glint ∧ (writeEvent e s).cond = s.cond ∧ (writeEvent e s).tx = s.tx ∧ (writeEvent e s).corr = s.corr ∧ (writeEvent e s).link = s.link ∧ (writeEvent e s).twin = s.twin ∧ (writeEvent e s).mgmt = s.mgmt ∧ (writeEvent e s).free = s.free ∧ (writeEvent e s).tb = s.tb ∧ (writeEvent e s).now = s.now := by
  simp [writeEvent]
@[simp] theorem noteLog_frame (x : LogEntry) (s : State) :
    (noteLog x s).pending = s.pending ∧ (noteLog x s).audio = s.audio ∧ (noteLog x s).lbox = s.lbox ∧ (noteLog x s).pins = s.pins ∧ (noteLog x s).tOffset = s.tOffset ∧ (noteLog x s).boot = s.boot ∧ (noteLog x s).chan = s.chan ∧ (noteLog x s).hbm = s.hbm ∧ (noteLog x s).glint = s.glint ∧ (noteLog x s).cond = s.cond ∧ (noteLog x s).tx = s.tx ∧ (noteLog x s).corr = s.corr ∧ (noteLog x s).link = s.link ∧ (noteLog x s).twin = s.twin ∧ (noteLog x s).host = s.host ∧ (noteLog x s).out = s.out ∧ (noteLog x s).free = s.free ∧ (noteLog x s).tb = s.tb ∧ (noteLog x s).now = s.now := by
  generalize hr : noteLog x s = r
  simp only [noteLog] at hr
  repeat' split at hr
  all_goals (subst hr; simp)
@[simp] theorem pushEvent_frame (e : Ev) (s : State) :
    (pushEvent e s).pending = s.pending ∧ (pushEvent e s).audio = s.audio ∧ (pushEvent e s).lbox = s.lbox ∧ (pushEvent e s).pins = s.pins ∧ (pushEvent e s).tOffset = s.tOffset ∧ (pushEvent e s).boot = s.boot ∧ (pushEvent e s).chan = s.chan ∧ (pushEvent e s).hbm = s.hbm ∧ (pushEvent e s).glint = s.glint ∧ (pushEvent e s).cond = s.cond ∧ (pushEvent e s).tx = s.tx ∧ (pushEvent e s).corr = s.corr ∧ (pushEvent e s).link = s.link ∧ (pushEvent e s).twin = s.twin ∧ (pushEvent e s).free = s.free ∧ (pushEvent e s).tb = s.tb ∧ (pushEvent e s).now = s.now := by
  generalize hr : pushEvent e s = r
  simp only [pushEvent] at hr
  repeat' split at hr
  all_goals (subst hr; simp)
@[simp] theorem postEvent_frame (code : ℕ) (subject : ℕ) (args : Bytes) (s : State) :
    (postEvent code subject args s).pending = s.pending ∧ (postEvent code subject args s).audio = s.audio ∧ (postEvent code subject args s).lbox = s.lbox ∧ (postEvent code subject args s).pins = s.pins ∧ (postEvent code subject args s).tOffset = s.tOffset ∧ (postEvent code subject args s).boot = s.boot ∧ (postEvent code subject args s).chan = s.chan ∧ (postEvent code subject args s).hbm = s.hbm ∧ (postEvent code subject args s).glint = s.glint ∧ (postEvent code subject args s).cond = s.cond ∧ (postEvent code subject args s).tx = s.tx ∧ (postEvent code subject args s).corr = s.corr ∧ (postEvent code subject args s).link = s.link ∧ (postEvent code subject args s).twin = s.twin ∧ (postEvent code subject args s).free = s.free ∧ (postEvent code subject args s).tb = s.tb ∧ (postEvent code subject args s).now = s.now := by
  simp [postEvent]
@[simp] theorem setUntrusted_frame (bit : ℕ) (s : State) :
    (setUntrusted bit s).pending = s.pending ∧ (setUntrusted bit s).audio = s.audio ∧ (setUntrusted bit s).lbox = s.lbox ∧ (setUntrusted bit s).pins = s.pins ∧ (setUntrusted bit s).tOffset = s.tOffset ∧ (setUntrusted bit s).boot = s.boot ∧ (setUntrusted bit s).chan = s.chan ∧ (setUntrusted bit s).hbm = s.hbm ∧ (setUntrusted bit s).glint = s.glint ∧ (setUntrusted bit s).cond = s.cond ∧ (setUntrusted bit s).tx = s.tx ∧ (setUntrusted bit s).corr = s.corr ∧ (setUntrusted bit s).link = s.link ∧ (setUntrusted bit s).twin = s.twin ∧ (setUntrusted bit s).free = s.free ∧ (setUntrusted bit s).tb = s.tb ∧ (setUntrusted bit s).now = s.now := by
  generalize hr : setUntrusted bit s = r
  simp only [setUntrusted] at hr
  repeat' split at hr
  all_goals (subst hr; simp)
@[simp] theorem spoil_frame (p : Recovery → Bool) (s : State) :
    (spoil p s).pending = s.pending ∧ (spoil p s).audio = s.audio ∧ (spoil p s).lbox = s.lbox ∧ (spoil p s).pins = s.pins ∧ (spoil p s).tOffset = s.tOffset ∧ (spoil p s).boot = s.boot ∧ (spoil p s).chan = s.chan ∧ (spoil p s).hbm = s.hbm ∧ (spoil p s).glint = s.glint ∧ (spoil p s).cond = s.cond ∧ (spoil p s).tx = s.tx ∧ (spoil p s).corr = s.corr ∧ (spoil p s).link = s.link ∧ (spoil p s).free = s.free ∧ (spoil p s).tb = s.tb ∧ (spoil p s).now = s.now := by
  generalize hr : spoil p s = r
  simp only [spoil] at hr
  repeat' split at hr
  all_goals (subst hr; simp)
@[simp] theorem disturb_frame (s : State) :
    (disturb s).pending = s.pending ∧ (disturb s).audio = s.audio ∧ (disturb s).lbox = s.lbox ∧ (disturb s).pins = s.pins ∧ (disturb s).tOffset = s.tOffset ∧ (disturb s).boot = s.boot ∧ (disturb s).chan = s.chan ∧ (disturb s).hbm = s.hbm ∧ (disturb s).glint = s.glint ∧ (disturb s).cond = s.cond ∧ (disturb s).tx = s.tx ∧ (disturb s).corr = s.corr ∧ (disturb s).link = s.link ∧ (disturb s).free = s.free ∧ (disturb s).tb = s.tb ∧ (disturb s).now = s.now := by
  generalize hr : disturb s = r
  simp only [disturb] at hr
  repeat' split at hr
  all_goals (subst hr; simp)
@[simp] theorem noteActs_frame (s : State) :
    (noteActs s).pending = s.pending ∧ (noteActs s).audio = s.audio ∧ (noteActs s).lbox = s.lbox ∧ (noteActs s).pins = s.pins ∧ (noteActs s).tOffset = s.tOffset ∧ (noteActs s).boot = s.boot ∧ (noteActs s).chan = s.chan ∧ (noteActs s).hbm = s.hbm ∧ (noteActs s).glint = s.glint ∧ (noteActs s).cond = s.cond ∧ (noteActs s).tx = s.tx ∧ (noteActs s).corr = s.corr ∧ (noteActs s).link = s.link ∧ (noteActs s).free = s.free ∧ (noteActs s).tb = s.tb ∧ (noteActs s).now = s.now := by
  simp [noteActs]
@[simp] theorem enterAct_frame (T : ℕ) (cfg : Option (ℕ × Option ℕ)) (s : State) :
    (enterAct T cfg s).pending = s.pending ∧ (enterAct T cfg s).audio = s.audio ∧ (enterAct T cfg s).lbox = s.lbox ∧ (enterAct T cfg s).pins = s.pins ∧ (enterAct T cfg s).tOffset = s.tOffset ∧ (enterAct T cfg s).boot = s.boot ∧ (enterAct T cfg s).chan = s.chan ∧ (enterAct T cfg s).hbm = s.hbm ∧ (enterAct T cfg s).glint = s.glint ∧ (enterAct T cfg s).cond = s.cond ∧ (enterAct T cfg s).tx = s.tx ∧ (enterAct T cfg s).corr = s.corr ∧ (enterAct T cfg s).link = s.link ∧ (enterAct T cfg s).mgmt = s.mgmt ∧ (enterAct T cfg s).host = s.host ∧ (enterAct T cfg s).out = s.out ∧ (enterAct T cfg s).free = s.free ∧ (enterAct T cfg s).tb = s.tb ∧ (enterAct T cfg s).now = s.now := by
  simp [enterAct]
@[simp] theorem cfgPutAt_frame (T : ℕ) (kind : ℕ) (id : ℕ) (b : Bytes) (s : State) :
    (cfgPutAt T kind id b s).pending = s.pending ∧ (cfgPutAt T kind id b s).audio = s.audio ∧ (cfgPutAt T kind id b s).lbox = s.lbox ∧ (cfgPutAt T kind id b s).pins = s.pins ∧ (cfgPutAt T kind id b s).tOffset = s.tOffset ∧ (cfgPutAt T kind id b s).boot = s.boot ∧ (cfgPutAt T kind id b s).chan = s.chan ∧ (cfgPutAt T kind id b s).hbm = s.hbm ∧ (cfgPutAt T kind id b s).glint = s.glint ∧ (cfgPutAt T kind id b s).cond = s.cond ∧ (cfgPutAt T kind id b s).tx = s.tx ∧ (cfgPutAt T kind id b s).corr = s.corr ∧ (cfgPutAt T kind id b s).link = s.link ∧ (cfgPutAt T kind id b s).mgmt = s.mgmt ∧ (cfgPutAt T kind id b s).host = s.host ∧ (cfgPutAt T kind id b s).out = s.out ∧ (cfgPutAt T kind id b s).free = s.free ∧ (cfgPutAt T kind id b s).tb = s.tb ∧ (cfgPutAt T kind id b s).now = s.now := by
  simp [cfgPutAt]
@[simp] theorem cfgDelAt_frame (T : ℕ) (kind : ℕ) (id : ℕ) (s : State) :
    (cfgDelAt T kind id s).pending = s.pending ∧ (cfgDelAt T kind id s).audio = s.audio ∧ (cfgDelAt T kind id s).lbox = s.lbox ∧ (cfgDelAt T kind id s).pins = s.pins ∧ (cfgDelAt T kind id s).tOffset = s.tOffset ∧ (cfgDelAt T kind id s).boot = s.boot ∧ (cfgDelAt T kind id s).chan = s.chan ∧ (cfgDelAt T kind id s).hbm = s.hbm ∧ (cfgDelAt T kind id s).glint = s.glint ∧ (cfgDelAt T kind id s).cond = s.cond ∧ (cfgDelAt T kind id s).tx = s.tx ∧ (cfgDelAt T kind id s).corr = s.corr ∧ (cfgDelAt T kind id s).link = s.link ∧ (cfgDelAt T kind id s).mgmt = s.mgmt ∧ (cfgDelAt T kind id s).host = s.host ∧ (cfgDelAt T kind id s).out = s.out ∧ (cfgDelAt T kind id s).free = s.free ∧ (cfgDelAt T kind id s).tb = s.tb ∧ (cfgDelAt T kind id s).now = s.now := by
  simp [cfgDelAt]
@[simp] theorem cfgPut_frame (kind : ℕ) (id : ℕ) (b : Bytes) (s : State) :
    (cfgPut kind id b s).pending = s.pending ∧ (cfgPut kind id b s).audio = s.audio ∧ (cfgPut kind id b s).lbox = s.lbox ∧ (cfgPut kind id b s).pins = s.pins ∧ (cfgPut kind id b s).tOffset = s.tOffset ∧ (cfgPut kind id b s).boot = s.boot ∧ (cfgPut kind id b s).chan = s.chan ∧ (cfgPut kind id b s).hbm = s.hbm ∧ (cfgPut kind id b s).glint = s.glint ∧ (cfgPut kind id b s).cond = s.cond ∧ (cfgPut kind id b s).tx = s.tx ∧ (cfgPut kind id b s).corr = s.corr ∧ (cfgPut kind id b s).link = s.link ∧ (cfgPut kind id b s).mgmt = s.mgmt ∧ (cfgPut kind id b s).host = s.host ∧ (cfgPut kind id b s).out = s.out ∧ (cfgPut kind id b s).free = s.free ∧ (cfgPut kind id b s).tb = s.tb ∧ (cfgPut kind id b s).now = s.now := by
  simp [cfgPut]
@[simp] theorem cfgDel_frame (kind : ℕ) (id : ℕ) (s : State) :
    (cfgDel kind id s).pending = s.pending ∧ (cfgDel kind id s).audio = s.audio ∧ (cfgDel kind id s).lbox = s.lbox ∧ (cfgDel kind id s).pins = s.pins ∧ (cfgDel kind id s).tOffset = s.tOffset ∧ (cfgDel kind id s).boot = s.boot ∧ (cfgDel kind id s).chan = s.chan ∧ (cfgDel kind id s).hbm = s.hbm ∧ (cfgDel kind id s).glint = s.glint ∧ (cfgDel kind id s).cond = s.cond ∧ (cfgDel kind id s).tx = s.tx ∧ (cfgDel kind id s).corr = s.corr ∧ (cfgDel kind id s).link = s.link ∧ (cfgDel kind id s).mgmt = s.mgmt ∧ (cfgDel kind id s).host = s.host ∧ (cfgDel kind id s).out = s.out ∧ (cfgDel kind id s).free = s.free ∧ (cfgDel kind id s).tb = s.tb ∧ (cfgDel kind id s).now = s.now := by
  simp [cfgDel]
@[simp] theorem openWindow_frame (kind : ℕ) (key : ℕ) (start : ℕ) (fin : Option ℕ) (bad : Bool) (s : State) :
    (openWindow kind key start fin bad s).pending = s.pending ∧ (openWindow kind key start fin bad s).audio = s.audio ∧ (openWindow kind key start fin bad s).lbox = s.lbox ∧ (openWindow kind key start fin bad s).pins = s.pins ∧ (openWindow kind key start fin bad s).tOffset = s.tOffset ∧ (openWindow kind key start fin bad s).boot = s.boot ∧ (openWindow kind key start fin bad s).chan = s.chan ∧ (openWindow kind key start fin bad s).hbm = s.hbm ∧ (openWindow kind key start fin bad s).glint = s.glint ∧ (openWindow kind key start fin bad s).cond = s.cond ∧ (openWindow kind key start fin bad s).tx = s.tx ∧ (openWindow kind key start fin bad s).corr = s.corr ∧ (openWindow kind key start fin bad s).link = s.link ∧ (openWindow kind key start fin bad s).free = s.free ∧ (openWindow kind key start fin bad s).tb = s.tb ∧ (openWindow kind key start fin bad s).now = s.now := by
  generalize hr : openWindow kind key start fin bad s = r
  simp only [openWindow] at hr
  repeat' split at hr
  all_goals (subst hr; simp)
@[simp] theorem openRecovery_frame (kind : ℕ) (key : ℕ) (s : State) :
    (openRecovery kind key s).pending = s.pending ∧ (openRecovery kind key s).audio = s.audio ∧ (openRecovery kind key s).lbox = s.lbox ∧ (openRecovery kind key s).pins = s.pins ∧ (openRecovery kind key s).tOffset = s.tOffset ∧ (openRecovery kind key s).boot = s.boot ∧ (openRecovery kind key s).chan = s.chan ∧ (openRecovery kind key s).hbm = s.hbm ∧ (openRecovery kind key s).glint = s.glint ∧ (openRecovery kind key s).cond = s.cond ∧ (openRecovery kind key s).tx = s.tx ∧ (openRecovery kind key s).corr = s.corr ∧ (openRecovery kind key s).link = s.link ∧ (openRecovery kind key s).free = s.free ∧ (openRecovery kind key s).tb = s.tb ∧ (openRecovery kind key s).now = s.now := by
  generalize hr : openRecovery kind key s = r
  simp only [openRecovery] at hr
  repeat' split at hr
  all_goals (subst hr; simp)
@[simp] theorem moveRecovery_frame (kind : ℕ) (key : ℕ) (fin : ℕ) (s : State) :
    (moveRecovery kind key fin s).pending = s.pending ∧ (moveRecovery kind key fin s).audio = s.audio ∧ (moveRecovery kind key fin s).lbox = s.lbox ∧ (moveRecovery kind key fin s).pins = s.pins ∧ (moveRecovery kind key fin s).tOffset = s.tOffset ∧ (moveRecovery kind key fin s).boot = s.boot ∧ (moveRecovery kind key fin s).chan = s.chan ∧ (moveRecovery kind key fin s).hbm = s.hbm ∧ (moveRecovery kind key fin s).glint = s.glint ∧ (moveRecovery kind key fin s).cond = s.cond ∧ (moveRecovery kind key fin s).tx = s.tx ∧ (moveRecovery kind key fin s).corr = s.corr ∧ (moveRecovery kind key fin s).link = s.link ∧ (moveRecovery kind key fin s).mgmt = s.mgmt ∧ (moveRecovery kind key fin s).host = s.host ∧ (moveRecovery kind key fin s).out = s.out ∧ (moveRecovery kind key fin s).free = s.free ∧ (moveRecovery kind key fin s).tb = s.tb ∧ (moveRecovery kind key fin s).now = s.now := by
  simp [moveRecovery]
@[simp] theorem closeRecovery_frame (kind : ℕ) (key : ℕ) (fin : ℕ) (s : State) :
    (closeRecovery kind key fin s).pending = s.pending ∧ (closeRecovery kind key fin s).audio = s.audio ∧ (closeRecovery kind key fin s).lbox = s.lbox ∧ (closeRecovery kind key fin s).pins = s.pins ∧ (closeRecovery kind key fin s).tOffset = s.tOffset ∧ (closeRecovery kind key fin s).boot = s.boot ∧ (closeRecovery kind key fin s).chan = s.chan ∧ (closeRecovery kind key fin s).hbm = s.hbm ∧ (closeRecovery kind key fin s).glint = s.glint ∧ (closeRecovery kind key fin s).cond = s.cond ∧ (closeRecovery kind key fin s).tx = s.tx ∧ (closeRecovery kind key fin s).corr = s.corr ∧ (closeRecovery kind key fin s).link = s.link ∧ (closeRecovery kind key fin s).mgmt = s.mgmt ∧ (closeRecovery kind key fin s).host = s.host ∧ (closeRecovery kind key fin s).out = s.out ∧ (closeRecovery kind key fin s).free = s.free ∧ (closeRecovery kind key fin s).tb = s.tb ∧ (closeRecovery kind key fin s).now = s.now := by
  simp [closeRecovery]
@[simp] theorem writeCompl_frame (c : Compl) (s : State) :
    (writeCompl c s).pending = s.pending ∧ (writeCompl c s).audio = s.audio ∧ (writeCompl c s).lbox = s.lbox ∧ (writeCompl c s).pins = s.pins ∧ (writeCompl c s).tOffset = s.tOffset ∧ (writeCompl c s).boot = s.boot ∧ (writeCompl c s).chan = s.chan ∧ (writeCompl c s).hbm = s.hbm ∧ (writeCompl c s).glint = s.glint ∧ (writeCompl c s).cond = s.cond ∧ (writeCompl c s).tx = s.tx ∧ (writeCompl c s).corr = s.corr ∧ (writeCompl c s).link = s.link ∧ (writeCompl c s).twin = s.twin ∧ (writeCompl c s).mgmt = s.mgmt ∧ (writeCompl c s).free = s.free ∧ (writeCompl c s).tb = s.tb ∧ (writeCompl c s).now = s.now := by
  simp [writeCompl]
@[simp] theorem flushOwedN_frame (a : ℕ) (a1 : State) :
    (flushOwedN a a1).pending = a1.pending ∧ (flushOwedN a a1).audio = a1.audio ∧ (flushOwedN a a1).lbox = a1.lbox ∧ (flushOwedN a a1).pins = a1.pins ∧ (flushOwedN a a1).tOffset = a1.tOffset ∧ (flushOwedN a a1).boot = a1.boot ∧ (flushOwedN a a1).chan = a1.chan ∧ (flushOwedN a a1).hbm = a1.hbm ∧ (flushOwedN a a1).glint = a1.glint ∧ (flushOwedN a a1).cond = a1.cond ∧ (flushOwedN a a1).tx = a1.tx ∧ (flushOwedN a a1).corr = a1.corr ∧ (flushOwedN a a1).link = a1.link ∧ (flushOwedN a a1).twin = a1.twin ∧ (flushOwedN a a1).mgmt = a1.mgmt ∧ (flushOwedN a a1).free = a1.free ∧ (flushOwedN a a1).tb = a1.tb ∧ (flushOwedN a a1).now = a1.now := by
  induction a generalizing a1 with
  | zero => simp [flushOwedN]
  | succ n ih =>
    generalize hr : flushOwedN (n + 1) a1 = r
    simp only [flushOwedN] at hr
    repeat' (first | split at hr)
    all_goals (subst hr; simp [ih])
@[simp] theorem flushOwed_frame (s : State) :
    (flushOwed s).pending = s.pending ∧ (flushOwed s).audio = s.audio ∧ (flushOwed s).lbox = s.lbox ∧ (flushOwed s).pins = s.pins ∧ (flushOwed s).tOffset = s.tOffset ∧ (flushOwed s).boot = s.boot ∧ (flushOwed s).chan = s.chan ∧ (flushOwed s).hbm = s.hbm ∧ (flushOwed s).glint = s.glint ∧ (flushOwed s).cond = s.cond ∧ (flushOwed s).tx = s.tx ∧ (flushOwed s).corr = s.corr ∧ (flushOwed s).link = s.link ∧ (flushOwed s).twin = s.twin ∧ (flushOwed s).mgmt = s.mgmt ∧ (flushOwed s).free = s.free ∧ (flushOwed s).tb = s.tb ∧ (flushOwed s).now = s.now := by
  simp [flushOwed]
@[simp] theorem completeWith_frame (d : Desc) (status : ℕ) (info : ℕ) (result : Option Bytes) (s : State) :
    (completeWith d status info result s).pending = s.pending ∧ (completeWith d status info result s).audio = s.audio ∧ (completeWith d status info result s).lbox = s.lbox ∧ (completeWith d status info result s).pins = s.pins ∧ (completeWith d status info result s).tOffset = s.tOffset ∧ (completeWith d status info result s).boot = s.boot ∧ (completeWith d status info result s).chan = s.chan ∧ (completeWith d status info result s).hbm = s.hbm ∧ (completeWith d status info result s).glint = s.glint ∧ (completeWith d status info result s).cond = s.cond ∧ (completeWith d status info result s).tx = s.tx ∧ (completeWith d status info result s).corr = s.corr ∧ (completeWith d status info result s).link = s.link ∧ (completeWith d status info result s).twin = s.twin ∧ (completeWith d status info result s).mgmt = s.mgmt ∧ (completeWith d status info result s).free = s.free ∧ (completeWith d status info result s).tb = s.tb ∧ (completeWith d status info result s).now = s.now := by
  simp [completeWith]
@[simp] theorem complete_frame (d : Desc) (status : ℕ) (info : ℕ) (s : State) :
    (complete d status info s).pending = s.pending ∧ (complete d status info s).audio = s.audio ∧ (complete d status info s).lbox = s.lbox ∧ (complete d status info s).pins = s.pins ∧ (complete d status info s).tOffset = s.tOffset ∧ (complete d status info s).boot = s.boot ∧ (complete d status info s).chan = s.chan ∧ (complete d status info s).hbm = s.hbm ∧ (complete d status info s).glint = s.glint ∧ (complete d status info s).cond = s.cond ∧ (complete d status info s).tx = s.tx ∧ (complete d status info s).corr = s.corr ∧ (complete d status info s).link = s.link ∧ (complete d status info s).twin = s.twin ∧ (complete d status info s).mgmt = s.mgmt ∧ (complete d status info s).free = s.free ∧ (complete d status info s).tb = s.tb ∧ (complete d status info s).now = s.now := by
  simp [complete]
@[simp] theorem addDigest_frame (cls : ℕ) (aux : ℕ) (subject : ℕ) (digest : ℕ) (lo : ℕ) (s : State) :
    (addDigest cls aux subject digest lo s).pending = s.pending ∧ (addDigest cls aux subject digest lo s).audio = s.audio ∧ (addDigest cls aux subject digest lo s).lbox = s.lbox ∧ (addDigest cls aux subject digest lo s).pins = s.pins ∧ (addDigest cls aux subject digest lo s).tOffset = s.tOffset ∧ (addDigest cls aux subject digest lo s).boot = s.boot ∧ (addDigest cls aux subject digest lo s).chan = s.chan ∧ (addDigest cls aux subject digest lo s).hbm = s.hbm ∧ (addDigest cls aux subject digest lo s).glint = s.glint ∧ (addDigest cls aux subject digest lo s).cond = s.cond ∧ (addDigest cls aux subject digest lo s).tx = s.tx ∧ (addDigest cls aux subject digest lo s).corr = s.corr ∧ (addDigest cls aux subject digest lo s).link = s.link ∧ (addDigest cls aux subject digest lo s).mgmt = s.mgmt ∧ (addDigest cls aux subject digest lo s).host = s.host ∧ (addDigest cls aux subject digest lo s).out = s.out ∧ (addDigest cls aux subject digest lo s).free = s.free ∧ (addDigest cls aux subject digest lo s).tb = s.tb ∧ (addDigest cls aux subject digest lo s).now = s.now := by
  generalize hr : addDigest cls aux subject digest lo s = r
  simp only [addDigest] at hr
  repeat' split at hr
  all_goals (subst hr; simp)
@[simp] theorem setOutlet_frame (o : Outlet) (x : OutletState) (s : State) :
    (setOutlet o x s).pending = s.pending ∧ (setOutlet o x s).audio = s.audio ∧ (setOutlet o x s).lbox = s.lbox ∧ (setOutlet o x s).pins = s.pins ∧ (setOutlet o x s).tOffset = s.tOffset ∧ (setOutlet o x s).boot = s.boot ∧ (setOutlet o x s).chan = s.chan ∧ (setOutlet o x s).hbm = s.hbm ∧ (setOutlet o x s).glint = s.glint ∧ (setOutlet o x s).cond = s.cond ∧ (setOutlet o x s).tx = s.tx ∧ (setOutlet o x s).corr = s.corr ∧ (setOutlet o x s).link = s.link ∧ (setOutlet o x s).twin = s.twin ∧ (setOutlet o x s).mgmt = s.mgmt ∧ (setOutlet o x s).out = s.out ∧ (setOutlet o x s).free = s.free ∧ (setOutlet o x s).tb = s.tb ∧ (setOutlet o x s).now = s.now := by
  simp [setOutlet]
@[simp] theorem dropAt_frame (o : Outlet) (binding : ℕ) (seq : ℕ) (time : ℕ) (cause : ℕ) (s : State) :
    (dropAt o binding seq time cause s).pending = s.pending ∧ (dropAt o binding seq time cause s).audio = s.audio ∧ (dropAt o binding seq time cause s).lbox = s.lbox ∧ (dropAt o binding seq time cause s).pins = s.pins ∧ (dropAt o binding seq time cause s).tOffset = s.tOffset ∧ (dropAt o binding seq time cause s).boot = s.boot ∧ (dropAt o binding seq time cause s).chan = s.chan ∧ (dropAt o binding seq time cause s).hbm = s.hbm ∧ (dropAt o binding seq time cause s).glint = s.glint ∧ (dropAt o binding seq time cause s).cond = s.cond ∧ (dropAt o binding seq time cause s).tx = s.tx ∧ (dropAt o binding seq time cause s).corr = s.corr ∧ (dropAt o binding seq time cause s).link = s.link ∧ (dropAt o binding seq time cause s).twin = s.twin ∧ (dropAt o binding seq time cause s).mgmt = s.mgmt ∧ (dropAt o binding seq time cause s).out = s.out ∧ (dropAt o binding seq time cause s).free = s.free ∧ (dropAt o binding seq time cause s).tb = s.tb ∧ (dropAt o binding seq time cause s).now = s.now := by
  simp [dropAt]
@[simp] theorem digestPhase_frame (binding : ℕ) (seq : ℕ) (phase : ℕ) (agree : ℕ) (bytes : Bytes) (s : State) :
    (digestPhase binding seq phase agree bytes s).pending = s.pending ∧ (digestPhase binding seq phase agree bytes s).audio = s.audio ∧ (digestPhase binding seq phase agree bytes s).lbox = s.lbox ∧ (digestPhase binding seq phase agree bytes s).pins = s.pins ∧ (digestPhase binding seq phase agree bytes s).tOffset = s.tOffset ∧ (digestPhase binding seq phase agree bytes s).boot = s.boot ∧ (digestPhase binding seq phase agree bytes s).chan = s.chan ∧ (digestPhase binding seq phase agree bytes s).hbm = s.hbm ∧ (digestPhase binding seq phase agree bytes s).glint = s.glint ∧ (digestPhase binding seq phase agree bytes s).cond = s.cond ∧ (digestPhase binding seq phase agree bytes s).tx = s.tx ∧ (digestPhase binding seq phase agree bytes s).corr = s.corr ∧ (digestPhase binding seq phase agree bytes s).link = s.link ∧ (digestPhase binding seq phase agree bytes s).mgmt = s.mgmt ∧ (digestPhase binding seq phase agree bytes s).host = s.host ∧ (digestPhase binding seq phase agree bytes s).out = s.out ∧ (digestPhase binding seq phase agree bytes s).free = s.free ∧ (digestPhase binding seq phase agree bytes s).tb = s.tb ∧ (digestPhase binding seq phase agree bytes s).now = s.now := by
  generalize hr : digestPhase binding seq phase agree bytes s = r
  simp only [digestPhase] at hr
  repeat' split at hr
  all_goals (subst hr; simp)
@[simp] theorem releaseStaged_frame (id : ℕ) (o : Outlet) (s : State) :
    (releaseStaged id o s).pending = s.pending ∧ (releaseStaged id o s).audio = s.audio ∧ (releaseStaged id o s).lbox = s.lbox ∧ (releaseStaged id o s).pins = s.pins ∧ (releaseStaged id o s).tOffset = s.tOffset ∧ (releaseStaged id o s).boot = s.boot ∧ (releaseStaged id o s).chan = s.chan ∧ (releaseStaged id o s).hbm = s.hbm ∧ (releaseStaged id o s).glint = s.glint ∧ (releaseStaged id o s).cond = s.cond ∧ (releaseStaged id o s).tx = s.tx ∧ (releaseStaged id o s).corr = s.corr ∧ (releaseStaged id o s).link = s.link ∧ (releaseStaged id o s).twin = s.twin ∧ (releaseStaged id o s).mgmt = s.mgmt ∧ (releaseStaged id o s).out = s.out ∧ (releaseStaged id o s).free = s.free ∧ (releaseStaged id o s).tb = s.tb ∧ (releaseStaged id o s).now = s.now := by
  generalize hr : releaseStaged id o s = r
  simp only [releaseStaged] at hr
  repeat' split at hr
  all_goals (subst hr; simp)
@[simp] theorem offer_frame (id : ℕ) (r : Staged) (o : Outlet) (s : State) :
    (offer id r o s).pending = s.pending ∧ (offer id r o s).audio = s.audio ∧ (offer id r o s).lbox = s.lbox ∧ (offer id r o s).pins = s.pins ∧ (offer id r o s).tOffset = s.tOffset ∧ (offer id r o s).boot = s.boot ∧ (offer id r o s).chan = s.chan ∧ (offer id r o s).hbm = s.hbm ∧ (offer id r o s).glint = s.glint ∧ (offer id r o s).cond = s.cond ∧ (offer id r o s).tx = s.tx ∧ (offer id r o s).corr = s.corr ∧ (offer id r o s).link = s.link ∧ (offer id r o s).twin = s.twin ∧ (offer id r o s).mgmt = s.mgmt ∧ (offer id r o s).out = s.out ∧ (offer id r o s).free = s.free ∧ (offer id r o s).tb = s.tb ∧ (offer id r o s).now = s.now := by
  generalize hr : offer id r o s = r
  simp only [offer] at hr
  repeat' split at hr
  all_goals (subst hr; simp)
@[simp] theorem shadowDiscard_frame (id : ℕ) (r : Staged) (s : State) :
    (shadowDiscard id r s).pending = s.pending ∧ (shadowDiscard id r s).audio = s.audio ∧ (shadowDiscard id r s).lbox = s.lbox ∧ (shadowDiscard id r s).pins = s.pins ∧ (shadowDiscard id r s).tOffset = s.tOffset ∧ (shadowDiscard id r s).boot = s.boot ∧ (shadowDiscard id r s).chan = s.chan ∧ (shadowDiscard id r s).hbm = s.hbm ∧ (shadowDiscard id r s).glint = s.glint ∧ (shadowDiscard id r s).cond = s.cond ∧ (shadowDiscard id r s).tx = s.tx ∧ (shadowDiscard id r s).corr = s.corr ∧ (shadowDiscard id r s).link = s.link ∧ (shadowDiscard id r s).mgmt = s.mgmt ∧ (shadowDiscard id r s).out = s.out ∧ (shadowDiscard id r s).free = s.free ∧ (shadowDiscard id r s).tb = s.tb ∧ (shadowDiscard id r s).now = s.now := by
  simp [shadowDiscard]
@[simp] theorem shadowRoomN_frame (a : ℕ) (n : ℕ) (a2 : List Outlet) (a3 : State) :
    (shadowRoomN a n a2 a3).pending = a3.pending ∧ (shadowRoomN a n a2 a3).audio = a3.audio ∧ (shadowRoomN a n a2 a3).lbox = a3.lbox ∧ (shadowRoomN a n a2 a3).pins = a3.pins ∧ (shadowRoomN a n a2 a3).tOffset = a3.tOffset ∧ (shadowRoomN a n a2 a3).boot = a3.boot ∧ (shadowRoomN a n a2 a3).chan = a3.chan ∧ (shadowRoomN a n a2 a3).hbm = a3.hbm ∧ (shadowRoomN a n a2 a3).glint = a3.glint ∧ (shadowRoomN a n a2 a3).cond = a3.cond ∧ (shadowRoomN a n a2 a3).tx = a3.tx ∧ (shadowRoomN a n a2 a3).corr = a3.corr ∧ (shadowRoomN a n a2 a3).link = a3.link ∧ (shadowRoomN a n a2 a3).mgmt = a3.mgmt ∧ (shadowRoomN a n a2 a3).out = a3.out ∧ (shadowRoomN a n a2 a3).free = a3.free ∧ (shadowRoomN a n a2 a3).tb = a3.tb ∧ (shadowRoomN a n a2 a3).now = a3.now := by
  induction a generalizing a3 with
  | zero => simp [shadowRoomN]
  | succ k ih =>
    unfold shadowRoomN
    split
    · simp [ih]
    · simp
@[simp] theorem shadowRoom_frame (n : ℕ) (outs : List Outlet) (s : State) :
    (shadowRoom n outs s).pending = s.pending ∧ (shadowRoom n outs s).audio = s.audio ∧ (shadowRoom n outs s).lbox = s.lbox ∧ (shadowRoom n outs s).pins = s.pins ∧ (shadowRoom n outs s).tOffset = s.tOffset ∧ (shadowRoom n outs s).boot = s.boot ∧ (shadowRoom n outs s).chan = s.chan ∧ (shadowRoom n outs s).hbm = s.hbm ∧ (shadowRoom n outs s).glint = s.glint ∧ (shadowRoom n outs s).cond = s.cond ∧ (shadowRoom n outs s).tx = s.tx ∧ (shadowRoom n outs s).corr = s.corr ∧ (shadowRoom n outs s).link = s.link ∧ (shadowRoom n outs s).mgmt = s.mgmt ∧ (shadowRoom n outs s).out = s.out ∧ (shadowRoom n outs s).free = s.free ∧ (shadowRoom n outs s).tb = s.tb ∧ (shadowRoom n outs s).now = s.now := by
  generalize hr : shadowRoom n outs s = r
  simp only [shadowRoom] at hr
  repeat' split at hr
  all_goals (subst hr; simp)
@[simp] theorem applyReplacement_frame (cls : ℕ) (source : ℕ) (s : State) :
    (applyReplacement cls source s).pending = s.pending ∧ (applyReplacement cls source s).audio = s.audio ∧ (applyReplacement cls source s).lbox = s.lbox ∧ (applyReplacement cls source s).pins = s.pins ∧ (applyReplacement cls source s).tOffset = s.tOffset ∧ (applyReplacement cls source s).boot = s.boot ∧ (applyReplacement cls source s).chan = s.chan ∧ (applyReplacement cls source s).hbm = s.hbm ∧ (applyReplacement cls source s).glint = s.glint ∧ (applyReplacement cls source s).cond = s.cond ∧ (applyReplacement cls source s).tx = s.tx ∧ (applyReplacement cls source s).corr = s.corr ∧ (applyReplacement cls source s).link = s.link ∧ (applyReplacement cls source s).mgmt = s.mgmt ∧ (applyReplacement cls source s).out = s.out ∧ (applyReplacement cls source s).free = s.free ∧ (applyReplacement cls source s).tb = s.tb ∧ (applyReplacement cls source s).now = s.now := by
  generalize hr : applyReplacement cls source s = r
  simp only [applyReplacement] at hr
  repeat' split at hr
  all_goals (subst hr; simp)
@[simp] theorem formRecordBut_frame (denied : List Outlet) (time : ℕ) (at_ : ℕ) (r : RecSpec) (s : State) :
    (formRecordBut denied time at_ r s).pending = s.pending ∧ (formRecordBut denied time at_ r s).audio = s.audio ∧ (formRecordBut denied time at_ r s).lbox = s.lbox ∧ (formRecordBut denied time at_ r s).pins = s.pins ∧ (formRecordBut denied time at_ r s).tOffset = s.tOffset ∧ (formRecordBut denied time at_ r s).boot = s.boot ∧ (formRecordBut denied time at_ r s).chan = s.chan ∧ (formRecordBut denied time at_ r s).glint = s.glint ∧ (formRecordBut denied time at_ r s).cond = s.cond ∧ (formRecordBut denied time at_ r s).tx = s.tx ∧ (formRecordBut denied time at_ r s).corr = s.corr ∧ (formRecordBut denied time at_ r s).link = s.link ∧ (formRecordBut denied time at_ r s).out = s.out ∧ (formRecordBut denied time at_ r s).tb = s.tb ∧ (formRecordBut denied time at_ r s).now = s.now := by
  unfold formRecordBut
  split
  · simp
  · extract_lets
    split
    · simp +zetaDelta
    · extract_lets
      rename_i s6 s7 s8 s9
      have hf : s9.pending = s8.pending ∧ s9.audio = s8.audio ∧ s9.lbox = s8.lbox ∧ s9.pins = s8.pins ∧ s9.tOffset = s8.tOffset ∧ s9.boot = s8.boot ∧ s9.chan = s8.chan ∧ s9.glint = s8.glint ∧ s9.cond = s8.cond ∧ s9.tx = s8.tx ∧ s9.corr = s8.corr ∧ s9.link = s8.link ∧ s9.out = s8.out ∧ s9.tb = s8.tb ∧ s9.now = s8.now := by
        refine ⟨foldl_pending _ _ _ fun s a => ?_, foldl_audio _ _ _ fun s a => ?_, foldl_lbox _ _ _ fun s a => ?_, foldl_pins _ _ _ fun s a => ?_, foldl_tOffset _ _ _ fun s a => ?_, foldl_boot _ _ _ fun s a => ?_, foldl_chan _ _ _ fun s a => ?_, foldl_glint _ _ _ fun s a => ?_, foldl_cond _ _ _ fun s a => ?_, foldl_tx _ _ _ fun s a => ?_, foldl_corr _ _ _ fun s a => ?_, foldl_link _ _ _ fun s a => ?_, foldl_out _ _ _ fun s a => ?_, foldl_tb _ _ _ fun s a => ?_, foldl_now _ _ _ fun s a => ?_⟩
        all_goals (split <;> simp)
      split
      · simp only [hf]
        simp +zetaDelta
      · simp only [digestPhase_frame, hf]
        simp +zetaDelta
@[simp] theorem formRecordAt_frame (time : ℕ) (at_ : ℕ) (r : RecSpec) (s : State) :
    (formRecordAt time at_ r s).pending = s.pending ∧ (formRecordAt time at_ r s).audio = s.audio ∧ (formRecordAt time at_ r s).lbox = s.lbox ∧ (formRecordAt time at_ r s).pins = s.pins ∧ (formRecordAt time at_ r s).tOffset = s.tOffset ∧ (formRecordAt time at_ r s).boot = s.boot ∧ (formRecordAt time at_ r s).chan = s.chan ∧ (formRecordAt time at_ r s).glint = s.glint ∧ (formRecordAt time at_ r s).cond = s.cond ∧ (formRecordAt time at_ r s).tx = s.tx ∧ (formRecordAt time at_ r s).corr = s.corr ∧ (formRecordAt time at_ r s).link = s.link ∧ (formRecordAt time at_ r s).out = s.out ∧ (formRecordAt time at_ r s).tb = s.tb ∧ (formRecordAt time at_ r s).now = s.now := by
  generalize hr : formRecordAt time at_ r s = r
  simp only [formRecordAt] at hr
  repeat' split at hr
  all_goals (subst hr; simp)
@[simp] theorem formRecord_frame (r : RecSpec) (s : State) :
    (formRecord r s).pending = s.pending ∧ (formRecord r s).audio = s.audio ∧ (formRecord r s).lbox = s.lbox ∧ (formRecord r s).pins = s.pins ∧ (formRecord r s).tOffset = s.tOffset ∧ (formRecord r s).boot = s.boot ∧ (formRecord r s).chan = s.chan ∧ (formRecord r s).glint = s.glint ∧ (formRecord r s).cond = s.cond ∧ (formRecord r s).tx = s.tx ∧ (formRecord r s).corr = s.corr ∧ (formRecord r s).link = s.link ∧ (formRecord r s).out = s.out ∧ (formRecord r s).tb = s.tb ∧ (formRecord r s).now = s.now := by
  simp [formRecord]
@[simp] theorem setQuad_frame (q : ℕ) (x : QuadState) (s : State) :
    (setQuad q x s).pending = s.pending ∧ (setQuad q x s).audio = s.audio ∧ (setQuad q x s).lbox = s.lbox ∧ (setQuad q x s).pins = s.pins ∧ (setQuad q x s).tOffset = s.tOffset ∧ (setQuad q x s).boot = s.boot ∧ (setQuad q x s).chan = s.chan ∧ (setQuad q x s).hbm = s.hbm ∧ (setQuad q x s).glint = s.glint ∧ (setQuad q x s).cond = s.cond ∧ (setQuad q x s).tx = s.tx ∧ (setQuad q x s).corr = s.corr ∧ (setQuad q x s).twin = s.twin ∧ (setQuad q x s).mgmt = s.mgmt ∧ (setQuad q x s).host = s.host ∧ (setQuad q x s).out = s.out ∧ (setQuad q x s).free = s.free ∧ (setQuad q x s).tb = s.tb ∧ (setQuad q x s).now = s.now := by
  simp [setQuad]
@[simp] theorem putOn_frame (q : ℕ) (s : State) (x : LaneOut) :
    (putOn q s x).pending = s.pending ∧ (putOn q s x).audio = s.audio ∧ (putOn q s x).lbox = s.lbox ∧ (putOn q s x).pins = s.pins ∧ (putOn q s x).tOffset = s.tOffset ∧ (putOn q s x).boot = s.boot ∧ (putOn q s x).chan = s.chan ∧ (putOn q s x).hbm = s.hbm ∧ (putOn q s x).glint = s.glint ∧ (putOn q s x).cond = s.cond ∧ (putOn q s x).tx = s.tx ∧ (putOn q s x).corr = s.corr ∧ (putOn q s x).twin = s.twin ∧ (putOn q s x).mgmt = s.mgmt ∧ (putOn q s x).host = s.host ∧ (putOn q s x).free = s.free ∧ (putOn q s x).tb = s.tb ∧ (putOn q s x).now = s.now := by
  simp [putOn]
@[simp] theorem sendOn_frame (q : ℕ) (at_ : ℕ) (x : LaneOut) (s : State) :
    (sendOn q at_ x s).pending = s.pending ∧ (sendOn q at_ x s).audio = s.audio ∧ (sendOn q at_ x s).lbox = s.lbox ∧ (sendOn q at_ x s).pins = s.pins ∧ (sendOn q at_ x s).tOffset = s.tOffset ∧ (sendOn q at_ x s).boot = s.boot ∧ (sendOn q at_ x s).chan = s.chan ∧ (sendOn q at_ x s).hbm = s.hbm ∧ (sendOn q at_ x s).glint = s.glint ∧ (sendOn q at_ x s).cond = s.cond ∧ (sendOn q at_ x s).tx = s.tx ∧ (sendOn q at_ x s).corr = s.corr ∧ (sendOn q at_ x s).twin = s.twin ∧ (sendOn q at_ x s).host = s.host ∧ (sendOn q at_ x s).free = s.free ∧ (sendOn q at_ x s).tb = s.tb ∧ (sendOn q at_ x s).now = s.now := by
  generalize hr : sendOn q at_ x s = r
  simp only [sendOn] at hr
  repeat' split at hr
  all_goals (subst hr; simp)
@[simp] theorem frameTaken_frame (q : ℕ) (s : State) :
    (frameTaken q s).pending = s.pending ∧ (frameTaken q s).audio = s.audio ∧ (frameTaken q s).lbox = s.lbox ∧ (frameTaken q s).pins = s.pins ∧ (frameTaken q s).tOffset = s.tOffset ∧ (frameTaken q s).boot = s.boot ∧ (frameTaken q s).chan = s.chan ∧ (frameTaken q s).hbm = s.hbm ∧ (frameTaken q s).glint = s.glint ∧ (frameTaken q s).cond = s.cond ∧ (frameTaken q s).tx = s.tx ∧ (frameTaken q s).corr = s.corr ∧ (frameTaken q s).link = s.link ∧ (frameTaken q s).twin = s.twin ∧ (frameTaken q s).host = s.host ∧ (frameTaken q s).out = s.out ∧ (frameTaken q s).free = s.free ∧ (frameTaken q s).tb = s.tb ∧ (frameTaken q s).now = s.now := by
  simp [frameTaken]
@[simp] theorem emitOn_frame (q : ℕ) (x : LaneOut) (s : State) :
    (emitOn q x s).pending = s.pending ∧ (emitOn q x s).audio = s.audio ∧ (emitOn q x s).lbox = s.lbox ∧ (emitOn q x s).pins = s.pins ∧ (emitOn q x s).tOffset = s.tOffset ∧ (emitOn q x s).boot = s.boot ∧ (emitOn q x s).chan = s.chan ∧ (emitOn q x s).hbm = s.hbm ∧ (emitOn q x s).glint = s.glint ∧ (emitOn q x s).cond = s.cond ∧ (emitOn q x s).tx = s.tx ∧ (emitOn q x s).corr = s.corr ∧ (emitOn q x s).twin = s.twin ∧ (emitOn q x s).host = s.host ∧ (emitOn q x s).free = s.free ∧ (emitOn q x s).tb = s.tb ∧ (emitOn q x s).now = s.now := by
  generalize hr : emitOn q x s = r
  simp only [emitOn] at hr
  repeat' split at hr
  all_goals (subst hr; simp)
@[simp] theorem noteLink_frame (q : ℕ) (s : State) :
    (noteLink q s).pending = s.pending ∧ (noteLink q s).audio = s.audio ∧ (noteLink q s).lbox = s.lbox ∧ (noteLink q s).pins = s.pins ∧ (noteLink q s).tOffset = s.tOffset ∧ (noteLink q s).boot = s.boot ∧ (noteLink q s).chan = s.chan ∧ (noteLink q s).hbm = s.hbm ∧ (noteLink q s).glint = s.glint ∧ (noteLink q s).tx = s.tx ∧ (noteLink q s).corr = s.corr ∧ (noteLink q s).link = s.link ∧ (noteLink q s).twin = s.twin ∧ (noteLink q s).mgmt = s.mgmt ∧ (noteLink q s).host = s.host ∧ (noteLink q s).out = s.out ∧ (noteLink q s).free = s.free ∧ (noteLink q s).tb = s.tb ∧ (noteLink q s).now = s.now := by
  simp [noteLink]
@[simp] theorem setLane_frame (l : ℕ) (x : LaneState) (s : State) :
    (setLane l x s).pending = s.pending ∧ (setLane l x s).audio = s.audio ∧ (setLane l x s).lbox = s.lbox ∧ (setLane l x s).pins = s.pins ∧ (setLane l x s).tOffset = s.tOffset ∧ (setLane l x s).boot = s.boot ∧ (setLane l x s).chan = s.chan ∧ (setLane l x s).hbm = s.hbm ∧ (setLane l x s).glint = s.glint ∧ (setLane l x s).cond = s.cond ∧ (setLane l x s).tx = s.tx ∧ (setLane l x s).corr = s.corr ∧ (setLane l x s).twin = s.twin ∧ (setLane l x s).mgmt = s.mgmt ∧ (setLane l x s).host = s.host ∧ (setLane l x s).out = s.out ∧ (setLane l x s).free = s.free ∧ (setLane l x s).tb = s.tb ∧ (setLane l x s).now = s.now := by
  simp [setLane]
@[simp] theorem sendCredit_frame (q : ℕ) (vc : ℕ) (s : State) :
    (sendCredit q vc s).pending = s.pending ∧ (sendCredit q vc s).audio = s.audio ∧ (sendCredit q vc s).lbox = s.lbox ∧ (sendCredit q vc s).pins = s.pins ∧ (sendCredit q vc s).tOffset = s.tOffset ∧ (sendCredit q vc s).boot = s.boot ∧ (sendCredit q vc s).chan = s.chan ∧ (sendCredit q vc s).hbm = s.hbm ∧ (sendCredit q vc s).glint = s.glint ∧ (sendCredit q vc s).cond = s.cond ∧ (sendCredit q vc s).tx = s.tx ∧ (sendCredit q vc s).corr = s.corr ∧ (sendCredit q vc s).twin = s.twin ∧ (sendCredit q vc s).host = s.host ∧ (sendCredit q vc s).free = s.free ∧ (sendCredit q vc s).tb = s.tb ∧ (sendCredit q vc s).now = s.now := by
  simp [sendCredit]
@[simp] theorem countDiscard_frame (dest : ℕ) (s : State) :
    (countDiscard dest s).pending = s.pending ∧ (countDiscard dest s).audio = s.audio ∧ (countDiscard dest s).lbox = s.lbox ∧ (countDiscard dest s).pins = s.pins ∧ (countDiscard dest s).tOffset = s.tOffset ∧ (countDiscard dest s).boot = s.boot ∧ (countDiscard dest s).chan = s.chan ∧ (countDiscard dest s).hbm = s.hbm ∧ (countDiscard dest s).glint = s.glint ∧ (countDiscard dest s).cond = s.cond ∧ (countDiscard dest s).tx = s.tx ∧ (countDiscard dest s).corr = s.corr ∧ (countDiscard dest s).twin = s.twin ∧ (countDiscard dest s).mgmt = s.mgmt ∧ (countDiscard dest s).host = s.host ∧ (countDiscard dest s).out = s.out ∧ (countDiscard dest s).free = s.free ∧ (countDiscard dest s).tb = s.tb ∧ (countDiscard dest s).now = s.now := by
  simp [countDiscard]
@[simp] theorem returnCredit_frame (q : ℕ) (vc : ℕ) (n : ℕ) (s : State) :
    (returnCredit q vc n s).pending = s.pending ∧ (returnCredit q vc n s).audio = s.audio ∧ (returnCredit q vc n s).lbox = s.lbox ∧ (returnCredit q vc n s).pins = s.pins ∧ (returnCredit q vc n s).tOffset = s.tOffset ∧ (returnCredit q vc n s).boot = s.boot ∧ (returnCredit q vc n s).chan = s.chan ∧ (returnCredit q vc n s).hbm = s.hbm ∧ (returnCredit q vc n s).glint = s.glint ∧ (returnCredit q vc n s).cond = s.cond ∧ (returnCredit q vc n s).tx = s.tx ∧ (returnCredit q vc n s).corr = s.corr ∧ (returnCredit q vc n s).twin = s.twin ∧ (returnCredit q vc n s).host = s.host ∧ (returnCredit q vc n s).free = s.free ∧ (returnCredit q vc n s).tb = s.tb ∧ (returnCredit q vc n s).now = s.now := by
  simp [returnCredit]
@[simp] theorem lateNotice_frame (q : ℕ) (cause : ℕ) (seq : ℕ) (s : State) :
    (lateNotice q cause seq s).pending = s.pending ∧ (lateNotice q cause seq s).audio = s.audio ∧ (lateNotice q cause seq s).lbox = s.lbox ∧ (lateNotice q cause seq s).pins = s.pins ∧ (lateNotice q cause seq s).tOffset = s.tOffset ∧ (lateNotice q cause seq s).boot = s.boot ∧ (lateNotice q cause seq s).chan = s.chan ∧ (lateNotice q cause seq s).hbm = s.hbm ∧ (lateNotice q cause seq s).glint = s.glint ∧ (lateNotice q cause seq s).cond = s.cond ∧ (lateNotice q cause seq s).tx = s.tx ∧ (lateNotice q cause seq s).corr = s.corr ∧ (lateNotice q cause seq s).twin = s.twin ∧ (lateNotice q cause seq s).host = s.host ∧ (lateNotice q cause seq s).free = s.free ∧ (lateNotice q cause seq s).tb = s.tb ∧ (lateNotice q cause seq s).now = s.now := by
  generalize hr : lateNotice q cause seq s = r
  simp only [lateNotice] at hr
  repeat' split at hr
  all_goals (subst hr; simp)
@[simp] theorem dropFwd_frame (routeLost : Bool) (id : ℕ) (s : State) :
    (dropFwd routeLost id s).pending = s.pending ∧ (dropFwd routeLost id s).audio = s.audio ∧ (dropFwd routeLost id s).lbox = s.lbox ∧ (dropFwd routeLost id s).pins = s.pins ∧ (dropFwd routeLost id s).tOffset = s.tOffset ∧ (dropFwd routeLost id s).boot = s.boot ∧ (dropFwd routeLost id s).chan = s.chan ∧ (dropFwd routeLost id s).hbm = s.hbm ∧ (dropFwd routeLost id s).glint = s.glint ∧ (dropFwd routeLost id s).cond = s.cond ∧ (dropFwd routeLost id s).tx = s.tx ∧ (dropFwd routeLost id s).corr = s.corr ∧ (dropFwd routeLost id s).twin = s.twin ∧ (dropFwd routeLost id s).host = s.host ∧ (dropFwd routeLost id s).free = s.free ∧ (dropFwd routeLost id s).tb = s.tb ∧ (dropFwd routeLost id s).now = s.now := by
  generalize hr : dropFwd routeLost id s = r
  simp only [dropFwd] at hr
  repeat' split at hr
  all_goals (subst hr; simp)
@[simp] theorem dropFwds_frame (q : ℕ) (s : State) :
    (dropFwds q s).pending = s.pending ∧ (dropFwds q s).audio = s.audio ∧ (dropFwds q s).lbox = s.lbox ∧ (dropFwds q s).pins = s.pins ∧ (dropFwds q s).tOffset = s.tOffset ∧ (dropFwds q s).boot = s.boot ∧ (dropFwds q s).chan = s.chan ∧ (dropFwds q s).hbm = s.hbm ∧ (dropFwds q s).glint = s.glint ∧ (dropFwds q s).cond = s.cond ∧ (dropFwds q s).tx = s.tx ∧ (dropFwds q s).corr = s.corr ∧ (dropFwds q s).twin = s.twin ∧ (dropFwds q s).host = s.host ∧ (dropFwds q s).free = s.free ∧ (dropFwds q s).tb = s.tb ∧ (dropFwds q s).now = s.now := by
  simp [dropFwds]
@[simp] theorem linkReceive_frame (q : ℕ) (good : Bool) (seq : ℕ) (s : State) :
    (linkReceive q good seq s).2.pending = s.pending ∧ (linkReceive q good seq s).2.audio = s.audio ∧ (linkReceive q good seq s).2.lbox = s.lbox ∧ (linkReceive q good seq s).2.pins = s.pins ∧ (linkReceive q good seq s).2.tOffset = s.tOffset ∧ (linkReceive q good seq s).2.boot = s.boot ∧ (linkReceive q good seq s).2.chan = s.chan ∧ (linkReceive q good seq s).2.hbm = s.hbm ∧ (linkReceive q good seq s).2.glint = s.glint ∧ (linkReceive q good seq s).2.cond = s.cond ∧ (linkReceive q good seq s).2.tx = s.tx ∧ (linkReceive q good seq s).2.corr = s.corr ∧ (linkReceive q good seq s).2.twin = s.twin ∧ (linkReceive q good seq s).2.host = s.host ∧ (linkReceive q good seq s).2.free = s.free ∧ (linkReceive q good seq s).2.tb = s.tb ∧ (linkReceive q good seq s).2.now = s.now := by
  generalize hr : linkReceive q good seq s = r
  simp only [linkReceive] at hr
  repeat' split at hr
  all_goals (subst hr; simp)
@[simp] theorem crcErr_frame (q : ℕ) (s : State) :
    (crcErr q s).pending = s.pending ∧ (crcErr q s).audio = s.audio ∧ (crcErr q s).lbox = s.lbox ∧ (crcErr q s).pins = s.pins ∧ (crcErr q s).tOffset = s.tOffset ∧ (crcErr q s).boot = s.boot ∧ (crcErr q s).chan = s.chan ∧ (crcErr q s).hbm = s.hbm ∧ (crcErr q s).glint = s.glint ∧ (crcErr q s).cond = s.cond ∧ (crcErr q s).tx = s.tx ∧ (crcErr q s).corr = s.corr ∧ (crcErr q s).twin = s.twin ∧ (crcErr q s).mgmt = s.mgmt ∧ (crcErr q s).host = s.host ∧ (crcErr q s).out = s.out ∧ (crcErr q s).free = s.free ∧ (crcErr q s).tb = s.tb ∧ (crcErr q s).now = s.now := by
  simp [crcErr]
@[simp] theorem dropPartial_frame (q : ℕ) (s : State) :
    (dropPartial q s).pending = s.pending ∧ (dropPartial q s).audio = s.audio ∧ (dropPartial q s).lbox = s.lbox ∧ (dropPartial q s).pins = s.pins ∧ (dropPartial q s).tOffset = s.tOffset ∧ (dropPartial q s).boot = s.boot ∧ (dropPartial q s).chan = s.chan ∧ (dropPartial q s).hbm = s.hbm ∧ (dropPartial q s).glint = s.glint ∧ (dropPartial q s).cond = s.cond ∧ (dropPartial q s).tx = s.tx ∧ (dropPartial q s).corr = s.corr ∧ (dropPartial q s).twin = s.twin ∧ (dropPartial q s).host = s.host ∧ (dropPartial q s).free = s.free ∧ (dropPartial q s).tb = s.tb ∧ (dropPartial q s).now = s.now := by
  generalize hr : dropPartial q s = r
  simp only [dropPartial] at hr
  repeat' split at hr
  all_goals (subst hr; simp)
@[simp] theorem quadDown_frame (q : ℕ) (s : State) :
    (quadDown q s).pending = s.pending ∧ (quadDown q s).audio = s.audio ∧ (quadDown q s).lbox = s.lbox ∧ (quadDown q s).pins = s.pins ∧ (quadDown q s).tOffset = s.tOffset ∧ (quadDown q s).boot = s.boot ∧ (quadDown q s).chan = s.chan ∧ (quadDown q s).hbm = s.hbm ∧ (quadDown q s).glint = s.glint ∧ (quadDown q s).tx = s.tx ∧ (quadDown q s).corr = s.corr ∧ (quadDown q s).twin = s.twin ∧ (quadDown q s).free = s.free ∧ (quadDown q s).tb = s.tb ∧ (quadDown q s).now = s.now := by
  generalize hr : quadDown q s = r
  simp only [quadDown] at hr
  repeat' split at hr
  all_goals (subst hr; simp)
@[simp] theorem enableQuad_frame (q : ℕ) (cfg : Reg) (s : State) :
    (enableQuad q cfg s).pending = s.pending ∧ (enableQuad q cfg s).audio = s.audio ∧ (enableQuad q cfg s).lbox = s.lbox ∧ (enableQuad q cfg s).pins = s.pins ∧ (enableQuad q cfg s).tOffset = s.tOffset ∧ (enableQuad q cfg s).boot = s.boot ∧ (enableQuad q cfg s).chan = s.chan ∧ (enableQuad q cfg s).hbm = s.hbm ∧ (enableQuad q cfg s).glint = s.glint ∧ (enableQuad q cfg s).cond = s.cond ∧ (enableQuad q cfg s).tx = s.tx ∧ (enableQuad q cfg s).corr = s.corr ∧ (enableQuad q cfg s).twin = s.twin ∧ (enableQuad q cfg s).host = s.host ∧ (enableQuad q cfg s).free = s.free ∧ (enableQuad q cfg s).tb = s.tb ∧ (enableQuad q cfg s).now = s.now := by
  simp [enableQuad]
@[simp] theorem disableQuad_frame (q : ℕ) (cfg : Reg) (s : State) :
    (disableQuad q cfg s).pending = s.pending ∧ (disableQuad q cfg s).audio = s.audio ∧ (disableQuad q cfg s).lbox = s.lbox ∧ (disableQuad q cfg s).pins = s.pins ∧ (disableQuad q cfg s).tOffset = s.tOffset ∧ (disableQuad q cfg s).boot = s.boot ∧ (disableQuad q cfg s).chan = s.chan ∧ (disableQuad q cfg s).hbm = s.hbm ∧ (disableQuad q cfg s).glint = s.glint ∧ (disableQuad q cfg s).tx = s.tx ∧ (disableQuad q cfg s).corr = s.corr ∧ (disableQuad q cfg s).twin = s.twin ∧ (disableQuad q cfg s).free = s.free ∧ (disableQuad q cfg s).tb = s.tb ∧ (disableQuad q cfg s).now = s.now := by
  simp [disableQuad]
@[simp] theorem writeQuadCfg_frame (q : ℕ) (v : Reg) (s : State) :
    (writeQuadCfg q v s).pending = s.pending ∧ (writeQuadCfg q v s).audio = s.audio ∧ (writeQuadCfg q v s).lbox = s.lbox ∧ (writeQuadCfg q v s).pins = s.pins ∧ (writeQuadCfg q v s).tOffset = s.tOffset ∧ (writeQuadCfg q v s).boot = s.boot ∧ (writeQuadCfg q v s).chan = s.chan ∧ (writeQuadCfg q v s).hbm = s.hbm ∧ (writeQuadCfg q v s).glint = s.glint ∧ (writeQuadCfg q v s).tx = s.tx ∧ (writeQuadCfg q v s).corr = s.corr ∧ (writeQuadCfg q v s).twin = s.twin ∧ (writeQuadCfg q v s).free = s.free ∧ (writeQuadCfg q v s).tb = s.tb ∧ (writeQuadCfg q v s).now = s.now := by
  generalize hr : writeQuadCfg q v s = r
  simp only [writeQuadCfg] at hr
  repeat' split at hr
  all_goals (subst hr; simp)
@[simp] theorem putSerial_frame (lane : ℕ) (bits : List Bool) (s : State) :
    (putSerial lane bits s).pending = s.pending ∧ (putSerial lane bits s).audio = s.audio ∧ (putSerial lane bits s).lbox = s.lbox ∧ (putSerial lane bits s).pins = s.pins ∧ (putSerial lane bits s).tOffset = s.tOffset ∧ (putSerial lane bits s).boot = s.boot ∧ (putSerial lane bits s).chan = s.chan ∧ (putSerial lane bits s).hbm = s.hbm ∧ (putSerial lane bits s).glint = s.glint ∧ (putSerial lane bits s).cond = s.cond ∧ (putSerial lane bits s).tx = s.tx ∧ (putSerial lane bits s).corr = s.corr ∧ (putSerial lane bits s).link = s.link ∧ (putSerial lane bits s).twin = s.twin ∧ (putSerial lane bits s).mgmt = s.mgmt ∧ (putSerial lane bits s).host = s.host ∧ (putSerial lane bits s).free = s.free ∧ (putSerial lane bits s).tb = s.tb ∧ (putSerial lane bits s).now = s.now := by
  simp [putSerial]
@[simp] theorem receiveBits_frame (lane : ℕ) (forBlocks : Bool) (bits : List Bool) (s : State) :
    (receiveBits lane forBlocks bits s).2.pending = s.pending ∧ (receiveBits lane forBlocks bits s).2.audio = s.audio ∧ (receiveBits lane forBlocks bits s).2.lbox = s.lbox ∧ (receiveBits lane forBlocks bits s).2.pins = s.pins ∧ (receiveBits lane forBlocks bits s).2.tOffset = s.tOffset ∧ (receiveBits lane forBlocks bits s).2.boot = s.boot ∧ (receiveBits lane forBlocks bits s).2.chan = s.chan ∧ (receiveBits lane forBlocks bits s).2.hbm = s.hbm ∧ (receiveBits lane forBlocks bits s).2.glint = s.glint ∧ (receiveBits lane forBlocks bits s).2.cond = s.cond ∧ (receiveBits lane forBlocks bits s).2.tx = s.tx ∧ (receiveBits lane forBlocks bits s).2.corr = s.corr ∧ (receiveBits lane forBlocks bits s).2.twin = s.twin ∧ (receiveBits lane forBlocks bits s).2.mgmt = s.mgmt ∧ (receiveBits lane forBlocks bits s).2.host = s.host ∧ (receiveBits lane forBlocks bits s).2.free = s.free ∧ (receiveBits lane forBlocks bits s).2.tb = s.tb ∧ (receiveBits lane forBlocks bits s).2.now = s.now := by
  generalize hr : receiveBits lane forBlocks bits s = r
  simp only [receiveBits] at hr
  repeat' split at hr
  all_goals (subst hr; simp)
@[simp] theorem blockBits_frame (lane : ℕ) (bits : List Bool) (s : State) :
    (blockBits lane bits s).pending = s.pending ∧ (blockBits lane bits s).audio = s.audio ∧ (blockBits lane bits s).lbox = s.lbox ∧ (blockBits lane bits s).pins = s.pins ∧ (blockBits lane bits s).tOffset = s.tOffset ∧ (blockBits lane bits s).boot = s.boot ∧ (blockBits lane bits s).chan = s.chan ∧ (blockBits lane bits s).hbm = s.hbm ∧ (blockBits lane bits s).glint = s.glint ∧ (blockBits lane bits s).tx = s.tx ∧ (blockBits lane bits s).corr = s.corr ∧ (blockBits lane bits s).tb = s.tb ∧ (blockBits lane bits s).now = s.now := by
  generalize hr : blockBits lane bits s = r
  simp only [blockBits] at hr
  repeat' split at hr
  all_goals (subst hr; simp)
@[simp] theorem ackNow_frame (q : ℕ) (s : State) :
    (ackNow q s).pending = s.pending ∧ (ackNow q s).audio = s.audio ∧ (ackNow q s).lbox = s.lbox ∧ (ackNow q s).pins = s.pins ∧ (ackNow q s).tOffset = s.tOffset ∧ (ackNow q s).boot = s.boot ∧ (ackNow q s).chan = s.chan ∧ (ackNow q s).hbm = s.hbm ∧ (ackNow q s).glint = s.glint ∧ (ackNow q s).cond = s.cond ∧ (ackNow q s).tx = s.tx ∧ (ackNow q s).corr = s.corr ∧ (ackNow q s).twin = s.twin ∧ (ackNow q s).host = s.host ∧ (ackNow q s).free = s.free ∧ (ackNow q s).tb = s.tb ∧ (ackNow q s).now = s.now := by
  generalize hr : ackNow q s = r
  simp only [ackNow] at hr
  repeat' split at hr
  all_goals (subst hr; simp)
@[simp] theorem quadUp_frame (q : ℕ) (s : State) :
    (quadUp q s).pending = s.pending ∧ (quadUp q s).audio = s.audio ∧ (quadUp q s).lbox = s.lbox ∧ (quadUp q s).pins = s.pins ∧ (quadUp q s).tOffset = s.tOffset ∧ (quadUp q s).boot = s.boot ∧ (quadUp q s).chan = s.chan ∧ (quadUp q s).hbm = s.hbm ∧ (quadUp q s).glint = s.glint ∧ (quadUp q s).cond = s.cond ∧ (quadUp q s).tx = s.tx ∧ (quadUp q s).corr = s.corr ∧ (quadUp q s).free = s.free ∧ (quadUp q s).tb = s.tb ∧ (quadUp q s).now = s.now := by
  simp [quadUp]
@[simp] theorem retrain_frame (lane : ℕ) (s : State) :
    (retrain lane s).pending = s.pending ∧ (retrain lane s).audio = s.audio ∧ (retrain lane s).lbox = s.lbox ∧ (retrain lane s).pins = s.pins ∧ (retrain lane s).tOffset = s.tOffset ∧ (retrain lane s).boot = s.boot ∧ (retrain lane s).chan = s.chan ∧ (retrain lane s).hbm = s.hbm ∧ (retrain lane s).glint = s.glint ∧ (retrain lane s).cond = s.cond ∧ (retrain lane s).tx = s.tx ∧ (retrain lane s).corr = s.corr ∧ (retrain lane s).twin = s.twin ∧ (retrain lane s).free = s.free ∧ (retrain lane s).tb = s.tb ∧ (retrain lane s).now = s.now := by
  generalize hr : retrain lane s = r
  simp only [retrain] at hr
  repeat' split at hr
  all_goals (subst hr; simp)
theorem execLaneRetrain_frame (t : Tick) (lane : Fin 64) (s : State) {t_ : State} (h : execLaneRetrain t lane s = .next t_) :
    t_.pending = s.pending ∧ t_.audio = s.audio ∧ t_.lbox = s.lbox ∧ t_.pins = s.pins ∧ t_.tOffset = (s.advance t).tOffset ∧ t_.boot = s.boot ∧ t_.chan = s.chan ∧ t_.hbm = s.hbm ∧ t_.glint = s.glint ∧ t_.cond = s.cond ∧ t_.tx = s.tx ∧ t_.corr = s.corr ∧ t_.twin = s.twin ∧ t_.free = s.free ∧ t_.tb = (s.advance t).tb ∧ t_.now = (s.advance t).now := by
  simp only [execLaneRetrain] at h
  repeat' split at h
  all_goals (cases h; simp)
theorem execAdaptationDone_frame (t : Tick) (lane : Fin 64) (s : State) {t_ : State} (h : execAdaptationDone t lane s = .next t_) :
    t_.pending = s.pending ∧ t_.audio = s.audio ∧ t_.lbox = s.lbox ∧ t_.pins = s.pins ∧ t_.tOffset = (s.advance t).tOffset ∧ t_.boot = s.boot ∧ t_.chan = s.chan ∧ t_.hbm = s.hbm ∧ t_.glint = s.glint ∧ t_.cond = s.cond ∧ t_.tx = s.tx ∧ t_.corr = s.corr ∧ t_.twin = s.twin ∧ t_.mgmt = s.mgmt ∧ t_.host = s.host ∧ t_.out = s.out ∧ t_.tb = (s.advance t).tb ∧ t_.now = (s.advance t).now := by
  simp only [execAdaptationDone] at h
  repeat' split at h
  all_goals (cases h; simp)
@[simp] theorem restartLane_frame (lane : ℕ) (s : State) :
    (restartLane lane s).pending = s.pending ∧ (restartLane lane s).audio = s.audio ∧ (restartLane lane s).lbox = s.lbox ∧ (restartLane lane s).pins = s.pins ∧ (restartLane lane s).tOffset = s.tOffset ∧ (restartLane lane s).boot = s.boot ∧ (restartLane lane s).chan = s.chan ∧ (restartLane lane s).hbm = s.hbm ∧ (restartLane lane s).glint = s.glint ∧ (restartLane lane s).tx = s.tx ∧ (restartLane lane s).corr = s.corr ∧ (restartLane lane s).twin = s.twin ∧ (restartLane lane s).free = s.free ∧ (restartLane lane s).tb = s.tb ∧ (restartLane lane s).now = s.now := by
  generalize hr : restartLane lane s = r
  simp only [restartLane] at hr
  repeat' split at hr
  all_goals (subst hr; simp)
@[simp] theorem checkBits_frame (lane : ℕ) (bits : List Bool) (s : State) :
    (checkBits lane bits s).pending = s.pending ∧ (checkBits lane bits s).audio = s.audio ∧ (checkBits lane bits s).lbox = s.lbox ∧ (checkBits lane bits s).pins = s.pins ∧ (checkBits lane bits s).tOffset = s.tOffset ∧ (checkBits lane bits s).boot = s.boot ∧ (checkBits lane bits s).chan = s.chan ∧ (checkBits lane bits s).hbm = s.hbm ∧ (checkBits lane bits s).glint = s.glint ∧ (checkBits lane bits s).cond = s.cond ∧ (checkBits lane bits s).tx = s.tx ∧ (checkBits lane bits s).corr = s.corr ∧ (checkBits lane bits s).twin = s.twin ∧ (checkBits lane bits s).mgmt = s.mgmt ∧ (checkBits lane bits s).host = s.host ∧ (checkBits lane bits s).free = s.free ∧ (checkBits lane bits s).tb = s.tb ∧ (checkBits lane bits s).now = s.now := by
  generalize hr : checkBits lane bits s = r
  simp only [checkBits] at hr
  repeat' split at hr
  all_goals (subst hr; simp)
theorem execPrbsLockAcquired_frame (t : Tick) (b : LaneBits) (s : State) {t_ : State} (h : execPrbsLockAcquired t b s = .next t_) :
    t_.pending = s.pending ∧ t_.audio = s.audio ∧ t_.lbox = s.lbox ∧ t_.pins = s.pins ∧ t_.tOffset = (s.advance t).tOffset ∧ t_.boot = s.boot ∧ t_.chan = s.chan ∧ t_.hbm = s.hbm ∧ t_.glint = s.glint ∧ t_.cond = s.cond ∧ t_.tx = s.tx ∧ t_.corr = s.corr ∧ t_.twin = s.twin ∧ t_.mgmt = s.mgmt ∧ t_.host = s.host ∧ t_.free = s.free ∧ t_.tb = (s.advance t).tb ∧ t_.now = (s.advance t).now := by
  simp only [execPrbsLockAcquired] at h
  repeat' split at h
  all_goals (cases h; simp)
theorem execPrbsLockLost_frame (t : Tick) (lane : Fin 64) (bits : List Bool) (s : State) {t_ : State} (h : execPrbsLockLost t lane bits s = .next t_) :
    t_.pending = s.pending ∧ t_.audio = s.audio ∧ t_.lbox = s.lbox ∧ t_.pins = s.pins ∧ t_.tOffset = (s.advance t).tOffset ∧ t_.boot = s.boot ∧ t_.chan = s.chan ∧ t_.hbm = s.hbm ∧ t_.glint = s.glint ∧ t_.cond = s.cond ∧ t_.tx = s.tx ∧ t_.corr = s.corr ∧ t_.twin = s.twin ∧ t_.mgmt = s.mgmt ∧ t_.host = s.host ∧ t_.free = s.free ∧ t_.tb = (s.advance t).tb ∧ t_.now = (s.advance t).now := by
  simp only [execPrbsLockLost] at h
  repeat' split at h
  all_goals (cases h; simp)
@[simp] theorem injectError_frame (lane : ℕ) (s : State) :
    (injectError lane s).pending = s.pending ∧ (injectError lane s).audio = s.audio ∧ (injectError lane s).lbox = s.lbox ∧ (injectError lane s).pins = s.pins ∧ (injectError lane s).tOffset = s.tOffset ∧ (injectError lane s).boot = s.boot ∧ (injectError lane s).chan = s.chan ∧ (injectError lane s).hbm = s.hbm ∧ (injectError lane s).glint = s.glint ∧ (injectError lane s).cond = s.cond ∧ (injectError lane s).tx = s.tx ∧ (injectError lane s).corr = s.corr ∧ (injectError lane s).twin = s.twin ∧ (injectError lane s).mgmt = s.mgmt ∧ (injectError lane s).host = s.host ∧ (injectError lane s).out = s.out ∧ (injectError lane s).free = s.free ∧ (injectError lane s).tb = s.tb ∧ (injectError lane s).now = s.now := by
  generalize hr : injectError lane s = r
  simp only [injectError] at hr
  repeat' split at hr
  all_goals (subst hr; simp)
@[simp] theorem clearLane_frame (lane : ℕ) (s : State) :
    (clearLane lane s).pending = s.pending ∧ (clearLane lane s).audio = s.audio ∧ (clearLane lane s).lbox = s.lbox ∧ (clearLane lane s).pins = s.pins ∧ (clearLane lane s).tOffset = s.tOffset ∧ (clearLane lane s).boot = s.boot ∧ (clearLane lane s).chan = s.chan ∧ (clearLane lane s).hbm = s.hbm ∧ (clearLane lane s).glint = s.glint ∧ (clearLane lane s).cond = s.cond ∧ (clearLane lane s).tx = s.tx ∧ (clearLane lane s).corr = s.corr ∧ (clearLane lane s).twin = s.twin ∧ (clearLane lane s).mgmt = s.mgmt ∧ (clearLane lane s).host = s.host ∧ (clearLane lane s).out = s.out ∧ (clearLane lane s).free = s.free ∧ (clearLane lane s).tb = s.tb ∧ (clearLane lane s).now = s.now := by
  simp [clearLane]
@[simp] theorem clearLink_frame (q : ℕ) (s : State) :
    (clearLink q s).pending = s.pending ∧ (clearLink q s).audio = s.audio ∧ (clearLink q s).lbox = s.lbox ∧ (clearLink q s).pins = s.pins ∧ (clearLink q s).tOffset = s.tOffset ∧ (clearLink q s).boot = s.boot ∧ (clearLink q s).chan = s.chan ∧ (clearLink q s).hbm = s.hbm ∧ (clearLink q s).glint = s.glint ∧ (clearLink q s).cond = s.cond ∧ (clearLink q s).tx = s.tx ∧ (clearLink q s).corr = s.corr ∧ (clearLink q s).twin = s.twin ∧ (clearLink q s).mgmt = s.mgmt ∧ (clearLink q s).host = s.host ∧ (clearLink q s).out = s.out ∧ (clearLink q s).free = s.free ∧ (clearLink q s).tb = s.tb ∧ (clearLink q s).now = s.now := by
  simp [clearLink]
@[simp] theorem startWake_frame (q : ℕ) (s : State) :
    (startWake q s).pending = s.pending ∧ (startWake q s).audio = s.audio ∧ (startWake q s).lbox = s.lbox ∧ (startWake q s).pins = s.pins ∧ (startWake q s).tOffset = s.tOffset ∧ (startWake q s).boot = s.boot ∧ (startWake q s).chan = s.chan ∧ (startWake q s).hbm = s.hbm ∧ (startWake q s).glint = s.glint ∧ (startWake q s).cond = s.cond ∧ (startWake q s).tx = s.tx ∧ (startWake q s).corr = s.corr ∧ (startWake q s).twin = s.twin ∧ (startWake q s).mgmt = s.mgmt ∧ (startWake q s).host = s.host ∧ (startWake q s).out = s.out ∧ (startWake q s).free = s.free ∧ (startWake q s).tb = s.tb ∧ (startWake q s).now = s.now := by
  generalize hr : startWake q s = r
  simp only [startWake] at hr
  repeat' split at hr
  all_goals (subst hr; simp)
@[simp] theorem sendWake_frame (q : ℕ) (s : State) :
    (sendWake q s).pending = s.pending ∧ (sendWake q s).audio = s.audio ∧ (sendWake q s).lbox = s.lbox ∧ (sendWake q s).pins = s.pins ∧ (sendWake q s).tOffset = s.tOffset ∧ (sendWake q s).boot = s.boot ∧ (sendWake q s).chan = s.chan ∧ (sendWake q s).hbm = s.hbm ∧ (sendWake q s).glint = s.glint ∧ (sendWake q s).cond = s.cond ∧ (sendWake q s).tx = s.tx ∧ (sendWake q s).corr = s.corr ∧ (sendWake q s).twin = s.twin ∧ (sendWake q s).host = s.host ∧ (sendWake q s).free = s.free ∧ (sendWake q s).tb = s.tb ∧ (sendWake q s).now = s.now := by
  simp [sendWake]
@[simp] theorem writeSleepCfg_frame (q : ℕ) (v : Reg) (s : State) :
    (writeSleepCfg q v s).pending = s.pending ∧ (writeSleepCfg q v s).audio = s.audio ∧ (writeSleepCfg q v s).lbox = s.lbox ∧ (writeSleepCfg q v s).pins = s.pins ∧ (writeSleepCfg q v s).tOffset = s.tOffset ∧ (writeSleepCfg q v s).boot = s.boot ∧ (writeSleepCfg q v s).chan = s.chan ∧ (writeSleepCfg q v s).hbm = s.hbm ∧ (writeSleepCfg q v s).glint = s.glint ∧ (writeSleepCfg q v s).cond = s.cond ∧ (writeSleepCfg q v s).tx = s.tx ∧ (writeSleepCfg q v s).corr = s.corr ∧ (writeSleepCfg q v s).twin = s.twin ∧ (writeSleepCfg q v s).host = s.host ∧ (writeSleepCfg q v s).free = s.free ∧ (writeSleepCfg q v s).tb = s.tb ∧ (writeSleepCfg q v s).now = s.now := by
  generalize hr : writeSleepCfg q v s = r
  simp only [writeSleepCfg] at hr
  repeat' split at hr
  all_goals (subst hr; simp)
theorem execSleepRequest_frame (t : Tick) (q : Fin 16) (s : State) {t_ : State} (h : execSleepRequest t q s = .next t_) :
    t_.pending = s.pending ∧ t_.audio = s.audio ∧ t_.lbox = s.lbox ∧ t_.pins = s.pins ∧ t_.tOffset = (s.advance t).tOffset ∧ t_.boot = s.boot ∧ t_.chan = s.chan ∧ t_.hbm = s.hbm ∧ t_.glint = s.glint ∧ t_.cond = s.cond ∧ t_.tx = s.tx ∧ t_.corr = s.corr ∧ t_.twin = s.twin ∧ t_.host = s.host ∧ t_.free = s.free ∧ t_.tb = (s.advance t).tb ∧ t_.now = (s.advance t).now := by
  simp only [execSleepRequest] at h
  repeat' split at h
  all_goals (cases h; simp)
@[simp] theorem ctlErr_frame (q : ℕ) (s : State) :
    (ctlErr q s).pending = s.pending ∧ (ctlErr q s).audio = s.audio ∧ (ctlErr q s).lbox = s.lbox ∧ (ctlErr q s).pins = s.pins ∧ (ctlErr q s).tOffset = s.tOffset ∧ (ctlErr q s).boot = s.boot ∧ (ctlErr q s).chan = s.chan ∧ (ctlErr q s).hbm = s.hbm ∧ (ctlErr q s).glint = s.glint ∧ (ctlErr q s).cond = s.cond ∧ (ctlErr q s).tx = s.tx ∧ (ctlErr q s).corr = s.corr ∧ (ctlErr q s).twin = s.twin ∧ (ctlErr q s).mgmt = s.mgmt ∧ (ctlErr q s).host = s.host ∧ (ctlErr q s).out = s.out ∧ (ctlErr q s).free = s.free ∧ (ctlErr q s).tb = s.tb ∧ (ctlErr q s).now = s.now := by
  simp [ctlErr]
theorem execSleepReqReceived_frame (t : Tick) (q : Fin 16) (b : BitVec 64) (s : State) {t_ : State} (h : execSleepReqReceived t q b s = .next t_) :
    t_.pending = s.pending ∧ t_.audio = s.audio ∧ t_.lbox = s.lbox ∧ t_.pins = s.pins ∧ t_.tOffset = (s.advance t).tOffset ∧ t_.boot = s.boot ∧ t_.chan = s.chan ∧ t_.hbm = s.hbm ∧ t_.glint = s.glint ∧ t_.cond = s.cond ∧ t_.tx = s.tx ∧ t_.corr = s.corr ∧ t_.twin = s.twin ∧ t_.host = s.host ∧ t_.free = s.free ∧ t_.tb = (s.advance t).tb ∧ t_.now = (s.advance t).now := by
  simp only [execSleepReqReceived] at h
  repeat' split at h
  all_goals (cases h; simp)
@[simp] theorem abortReq_frame (q : ℕ) (s : State) :
    (abortReq q s).pending = s.pending ∧ (abortReq q s).audio = s.audio ∧ (abortReq q s).lbox = s.lbox ∧ (abortReq q s).pins = s.pins ∧ (abortReq q s).tOffset = s.tOffset ∧ (abortReq q s).boot = s.boot ∧ (abortReq q s).chan = s.chan ∧ (abortReq q s).hbm = s.hbm ∧ (abortReq q s).glint = s.glint ∧ (abortReq q s).cond = s.cond ∧ (abortReq q s).tx = s.tx ∧ (abortReq q s).corr = s.corr ∧ (abortReq q s).twin = s.twin ∧ (abortReq q s).host = s.host ∧ (abortReq q s).free = s.free ∧ (abortReq q s).tb = s.tb ∧ (abortReq q s).now = s.now := by
  simp [abortReq]
theorem execSleepAckReceived_frame (t : Tick) (q : Fin 16) (b : BitVec 64) (s : State) {t_ : State} (h : execSleepAckReceived t q b s = .next t_) :
    t_.pending = s.pending ∧ t_.audio = s.audio ∧ t_.lbox = s.lbox ∧ t_.pins = s.pins ∧ t_.tOffset = (s.advance t).tOffset ∧ t_.boot = s.boot ∧ t_.chan = s.chan ∧ t_.hbm = s.hbm ∧ t_.glint = s.glint ∧ t_.cond = s.cond ∧ t_.tx = s.tx ∧ t_.corr = s.corr ∧ t_.twin = s.twin ∧ t_.host = s.host ∧ t_.free = s.free ∧ t_.tb = (s.advance t).tb ∧ t_.now = (s.advance t).now := by
  simp only [execSleepAckReceived] at h
  repeat' split at h
  all_goals (cases h; simp)
theorem execSleepNakReceived_frame (t : Tick) (q : Fin 16) (b : BitVec 64) (s : State) {t_ : State} (h : execSleepNakReceived t q b s = .next t_) :
    t_.pending = s.pending ∧ t_.audio = s.audio ∧ t_.lbox = s.lbox ∧ t_.pins = s.pins ∧ t_.tOffset = (s.advance t).tOffset ∧ t_.boot = s.boot ∧ t_.chan = s.chan ∧ t_.hbm = s.hbm ∧ t_.glint = s.glint ∧ t_.cond = s.cond ∧ t_.tx = s.tx ∧ t_.corr = s.corr ∧ t_.twin = s.twin ∧ t_.mgmt = s.mgmt ∧ t_.host = s.host ∧ t_.out = s.out ∧ t_.free = s.free ∧ t_.tb = (s.advance t).tb ∧ t_.now = (s.advance t).now := by
  simp only [execSleepNakReceived] at h
  repeat' split at h
  all_goals (cases h; simp)
theorem execSleepReqTimeout_frame (t : Tick) (q : Fin 16) (s : State) {t_ : State} (h : execSleepReqTimeout t q s = .next t_) :
    t_.pending = s.pending ∧ t_.audio = s.audio ∧ t_.lbox = s.lbox ∧ t_.pins = s.pins ∧ t_.tOffset = (s.advance t).tOffset ∧ t_.boot = s.boot ∧ t_.chan = s.chan ∧ t_.hbm = s.hbm ∧ t_.glint = s.glint ∧ t_.cond = s.cond ∧ t_.tx = s.tx ∧ t_.corr = s.corr ∧ t_.twin = s.twin ∧ t_.host = s.host ∧ t_.free = s.free ∧ t_.tb = (s.advance t).tb ∧ t_.now = (s.advance t).now := by
  simp only [execSleepReqTimeout] at h
  repeat' split at h
  all_goals (cases h; simp)
@[simp] theorem setSig_frame (q : ℕ) (b : Bool) (s : State) :
    (setSig q b s).pending = s.pending ∧ (setSig q b s).audio = s.audio ∧ (setSig q b s).lbox = s.lbox ∧ (setSig q b s).pins = s.pins ∧ (setSig q b s).tOffset = s.tOffset ∧ (setSig q b s).boot = s.boot ∧ (setSig q b s).chan = s.chan ∧ (setSig q b s).hbm = s.hbm ∧ (setSig q b s).glint = s.glint ∧ (setSig q b s).cond = s.cond ∧ (setSig q b s).tx = s.tx ∧ (setSig q b s).corr = s.corr ∧ (setSig q b s).twin = s.twin ∧ (setSig q b s).mgmt = s.mgmt ∧ (setSig q b s).host = s.host ∧ (setSig q b s).out = s.out ∧ (setSig q b s).free = s.free ∧ (setSig q b s).tb = s.tb ∧ (setSig q b s).now = s.now := by
  simp [setSig]
@[simp] theorem rxDoze_frame (q : ℕ) (s : State) :
    (rxDoze q s).pending = s.pending ∧ (rxDoze q s).audio = s.audio ∧ (rxDoze q s).lbox = s.lbox ∧ (rxDoze q s).pins = s.pins ∧ (rxDoze q s).tOffset = s.tOffset ∧ (rxDoze q s).boot = s.boot ∧ (rxDoze q s).chan = s.chan ∧ (rxDoze q s).hbm = s.hbm ∧ (rxDoze q s).glint = s.glint ∧ (rxDoze q s).cond = s.cond ∧ (rxDoze q s).tx = s.tx ∧ (rxDoze q s).corr = s.corr ∧ (rxDoze q s).twin = s.twin ∧ (rxDoze q s).host = s.host ∧ (rxDoze q s).free = s.free ∧ (rxDoze q s).tb = s.tb ∧ (rxDoze q s).now = s.now := by
  generalize hr : rxDoze q s = r
  simp only [rxDoze] at hr
  repeat' split at hr
  all_goals (subst hr; simp)
theorem execCommitReceived_frame (t : Tick) (q : Fin 16) (b : BitVec 64) (s : State) {t_ : State} (h : execCommitReceived t q b s = .next t_) :
    t_.pending = s.pending ∧ t_.audio = s.audio ∧ t_.lbox = s.lbox ∧ t_.pins = s.pins ∧ t_.tOffset = (s.advance t).tOffset ∧ t_.boot = s.boot ∧ t_.chan = s.chan ∧ t_.hbm = s.hbm ∧ t_.glint = s.glint ∧ t_.cond = s.cond ∧ t_.tx = s.tx ∧ t_.corr = s.corr ∧ t_.twin = s.twin ∧ t_.host = s.host ∧ t_.free = s.free ∧ t_.tb = (s.advance t).tb ∧ t_.now = (s.advance t).now := by
  simp only [execCommitReceived] at h
  repeat' split at h
  all_goals (cases h; simp)
theorem execAbortReceived_frame (t : Tick) (q : Fin 16) (b : BitVec 64) (s : State) {t_ : State} (h : execAbortReceived t q b s = .next t_) :
    t_.pending = s.pending ∧ t_.audio = s.audio ∧ t_.lbox = s.lbox ∧ t_.pins = s.pins ∧ t_.tOffset = (s.advance t).tOffset ∧ t_.boot = s.boot ∧ t_.chan = s.chan ∧ t_.hbm = s.hbm ∧ t_.glint = s.glint ∧ t_.cond = s.cond ∧ t_.tx = s.tx ∧ t_.corr = s.corr ∧ t_.twin = s.twin ∧ t_.mgmt = s.mgmt ∧ t_.host = s.host ∧ t_.out = s.out ∧ t_.free = s.free ∧ t_.tb = (s.advance t).tb ∧ t_.now = (s.advance t).now := by
  simp only [execAbortReceived] at h
  repeat' split at h
  all_goals (cases h; simp)
theorem execSignalLostAfterAck_frame (t : Tick) (q : Fin 16) (s : State) {t_ : State} (h : execSignalLostAfterAck t q s = .next t_) :
    t_.pending = s.pending ∧ t_.audio = s.audio ∧ t_.lbox = s.lbox ∧ t_.pins = s.pins ∧ t_.tOffset = (s.advance t).tOffset ∧ t_.boot = s.boot ∧ t_.chan = s.chan ∧ t_.hbm = s.hbm ∧ t_.glint = s.glint ∧ t_.cond = s.cond ∧ t_.tx = s.tx ∧ t_.corr = s.corr ∧ t_.twin = s.twin ∧ t_.host = s.host ∧ t_.free = s.free ∧ t_.tb = (s.advance t).tb ∧ t_.now = (s.advance t).now := by
  simp only [execSignalLostAfterAck] at h
  repeat' split at h
  all_goals (cases h; simp)
theorem execSleepAfterExpiry_frame (t : Tick) (q : Fin 16) (transmit : Bool) (s : State) {t_ : State} (h : execSleepAfterExpiry t q transmit s = .next t_) :
    t_.pending = s.pending ∧ t_.audio = s.audio ∧ t_.lbox = s.lbox ∧ t_.pins = s.pins ∧ t_.tOffset = (s.advance t).tOffset ∧ t_.boot = s.boot ∧ t_.chan = s.chan ∧ t_.hbm = s.hbm ∧ t_.glint = s.glint ∧ t_.cond = s.cond ∧ t_.tx = s.tx ∧ t_.corr = s.corr ∧ t_.twin = s.twin ∧ t_.mgmt = s.mgmt ∧ t_.host = s.host ∧ t_.out = s.out ∧ t_.free = s.free ∧ t_.tb = (s.advance t).tb ∧ t_.now = (s.advance t).now := by
  simp only [execSleepAfterExpiry] at h
  repeat' split at h
  all_goals (cases h; simp)
theorem execWakeReceived_frame (t : Tick) (q : Fin 16) (b : BitVec 64) (s : State) {t_ : State} (h : execWakeReceived t q b s = .next t_) :
    t_.pending = s.pending ∧ t_.audio = s.audio ∧ t_.lbox = s.lbox ∧ t_.pins = s.pins ∧ t_.tOffset = (s.advance t).tOffset ∧ t_.boot = s.boot ∧ t_.chan = s.chan ∧ t_.hbm = s.hbm ∧ t_.glint = s.glint ∧ t_.cond = s.cond ∧ t_.tx = s.tx ∧ t_.corr = s.corr ∧ t_.twin = s.twin ∧ t_.mgmt = s.mgmt ∧ t_.host = s.host ∧ t_.out = s.out ∧ t_.free = s.free ∧ t_.tb = (s.advance t).tb ∧ t_.now = (s.advance t).now := by
  simp only [execWakeReceived] at h
  repeat' split at h
  all_goals (cases h; simp)
theorem execTxWake_frame (t : Tick) (q : Fin 16) (s : State) {t_ : State} (h : execTxWake t q s = .next t_) :
    t_.pending = s.pending ∧ t_.audio = s.audio ∧ t_.lbox = s.lbox ∧ t_.pins = s.pins ∧ t_.tOffset = (s.advance t).tOffset ∧ t_.boot = s.boot ∧ t_.chan = s.chan ∧ t_.hbm = s.hbm ∧ t_.glint = s.glint ∧ t_.cond = s.cond ∧ t_.tx = s.tx ∧ t_.corr = s.corr ∧ t_.twin = s.twin ∧ t_.host = s.host ∧ t_.free = s.free ∧ t_.tb = (s.advance t).tb ∧ t_.now = (s.advance t).now := by
  simp only [execTxWake] at h
  repeat' split at h
  all_goals (cases h; simp)
theorem execSignalDetect_frame (t : Tick) (q : Fin 16) (s : State) {t_ : State} (h : execSignalDetect t q s = .next t_) :
    t_.pending = s.pending ∧ t_.audio = s.audio ∧ t_.lbox = s.lbox ∧ t_.pins = s.pins ∧ t_.tOffset = (s.advance t).tOffset ∧ t_.boot = s.boot ∧ t_.chan = s.chan ∧ t_.hbm = s.hbm ∧ t_.glint = s.glint ∧ t_.cond = s.cond ∧ t_.tx = s.tx ∧ t_.corr = s.corr ∧ t_.twin = s.twin ∧ t_.mgmt = s.mgmt ∧ t_.host = s.host ∧ t_.out = s.out ∧ t_.free = s.free ∧ t_.tb = (s.advance t).tb ∧ t_.now = (s.advance t).now := by
  simp only [execSignalDetect] at h
  repeat' split at h
  all_goals (cases h; simp)
@[simp] theorem pumpResendN_frame (a : ℕ) (a1 : ℕ) (a2 : State) :
    (pumpResendN a a1 a2).pending = a2.pending ∧ (pumpResendN a a1 a2).audio = a2.audio ∧ (pumpResendN a a1 a2).lbox = a2.lbox ∧ (pumpResendN a a1 a2).pins = a2.pins ∧ (pumpResendN a a1 a2).tOffset = a2.tOffset ∧ (pumpResendN a a1 a2).boot = a2.boot ∧ (pumpResendN a a1 a2).chan = a2.chan ∧ (pumpResendN a a1 a2).hbm = a2.hbm ∧ (pumpResendN a a1 a2).glint = a2.glint ∧ (pumpResendN a a1 a2).cond = a2.cond ∧ (pumpResendN a a1 a2).tx = a2.tx ∧ (pumpResendN a a1 a2).corr = a2.corr ∧ (pumpResendN a a1 a2).twin = a2.twin ∧ (pumpResendN a a1 a2).host = a2.host ∧ (pumpResendN a a1 a2).free = a2.free ∧ (pumpResendN a a1 a2).tb = a2.tb ∧ (pumpResendN a a1 a2).now = a2.now := by
  induction a generalizing a2 with
  | zero => simp [pumpResendN]
  | succ n ih =>
    generalize hr : pumpResendN (n + 1) a1 a2 = r
    simp only [pumpResendN] at hr
    repeat' (first | split at hr)
    all_goals (subst hr; simp [ih])
theorem sendNew_frame (q : ℕ) (vc : ℕ) (kind : ℕ) (data : Bytes) (s : State) {t_ : State} (h : sendNew q vc kind data s = some t_) :
    t_.pending = s.pending ∧ t_.audio = s.audio ∧ t_.lbox = s.lbox ∧ t_.pins = s.pins ∧ t_.tOffset = s.tOffset ∧ t_.boot = s.boot ∧ t_.chan = s.chan ∧ t_.hbm = s.hbm ∧ t_.glint = s.glint ∧ t_.cond = s.cond ∧ t_.tx = s.tx ∧ t_.corr = s.corr ∧ t_.twin = s.twin ∧ t_.host = s.host ∧ t_.free = s.free ∧ t_.tb = s.tb ∧ t_.now = s.now := by
  unfold sendNew at h
  extract_lets at h
  split at h
  · (try extract_lets at h)
    have h' := Option.some.inj h
    subst h'
    simp +zetaDelta
  · cases h
@[simp] theorem pumpNew_frame (q : ℕ) (a : List TxWait) (a2 : List ℕ) (a3 : State) :
    (pumpNew q a a2 a3).pending = a3.pending ∧ (pumpNew q a a2 a3).audio = a3.audio ∧ (pumpNew q a a2 a3).lbox = a3.lbox ∧ (pumpNew q a a2 a3).pins = a3.pins ∧ (pumpNew q a a2 a3).tOffset = a3.tOffset ∧ (pumpNew q a a2 a3).boot = a3.boot ∧ (pumpNew q a a2 a3).chan = a3.chan ∧ (pumpNew q a a2 a3).hbm = a3.hbm ∧ (pumpNew q a a2 a3).glint = a3.glint ∧ (pumpNew q a a2 a3).cond = a3.cond ∧ (pumpNew q a a2 a3).tx = a3.tx ∧ (pumpNew q a a2 a3).corr = a3.corr ∧ (pumpNew q a a2 a3).twin = a3.twin ∧ (pumpNew q a a2 a3).host = a3.host ∧ (pumpNew q a a2 a3).free = a3.free ∧ (pumpNew q a a2 a3).tb = a3.tb ∧ (pumpNew q a a2 a3).now = a3.now := by
  induction a generalizing a2 a3 with
  | nil => simp [pumpNew]
  | cons x l ih =>
    generalize hr : pumpNew q (x :: l) a2 a3 = r
    simp only [pumpNew] at hr
    split at hr
    · subst hr; simp [ih]
    · rename_i hn
      split at hn
      · cases hn
      · have hn := sendNew_frame _ _ _ _ _ hn
        subst hr; simp [ih, hn]
@[simp] theorem pumpFwd_frame (q : ℕ) (a : List (ℕ × FwdFrame)) (a2 : List ℕ) (a3 : State) :
    (pumpFwd q a a2 a3).pending = a3.pending ∧ (pumpFwd q a a2 a3).audio = a3.audio ∧ (pumpFwd q a a2 a3).lbox = a3.lbox ∧ (pumpFwd q a a2 a3).pins = a3.pins ∧ (pumpFwd q a a2 a3).tOffset = a3.tOffset ∧ (pumpFwd q a a2 a3).boot = a3.boot ∧ (pumpFwd q a a2 a3).chan = a3.chan ∧ (pumpFwd q a a2 a3).hbm = a3.hbm ∧ (pumpFwd q a a2 a3).glint = a3.glint ∧ (pumpFwd q a a2 a3).cond = a3.cond ∧ (pumpFwd q a a2 a3).tx = a3.tx ∧ (pumpFwd q a a2 a3).corr = a3.corr ∧ (pumpFwd q a a2 a3).twin = a3.twin ∧ (pumpFwd q a a2 a3).host = a3.host ∧ (pumpFwd q a a2 a3).free = a3.free ∧ (pumpFwd q a a2 a3).tb = a3.tb ∧ (pumpFwd q a a2 a3).now = a3.now := by
  induction a generalizing a2 a3 with
  | nil => simp [pumpFwd]
  | cons x l ih =>
    obtain ⟨id, f⟩ := x
    generalize hr : pumpFwd q ((id, f) :: l) a2 a3 = r
    simp only [pumpFwd] at hr
    split at hr
    · subst hr; simp [ih]
    · rename_i hn
      split at hn
      · cases hn
      · have hn := sendNew_frame _ _ _ _ _ hn
        subst hr; simp [ih, hn]
@[simp] theorem pump_frame (q : ℕ) (s : State) :
    (pump q s).pending = s.pending ∧ (pump q s).audio = s.audio ∧ (pump q s).lbox = s.lbox ∧ (pump q s).pins = s.pins ∧ (pump q s).tOffset = s.tOffset ∧ (pump q s).boot = s.boot ∧ (pump q s).chan = s.chan ∧ (pump q s).hbm = s.hbm ∧ (pump q s).glint = s.glint ∧ (pump q s).cond = s.cond ∧ (pump q s).tx = s.tx ∧ (pump q s).corr = s.corr ∧ (pump q s).twin = s.twin ∧ (pump q s).host = s.host ∧ (pump q s).free = s.free ∧ (pump q s).tb = s.tb ∧ (pump q s).now = s.now := by
  generalize hr : pump q s = r
  simp only [pump] at hr
  repeat' split at hr
  all_goals (subst hr; simp)
@[simp] theorem linkSend_frame (q : ℕ) (vc : ℕ) (kind : ℕ) (data : Bytes) (s : State) :
    (linkSend q vc kind data s).pending = s.pending ∧ (linkSend q vc kind data s).audio = s.audio ∧ (linkSend q vc kind data s).lbox = s.lbox ∧ (linkSend q vc kind data s).pins = s.pins ∧ (linkSend q vc kind data s).tOffset = s.tOffset ∧ (linkSend q vc kind data s).boot = s.boot ∧ (linkSend q vc kind data s).chan = s.chan ∧ (linkSend q vc kind data s).hbm = s.hbm ∧ (linkSend q vc kind data s).glint = s.glint ∧ (linkSend q vc kind data s).cond = s.cond ∧ (linkSend q vc kind data s).tx = s.tx ∧ (linkSend q vc kind data s).corr = s.corr ∧ (linkSend q vc kind data s).twin = s.twin ∧ (linkSend q vc kind data s).host = s.host ∧ (linkSend q vc kind data s).free = s.free ∧ (linkSend q vc kind data s).tb = s.tb ∧ (linkSend q vc kind data s).now = s.now := by
  simp [linkSend]
@[simp] theorem ackUpTo_frame (q : ℕ) (upto : ℕ) (s : State) :
    (ackUpTo q upto s).pending = s.pending ∧ (ackUpTo q upto s).audio = s.audio ∧ (ackUpTo q upto s).lbox = s.lbox ∧ (ackUpTo q upto s).pins = s.pins ∧ (ackUpTo q upto s).tOffset = s.tOffset ∧ (ackUpTo q upto s).boot = s.boot ∧ (ackUpTo q upto s).chan = s.chan ∧ (ackUpTo q upto s).hbm = s.hbm ∧ (ackUpTo q upto s).glint = s.glint ∧ (ackUpTo q upto s).cond = s.cond ∧ (ackUpTo q upto s).tx = s.tx ∧ (ackUpTo q upto s).corr = s.corr ∧ (ackUpTo q upto s).twin = s.twin ∧ (ackUpTo q upto s).mgmt = s.mgmt ∧ (ackUpTo q upto s).host = s.host ∧ (ackUpTo q upto s).out = s.out ∧ (ackUpTo q upto s).free = s.free ∧ (ackUpTo q upto s).tb = s.tb ∧ (ackUpTo q upto s).now = s.now := by
  simp [ackUpTo]
theorem execAckReceived_frame (t : Tick) (q : Fin 16) (b : BitVec 64) (s : State) {t_ : State} (h : execAckReceived t q b s = .next t_) :
    t_.pending = s.pending ∧ t_.audio = s.audio ∧ t_.lbox = s.lbox ∧ t_.pins = s.pins ∧ t_.tOffset = (s.advance t).tOffset ∧ t_.boot = s.boot ∧ t_.chan = s.chan ∧ t_.hbm = s.hbm ∧ t_.glint = s.glint ∧ t_.cond = s.cond ∧ t_.tx = s.tx ∧ t_.corr = s.corr ∧ t_.twin = s.twin ∧ t_.host = s.host ∧ t_.free = s.free ∧ t_.tb = (s.advance t).tb ∧ t_.now = (s.advance t).now := by
  simp only [execAckReceived] at h
  repeat' split at h
  all_goals (cases h; simp)
@[simp] theorem resendAll_frame (q : ℕ) (s : State) :
    (resendAll q s).pending = s.pending ∧ (resendAll q s).audio = s.audio ∧ (resendAll q s).lbox = s.lbox ∧ (resendAll q s).pins = s.pins ∧ (resendAll q s).tOffset = s.tOffset ∧ (resendAll q s).boot = s.boot ∧ (resendAll q s).chan = s.chan ∧ (resendAll q s).hbm = s.hbm ∧ (resendAll q s).glint = s.glint ∧ (resendAll q s).cond = s.cond ∧ (resendAll q s).tx = s.tx ∧ (resendAll q s).corr = s.corr ∧ (resendAll q s).twin = s.twin ∧ (resendAll q s).host = s.host ∧ (resendAll q s).free = s.free ∧ (resendAll q s).tb = s.tb ∧ (resendAll q s).now = s.now := by
  simp [resendAll]
theorem execNakReceived_frame (t : Tick) (q : Fin 16) (b : BitVec 64) (s : State) {t_ : State} (h : execNakReceived t q b s = .next t_) :
    t_.pending = s.pending ∧ t_.audio = s.audio ∧ t_.lbox = s.lbox ∧ t_.pins = s.pins ∧ t_.tOffset = (s.advance t).tOffset ∧ t_.boot = s.boot ∧ t_.chan = s.chan ∧ t_.hbm = s.hbm ∧ t_.glint = s.glint ∧ t_.cond = s.cond ∧ t_.tx = s.tx ∧ t_.corr = s.corr ∧ t_.twin = s.twin ∧ t_.host = s.host ∧ t_.free = s.free ∧ t_.tb = (s.advance t).tb ∧ t_.now = (s.advance t).now := by
  simp only [execNakReceived] at h
  repeat' split at h
  all_goals (cases h; simp)
theorem execRetryTimeout_frame (t : Tick) (q : Fin 16) (s : State) {t_ : State} (h : execRetryTimeout t q s = .next t_) :
    t_.pending = s.pending ∧ t_.audio = s.audio ∧ t_.lbox = s.lbox ∧ t_.pins = s.pins ∧ t_.tOffset = (s.advance t).tOffset ∧ t_.boot = s.boot ∧ t_.chan = s.chan ∧ t_.hbm = s.hbm ∧ t_.glint = s.glint ∧ t_.cond = s.cond ∧ t_.tx = s.tx ∧ t_.corr = s.corr ∧ t_.twin = s.twin ∧ t_.host = s.host ∧ t_.free = s.free ∧ t_.tb = (s.advance t).tb ∧ t_.now = (s.advance t).now := by
  simp only [execRetryTimeout] at h
  repeat' split at h
  all_goals (cases h; simp)
theorem execCreditBlock_frame (t : Tick) (q : Fin 16) (b : BitVec 64) (s : State) {t_ : State} (h : execCreditBlock t q b s = .next t_) :
    t_.pending = s.pending ∧ t_.audio = s.audio ∧ t_.lbox = s.lbox ∧ t_.pins = s.pins ∧ t_.tOffset = (s.advance t).tOffset ∧ t_.boot = s.boot ∧ t_.chan = s.chan ∧ t_.hbm = s.hbm ∧ t_.glint = s.glint ∧ t_.cond = s.cond ∧ t_.tx = s.tx ∧ t_.corr = s.corr ∧ t_.twin = s.twin ∧ t_.host = s.host ∧ t_.free = s.free ∧ t_.tb = (s.advance t).tb ∧ t_.now = (s.advance t).now := by
  simp only [execCreditBlock] at h
  repeat' split at h
  all_goals (cases h; simp)
theorem execCreditGrantSend_frame (t : Tick) (q : Fin 16) (vc : Fin 2) (s : State) {t_ : State} (h : execCreditGrantSend t q vc s = .next t_) :
    t_.pending = s.pending ∧ t_.audio = s.audio ∧ t_.lbox = s.lbox ∧ t_.pins = s.pins ∧ t_.tOffset = (s.advance t).tOffset ∧ t_.boot = s.boot ∧ t_.chan = s.chan ∧ t_.hbm = s.hbm ∧ t_.glint = s.glint ∧ t_.cond = s.cond ∧ t_.tx = s.tx ∧ t_.corr = s.corr ∧ t_.twin = s.twin ∧ t_.host = s.host ∧ t_.free = s.free ∧ t_.tb = (s.advance t).tb ∧ t_.now = (s.advance t).now := by
  simp only [execCreditGrantSend] at h
  repeat' split at h
  all_goals (cases h; simp)
theorem execAlignmentMarker_frame (t : Tick) (q : Fin 16) (ms : List MarkerSeen) (s : State) {t_ : State} (h : execAlignmentMarker t q ms s = .next t_) :
    t_.pending = s.pending ∧ t_.audio = s.audio ∧ t_.lbox = s.lbox ∧ t_.pins = s.pins ∧ t_.tOffset = (s.advance t).tOffset ∧ t_.boot = s.boot ∧ t_.chan = s.chan ∧ t_.hbm = s.hbm ∧ t_.glint = s.glint ∧ t_.tx = s.tx ∧ t_.corr = s.corr ∧ t_.free = s.free ∧ t_.tb = (s.advance t).tb ∧ t_.now = (s.advance t).now := by
  simp only [execAlignmentMarker] at h
  repeat' split at h
  all_goals (cases h; simp)
@[simp] theorem forward_frame (inQuad : ℕ) (seq : ℕ) (kind : ℕ) (data : Bytes) (s : State) :
    (forward inQuad seq kind data s).pending = s.pending ∧ (forward inQuad seq kind data s).audio = s.audio ∧ (forward inQuad seq kind data s).lbox = s.lbox ∧ (forward inQuad seq kind data s).pins = s.pins ∧ (forward inQuad seq kind data s).tOffset = s.tOffset ∧ (forward inQuad seq kind data s).boot = s.boot ∧ (forward inQuad seq kind data s).chan = s.chan ∧ (forward inQuad seq kind data s).hbm = s.hbm ∧ (forward inQuad seq kind data s).glint = s.glint ∧ (forward inQuad seq kind data s).cond = s.cond ∧ (forward inQuad seq kind data s).tx = s.tx ∧ (forward inQuad seq kind data s).corr = s.corr ∧ (forward inQuad seq kind data s).twin = s.twin ∧ (forward inQuad seq kind data s).host = s.host ∧ (forward inQuad seq kind data s).free = s.free ∧ (forward inQuad seq kind data s).tb = s.tb ∧ (forward inQuad seq kind data s).now = s.now := by
  generalize hr : forward inQuad seq kind data s = r
  simp only [forward] at hr
  repeat' split at hr
  all_goals (subst hr; simp)
@[simp] theorem meshSend_frame (dest : ℕ) (kind : ℕ) (body : Bytes) (s : State) :
    (meshSend dest kind body s).pending = s.pending ∧ (meshSend dest kind body s).audio = s.audio ∧ (meshSend dest kind body s).lbox = s.lbox ∧ (meshSend dest kind body s).pins = s.pins ∧ (meshSend dest kind body s).tOffset = s.tOffset ∧ (meshSend dest kind body s).boot = s.boot ∧ (meshSend dest kind body s).chan = s.chan ∧ (meshSend dest kind body s).hbm = s.hbm ∧ (meshSend dest kind body s).glint = s.glint ∧ (meshSend dest kind body s).cond = s.cond ∧ (meshSend dest kind body s).tx = s.tx ∧ (meshSend dest kind body s).corr = s.corr ∧ (meshSend dest kind body s).twin = s.twin ∧ (meshSend dest kind body s).host = s.host ∧ (meshSend dest kind body s).free = s.free ∧ (meshSend dest kind body s).tb = s.tb ∧ (meshSend dest kind body s).now = s.now := by
  generalize hr : meshSend dest kind body s = r
  simp only [meshSend] at hr
  repeat' split at hr
  all_goals (subst hr; simp)
theorem execForwardTimeout_frame (t : Tick) (frame : ℕ) (s : State) {t_ : State} (h : execForwardTimeout t frame s = .next t_) :
    t_.pending = s.pending ∧ t_.audio = s.audio ∧ t_.lbox = s.lbox ∧ t_.pins = s.pins ∧ t_.tOffset = (s.advance t).tOffset ∧ t_.boot = s.boot ∧ t_.chan = s.chan ∧ t_.hbm = s.hbm ∧ t_.glint = s.glint ∧ t_.cond = s.cond ∧ t_.tx = s.tx ∧ t_.corr = s.corr ∧ t_.twin = s.twin ∧ t_.host = s.host ∧ t_.free = s.free ∧ t_.tb = (s.advance t).tb ∧ t_.now = (s.advance t).now := by
  simp only [execForwardTimeout] at h
  repeat' split at h
  all_goals (cases h; simp)
@[simp] theorem meshReceive_pending (q : ℕ) (f : RawFrame) (kind : ℕ) (deliver : State → State) (s : State)
    (h : ∀ s, (deliver s).pending = s.pending) : (meshReceive q f kind deliver s).pending = s.pending := by
  generalize hr : meshReceive q f kind deliver s = r
  simp only [meshReceive] at hr
  repeat' split at hr
  all_goals (subst hr; simp [h, apply_ite (fun s : State => s.pending)])
@[simp] theorem meshReceive_audio (q : ℕ) (f : RawFrame) (kind : ℕ) (deliver : State → State) (s : State)
    (h : ∀ s, (deliver s).audio = s.audio) : (meshReceive q f kind deliver s).audio = s.audio := by
  generalize hr : meshReceive q f kind deliver s = r
  simp only [meshReceive] at hr
  repeat' split at hr
  all_goals (subst hr; simp [h, apply_ite (fun s : State => s.audio)])
@[simp] theorem meshReceive_lbox (q : ℕ) (f : RawFrame) (kind : ℕ) (deliver : State → State) (s : State)
    (h : ∀ s, (deliver s).lbox = s.lbox) : (meshReceive q f kind deliver s).lbox = s.lbox := by
  generalize hr : meshReceive q f kind deliver s = r
  simp only [meshReceive] at hr
  repeat' split at hr
  all_goals (subst hr; simp [h, apply_ite (fun s : State => s.lbox)])
@[simp] theorem meshReceive_pins (q : ℕ) (f : RawFrame) (kind : ℕ) (deliver : State → State) (s : State)
    (h : ∀ s, (deliver s).pins = s.pins) : (meshReceive q f kind deliver s).pins = s.pins := by
  generalize hr : meshReceive q f kind deliver s = r
  simp only [meshReceive] at hr
  repeat' split at hr
  all_goals (subst hr; simp [h, apply_ite (fun s : State => s.pins)])
@[simp] theorem meshReceive_tOffset (q : ℕ) (f : RawFrame) (kind : ℕ) (deliver : State → State) (s : State)
    (h : ∀ s, (deliver s).tOffset = s.tOffset) : (meshReceive q f kind deliver s).tOffset = s.tOffset := by
  generalize hr : meshReceive q f kind deliver s = r
  simp only [meshReceive] at hr
  repeat' split at hr
  all_goals (subst hr; simp [h, apply_ite (fun s : State => s.tOffset)])
@[simp] theorem meshReceive_boot (q : ℕ) (f : RawFrame) (kind : ℕ) (deliver : State → State) (s : State)
    (h : ∀ s, (deliver s).boot = s.boot) : (meshReceive q f kind deliver s).boot = s.boot := by
  generalize hr : meshReceive q f kind deliver s = r
  simp only [meshReceive] at hr
  repeat' split at hr
  all_goals (subst hr; simp [h, apply_ite (fun s : State => s.boot)])
@[simp] theorem meshReceive_chan (q : ℕ) (f : RawFrame) (kind : ℕ) (deliver : State → State) (s : State)
    (h : ∀ s, (deliver s).chan = s.chan) : (meshReceive q f kind deliver s).chan = s.chan := by
  generalize hr : meshReceive q f kind deliver s = r
  simp only [meshReceive] at hr
  repeat' split at hr
  all_goals (subst hr; simp [h, apply_ite (fun s : State => s.chan)])
@[simp] theorem meshReceive_hbm (q : ℕ) (f : RawFrame) (kind : ℕ) (deliver : State → State) (s : State)
    (h : ∀ s, (deliver s).hbm = s.hbm) : (meshReceive q f kind deliver s).hbm = s.hbm := by
  generalize hr : meshReceive q f kind deliver s = r
  simp only [meshReceive] at hr
  repeat' split at hr
  all_goals (subst hr; simp [h, apply_ite (fun s : State => s.hbm)])
@[simp] theorem meshReceive_glint (q : ℕ) (f : RawFrame) (kind : ℕ) (deliver : State → State) (s : State)
    (h : ∀ s, (deliver s).glint = s.glint) : (meshReceive q f kind deliver s).glint = s.glint := by
  generalize hr : meshReceive q f kind deliver s = r
  simp only [meshReceive] at hr
  repeat' split at hr
  all_goals (subst hr; simp [h, apply_ite (fun s : State => s.glint)])
@[simp] theorem meshReceive_cond (q : ℕ) (f : RawFrame) (kind : ℕ) (deliver : State → State) (s : State)
    (h : ∀ s, (deliver s).cond = s.cond) : (meshReceive q f kind deliver s).cond = s.cond := by
  generalize hr : meshReceive q f kind deliver s = r
  simp only [meshReceive] at hr
  repeat' split at hr
  all_goals (subst hr; simp [h, apply_ite (fun s : State => s.cond)])
@[simp] theorem meshReceive_tx (q : ℕ) (f : RawFrame) (kind : ℕ) (deliver : State → State) (s : State)
    (h : ∀ s, (deliver s).tx = s.tx) : (meshReceive q f kind deliver s).tx = s.tx := by
  generalize hr : meshReceive q f kind deliver s = r
  simp only [meshReceive] at hr
  repeat' split at hr
  all_goals (subst hr; simp [h, apply_ite (fun s : State => s.tx)])
@[simp] theorem meshReceive_corr (q : ℕ) (f : RawFrame) (kind : ℕ) (deliver : State → State) (s : State)
    (h : ∀ s, (deliver s).corr = s.corr) : (meshReceive q f kind deliver s).corr = s.corr := by
  generalize hr : meshReceive q f kind deliver s = r
  simp only [meshReceive] at hr
  repeat' split at hr
  all_goals (subst hr; simp [h, apply_ite (fun s : State => s.corr)])
@[simp] theorem meshReceive_twin (q : ℕ) (f : RawFrame) (kind : ℕ) (deliver : State → State) (s : State)
    (h : ∀ s, (deliver s).twin = s.twin) : (meshReceive q f kind deliver s).twin = s.twin := by
  generalize hr : meshReceive q f kind deliver s = r
  simp only [meshReceive] at hr
  repeat' split at hr
  all_goals (subst hr; simp [h, apply_ite (fun s : State => s.twin)])
@[simp] theorem meshReceive_host (q : ℕ) (f : RawFrame) (kind : ℕ) (deliver : State → State) (s : State)
    (h : ∀ s, (deliver s).host = s.host) : (meshReceive q f kind deliver s).host = s.host := by
  generalize hr : meshReceive q f kind deliver s = r
  simp only [meshReceive] at hr
  repeat' split at hr
  all_goals (subst hr; simp [h, apply_ite (fun s : State => s.host)])
@[simp] theorem meshReceive_free (q : ℕ) (f : RawFrame) (kind : ℕ) (deliver : State → State) (s : State)
    (h : ∀ s, (deliver s).free = s.free) : (meshReceive q f kind deliver s).free = s.free := by
  generalize hr : meshReceive q f kind deliver s = r
  simp only [meshReceive] at hr
  repeat' split at hr
  all_goals (subst hr; simp [h, apply_ite (fun s : State => s.free)])
@[simp] theorem meshReceive_tb (q : ℕ) (f : RawFrame) (kind : ℕ) (deliver : State → State) (s : State)
    (h : ∀ s, (deliver s).tb = s.tb) : (meshReceive q f kind deliver s).tb = s.tb := by
  generalize hr : meshReceive q f kind deliver s = r
  simp only [meshReceive] at hr
  repeat' split at hr
  all_goals (subst hr; simp [h, apply_ite (fun s : State => s.tb)])
@[simp] theorem meshReceive_now (q : ℕ) (f : RawFrame) (kind : ℕ) (deliver : State → State) (s : State)
    (h : ∀ s, (deliver s).now = s.now) : (meshReceive q f kind deliver s).now = s.now := by
  generalize hr : meshReceive q f kind deliver s = r
  simp only [meshReceive] at hr
  repeat' split at hr
  all_goals (subst hr; simp [h, apply_ite (fun s : State => s.now)])
@[simp] theorem sendLinkState_frame (src : ℕ) (hops : ℕ) (origin : ℕ) (lseq : ℕ) (ports : ℕ) (skip : Option ℕ) (s : State) :
    (sendLinkState src hops origin lseq ports skip s).pending = s.pending ∧ (sendLinkState src hops origin lseq ports skip s).audio = s.audio ∧ (sendLinkState src hops origin lseq ports skip s).lbox = s.lbox ∧ (sendLinkState src hops origin lseq ports skip s).pins = s.pins ∧ (sendLinkState src hops origin lseq ports skip s).tOffset = s.tOffset ∧ (sendLinkState src hops origin lseq ports skip s).boot = s.boot ∧ (sendLinkState src hops origin lseq ports skip s).chan = s.chan ∧ (sendLinkState src hops origin lseq ports skip s).hbm = s.hbm ∧ (sendLinkState src hops origin lseq ports skip s).glint = s.glint ∧ (sendLinkState src hops origin lseq ports skip s).cond = s.cond ∧ (sendLinkState src hops origin lseq ports skip s).tx = s.tx ∧ (sendLinkState src hops origin lseq ports skip s).corr = s.corr ∧ (sendLinkState src hops origin lseq ports skip s).twin = s.twin ∧ (sendLinkState src hops origin lseq ports skip s).host = s.host ∧ (sendLinkState src hops origin lseq ports skip s).free = s.free ∧ (sendLinkState src hops origin lseq ports skip s).tb = s.tb ∧ (sendLinkState src hops origin lseq ports skip s).now = s.now := by
  unfold sendLinkState
  refine ⟨(foldl_pending _ _ _ fun s a => ?_), (foldl_audio _ _ _ fun s a => ?_), (foldl_lbox _ _ _ fun s a => ?_), (foldl_pins _ _ _ fun s a => ?_), (foldl_tOffset _ _ _ fun s a => ?_), (foldl_boot _ _ _ fun s a => ?_), (foldl_chan _ _ _ fun s a => ?_), (foldl_hbm _ _ _ fun s a => ?_), (foldl_glint _ _ _ fun s a => ?_), (foldl_cond _ _ _ fun s a => ?_), (foldl_tx _ _ _ fun s a => ?_), (foldl_corr _ _ _ fun s a => ?_), (foldl_twin _ _ _ fun s a => ?_), (foldl_host _ _ _ fun s a => ?_), (foldl_free _ _ _ fun s a => ?_), (foldl_tb _ _ _ fun s a => ?_), (foldl_now _ _ _ fun s a => ?_)⟩
  all_goals (try dsimp only)
  all_goals (repeat' (first | rfl | split))
  all_goals (try simp)
theorem execLinkStateOriginate_frame (t : Tick) (s : State) {t_ : State} (h : execLinkStateOriginate t s = .next t_) :
    t_.pending = s.pending ∧ t_.audio = s.audio ∧ t_.lbox = s.lbox ∧ t_.pins = s.pins ∧ t_.tOffset = (s.advance t).tOffset ∧ t_.boot = s.boot ∧ t_.chan = s.chan ∧ t_.hbm = s.hbm ∧ t_.glint = s.glint ∧ t_.cond = s.cond ∧ t_.tx = s.tx ∧ t_.corr = s.corr ∧ t_.twin = s.twin ∧ t_.host = s.host ∧ t_.free = s.free ∧ t_.tb = (s.advance t).tb ∧ t_.now = (s.advance t).now := by
  simp only [execLinkStateOriginate, Host.Outcome.next.injEq] at h
  subst h
  simp
theorem execLinkStateFrame_frame (t : Tick) (q : Fin 16) (f : RawFrame) (s : State) {t_ : State} (h : execLinkStateFrame t q f s = .next t_) :
    t_.pending = s.pending ∧ t_.audio = s.audio ∧ t_.lbox = s.lbox ∧ t_.pins = s.pins ∧ t_.tOffset = (s.advance t).tOffset ∧ t_.boot = s.boot ∧ t_.chan = s.chan ∧ t_.hbm = s.hbm ∧ t_.glint = s.glint ∧ t_.cond = s.cond ∧ t_.tx = s.tx ∧ t_.corr = s.corr ∧ t_.twin = s.twin ∧ t_.host = s.host ∧ t_.free = s.free ∧ t_.tb = (s.advance t).tb ∧ t_.now = (s.advance t).now := by
  unfold execLinkStateFrame at h
  extract_lets at h
  repeat' split at h
  all_goals (have h' := Host.Outcome.next.inj h; subst h'; clear h)
  all_goals first
    | (simp +zetaDelta; done)
    | refine ⟨(meshReceive_pending _ _ _ _ _  fun s => ?_).trans (by simp +zetaDelta), (meshReceive_audio _ _ _ _ _  fun s => ?_).trans (by simp +zetaDelta), (meshReceive_lbox _ _ _ _ _  fun s => ?_).trans (by simp +zetaDelta), (meshReceive_pins _ _ _ _ _  fun s => ?_).trans (by simp +zetaDelta), (meshReceive_tOffset _ _ _ _ _  fun s => ?_).trans (by simp +zetaDelta), (meshReceive_boot _ _ _ _ _  fun s => ?_).trans (by simp +zetaDelta), (meshReceive_chan _ _ _ _ _  fun s => ?_).trans (by simp +zetaDelta), (meshReceive_hbm _ _ _ _ _  fun s => ?_).trans (by simp +zetaDelta), (meshReceive_glint _ _ _ _ _  fun s => ?_).trans (by simp +zetaDelta), (meshReceive_cond _ _ _ _ _  fun s => ?_).trans (by simp +zetaDelta), (meshReceive_tx _ _ _ _ _  fun s => ?_).trans (by simp +zetaDelta), (meshReceive_corr _ _ _ _ _  fun s => ?_).trans (by simp +zetaDelta), (meshReceive_twin _ _ _ _ _  fun s => ?_).trans (by simp +zetaDelta), (meshReceive_host _ _ _ _ _  fun s => ?_).trans (by simp +zetaDelta), (meshReceive_free _ _ _ _ _  fun s => ?_).trans (by simp +zetaDelta), (meshReceive_tb _ _ _ _ _  fun s => ?_).trans (by simp +zetaDelta), (meshReceive_now _ _ _ _ _  fun s => ?_).trans (by simp +zetaDelta)⟩
  all_goals (try dsimp only)
  all_goals (repeat' (first | rfl | split))
  all_goals (try simp)
theorem execLateNoticeReceived_frame (t : Tick) (q : Fin 16) (b : BitVec 64) (s : State) {t_ : State} (h : execLateNoticeReceived t q b s = .next t_) :
    t_.pending = s.pending ∧ t_.audio = s.audio ∧ t_.lbox = s.lbox ∧ t_.pins = s.pins ∧ t_.tOffset = (s.advance t).tOffset ∧ t_.boot = s.boot ∧ t_.hbm = s.hbm ∧ t_.glint = s.glint ∧ t_.cond = s.cond ∧ t_.tx = s.tx ∧ t_.corr = s.corr ∧ t_.twin = s.twin ∧ t_.host = s.host ∧ t_.free = s.free ∧ t_.tb = (s.advance t).tb ∧ t_.now = (s.advance t).now := by
  simp only [execLateNoticeReceived] at h
  repeat' split at h
  all_goals (cases h; simp)
@[simp] theorem setRef_frame (n : ℕ) (r : RefState) (s : State) :
    (setRef n r s).pending = s.pending ∧ (setRef n r s).audio = s.audio ∧ (setRef n r s).lbox = s.lbox ∧ (setRef n r s).pins = s.pins ∧ (setRef n r s).tOffset = s.tOffset ∧ (setRef n r s).boot = s.boot ∧ (setRef n r s).chan = s.chan ∧ (setRef n r s).hbm = s.hbm ∧ (setRef n r s).glint = s.glint ∧ (setRef n r s).cond = s.cond ∧ (setRef n r s).tx = s.tx ∧ (setRef n r s).corr = s.corr ∧ (setRef n r s).link = s.link ∧ (setRef n r s).twin = s.twin ∧ (setRef n r s).mgmt = s.mgmt ∧ (setRef n r s).host = s.host ∧ (setRef n r s).out = s.out ∧ (setRef n r s).free = s.free ∧ (setRef n r s).now = s.now := by
  simp [setRef]
@[simp] theorem endWalk_frame (cause : ℕ) (s : State) :
    (endWalk cause s).pending = s.pending ∧ (endWalk cause s).audio = s.audio ∧ (endWalk cause s).lbox = s.lbox ∧ (endWalk cause s).pins = s.pins ∧ (endWalk cause s).tOffset = s.tOffset ∧ (endWalk cause s).boot = s.boot ∧ (endWalk cause s).chan = s.chan ∧ (endWalk cause s).hbm = s.hbm ∧ (endWalk cause s).glint = s.glint ∧ (endWalk cause s).cond = s.cond ∧ (endWalk cause s).tx = s.tx ∧ (endWalk cause s).corr = s.corr ∧ (endWalk cause s).link = s.link ∧ (endWalk cause s).twin = s.twin ∧ (endWalk cause s).free = s.free ∧ (endWalk cause s).now = s.now := by
  generalize hr : endWalk cause s = r
  simp only [endWalk] at hr
  repeat' split at hr
  all_goals (subst hr; simp)
@[simp] theorem walkCheck_frame (s : State) :
    (walkCheck s).pending = s.pending ∧ (walkCheck s).audio = s.audio ∧ (walkCheck s).lbox = s.lbox ∧ (walkCheck s).pins = s.pins ∧ (walkCheck s).tOffset = s.tOffset ∧ (walkCheck s).boot = s.boot ∧ (walkCheck s).chan = s.chan ∧ (walkCheck s).hbm = s.hbm ∧ (walkCheck s).glint = s.glint ∧ (walkCheck s).cond = s.cond ∧ (walkCheck s).tx = s.tx ∧ (walkCheck s).corr = s.corr ∧ (walkCheck s).link = s.link ∧ (walkCheck s).twin = s.twin ∧ (walkCheck s).free = s.free ∧ (walkCheck s).now = s.now := by
  generalize hr : walkCheck s = r
  simp only [walkCheck] at hr
  repeat' split at hr
  all_goals (subst hr; simp)
@[simp] theorem setO_frame (o : ℤ) (s : State) :
    (setO o s).pending = s.pending ∧ (setO o s).audio = s.audio ∧ (setO o s).lbox = s.lbox ∧ (setO o s).pins = s.pins ∧ (setO o s).tOffset = s.tOffset ∧ (setO o s).boot = s.boot ∧ (setO o s).chan = s.chan ∧ (setO o s).hbm = s.hbm ∧ (setO o s).glint = s.glint ∧ (setO o s).cond = s.cond ∧ (setO o s).tx = s.tx ∧ (setO o s).corr = s.corr ∧ (setO o s).link = s.link ∧ (setO o s).twin = s.twin ∧ (setO o s).free = s.free ∧ (setO o s).now = s.now := by
  simp [setO]
theorem execWalkStep_frame (t : Tick) (s : State) {t_ : State} (h : execWalkStep t s = .next t_) :
    t_.pending = s.pending ∧ t_.audio = s.audio ∧ t_.lbox = s.lbox ∧ t_.pins = s.pins ∧ t_.tOffset = (s.advance t).tOffset ∧ t_.boot = s.boot ∧ t_.chan = s.chan ∧ t_.hbm = s.hbm ∧ t_.glint = s.glint ∧ t_.cond = s.cond ∧ t_.tx = s.tx ∧ t_.corr = s.corr ∧ t_.link = s.link ∧ t_.twin = s.twin ∧ t_.free = s.free ∧ t_.now = (s.advance t).now := by
  simp only [execWalkStep] at h
  repeat' split at h
  all_goals (cases h; simp)
@[simp] theorem enterState_frame (new : TbSt) (s : State) :
    (enterState new s).pending = s.pending ∧ (enterState new s).audio = s.audio ∧ (enterState new s).lbox = s.lbox ∧ (enterState new s).pins = s.pins ∧ (enterState new s).tOffset = s.tOffset ∧ (enterState new s).boot = s.boot ∧ (enterState new s).chan = s.chan ∧ (enterState new s).hbm = s.hbm ∧ (enterState new s).glint = s.glint ∧ (enterState new s).cond = s.cond ∧ (enterState new s).tx = s.tx ∧ (enterState new s).corr = s.corr ∧ (enterState new s).link = s.link ∧ (enterState new s).twin = s.twin ∧ (enterState new s).free = s.free ∧ (enterState new s).now = s.now := by
  generalize hr : enterState new s = r
  simp only [enterState] at hr
  repeat' split at hr
  all_goals (subst hr; simp)
@[simp] theorem selectRef_frame (n : Fin 4) (cause : ℕ) (s : State) :
    (selectRef n cause s).pending = s.pending ∧ (selectRef n cause s).audio = s.audio ∧ (selectRef n cause s).lbox = s.lbox ∧ (selectRef n cause s).pins = s.pins ∧ (selectRef n cause s).tOffset = s.tOffset ∧ (selectRef n cause s).boot = s.boot ∧ (selectRef n cause s).chan = s.chan ∧ (selectRef n cause s).hbm = s.hbm ∧ (selectRef n cause s).glint = s.glint ∧ (selectRef n cause s).cond = s.cond ∧ (selectRef n cause s).tx = s.tx ∧ (selectRef n cause s).corr = s.corr ∧ (selectRef n cause s).link = s.link ∧ (selectRef n cause s).free = s.free ∧ (selectRef n cause s).now = s.now := by
  generalize hr : selectRef n cause s = r
  simp only [selectRef] at hr
  repeat' split at hr
  all_goals (subst hr; simp)
@[simp] theorem loseRef_frame (s : State) :
    (loseRef s).pending = s.pending ∧ (loseRef s).audio = s.audio ∧ (loseRef s).lbox = s.lbox ∧ (loseRef s).pins = s.pins ∧ (loseRef s).tOffset = s.tOffset ∧ (loseRef s).boot = s.boot ∧ (loseRef s).chan = s.chan ∧ (loseRef s).hbm = s.hbm ∧ (loseRef s).glint = s.glint ∧ (loseRef s).cond = s.cond ∧ (loseRef s).tx = s.tx ∧ (loseRef s).corr = s.corr ∧ (loseRef s).link = s.link ∧ (loseRef s).free = s.free ∧ (loseRef s).now = s.now := by
  generalize hr : loseRef s = r
  simp only [loseRef] at hr
  repeat' split at hr
  all_goals (subst hr; simp)
@[simp] theorem pullIn_frame (s : State) :
    (pullIn s).pending = s.pending ∧ (pullIn s).audio = s.audio ∧ (pullIn s).lbox = s.lbox ∧ (pullIn s).pins = s.pins ∧ (pullIn s).tOffset = s.tOffset ∧ (pullIn s).boot = s.boot ∧ (pullIn s).chan = s.chan ∧ (pullIn s).hbm = s.hbm ∧ (pullIn s).glint = s.glint ∧ (pullIn s).cond = s.cond ∧ (pullIn s).tx = s.tx ∧ (pullIn s).corr = s.corr ∧ (pullIn s).link = s.link ∧ (pullIn s).free = s.free ∧ (pullIn s).now = s.now := by
  generalize hr : pullIn s = r
  simp only [pullIn] at hr
  repeat' split at hr
  all_goals (subst hr; simp)
@[simp] theorem switchTo_frame (n : Fin 4) (cause : ℕ) (s : State) :
    (switchTo n cause s).pending = s.pending ∧ (switchTo n cause s).audio = s.audio ∧ (switchTo n cause s).lbox = s.lbox ∧ (switchTo n cause s).pins = s.pins ∧ (switchTo n cause s).tOffset = s.tOffset ∧ (switchTo n cause s).boot = s.boot ∧ (switchTo n cause s).chan = s.chan ∧ (switchTo n cause s).hbm = s.hbm ∧ (switchTo n cause s).glint = s.glint ∧ (switchTo n cause s).cond = s.cond ∧ (switchTo n cause s).tx = s.tx ∧ (switchTo n cause s).corr = s.corr ∧ (switchTo n cause s).link = s.link ∧ (switchTo n cause s).free = s.free ∧ (switchTo n cause s).now = s.now := by
  generalize hr : switchTo n cause s = r
  simp only [switchTo] at hr
  repeat' split at hr
  all_goals (subst hr; simp)
@[simp] theorem reselect_frame (s : State) :
    (reselect s).pending = s.pending ∧ (reselect s).audio = s.audio ∧ (reselect s).lbox = s.lbox ∧ (reselect s).pins = s.pins ∧ (reselect s).tOffset = s.tOffset ∧ (reselect s).boot = s.boot ∧ (reselect s).chan = s.chan ∧ (reselect s).hbm = s.hbm ∧ (reselect s).glint = s.glint ∧ (reselect s).cond = s.cond ∧ (reselect s).tx = s.tx ∧ (reselect s).corr = s.corr ∧ (reselect s).link = s.link ∧ (reselect s).free = s.free ∧ (reselect s).now = s.now := by
  generalize hr : reselect s = r
  simp only [reselect] at hr
  repeat' split at hr
  all_goals (subst hr; simp)
@[simp] theorem timeChange_frame (n : ℕ) (cause : ℕ) (was : Bool) (s : State) :
    (timeChange n cause was s).pending = s.pending ∧ (timeChange n cause was s).audio = s.audio ∧ (timeChange n cause was s).lbox = s.lbox ∧ (timeChange n cause was s).pins = s.pins ∧ (timeChange n cause was s).tOffset = s.tOffset ∧ (timeChange n cause was s).boot = s.boot ∧ (timeChange n cause was s).chan = s.chan ∧ (timeChange n cause was s).hbm = s.hbm ∧ (timeChange n cause was s).glint = s.glint ∧ (timeChange n cause was s).cond = s.cond ∧ (timeChange n cause was s).tx = s.tx ∧ (timeChange n cause was s).corr = s.corr ∧ (timeChange n cause was s).link = s.link ∧ (timeChange n cause was s).twin = s.twin ∧ (timeChange n cause was s).free = s.free ∧ (timeChange n cause was s).now = s.now := by
  generalize hr : timeChange n cause was s = r
  simp only [timeChange] at hr
  repeat' split at hr
  all_goals (subst hr; simp)
@[simp] theorem dropRef_frame (n : ℕ) (st : RefSt) (cause : ℕ) (s : State) :
    (dropRef n st cause s).pending = s.pending ∧ (dropRef n st cause s).audio = s.audio ∧ (dropRef n st cause s).lbox = s.lbox ∧ (dropRef n st cause s).pins = s.pins ∧ (dropRef n st cause s).tOffset = s.tOffset ∧ (dropRef n st cause s).boot = s.boot ∧ (dropRef n st cause s).chan = s.chan ∧ (dropRef n st cause s).hbm = s.hbm ∧ (dropRef n st cause s).glint = s.glint ∧ (dropRef n st cause s).cond = s.cond ∧ (dropRef n st cause s).tx = s.tx ∧ (dropRef n st cause s).corr = s.corr ∧ (dropRef n st cause s).link = s.link ∧ (dropRef n st cause s).free = s.free ∧ (dropRef n st cause s).now = s.now := by
  simp [dropRef]
@[simp] theorem makeInactive_frame (n : ℕ) (c : InactiveCause) (s : State) :
    (makeInactive n c s).pending = s.pending ∧ (makeInactive n c s).audio = s.audio ∧ (makeInactive n c s).lbox = s.lbox ∧ (makeInactive n c s).pins = s.pins ∧ (makeInactive n c s).tOffset = s.tOffset ∧ (makeInactive n c s).boot = s.boot ∧ (makeInactive n c s).chan = s.chan ∧ (makeInactive n c s).hbm = s.hbm ∧ (makeInactive n c s).glint = s.glint ∧ (makeInactive n c s).cond = s.cond ∧ (makeInactive n c s).tx = s.tx ∧ (makeInactive n c s).corr = s.corr ∧ (makeInactive n c s).link = s.link ∧ (makeInactive n c s).free = s.free ∧ (makeInactive n c s).now = s.now := by
  generalize hr : makeInactive n c s = r
  simp only [makeInactive] at hr
  repeat' split at hr
  all_goals (subst hr; simp)
theorem execRefInactive_frame (t : Tick) (n : Fin 4) (c : InactiveCause) (s : State) {t_ : State} (h : execRefInactive t n c s = .next t_) :
    t_.pending = s.pending ∧ t_.audio = s.audio ∧ t_.lbox = s.lbox ∧ t_.pins = s.pins ∧ t_.tOffset = (s.advance t).tOffset ∧ t_.boot = s.boot ∧ t_.chan = s.chan ∧ t_.hbm = s.hbm ∧ t_.glint = s.glint ∧ t_.cond = s.cond ∧ t_.tx = s.tx ∧ t_.corr = s.corr ∧ t_.link = s.link ∧ t_.free = s.free ∧ t_.now = (s.advance t).now := by
  simp only [execRefInactive] at h
  repeat' split at h
  all_goals (cases h; simp)
@[simp] theorem loadTime_frame (past : ℕ) (s : State) :
    (loadTime past s).pending = s.pending ∧ (loadTime past s).audio = s.audio ∧ (loadTime past s).lbox = s.lbox ∧ (loadTime past s).pins = s.pins ∧ (loadTime past s).boot = s.boot ∧ (loadTime past s).chan = s.chan ∧ (loadTime past s).hbm = s.hbm ∧ (loadTime past s).glint = s.glint ∧ (loadTime past s).cond = s.cond ∧ (loadTime past s).tx = s.tx ∧ (loadTime past s).corr = s.corr ∧ (loadTime past s).link = s.link ∧ (loadTime past s).twin = s.twin ∧ (loadTime past s).free = s.free ∧ (loadTime past s).now = s.now := by
  simp [loadTime]
@[simp] theorem loadPending_frame (past : ℕ) (s : State) :
    (loadPending past s).pending = s.pending ∧ (loadPending past s).audio = s.audio ∧ (loadPending past s).lbox = s.lbox ∧ (loadPending past s).pins = s.pins ∧ (loadPending past s).boot = s.boot ∧ (loadPending past s).chan = s.chan ∧ (loadPending past s).hbm = s.hbm ∧ (loadPending past s).glint = s.glint ∧ (loadPending past s).cond = s.cond ∧ (loadPending past s).tx = s.tx ∧ (loadPending past s).corr = s.corr ∧ (loadPending past s).link = s.link ∧ (loadPending past s).twin = s.twin ∧ (loadPending past s).free = s.free ∧ (loadPending past s).now = s.now := by
  generalize hr : loadPending past s = r
  simp only [loadPending] at hr
  repeat' split at hr
  all_goals (subst hr; simp)
@[simp] theorem showPhase_frame (n : ℕ) (s : State) :
    (showPhase n s).pending = s.pending ∧ (showPhase n s).audio = s.audio ∧ (showPhase n s).lbox = s.lbox ∧ (showPhase n s).pins = s.pins ∧ (showPhase n s).tOffset = s.tOffset ∧ (showPhase n s).boot = s.boot ∧ (showPhase n s).chan = s.chan ∧ (showPhase n s).hbm = s.hbm ∧ (showPhase n s).glint = s.glint ∧ (showPhase n s).cond = s.cond ∧ (showPhase n s).tx = s.tx ∧ (showPhase n s).corr = s.corr ∧ (showPhase n s).link = s.link ∧ (showPhase n s).twin = s.twin ∧ (showPhase n s).mgmt = s.mgmt ∧ (showPhase n s).host = s.host ∧ (showPhase n s).out = s.out ∧ (showPhase n s).free = s.free ∧ (showPhase n s).now = s.now := by
  generalize hr : showPhase n s = r
  simp only [showPhase] at hr
  repeat' split at hr
  all_goals (subst hr; simp)
theorem execPpsEdge_frame (t : Tick) (r : Fin 2) (s : State) {t_ : State} (h : execPpsEdge t r s = .next t_) :
    t_.pending = s.pending ∧ t_.audio = s.audio ∧ t_.lbox = s.lbox ∧ t_.pins = s.pins ∧ t_.boot = s.boot ∧ t_.chan = s.chan ∧ t_.hbm = s.hbm ∧ t_.glint = s.glint ∧ t_.cond = s.cond ∧ t_.tx = s.tx ∧ t_.corr = s.corr ∧ t_.link = s.link ∧ t_.twin = s.twin ∧ t_.free = s.free ∧ t_.now = (s.advance t).now := by
  simp only [execPpsEdge] at h
  repeat' split at h
  all_goals (cases h; simp)
theorem execPpsMissing_frame (t : Tick) (r : Fin 2) (s : State) {t_ : State} (h : execPpsMissing t r s = .next t_) :
    t_.pending = s.pending ∧ t_.audio = s.audio ∧ t_.lbox = s.lbox ∧ t_.pins = s.pins ∧ t_.tOffset = (s.advance t).tOffset ∧ t_.boot = s.boot ∧ t_.chan = s.chan ∧ t_.hbm = s.hbm ∧ t_.glint = s.glint ∧ t_.cond = s.cond ∧ t_.tx = s.tx ∧ t_.corr = s.corr ∧ t_.link = s.link ∧ t_.twin = s.twin ∧ t_.free = s.free ∧ t_.now = (s.advance t).now := by
  simp only [execPpsMissing] at h
  repeat' split at h
  all_goals (cases h; simp)
@[simp] theorem qualify_frame (n : ℕ) (off : ℤ) (s : State) :
    (qualify n off s).pending = s.pending ∧ (qualify n off s).audio = s.audio ∧ (qualify n off s).lbox = s.lbox ∧ (qualify n off s).pins = s.pins ∧ (qualify n off s).tOffset = s.tOffset ∧ (qualify n off s).boot = s.boot ∧ (qualify n off s).chan = s.chan ∧ (qualify n off s).hbm = s.hbm ∧ (qualify n off s).glint = s.glint ∧ (qualify n off s).cond = s.cond ∧ (qualify n off s).tx = s.tx ∧ (qualify n off s).corr = s.corr ∧ (qualify n off s).link = s.link ∧ (qualify n off s).free = s.free ∧ (qualify n off s).now = s.now := by
  generalize hr : qualify n off s = r
  simp only [qualify] at hr
  repeat' split at hr
  all_goals (subst hr; simp)
theorem execRefQualifyEval_frame (t : Tick) (r : Fin 4) (offset : ℤ) (s : State) {t_ : State} (h : execRefQualifyEval t r offset s = .next t_) :
    t_.pending = s.pending ∧ t_.audio = s.audio ∧ t_.lbox = s.lbox ∧ t_.pins = s.pins ∧ t_.tOffset = (s.advance t).tOffset ∧ t_.boot = s.boot ∧ t_.chan = s.chan ∧ t_.hbm = s.hbm ∧ t_.glint = s.glint ∧ t_.cond = s.cond ∧ t_.tx = s.tx ∧ t_.corr = s.corr ∧ t_.link = s.link ∧ t_.free = s.free ∧ t_.now = (s.advance t).now := by
  simp only [execRefQualifyEval, Host.Outcome.next.injEq] at h
  subst h
  simp
@[simp] theorem keepMean_frame (n : ℕ) (off : ℤ) (s : State) :
    (keepMean n off s).pending = s.pending ∧ (keepMean n off s).audio = s.audio ∧ (keepMean n off s).lbox = s.lbox ∧ (keepMean n off s).pins = s.pins ∧ (keepMean n off s).tOffset = s.tOffset ∧ (keepMean n off s).boot = s.boot ∧ (keepMean n off s).chan = s.chan ∧ (keepMean n off s).hbm = s.hbm ∧ (keepMean n off s).glint = s.glint ∧ (keepMean n off s).cond = s.cond ∧ (keepMean n off s).tx = s.tx ∧ (keepMean n off s).corr = s.corr ∧ (keepMean n off s).link = s.link ∧ (keepMean n off s).twin = s.twin ∧ (keepMean n off s).mgmt = s.mgmt ∧ (keepMean n off s).host = s.host ∧ (keepMean n off s).out = s.out ∧ (keepMean n off s).free = s.free ∧ (keepMean n off s).now = s.now := by
  generalize hr : keepMean n off s = r
  simp only [keepMean] at hr
  repeat' split at hr
  all_goals (subst hr; simp)
theorem execDriftGuard_frame (t : Tick) (offs : Vector ℤ 4) (s : State) {t_ : State} (h : execDriftGuard t offs s = .next t_) :
    t_.pending = s.pending ∧ t_.audio = s.audio ∧ t_.lbox = s.lbox ∧ t_.pins = s.pins ∧ t_.tOffset = (s.advance t).tOffset ∧ t_.boot = s.boot ∧ t_.chan = s.chan ∧ t_.hbm = s.hbm ∧ t_.glint = s.glint ∧ t_.cond = s.cond ∧ t_.tx = s.tx ∧ t_.corr = s.corr ∧ t_.link = s.link ∧ t_.free = s.free ∧ t_.now = (s.advance t).now := by
  simp only [execDriftGuard] at h
  repeat' split at h
  all_goals (cases h; simp)
theorem execLockAchieved_frame (c : LockCheck) (s : State) {t_ : State} (h : execLockAchieved c s = .next t_) :
    t_.pending = s.pending ∧ t_.audio = s.audio ∧ t_.lbox = s.lbox ∧ t_.pins = s.pins ∧ t_.tOffset = (s.advance c.at_).tOffset ∧ t_.boot = s.boot ∧ t_.chan = s.chan ∧ t_.hbm = s.hbm ∧ t_.glint = s.glint ∧ t_.cond = s.cond ∧ t_.tx = s.tx ∧ t_.corr = s.corr ∧ t_.link = s.link ∧ t_.free = s.free ∧ t_.now = (s.advance c.at_).now := by
  simp only [execLockAchieved] at h
  repeat' split at h
  all_goals (cases h; simp)
theorem execHistoryEntry_frame (sec : Nat) (frac : BitVec 32) (s : State) {t_ : State} (h : execHistoryEntry sec frac s = .next t_) :
    t_.pending = s.pending ∧ t_.audio = s.audio ∧ t_.lbox = s.lbox ∧ t_.pins = s.pins ∧ t_.tOffset = (s.advance (secTick sec frac)).tOffset ∧ t_.boot = s.boot ∧ t_.chan = s.chan ∧ t_.hbm = s.hbm ∧ t_.glint = s.glint ∧ t_.cond = s.cond ∧ t_.tx = s.tx ∧ t_.corr = s.corr ∧ t_.link = s.link ∧ t_.twin = s.twin ∧ t_.mgmt = s.mgmt ∧ t_.host = s.host ∧ t_.out = s.out ∧ t_.free = s.free ∧ t_.now = (s.advance (secTick sec frac)).now := by
  simp only [execHistoryEntry] at h
  repeat' split at h
  all_goals (cases h; simp)
@[simp] theorem closeGate_frame (o : ℕ) (cause : ℕ) (s : State) :
    (closeGate o cause s).pending = s.pending ∧ (closeGate o cause s).audio = s.audio ∧ (closeGate o cause s).lbox = s.lbox ∧ (closeGate o cause s).pins = s.pins ∧ (closeGate o cause s).tOffset = s.tOffset ∧ (closeGate o cause s).boot = s.boot ∧ (closeGate o cause s).chan = s.chan ∧ (closeGate o cause s).hbm = s.hbm ∧ (closeGate o cause s).glint = s.glint ∧ (closeGate o cause s).cond = s.cond ∧ (closeGate o cause s).tx = s.tx ∧ (closeGate o cause s).corr = s.corr ∧ (closeGate o cause s).link = s.link ∧ (closeGate o cause s).twin = s.twin ∧ (closeGate o cause s).free = s.free ∧ (closeGate o cause s).now = s.now := by
  generalize hr : closeGate o cause s = r
  simp only [closeGate] at hr
  repeat' split at hr
  all_goals (subst hr; simp)
theorem execSynthLockLost_frame (t : Tick) (o : Fin 3) (s : State) {t_ : State} (h : execSynthLockLost t o s = .next t_) :
    t_.pending = s.pending ∧ t_.audio = s.audio ∧ t_.lbox = s.lbox ∧ t_.pins = s.pins ∧ t_.tOffset = (s.advance t).tOffset ∧ t_.boot = s.boot ∧ t_.chan = s.chan ∧ t_.hbm = s.hbm ∧ t_.glint = s.glint ∧ t_.cond = s.cond ∧ t_.tx = s.tx ∧ t_.corr = s.corr ∧ t_.link = s.link ∧ t_.twin = s.twin ∧ t_.free = s.free ∧ t_.now = (s.advance t).now := by
  simp only [execSynthLockLost, Host.Outcome.next.injEq] at h
  subst h
  simp
theorem execGateOpen_frame (t : Tick) (o : Fin 3) (s : State) {t_ : State} (h : execGateOpen t o s = .next t_) :
    t_.pending = s.pending ∧ t_.audio = s.audio ∧ t_.lbox = s.lbox ∧ t_.pins = s.pins ∧ t_.tOffset = (s.advance t).tOffset ∧ t_.boot = s.boot ∧ t_.chan = s.chan ∧ t_.hbm = s.hbm ∧ t_.glint = s.glint ∧ t_.cond = s.cond ∧ t_.tx = s.tx ∧ t_.corr = s.corr ∧ t_.link = s.link ∧ t_.free = s.free ∧ t_.now = (s.advance t).now := by
  simp only [execGateOpen] at h
  repeat' split at h
  all_goals (cases h; simp)
theorem execPpsoutPulse_frame (t : Tick) (s : State) {t_ : State} (h : execPpsoutPulse t s = .next t_) :
    t_.pending = s.pending ∧ t_.audio = s.audio ∧ t_.lbox = s.lbox ∧ t_.pins = s.pins ∧ t_.tOffset = (s.advance t).tOffset ∧ t_.boot = s.boot ∧ t_.chan = s.chan ∧ t_.hbm = s.hbm ∧ t_.glint = s.glint ∧ t_.cond = s.cond ∧ t_.tx = s.tx ∧ t_.corr = s.corr ∧ t_.link = s.link ∧ t_.twin = s.twin ∧ t_.mgmt = s.mgmt ∧ t_.host = s.host ∧ t_.out = s.out ∧ t_.free = s.free ∧ t_.now = (s.advance t).now := by
  simp only [execPpsoutPulse] at h
  repeat' split at h
  all_goals (cases h; simp)
theorem execTimeFrameSend_frame (t : Tick) (q : Fin 16) (s : State) {t_ : State} (h : execTimeFrameSend t q s = .next t_) :
    t_.pending = s.pending ∧ t_.audio = s.audio ∧ t_.lbox = s.lbox ∧ t_.pins = s.pins ∧ t_.tOffset = (s.advance t).tOffset ∧ t_.boot = s.boot ∧ t_.chan = s.chan ∧ t_.hbm = s.hbm ∧ t_.glint = s.glint ∧ t_.cond = s.cond ∧ t_.tx = s.tx ∧ t_.corr = s.corr ∧ t_.twin = s.twin ∧ t_.host = s.host ∧ t_.free = s.free ∧ t_.tb = (s.advance t).tb ∧ t_.now = (s.advance t).now := by
  simp only [execTimeFrameSend] at h
  repeat' split at h
  all_goals (cases h; simp)
@[simp] theorem timeRef_frame (n : ℕ) (f : RawFrame) (arrival : ℕ) (echo : Option ℤ) (s : State) :
    (timeRef n f arrival echo s).pending = s.pending ∧ (timeRef n f arrival echo s).audio = s.audio ∧ (timeRef n f arrival echo s).lbox = s.lbox ∧ (timeRef n f arrival echo s).pins = s.pins ∧ (timeRef n f arrival echo s).boot = s.boot ∧ (timeRef n f arrival echo s).chan = s.chan ∧ (timeRef n f arrival echo s).hbm = s.hbm ∧ (timeRef n f arrival echo s).glint = s.glint ∧ (timeRef n f arrival echo s).cond = s.cond ∧ (timeRef n f arrival echo s).tx = s.tx ∧ (timeRef n f arrival echo s).corr = s.corr ∧ (timeRef n f arrival echo s).link = s.link ∧ (timeRef n f arrival echo s).free = s.free ∧ (timeRef n f arrival echo s).now = s.now := by
  generalize hr : timeRef n f arrival echo s = r
  simp only [timeRef] at hr
  repeat' split at hr
  all_goals (subst hr; simp)
theorem execTimeFrame_frame (t : Tick) (q : Fin 16) (arrival : BitVec 64) (f : RawFrame) (s : State) {t_ : State} (h : execTimeFrame t q arrival f s = .next t_) :
    t_.pending = s.pending ∧ t_.audio = s.audio ∧ t_.lbox = s.lbox ∧ t_.pins = s.pins ∧ t_.boot = s.boot ∧ t_.chan = s.chan ∧ t_.hbm = s.hbm ∧ t_.glint = s.glint ∧ t_.cond = s.cond ∧ t_.tx = s.tx ∧ t_.corr = s.corr ∧ t_.free = s.free ∧ t_.now = (s.advance t).now := by
  simp only [execTimeFrame] at h
  repeat' split at h
  all_goals (cases h; simp)
@[simp] theorem writeTsetCtl_frame (v : Reg) (s : State) :
    (writeTsetCtl v s).pending = s.pending ∧ (writeTsetCtl v s).audio = s.audio ∧ (writeTsetCtl v s).lbox = s.lbox ∧ (writeTsetCtl v s).pins = s.pins ∧ (writeTsetCtl v s).boot = s.boot ∧ (writeTsetCtl v s).chan = s.chan ∧ (writeTsetCtl v s).hbm = s.hbm ∧ (writeTsetCtl v s).glint = s.glint ∧ (writeTsetCtl v s).cond = s.cond ∧ (writeTsetCtl v s).tx = s.tx ∧ (writeTsetCtl v s).corr = s.corr ∧ (writeTsetCtl v s).link = s.link ∧ (writeTsetCtl v s).twin = s.twin ∧ (writeTsetCtl v s).free = s.free ∧ (writeTsetCtl v s).now = s.now := by
  generalize hr : writeTsetCtl v s = r
  simp only [writeTsetCtl] at hr
  repeat' split at hr
  all_goals (subst hr; simp)
@[simp] theorem writeRefCfg_frame (n : ℕ) (v : Reg) (s : State) :
    (writeRefCfg n v s).pending = s.pending ∧ (writeRefCfg n v s).audio = s.audio ∧ (writeRefCfg n v s).lbox = s.lbox ∧ (writeRefCfg n v s).pins = s.pins ∧ (writeRefCfg n v s).tOffset = s.tOffset ∧ (writeRefCfg n v s).boot = s.boot ∧ (writeRefCfg n v s).chan = s.chan ∧ (writeRefCfg n v s).hbm = s.hbm ∧ (writeRefCfg n v s).glint = s.glint ∧ (writeRefCfg n v s).cond = s.cond ∧ (writeRefCfg n v s).tx = s.tx ∧ (writeRefCfg n v s).corr = s.corr ∧ (writeRefCfg n v s).free = s.free ∧ (writeRefCfg n v s).now = s.now := by
  generalize hr : writeRefCfg n v s = r
  simp only [writeRefCfg] at hr
  repeat' split at hr
  all_goals (subst hr; simp)
@[simp] theorem writeSclkCfg_frame (k : ℕ) (v : Reg) (s : State) :
    (writeSclkCfg k v s).pending = s.pending ∧ (writeSclkCfg k v s).audio = s.audio ∧ (writeSclkCfg k v s).lbox = s.lbox ∧ (writeSclkCfg k v s).pins = s.pins ∧ (writeSclkCfg k v s).tOffset = s.tOffset ∧ (writeSclkCfg k v s).boot = s.boot ∧ (writeSclkCfg k v s).chan = s.chan ∧ (writeSclkCfg k v s).hbm = s.hbm ∧ (writeSclkCfg k v s).glint = s.glint ∧ (writeSclkCfg k v s).cond = s.cond ∧ (writeSclkCfg k v s).tx = s.tx ∧ (writeSclkCfg k v s).corr = s.corr ∧ (writeSclkCfg k v s).link = s.link ∧ (writeSclkCfg k v s).twin = s.twin ∧ (writeSclkCfg k v s).free = s.free ∧ (writeSclkCfg k v s).now = s.now := by
  generalize hr : writeSclkCfg k v s = r
  simp only [writeSclkCfg] at hr
  repeat' split at hr
  all_goals (subst hr; simp)
@[simp] theorem writeTbCtl_frame (v : Reg) (s : State) :
    (writeTbCtl v s).pending = s.pending ∧ (writeTbCtl v s).audio = s.audio ∧ (writeTbCtl v s).lbox = s.lbox ∧ (writeTbCtl v s).pins = s.pins ∧ (writeTbCtl v s).tOffset = s.tOffset ∧ (writeTbCtl v s).boot = s.boot ∧ (writeTbCtl v s).chan = s.chan ∧ (writeTbCtl v s).hbm = s.hbm ∧ (writeTbCtl v s).glint = s.glint ∧ (writeTbCtl v s).cond = s.cond ∧ (writeTbCtl v s).tx = s.tx ∧ (writeTbCtl v s).corr = s.corr ∧ (writeTbCtl v s).link = s.link ∧ (writeTbCtl v s).free = s.free ∧ (writeTbCtl v s).now = s.now := by
  simp [writeTbCtl]
@[simp] theorem setStackCnt_frame (k : ℕ) (c : StackCnt) (s : State) :
    (setStackCnt k c s).pending = s.pending ∧ (setStackCnt k c s).audio = s.audio ∧ (setStackCnt k c s).lbox = s.lbox ∧ (setStackCnt k c s).pins = s.pins ∧ (setStackCnt k c s).tOffset = s.tOffset ∧ (setStackCnt k c s).boot = s.boot ∧ (setStackCnt k c s).chan = s.chan ∧ (setStackCnt k c s).glint = s.glint ∧ (setStackCnt k c s).cond = s.cond ∧ (setStackCnt k c s).tx = s.tx ∧ (setStackCnt k c s).corr = s.corr ∧ (setStackCnt k c s).link = s.link ∧ (setStackCnt k c s).twin = s.twin ∧ (setStackCnt k c s).mgmt = s.mgmt ∧ (setStackCnt k c s).host = s.host ∧ (setStackCnt k c s).out = s.out ∧ (setStackCnt k c s).free = s.free ∧ (setStackCnt k c s).tb = s.tb ∧ (setStackCnt k c s).now = s.now := by
  simp [setStackCnt]
@[simp] theorem eccWord_frame (port : ℕ) (a : ℕ) (corrected : Bool) (s : State) :
    (eccWord port a corrected s).pending = s.pending ∧ (eccWord port a corrected s).audio = s.audio ∧ (eccWord port a corrected s).lbox = s.lbox ∧ (eccWord port a corrected s).pins = s.pins ∧ (eccWord port a corrected s).tOffset = s.tOffset ∧ (eccWord port a corrected s).boot = s.boot ∧ (eccWord port a corrected s).chan = s.chan ∧ (eccWord port a corrected s).glint = s.glint ∧ (eccWord port a corrected s).cond = s.cond ∧ (eccWord port a corrected s).tx = s.tx ∧ (eccWord port a corrected s).corr = s.corr ∧ (eccWord port a corrected s).link = s.link ∧ (eccWord port a corrected s).free = s.free ∧ (eccWord port a corrected s).tb = s.tb ∧ (eccWord port a corrected s).now = s.now := by
  generalize hr : eccWord port a corrected s = r
  simp only [eccWord] at hr
  repeat' split at hr
  all_goals (subst hr; simp)
@[simp] theorem eccRead_frame (port : ℕ) (region : ℕ) (l : List Ecc) (s : State) :
    (eccRead port region l s).pending = s.pending ∧ (eccRead port region l s).audio = s.audio ∧ (eccRead port region l s).lbox = s.lbox ∧ (eccRead port region l s).pins = s.pins ∧ (eccRead port region l s).tOffset = s.tOffset ∧ (eccRead port region l s).boot = s.boot ∧ (eccRead port region l s).chan = s.chan ∧ (eccRead port region l s).glint = s.glint ∧ (eccRead port region l s).cond = s.cond ∧ (eccRead port region l s).tx = s.tx ∧ (eccRead port region l s).corr = s.corr ∧ (eccRead port region l s).link = s.link ∧ (eccRead port region l s).tb = s.tb ∧ (eccRead port region l s).now = s.now := by
  simp [eccRead]
@[simp] theorem hbmWritten_frame (a : ℕ) (n : ℕ) (s : State) :
    (hbmWritten a n s).pending = s.pending ∧ (hbmWritten a n s).audio = s.audio ∧ (hbmWritten a n s).lbox = s.lbox ∧ (hbmWritten a n s).pins = s.pins ∧ (hbmWritten a n s).tOffset = s.tOffset ∧ (hbmWritten a n s).boot = s.boot ∧ (hbmWritten a n s).chan = s.chan ∧ (hbmWritten a n s).glint = s.glint ∧ (hbmWritten a n s).cond = s.cond ∧ (hbmWritten a n s).tx = s.tx ∧ (hbmWritten a n s).corr = s.corr ∧ (hbmWritten a n s).link = s.link ∧ (hbmWritten a n s).twin = s.twin ∧ (hbmWritten a n s).mgmt = s.mgmt ∧ (hbmWritten a n s).host = s.host ∧ (hbmWritten a n s).out = s.out ∧ (hbmWritten a n s).free = s.free ∧ (hbmWritten a n s).tb = s.tb ∧ (hbmWritten a n s).now = s.now := by
  simp [hbmWritten]
@[simp] theorem undefineStaged_frame (s : State) :
    (undefineStaged s).pending = s.pending ∧ (undefineStaged s).audio = s.audio ∧ (undefineStaged s).lbox = s.lbox ∧ (undefineStaged s).pins = s.pins ∧ (undefineStaged s).tOffset = s.tOffset ∧ (undefineStaged s).boot = s.boot ∧ (undefineStaged s).chan = s.chan ∧ (undefineStaged s).hbm = s.hbm ∧ (undefineStaged s).glint = s.glint ∧ (undefineStaged s).cond = s.cond ∧ (undefineStaged s).tx = s.tx ∧ (undefineStaged s).corr = s.corr ∧ (undefineStaged s).link = s.link ∧ (undefineStaged s).twin = s.twin ∧ (undefineStaged s).mgmt = s.mgmt ∧ (undefineStaged s).out = s.out ∧ (undefineStaged s).tb = s.tb ∧ (undefineStaged s).now = s.now := by
  simp [undefineStaged]
@[simp] theorem undefineLog_frame (s : State) :
    (undefineLog s).pending = s.pending ∧ (undefineLog s).audio = s.audio ∧ (undefineLog s).lbox = s.lbox ∧ (undefineLog s).pins = s.pins ∧ (undefineLog s).tOffset = s.tOffset ∧ (undefineLog s).boot = s.boot ∧ (undefineLog s).chan = s.chan ∧ (undefineLog s).hbm = s.hbm ∧ (undefineLog s).glint = s.glint ∧ (undefineLog s).cond = s.cond ∧ (undefineLog s).tx = s.tx ∧ (undefineLog s).corr = s.corr ∧ (undefineLog s).link = s.link ∧ (undefineLog s).twin = s.twin ∧ (undefineLog s).host = s.host ∧ (undefineLog s).out = s.out ∧ (undefineLog s).tb = s.tb ∧ (undefineLog s).now = s.now := by
  simp [undefineLog]
@[simp] theorem applyLayout_frame (s : State) :
    (applyLayout s).pending = s.pending ∧ (applyLayout s).audio = s.audio ∧ (applyLayout s).lbox = s.lbox ∧ (applyLayout s).pins = s.pins ∧ (applyLayout s).tOffset = s.tOffset ∧ (applyLayout s).boot = s.boot ∧ (applyLayout s).chan = s.chan ∧ (applyLayout s).glint = s.glint ∧ (applyLayout s).tx = s.tx ∧ (applyLayout s).corr = s.corr ∧ (applyLayout s).link = s.link ∧ (applyLayout s).twin = s.twin ∧ (applyLayout s).out = s.out ∧ (applyLayout s).tb = s.tb ∧ (applyLayout s).now = s.now := by
  generalize hr : applyLayout s = r
  simp only [applyLayout] at hr
  repeat' split at hr
  all_goals (subst hr; simp)
@[simp] theorem clearHbmCnt_frame (s : State) :
    (clearHbmCnt s).pending = s.pending ∧ (clearHbmCnt s).audio = s.audio ∧ (clearHbmCnt s).lbox = s.lbox ∧ (clearHbmCnt s).pins = s.pins ∧ (clearHbmCnt s).tOffset = s.tOffset ∧ (clearHbmCnt s).boot = s.boot ∧ (clearHbmCnt s).chan = s.chan ∧ (clearHbmCnt s).glint = s.glint ∧ (clearHbmCnt s).cond = s.cond ∧ (clearHbmCnt s).tx = s.tx ∧ (clearHbmCnt s).corr = s.corr ∧ (clearHbmCnt s).link = s.link ∧ (clearHbmCnt s).twin = s.twin ∧ (clearHbmCnt s).mgmt = s.mgmt ∧ (clearHbmCnt s).host = s.host ∧ (clearHbmCnt s).out = s.out ∧ (clearHbmCnt s).free = s.free ∧ (clearHbmCnt s).tb = s.tb ∧ (clearHbmCnt s).now = s.now := by
  simp [clearHbmCnt]
@[simp] theorem writeHbmCtl_frame (v : Reg) (s : State) :
    (writeHbmCtl v s).pending = s.pending ∧ (writeHbmCtl v s).audio = s.audio ∧ (writeHbmCtl v s).lbox = s.lbox ∧ (writeHbmCtl v s).pins = s.pins ∧ (writeHbmCtl v s).tOffset = s.tOffset ∧ (writeHbmCtl v s).boot = s.boot ∧ (writeHbmCtl v s).chan = s.chan ∧ (writeHbmCtl v s).glint = s.glint ∧ (writeHbmCtl v s).tx = s.tx ∧ (writeHbmCtl v s).corr = s.corr ∧ (writeHbmCtl v s).link = s.link ∧ (writeHbmCtl v s).twin = s.twin ∧ (writeHbmCtl v s).out = s.out ∧ (writeHbmCtl v s).tb = s.tb ∧ (writeHbmCtl v s).now = s.now := by
  generalize hr : writeHbmCtl v s = r
  simp only [writeHbmCtl] at hr
  repeat' split at hr
  all_goals (subst hr; simp)
@[simp] theorem failChannel_frame (c : ℕ) (s : State) :
    (failChannel c s).pending = s.pending ∧ (failChannel c s).audio = s.audio ∧ (failChannel c s).lbox = s.lbox ∧ (failChannel c s).pins = s.pins ∧ (failChannel c s).tOffset = s.tOffset ∧ (failChannel c s).boot = s.boot ∧ (failChannel c s).chan = s.chan ∧ (failChannel c s).glint = s.glint ∧ (failChannel c s).cond = s.cond ∧ (failChannel c s).tx = s.tx ∧ (failChannel c s).corr = s.corr ∧ (failChannel c s).link = s.link ∧ (failChannel c s).twin = s.twin ∧ (failChannel c s).free = s.free ∧ (failChannel c s).tb = s.tb ∧ (failChannel c s).now = s.now := by
  generalize hr : failChannel c s = r
  simp only [failChannel] at hr
  repeat' split at hr
  all_goals (subst hr; simp)
theorem execHbmAlert_frame (t : Tick) (ch : Fin 64) (recurs : Bool) (s : State) {t_ : State} (h : execHbmAlert t ch recurs s = .next t_) :
    t_.pending = s.pending ∧ t_.audio = s.audio ∧ t_.lbox = s.lbox ∧ t_.pins = s.pins ∧ t_.tOffset = (s.advance t).tOffset ∧ t_.boot = s.boot ∧ t_.chan = s.chan ∧ t_.glint = s.glint ∧ t_.cond = s.cond ∧ t_.tx = s.tx ∧ t_.corr = s.corr ∧ t_.link = s.link ∧ t_.tb = (s.advance t).tb ∧ t_.now = (s.advance t).now := by
  simp only [execHbmAlert] at h
  repeat' split at h
  all_goals (cases h; simp)
theorem execHbmRefresh_frame (t : Tick) (pc : Fin 128) (s : State) {t_ : State} (h : execHbmRefresh t pc s = .next t_) :
    t_.pending = s.pending ∧ t_.audio = s.audio ∧ t_.lbox = s.lbox ∧ t_.pins = s.pins ∧ t_.tOffset = (s.advance t).tOffset ∧ t_.boot = s.boot ∧ t_.chan = s.chan ∧ t_.glint = s.glint ∧ t_.cond = s.cond ∧ t_.tx = s.tx ∧ t_.corr = s.corr ∧ t_.link = s.link ∧ t_.twin = s.twin ∧ t_.host = s.host ∧ t_.out = s.out ∧ t_.tb = (s.advance t).tb ∧ t_.now = (s.advance t).now := by
  simp only [execHbmRefresh] at h
  repeat' split at h
  all_goals (cases h; simp)
@[simp] theorem readTemp_frame (k : ℕ) (reading : Option ℤ) (s : State) :
    (readTemp k reading s).pending = s.pending ∧ (readTemp k reading s).audio = s.audio ∧ (readTemp k reading s).lbox = s.lbox ∧ (readTemp k reading s).pins = s.pins ∧ (readTemp k reading s).tOffset = s.tOffset ∧ (readTemp k reading s).boot = s.boot ∧ (readTemp k reading s).chan = s.chan ∧ (readTemp k reading s).glint = s.glint ∧ (readTemp k reading s).cond = s.cond ∧ (readTemp k reading s).tx = s.tx ∧ (readTemp k reading s).corr = s.corr ∧ (readTemp k reading s).link = s.link ∧ (readTemp k reading s).twin = s.twin ∧ (readTemp k reading s).mgmt = s.mgmt ∧ (readTemp k reading s).host = s.host ∧ (readTemp k reading s).out = s.out ∧ (readTemp k reading s).free = s.free ∧ (readTemp k reading s).tb = s.tb ∧ (readTemp k reading s).now = s.now := by
  generalize hr : readTemp k reading s = r
  simp only [readTemp] at hr
  repeat' split at hr
  all_goals (subst hr; simp)
theorem execHbmTrainingDone_frame (t : Tick) (trained : BitVec 4) (s : State) {t_ : State} (h : execHbmTrainingDone t trained s = .next t_) :
    t_.pending = s.pending ∧ t_.audio = s.audio ∧ t_.lbox = s.lbox ∧ t_.pins = s.pins ∧ t_.tOffset = (s.advance t).tOffset ∧ t_.boot = s.boot ∧ t_.chan = s.chan ∧ t_.glint = s.glint ∧ t_.cond = s.cond ∧ t_.tx = s.tx ∧ t_.corr = s.corr ∧ t_.link = s.link ∧ t_.twin = s.twin ∧ t_.free = s.free ∧ t_.tb = (s.advance t).tb ∧ t_.now = (s.advance t).now := by
  unfold execHbmTrainingDone at h
  extract_lets at h
  split at h
  all_goals (have h' := Host.Outcome.next.inj h; rw [← h']; clear h h')
  · simp +zetaDelta
  · refine ⟨(foldl_pending _ _ _ fun s a => ?_).trans ?_, (foldl_audio _ _ _ fun s a => ?_).trans ?_, (foldl_lbox _ _ _ fun s a => ?_).trans ?_, (foldl_pins _ _ _ fun s a => ?_).trans ?_, (foldl_tOffset _ _ _ fun s a => ?_).trans ?_, (foldl_boot _ _ _ fun s a => ?_).trans ?_, (foldl_chan _ _ _ fun s a => ?_).trans ?_, (foldl_glint _ _ _ fun s a => ?_).trans ?_, (foldl_cond _ _ _ fun s a => ?_).trans ?_, (foldl_tx _ _ _ fun s a => ?_).trans ?_, (foldl_corr _ _ _ fun s a => ?_).trans ?_, (foldl_link _ _ _ fun s a => ?_).trans ?_, (foldl_twin _ _ _ fun s a => ?_).trans ?_, (foldl_free _ _ _ fun s a => ?_).trans ?_, (foldl_tb _ _ _ fun s a => ?_).trans ?_, (foldl_now _ _ _ fun s a => ?_).trans ?_⟩
    all_goals first | (split <;> simp; done) | simp +zetaDelta
@[simp] theorem pairRequests_frame (first : Bool) (h : PairHalf) (s : State) :
    (pairRequests first h s).pending = s.pending ∧ (pairRequests first h s).audio = s.audio ∧ (pairRequests first h s).lbox = s.lbox ∧ (pairRequests first h s).pins = s.pins ∧ (pairRequests first h s).tOffset = s.tOffset ∧ (pairRequests first h s).boot = s.boot ∧ (pairRequests first h s).chan = s.chan ∧ (pairRequests first h s).glint = s.glint ∧ (pairRequests first h s).cond = s.cond ∧ (pairRequests first h s).tx = s.tx ∧ (pairRequests first h s).corr = s.corr ∧ (pairRequests first h s).link = s.link ∧ (pairRequests first h s).twin = s.twin ∧ (pairRequests first h s).host = s.host ∧ (pairRequests first h s).out = s.out ∧ (pairRequests first h s).tb = s.tb ∧ (pairRequests first h s).now = s.now := by
  generalize hr : pairRequests first h s = r
  simp only [pairRequests] at hr
  repeat' split at hr
  all_goals (subst hr; simp)
@[simp] theorem openPair_frame (a : ℕ) (h : PairHalf) (s : State) :
    (openPair a h s).pending = s.pending ∧ (openPair a h s).audio = s.audio ∧ (openPair a h s).lbox = s.lbox ∧ (openPair a h s).pins = s.pins ∧ (openPair a h s).tOffset = s.tOffset ∧ (openPair a h s).boot = s.boot ∧ (openPair a h s).chan = s.chan ∧ (openPair a h s).glint = s.glint ∧ (openPair a h s).cond = s.cond ∧ (openPair a h s).tx = s.tx ∧ (openPair a h s).corr = s.corr ∧ (openPair a h s).link = s.link ∧ (openPair a h s).twin = s.twin ∧ (openPair a h s).host = s.host ∧ (openPair a h s).out = s.out ∧ (openPair a h s).tb = s.tb ∧ (openPair a h s).now = s.now := by
  simp [openPair]
@[simp] theorem applyPair_frame (tag : ℕ) (e : PairEntry) (bursts : List Bytes) (s : State) :
    (applyPair tag e bursts s).pending = s.pending ∧ (applyPair tag e bursts s).audio = s.audio ∧ (applyPair tag e bursts s).lbox = s.lbox ∧ (applyPair tag e bursts s).pins = s.pins ∧ (applyPair tag e bursts s).tOffset = s.tOffset ∧ (applyPair tag e bursts s).boot = s.boot ∧ (applyPair tag e bursts s).chan = s.chan ∧ (applyPair tag e bursts s).glint = s.glint ∧ (applyPair tag e bursts s).cond = s.cond ∧ (applyPair tag e bursts s).tx = s.tx ∧ (applyPair tag e bursts s).corr = s.corr ∧ (applyPair tag e bursts s).link = s.link ∧ (applyPair tag e bursts s).twin = s.twin ∧ (applyPair tag e bursts s).mgmt = s.mgmt ∧ (applyPair tag e bursts s).host = s.host ∧ (applyPair tag e bursts s).tb = s.tb ∧ (applyPair tag e bursts s).now = s.now := by
  generalize hr : applyPair tag e bursts s = r
  simp only [applyPair] at hr
  repeat' split at hr
  all_goals (subst hr; simp)
@[simp] theorem discardPair_frame (tag : ℕ) (e : PairEntry) (s : State) :
    (discardPair tag e s).pending = s.pending ∧ (discardPair tag e s).audio = s.audio ∧ (discardPair tag e s).lbox = s.lbox ∧ (discardPair tag e s).pins = s.pins ∧ (discardPair tag e s).tOffset = s.tOffset ∧ (discardPair tag e s).boot = s.boot ∧ (discardPair tag e s).chan = s.chan ∧ (discardPair tag e s).glint = s.glint ∧ (discardPair tag e s).cond = s.cond ∧ (discardPair tag e s).tx = s.tx ∧ (discardPair tag e s).corr = s.corr ∧ (discardPair tag e s).link = s.link ∧ (discardPair tag e s).twin = s.twin ∧ (discardPair tag e s).mgmt = s.mgmt ∧ (discardPair tag e s).host = s.host ∧ (discardPair tag e s).out = s.out ∧ (discardPair tag e s).free = s.free ∧ (discardPair tag e s).tb = s.tb ∧ (discardPair tag e s).now = s.now := by
  simp [discardPair]
@[simp] theorem lateHalf_frame (h : PairHalf) (s : State) :
    (lateHalf h s).pending = s.pending ∧ (lateHalf h s).audio = s.audio ∧ (lateHalf h s).lbox = s.lbox ∧ (lateHalf h s).pins = s.pins ∧ (lateHalf h s).tOffset = s.tOffset ∧ (lateHalf h s).boot = s.boot ∧ (lateHalf h s).chan = s.chan ∧ (lateHalf h s).glint = s.glint ∧ (lateHalf h s).cond = s.cond ∧ (lateHalf h s).tx = s.tx ∧ (lateHalf h s).corr = s.corr ∧ (lateHalf h s).link = s.link ∧ (lateHalf h s).twin = s.twin ∧ (lateHalf h s).mgmt = s.mgmt ∧ (lateHalf h s).host = s.host ∧ (lateHalf h s).out = s.out ∧ (lateHalf h s).free = s.free ∧ (lateHalf h s).tb = s.tb ∧ (lateHalf h s).now = s.now := by
  generalize hr : lateHalf h s = r
  simp only [lateHalf] at hr
  repeat' split at hr
  all_goals (subst hr; simp)
@[simp] theorem takeHalf_frame (a : ℕ) (h : PairHalf) (s : State) :
    (takeHalf a h s).pending = s.pending ∧ (takeHalf a h s).audio = s.audio ∧ (takeHalf a h s).lbox = s.lbox ∧ (takeHalf a h s).pins = s.pins ∧ (takeHalf a h s).tOffset = s.tOffset ∧ (takeHalf a h s).boot = s.boot ∧ (takeHalf a h s).chan = s.chan ∧ (takeHalf a h s).glint = s.glint ∧ (takeHalf a h s).cond = s.cond ∧ (takeHalf a h s).tx = s.tx ∧ (takeHalf a h s).corr = s.corr ∧ (takeHalf a h s).link = s.link ∧ (takeHalf a h s).twin = s.twin ∧ (takeHalf a h s).host = s.host ∧ (takeHalf a h s).tb = s.tb ∧ (takeHalf a h s).now = s.now := by
  generalize hr : takeHalf a h s = r
  simp only [takeHalf] at hr
  repeat' split at hr
  all_goals (subst hr; simp)
@[simp] theorem retryHalvesN_frame (a : ℕ) (a1 : State) :
    (retryHalvesN a a1).pending = a1.pending ∧ (retryHalvesN a a1).audio = a1.audio ∧ (retryHalvesN a a1).lbox = a1.lbox ∧ (retryHalvesN a a1).pins = a1.pins ∧ (retryHalvesN a a1).tOffset = a1.tOffset ∧ (retryHalvesN a a1).boot = a1.boot ∧ (retryHalvesN a a1).chan = a1.chan ∧ (retryHalvesN a a1).glint = a1.glint ∧ (retryHalvesN a a1).cond = a1.cond ∧ (retryHalvesN a a1).tx = a1.tx ∧ (retryHalvesN a a1).corr = a1.corr ∧ (retryHalvesN a a1).link = a1.link ∧ (retryHalvesN a a1).twin = a1.twin ∧ (retryHalvesN a a1).host = a1.host ∧ (retryHalvesN a a1).tb = a1.tb ∧ (retryHalvesN a a1).now = a1.now := by
  induction a generalizing a1 with
  | zero => simp [retryHalvesN]
  | succ n ih =>
    generalize hr : retryHalvesN (n + 1) a1 = r
    simp only [retryHalvesN] at hr
    repeat' (first | split at hr)
    all_goals (subst hr; simp [ih])
theorem execPairHalfArrival_frame (t : Tick) (h : PairHalf) (s : State) {t_ : State} (h : execPairHalfArrival t h s = .next t_) :
    t_.pending = s.pending ∧ t_.audio = s.audio ∧ t_.lbox = s.lbox ∧ t_.pins = s.pins ∧ t_.tOffset = (s.advance t).tOffset ∧ t_.boot = s.boot ∧ t_.chan = s.chan ∧ t_.glint = s.glint ∧ t_.cond = s.cond ∧ t_.tx = s.tx ∧ t_.corr = s.corr ∧ t_.link = s.link ∧ t_.twin = s.twin ∧ t_.host = s.host ∧ t_.tb = (s.advance t).tb ∧ t_.now = (s.advance t).now := by
  simp only [execPairHalfArrival] at h
  repeat' split at h
  all_goals (cases h; simp)
theorem execPairTimeout_frame (t : Tick) (tag : BitVec 16) (s : State) {t_ : State} (h : execPairTimeout t tag s = .next t_) :
    t_.pending = s.pending ∧ t_.audio = s.audio ∧ t_.lbox = s.lbox ∧ t_.pins = s.pins ∧ t_.tOffset = (s.advance t).tOffset ∧ t_.boot = s.boot ∧ t_.chan = s.chan ∧ t_.glint = s.glint ∧ t_.cond = s.cond ∧ t_.tx = s.tx ∧ t_.corr = s.corr ∧ t_.link = s.link ∧ t_.twin = s.twin ∧ t_.host = s.host ∧ t_.tb = (s.advance t).tb ∧ t_.now = (s.advance t).now := by
  simp only [execPairTimeout] at h
  repeat' split at h
  all_goals (cases h; simp)
theorem execPairQuery_frame (t : Tick) (tag : BitVec 16) (s : State) {t_ : State} (h : execPairQuery t tag s = .next t_) :
    t_.pending = s.pending ∧ t_.audio = s.audio ∧ t_.lbox = s.lbox ∧ t_.pins = s.pins ∧ t_.tOffset = (s.advance t).tOffset ∧ t_.boot = s.boot ∧ t_.chan = s.chan ∧ t_.glint = s.glint ∧ t_.cond = s.cond ∧ t_.tx = s.tx ∧ t_.corr = s.corr ∧ t_.link = s.link ∧ t_.twin = s.twin ∧ t_.host = s.host ∧ t_.tb = (s.advance t).tb ∧ t_.now = (s.advance t).now := by
  simp only [execPairQuery] at h
  repeat' split at h
  all_goals (cases h; simp)
@[simp] theorem scrubPass_frame (s : State) :
    (scrubPass s).pending = s.pending ∧ (scrubPass s).audio = s.audio ∧ (scrubPass s).lbox = s.lbox ∧ (scrubPass s).pins = s.pins ∧ (scrubPass s).tOffset = s.tOffset ∧ (scrubPass s).boot = s.boot ∧ (scrubPass s).chan = s.chan ∧ (scrubPass s).glint = s.glint ∧ (scrubPass s).cond = s.cond ∧ (scrubPass s).tx = s.tx ∧ (scrubPass s).corr = s.corr ∧ (scrubPass s).link = s.link ∧ (scrubPass s).twin = s.twin ∧ (scrubPass s).mgmt = s.mgmt ∧ (scrubPass s).host = s.host ∧ (scrubPass s).out = s.out ∧ (scrubPass s).free = s.free ∧ (scrubPass s).tb = s.tb ∧ (scrubPass s).now = s.now := by
  generalize hr : scrubPass s = r
  simp only [scrubPass] at hr
  repeat' split at hr
  all_goals (subst hr; simp)
theorem execScrubStep_frame (t : Tick) (word : ℕ) (ecc : List Ecc) (s : State) {t_ : State} (h : execScrubStep t word ecc s = .next t_) :
    t_.pending = s.pending ∧ t_.audio = s.audio ∧ t_.lbox = s.lbox ∧ t_.pins = s.pins ∧ t_.tOffset = (s.advance t).tOffset ∧ t_.boot = s.boot ∧ t_.chan = s.chan ∧ t_.glint = s.glint ∧ t_.cond = s.cond ∧ t_.tx = s.tx ∧ t_.corr = s.corr ∧ t_.link = s.link ∧ t_.tb = (s.advance t).tb ∧ t_.now = (s.advance t).now := by
  unfold execScrubStep at h
  extract_lets at h
  split at h
  · (have h' := Host.Outcome.next.inj h; subst h'; clear h); simp +zetaDelta
  · split at h
    all_goals (have h' := Host.Outcome.next.inj h; subst h'; clear h)
    all_goals simp +zetaDelta
@[simp] theorem modCnt_frame (e : ℕ) (f : ElemCnt → ElemCnt) (s : State) :
    (modCnt e f s).pending = s.pending ∧ (modCnt e f s).audio = s.audio ∧ (modCnt e f s).lbox = s.lbox ∧ (modCnt e f s).pins = s.pins ∧ (modCnt e f s).tOffset = s.tOffset ∧ (modCnt e f s).boot = s.boot ∧ (modCnt e f s).chan = s.chan ∧ (modCnt e f s).hbm = s.hbm ∧ (modCnt e f s).glint = s.glint ∧ (modCnt e f s).tx = s.tx ∧ (modCnt e f s).corr = s.corr ∧ (modCnt e f s).link = s.link ∧ (modCnt e f s).twin = s.twin ∧ (modCnt e f s).mgmt = s.mgmt ∧ (modCnt e f s).host = s.host ∧ (modCnt e f s).out = s.out ∧ (modCnt e f s).free = s.free ∧ (modCnt e f s).tb = s.tb ∧ (modCnt e f s).now = s.now := by
  simp [modCnt]
@[simp] theorem accept_frame (d : Desc) (s : State) :
    (accept d s).pending = s.pending ∧ (accept d s).audio = s.audio ∧ (accept d s).lbox = s.lbox ∧ (accept d s).pins = s.pins ∧ (accept d s).tOffset = s.tOffset ∧ (accept d s).boot = s.boot ∧ (accept d s).chan = s.chan ∧ (accept d s).hbm = s.hbm ∧ (accept d s).glint = s.glint ∧ (accept d s).cond = s.cond ∧ (accept d s).tx = s.tx ∧ (accept d s).corr = s.corr ∧ (accept d s).link = s.link ∧ (accept d s).free = s.free ∧ (accept d s).tb = s.tb ∧ (accept d s).now = s.now := by
  simp [accept]
@[simp] theorem acceptAt_frame (T : ℕ) (d : Desc) (s : State) :
    (acceptAt T d s).pending = s.pending ∧ (acceptAt T d s).audio = s.audio ∧ (acceptAt T d s).lbox = s.lbox ∧ (acceptAt T d s).pins = s.pins ∧ (acceptAt T d s).tOffset = s.tOffset ∧ (acceptAt T d s).boot = s.boot ∧ (acceptAt T d s).chan = s.chan ∧ (acceptAt T d s).hbm = s.hbm ∧ (acceptAt T d s).glint = s.glint ∧ (acceptAt T d s).cond = s.cond ∧ (acceptAt T d s).tx = s.tx ∧ (acceptAt T d s).corr = s.corr ∧ (acceptAt T d s).link = s.link ∧ (acceptAt T d s).free = s.free ∧ (acceptAt T d s).tb = s.tb ∧ (acceptAt T d s).now = s.now := by
  generalize hr : acceptAt T d s = r
  simp only [acceptAt] at hr
  repeat' split at hr
  all_goals (subst hr; simp)
@[simp] theorem completeFree_frame (d : Desc) (status : ℕ) (s : State) :
    (completeFree d status s).pending = s.pending ∧ (completeFree d status s).audio = s.audio ∧ (completeFree d status s).lbox = s.lbox ∧ (completeFree d status s).pins = s.pins ∧ (completeFree d status s).tOffset = s.tOffset ∧ (completeFree d status s).boot = s.boot ∧ (completeFree d status s).chan = s.chan ∧ (completeFree d status s).hbm = s.hbm ∧ (completeFree d status s).glint = s.glint ∧ (completeFree d status s).cond = s.cond ∧ (completeFree d status s).tx = s.tx ∧ (completeFree d status s).corr = s.corr ∧ (completeFree d status s).link = s.link ∧ (completeFree d status s).twin = s.twin ∧ (completeFree d status s).mgmt = s.mgmt ∧ (completeFree d status s).tb = s.tb ∧ (completeFree d status s).now = s.now := by
  simp [completeFree]
@[simp] theorem refuse_frame (d : Desc) (c : ℕ × ℕ) (s : State) :
    (refuse d c s).pending = s.pending ∧ (refuse d c s).audio = s.audio ∧ (refuse d c s).lbox = s.lbox ∧ (refuse d c s).pins = s.pins ∧ (refuse d c s).tOffset = s.tOffset ∧ (refuse d c s).boot = s.boot ∧ (refuse d c s).chan = s.chan ∧ (refuse d c s).hbm = s.hbm ∧ (refuse d c s).glint = s.glint ∧ (refuse d c s).cond = s.cond ∧ (refuse d c s).tx = s.tx ∧ (refuse d c s).corr = s.corr ∧ (refuse d c s).link = s.link ∧ (refuse d c s).twin = s.twin ∧ (refuse d c s).mgmt = s.mgmt ∧ (refuse d c s).tb = s.tb ∧ (refuse d c s).now = s.now := by
  generalize hr : refuse d c s = r
  simp only [refuse] at hr
  repeat' split at hr
  all_goals (subst hr; simp)
@[simp] theorem setRun_frame (e : ℕ) (r : ElemRun) (s : State) :
    (setRun e r s).pending = s.pending ∧ (setRun e r s).audio = s.audio ∧ (setRun e r s).lbox = s.lbox ∧ (setRun e r s).pins = s.pins ∧ (setRun e r s).tOffset = s.tOffset ∧ (setRun e r s).boot = s.boot ∧ (setRun e r s).chan = s.chan ∧ (setRun e r s).hbm = s.hbm ∧ (setRun e r s).glint = s.glint ∧ (setRun e r s).tx = s.tx ∧ (setRun e r s).corr = s.corr ∧ (setRun e r s).link = s.link ∧ (setRun e r s).twin = s.twin ∧ (setRun e r s).mgmt = s.mgmt ∧ (setRun e r s).host = s.host ∧ (setRun e r s).out = s.out ∧ (setRun e r s).free = s.free ∧ (setRun e r s).tb = s.tb ∧ (setRun e r s).now = s.now := by
  simp [setRun]
@[simp] theorem enterSpan_frame (e : ℕ) (from_ : ℕ) (s : State) :
    (enterSpan e from_ s).pending = s.pending ∧ (enterSpan e from_ s).audio = s.audio ∧ (enterSpan e from_ s).lbox = s.lbox ∧ (enterSpan e from_ s).pins = s.pins ∧ (enterSpan e from_ s).tOffset = s.tOffset ∧ (enterSpan e from_ s).boot = s.boot ∧ (enterSpan e from_ s).chan = s.chan ∧ (enterSpan e from_ s).hbm = s.hbm ∧ (enterSpan e from_ s).glint = s.glint ∧ (enterSpan e from_ s).tx = s.tx ∧ (enterSpan e from_ s).corr = s.corr ∧ (enterSpan e from_ s).link = s.link ∧ (enterSpan e from_ s).twin = s.twin ∧ (enterSpan e from_ s).mgmt = s.mgmt ∧ (enterSpan e from_ s).host = s.host ∧ (enterSpan e from_ s).out = s.out ∧ (enterSpan e from_ s).free = s.free ∧ (enterSpan e from_ s).tb = s.tb ∧ (enterSpan e from_ s).now = s.now := by
  generalize hr : enterSpan e from_ s = r
  simp only [enterSpan] at hr
  repeat' split at hr
  all_goals (subst hr; simp)
@[simp] theorem glintSkip_frame (e : ℕ) (next : ℕ) (s : State) :
    (glintSkip e next s).pending = s.pending ∧ (glintSkip e next s).audio = s.audio ∧ (glintSkip e next s).lbox = s.lbox ∧ (glintSkip e next s).pins = s.pins ∧ (glintSkip e next s).tOffset = s.tOffset ∧ (glintSkip e next s).boot = s.boot ∧ (glintSkip e next s).chan = s.chan ∧ (glintSkip e next s).hbm = s.hbm ∧ (glintSkip e next s).cond = s.cond ∧ (glintSkip e next s).tx = s.tx ∧ (glintSkip e next s).corr = s.corr ∧ (glintSkip e next s).link = s.link ∧ (glintSkip e next s).twin = s.twin ∧ (glintSkip e next s).mgmt = s.mgmt ∧ (glintSkip e next s).host = s.host ∧ (glintSkip e next s).out = s.out ∧ (glintSkip e next s).free = s.free ∧ (glintSkip e next s).tb = s.tb ∧ (glintSkip e next s).now = s.now := by
  generalize hr : glintSkip e next s = r
  simp only [glintSkip] at hr
  repeat' split at hr
  all_goals (subst hr; simp)
@[simp] theorem audioSkip_frame (e : ℕ) (s : State) :
    (audioSkip e s).pending = s.pending ∧ (audioSkip e s).lbox = s.lbox ∧ (audioSkip e s).pins = s.pins ∧ (audioSkip e s).tOffset = s.tOffset ∧ (audioSkip e s).boot = s.boot ∧ (audioSkip e s).chan = s.chan ∧ (audioSkip e s).hbm = s.hbm ∧ (audioSkip e s).glint = s.glint ∧ (audioSkip e s).cond = s.cond ∧ (audioSkip e s).tx = s.tx ∧ (audioSkip e s).corr = s.corr ∧ (audioSkip e s).link = s.link ∧ (audioSkip e s).twin = s.twin ∧ (audioSkip e s).mgmt = s.mgmt ∧ (audioSkip e s).host = s.host ∧ (audioSkip e s).out = s.out ∧ (audioSkip e s).free = s.free ∧ (audioSkip e s).tb = s.tb ∧ (audioSkip e s).now = s.now := by
  simp [audioSkip]
@[simp] theorem skipTo_frame (e : ℕ) (d : GroupDesc) (b : ℕ) (s : State) :
    (skipTo e d b s).pending = s.pending ∧ (skipTo e d b s).lbox = s.lbox ∧ (skipTo e d b s).pins = s.pins ∧ (skipTo e d b s).tOffset = s.tOffset ∧ (skipTo e d b s).boot = s.boot ∧ (skipTo e d b s).chan = s.chan ∧ (skipTo e d b s).hbm = s.hbm ∧ (skipTo e d b s).cond = s.cond ∧ (skipTo e d b s).tx = s.tx ∧ (skipTo e d b s).corr = s.corr ∧ (skipTo e d b s).link = s.link ∧ (skipTo e d b s).twin = s.twin ∧ (skipTo e d b s).mgmt = s.mgmt ∧ (skipTo e d b s).host = s.host ∧ (skipTo e d b s).out = s.out ∧ (skipTo e d b s).free = s.free ∧ (skipTo e d b s).tb = s.tb ∧ (skipTo e d b s).now = s.now := by
  simp [skipTo]
@[simp] theorem beginRun_frame (e : ℕ) (tOrg : ℕ) (d : GroupDesc) (b : ℕ) (delay : ℕ) (s : State) :
    (beginRun e tOrg d b delay s).pending = s.pending ∧ (beginRun e tOrg d b delay s).lbox = s.lbox ∧ (beginRun e tOrg d b delay s).pins = s.pins ∧ (beginRun e tOrg d b delay s).tOffset = s.tOffset ∧ (beginRun e tOrg d b delay s).boot = s.boot ∧ (beginRun e tOrg d b delay s).chan = s.chan ∧ (beginRun e tOrg d b delay s).hbm = s.hbm ∧ (beginRun e tOrg d b delay s).tx = s.tx ∧ (beginRun e tOrg d b delay s).corr = s.corr ∧ (beginRun e tOrg d b delay s).link = s.link ∧ (beginRun e tOrg d b delay s).twin = s.twin ∧ (beginRun e tOrg d b delay s).mgmt = s.mgmt ∧ (beginRun e tOrg d b delay s).host = s.host ∧ (beginRun e tOrg d b delay s).out = s.out ∧ (beginRun e tOrg d b delay s).free = s.free ∧ (beginRun e tOrg d b delay s).tb = s.tb ∧ (beginRun e tOrg d b delay s).now = s.now := by
  simp [beginRun]
@[simp] theorem jumpRun_frame (e : ℕ) (s : State) :
    (jumpRun e s).pending = s.pending ∧ (jumpRun e s).lbox = s.lbox ∧ (jumpRun e s).pins = s.pins ∧ (jumpRun e s).tOffset = s.tOffset ∧ (jumpRun e s).boot = s.boot ∧ (jumpRun e s).chan = s.chan ∧ (jumpRun e s).hbm = s.hbm ∧ (jumpRun e s).tx = s.tx ∧ (jumpRun e s).corr = s.corr ∧ (jumpRun e s).link = s.link ∧ (jumpRun e s).twin = s.twin ∧ (jumpRun e s).mgmt = s.mgmt ∧ (jumpRun e s).host = s.host ∧ (jumpRun e s).out = s.out ∧ (jumpRun e s).free = s.free ∧ (jumpRun e s).tb = s.tb ∧ (jumpRun e s).now = s.now := by
  generalize hr : jumpRun e s = r
  simp only [jumpRun] at hr
  repeat' split at hr
  all_goals (subst hr; simp)
@[simp] theorem afterCheck_frame (s : State) :
    (afterCheck s).pending = s.pending ∧ (afterCheck s).audio = s.audio ∧ (afterCheck s).lbox = s.lbox ∧ (afterCheck s).pins = s.pins ∧ (afterCheck s).tOffset = s.tOffset ∧ (afterCheck s).boot = s.boot ∧ (afterCheck s).chan = s.chan ∧ (afterCheck s).hbm = s.hbm ∧ (afterCheck s).glint = s.glint ∧ (afterCheck s).tx = s.tx ∧ (afterCheck s).corr = s.corr ∧ (afterCheck s).link = s.link ∧ (afterCheck s).twin = s.twin ∧ (afterCheck s).mgmt = s.mgmt ∧ (afterCheck s).host = s.host ∧ (afterCheck s).out = s.out ∧ (afterCheck s).free = s.free ∧ (afterCheck s).tb = s.tb ∧ (afterCheck s).now = s.now := by
  generalize hr : afterCheck s = r
  simp only [afterCheck] at hr
  repeat' split at hr
  all_goals (subst hr; simp)
@[simp] theorem settleN_frame (a : ℕ) (a1 : State) :
    (settleN a a1).pending = a1.pending ∧ (settleN a a1).audio = a1.audio ∧ (settleN a a1).lbox = a1.lbox ∧ (settleN a a1).pins = a1.pins ∧ (settleN a a1).tOffset = a1.tOffset ∧ (settleN a a1).boot = a1.boot ∧ (settleN a a1).chan = a1.chan ∧ (settleN a a1).hbm = a1.hbm ∧ (settleN a a1).glint = a1.glint ∧ (settleN a a1).tx = a1.tx ∧ (settleN a a1).corr = a1.corr ∧ (settleN a a1).link = a1.link ∧ (settleN a a1).twin = a1.twin ∧ (settleN a a1).mgmt = a1.mgmt ∧ (settleN a a1).host = a1.host ∧ (settleN a a1).out = a1.out ∧ (settleN a a1).free = a1.free ∧ (settleN a a1).tb = a1.tb ∧ (settleN a a1).now = a1.now := by
  induction a generalizing a1 with
  | zero => simp [settleN]
  | succ n ih =>
    generalize hr : settleN (n + 1) a1 = r
    simp only [settleN] at hr
    repeat' (first | split at hr)
    all_goals (subst hr; simp [ih])
@[simp] theorem settle_frame (s : State) :
    (settle s).pending = s.pending ∧ (settle s).audio = s.audio ∧ (settle s).lbox = s.lbox ∧ (settle s).pins = s.pins ∧ (settle s).tOffset = s.tOffset ∧ (settle s).boot = s.boot ∧ (settle s).chan = s.chan ∧ (settle s).hbm = s.hbm ∧ (settle s).glint = s.glint ∧ (settle s).tx = s.tx ∧ (settle s).corr = s.corr ∧ (settle s).link = s.link ∧ (settle s).twin = s.twin ∧ (settle s).mgmt = s.mgmt ∧ (settle s).host = s.host ∧ (settle s).out = s.out ∧ (settle s).free = s.free ∧ (settle s).tb = s.tb ∧ (settle s).now = s.now := by
  simp [settle]
@[simp] theorem finishStops_frame (s : State) :
    (finishStops s).pending = s.pending ∧ (finishStops s).audio = s.audio ∧ (finishStops s).lbox = s.lbox ∧ (finishStops s).pins = s.pins ∧ (finishStops s).tOffset = s.tOffset ∧ (finishStops s).boot = s.boot ∧ (finishStops s).chan = s.chan ∧ (finishStops s).hbm = s.hbm ∧ (finishStops s).tx = s.tx ∧ (finishStops s).corr = s.corr ∧ (finishStops s).link = s.link ∧ (finishStops s).twin = s.twin ∧ (finishStops s).mgmt = s.mgmt ∧ (finishStops s).host = s.host ∧ (finishStops s).out = s.out ∧ (finishStops s).free = s.free ∧ (finishStops s).tb = s.tb ∧ (finishStops s).now = s.now := by
  simp [finishStops]
@[simp] theorem ensureRun_frame (s0 : State) (was : ElemEntry) (e : ℕ) (x : ElemEntry) (g : GroupRun) (d : GroupDesc) (b : ℕ) (s : State) :
    (ensureRun s0 was e x g d b s).pending = s.pending ∧ (ensureRun s0 was e x g d b s).lbox = s.lbox ∧ (ensureRun s0 was e x g d b s).pins = s.pins ∧ (ensureRun s0 was e x g d b s).tOffset = s.tOffset ∧ (ensureRun s0 was e x g d b s).boot = s.boot ∧ (ensureRun s0 was e x g d b s).chan = s.chan ∧ (ensureRun s0 was e x g d b s).hbm = s.hbm ∧ (ensureRun s0 was e x g d b s).tx = s.tx ∧ (ensureRun s0 was e x g d b s).corr = s.corr ∧ (ensureRun s0 was e x g d b s).link = s.link ∧ (ensureRun s0 was e x g d b s).twin = s.twin ∧ (ensureRun s0 was e x g d b s).mgmt = s.mgmt ∧ (ensureRun s0 was e x g d b s).host = s.host ∧ (ensureRun s0 was e x g d b s).out = s.out ∧ (ensureRun s0 was e x g d b s).free = s.free ∧ (ensureRun s0 was e x g d b s).tb = s.tb ∧ (ensureRun s0 was e x g d b s).now = s.now := by
  generalize hr : ensureRun s0 was e x g d b s = r
  simp only [ensureRun] at hr
  repeat' split at hr
  all_goals (subst hr; simp)
@[simp] theorem ensureRuns_frame (s0 : State) (p : Pend) (s : State) :
    (ensureRuns s0 p s).pending = s.pending ∧ (ensureRuns s0 p s).lbox = s.lbox ∧ (ensureRuns s0 p s).pins = s.pins ∧ (ensureRuns s0 p s).tOffset = s.tOffset ∧ (ensureRuns s0 p s).boot = s.boot ∧ (ensureRuns s0 p s).chan = s.chan ∧ (ensureRuns s0 p s).hbm = s.hbm ∧ (ensureRuns s0 p s).tx = s.tx ∧ (ensureRuns s0 p s).corr = s.corr ∧ (ensureRuns s0 p s).link = s.link ∧ (ensureRuns s0 p s).twin = s.twin ∧ (ensureRuns s0 p s).mgmt = s.mgmt ∧ (ensureRuns s0 p s).host = s.host ∧ (ensureRuns s0 p s).out = s.out ∧ (ensureRuns s0 p s).free = s.free ∧ (ensureRuns s0 p s).tb = s.tb ∧ (ensureRuns s0 p s).now = s.now := by
  unfold ensureRuns
  split
  · simp
  · refine ⟨foldl_pending _ _ _ fun s a => ?_, foldl_lbox _ _ _ fun s a => ?_, foldl_pins _ _ _ fun s a => ?_, foldl_tOffset _ _ _ fun s a => ?_, foldl_boot _ _ _ fun s a => ?_, foldl_chan _ _ _ fun s a => ?_, foldl_hbm _ _ _ fun s a => ?_, foldl_tx _ _ _ fun s a => ?_, foldl_corr _ _ _ fun s a => ?_, foldl_link _ _ _ fun s a => ?_, foldl_twin _ _ _ fun s a => ?_, foldl_mgmt _ _ _ fun s a => ?_, foldl_host _ _ _ fun s a => ?_, foldl_out _ _ _ fun s a => ?_, foldl_free _ _ _ fun s a => ?_, foldl_tb _ _ _ fun s a => ?_, foldl_now _ _ _ fun s a => ?_⟩
    all_goals (repeat' (first | rfl | split))
    all_goals simp
@[simp] theorem resizeRing_frame (e : ℕ) (b : ℕ) (size : ℕ) (s : State) :
    (resizeRing e b size s).pending = s.pending ∧ (resizeRing e b size s).audio = s.audio ∧ (resizeRing e b size s).lbox = s.lbox ∧ (resizeRing e b size s).pins = s.pins ∧ (resizeRing e b size s).tOffset = s.tOffset ∧ (resizeRing e b size s).boot = s.boot ∧ (resizeRing e b size s).chan = s.chan ∧ (resizeRing e b size s).hbm = s.hbm ∧ (resizeRing e b size s).glint = s.glint ∧ (resizeRing e b size s).tx = s.tx ∧ (resizeRing e b size s).corr = s.corr ∧ (resizeRing e b size s).link = s.link ∧ (resizeRing e b size s).twin = s.twin ∧ (resizeRing e b size s).mgmt = s.mgmt ∧ (resizeRing e b size s).host = s.host ∧ (resizeRing e b size s).out = s.out ∧ (resizeRing e b size s).free = s.free ∧ (resizeRing e b size s).tb = s.tb ∧ (resizeRing e b size s).now = s.now := by
  generalize hr : resizeRing e b size s = r
  simp only [resizeRing] at hr
  repeat' split at hr
  all_goals (subst hr; simp)
@[simp] theorem fitRing_frame (e : ℕ) (s : State) :
    (fitRing e s).pending = s.pending ∧ (fitRing e s).lbox = s.lbox ∧ (fitRing e s).pins = s.pins ∧ (fitRing e s).tOffset = s.tOffset ∧ (fitRing e s).boot = s.boot ∧ (fitRing e s).chan = s.chan ∧ (fitRing e s).hbm = s.hbm ∧ (fitRing e s).tx = s.tx ∧ (fitRing e s).corr = s.corr ∧ (fitRing e s).link = s.link ∧ (fitRing e s).twin = s.twin ∧ (fitRing e s).mgmt = s.mgmt ∧ (fitRing e s).host = s.host ∧ (fitRing e s).out = s.out ∧ (fitRing e s).free = s.free ∧ (fitRing e s).tb = s.tb ∧ (fitRing e s).now = s.now := by
  generalize hr : fitRing e s = r
  simp only [fitRing] at hr
  repeat' split at hr
  all_goals (subst hr; simp)
@[simp] theorem fitRings_frame (s : State) :
    (fitRings s).pending = s.pending ∧ (fitRings s).lbox = s.lbox ∧ (fitRings s).pins = s.pins ∧ (fitRings s).tOffset = s.tOffset ∧ (fitRings s).boot = s.boot ∧ (fitRings s).chan = s.chan ∧ (fitRings s).hbm = s.hbm ∧ (fitRings s).tx = s.tx ∧ (fitRings s).corr = s.corr ∧ (fitRings s).link = s.link ∧ (fitRings s).twin = s.twin ∧ (fitRings s).mgmt = s.mgmt ∧ (fitRings s).host = s.host ∧ (fitRings s).out = s.out ∧ (fitRings s).free = s.free ∧ (fitRings s).tb = s.tb ∧ (fitRings s).now = s.now := by
  simp [fitRings]
@[simp] theorem enterChange_frame (now : PendKind) (pend : List Pend) (s : State) :
    (enterChange now pend s).pending = s.pending ∧ (enterChange now pend s).lbox = s.lbox ∧ (enterChange now pend s).pins = s.pins ∧ (enterChange now pend s).tOffset = s.tOffset ∧ (enterChange now pend s).boot = s.boot ∧ (enterChange now pend s).chan = s.chan ∧ (enterChange now pend s).hbm = s.hbm ∧ (enterChange now pend s).tx = s.tx ∧ (enterChange now pend s).corr = s.corr ∧ (enterChange now pend s).link = s.link ∧ (enterChange now pend s).twin = s.twin ∧ (enterChange now pend s).mgmt = s.mgmt ∧ (enterChange now pend s).host = s.host ∧ (enterChange now pend s).out = s.out ∧ (enterChange now pend s).free = s.free ∧ (enterChange now pend s).tb = s.tb ∧ (enterChange now pend s).now = s.now := by
  simp [enterChange]
@[simp] theorem digestItems_frame (b : Bytes) (n : ℕ) (items : List (ℕ × ElemEntry)) (at_ : ℕ → ℕ) (s : State) :
    (digestItems b n items at_ s).pending = s.pending ∧ (digestItems b n items at_ s).audio = s.audio ∧ (digestItems b n items at_ s).lbox = s.lbox ∧ (digestItems b n items at_ s).pins = s.pins ∧ (digestItems b n items at_ s).tOffset = s.tOffset ∧ (digestItems b n items at_ s).boot = s.boot ∧ (digestItems b n items at_ s).chan = s.chan ∧ (digestItems b n items at_ s).hbm = s.hbm ∧ (digestItems b n items at_ s).glint = s.glint ∧ (digestItems b n items at_ s).cond = s.cond ∧ (digestItems b n items at_ s).tx = s.tx ∧ (digestItems b n items at_ s).corr = s.corr ∧ (digestItems b n items at_ s).link = s.link ∧ (digestItems b n items at_ s).mgmt = s.mgmt ∧ (digestItems b n items at_ s).host = s.host ∧ (digestItems b n items at_ s).out = s.out ∧ (digestItems b n items at_ s).free = s.free ∧ (digestItems b n items at_ s).tb = s.tb ∧ (digestItems b n items at_ s).now = s.now := by
  unfold digestItems
  refine ⟨(foldl_pending _ _ _ fun s a => ?_), (foldl_audio _ _ _ fun s a => ?_), (foldl_lbox _ _ _ fun s a => ?_), (foldl_pins _ _ _ fun s a => ?_), (foldl_tOffset _ _ _ fun s a => ?_), (foldl_boot _ _ _ fun s a => ?_), (foldl_chan _ _ _ fun s a => ?_), (foldl_hbm _ _ _ fun s a => ?_), (foldl_glint _ _ _ fun s a => ?_), (foldl_cond _ _ _ fun s a => ?_), (foldl_tx _ _ _ fun s a => ?_), (foldl_corr _ _ _ fun s a => ?_), (foldl_link _ _ _ fun s a => ?_), (foldl_mgmt _ _ _ fun s a => ?_), (foldl_host _ _ _ fun s a => ?_), (foldl_out _ _ _ fun s a => ?_), (foldl_free _ _ _ fun s a => ?_), (foldl_tb _ _ _ fun s a => ?_), (foldl_now _ _ _ fun s a => ?_)⟩
  all_goals (try dsimp only)
  all_goals (repeat' (first | rfl | split))
  all_goals (try simp)
@[simp] theorem runElementTableChange_frame (d : Desc) (data : Bytes) (s : State) :
    (runElementTableChange d data s).pending = s.pending ∧ (runElementTableChange d data s).lbox = s.lbox ∧ (runElementTableChange d data s).pins = s.pins ∧ (runElementTableChange d data s).tOffset = s.tOffset ∧ (runElementTableChange d data s).boot = s.boot ∧ (runElementTableChange d data s).chan = s.chan ∧ (runElementTableChange d data s).hbm = s.hbm ∧ (runElementTableChange d data s).tx = s.tx ∧ (runElementTableChange d data s).corr = s.corr ∧ (runElementTableChange d data s).link = s.link ∧ (runElementTableChange d data s).tb = s.tb ∧ (runElementTableChange d data s).now = s.now := by
  generalize hr : runElementTableChange d data s = r
  simp only [runElementTableChange] at hr
  repeat' split at hr
  all_goals (subst hr; simp)
theorem execElementTableChange_frame (t : Tick) (d : Desc) (data : Bytes) (s : State) {t_ : State} (h : execElementTableChange t d data s = .next t_) :
    t_.pending = s.pending ∧ t_.lbox = s.lbox ∧ t_.pins = s.pins ∧ t_.tOffset = (s.advance t).tOffset ∧ t_.boot = s.boot ∧ t_.chan = s.chan ∧ t_.hbm = s.hbm ∧ t_.tx = s.tx ∧ t_.corr = s.corr ∧ t_.link = s.link ∧ t_.tb = (s.advance t).tb ∧ t_.now = (s.advance t).now := by
  simp only [execElementTableChange, Host.Outcome.next.injEq] at h
  subst h
  simp
@[simp] theorem runGroupDescriptor_frame (d : Desc) (data : Bytes) (s : State) :
    (runGroupDescriptor d data s).pending = s.pending ∧ (runGroupDescriptor d data s).lbox = s.lbox ∧ (runGroupDescriptor d data s).pins = s.pins ∧ (runGroupDescriptor d data s).tOffset = s.tOffset ∧ (runGroupDescriptor d data s).boot = s.boot ∧ (runGroupDescriptor d data s).chan = s.chan ∧ (runGroupDescriptor d data s).hbm = s.hbm ∧ (runGroupDescriptor d data s).tx = s.tx ∧ (runGroupDescriptor d data s).corr = s.corr ∧ (runGroupDescriptor d data s).link = s.link ∧ (runGroupDescriptor d data s).tb = s.tb ∧ (runGroupDescriptor d data s).now = s.now := by
  generalize hr : runGroupDescriptor d data s = r
  simp only [runGroupDescriptor] at hr
  repeat' split at hr
  all_goals (subst hr; simp)
theorem execGroupDescriptor_frame (t : Tick) (d : Desc) (data : Bytes) (s : State) {t_ : State} (h : execGroupDescriptor t d data s = .next t_) :
    t_.pending = s.pending ∧ t_.lbox = s.lbox ∧ t_.pins = s.pins ∧ t_.tOffset = (s.advance t).tOffset ∧ t_.boot = s.boot ∧ t_.chan = s.chan ∧ t_.hbm = s.hbm ∧ t_.tx = s.tx ∧ t_.corr = s.corr ∧ t_.link = s.link ∧ t_.tb = (s.advance t).tb ∧ t_.now = (s.advance t).now := by
  simp only [execGroupDescriptor, Host.Outcome.next.injEq] at h
  subst h
  simp
@[simp] theorem commitElem_frame (e : ℕ) (s : State) :
    (commitElem e s).pending = s.pending ∧ (commitElem e s).audio = s.audio ∧ (commitElem e s).lbox = s.lbox ∧ (commitElem e s).pins = s.pins ∧ (commitElem e s).tOffset = s.tOffset ∧ (commitElem e s).boot = s.boot ∧ (commitElem e s).chan = s.chan ∧ (commitElem e s).hbm = s.hbm ∧ (commitElem e s).glint = s.glint ∧ (commitElem e s).tx = s.tx ∧ (commitElem e s).corr = s.corr ∧ (commitElem e s).link = s.link ∧ (commitElem e s).twin = s.twin ∧ (commitElem e s).mgmt = s.mgmt ∧ (commitElem e s).host = s.host ∧ (commitElem e s).out = s.out ∧ (commitElem e s).free = s.free ∧ (commitElem e s).tb = s.tb ∧ (commitElem e s).now = s.now := by
  simp [commitElem]
@[simp] theorem startGroup_frame (g : ℕ) (tOrg : ℕ) (s : State) :
    (startGroup g tOrg s).pending = s.pending ∧ (startGroup g tOrg s).lbox = s.lbox ∧ (startGroup g tOrg s).pins = s.pins ∧ (startGroup g tOrg s).tOffset = s.tOffset ∧ (startGroup g tOrg s).boot = s.boot ∧ (startGroup g tOrg s).hbm = s.hbm ∧ (startGroup g tOrg s).tx = s.tx ∧ (startGroup g tOrg s).corr = s.corr ∧ (startGroup g tOrg s).link = s.link ∧ (startGroup g tOrg s).twin = s.twin ∧ (startGroup g tOrg s).mgmt = s.mgmt ∧ (startGroup g tOrg s).host = s.host ∧ (startGroup g tOrg s).out = s.out ∧ (startGroup g tOrg s).free = s.free ∧ (startGroup g tOrg s).tb = s.tb ∧ (startGroup g tOrg s).now = s.now := by
  generalize hr : startGroup g tOrg s = r
  simp only [startGroup] at hr
  repeat' split at hr
  all_goals (subst hr; simp)
@[simp] theorem runGroupStart_frame (d : Desc) (x1 : Bytes) (s : State) :
    (runGroupStart d x1 s).pending = s.pending ∧ (runGroupStart d x1 s).lbox = s.lbox ∧ (runGroupStart d x1 s).pins = s.pins ∧ (runGroupStart d x1 s).tOffset = s.tOffset ∧ (runGroupStart d x1 s).boot = s.boot ∧ (runGroupStart d x1 s).hbm = s.hbm ∧ (runGroupStart d x1 s).tx = s.tx ∧ (runGroupStart d x1 s).corr = s.corr ∧ (runGroupStart d x1 s).link = s.link ∧ (runGroupStart d x1 s).tb = s.tb ∧ (runGroupStart d x1 s).now = s.now := by
  generalize hr : runGroupStart d x1 s = r
  simp only [runGroupStart] at hr
  repeat' split at hr
  all_goals (subst hr; simp)
theorem execGroupStart_frame (t : Tick) (d : Desc) (data : Bytes) (s : State) {t_ : State} (h : execGroupStart t d data s = .next t_) :
    t_.pending = s.pending ∧ t_.lbox = s.lbox ∧ t_.pins = s.pins ∧ t_.tOffset = (s.advance t).tOffset ∧ t_.boot = s.boot ∧ t_.hbm = s.hbm ∧ t_.tx = s.tx ∧ t_.corr = s.corr ∧ t_.link = s.link ∧ t_.tb = (s.advance t).tb ∧ t_.now = (s.advance t).now := by
  simp only [execGroupStart, Host.Outcome.next.injEq] at h
  subst h
  simp
@[simp] theorem stopGroup_frame (g : ℕ) (at_ : ℕ) (s : State) :
    (stopGroup g at_ s).pending = s.pending ∧ (stopGroup g at_ s).audio = s.audio ∧ (stopGroup g at_ s).lbox = s.lbox ∧ (stopGroup g at_ s).pins = s.pins ∧ (stopGroup g at_ s).tOffset = s.tOffset ∧ (stopGroup g at_ s).boot = s.boot ∧ (stopGroup g at_ s).chan = s.chan ∧ (stopGroup g at_ s).hbm = s.hbm ∧ (stopGroup g at_ s).tx = s.tx ∧ (stopGroup g at_ s).corr = s.corr ∧ (stopGroup g at_ s).link = s.link ∧ (stopGroup g at_ s).twin = s.twin ∧ (stopGroup g at_ s).mgmt = s.mgmt ∧ (stopGroup g at_ s).host = s.host ∧ (stopGroup g at_ s).out = s.out ∧ (stopGroup g at_ s).free = s.free ∧ (stopGroup g at_ s).tb = s.tb ∧ (stopGroup g at_ s).now = s.now := by
  unfold stopGroup
  extract_lets
  simp only [finishStops_frame]
  refine ⟨(foldl_pending _ _ _ fun s a => ?_).trans ?_, (foldl_audio _ _ _ fun s a => ?_).trans ?_, (foldl_lbox _ _ _ fun s a => ?_).trans ?_, (foldl_pins _ _ _ fun s a => ?_).trans ?_, (foldl_tOffset _ _ _ fun s a => ?_).trans ?_, (foldl_boot _ _ _ fun s a => ?_).trans ?_, (foldl_chan _ _ _ fun s a => ?_).trans ?_, (foldl_hbm _ _ _ fun s a => ?_).trans ?_, (foldl_tx _ _ _ fun s a => ?_).trans ?_, (foldl_corr _ _ _ fun s a => ?_).trans ?_, (foldl_link _ _ _ fun s a => ?_).trans ?_, (foldl_twin _ _ _ fun s a => ?_).trans ?_, (foldl_mgmt _ _ _ fun s a => ?_).trans ?_, (foldl_host _ _ _ fun s a => ?_).trans ?_, (foldl_out _ _ _ fun s a => ?_).trans ?_, (foldl_free _ _ _ fun s a => ?_).trans ?_, (foldl_tb _ _ _ fun s a => ?_).trans ?_, (foldl_now _ _ _ fun s a => ?_).trans ?_⟩
  all_goals (repeat' (first | rfl | split))
  all_goals (try simp)
@[simp] theorem runGroupStop_frame (d : Desc) (x1 : Bytes) (s : State) :
    (runGroupStop d x1 s).pending = s.pending ∧ (runGroupStop d x1 s).audio = s.audio ∧ (runGroupStop d x1 s).lbox = s.lbox ∧ (runGroupStop d x1 s).pins = s.pins ∧ (runGroupStop d x1 s).tOffset = s.tOffset ∧ (runGroupStop d x1 s).boot = s.boot ∧ (runGroupStop d x1 s).chan = s.chan ∧ (runGroupStop d x1 s).hbm = s.hbm ∧ (runGroupStop d x1 s).tx = s.tx ∧ (runGroupStop d x1 s).corr = s.corr ∧ (runGroupStop d x1 s).link = s.link ∧ (runGroupStop d x1 s).tb = s.tb ∧ (runGroupStop d x1 s).now = s.now := by
  generalize hr : runGroupStop d x1 s = r
  simp only [runGroupStop] at hr
  repeat' split at hr
  all_goals (subst hr; simp)
theorem execGroupStop_frame (t : Tick) (d : Desc) (data : Bytes) (s : State) {t_ : State} (h : execGroupStop t d data s = .next t_) :
    t_.pending = s.pending ∧ t_.audio = s.audio ∧ t_.lbox = s.lbox ∧ t_.pins = s.pins ∧ t_.tOffset = (s.advance t).tOffset ∧ t_.boot = s.boot ∧ t_.chan = s.chan ∧ t_.hbm = s.hbm ∧ t_.tx = s.tx ∧ t_.corr = s.corr ∧ t_.link = s.link ∧ t_.tb = (s.advance t).tb ∧ t_.now = (s.advance t).now := by
  simp only [execGroupStop, Host.Outcome.next.injEq] at h
  subst h
  simp
@[simp] theorem placeSample_frame (e : ℕ) (n : ℕ) (v : ℤ) (r : ElemRun) (s : State) :
    (placeSample e n v r s).pending = s.pending ∧ (placeSample e n v r s).audio = s.audio ∧ (placeSample e n v r s).lbox = s.lbox ∧ (placeSample e n v r s).pins = s.pins ∧ (placeSample e n v r s).tOffset = s.tOffset ∧ (placeSample e n v r s).boot = s.boot ∧ (placeSample e n v r s).chan = s.chan ∧ (placeSample e n v r s).hbm = s.hbm ∧ (placeSample e n v r s).glint = s.glint ∧ (placeSample e n v r s).tx = s.tx ∧ (placeSample e n v r s).corr = s.corr ∧ (placeSample e n v r s).link = s.link ∧ (placeSample e n v r s).twin = s.twin ∧ (placeSample e n v r s).mgmt = s.mgmt ∧ (placeSample e n v r s).host = s.host ∧ (placeSample e n v r s).out = s.out ∧ (placeSample e n v r s).free = s.free ∧ (placeSample e n v r s).tb = s.tb ∧ (placeSample e n v r s).now = s.now := by
  generalize hr : placeSample e n v r s = r
  simp only [placeSample] at hr
  repeat' split at hr
  all_goals (subst hr; simp)
@[simp] theorem takeSample_frame (q : ℕ) (stream : ℕ) (channel : ℕ) (n : ℕ) (v : ℤ) (s : State) :
    (takeSample q stream channel n v s).pending = s.pending ∧ (takeSample q stream channel n v s).audio = s.audio ∧ (takeSample q stream channel n v s).lbox = s.lbox ∧ (takeSample q stream channel n v s).pins = s.pins ∧ (takeSample q stream channel n v s).tOffset = s.tOffset ∧ (takeSample q stream channel n v s).boot = s.boot ∧ (takeSample q stream channel n v s).chan = s.chan ∧ (takeSample q stream channel n v s).hbm = s.hbm ∧ (takeSample q stream channel n v s).glint = s.glint ∧ (takeSample q stream channel n v s).tx = s.tx ∧ (takeSample q stream channel n v s).corr = s.corr ∧ (takeSample q stream channel n v s).twin = s.twin ∧ (takeSample q stream channel n v s).mgmt = s.mgmt ∧ (takeSample q stream channel n v s).host = s.host ∧ (takeSample q stream channel n v s).out = s.out ∧ (takeSample q stream channel n v s).free = s.free ∧ (takeSample q stream channel n v s).tb = s.tb ∧ (takeSample q stream channel n v s).now = s.now := by
  generalize hr : takeSample q stream channel n v s = r
  simp only [takeSample] at hr
  repeat' split at hr
  all_goals (subst hr; simp)
theorem execIngestFrame_frame (t : Tick) (q : Fin 16) (f : RawFrame) (s : State) {t_ : State} (h : execIngestFrame t q f s = .next t_) :
    t_.pending = s.pending ∧ t_.audio = s.audio ∧ t_.lbox = s.lbox ∧ t_.pins = s.pins ∧ t_.tOffset = (s.advance t).tOffset ∧ t_.boot = s.boot ∧ t_.chan = s.chan ∧ t_.hbm = s.hbm ∧ t_.glint = s.glint ∧ t_.tx = s.tx ∧ t_.corr = s.corr ∧ t_.twin = s.twin ∧ t_.host = s.host ∧ t_.out = s.out ∧ t_.free = s.free ∧ t_.tb = (s.advance t).tb ∧ t_.now = (s.advance t).now := by
  simp only [execIngestFrame] at h
  repeat' split at h
  all_goals (cases h; simp)
@[simp] theorem gapEnter_frame (g : GapRun) (s : State) :
    (gapEnter g s).pending = s.pending ∧ (gapEnter g s).audio = s.audio ∧ (gapEnter g s).lbox = s.lbox ∧ (gapEnter g s).pins = s.pins ∧ (gapEnter g s).tOffset = s.tOffset ∧ (gapEnter g s).boot = s.boot ∧ (gapEnter g s).chan = s.chan ∧ (gapEnter g s).glint = s.glint ∧ (gapEnter g s).tx = s.tx ∧ (gapEnter g s).corr = s.corr ∧ (gapEnter g s).link = s.link ∧ (gapEnter g s).twin = s.twin ∧ (gapEnter g s).host = s.host ∧ (gapEnter g s).out = s.out ∧ (gapEnter g s).tb = s.tb ∧ (gapEnter g s).now = s.now := by
  generalize hr : gapEnter g s = r
  simp only [gapEnter] at hr
  repeat' split at hr
  all_goals (subst hr; simp)
@[simp] theorem yieldPins_frame (e : ℕ) (b : ℕ) (s : State) :
    (yieldPins e b s).pending = s.pending ∧ (yieldPins e b s).audio = s.audio ∧ (yieldPins e b s).lbox = s.lbox ∧ (yieldPins e b s).pins = s.pins ∧ (yieldPins e b s).tOffset = s.tOffset ∧ (yieldPins e b s).boot = s.boot ∧ (yieldPins e b s).chan = s.chan ∧ (yieldPins e b s).hbm = s.hbm ∧ (yieldPins e b s).cond = s.cond ∧ (yieldPins e b s).tx = s.tx ∧ (yieldPins e b s).corr = s.corr ∧ (yieldPins e b s).link = s.link ∧ (yieldPins e b s).twin = s.twin ∧ (yieldPins e b s).mgmt = s.mgmt ∧ (yieldPins e b s).host = s.host ∧ (yieldPins e b s).out = s.out ∧ (yieldPins e b s).free = s.free ∧ (yieldPins e b s).tb = s.tb ∧ (yieldPins e b s).now = s.now := by
  simp [yieldPins]
@[simp] theorem gapsEnter_frame (e : ℕ) (l : List (ℕ × ℕ × ℕ)) (s : State) :
    (gapsEnter e l s).pending = s.pending ∧ (gapsEnter e l s).audio = s.audio ∧ (gapsEnter e l s).lbox = s.lbox ∧ (gapsEnter e l s).pins = s.pins ∧ (gapsEnter e l s).tOffset = s.tOffset ∧ (gapsEnter e l s).boot = s.boot ∧ (gapsEnter e l s).chan = s.chan ∧ (gapsEnter e l s).glint = s.glint ∧ (gapsEnter e l s).tx = s.tx ∧ (gapsEnter e l s).corr = s.corr ∧ (gapsEnter e l s).link = s.link ∧ (gapsEnter e l s).twin = s.twin ∧ (gapsEnter e l s).host = s.host ∧ (gapsEnter e l s).out = s.out ∧ (gapsEnter e l s).tb = s.tb ∧ (gapsEnter e l s).now = s.now := by
  unfold gapsEnter
  induction l generalizing s with
  | nil => simp
  | cons a l ih => simp only [List.foldl_cons, ih, gapEnter_frame, and_self]
@[simp] theorem afterEvict_frame (e : ℕ) (b : ℕ) (s : State) :
    (afterEvict e b s).pending = s.pending ∧ (afterEvict e b s).audio = s.audio ∧ (afterEvict e b s).lbox = s.lbox ∧ (afterEvict e b s).pins = s.pins ∧ (afterEvict e b s).tOffset = s.tOffset ∧ (afterEvict e b s).boot = s.boot ∧ (afterEvict e b s).chan = s.chan ∧ (afterEvict e b s).hbm = s.hbm ∧ (afterEvict e b s).tx = s.tx ∧ (afterEvict e b s).corr = s.corr ∧ (afterEvict e b s).link = s.link ∧ (afterEvict e b s).twin = s.twin ∧ (afterEvict e b s).mgmt = s.mgmt ∧ (afterEvict e b s).host = s.host ∧ (afterEvict e b s).out = s.out ∧ (afterEvict e b s).free = s.free ∧ (afterEvict e b s).tb = s.tb ∧ (afterEvict e b s).now = s.now := by
  generalize hr : afterEvict e b s = r
  simp only [afterEvict] at hr
  repeat' split at hr
  all_goals (subst hr; simp)
@[simp] theorem afterLand_frame (e : ℕ) (b : ℕ) (s : State) :
    (afterLand e b s).pending = s.pending ∧ (afterLand e b s).audio = s.audio ∧ (afterLand e b s).lbox = s.lbox ∧ (afterLand e b s).pins = s.pins ∧ (afterLand e b s).tOffset = s.tOffset ∧ (afterLand e b s).boot = s.boot ∧ (afterLand e b s).chan = s.chan ∧ (afterLand e b s).tx = s.tx ∧ (afterLand e b s).corr = s.corr ∧ (afterLand e b s).link = s.link ∧ (afterLand e b s).twin = s.twin ∧ (afterLand e b s).mgmt = s.mgmt ∧ (afterLand e b s).host = s.host ∧ (afterLand e b s).out = s.out ∧ (afterLand e b s).free = s.free ∧ (afterLand e b s).tb = s.tb ∧ (afterLand e b s).now = s.now := by
  generalize hr : afterLand e b s = r
  simp only [afterLand] at hr
  repeat' split at hr
  all_goals (subst hr; simp)
@[simp] theorem afterLanded_frame (s : State) :
    (afterLanded s).pending = s.pending ∧ (afterLanded s).audio = s.audio ∧ (afterLanded s).lbox = s.lbox ∧ (afterLanded s).pins = s.pins ∧ (afterLanded s).tOffset = s.tOffset ∧ (afterLanded s).boot = s.boot ∧ (afterLanded s).chan = s.chan ∧ (afterLanded s).tx = s.tx ∧ (afterLanded s).corr = s.corr ∧ (afterLanded s).link = s.link ∧ (afterLanded s).twin = s.twin ∧ (afterLanded s).mgmt = s.mgmt ∧ (afterLanded s).host = s.host ∧ (afterLanded s).out = s.out ∧ (afterLanded s).free = s.free ∧ (afterLanded s).tb = s.tb ∧ (afterLanded s).now = s.now := by
  simp [afterLanded]
@[simp] theorem afterWrite_frame (e : ℕ) (b : ℕ) (vals : List (ℤ × ℕ)) (s : State) :
    (afterWrite e b vals s).pending = s.pending ∧ (afterWrite e b vals s).audio = s.audio ∧ (afterWrite e b vals s).lbox = s.lbox ∧ (afterWrite e b vals s).pins = s.pins ∧ (afterWrite e b vals s).tOffset = s.tOffset ∧ (afterWrite e b vals s).boot = s.boot ∧ (afterWrite e b vals s).chan = s.chan ∧ (afterWrite e b vals s).tx = s.tx ∧ (afterWrite e b vals s).corr = s.corr ∧ (afterWrite e b vals s).link = s.link ∧ (afterWrite e b vals s).twin = s.twin ∧ (afterWrite e b vals s).host = s.host ∧ (afterWrite e b vals s).out = s.out ∧ (afterWrite e b vals s).tb = s.tb ∧ (afterWrite e b vals s).now = s.now := by
  generalize hr : afterWrite e b vals s = r
  simp only [afterWrite] at hr
  repeat' split at hr
  all_goals (subst hr; simp)
@[simp] theorem releaseBlock_frame (e : ℕ) (b : ℕ) (r : ElemRun) (s : State) :
    (releaseBlock e b r s).pending = s.pending ∧ (releaseBlock e b r s).lbox = s.lbox ∧ (releaseBlock e b r s).pins = s.pins ∧ (releaseBlock e b r s).tOffset = s.tOffset ∧ (releaseBlock e b r s).boot = s.boot ∧ (releaseBlock e b r s).chan = s.chan ∧ (releaseBlock e b r s).tx = s.tx ∧ (releaseBlock e b r s).corr = s.corr ∧ (releaseBlock e b r s).link = s.link ∧ (releaseBlock e b r s).twin = s.twin ∧ (releaseBlock e b r s).host = s.host ∧ (releaseBlock e b r s).out = s.out ∧ (releaseBlock e b r s).tb = s.tb ∧ (releaseBlock e b r s).now = s.now := by
  generalize hr : releaseBlock e b r s = r
  simp only [releaseBlock] at hr
  repeat' split at hr
  all_goals (subst hr; simp)
theorem execBlockRelease_frame (t : Tick) (e : Fin 16384) (s : State) {t_ : State} (h : execBlockRelease t e s = .next t_) :
    t_.pending = s.pending ∧ t_.lbox = s.lbox ∧ t_.pins = s.pins ∧ t_.tOffset = (s.advance t).tOffset ∧ t_.boot = s.boot ∧ t_.chan = s.chan ∧ t_.tx = s.tx ∧ t_.corr = s.corr ∧ t_.link = s.link ∧ t_.twin = s.twin ∧ t_.host = s.host ∧ t_.out = s.out ∧ t_.tb = (s.advance t).tb ∧ t_.now = (s.advance t).now := by
  simp only [execBlockRelease] at h
  repeat' split at h
  all_goals (cases h; simp)
@[simp] theorem afterDrop_frame (e : ℕ) (b : ℕ) (w : AfterWrite) (s : State) :
    (afterDrop e b w s).pending = s.pending ∧ (afterDrop e b w s).audio = s.audio ∧ (afterDrop e b w s).lbox = s.lbox ∧ (afterDrop e b w s).pins = s.pins ∧ (afterDrop e b w s).tOffset = s.tOffset ∧ (afterDrop e b w s).boot = s.boot ∧ (afterDrop e b w s).chan = s.chan ∧ (afterDrop e b w s).glint = s.glint ∧ (afterDrop e b w s).tx = s.tx ∧ (afterDrop e b w s).corr = s.corr ∧ (afterDrop e b w s).link = s.link ∧ (afterDrop e b w s).twin = s.twin ∧ (afterDrop e b w s).host = s.host ∧ (afterDrop e b w s).out = s.out ∧ (afterDrop e b w s).tb = s.tb ∧ (afterDrop e b w s).now = s.now := by
  simp [afterDrop]
theorem execAfterimageWriteTimeout_frame (t : Tick) (e : Fin 16384) (block : ℕ) (s : State) {t_ : State} (h : execAfterimageWriteTimeout t e block s = .next t_) :
    t_.pending = s.pending ∧ t_.audio = s.audio ∧ t_.lbox = s.lbox ∧ t_.pins = s.pins ∧ t_.tOffset = (s.advance t).tOffset ∧ t_.boot = s.boot ∧ t_.chan = s.chan ∧ t_.tx = s.tx ∧ t_.corr = s.corr ∧ t_.link = s.link ∧ t_.twin = s.twin ∧ t_.host = s.host ∧ t_.out = s.out ∧ t_.tb = (s.advance t).tb ∧ t_.now = (s.advance t).now := by
  simp only [execAfterimageWriteTimeout] at h
  repeat' split at h
  all_goals (cases h; simp)
@[simp] theorem glintStore_frame (e : ℕ) (r : ElemRun) (g : GroupDesc) (accepts : Bool) (outs : List (ℕ × CondWord)) (s : State) :
    (glintStore e r g accepts outs s).pending = s.pending ∧ (glintStore e r g accepts outs s).audio = s.audio ∧ (glintStore e r g accepts outs s).lbox = s.lbox ∧ (glintStore e r g accepts outs s).pins = s.pins ∧ (glintStore e r g accepts outs s).tOffset = s.tOffset ∧ (glintStore e r g accepts outs s).boot = s.boot ∧ (glintStore e r g accepts outs s).chan = s.chan ∧ (glintStore e r g accepts outs s).hbm = s.hbm ∧ (glintStore e r g accepts outs s).cond = s.cond ∧ (glintStore e r g accepts outs s).tx = s.tx ∧ (glintStore e r g accepts outs s).corr = s.corr ∧ (glintStore e r g accepts outs s).link = s.link ∧ (glintStore e r g accepts outs s).twin = s.twin ∧ (glintStore e r g accepts outs s).free = s.free ∧ (glintStore e r g accepts outs s).tb = s.tb ∧ (glintStore e r g accepts outs s).now = s.now := by
  generalize hr : glintStore e r g accepts outs s = r
  simp only [glintStore] at hr
  repeat' split at hr
  all_goals (subst hr; simp)
@[simp] theorem audioStore_frame (e : ℕ) (g : GroupDesc) (outs : List (ℕ × CondWord)) (s : State) :
    (audioStore e g outs s).pending = s.pending ∧ (audioStore e g outs s).lbox = s.lbox ∧ (audioStore e g outs s).pins = s.pins ∧ (audioStore e g outs s).tOffset = s.tOffset ∧ (audioStore e g outs s).boot = s.boot ∧ (audioStore e g outs s).chan = s.chan ∧ (audioStore e g outs s).hbm = s.hbm ∧ (audioStore e g outs s).glint = s.glint ∧ (audioStore e g outs s).cond = s.cond ∧ (audioStore e g outs s).tx = s.tx ∧ (audioStore e g outs s).corr = s.corr ∧ (audioStore e g outs s).link = s.link ∧ (audioStore e g outs s).twin = s.twin ∧ (audioStore e g outs s).mgmt = s.mgmt ∧ (audioStore e g outs s).host = s.host ∧ (audioStore e g outs s).out = s.out ∧ (audioStore e g outs s).free = s.free ∧ (audioStore e g outs s).tb = s.tb ∧ (audioStore e g outs s).now = s.now := by
  simp [audioStore]
@[simp] theorem echoStore_frame (e : ℕ) (outs : List (ℕ × CondWord)) (s : State) :
    (echoStore e outs s).pending = s.pending ∧ (echoStore e outs s).audio = s.audio ∧ (echoStore e outs s).lbox = s.lbox ∧ (echoStore e outs s).pins = s.pins ∧ (echoStore e outs s).tOffset = s.tOffset ∧ (echoStore e outs s).boot = s.boot ∧ (echoStore e outs s).chan = s.chan ∧ (echoStore e outs s).hbm = s.hbm ∧ (echoStore e outs s).glint = s.glint ∧ (echoStore e outs s).cond = s.cond ∧ (echoStore e outs s).corr = s.corr ∧ (echoStore e outs s).link = s.link ∧ (echoStore e outs s).twin = s.twin ∧ (echoStore e outs s).mgmt = s.mgmt ∧ (echoStore e outs s).host = s.host ∧ (echoStore e outs s).out = s.out ∧ (echoStore e outs s).free = s.free ∧ (echoStore e outs s).tb = s.tb ∧ (echoStore e outs s).now = s.now := by
  generalize hr : echoStore e outs s = r
  simp only [echoStore] at hr
  repeat' split at hr
  all_goals (subst hr; simp)
@[simp] theorem delayChange_frame (e : ℕ) (x : ElemEntry) (r : ElemRun) (s : State) :
    (delayChange e x r s).2.pending = s.pending ∧ (delayChange e x r s).2.audio = s.audio ∧ (delayChange e x r s).2.lbox = s.lbox ∧ (delayChange e x r s).2.pins = s.pins ∧ (delayChange e x r s).2.tOffset = s.tOffset ∧ (delayChange e x r s).2.boot = s.boot ∧ (delayChange e x r s).2.chan = s.chan ∧ (delayChange e x r s).2.hbm = s.hbm ∧ (delayChange e x r s).2.glint = s.glint ∧ (delayChange e x r s).2.tx = s.tx ∧ (delayChange e x r s).2.corr = s.corr ∧ (delayChange e x r s).2.link = s.link ∧ (delayChange e x r s).2.twin = s.twin ∧ (delayChange e x r s).2.mgmt = s.mgmt ∧ (delayChange e x r s).2.host = s.host ∧ (delayChange e x r s).2.out = s.out ∧ (delayChange e x r s).2.free = s.free ∧ (delayChange e x r s).2.tb = s.tb ∧ (delayChange e x r s).2.now = s.now := by
  generalize hr : delayChange e x r s = r
  simp only [delayChange] at hr
  repeat' split at hr
  all_goals (subst hr; simp)
@[simp] theorem sliceBlock_frame (e : ℕ) (accepts : Bool) (s : State) :
    (sliceBlock e accepts s).pending = s.pending ∧ (sliceBlock e accepts s).lbox = s.lbox ∧ (sliceBlock e accepts s).pins = s.pins ∧ (sliceBlock e accepts s).tOffset = s.tOffset ∧ (sliceBlock e accepts s).boot = s.boot ∧ (sliceBlock e accepts s).chan = s.chan ∧ (sliceBlock e accepts s).hbm = s.hbm ∧ (sliceBlock e accepts s).corr = s.corr ∧ (sliceBlock e accepts s).link = s.link ∧ (sliceBlock e accepts s).twin = s.twin ∧ (sliceBlock e accepts s).free = s.free ∧ (sliceBlock e accepts s).tb = s.tb ∧ (sliceBlock e accepts s).now = s.now := by
  generalize hr : sliceBlock e accepts s = r
  simp only [sliceBlock] at hr
  repeat' split at hr
  all_goals (subst hr; simp)
theorem execConditioningSlice_frame (t : Tick) (engine : Fin 32) (accepts : Bool) (s : State) {t_ : State} (h : execConditioningSlice t engine accepts s = .next t_) :
    t_.pending = s.pending ∧ t_.lbox = s.lbox ∧ t_.pins = s.pins ∧ t_.tOffset = (s.advance t).tOffset ∧ t_.boot = s.boot ∧ t_.chan = s.chan ∧ t_.hbm = s.hbm ∧ t_.corr = s.corr ∧ t_.link = s.link ∧ t_.twin = s.twin ∧ t_.free = s.free ∧ t_.tb = (s.advance t).tb ∧ t_.now = (s.advance t).now := by
  simp only [execConditioningSlice] at h
  repeat' split at h
  all_goals (cases h; simp)
@[simp] theorem writeGdlySel_frame (v : Reg) (s : State) :
    (writeGdlySel v s).pending = s.pending ∧ (writeGdlySel v s).audio = s.audio ∧ (writeGdlySel v s).lbox = s.lbox ∧ (writeGdlySel v s).pins = s.pins ∧ (writeGdlySel v s).tOffset = s.tOffset ∧ (writeGdlySel v s).boot = s.boot ∧ (writeGdlySel v s).chan = s.chan ∧ (writeGdlySel v s).hbm = s.hbm ∧ (writeGdlySel v s).glint = s.glint ∧ (writeGdlySel v s).cond = s.cond ∧ (writeGdlySel v s).tx = s.tx ∧ (writeGdlySel v s).corr = s.corr ∧ (writeGdlySel v s).link = s.link ∧ (writeGdlySel v s).twin = s.twin ∧ (writeGdlySel v s).host = s.host ∧ (writeGdlySel v s).out = s.out ∧ (writeGdlySel v s).free = s.free ∧ (writeGdlySel v s).tb = s.tb ∧ (writeGdlySel v s).now = s.now := by
  simp [writeGdlySel]
@[simp] theorem runPrototypeLoad_frame (d : Desc) (data : Bytes) (s : State) :
    (runPrototypeLoad d data s).pending = s.pending ∧ (runPrototypeLoad d data s).audio = s.audio ∧ (runPrototypeLoad d data s).lbox = s.lbox ∧ (runPrototypeLoad d data s).pins = s.pins ∧ (runPrototypeLoad d data s).tOffset = s.tOffset ∧ (runPrototypeLoad d data s).boot = s.boot ∧ (runPrototypeLoad d data s).hbm = s.hbm ∧ (runPrototypeLoad d data s).glint = s.glint ∧ (runPrototypeLoad d data s).cond = s.cond ∧ (runPrototypeLoad d data s).tx = s.tx ∧ (runPrototypeLoad d data s).corr = s.corr ∧ (runPrototypeLoad d data s).link = s.link ∧ (runPrototypeLoad d data s).tb = s.tb ∧ (runPrototypeLoad d data s).now = s.now := by
  generalize hr : runPrototypeLoad d data s = r
  simp only [runPrototypeLoad] at hr
  repeat' split at hr
  all_goals (subst hr; simp)
theorem execPrototypeLoad_frame (t : Tick) (d : Desc) (data : Bytes) (s : State) {t_ : State} (h : execPrototypeLoad t d data s = .next t_) :
    t_.pending = s.pending ∧ t_.audio = s.audio ∧ t_.lbox = s.lbox ∧ t_.pins = s.pins ∧ t_.tOffset = (s.advance t).tOffset ∧ t_.boot = s.boot ∧ t_.hbm = s.hbm ∧ t_.glint = s.glint ∧ t_.cond = s.cond ∧ t_.tx = s.tx ∧ t_.corr = s.corr ∧ t_.link = s.link ∧ t_.tb = (s.advance t).tb ∧ t_.now = (s.advance t).now := by
  simp only [execPrototypeLoad, Host.Outcome.next.injEq] at h
  subst h
  simp
@[simp] theorem runGainTableLoad_frame (d : Desc) (data : Bytes) (s : State) :
    (runGainTableLoad d data s).pending = s.pending ∧ (runGainTableLoad d data s).audio = s.audio ∧ (runGainTableLoad d data s).lbox = s.lbox ∧ (runGainTableLoad d data s).pins = s.pins ∧ (runGainTableLoad d data s).tOffset = s.tOffset ∧ (runGainTableLoad d data s).boot = s.boot ∧ (runGainTableLoad d data s).hbm = s.hbm ∧ (runGainTableLoad d data s).glint = s.glint ∧ (runGainTableLoad d data s).cond = s.cond ∧ (runGainTableLoad d data s).tx = s.tx ∧ (runGainTableLoad d data s).corr = s.corr ∧ (runGainTableLoad d data s).link = s.link ∧ (runGainTableLoad d data s).tb = s.tb ∧ (runGainTableLoad d data s).now = s.now := by
  generalize hr : runGainTableLoad d data s = r
  simp only [runGainTableLoad] at hr
  repeat' split at hr
  all_goals (subst hr; simp)
theorem execGainTableLoad_frame (t : Tick) (d : Desc) (data : Bytes) (s : State) {t_ : State} (h : execGainTableLoad t d data s = .next t_) :
    t_.pending = s.pending ∧ t_.audio = s.audio ∧ t_.lbox = s.lbox ∧ t_.pins = s.pins ∧ t_.tOffset = (s.advance t).tOffset ∧ t_.boot = s.boot ∧ t_.hbm = s.hbm ∧ t_.glint = s.glint ∧ t_.cond = s.cond ∧ t_.tx = s.tx ∧ t_.corr = s.corr ∧ t_.link = s.link ∧ t_.tb = (s.advance t).tb ∧ t_.now = (s.advance t).now := by
  simp only [execGainTableLoad, Host.Outcome.next.injEq] at h
  subst h
  simp
@[simp] theorem openPlan_frame (id : ℕ) (p : Plan) (s : State) :
    (openPlan id p s).pending = s.pending ∧ (openPlan id p s).audio = s.audio ∧ (openPlan id p s).lbox = s.lbox ∧ (openPlan id p s).pins = s.pins ∧ (openPlan id p s).tOffset = s.tOffset ∧ (openPlan id p s).boot = s.boot ∧ (openPlan id p s).chan = s.chan ∧ (openPlan id p s).hbm = s.hbm ∧ (openPlan id p s).glint = s.glint ∧ (openPlan id p s).cond = s.cond ∧ (openPlan id p s).tx = s.tx ∧ (openPlan id p s).link = s.link ∧ (openPlan id p s).twin = s.twin ∧ (openPlan id p s).mgmt = s.mgmt ∧ (openPlan id p s).host = s.host ∧ (openPlan id p s).out = s.out ∧ (openPlan id p s).free = s.free ∧ (openPlan id p s).tb = s.tb ∧ (openPlan id p s).now = s.now := by
  simp [openPlan]
@[simp] theorem runPlanLoad_frame (d : Desc) (data : Bytes) (s : State) :
    (runPlanLoad d data s).pending = s.pending ∧ (runPlanLoad d data s).audio = s.audio ∧ (runPlanLoad d data s).lbox = s.lbox ∧ (runPlanLoad d data s).pins = s.pins ∧ (runPlanLoad d data s).tOffset = s.tOffset ∧ (runPlanLoad d data s).boot = s.boot ∧ (runPlanLoad d data s).hbm = s.hbm ∧ (runPlanLoad d data s).glint = s.glint ∧ (runPlanLoad d data s).cond = s.cond ∧ (runPlanLoad d data s).tx = s.tx ∧ (runPlanLoad d data s).link = s.link ∧ (runPlanLoad d data s).mgmt = s.mgmt ∧ (runPlanLoad d data s).tb = s.tb ∧ (runPlanLoad d data s).now = s.now := by
  generalize hr : runPlanLoad d data s = r
  simp only [runPlanLoad] at hr
  repeat' split at hr
  all_goals (subst hr; simp)
theorem execPlanLoad_frame (t : Tick) (d : Desc) (data : Bytes) (s : State) {t_ : State} (h : execPlanLoad t d data s = .next t_) :
    t_.pending = s.pending ∧ t_.audio = s.audio ∧ t_.lbox = s.lbox ∧ t_.pins = s.pins ∧ t_.tOffset = (s.advance t).tOffset ∧ t_.boot = s.boot ∧ t_.hbm = s.hbm ∧ t_.glint = s.glint ∧ t_.cond = s.cond ∧ t_.tx = s.tx ∧ t_.link = s.link ∧ t_.mgmt = s.mgmt ∧ t_.tb = (s.advance t).tb ∧ t_.now = (s.advance t).now := by
  simp only [execPlanLoad, Host.Outcome.next.injEq] at h
  subst h
  simp
@[simp] theorem chanCount_frame (row : ℕ) (plan : ℕ) (key : ℕ) (s : State) :
    (chanCount row plan key s).pending = s.pending ∧ (chanCount row plan key s).audio = s.audio ∧ (chanCount row plan key s).lbox = s.lbox ∧ (chanCount row plan key s).pins = s.pins ∧ (chanCount row plan key s).tOffset = s.tOffset ∧ (chanCount row plan key s).boot = s.boot ∧ (chanCount row plan key s).hbm = s.hbm ∧ (chanCount row plan key s).glint = s.glint ∧ (chanCount row plan key s).cond = s.cond ∧ (chanCount row plan key s).tx = s.tx ∧ (chanCount row plan key s).corr = s.corr ∧ (chanCount row plan key s).link = s.link ∧ (chanCount row plan key s).twin = s.twin ∧ (chanCount row plan key s).mgmt = s.mgmt ∧ (chanCount row plan key s).host = s.host ∧ (chanCount row plan key s).out = s.out ∧ (chanCount row plan key s).free = s.free ∧ (chanCount row plan key s).tb = s.tb ∧ (chanCount row plan key s).now = s.now := by
  simp [chanCount]
@[simp] theorem logRun_frame (plan : ℕ) (pchan : Option ℕ) (elem : ℕ) (cause : ℕ) (first : ℕ) (len : ℕ) (s : State) :
    (logRun plan pchan elem cause first len s).pending = s.pending ∧ (logRun plan pchan elem cause first len s).audio = s.audio ∧ (logRun plan pchan elem cause first len s).lbox = s.lbox ∧ (logRun plan pchan elem cause first len s).pins = s.pins ∧ (logRun plan pchan elem cause first len s).tOffset = s.tOffset ∧ (logRun plan pchan elem cause first len s).boot = s.boot ∧ (logRun plan pchan elem cause first len s).chan = s.chan ∧ (logRun plan pchan elem cause first len s).hbm = s.hbm ∧ (logRun plan pchan elem cause first len s).glint = s.glint ∧ (logRun plan pchan elem cause first len s).tx = s.tx ∧ (logRun plan pchan elem cause first len s).corr = s.corr ∧ (logRun plan pchan elem cause first len s).link = s.link ∧ (logRun plan pchan elem cause first len s).twin = s.twin ∧ (logRun plan pchan elem cause first len s).mgmt = s.mgmt ∧ (logRun plan pchan elem cause first len s).host = s.host ∧ (logRun plan pchan elem cause first len s).out = s.out ∧ (logRun plan pchan elem cause first len s).free = s.free ∧ (logRun plan pchan elem cause first len s).tb = s.tb ∧ (logRun plan pchan elem cause first len s).now = s.now := by
  generalize hr : logRun plan pchan elem cause first len s = r
  simp only [logRun] at hr
  repeat' split at hr
  all_goals (subst hr; simp)
@[simp] theorem setPchan_frame (plan : ℕ) (j : ℕ) (x : PChanState) (s : State) :
    (setPchan plan j x s).pending = s.pending ∧ (setPchan plan j x s).audio = s.audio ∧ (setPchan plan j x s).lbox = s.lbox ∧ (setPchan plan j x s).pins = s.pins ∧ (setPchan plan j x s).tOffset = s.tOffset ∧ (setPchan plan j x s).boot = s.boot ∧ (setPchan plan j x s).hbm = s.hbm ∧ (setPchan plan j x s).glint = s.glint ∧ (setPchan plan j x s).cond = s.cond ∧ (setPchan plan j x s).tx = s.tx ∧ (setPchan plan j x s).corr = s.corr ∧ (setPchan plan j x s).link = s.link ∧ (setPchan plan j x s).twin = s.twin ∧ (setPchan plan j x s).mgmt = s.mgmt ∧ (setPchan plan j x s).host = s.host ∧ (setPchan plan j x s).out = s.out ∧ (setPchan plan j x s).free = s.free ∧ (setPchan plan j x s).tb = s.tb ∧ (setPchan plan j x s).now = s.now := by
  simp [setPchan]
@[simp] theorem keepStamp_frame (plan : ℕ) (p : Plan) (d : PlanDev) (frame : ℕ) (stamp : ℤ) (s : State) :
    (keepStamp plan p d frame stamp s).pending = s.pending ∧ (keepStamp plan p d frame stamp s).audio = s.audio ∧ (keepStamp plan p d frame stamp s).lbox = s.lbox ∧ (keepStamp plan p d frame stamp s).pins = s.pins ∧ (keepStamp plan p d frame stamp s).tOffset = s.tOffset ∧ (keepStamp plan p d frame stamp s).boot = s.boot ∧ (keepStamp plan p d frame stamp s).hbm = s.hbm ∧ (keepStamp plan p d frame stamp s).glint = s.glint ∧ (keepStamp plan p d frame stamp s).cond = s.cond ∧ (keepStamp plan p d frame stamp s).tx = s.tx ∧ (keepStamp plan p d frame stamp s).corr = s.corr ∧ (keepStamp plan p d frame stamp s).link = s.link ∧ (keepStamp plan p d frame stamp s).twin = s.twin ∧ (keepStamp plan p d frame stamp s).mgmt = s.mgmt ∧ (keepStamp plan p d frame stamp s).host = s.host ∧ (keepStamp plan p d frame stamp s).out = s.out ∧ (keepStamp plan p d frame stamp s).free = s.free ∧ (keepStamp plan p d frame stamp s).tb = s.tb ∧ (keepStamp plan p d frame stamp s).now = s.now := by
  simp [keepStamp]
@[simp] theorem chbufWrite_frame (plan : ℕ) (j : ℕ) (frame : ℕ) (els : List ℕ) (s : State) :
    (chbufWrite plan j frame els s).pending = s.pending ∧ (chbufWrite plan j frame els s).audio = s.audio ∧ (chbufWrite plan j frame els s).lbox = s.lbox ∧ (chbufWrite plan j frame els s).pins = s.pins ∧ (chbufWrite plan j frame els s).tOffset = s.tOffset ∧ (chbufWrite plan j frame els s).boot = s.boot ∧ (chbufWrite plan j frame els s).chan = s.chan ∧ (chbufWrite plan j frame els s).glint = s.glint ∧ (chbufWrite plan j frame els s).cond = s.cond ∧ (chbufWrite plan j frame els s).tx = s.tx ∧ (chbufWrite plan j frame els s).corr = s.corr ∧ (chbufWrite plan j frame els s).link = s.link ∧ (chbufWrite plan j frame els s).twin = s.twin ∧ (chbufWrite plan j frame els s).host = s.host ∧ (chbufWrite plan j frame els s).out = s.out ∧ (chbufWrite plan j frame els s).tb = s.tb ∧ (chbufWrite plan j frame els s).now = s.now := by
  simp [chbufWrite]
@[simp] theorem ownerTake_frame (plan : ℕ) (j : ℕ) (ver : ℕ) (i : ℕ) (frame : ℕ) (f : StrokeBuf → StrokeBuf) (s : State) :
    (ownerTake plan j ver i frame f s).pending = s.pending ∧ (ownerTake plan j ver i frame f s).audio = s.audio ∧ (ownerTake plan j ver i frame f s).lbox = s.lbox ∧ (ownerTake plan j ver i frame f s).pins = s.pins ∧ (ownerTake plan j ver i frame f s).tOffset = s.tOffset ∧ (ownerTake plan j ver i frame f s).boot = s.boot ∧ (ownerTake plan j ver i frame f s).hbm = s.hbm ∧ (ownerTake plan j ver i frame f s).glint = s.glint ∧ (ownerTake plan j ver i frame f s).cond = s.cond ∧ (ownerTake plan j ver i frame f s).tx = s.tx ∧ (ownerTake plan j ver i frame f s).corr = s.corr ∧ (ownerTake plan j ver i frame f s).link = s.link ∧ (ownerTake plan j ver i frame f s).twin = s.twin ∧ (ownerTake plan j ver i frame f s).mgmt = s.mgmt ∧ (ownerTake plan j ver i frame f s).host = s.host ∧ (ownerTake plan j ver i frame f s).out = s.out ∧ (ownerTake plan j ver i frame f s).free = s.free ∧ (ownerTake plan j ver i frame f s).tb = s.tb ∧ (ownerTake plan j ver i frame f s).now = s.now := by
  simp [ownerTake]
@[simp] theorem countSats_frame (e : ℕ) (g : ℕ) (ks : List ℕ) (s : State) :
    (countSats e g ks s).pending = s.pending ∧ (countSats e g ks s).audio = s.audio ∧ (countSats e g ks s).lbox = s.lbox ∧ (countSats e g ks s).pins = s.pins ∧ (countSats e g ks s).tOffset = s.tOffset ∧ (countSats e g ks s).boot = s.boot ∧ (countSats e g ks s).hbm = s.hbm ∧ (countSats e g ks s).glint = s.glint ∧ (countSats e g ks s).tx = s.tx ∧ (countSats e g ks s).corr = s.corr ∧ (countSats e g ks s).link = s.link ∧ (countSats e g ks s).twin = s.twin ∧ (countSats e g ks s).mgmt = s.mgmt ∧ (countSats e g ks s).host = s.host ∧ (countSats e g ks s).out = s.out ∧ (countSats e g ks s).free = s.free ∧ (countSats e g ks s).tb = s.tb ∧ (countSats e g ks s).now = s.now := by
  generalize hr : countSats e g ks s = r
  simp only [countSats] at hr
  repeat' split at hr
  all_goals (subst hr; simp)
@[simp] theorem noteStats_frame (e : ℕ) (plan : ℕ) (sys : ℕ) (frame : ℕ) (js : List ℕ) (s : State) :
    (noteStats e plan sys frame js s).pending = s.pending ∧ (noteStats e plan sys frame js s).audio = s.audio ∧ (noteStats e plan sys frame js s).lbox = s.lbox ∧ (noteStats e plan sys frame js s).pins = s.pins ∧ (noteStats e plan sys frame js s).tOffset = s.tOffset ∧ (noteStats e plan sys frame js s).boot = s.boot ∧ (noteStats e plan sys frame js s).chan = s.chan ∧ (noteStats e plan sys frame js s).hbm = s.hbm ∧ (noteStats e plan sys frame js s).glint = s.glint ∧ (noteStats e plan sys frame js s).cond = s.cond ∧ (noteStats e plan sys frame js s).tx = s.tx ∧ (noteStats e plan sys frame js s).link = s.link ∧ (noteStats e plan sys frame js s).twin = s.twin ∧ (noteStats e plan sys frame js s).mgmt = s.mgmt ∧ (noteStats e plan sys frame js s).host = s.host ∧ (noteStats e plan sys frame js s).out = s.out ∧ (noteStats e plan sys frame js s).free = s.free ∧ (noteStats e plan sys frame js s).tb = s.tb ∧ (noteStats e plan sys frame js s).now = s.now := by
  generalize hr : noteStats e plan sys frame js s = r
  simp only [noteStats] at hr
  repeat' split at hr
  all_goals (subst hr; simp)
@[simp] theorem deliverSample_frame (plan : ℕ) (p : Plan) (dv : PlanDev) (sys : ℕ) (frame : ℕ) (at_ : ℕ) (stamp : ℤ) (x : ℕ × CSample) (s : State) :
    (deliverSample plan p dv sys frame at_ stamp x s).pending = s.pending ∧ (deliverSample plan p dv sys frame at_ stamp x s).audio = s.audio ∧ (deliverSample plan p dv sys frame at_ stamp x s).lbox = s.lbox ∧ (deliverSample plan p dv sys frame at_ stamp x s).pins = s.pins ∧ (deliverSample plan p dv sys frame at_ stamp x s).tOffset = s.tOffset ∧ (deliverSample plan p dv sys frame at_ stamp x s).boot = s.boot ∧ (deliverSample plan p dv sys frame at_ stamp x s).glint = s.glint ∧ (deliverSample plan p dv sys frame at_ stamp x s).cond = s.cond ∧ (deliverSample plan p dv sys frame at_ stamp x s).tx = s.tx ∧ (deliverSample plan p dv sys frame at_ stamp x s).corr = s.corr ∧ (deliverSample plan p dv sys frame at_ stamp x s).link = s.link ∧ (deliverSample plan p dv sys frame at_ stamp x s).twin = s.twin ∧ (deliverSample plan p dv sys frame at_ stamp x s).host = s.host ∧ (deliverSample plan p dv sys frame at_ stamp x s).out = s.out ∧ (deliverSample plan p dv sys frame at_ stamp x s).tb = s.tb ∧ (deliverSample plan p dv sys frame at_ stamp x s).now = s.now := by
  generalize hr : deliverSample plan p dv sys frame at_ stamp x s = r
  simp only [deliverSample] at hr
  repeat' split at hr
  all_goals (subst hr; simp)
@[simp] theorem noteGeom_frame (plan : ℕ) (b : ℕ) (sys : ℕ) (x : ElemEntry) (s : State) :
    (noteGeom plan b sys x s).pending = s.pending ∧ (noteGeom plan b sys x s).audio = s.audio ∧ (noteGeom plan b sys x s).lbox = s.lbox ∧ (noteGeom plan b sys x s).pins = s.pins ∧ (noteGeom plan b sys x s).tOffset = s.tOffset ∧ (noteGeom plan b sys x s).boot = s.boot ∧ (noteGeom plan b sys x s).chan = s.chan ∧ (noteGeom plan b sys x s).hbm = s.hbm ∧ (noteGeom plan b sys x s).glint = s.glint ∧ (noteGeom plan b sys x s).cond = s.cond ∧ (noteGeom plan b sys x s).tx = s.tx ∧ (noteGeom plan b sys x s).link = s.link ∧ (noteGeom plan b sys x s).twin = s.twin ∧ (noteGeom plan b sys x s).mgmt = s.mgmt ∧ (noteGeom plan b sys x s).host = s.host ∧ (noteGeom plan b sys x s).out = s.out ∧ (noteGeom plan b sys x s).free = s.free ∧ (noteGeom plan b sys x s).tb = s.tb ∧ (noteGeom plan b sys x s).now = s.now := by
  generalize hr : noteGeom plan b sys x s = r
  simp only [noteGeom] at hr
  repeat' split at hr
  all_goals (subst hr; simp)
@[simp] theorem deliverFrame_frame (e : ℕ) (b : ℕ) (gd : GroupDesc) (tOrg : ℕ) (at_ : ℕ) (out : List CSample) (s : State) :
    (deliverFrame e b gd tOrg at_ out s).pending = s.pending ∧ (deliverFrame e b gd tOrg at_ out s).audio = s.audio ∧ (deliverFrame e b gd tOrg at_ out s).lbox = s.lbox ∧ (deliverFrame e b gd tOrg at_ out s).pins = s.pins ∧ (deliverFrame e b gd tOrg at_ out s).tOffset = s.tOffset ∧ (deliverFrame e b gd tOrg at_ out s).boot = s.boot ∧ (deliverFrame e b gd tOrg at_ out s).glint = s.glint ∧ (deliverFrame e b gd tOrg at_ out s).cond = s.cond ∧ (deliverFrame e b gd tOrg at_ out s).tx = s.tx ∧ (deliverFrame e b gd tOrg at_ out s).corr = s.corr ∧ (deliverFrame e b gd tOrg at_ out s).link = s.link ∧ (deliverFrame e b gd tOrg at_ out s).twin = s.twin ∧ (deliverFrame e b gd tOrg at_ out s).host = s.host ∧ (deliverFrame e b gd tOrg at_ out s).out = s.out ∧ (deliverFrame e b gd tOrg at_ out s).tb = s.tb ∧ (deliverFrame e b gd tOrg at_ out s).now = s.now := by
  unfold deliverFrame
  refine ⟨foldl_pending _ _ _ fun s a => ?_, foldl_audio _ _ _ fun s a => ?_, foldl_lbox _ _ _ fun s a => ?_, foldl_pins _ _ _ fun s a => ?_, foldl_tOffset _ _ _ fun s a => ?_, foldl_boot _ _ _ fun s a => ?_, foldl_glint _ _ _ fun s a => ?_, foldl_cond _ _ _ fun s a => ?_, foldl_tx _ _ _ fun s a => ?_, foldl_corr _ _ _ fun s a => ?_, foldl_link _ _ _ fun s a => ?_, foldl_twin _ _ _ fun s a => ?_, foldl_host _ _ _ fun s a => ?_, foldl_out _ _ _ fun s a => ?_, foldl_tb _ _ _ fun s a => ?_, foldl_now _ _ _ fun s a => ?_⟩
  all_goals (try dsimp only)
  all_goals (repeat' (first | rfl | split))
  all_goals (try simp)
@[simp] theorem formFrame_frame (e : ℕ) (r : ElemRun) (g : GroupDesc) (gd : GroupDesc) (x : ElemEntry) (s : State) :
    (formFrame e r g gd x s).pending = s.pending ∧ (formFrame e r g gd x s).audio = s.audio ∧ (formFrame e r g gd x s).lbox = s.lbox ∧ (formFrame e r g gd x s).pins = s.pins ∧ (formFrame e r g gd x s).tOffset = s.tOffset ∧ (formFrame e r g gd x s).boot = s.boot ∧ (formFrame e r g gd x s).glint = s.glint ∧ (formFrame e r g gd x s).tx = s.tx ∧ (formFrame e r g gd x s).link = s.link ∧ (formFrame e r g gd x s).twin = s.twin ∧ (formFrame e r g gd x s).host = s.host ∧ (formFrame e r g gd x s).out = s.out ∧ (formFrame e r g gd x s).tb = s.tb ∧ (formFrame e r g gd x s).now = s.now := by
  generalize hr : formFrame e r g gd x s = r
  simp only [formFrame] at hr
  repeat' split at hr
  all_goals (subst hr; simp)
theorem execChanneliserFrame_frame (t : Tick) (e : Fin 16384) (s : State) {t_ : State} (h : execChanneliserFrame t e s = .next t_) :
    t_.pending = s.pending ∧ t_.audio = s.audio ∧ t_.lbox = s.lbox ∧ t_.pins = s.pins ∧ t_.tOffset = (s.advance t).tOffset ∧ t_.boot = s.boot ∧ t_.glint = s.glint ∧ t_.tx = s.tx ∧ t_.link = s.link ∧ t_.twin = s.twin ∧ t_.host = s.host ∧ t_.out = s.out ∧ t_.tb = (s.advance t).tb ∧ t_.now = (s.advance t).now := by
  simp only [execChanneliserFrame] at h
  repeat' split at h
  all_goals (cases h; simp)
@[simp] theorem sendDigest_frame (plan : ℕ) (p : Plan) (port : ℕ) (s : State) :
    (sendDigest plan p port s).pending = s.pending ∧ (sendDigest plan p port s).audio = s.audio ∧ (sendDigest plan p port s).lbox = s.lbox ∧ (sendDigest plan p port s).pins = s.pins ∧ (sendDigest plan p port s).tOffset = s.tOffset ∧ (sendDigest plan p port s).boot = s.boot ∧ (sendDigest plan p port s).hbm = s.hbm ∧ (sendDigest plan p port s).glint = s.glint ∧ (sendDigest plan p port s).cond = s.cond ∧ (sendDigest plan p port s).tx = s.tx ∧ (sendDigest plan p port s).corr = s.corr ∧ (sendDigest plan p port s).twin = s.twin ∧ (sendDigest plan p port s).host = s.host ∧ (sendDigest plan p port s).free = s.free ∧ (sendDigest plan p port s).tb = s.tb ∧ (sendDigest plan p port s).now = s.now := by
  generalize hr : sendDigest plan p port s = r
  simp only [sendDigest] at hr
  repeat' split at hr
  all_goals (subst hr; simp)
@[simp] theorem sendDigests_frame (plan : ℕ) (port : ℕ) (s : State) :
    (sendDigests plan port s).pending = s.pending ∧ (sendDigests plan port s).audio = s.audio ∧ (sendDigests plan port s).lbox = s.lbox ∧ (sendDigests plan port s).pins = s.pins ∧ (sendDigests plan port s).tOffset = s.tOffset ∧ (sendDigests plan port s).boot = s.boot ∧ (sendDigests plan port s).hbm = s.hbm ∧ (sendDigests plan port s).glint = s.glint ∧ (sendDigests plan port s).cond = s.cond ∧ (sendDigests plan port s).tx = s.tx ∧ (sendDigests plan port s).corr = s.corr ∧ (sendDigests plan port s).twin = s.twin ∧ (sendDigests plan port s).host = s.host ∧ (sendDigests plan port s).free = s.free ∧ (sendDigests plan port s).tb = s.tb ∧ (sendDigests plan port s).now = s.now := by
  simp [sendDigests]
@[simp] theorem putSend_frame (plan : ℕ) (j : ℕ) (sd : SendState) (s : State) :
    (putSend plan j sd s).pending = s.pending ∧ (putSend plan j sd s).audio = s.audio ∧ (putSend plan j sd s).lbox = s.lbox ∧ (putSend plan j sd s).pins = s.pins ∧ (putSend plan j sd s).tOffset = s.tOffset ∧ (putSend plan j sd s).boot = s.boot ∧ (putSend plan j sd s).hbm = s.hbm ∧ (putSend plan j sd s).glint = s.glint ∧ (putSend plan j sd s).cond = s.cond ∧ (putSend plan j sd s).tx = s.tx ∧ (putSend plan j sd s).corr = s.corr ∧ (putSend plan j sd s).link = s.link ∧ (putSend plan j sd s).twin = s.twin ∧ (putSend plan j sd s).mgmt = s.mgmt ∧ (putSend plan j sd s).host = s.host ∧ (putSend plan j sd s).out = s.out ∧ (putSend plan j sd s).free = s.free ∧ (putSend plan j sd s).tb = s.tb ∧ (putSend plan j sd s).now = s.now := by
  simp [putSend]
@[simp] theorem dropContribution_frame (plan : ℕ) (j : ℕ) (dest : ℕ) (s : State) :
    (dropContribution plan j dest s).pending = s.pending ∧ (dropContribution plan j dest s).audio = s.audio ∧ (dropContribution plan j dest s).lbox = s.lbox ∧ (dropContribution plan j dest s).pins = s.pins ∧ (dropContribution plan j dest s).tOffset = s.tOffset ∧ (dropContribution plan j dest s).boot = s.boot ∧ (dropContribution plan j dest s).hbm = s.hbm ∧ (dropContribution plan j dest s).glint = s.glint ∧ (dropContribution plan j dest s).cond = s.cond ∧ (dropContribution plan j dest s).tx = s.tx ∧ (dropContribution plan j dest s).corr = s.corr ∧ (dropContribution plan j dest s).link = s.link ∧ (dropContribution plan j dest s).twin = s.twin ∧ (dropContribution plan j dest s).free = s.free ∧ (dropContribution plan j dest s).tb = s.tb ∧ (dropContribution plan j dest s).now = s.now := by
  generalize hr : dropContribution plan j dest s = r
  simp only [dropContribution] at hr
  repeat' split at hr
  all_goals (subst hr; simp)
@[simp] theorem wholeContribution_frame (plan : ℕ) (dest : ℕ) (s : State) :
    (wholeContribution plan dest s).pending = s.pending ∧ (wholeContribution plan dest s).audio = s.audio ∧ (wholeContribution plan dest s).lbox = s.lbox ∧ (wholeContribution plan dest s).pins = s.pins ∧ (wholeContribution plan dest s).tOffset = s.tOffset ∧ (wholeContribution plan dest s).boot = s.boot ∧ (wholeContribution plan dest s).hbm = s.hbm ∧ (wholeContribution plan dest s).glint = s.glint ∧ (wholeContribution plan dest s).cond = s.cond ∧ (wholeContribution plan dest s).tx = s.tx ∧ (wholeContribution plan dest s).corr = s.corr ∧ (wholeContribution plan dest s).link = s.link ∧ (wholeContribution plan dest s).twin = s.twin ∧ (wholeContribution plan dest s).free = s.free ∧ (wholeContribution plan dest s).tb = s.tb ∧ (wholeContribution plan dest s).now = s.now := by
  generalize hr : wholeContribution plan dest s = r
  simp only [wholeContribution] at hr
  repeat' split at hr
  all_goals (subst hr; simp)
@[simp] theorem sendBatch_frame (plan : ℕ) (j : ℕ) (dest : ℕ) (p : Plan) (dv : PlanDev) (i : ℕ) (b : ℕ) (u : StrokeBuf) (s : State) :
    (sendBatch plan j dest p dv i b u s).pending = s.pending ∧ (sendBatch plan j dest p dv i b u s).audio = s.audio ∧ (sendBatch plan j dest p dv i b u s).lbox = s.lbox ∧ (sendBatch plan j dest p dv i b u s).pins = s.pins ∧ (sendBatch plan j dest p dv i b u s).tOffset = s.tOffset ∧ (sendBatch plan j dest p dv i b u s).boot = s.boot ∧ (sendBatch plan j dest p dv i b u s).hbm = s.hbm ∧ (sendBatch plan j dest p dv i b u s).glint = s.glint ∧ (sendBatch plan j dest p dv i b u s).cond = s.cond ∧ (sendBatch plan j dest p dv i b u s).tx = s.tx ∧ (sendBatch plan j dest p dv i b u s).corr = s.corr ∧ (sendBatch plan j dest p dv i b u s).twin = s.twin ∧ (sendBatch plan j dest p dv i b u s).host = s.host ∧ (sendBatch plan j dest p dv i b u s).free = s.free ∧ (sendBatch plan j dest p dv i b u s).tb = s.tb ∧ (sendBatch plan j dest p dv i b u s).now = s.now := by
  generalize hr : sendBatch plan j dest p dv i b u s = r
  simp only [sendBatch] at hr
  repeat' split at hr
  all_goals (subst hr; simp)
@[simp] theorem sendOne_frame (plan : ℕ) (j : ℕ) (dest : ℕ) (p : Plan) (dv : PlanDev) (key : ℕ) (b : ℕ) (u : StrokeBuf) (room : Bool) (sd : SendState) (s : State) :
    (sendOne plan j dest p dv key b u room sd s).pending = s.pending ∧ (sendOne plan j dest p dv key b u room sd s).audio = s.audio ∧ (sendOne plan j dest p dv key b u room sd s).lbox = s.lbox ∧ (sendOne plan j dest p dv key b u room sd s).pins = s.pins ∧ (sendOne plan j dest p dv key b u room sd s).tOffset = s.tOffset ∧ (sendOne plan j dest p dv key b u room sd s).boot = s.boot ∧ (sendOne plan j dest p dv key b u room sd s).hbm = s.hbm ∧ (sendOne plan j dest p dv key b u room sd s).glint = s.glint ∧ (sendOne plan j dest p dv key b u room sd s).cond = s.cond ∧ (sendOne plan j dest p dv key b u room sd s).tx = s.tx ∧ (sendOne plan j dest p dv key b u room sd s).corr = s.corr ∧ (sendOne plan j dest p dv key b u room sd s).twin = s.twin ∧ (sendOne plan j dest p dv key b u room sd s).free = s.free ∧ (sendOne plan j dest p dv key b u room sd s).tb = s.tb ∧ (sendOne plan j dest p dv key b u room sd s).now = s.now := by
  generalize hr : sendOne plan j dest p dv key b u room sd s = r
  simp only [sendOne] at hr
  repeat' split at hr
  all_goals (subst hr; simp)
@[simp] theorem sendStroke_frame (plan : ℕ) (j : ℕ) (dest : ℕ) (p : Plan) (dv : PlanDev) (key : ℕ) (b : ℕ) (room : Bool) (sd : SendState) (s : State) :
    (sendStroke plan j dest p dv key b room sd s).pending = s.pending ∧ (sendStroke plan j dest p dv key b room sd s).audio = s.audio ∧ (sendStroke plan j dest p dv key b room sd s).lbox = s.lbox ∧ (sendStroke plan j dest p dv key b room sd s).pins = s.pins ∧ (sendStroke plan j dest p dv key b room sd s).tOffset = s.tOffset ∧ (sendStroke plan j dest p dv key b room sd s).boot = s.boot ∧ (sendStroke plan j dest p dv key b room sd s).hbm = s.hbm ∧ (sendStroke plan j dest p dv key b room sd s).glint = s.glint ∧ (sendStroke plan j dest p dv key b room sd s).cond = s.cond ∧ (sendStroke plan j dest p dv key b room sd s).tx = s.tx ∧ (sendStroke plan j dest p dv key b room sd s).corr = s.corr ∧ (sendStroke plan j dest p dv key b room sd s).twin = s.twin ∧ (sendStroke plan j dest p dv key b room sd s).free = s.free ∧ (sendStroke plan j dest p dv key b room sd s).tb = s.tb ∧ (sendStroke plan j dest p dv key b room sd s).now = s.now := by
  generalize hr : sendStroke plan j dest p dv key b room sd s = r
  simp only [sendStroke] at hr
  repeat' split at hr
  all_goals (subst hr; simp)
@[simp] theorem cornerTurn_frame (plan : ℕ) (j : ℕ) (dest : ℕ) (room : Bool) (s : State) :
    (cornerTurn plan j dest room s).pending = s.pending ∧ (cornerTurn plan j dest room s).audio = s.audio ∧ (cornerTurn plan j dest room s).lbox = s.lbox ∧ (cornerTurn plan j dest room s).pins = s.pins ∧ (cornerTurn plan j dest room s).tOffset = s.tOffset ∧ (cornerTurn plan j dest room s).boot = s.boot ∧ (cornerTurn plan j dest room s).hbm = s.hbm ∧ (cornerTurn plan j dest room s).glint = s.glint ∧ (cornerTurn plan j dest room s).cond = s.cond ∧ (cornerTurn plan j dest room s).tx = s.tx ∧ (cornerTurn plan j dest room s).corr = s.corr ∧ (cornerTurn plan j dest room s).twin = s.twin ∧ (cornerTurn plan j dest room s).free = s.free ∧ (cornerTurn plan j dest room s).tb = s.tb ∧ (cornerTurn plan j dest room s).now = s.now := by
  generalize hr : cornerTurn plan j dest room s = r
  simp only [cornerTurn] at hr
  repeat' split at hr
  all_goals (subst hr; simp)
theorem execCornerTurnSend_frame (t : Tick) (plan : Fin 16) (j : ℕ) (dest : BitVec 10) (room : Bool) (s : State) {t_ : State} (h : execCornerTurnSend t plan j dest room s = .next t_) :
    t_.pending = s.pending ∧ t_.audio = s.audio ∧ t_.lbox = s.lbox ∧ t_.pins = s.pins ∧ t_.tOffset = (s.advance t).tOffset ∧ t_.boot = s.boot ∧ t_.hbm = s.hbm ∧ t_.glint = s.glint ∧ t_.cond = s.cond ∧ t_.tx = s.tx ∧ t_.corr = s.corr ∧ t_.twin = s.twin ∧ t_.free = s.free ∧ t_.tb = (s.advance t).tb ∧ t_.now = (s.advance t).now := by
  simp only [execCornerTurnSend, Host.Outcome.next.injEq] at h
  subst h
  simp
@[simp] theorem takeBatch_frame (f : RawFrame) (s : State) :
    (takeBatch f s).pending = s.pending ∧ (takeBatch f s).audio = s.audio ∧ (takeBatch f s).lbox = s.lbox ∧ (takeBatch f s).pins = s.pins ∧ (takeBatch f s).tOffset = s.tOffset ∧ (takeBatch f s).boot = s.boot ∧ (takeBatch f s).glint = s.glint ∧ (takeBatch f s).cond = s.cond ∧ (takeBatch f s).tx = s.tx ∧ (takeBatch f s).link = s.link ∧ (takeBatch f s).twin = s.twin ∧ (takeBatch f s).host = s.host ∧ (takeBatch f s).out = s.out ∧ (takeBatch f s).tb = s.tb ∧ (takeBatch f s).now = s.now := by
  generalize hr : takeBatch f s = r
  simp only [takeBatch] at hr
  repeat' split at hr
  all_goals (subst hr; simp)
@[simp] theorem noteTraffic_frame (q : ℕ) (f : RawFrame) (s : State) :
    (noteTraffic q f s).pending = s.pending ∧ (noteTraffic q f s).audio = s.audio ∧ (noteTraffic q f s).lbox = s.lbox ∧ (noteTraffic q f s).pins = s.pins ∧ (noteTraffic q f s).tOffset = s.tOffset ∧ (noteTraffic q f s).boot = s.boot ∧ (noteTraffic q f s).hbm = s.hbm ∧ (noteTraffic q f s).glint = s.glint ∧ (noteTraffic q f s).cond = s.cond ∧ (noteTraffic q f s).tx = s.tx ∧ (noteTraffic q f s).corr = s.corr ∧ (noteTraffic q f s).twin = s.twin ∧ (noteTraffic q f s).host = s.host ∧ (noteTraffic q f s).free = s.free ∧ (noteTraffic q f s).tb = s.tb ∧ (noteTraffic q f s).now = s.now := by
  generalize hr : noteTraffic q f s = r
  simp only [noteTraffic] at hr
  repeat' split at hr
  all_goals (subst hr; simp)
theorem execBatchFrame_frame (t : Tick) (q : Fin 16) (f : RawFrame) (s : State) {t_ : State} (h : execBatchFrame t q f s = .next t_) :
    t_.pending = s.pending ∧ t_.audio = s.audio ∧ t_.lbox = s.lbox ∧ t_.pins = s.pins ∧ t_.tOffset = (s.advance t).tOffset ∧ t_.boot = s.boot ∧ t_.glint = s.glint ∧ t_.cond = s.cond ∧ t_.tx = s.tx ∧ t_.twin = s.twin ∧ t_.host = s.host ∧ t_.tb = (s.advance t).tb ∧ t_.now = (s.advance t).now := by
  simp only [execBatchFrame] at h
  repeat' split at h
  all_goals (cases h; simp)
@[simp] theorem takeDigest_frame (q : ℕ) (f : RawFrame) (s : State) :
    (takeDigest q f s).pending = s.pending ∧ (takeDigest q f s).audio = s.audio ∧ (takeDigest q f s).lbox = s.lbox ∧ (takeDigest q f s).pins = s.pins ∧ (takeDigest q f s).tOffset = s.tOffset ∧ (takeDigest q f s).boot = s.boot ∧ (takeDigest q f s).hbm = s.hbm ∧ (takeDigest q f s).glint = s.glint ∧ (takeDigest q f s).cond = s.cond ∧ (takeDigest q f s).tx = s.tx ∧ (takeDigest q f s).corr = s.corr ∧ (takeDigest q f s).link = s.link ∧ (takeDigest q f s).twin = s.twin ∧ (takeDigest q f s).free = s.free ∧ (takeDigest q f s).tb = s.tb ∧ (takeDigest q f s).now = s.now := by
  generalize hr : takeDigest q f s = r
  simp only [takeDigest] at hr
  repeat' split at hr
  all_goals (subst hr; simp)
theorem execPlanDigestFrame_frame (t : Tick) (q : Fin 16) (f : RawFrame) (s : State) {t_ : State} (h : execPlanDigestFrame t q f s = .next t_) :
    t_.pending = s.pending ∧ t_.audio = s.audio ∧ t_.lbox = s.lbox ∧ t_.pins = s.pins ∧ t_.tOffset = (s.advance t).tOffset ∧ t_.boot = s.boot ∧ t_.hbm = s.hbm ∧ t_.glint = s.glint ∧ t_.cond = s.cond ∧ t_.tx = s.tx ∧ t_.corr = s.corr ∧ t_.twin = s.twin ∧ t_.free = s.free ∧ t_.tb = (s.advance t).tb ∧ t_.now = (s.advance t).now := by
  simp only [execPlanDigestFrame] at h
  repeat' split at h
  all_goals (cases h; simp)
@[simp] theorem logElem_frame (plan : ℕ) (j : ℕ) (base : ℕ) (u : StrokeBuf) (S : ℕ) (elem : ℕ) (s : State) :
    (logElem plan j base u S elem s).pending = s.pending ∧ (logElem plan j base u S elem s).audio = s.audio ∧ (logElem plan j base u S elem s).lbox = s.lbox ∧ (logElem plan j base u S elem s).pins = s.pins ∧ (logElem plan j base u S elem s).tOffset = s.tOffset ∧ (logElem plan j base u S elem s).boot = s.boot ∧ (logElem plan j base u S elem s).chan = s.chan ∧ (logElem plan j base u S elem s).hbm = s.hbm ∧ (logElem plan j base u S elem s).glint = s.glint ∧ (logElem plan j base u S elem s).tx = s.tx ∧ (logElem plan j base u S elem s).corr = s.corr ∧ (logElem plan j base u S elem s).link = s.link ∧ (logElem plan j base u S elem s).twin = s.twin ∧ (logElem plan j base u S elem s).mgmt = s.mgmt ∧ (logElem plan j base u S elem s).host = s.host ∧ (logElem plan j base u S elem s).out = s.out ∧ (logElem plan j base u S elem s).free = s.free ∧ (logElem plan j base u S elem s).tb = s.tb ∧ (logElem plan j base u S elem s).now = s.now := by
  simp [logElem]
@[simp] theorem releaseStrokeOf_frame (plan : ℕ) (j : ℕ) (p : Plan) (s : State) :
    (releaseStrokeOf plan j p s).pending = s.pending ∧ (releaseStrokeOf plan j p s).audio = s.audio ∧ (releaseStrokeOf plan j p s).lbox = s.lbox ∧ (releaseStrokeOf plan j p s).pins = s.pins ∧ (releaseStrokeOf plan j p s).tOffset = s.tOffset ∧ (releaseStrokeOf plan j p s).boot = s.boot ∧ (releaseStrokeOf plan j p s).hbm = s.hbm ∧ (releaseStrokeOf plan j p s).glint = s.glint ∧ (releaseStrokeOf plan j p s).tx = s.tx ∧ (releaseStrokeOf plan j p s).corr = s.corr ∧ (releaseStrokeOf plan j p s).link = s.link ∧ (releaseStrokeOf plan j p s).twin = s.twin ∧ (releaseStrokeOf plan j p s).mgmt = s.mgmt ∧ (releaseStrokeOf plan j p s).host = s.host ∧ (releaseStrokeOf plan j p s).out = s.out ∧ (releaseStrokeOf plan j p s).free = s.free ∧ (releaseStrokeOf plan j p s).tb = s.tb ∧ (releaseStrokeOf plan j p s).now = s.now := by
  simp [releaseStrokeOf]
theorem execSourceStatsRecord_frame (t : Tick) (plan : Fin 16) (s : State) {t_ : State} (h : execSourceStatsRecord t plan s = .next t_) :
    t_.pending = s.pending ∧ t_.audio = s.audio ∧ t_.lbox = s.lbox ∧ t_.pins = s.pins ∧ t_.tOffset = (s.advance t).tOffset ∧ t_.boot = s.boot ∧ t_.chan = s.chan ∧ t_.glint = s.glint ∧ t_.cond = s.cond ∧ t_.tx = s.tx ∧ t_.link = s.link ∧ t_.out = s.out ∧ t_.tb = (s.advance t).tb ∧ t_.now = (s.advance t).now := by
  simp only [execSourceStatsRecord] at h
  repeat' split at h
  all_goals (cases h; simp)
@[simp] theorem setSched_frame (r : SchedRun) (s : State) :
    (setSched r s).pending = s.pending ∧ (setSched r s).audio = s.audio ∧ (setSched r s).lbox = s.lbox ∧ (setSched r s).pins = s.pins ∧ (setSched r s).tOffset = s.tOffset ∧ (setSched r s).boot = s.boot ∧ (setSched r s).chan = s.chan ∧ (setSched r s).hbm = s.hbm ∧ (setSched r s).glint = s.glint ∧ (setSched r s).cond = s.cond ∧ (setSched r s).tx = s.tx ∧ (setSched r s).link = s.link ∧ (setSched r s).twin = s.twin ∧ (setSched r s).mgmt = s.mgmt ∧ (setSched r s).host = s.host ∧ (setSched r s).out = s.out ∧ (setSched r s).free = s.free ∧ (setSched r s).tb = s.tb ∧ (setSched r s).now = s.now := by
  simp [setSched]
@[simp] theorem setRunOf_frame (gen : ℕ) (k : ℕ) (f : EntryRun → EntryRun) (s : State) :
    (setRunOf gen k f s).pending = s.pending ∧ (setRunOf gen k f s).audio = s.audio ∧ (setRunOf gen k f s).lbox = s.lbox ∧ (setRunOf gen k f s).pins = s.pins ∧ (setRunOf gen k f s).tOffset = s.tOffset ∧ (setRunOf gen k f s).boot = s.boot ∧ (setRunOf gen k f s).chan = s.chan ∧ (setRunOf gen k f s).hbm = s.hbm ∧ (setRunOf gen k f s).glint = s.glint ∧ (setRunOf gen k f s).cond = s.cond ∧ (setRunOf gen k f s).tx = s.tx ∧ (setRunOf gen k f s).link = s.link ∧ (setRunOf gen k f s).twin = s.twin ∧ (setRunOf gen k f s).mgmt = s.mgmt ∧ (setRunOf gen k f s).host = s.host ∧ (setRunOf gen k f s).out = s.out ∧ (setRunOf gen k f s).free = s.free ∧ (setRunOf gen k f s).tb = s.tb ∧ (setRunOf gen k f s).now = s.now := by
  simp [setRunOf]
@[simp] theorem newEpoch_frame (s : State) :
    (newEpoch s).2.pending = s.pending ∧ (newEpoch s).2.audio = s.audio ∧ (newEpoch s).2.lbox = s.lbox ∧ (newEpoch s).2.pins = s.pins ∧ (newEpoch s).2.tOffset = s.tOffset ∧ (newEpoch s).2.boot = s.boot ∧ (newEpoch s).2.chan = s.chan ∧ (newEpoch s).2.hbm = s.hbm ∧ (newEpoch s).2.glint = s.glint ∧ (newEpoch s).2.cond = s.cond ∧ (newEpoch s).2.tx = s.tx ∧ (newEpoch s).2.corr = s.corr ∧ (newEpoch s).2.link = s.link ∧ (newEpoch s).2.twin = s.twin ∧ (newEpoch s).2.mgmt = s.mgmt ∧ (newEpoch s).2.host = s.host ∧ (newEpoch s).2.out = s.out ∧ (newEpoch s).2.tb = s.tb ∧ (newEpoch s).2.now = s.now := by
  simp [newEpoch]
@[simp] theorem trimLog_frame (s : State) :
    (trimLog s).pending = s.pending ∧ (trimLog s).audio = s.audio ∧ (trimLog s).lbox = s.lbox ∧ (trimLog s).pins = s.pins ∧ (trimLog s).tOffset = s.tOffset ∧ (trimLog s).boot = s.boot ∧ (trimLog s).chan = s.chan ∧ (trimLog s).hbm = s.hbm ∧ (trimLog s).glint = s.glint ∧ (trimLog s).tx = s.tx ∧ (trimLog s).corr = s.corr ∧ (trimLog s).link = s.link ∧ (trimLog s).twin = s.twin ∧ (trimLog s).mgmt = s.mgmt ∧ (trimLog s).host = s.host ∧ (trimLog s).out = s.out ∧ (trimLog s).free = s.free ∧ (trimLog s).tb = s.tb ∧ (trimLog s).now = s.now := by
  simp [trimLog]
@[simp] theorem setEng_frame (e : ℕ) (x : Engine) (s : State) :
    (setEng e x s).pending = s.pending ∧ (setEng e x s).audio = s.audio ∧ (setEng e x s).lbox = s.lbox ∧ (setEng e x s).pins = s.pins ∧ (setEng e x s).tOffset = s.tOffset ∧ (setEng e x s).boot = s.boot ∧ (setEng e x s).chan = s.chan ∧ (setEng e x s).hbm = s.hbm ∧ (setEng e x s).glint = s.glint ∧ (setEng e x s).cond = s.cond ∧ (setEng e x s).tx = s.tx ∧ (setEng e x s).link = s.link ∧ (setEng e x s).twin = s.twin ∧ (setEng e x s).mgmt = s.mgmt ∧ (setEng e x s).host = s.host ∧ (setEng e x s).out = s.out ∧ (setEng e x s).free = s.free ∧ (setEng e x s).tb = s.tb ∧ (setEng e x s).now = s.now := by
  simp [setEng]
@[simp] theorem setDom_frame (d : ℕ) (x : Domain) (s : State) :
    (setDom d x s).pending = s.pending ∧ (setDom d x s).audio = s.audio ∧ (setDom d x s).lbox = s.lbox ∧ (setDom d x s).pins = s.pins ∧ (setDom d x s).tOffset = s.tOffset ∧ (setDom d x s).boot = s.boot ∧ (setDom d x s).chan = s.chan ∧ (setDom d x s).hbm = s.hbm ∧ (setDom d x s).glint = s.glint ∧ (setDom d x s).cond = s.cond ∧ (setDom d x s).tx = s.tx ∧ (setDom d x s).corr = s.corr ∧ (setDom d x s).link = s.link ∧ (setDom d x s).twin = s.twin ∧ (setDom d x s).host = s.host ∧ (setDom d x s).out = s.out ∧ (setDom d x s).free = s.free ∧ (setDom d x s).tb = s.tb ∧ (setDom d x s).now = s.now := by
  simp [setDom]
@[simp] theorem freeBuffers_frame (s : State) :
    (freeBuffers s).pending = s.pending ∧ (freeBuffers s).audio = s.audio ∧ (freeBuffers s).lbox = s.lbox ∧ (freeBuffers s).pins = s.pins ∧ (freeBuffers s).tOffset = s.tOffset ∧ (freeBuffers s).boot = s.boot ∧ (freeBuffers s).hbm = s.hbm ∧ (freeBuffers s).glint = s.glint ∧ (freeBuffers s).cond = s.cond ∧ (freeBuffers s).tx = s.tx ∧ (freeBuffers s).corr = s.corr ∧ (freeBuffers s).link = s.link ∧ (freeBuffers s).twin = s.twin ∧ (freeBuffers s).mgmt = s.mgmt ∧ (freeBuffers s).host = s.host ∧ (freeBuffers s).out = s.out ∧ (freeBuffers s).free = s.free ∧ (freeBuffers s).tb = s.tb ∧ (freeBuffers s).now = s.now := by
  simp [freeBuffers]
@[simp] theorem closeBatches_frame (s : State) :
    (closeBatches s).pending = s.pending ∧ (closeBatches s).audio = s.audio ∧ (closeBatches s).lbox = s.lbox ∧ (closeBatches s).pins = s.pins ∧ (closeBatches s).tOffset = s.tOffset ∧ (closeBatches s).boot = s.boot ∧ (closeBatches s).chan = s.chan ∧ (closeBatches s).hbm = s.hbm ∧ (closeBatches s).glint = s.glint ∧ (closeBatches s).cond = s.cond ∧ (closeBatches s).tx = s.tx ∧ (closeBatches s).corr = s.corr ∧ (closeBatches s).link = s.link ∧ (closeBatches s).mgmt = s.mgmt ∧ (closeBatches s).host = s.host ∧ (closeBatches s).out = s.out ∧ (closeBatches s).free = s.free ∧ (closeBatches s).tb = s.tb ∧ (closeBatches s).now = s.now := by
  generalize hr : closeBatches s = r
  simp only [closeBatches] at hr
  repeat' split at hr
  all_goals (subst hr; simp)
@[simp] theorem batchAdd_frame (h : Handoff) (width : ℕ) (s : State) :
    (batchAdd h width s).pending = s.pending ∧ (batchAdd h width s).audio = s.audio ∧ (batchAdd h width s).lbox = s.lbox ∧ (batchAdd h width s).pins = s.pins ∧ (batchAdd h width s).tOffset = s.tOffset ∧ (batchAdd h width s).boot = s.boot ∧ (batchAdd h width s).chan = s.chan ∧ (batchAdd h width s).hbm = s.hbm ∧ (batchAdd h width s).glint = s.glint ∧ (batchAdd h width s).cond = s.cond ∧ (batchAdd h width s).tx = s.tx ∧ (batchAdd h width s).corr = s.corr ∧ (batchAdd h width s).link = s.link ∧ (batchAdd h width s).mgmt = s.mgmt ∧ (batchAdd h width s).host = s.host ∧ (batchAdd h width s).out = s.out ∧ (batchAdd h width s).free = s.free ∧ (batchAdd h width s).tb = s.tb ∧ (batchAdd h width s).now = s.now := by
  generalize hr : batchAdd h width s = r
  simp only [batchAdd] at hr
  repeat' split at hr
  all_goals (subst hr; simp)
@[simp] theorem openBatch_frame (gen : ℕ) (k : ℕ) (pos : ℕ × ℕ) (s : State) :
    (openBatch gen k pos s).pending = s.pending ∧ (openBatch gen k pos s).audio = s.audio ∧ (openBatch gen k pos s).lbox = s.lbox ∧ (openBatch gen k pos s).pins = s.pins ∧ (openBatch gen k pos s).tOffset = s.tOffset ∧ (openBatch gen k pos s).boot = s.boot ∧ (openBatch gen k pos s).chan = s.chan ∧ (openBatch gen k pos s).hbm = s.hbm ∧ (openBatch gen k pos s).glint = s.glint ∧ (openBatch gen k pos s).cond = s.cond ∧ (openBatch gen k pos s).tx = s.tx ∧ (openBatch gen k pos s).corr = s.corr ∧ (openBatch gen k pos s).link = s.link ∧ (openBatch gen k pos s).mgmt = s.mgmt ∧ (openBatch gen k pos s).host = s.host ∧ (openBatch gen k pos s).out = s.out ∧ (openBatch gen k pos s).free = s.free ∧ (openBatch gen k pos s).tb = s.tb ∧ (openBatch gen k pos s).now = s.now := by
  generalize hr : openBatch gen k pos s = r
  simp only [openBatch] at hr
  repeat' split at hr
  all_goals (subst hr; simp)
@[simp] theorem markDone_frame (gen : ℕ) (k : ℕ) (pos : ℕ × ℕ) (s : State) :
    (markDone gen k pos s).pending = s.pending ∧ (markDone gen k pos s).audio = s.audio ∧ (markDone gen k pos s).lbox = s.lbox ∧ (markDone gen k pos s).pins = s.pins ∧ (markDone gen k pos s).tOffset = s.tOffset ∧ (markDone gen k pos s).boot = s.boot ∧ (markDone gen k pos s).chan = s.chan ∧ (markDone gen k pos s).hbm = s.hbm ∧ (markDone gen k pos s).glint = s.glint ∧ (markDone gen k pos s).cond = s.cond ∧ (markDone gen k pos s).tx = s.tx ∧ (markDone gen k pos s).link = s.link ∧ (markDone gen k pos s).mgmt = s.mgmt ∧ (markDone gen k pos s).host = s.host ∧ (markDone gen k pos s).out = s.out ∧ (markDone gen k pos s).free = s.free ∧ (markDone gen k pos s).tb = s.tb ∧ (markDone gen k pos s).now = s.now := by
  simp [markDone]
@[simp] theorem endReruns_frame (gen : ℕ) (k : ℕ) (pos : ℕ × ℕ) (s : State) :
    (endReruns gen k pos s).pending = s.pending ∧ (endReruns gen k pos s).audio = s.audio ∧ (endReruns gen k pos s).lbox = s.lbox ∧ (endReruns gen k pos s).pins = s.pins ∧ (endReruns gen k pos s).tOffset = s.tOffset ∧ (endReruns gen k pos s).boot = s.boot ∧ (endReruns gen k pos s).chan = s.chan ∧ (endReruns gen k pos s).hbm = s.hbm ∧ (endReruns gen k pos s).glint = s.glint ∧ (endReruns gen k pos s).cond = s.cond ∧ (endReruns gen k pos s).tx = s.tx ∧ (endReruns gen k pos s).link = s.link ∧ (endReruns gen k pos s).mgmt = s.mgmt ∧ (endReruns gen k pos s).host = s.host ∧ (endReruns gen k pos s).out = s.out ∧ (endReruns gen k pos s).free = s.free ∧ (endReruns gen k pos s).tb = s.tb ∧ (endReruns gen k pos s).now = s.now := by
  unfold endReruns
  extract_lets
  refine ⟨(foldl_pending _ _ _ fun s a => ?_).trans ?_, (foldl_audio _ _ _ fun s a => ?_).trans ?_, (foldl_lbox _ _ _ fun s a => ?_).trans ?_, (foldl_pins _ _ _ fun s a => ?_).trans ?_, (foldl_tOffset _ _ _ fun s a => ?_).trans ?_, (foldl_boot _ _ _ fun s a => ?_).trans ?_, (foldl_chan _ _ _ fun s a => ?_).trans ?_, (foldl_hbm _ _ _ fun s a => ?_).trans ?_, (foldl_glint _ _ _ fun s a => ?_).trans ?_, (foldl_cond _ _ _ fun s a => ?_).trans ?_, (foldl_tx _ _ _ fun s a => ?_).trans ?_, (foldl_link _ _ _ fun s a => ?_).trans ?_, (foldl_mgmt _ _ _ fun s a => ?_).trans ?_, (foldl_host _ _ _ fun s a => ?_).trans ?_, (foldl_out _ _ _ fun s a => ?_).trans ?_, (foldl_free _ _ _ fun s a => ?_).trans ?_, (foldl_tb _ _ _ fun s a => ?_).trans ?_, (foldl_now _ _ _ fun s a => ?_).trans ?_⟩
  all_goals (repeat' (first | rfl | split))
  all_goals (try simp)
@[simp] theorem countSlack_frame (e : ℕ) (slack : ℤ) (period : ℕ) (s : State) :
    (countSlack e slack period s).pending = s.pending ∧ (countSlack e slack period s).audio = s.audio ∧ (countSlack e slack period s).lbox = s.lbox ∧ (countSlack e slack period s).pins = s.pins ∧ (countSlack e slack period s).tOffset = s.tOffset ∧ (countSlack e slack period s).boot = s.boot ∧ (countSlack e slack period s).chan = s.chan ∧ (countSlack e slack period s).hbm = s.hbm ∧ (countSlack e slack period s).glint = s.glint ∧ (countSlack e slack period s).cond = s.cond ∧ (countSlack e slack period s).tx = s.tx ∧ (countSlack e slack period s).link = s.link ∧ (countSlack e slack period s).twin = s.twin ∧ (countSlack e slack period s).host = s.host ∧ (countSlack e slack period s).out = s.out ∧ (countSlack e slack period s).free = s.free ∧ (countSlack e slack period s).tb = s.tb ∧ (countSlack e slack period s).now = s.now := by
  simp [countSlack]
@[simp] theorem setSeg_frame (gen : ℕ) (k : ℕ) (bank : ℕ) (first : ℕ) (x : Segment) (s : State) :
    (setSeg gen k bank first x s).pending = s.pending ∧ (setSeg gen k bank first x s).audio = s.audio ∧ (setSeg gen k bank first x s).lbox = s.lbox ∧ (setSeg gen k bank first x s).pins = s.pins ∧ (setSeg gen k bank first x s).tOffset = s.tOffset ∧ (setSeg gen k bank first x s).boot = s.boot ∧ (setSeg gen k bank first x s).chan = s.chan ∧ (setSeg gen k bank first x s).hbm = s.hbm ∧ (setSeg gen k bank first x s).glint = s.glint ∧ (setSeg gen k bank first x s).cond = s.cond ∧ (setSeg gen k bank first x s).tx = s.tx ∧ (setSeg gen k bank first x s).link = s.link ∧ (setSeg gen k bank first x s).twin = s.twin ∧ (setSeg gen k bank first x s).mgmt = s.mgmt ∧ (setSeg gen k bank first x s).host = s.host ∧ (setSeg gen k bank first x s).out = s.out ∧ (setSeg gen k bank first x s).free = s.free ∧ (setSeg gen k bank first x s).tb = s.tb ∧ (setSeg gen k bank first x s).now = s.now := by
  simp [setSeg]
@[simp] theorem stageDump_frame (r : SchedRun) (q : Pool) (o : Readout) (s : State) :
    (stageDump r q o s).pending = s.pending ∧ (stageDump r q o s).audio = s.audio ∧ (stageDump r q o s).lbox = s.lbox ∧ (stageDump r q o s).pins = s.pins ∧ (stageDump r q o s).tOffset = s.tOffset ∧ (stageDump r q o s).boot = s.boot ∧ (stageDump r q o s).chan = s.chan ∧ (stageDump r q o s).hbm = s.hbm ∧ (stageDump r q o s).glint = s.glint ∧ (stageDump r q o s).cond = s.cond ∧ (stageDump r q o s).tx = s.tx ∧ (stageDump r q o s).link = s.link ∧ (stageDump r q o s).mgmt = s.mgmt ∧ (stageDump r q o s).out = s.out ∧ (stageDump r q o s).free = s.free ∧ (stageDump r q o s).tb = s.tb ∧ (stageDump r q o s).now = s.now := by
  simp [stageDump]
@[simp] theorem readout_frame (gen : ℕ) (k : ℕ) (bank : ℕ) (seg : ℕ × ℕ) (ecc : List Ecc) (s : State) :
    (readout gen k bank seg ecc s).pending = s.pending ∧ (readout gen k bank seg ecc s).audio = s.audio ∧ (readout gen k bank seg ecc s).lbox = s.lbox ∧ (readout gen k bank seg ecc s).pins = s.pins ∧ (readout gen k bank seg ecc s).tOffset = s.tOffset ∧ (readout gen k bank seg ecc s).boot = s.boot ∧ (readout gen k bank seg ecc s).chan = s.chan ∧ (readout gen k bank seg ecc s).hbm = s.hbm ∧ (readout gen k bank seg ecc s).glint = s.glint ∧ (readout gen k bank seg ecc s).cond = s.cond ∧ (readout gen k bank seg ecc s).tx = s.tx ∧ (readout gen k bank seg ecc s).link = s.link ∧ (readout gen k bank seg ecc s).mgmt = s.mgmt ∧ (readout gen k bank seg ecc s).out = s.out ∧ (readout gen k bank seg ecc s).free = s.free ∧ (readout gen k bank seg ecc s).tb = s.tb ∧ (readout gen k bank seg ecc s).now = s.now := by
  generalize hr : readout gen k bank seg ecc s = r
  simp only [readout] at hr
  repeat' split at hr
  all_goals (subst hr; simp)
@[simp] theorem advanceSegN_frame (a : ℕ) (gen : ℕ) (k : ℕ) (bank : ℕ) (seg : ℕ × ℕ) (q : Pool) (a6 : State) :
    (advanceSegN a gen k bank seg q a6).pending = a6.pending ∧ (advanceSegN a gen k bank seg q a6).audio = a6.audio ∧ (advanceSegN a gen k bank seg q a6).lbox = a6.lbox ∧ (advanceSegN a gen k bank seg q a6).pins = a6.pins ∧ (advanceSegN a gen k bank seg q a6).tOffset = a6.tOffset ∧ (advanceSegN a gen k bank seg q a6).boot = a6.boot ∧ (advanceSegN a gen k bank seg q a6).chan = a6.chan ∧ (advanceSegN a gen k bank seg q a6).hbm = a6.hbm ∧ (advanceSegN a gen k bank seg q a6).glint = a6.glint ∧ (advanceSegN a gen k bank seg q a6).cond = a6.cond ∧ (advanceSegN a gen k bank seg q a6).tx = a6.tx ∧ (advanceSegN a gen k bank seg q a6).link = a6.link ∧ (advanceSegN a gen k bank seg q a6).mgmt = a6.mgmt ∧ (advanceSegN a gen k bank seg q a6).out = a6.out ∧ (advanceSegN a gen k bank seg q a6).free = a6.free ∧ (advanceSegN a gen k bank seg q a6).tb = a6.tb ∧ (advanceSegN a gen k bank seg q a6).now = a6.now := by
  induction a generalizing a6 with
  | zero => simp [advanceSegN]
  | succ n ih =>
    generalize hr : advanceSegN (n + 1) gen k bank seg q a6 = r
    simp only [advanceSegN] at hr
    repeat' split at hr
    all_goals (subst hr; simp [ih])
@[simp] theorem advanceSeg_frame (gen : ℕ) (k : ℕ) (bank : ℕ) (seg : ℕ × ℕ) (q : Pool) (s : State) :
    (advanceSeg gen k bank seg q s).pending = s.pending ∧ (advanceSeg gen k bank seg q s).audio = s.audio ∧ (advanceSeg gen k bank seg q s).lbox = s.lbox ∧ (advanceSeg gen k bank seg q s).pins = s.pins ∧ (advanceSeg gen k bank seg q s).tOffset = s.tOffset ∧ (advanceSeg gen k bank seg q s).boot = s.boot ∧ (advanceSeg gen k bank seg q s).chan = s.chan ∧ (advanceSeg gen k bank seg q s).hbm = s.hbm ∧ (advanceSeg gen k bank seg q s).glint = s.glint ∧ (advanceSeg gen k bank seg q s).cond = s.cond ∧ (advanceSeg gen k bank seg q s).tx = s.tx ∧ (advanceSeg gen k bank seg q s).link = s.link ∧ (advanceSeg gen k bank seg q s).mgmt = s.mgmt ∧ (advanceSeg gen k bank seg q s).out = s.out ∧ (advanceSeg gen k bank seg q s).free = s.free ∧ (advanceSeg gen k bank seg q s).tb = s.tb ∧ (advanceSeg gen k bank seg q s).now = s.now := by
  generalize hr : advanceSeg gen k bank seg q s = r
  simp only [advanceSeg] at hr
  repeat' split at hr
  all_goals (subst hr; simp)
@[simp] theorem modAcc_frame (r : SchedRun) (k : ℕ) (q : Pool) (job : ℕ) (i : ℕ) (f : ℕ → SegAcc → SegAcc) (s : State) :
    (modAcc r k q job i f s).pending = s.pending ∧ (modAcc r k q job i f s).audio = s.audio ∧ (modAcc r k q job i f s).lbox = s.lbox ∧ (modAcc r k q job i f s).pins = s.pins ∧ (modAcc r k q job i f s).tOffset = s.tOffset ∧ (modAcc r k q job i f s).boot = s.boot ∧ (modAcc r k q job i f s).chan = s.chan ∧ (modAcc r k q job i f s).hbm = s.hbm ∧ (modAcc r k q job i f s).glint = s.glint ∧ (modAcc r k q job i f s).cond = s.cond ∧ (modAcc r k q job i f s).tx = s.tx ∧ (modAcc r k q job i f s).link = s.link ∧ (modAcc r k q job i f s).mgmt = s.mgmt ∧ (modAcc r k q job i f s).out = s.out ∧ (modAcc r k q job i f s).free = s.free ∧ (modAcc r k q job i f s).tb = s.tb ∧ (modAcc r k q job i f s).now = s.now := by
  simp [modAcc]
@[simp] theorem missJob_frame (r : SchedRun) (k : ℕ) (q : Pool) (job : ℕ) (i : ℕ) (cause : ℕ) (s : State) :
    (missJob r k q job i cause s).pending = s.pending ∧ (missJob r k q job i cause s).audio = s.audio ∧ (missJob r k q job i cause s).lbox = s.lbox ∧ (missJob r k q job i cause s).pins = s.pins ∧ (missJob r k q job i cause s).tOffset = s.tOffset ∧ (missJob r k q job i cause s).boot = s.boot ∧ (missJob r k q job i cause s).chan = s.chan ∧ (missJob r k q job i cause s).hbm = s.hbm ∧ (missJob r k q job i cause s).glint = s.glint ∧ (missJob r k q job i cause s).cond = s.cond ∧ (missJob r k q job i cause s).tx = s.tx ∧ (missJob r k q job i cause s).link = s.link ∧ (missJob r k q job i cause s).mgmt = s.mgmt ∧ (missJob r k q job i cause s).out = s.out ∧ (missJob r k q job i cause s).free = s.free ∧ (missJob r k q job i cause s).tb = s.tb ∧ (missJob r k q job i cause s).now = s.now := by
  generalize hr : missJob r k q job i cause s = r
  simp only [missJob] at hr
  repeat' split at hr
  all_goals (subst hr; simp)
@[simp] theorem noteArrival_frame (gen : ℕ) (k : ℕ) (i : ℕ) (at_ : ℕ) (wrote : Bool) (s : State) :
    (noteArrival gen k i at_ wrote s).pending = s.pending ∧ (noteArrival gen k i at_ wrote s).audio = s.audio ∧ (noteArrival gen k i at_ wrote s).lbox = s.lbox ∧ (noteArrival gen k i at_ wrote s).pins = s.pins ∧ (noteArrival gen k i at_ wrote s).tOffset = s.tOffset ∧ (noteArrival gen k i at_ wrote s).boot = s.boot ∧ (noteArrival gen k i at_ wrote s).chan = s.chan ∧ (noteArrival gen k i at_ wrote s).hbm = s.hbm ∧ (noteArrival gen k i at_ wrote s).glint = s.glint ∧ (noteArrival gen k i at_ wrote s).cond = s.cond ∧ (noteArrival gen k i at_ wrote s).tx = s.tx ∧ (noteArrival gen k i at_ wrote s).link = s.link ∧ (noteArrival gen k i at_ wrote s).twin = s.twin ∧ (noteArrival gen k i at_ wrote s).mgmt = s.mgmt ∧ (noteArrival gen k i at_ wrote s).host = s.host ∧ (noteArrival gen k i at_ wrote s).out = s.out ∧ (noteArrival gen k i at_ wrote s).free = s.free ∧ (noteArrival gen k i at_ wrote s).tb = s.tb ∧ (noteArrival gen k i at_ wrote s).now = s.now := by
  generalize hr : noteArrival gen k i at_ wrote s = r
  simp only [noteArrival] at hr
  repeat' split at hr
  all_goals (subst hr; simp)
@[simp] theorem inkLatency_frame (gen : ℕ) (k : ℕ) (q : Pool) (i : ℕ) (s : State) :
    (inkLatency gen k q i s).pending = s.pending ∧ (inkLatency gen k q i s).audio = s.audio ∧ (inkLatency gen k q i s).lbox = s.lbox ∧ (inkLatency gen k q i s).pins = s.pins ∧ (inkLatency gen k q i s).tOffset = s.tOffset ∧ (inkLatency gen k q i s).boot = s.boot ∧ (inkLatency gen k q i s).chan = s.chan ∧ (inkLatency gen k q i s).hbm = s.hbm ∧ (inkLatency gen k q i s).glint = s.glint ∧ (inkLatency gen k q i s).cond = s.cond ∧ (inkLatency gen k q i s).tx = s.tx ∧ (inkLatency gen k q i s).link = s.link ∧ (inkLatency gen k q i s).twin = s.twin ∧ (inkLatency gen k q i s).host = s.host ∧ (inkLatency gen k q i s).out = s.out ∧ (inkLatency gen k q i s).free = s.free ∧ (inkLatency gen k q i s).tb = s.tb ∧ (inkLatency gen k q i s).now = s.now := by
  generalize hr : inkLatency gen k q i s = r
  simp only [inkLatency] at hr
  repeat' split at hr
  all_goals (subst hr; simp)
@[simp] theorem missArrival_frame (gen : ℕ) (k : ℕ) (q : Pool) (job : ℕ) (i : ℕ) (s : State) :
    (missArrival gen k q job i s).pending = s.pending ∧ (missArrival gen k q job i s).audio = s.audio ∧ (missArrival gen k q job i s).lbox = s.lbox ∧ (missArrival gen k q job i s).pins = s.pins ∧ (missArrival gen k q job i s).tOffset = s.tOffset ∧ (missArrival gen k q job i s).boot = s.boot ∧ (missArrival gen k q job i s).chan = s.chan ∧ (missArrival gen k q job i s).hbm = s.hbm ∧ (missArrival gen k q job i s).glint = s.glint ∧ (missArrival gen k q job i s).cond = s.cond ∧ (missArrival gen k q job i s).tx = s.tx ∧ (missArrival gen k q job i s).link = s.link ∧ (missArrival gen k q job i s).twin = s.twin ∧ (missArrival gen k q job i s).host = s.host ∧ (missArrival gen k q job i s).out = s.out ∧ (missArrival gen k q job i s).free = s.free ∧ (missArrival gen k q job i s).tb = s.tb ∧ (missArrival gen k q job i s).now = s.now := by
  generalize hr : missArrival gen k q job i s = r
  simp only [missArrival] at hr
  repeat' split at hr
  all_goals (subst hr; simp)
@[simp] theorem missSlot_frame (gen : ℕ) (k : ℕ) (pool : ℕ) (job : ℕ) (pos : ℕ × ℕ) (cause : ℕ) (s : State) :
    (missSlot gen k pool job pos cause s).pending = s.pending ∧ (missSlot gen k pool job pos cause s).audio = s.audio ∧ (missSlot gen k pool job pos cause s).lbox = s.lbox ∧ (missSlot gen k pool job pos cause s).pins = s.pins ∧ (missSlot gen k pool job pos cause s).tOffset = s.tOffset ∧ (missSlot gen k pool job pos cause s).boot = s.boot ∧ (missSlot gen k pool job pos cause s).chan = s.chan ∧ (missSlot gen k pool job pos cause s).hbm = s.hbm ∧ (missSlot gen k pool job pos cause s).glint = s.glint ∧ (missSlot gen k pool job pos cause s).cond = s.cond ∧ (missSlot gen k pool job pos cause s).tx = s.tx ∧ (missSlot gen k pool job pos cause s).link = s.link ∧ (missSlot gen k pool job pos cause s).out = s.out ∧ (missSlot gen k pool job pos cause s).free = s.free ∧ (missSlot gen k pool job pos cause s).tb = s.tb ∧ (missSlot gen k pool job pos cause s).now = s.now := by
  generalize hr : missSlot gen k pool job pos cause s = r
  simp only [missSlot] at hr
  repeat' split at hr
  all_goals (subst hr; simp)
@[simp] theorem dropScheds_frame (s : State) :
    (dropScheds s).pending = s.pending ∧ (dropScheds s).audio = s.audio ∧ (dropScheds s).lbox = s.lbox ∧ (dropScheds s).pins = s.pins ∧ (dropScheds s).tOffset = s.tOffset ∧ (dropScheds s).boot = s.boot ∧ (dropScheds s).chan = s.chan ∧ (dropScheds s).hbm = s.hbm ∧ (dropScheds s).glint = s.glint ∧ (dropScheds s).cond = s.cond ∧ (dropScheds s).tx = s.tx ∧ (dropScheds s).link = s.link ∧ (dropScheds s).mgmt = s.mgmt ∧ (dropScheds s).host = s.host ∧ (dropScheds s).out = s.out ∧ (dropScheds s).free = s.free ∧ (dropScheds s).tb = s.tb ∧ (dropScheds s).now = s.now := by
  unfold dropScheds
  extract_lets
  split
  · simp
  · refine ⟨(foldl_pending _ _ _ fun s a => ?_).trans ?_, (foldl_audio _ _ _ fun s a => ?_).trans ?_, (foldl_lbox _ _ _ fun s a => ?_).trans ?_, (foldl_pins _ _ _ fun s a => ?_).trans ?_, (foldl_tOffset _ _ _ fun s a => ?_).trans ?_, (foldl_boot _ _ _ fun s a => ?_).trans ?_, (foldl_chan _ _ _ fun s a => ?_).trans ?_, (foldl_hbm _ _ _ fun s a => ?_).trans ?_, (foldl_glint _ _ _ fun s a => ?_).trans ?_, (foldl_cond _ _ _ fun s a => ?_).trans ?_, (foldl_tx _ _ _ fun s a => ?_).trans ?_, (foldl_link _ _ _ fun s a => ?_).trans ?_, (foldl_mgmt _ _ _ fun s a => ?_).trans ?_, (foldl_host _ _ _ fun s a => ?_).trans ?_, (foldl_out _ _ _ fun s a => ?_).trans ?_, (foldl_free _ _ _ fun s a => ?_).trans ?_, (foldl_tb _ _ _ fun s a => ?_).trans ?_, (foldl_now _ _ _ fun s a => ?_).trans ?_⟩
    all_goals (repeat' (first | rfl | split))
    all_goals (try simp)
@[simp] theorem afterSlot_frame (s : State) :
    (afterSlot s).pending = s.pending ∧ (afterSlot s).audio = s.audio ∧ (afterSlot s).lbox = s.lbox ∧ (afterSlot s).pins = s.pins ∧ (afterSlot s).tOffset = s.tOffset ∧ (afterSlot s).boot = s.boot ∧ (afterSlot s).hbm = s.hbm ∧ (afterSlot s).glint = s.glint ∧ (afterSlot s).tx = s.tx ∧ (afterSlot s).link = s.link ∧ (afterSlot s).mgmt = s.mgmt ∧ (afterSlot s).host = s.host ∧ (afterSlot s).out = s.out ∧ (afterSlot s).free = s.free ∧ (afterSlot s).tb = s.tb ∧ (afterSlot s).now = s.now := by
  simp [afterSlot]
@[simp] theorem slotDone_frame (h : Handoff) (width : ℕ) (s : State) :
    (slotDone h width s).pending = s.pending ∧ (slotDone h width s).audio = s.audio ∧ (slotDone h width s).lbox = s.lbox ∧ (slotDone h width s).pins = s.pins ∧ (slotDone h width s).tOffset = s.tOffset ∧ (slotDone h width s).boot = s.boot ∧ (slotDone h width s).chan = s.chan ∧ (slotDone h width s).hbm = s.hbm ∧ (slotDone h width s).glint = s.glint ∧ (slotDone h width s).cond = s.cond ∧ (slotDone h width s).tx = s.tx ∧ (slotDone h width s).link = s.link ∧ (slotDone h width s).host = s.host ∧ (slotDone h width s).out = s.out ∧ (slotDone h width s).free = s.free ∧ (slotDone h width s).tb = s.tb ∧ (slotDone h width s).now = s.now := by
  simp [slotDone]
@[simp] theorem inkEcc_frame (q : Pool) (port : ℕ) (n : ℕ) (base : ℕ) (l : List Ecc) (s : State) :
    (inkEcc q port n base l s).pending = s.pending ∧ (inkEcc q port n base l s).audio = s.audio ∧ (inkEcc q port n base l s).lbox = s.lbox ∧ (inkEcc q port n base l s).pins = s.pins ∧ (inkEcc q port n base l s).tOffset = s.tOffset ∧ (inkEcc q port n base l s).boot = s.boot ∧ (inkEcc q port n base l s).chan = s.chan ∧ (inkEcc q port n base l s).glint = s.glint ∧ (inkEcc q port n base l s).cond = s.cond ∧ (inkEcc q port n base l s).tx = s.tx ∧ (inkEcc q port n base l s).corr = s.corr ∧ (inkEcc q port n base l s).link = s.link ∧ (inkEcc q port n base l s).tb = s.tb ∧ (inkEcc q port n base l s).now = s.now := by
  generalize hr : inkEcc q port n base l s = r
  simp only [inkEcc] at hr
  repeat' split at hr
  all_goals (subst hr; simp)
@[simp] theorem inkWrite_frame (q : Pool) (base : ℕ) (s : State) :
    (inkWrite q base s).pending = s.pending ∧ (inkWrite q base s).audio = s.audio ∧ (inkWrite q base s).lbox = s.lbox ∧ (inkWrite q base s).pins = s.pins ∧ (inkWrite q base s).tOffset = s.tOffset ∧ (inkWrite q base s).boot = s.boot ∧ (inkWrite q base s).chan = s.chan ∧ (inkWrite q base s).glint = s.glint ∧ (inkWrite q base s).cond = s.cond ∧ (inkWrite q base s).tx = s.tx ∧ (inkWrite q base s).corr = s.corr ∧ (inkWrite q base s).link = s.link ∧ (inkWrite q base s).twin = s.twin ∧ (inkWrite q base s).host = s.host ∧ (inkWrite q base s).out = s.out ∧ (inkWrite q base s).tb = s.tb ∧ (inkWrite q base s).now = s.now := by
  generalize hr : inkWrite q base s = r
  simp only [inkWrite] at hr
  repeat' split at hr
  all_goals (subst hr; simp)
@[simp] theorem spillGrant_frame (h : Handoff) (s : State) :
    (spillGrant h s).pending = s.pending ∧ (spillGrant h s).audio = s.audio ∧ (spillGrant h s).lbox = s.lbox ∧ (spillGrant h s).pins = s.pins ∧ (spillGrant h s).tOffset = s.tOffset ∧ (spillGrant h s).boot = s.boot ∧ (spillGrant h s).chan = s.chan ∧ (spillGrant h s).hbm = s.hbm ∧ (spillGrant h s).glint = s.glint ∧ (spillGrant h s).cond = s.cond ∧ (spillGrant h s).tx = s.tx ∧ (spillGrant h s).link = s.link ∧ (spillGrant h s).twin = s.twin ∧ (spillGrant h s).free = s.free ∧ (spillGrant h s).tb = s.tb ∧ (spillGrant h s).now = s.now := by
  generalize hr : spillGrant h s = r
  simp only [spillGrant] at hr
  repeat' split at hr
  all_goals (subst hr; simp)
@[simp] theorem spillRefuse_frame (h : Handoff) (s : State) :
    (spillRefuse h s).pending = s.pending ∧ (spillRefuse h s).audio = s.audio ∧ (spillRefuse h s).lbox = s.lbox ∧ (spillRefuse h s).pins = s.pins ∧ (spillRefuse h s).tOffset = s.tOffset ∧ (spillRefuse h s).boot = s.boot ∧ (spillRefuse h s).chan = s.chan ∧ (spillRefuse h s).hbm = s.hbm ∧ (spillRefuse h s).glint = s.glint ∧ (spillRefuse h s).cond = s.cond ∧ (spillRefuse h s).tx = s.tx ∧ (spillRefuse h s).link = s.link ∧ (spillRefuse h s).twin = s.twin ∧ (spillRefuse h s).free = s.free ∧ (spillRefuse h s).tb = s.tb ∧ (spillRefuse h s).now = s.now := by
  generalize hr : spillRefuse h s = r
  simp only [spillRefuse] at hr
  repeat' split at hr
  all_goals (subst hr; simp)
@[simp] theorem spillDecide_frame (h : Handoff) (s : State) :
    (spillDecide h s).2.pending = s.pending ∧ (spillDecide h s).2.audio = s.audio ∧ (spillDecide h s).2.lbox = s.lbox ∧ (spillDecide h s).2.pins = s.pins ∧ (spillDecide h s).2.tOffset = s.tOffset ∧ (spillDecide h s).2.boot = s.boot ∧ (spillDecide h s).2.chan = s.chan ∧ (spillDecide h s).2.hbm = s.hbm ∧ (spillDecide h s).2.glint = s.glint ∧ (spillDecide h s).2.cond = s.cond ∧ (spillDecide h s).2.tx = s.tx ∧ (spillDecide h s).2.link = s.link ∧ (spillDecide h s).2.twin = s.twin ∧ (spillDecide h s).2.free = s.free ∧ (spillDecide h s).2.tb = s.tb ∧ (spillDecide h s).2.now = s.now := by
  generalize hr : spillDecide h s = r
  simp only [spillDecide] at hr
  repeat' split at hr
  all_goals (subst hr; simp)
@[simp] theorem spillAsk_frame (h : Handoff) (s : State) :
    (spillAsk h s).2.pending = s.pending ∧ (spillAsk h s).2.audio = s.audio ∧ (spillAsk h s).2.lbox = s.lbox ∧ (spillAsk h s).2.pins = s.pins ∧ (spillAsk h s).2.tOffset = s.tOffset ∧ (spillAsk h s).2.boot = s.boot ∧ (spillAsk h s).2.chan = s.chan ∧ (spillAsk h s).2.hbm = s.hbm ∧ (spillAsk h s).2.glint = s.glint ∧ (spillAsk h s).2.cond = s.cond ∧ (spillAsk h s).2.tx = s.tx ∧ (spillAsk h s).2.link = s.link ∧ (spillAsk h s).2.twin = s.twin ∧ (spillAsk h s).2.free = s.free ∧ (spillAsk h s).2.tb = s.tb ∧ (spillAsk h s).2.now = s.now := by
  generalize hr : spillAsk h s = r
  simp only [spillAsk] at hr
  repeat' split at hr
  all_goals (subst hr; simp)
@[simp] theorem applyComp_frame (c : Nat) (dec : Option Bool) (h : Handoff) (x : Ink) (d : Int) (s : State) :
    (applyComp c dec h x d s).2.2.pending = s.pending ∧ (applyComp c dec h x d s).2.2.audio = s.audio ∧ (applyComp c dec h x d s).2.2.lbox = s.lbox ∧ (applyComp c dec h x d s).2.2.pins = s.pins ∧ (applyComp c dec h x d s).2.2.tOffset = s.tOffset ∧ (applyComp c dec h x d s).2.2.boot = s.boot ∧ (applyComp c dec h x d s).2.2.chan = s.chan ∧ (applyComp c dec h x d s).2.2.hbm = s.hbm ∧ (applyComp c dec h x d s).2.2.glint = s.glint ∧ (applyComp c dec h x d s).2.2.cond = s.cond ∧ (applyComp c dec h x d s).2.2.tx = s.tx ∧ (applyComp c dec h x d s).2.2.link = s.link ∧ (applyComp c dec h x d s).2.2.twin = s.twin ∧ (applyComp c dec h x d s).2.2.free = s.free ∧ (applyComp c dec h x d s).2.2.tb = s.tb ∧ (applyComp c dec h x d s).2.2.now = s.now := by
  generalize hr : applyComp c dec h x d s = r
  simp only [applyComp] at hr
  repeat' split at hr
  all_goals (subst hr; simp [apply_ite State.pending, apply_ite State.audio, apply_ite State.lbox, apply_ite State.pins, apply_ite State.tOffset, apply_ite State.boot, apply_ite State.chan, apply_ite State.hbm, apply_ite State.glint, apply_ite State.cond, apply_ite State.tx, apply_ite State.link, apply_ite State.twin, apply_ite State.free, apply_ite State.tb, apply_ite State.now, ite_self])
@[simp] theorem applyNibs_frame (h : Handoff) (a : List (Ink × ℤ × ℤ)) (a2 : ℕ) (a3 : ℕ) (a4 : Option Bool) (a5 : State) :
    (applyNibs h a a2 a3 a4 a5).2.2.pending = a5.pending ∧ (applyNibs h a a2 a3 a4 a5).2.2.audio = a5.audio ∧ (applyNibs h a a2 a3 a4 a5).2.2.lbox = a5.lbox ∧ (applyNibs h a a2 a3 a4 a5).2.2.pins = a5.pins ∧ (applyNibs h a a2 a3 a4 a5).2.2.tOffset = a5.tOffset ∧ (applyNibs h a a2 a3 a4 a5).2.2.boot = a5.boot ∧ (applyNibs h a a2 a3 a4 a5).2.2.chan = a5.chan ∧ (applyNibs h a a2 a3 a4 a5).2.2.hbm = a5.hbm ∧ (applyNibs h a a2 a3 a4 a5).2.2.glint = a5.glint ∧ (applyNibs h a a2 a3 a4 a5).2.2.cond = a5.cond ∧ (applyNibs h a a2 a3 a4 a5).2.2.tx = a5.tx ∧ (applyNibs h a a2 a3 a4 a5).2.2.link = a5.link ∧ (applyNibs h a a2 a3 a4 a5).2.2.twin = a5.twin ∧ (applyNibs h a a2 a3 a4 a5).2.2.free = a5.free ∧ (applyNibs h a a2 a3 a4 a5).2.2.tb = a5.tb ∧ (applyNibs h a a2 a3 a4 a5).2.2.now = a5.now := by
  induction a generalizing a2 a3 a4 a5 with
  | nil => simp [applyNibs]
  | cons x l ih =>
    generalize hr : applyNibs h (x :: l) a2 a3 a4 a5 = r
    simp only [applyNibs] at hr
    repeat' split at hr
    all_goals (subst hr; simp [ih, apply_ite (fun p : InkStep => p.2.2.pending), apply_ite (fun p : InkStep => p.2.2.audio), apply_ite (fun p : InkStep => p.2.2.lbox), apply_ite (fun p : InkStep => p.2.2.pins), apply_ite (fun p : InkStep => p.2.2.tOffset), apply_ite (fun p : InkStep => p.2.2.boot), apply_ite (fun p : InkStep => p.2.2.chan), apply_ite (fun p : InkStep => p.2.2.hbm), apply_ite (fun p : InkStep => p.2.2.glint), apply_ite (fun p : InkStep => p.2.2.cond), apply_ite (fun p : InkStep => p.2.2.tx), apply_ite (fun p : InkStep => p.2.2.link), apply_ite (fun p : InkStep => p.2.2.twin), apply_ite (fun p : InkStep => p.2.2.free), apply_ite (fun p : InkStep => p.2.2.tb), apply_ite (fun p : InkStep => p.2.2.now)])
@[simp] theorem finishUpdate_frame (h : Handoff) (s : State) :
    (finishUpdate h s).pending = s.pending ∧ (finishUpdate h s).audio = s.audio ∧ (finishUpdate h s).lbox = s.lbox ∧ (finishUpdate h s).pins = s.pins ∧ (finishUpdate h s).tOffset = s.tOffset ∧ (finishUpdate h s).boot = s.boot ∧ (finishUpdate h s).hbm = s.hbm ∧ (finishUpdate h s).glint = s.glint ∧ (finishUpdate h s).tx = s.tx ∧ (finishUpdate h s).link = s.link ∧ (finishUpdate h s).out = s.out ∧ (finishUpdate h s).free = s.free ∧ (finishUpdate h s).tb = s.tb ∧ (finishUpdate h s).now = s.now := by
  generalize hr : finishUpdate h s = r
  simp only [finishUpdate] at hr
  repeat' split at hr
  all_goals (subst hr; simp)
@[simp] theorem runUpdate_frame (h : Handoff) (key : ℕ) (nib : ℕ) (comp : ℕ) (dec : Option Bool) (s : State) :
    (runUpdate h key nib comp dec s).pending = s.pending ∧ (runUpdate h key nib comp dec s).audio = s.audio ∧ (runUpdate h key nib comp dec s).lbox = s.lbox ∧ (runUpdate h key nib comp dec s).pins = s.pins ∧ (runUpdate h key nib comp dec s).tOffset = s.tOffset ∧ (runUpdate h key nib comp dec s).boot = s.boot ∧ (runUpdate h key nib comp dec s).hbm = s.hbm ∧ (runUpdate h key nib comp dec s).glint = s.glint ∧ (runUpdate h key nib comp dec s).tx = s.tx ∧ (runUpdate h key nib comp dec s).link = s.link ∧ (runUpdate h key nib comp dec s).free = s.free ∧ (runUpdate h key nib comp dec s).tb = s.tb ∧ (runUpdate h key nib comp dec s).now = s.now := by
  generalize hr : runUpdate h key nib comp dec s = r
  simp only [runUpdate] at hr
  repeat' split at hr
  all_goals (subst hr; simp)
@[simp] theorem applyUpdate_frame (h : Handoff) (r : SchedRun) (q : Pool) (ecc : List Ecc) (s : State) :
    (applyUpdate h r q ecc s).pending = s.pending ∧ (applyUpdate h r q ecc s).audio = s.audio ∧ (applyUpdate h r q ecc s).lbox = s.lbox ∧ (applyUpdate h r q ecc s).pins = s.pins ∧ (applyUpdate h r q ecc s).tOffset = s.tOffset ∧ (applyUpdate h r q ecc s).boot = s.boot ∧ (applyUpdate h r q ecc s).glint = s.glint ∧ (applyUpdate h r q ecc s).tx = s.tx ∧ (applyUpdate h r q ecc s).link = s.link ∧ (applyUpdate h r q ecc s).tb = s.tb ∧ (applyUpdate h r q ecc s).now = s.now := by
  generalize hr : applyUpdate h r q ecc s = r
  simp only [applyUpdate] at hr
  repeat' split at hr
  all_goals (subst hr; simp)
theorem execInkwellUpdate_frame (t : Tick) (engine : Fin 256) (ecc : List Ecc) (s : State) {t_ : State} (h : execInkwellUpdate t engine ecc s = .next t_) :
    t_.pending = s.pending ∧ t_.audio = s.audio ∧ t_.lbox = s.lbox ∧ t_.pins = s.pins ∧ t_.tOffset = (s.advance t).tOffset ∧ t_.boot = s.boot ∧ t_.glint = s.glint ∧ t_.tx = s.tx ∧ t_.link = s.link ∧ t_.tb = (s.advance t).tb ∧ t_.now = (s.advance t).now := by
  simp only [execInkwellUpdate] at h
  repeat' split at h
  all_goals (cases h; simp)
theorem execSpillGrant_frame (t : Tick) (s : State) {t_ : State} (h : execSpillGrant t s = .next t_) :
    t_.pending = s.pending ∧ t_.audio = s.audio ∧ t_.lbox = s.lbox ∧ t_.pins = s.pins ∧ t_.tOffset = (s.advance t).tOffset ∧ t_.boot = s.boot ∧ t_.hbm = s.hbm ∧ t_.glint = s.glint ∧ t_.tx = s.tx ∧ t_.link = s.link ∧ t_.free = s.free ∧ t_.tb = (s.advance t).tb ∧ t_.now = (s.advance t).now := by
  simp only [execSpillGrant] at h
  repeat' split at h
  all_goals (cases h; simp)
theorem execSegmentReadoutDone_frame (t : Tick) (pool : ℕ) (firstJob : ℕ) (bank : ℕ) (ecc : List Ecc) (s : State) {t_ : State} (h : execSegmentReadoutDone t pool firstJob bank ecc s = .next t_) :
    t_.pending = s.pending ∧ t_.audio = s.audio ∧ t_.lbox = s.lbox ∧ t_.pins = s.pins ∧ t_.tOffset = (s.advance t).tOffset ∧ t_.boot = s.boot ∧ t_.glint = s.glint ∧ t_.tx = s.tx ∧ t_.link = s.link ∧ t_.tb = (s.advance t).tb ∧ t_.now = (s.advance t).now := by
  simp only [execSegmentReadoutDone] at h
  repeat' split at h
  all_goals (cases h; simp)
@[simp] theorem dropReadout_frame (o : Readout) (s : State) :
    (dropReadout o s).pending = s.pending ∧ (dropReadout o s).audio = s.audio ∧ (dropReadout o s).lbox = s.lbox ∧ (dropReadout o s).pins = s.pins ∧ (dropReadout o s).tOffset = s.tOffset ∧ (dropReadout o s).boot = s.boot ∧ (dropReadout o s).chan = s.chan ∧ (dropReadout o s).hbm = s.hbm ∧ (dropReadout o s).glint = s.glint ∧ (dropReadout o s).cond = s.cond ∧ (dropReadout o s).tx = s.tx ∧ (dropReadout o s).link = s.link ∧ (dropReadout o s).twin = s.twin ∧ (dropReadout o s).mgmt = s.mgmt ∧ (dropReadout o s).host = s.host ∧ (dropReadout o s).out = s.out ∧ (dropReadout o s).free = s.free ∧ (dropReadout o s).tb = s.tb ∧ (dropReadout o s).now = s.now := by
  simp [dropReadout]
theorem execDumpRecord_frame (t : Tick) (s : State) {t_ : State} (h : execDumpRecord t s = .next t_) :
    t_.pending = s.pending ∧ t_.audio = s.audio ∧ t_.lbox = s.lbox ∧ t_.pins = s.pins ∧ t_.tOffset = (s.advance t).tOffset ∧ t_.boot = s.boot ∧ t_.glint = s.glint ∧ t_.tx = s.tx ∧ t_.link = s.link ∧ t_.out = s.out ∧ t_.tb = (s.advance t).tb ∧ t_.now = (s.advance t).now := by
  simp only [execDumpRecord] at h
  repeat' split at h
  all_goals (cases h; simp)
@[simp] theorem runBeamSetLoad_frame (d : Desc) (data : Bytes) (s : State) :
    (runBeamSetLoad d data s).pending = s.pending ∧ (runBeamSetLoad d data s).audio = s.audio ∧ (runBeamSetLoad d data s).lbox = s.lbox ∧ (runBeamSetLoad d data s).pins = s.pins ∧ (runBeamSetLoad d data s).tOffset = s.tOffset ∧ (runBeamSetLoad d data s).boot = s.boot ∧ (runBeamSetLoad d data s).chan = s.chan ∧ (runBeamSetLoad d data s).hbm = s.hbm ∧ (runBeamSetLoad d data s).glint = s.glint ∧ (runBeamSetLoad d data s).cond = s.cond ∧ (runBeamSetLoad d data s).tx = s.tx ∧ (runBeamSetLoad d data s).link = s.link ∧ (runBeamSetLoad d data s).tb = s.tb ∧ (runBeamSetLoad d data s).now = s.now := by
  generalize hr : runBeamSetLoad d data s = r
  simp only [runBeamSetLoad] at hr
  repeat' split at hr
  all_goals (subst hr; simp)
theorem execBeamSetLoad_frame (t : Tick) (d : Desc) (data : Bytes) (s : State) {t_ : State} (h : execBeamSetLoad t d data s = .next t_) :
    t_.pending = s.pending ∧ t_.audio = s.audio ∧ t_.lbox = s.lbox ∧ t_.pins = s.pins ∧ t_.tOffset = (s.advance t).tOffset ∧ t_.boot = s.boot ∧ t_.chan = s.chan ∧ t_.hbm = s.hbm ∧ t_.glint = s.glint ∧ t_.cond = s.cond ∧ t_.tx = s.tx ∧ t_.link = s.link ∧ t_.tb = (s.advance t).tb ∧ t_.now = (s.advance t).now := by
  simp only [execBeamSetLoad, Host.Outcome.next.injEq] at h
  subst h
  simp
@[simp] theorem runTaperTableLoad_frame (d : Desc) (data : Bytes) (s : State) :
    (runTaperTableLoad d data s).pending = s.pending ∧ (runTaperTableLoad d data s).audio = s.audio ∧ (runTaperTableLoad d data s).lbox = s.lbox ∧ (runTaperTableLoad d data s).pins = s.pins ∧ (runTaperTableLoad d data s).tOffset = s.tOffset ∧ (runTaperTableLoad d data s).boot = s.boot ∧ (runTaperTableLoad d data s).chan = s.chan ∧ (runTaperTableLoad d data s).hbm = s.hbm ∧ (runTaperTableLoad d data s).glint = s.glint ∧ (runTaperTableLoad d data s).cond = s.cond ∧ (runTaperTableLoad d data s).tx = s.tx ∧ (runTaperTableLoad d data s).link = s.link ∧ (runTaperTableLoad d data s).tb = s.tb ∧ (runTaperTableLoad d data s).now = s.now := by
  generalize hr : runTaperTableLoad d data s = r
  simp only [runTaperTableLoad] at hr
  repeat' split at hr
  all_goals (subst hr; simp)
theorem execTaperTableLoad_frame (t : Tick) (d : Desc) (data : Bytes) (s : State) {t_ : State} (h : execTaperTableLoad t d data s = .next t_) :
    t_.pending = s.pending ∧ t_.audio = s.audio ∧ t_.lbox = s.lbox ∧ t_.pins = s.pins ∧ t_.tOffset = (s.advance t).tOffset ∧ t_.boot = s.boot ∧ t_.chan = s.chan ∧ t_.hbm = s.hbm ∧ t_.glint = s.glint ∧ t_.cond = s.cond ∧ t_.tx = s.tx ∧ t_.link = s.link ∧ t_.tb = (s.advance t).tb ∧ t_.now = (s.advance t).now := by
  simp only [execTaperTableLoad, Host.Outcome.next.injEq] at h
  subst h
  simp
@[simp] theorem runWeightTableLoad_frame (d : Desc) (data : Bytes) (s : State) :
    (runWeightTableLoad d data s).pending = s.pending ∧ (runWeightTableLoad d data s).audio = s.audio ∧ (runWeightTableLoad d data s).lbox = s.lbox ∧ (runWeightTableLoad d data s).pins = s.pins ∧ (runWeightTableLoad d data s).tOffset = s.tOffset ∧ (runWeightTableLoad d data s).boot = s.boot ∧ (runWeightTableLoad d data s).chan = s.chan ∧ (runWeightTableLoad d data s).glint = s.glint ∧ (runWeightTableLoad d data s).cond = s.cond ∧ (runWeightTableLoad d data s).tx = s.tx ∧ (runWeightTableLoad d data s).link = s.link ∧ (runWeightTableLoad d data s).tb = s.tb ∧ (runWeightTableLoad d data s).now = s.now := by
  generalize hr : runWeightTableLoad d data s = r
  simp only [runWeightTableLoad] at hr
  repeat' split at hr
  all_goals (subst hr; simp)
theorem execWeightTableLoad_frame (t : Tick) (d : Desc) (data : Bytes) (s : State) {t_ : State} (h : execWeightTableLoad t d data s = .next t_) :
    t_.pending = s.pending ∧ t_.audio = s.audio ∧ t_.lbox = s.lbox ∧ t_.pins = s.pins ∧ t_.tOffset = (s.advance t).tOffset ∧ t_.boot = s.boot ∧ t_.chan = s.chan ∧ t_.glint = s.glint ∧ t_.cond = s.cond ∧ t_.tx = s.tx ∧ t_.link = s.link ∧ t_.tb = (s.advance t).tb ∧ t_.now = (s.advance t).now := by
  simp only [execWeightTableLoad, Host.Outcome.next.injEq] at h
  subst h
  simp
@[simp] theorem runBeamSetSwitch_frame (d : Desc) (x1 : Bytes) (s : State) :
    (runBeamSetSwitch d x1 s).pending = s.pending ∧ (runBeamSetSwitch d x1 s).audio = s.audio ∧ (runBeamSetSwitch d x1 s).lbox = s.lbox ∧ (runBeamSetSwitch d x1 s).pins = s.pins ∧ (runBeamSetSwitch d x1 s).tOffset = s.tOffset ∧ (runBeamSetSwitch d x1 s).boot = s.boot ∧ (runBeamSetSwitch d x1 s).chan = s.chan ∧ (runBeamSetSwitch d x1 s).hbm = s.hbm ∧ (runBeamSetSwitch d x1 s).glint = s.glint ∧ (runBeamSetSwitch d x1 s).cond = s.cond ∧ (runBeamSetSwitch d x1 s).tx = s.tx ∧ (runBeamSetSwitch d x1 s).link = s.link ∧ (runBeamSetSwitch d x1 s).tb = s.tb ∧ (runBeamSetSwitch d x1 s).now = s.now := by
  generalize hr : runBeamSetSwitch d x1 s = r
  simp only [runBeamSetSwitch] at hr
  repeat' split at hr
  all_goals (subst hr; simp)
theorem execBeamSetSwitch_frame (t : Tick) (d : Desc) (data : Bytes) (s : State) {t_ : State} (h : execBeamSetSwitch t d data s = .next t_) :
    t_.pending = s.pending ∧ t_.audio = s.audio ∧ t_.lbox = s.lbox ∧ t_.pins = s.pins ∧ t_.tOffset = (s.advance t).tOffset ∧ t_.boot = s.boot ∧ t_.chan = s.chan ∧ t_.hbm = s.hbm ∧ t_.glint = s.glint ∧ t_.cond = s.cond ∧ t_.tx = s.tx ∧ t_.link = s.link ∧ t_.tb = (s.advance t).tb ∧ t_.now = (s.advance t).now := by
  simp only [execBeamSetSwitch, Host.Outcome.next.injEq] at h
  subst h
  simp
@[simp] theorem decideEpochs_frame (gen : ℕ) (k : ℕ) (q : Pool) (a : ℕ) (a4 : ℕ) (a5 : State) :
    (decideEpochs gen k q a a4 a5).pending = a5.pending ∧ (decideEpochs gen k q a a4 a5).audio = a5.audio ∧ (decideEpochs gen k q a a4 a5).lbox = a5.lbox ∧ (decideEpochs gen k q a a4 a5).pins = a5.pins ∧ (decideEpochs gen k q a a4 a5).tOffset = a5.tOffset ∧ (decideEpochs gen k q a a4 a5).boot = a5.boot ∧ (decideEpochs gen k q a a4 a5).chan = a5.chan ∧ (decideEpochs gen k q a a4 a5).hbm = a5.hbm ∧ (decideEpochs gen k q a a4 a5).glint = a5.glint ∧ (decideEpochs gen k q a a4 a5).cond = a5.cond ∧ (decideEpochs gen k q a a4 a5).tx = a5.tx ∧ (decideEpochs gen k q a a4 a5).link = a5.link ∧ (decideEpochs gen k q a a4 a5).twin = a5.twin ∧ (decideEpochs gen k q a a4 a5).mgmt = a5.mgmt ∧ (decideEpochs gen k q a a4 a5).host = a5.host ∧ (decideEpochs gen k q a a4 a5).out = a5.out ∧ (decideEpochs gen k q a a4 a5).tb = a5.tb ∧ (decideEpochs gen k q a a4 a5).now = a5.now := by
  induction a generalizing a4 a5 with
  | zero => simp [decideEpochs]
  | succ n ih =>
    generalize hr : decideEpochs gen k q (n + 1) a4 a5 = r
    simp only [decideEpochs] at hr
    repeat' split at hr
    all_goals (subst hr; simp [ih])
    all_goals (split <;> simp)
@[simp] theorem takeBeam_frame (h : Handoff) (r : SchedRun) (q : Pool) (p : Plan) (s : State) :
    (takeBeam h r q p s).pending = s.pending ∧ (takeBeam h r q p s).audio = s.audio ∧ (takeBeam h r q p s).lbox = s.lbox ∧ (takeBeam h r q p s).pins = s.pins ∧ (takeBeam h r q p s).tOffset = s.tOffset ∧ (takeBeam h r q p s).boot = s.boot ∧ (takeBeam h r q p s).chan = s.chan ∧ (takeBeam h r q p s).hbm = s.hbm ∧ (takeBeam h r q p s).glint = s.glint ∧ (takeBeam h r q p s).cond = s.cond ∧ (takeBeam h r q p s).tx = s.tx ∧ (takeBeam h r q p s).link = s.link ∧ (takeBeam h r q p s).host = s.host ∧ (takeBeam h r q p s).out = s.out ∧ (takeBeam h r q p s).free = s.free ∧ (takeBeam h r q p s).tb = s.tb ∧ (takeBeam h r q p s).now = s.now := by
  simp [takeBeam]
theorem execBeamOutput_frame (t : Tick) (pool : ℕ) (k : ℕ) (block : ℕ) (s : State) {t_ : State} (h : execBeamOutput t pool k block s = .next t_) :
    t_.pending = s.pending ∧ t_.audio = s.audio ∧ t_.lbox = s.lbox ∧ t_.pins = s.pins ∧ t_.tOffset = (s.advance t).tOffset ∧ t_.boot = s.boot ∧ t_.chan = s.chan ∧ t_.hbm = s.hbm ∧ t_.glint = s.glint ∧ t_.cond = s.cond ∧ t_.tx = s.tx ∧ t_.link = s.link ∧ t_.twin = s.twin ∧ t_.mgmt = s.mgmt ∧ t_.host = s.host ∧ t_.out = s.out ∧ t_.free = s.free ∧ t_.tb = (s.advance t).tb ∧ t_.now = (s.advance t).now := by
  simp only [execBeamOutput] at h
  repeat' split at h
  all_goals (cases h; simp)
@[simp] theorem passMap_frame (k : ℕ) (q : Pool) (stamp : ℕ) (missing : Bool) (vals : List ℕ) (s : State) :
    (passMap k q stamp missing vals s).pending = s.pending ∧ (passMap k q stamp missing vals s).audio = s.audio ∧ (passMap k q stamp missing vals s).pins = s.pins ∧ (passMap k q stamp missing vals s).tOffset = s.tOffset ∧ (passMap k q stamp missing vals s).boot = s.boot ∧ (passMap k q stamp missing vals s).chan = s.chan ∧ (passMap k q stamp missing vals s).glint = s.glint ∧ (passMap k q stamp missing vals s).cond = s.cond ∧ (passMap k q stamp missing vals s).tx = s.tx ∧ (passMap k q stamp missing vals s).corr = s.corr ∧ (passMap k q stamp missing vals s).link = s.link ∧ (passMap k q stamp missing vals s).twin = s.twin ∧ (passMap k q stamp missing vals s).host = s.host ∧ (passMap k q stamp missing vals s).out = s.out ∧ (passMap k q stamp missing vals s).tb = s.tb ∧ (passMap k q stamp missing vals s).now = s.now := by
  generalize hr : passMap k q stamp missing vals s = r
  simp only [passMap] at hr
  repeat' split at hr
  all_goals (subst hr; simp)
@[simp] theorem emitStroke_frame (r : SchedRun) (k : ℕ) (q : Pool) (p : Plan) (i : ℕ) (bs : List (ℕ × ℕ × BeamOut)) (s : State) :
    (emitStroke r k q p i bs s).pending = s.pending ∧ (emitStroke r k q p i bs s).audio = s.audio ∧ (emitStroke r k q p i bs s).pins = s.pins ∧ (emitStroke r k q p i bs s).tOffset = s.tOffset ∧ (emitStroke r k q p i bs s).boot = s.boot ∧ (emitStroke r k q p i bs s).chan = s.chan ∧ (emitStroke r k q p i bs s).glint = s.glint ∧ (emitStroke r k q p i bs s).cond = s.cond ∧ (emitStroke r k q p i bs s).tx = s.tx ∧ (emitStroke r k q p i bs s).corr = s.corr ∧ (emitStroke r k q p i bs s).link = s.link ∧ (emitStroke r k q p i bs s).out = s.out ∧ (emitStroke r k q p i bs s).tb = s.tb ∧ (emitStroke r k q p i bs s).now = s.now := by
  generalize hr : emitStroke r k q p i bs s = r
  simp only [emitStroke] at hr
  repeat' split at hr
  all_goals (subst hr; simp)
@[simp] theorem trimGeom_frame (s : State) :
    (trimGeom s).pending = s.pending ∧ (trimGeom s).audio = s.audio ∧ (trimGeom s).lbox = s.lbox ∧ (trimGeom s).pins = s.pins ∧ (trimGeom s).tOffset = s.tOffset ∧ (trimGeom s).boot = s.boot ∧ (trimGeom s).chan = s.chan ∧ (trimGeom s).hbm = s.hbm ∧ (trimGeom s).glint = s.glint ∧ (trimGeom s).cond = s.cond ∧ (trimGeom s).tx = s.tx ∧ (trimGeom s).link = s.link ∧ (trimGeom s).twin = s.twin ∧ (trimGeom s).mgmt = s.mgmt ∧ (trimGeom s).host = s.host ∧ (trimGeom s).out = s.out ∧ (trimGeom s).free = s.free ∧ (trimGeom s).tb = s.tb ∧ (trimGeom s).now = s.now := by
  simp [trimGeom]
@[simp] theorem noteSkip_frame (c : Cand) (s : State) :
    (noteSkip c s).pending = s.pending ∧ (noteSkip c s).audio = s.audio ∧ (noteSkip c s).lbox = s.lbox ∧ (noteSkip c s).pins = s.pins ∧ (noteSkip c s).tOffset = s.tOffset ∧ (noteSkip c s).boot = s.boot ∧ (noteSkip c s).chan = s.chan ∧ (noteSkip c s).hbm = s.hbm ∧ (noteSkip c s).glint = s.glint ∧ (noteSkip c s).cond = s.cond ∧ (noteSkip c s).tx = s.tx ∧ (noteSkip c s).link = s.link ∧ (noteSkip c s).twin = s.twin ∧ (noteSkip c s).mgmt = s.mgmt ∧ (noteSkip c s).host = s.host ∧ (noteSkip c s).out = s.out ∧ (noteSkip c s).free = s.free ∧ (noteSkip c s).tb = s.tb ∧ (noteSkip c s).now = s.now := by
  simp [noteSkip]
@[simp] theorem skipShed_frame (e : ℕ) (a : ℕ) (a2 : State) :
    (skipShed e a a2).pending = a2.pending ∧ (skipShed e a a2).audio = a2.audio ∧ (skipShed e a a2).lbox = a2.lbox ∧ (skipShed e a a2).pins = a2.pins ∧ (skipShed e a a2).tOffset = a2.tOffset ∧ (skipShed e a a2).boot = a2.boot ∧ (skipShed e a a2).chan = a2.chan ∧ (skipShed e a a2).hbm = a2.hbm ∧ (skipShed e a a2).glint = a2.glint ∧ (skipShed e a a2).cond = a2.cond ∧ (skipShed e a a2).tx = a2.tx ∧ (skipShed e a a2).link = a2.link ∧ (skipShed e a a2).out = a2.out ∧ (skipShed e a a2).free = a2.free ∧ (skipShed e a a2).tb = a2.tb ∧ (skipShed e a a2).now = a2.now := by
  induction a generalizing a2 with
  | zero => simp [skipShed]
  | succ n ih =>
    generalize hr : skipShed e (n + 1) a2 = r
    simp only [skipShed] at hr
    repeat' (first | split at hr)
    all_goals (subst hr; simp [ih])
@[simp] theorem skipSlots_frame (e : ℕ) (s : State) :
    (skipSlots e s).pending = s.pending ∧ (skipSlots e s).audio = s.audio ∧ (skipSlots e s).lbox = s.lbox ∧ (skipSlots e s).pins = s.pins ∧ (skipSlots e s).tOffset = s.tOffset ∧ (skipSlots e s).boot = s.boot ∧ (skipSlots e s).hbm = s.hbm ∧ (skipSlots e s).glint = s.glint ∧ (skipSlots e s).tx = s.tx ∧ (skipSlots e s).link = s.link ∧ (skipSlots e s).out = s.out ∧ (skipSlots e s).free = s.free ∧ (skipSlots e s).tb = s.tb ∧ (skipSlots e s).now = s.now := by
  generalize hr : skipSlots e s = r
  simp only [skipSlots] at hr
  repeat' split at hr
  all_goals (subst hr; simp)
@[simp] theorem loseSample_frame (q : Pool) (p : Plan) (j : ℕ) (i : ℕ) (x : ℕ × ℕ) (s : State) :
    (loseSample q p j i x s).pending = s.pending ∧ (loseSample q p j i x s).audio = s.audio ∧ (loseSample q p j i x s).lbox = s.lbox ∧ (loseSample q p j i x s).pins = s.pins ∧ (loseSample q p j i x s).tOffset = s.tOffset ∧ (loseSample q p j i x s).boot = s.boot ∧ (loseSample q p j i x s).hbm = s.hbm ∧ (loseSample q p j i x s).glint = s.glint ∧ (loseSample q p j i x s).tx = s.tx ∧ (loseSample q p j i x s).corr = s.corr ∧ (loseSample q p j i x s).link = s.link ∧ (loseSample q p j i x s).twin = s.twin ∧ (loseSample q p j i x s).mgmt = s.mgmt ∧ (loseSample q p j i x s).host = s.host ∧ (loseSample q p j i x s).out = s.out ∧ (loseSample q p j i x s).free = s.free ∧ (loseSample q p j i x s).tb = s.tb ∧ (loseSample q p j i x s).now = s.now := by
  generalize hr : loseSample q p j i x s = r
  simp only [loseSample] at hr
  repeat' split at hr
  all_goals (subst hr; simp)
@[simp] theorem jobEcc_frame (table : Bool) (words : ℕ) (l : List Ecc) (s : State) :
    (jobEcc table words l s).pending = s.pending ∧ (jobEcc table words l s).audio = s.audio ∧ (jobEcc table words l s).lbox = s.lbox ∧ (jobEcc table words l s).pins = s.pins ∧ (jobEcc table words l s).tOffset = s.tOffset ∧ (jobEcc table words l s).boot = s.boot ∧ (jobEcc table words l s).chan = s.chan ∧ (jobEcc table words l s).glint = s.glint ∧ (jobEcc table words l s).cond = s.cond ∧ (jobEcc table words l s).tx = s.tx ∧ (jobEcc table words l s).corr = s.corr ∧ (jobEcc table words l s).link = s.link ∧ (jobEcc table words l s).tb = s.tb ∧ (jobEcc table words l s).now = s.now := by
  generalize hr : jobEcc table words l s = r
  simp only [jobEcc] at hr
  repeat' split at hr
  all_goals (subst hr; simp)
@[simp] theorem startSlot_frame (e : ℕ) (c : Cand) (q : Pool) (p : Plan) (ecc : List Ecc) (s : State) :
    (startSlot e c q p ecc s).pending = s.pending ∧ (startSlot e c q p ecc s).audio = s.audio ∧ (startSlot e c q p ecc s).lbox = s.lbox ∧ (startSlot e c q p ecc s).pins = s.pins ∧ (startSlot e c q p ecc s).tOffset = s.tOffset ∧ (startSlot e c q p ecc s).boot = s.boot ∧ (startSlot e c q p ecc s).glint = s.glint ∧ (startSlot e c q p ecc s).tx = s.tx ∧ (startSlot e c q p ecc s).link = s.link ∧ (startSlot e c q p ecc s).tb = s.tb ∧ (startSlot e c q p ecc s).now = s.now := by
  generalize hr : startSlot e c q p ecc s = r
  simp only [startSlot] at hr
  repeat' split at hr
  all_goals (subst hr; simp)
theorem execEngineSlotStart_frame (t : Tick) (engine : Fin 256) (ecc : List Ecc) (s : State) {t_ : State} (h : execEngineSlotStart t engine ecc s = .next t_) :
    t_.pending = s.pending ∧ t_.audio = s.audio ∧ t_.lbox = s.lbox ∧ t_.pins = s.pins ∧ t_.tOffset = (s.advance t).tOffset ∧ t_.boot = s.boot ∧ t_.glint = s.glint ∧ t_.tx = s.tx ∧ t_.link = s.link ∧ t_.tb = (s.advance t).tb ∧ t_.now = (s.advance t).now := by
  simp only [execEngineSlotStart] at h
  repeat' split at h
  all_goals (cases h; simp)
@[simp] theorem rewind_frame (e : ℕ) (s : State) :
    (rewind e s).pending = s.pending ∧ (rewind e s).audio = s.audio ∧ (rewind e s).lbox = s.lbox ∧ (rewind e s).pins = s.pins ∧ (rewind e s).tOffset = s.tOffset ∧ (rewind e s).boot = s.boot ∧ (rewind e s).chan = s.chan ∧ (rewind e s).hbm = s.hbm ∧ (rewind e s).glint = s.glint ∧ (rewind e s).cond = s.cond ∧ (rewind e s).tx = s.tx ∧ (rewind e s).link = s.link ∧ (rewind e s).twin = s.twin ∧ (rewind e s).mgmt = s.mgmt ∧ (rewind e s).host = s.host ∧ (rewind e s).out = s.out ∧ (rewind e s).free = s.free ∧ (rewind e s).tb = s.tb ∧ (rewind e s).now = s.now := by
  simp [rewind]
@[simp] theorem spareIn_frame (gen : ℕ) (e : ℕ) (w : ℕ) (s : State) :
    (spareIn gen e w s).pending = s.pending ∧ (spareIn gen e w s).audio = s.audio ∧ (spareIn gen e w s).lbox = s.lbox ∧ (spareIn gen e w s).pins = s.pins ∧ (spareIn gen e w s).tOffset = s.tOffset ∧ (spareIn gen e w s).boot = s.boot ∧ (spareIn gen e w s).chan = s.chan ∧ (spareIn gen e w s).hbm = s.hbm ∧ (spareIn gen e w s).glint = s.glint ∧ (spareIn gen e w s).cond = s.cond ∧ (spareIn gen e w s).tx = s.tx ∧ (spareIn gen e w s).link = s.link ∧ (spareIn gen e w s).twin = s.twin ∧ (spareIn gen e w s).free = s.free ∧ (spareIn gen e w s).tb = s.tb ∧ (spareIn gen e w s).now = s.now := by
  simp [spareIn]
@[simp] theorem shedEvent_frame (x : ShedEntry) (cause : ℕ) (subject : ℕ) (s : State) :
    (shedEvent x cause subject s).pending = s.pending ∧ (shedEvent x cause subject s).audio = s.audio ∧ (shedEvent x cause subject s).lbox = s.lbox ∧ (shedEvent x cause subject s).pins = s.pins ∧ (shedEvent x cause subject s).tOffset = s.tOffset ∧ (shedEvent x cause subject s).boot = s.boot ∧ (shedEvent x cause subject s).chan = s.chan ∧ (shedEvent x cause subject s).hbm = s.hbm ∧ (shedEvent x cause subject s).glint = s.glint ∧ (shedEvent x cause subject s).cond = s.cond ∧ (shedEvent x cause subject s).tx = s.tx ∧ (shedEvent x cause subject s).corr = s.corr ∧ (shedEvent x cause subject s).link = s.link ∧ (shedEvent x cause subject s).twin = s.twin ∧ (shedEvent x cause subject s).free = s.free ∧ (shedEvent x cause subject s).tb = s.tb ∧ (shedEvent x cause subject s).now = s.now := by
  simp [shedEvent]
@[simp] theorem shedEntry_frame (gen : ℕ) (n : ℕ) (cause : ℕ) (subject : ℕ) (lo : ℕ) (s : State) :
    (shedEntry gen n cause subject lo s).pending = s.pending ∧ (shedEntry gen n cause subject lo s).audio = s.audio ∧ (shedEntry gen n cause subject lo s).lbox = s.lbox ∧ (shedEntry gen n cause subject lo s).pins = s.pins ∧ (shedEntry gen n cause subject lo s).tOffset = s.tOffset ∧ (shedEntry gen n cause subject lo s).boot = s.boot ∧ (shedEntry gen n cause subject lo s).chan = s.chan ∧ (shedEntry gen n cause subject lo s).hbm = s.hbm ∧ (shedEntry gen n cause subject lo s).glint = s.glint ∧ (shedEntry gen n cause subject lo s).cond = s.cond ∧ (shedEntry gen n cause subject lo s).tx = s.tx ∧ (shedEntry gen n cause subject lo s).link = s.link ∧ (shedEntry gen n cause subject lo s).twin = s.twin ∧ (shedEntry gen n cause subject lo s).free = s.free ∧ (shedEntry gen n cause subject lo s).tb = s.tb ∧ (shedEntry gen n cause subject lo s).now = s.now := by
  generalize hr : shedEntry gen n cause subject lo s = r
  simp only [shedEntry] at hr
  repeat' split at hr
  all_goals (subst hr; simp)
@[simp] theorem fallBack_frame (gen : ℕ) (f : ℕ) (fb : Fallback) (s : State) :
    (fallBack gen f fb s).pending = s.pending ∧ (fallBack gen f fb s).audio = s.audio ∧ (fallBack gen f fb s).lbox = s.lbox ∧ (fallBack gen f fb s).pins = s.pins ∧ (fallBack gen f fb s).tOffset = s.tOffset ∧ (fallBack gen f fb s).boot = s.boot ∧ (fallBack gen f fb s).chan = s.chan ∧ (fallBack gen f fb s).hbm = s.hbm ∧ (fallBack gen f fb s).glint = s.glint ∧ (fallBack gen f fb s).cond = s.cond ∧ (fallBack gen f fb s).tx = s.tx ∧ (fallBack gen f fb s).link = s.link ∧ (fallBack gen f fb s).twin = s.twin ∧ (fallBack gen f fb s).free = s.free ∧ (fallBack gen f fb s).tb = s.tb ∧ (fallBack gen f fb s).now = s.now := by
  unfold fallBack
  split
  · simp
  · extract_lets
    refine ⟨(foldl_pending _ _ _ fun s a => ?_).trans ?_, (foldl_audio _ _ _ fun s a => ?_).trans ?_, (foldl_lbox _ _ _ fun s a => ?_).trans ?_, (foldl_pins _ _ _ fun s a => ?_).trans ?_, (foldl_tOffset _ _ _ fun s a => ?_).trans ?_, (foldl_boot _ _ _ fun s a => ?_).trans ?_, (foldl_chan _ _ _ fun s a => ?_).trans ?_, (foldl_hbm _ _ _ fun s a => ?_).trans ?_, (foldl_glint _ _ _ fun s a => ?_).trans ?_, (foldl_cond _ _ _ fun s a => ?_).trans ?_, (foldl_tx _ _ _ fun s a => ?_).trans ?_, (foldl_link _ _ _ fun s a => ?_).trans ?_, (foldl_twin _ _ _ fun s a => ?_).trans ?_, (foldl_free _ _ _ fun s a => ?_).trans ?_, (foldl_tb _ _ _ fun s a => ?_).trans ?_, (foldl_now _ _ _ fun s a => ?_).trans ?_⟩
    all_goals first | (simp +zetaDelta; done) | (split <;> simp)
@[simp] theorem noSpare_frame (gen : ℕ) (e : ℕ) (s : State) :
    (noSpare gen e s).pending = s.pending ∧ (noSpare gen e s).audio = s.audio ∧ (noSpare gen e s).lbox = s.lbox ∧ (noSpare gen e s).pins = s.pins ∧ (noSpare gen e s).tOffset = s.tOffset ∧ (noSpare gen e s).boot = s.boot ∧ (noSpare gen e s).chan = s.chan ∧ (noSpare gen e s).hbm = s.hbm ∧ (noSpare gen e s).glint = s.glint ∧ (noSpare gen e s).cond = s.cond ∧ (noSpare gen e s).tx = s.tx ∧ (noSpare gen e s).link = s.link ∧ (noSpare gen e s).twin = s.twin ∧ (noSpare gen e s).free = s.free ∧ (noSpare gen e s).tb = s.tb ∧ (noSpare gen e s).now = s.now := by
  generalize hr : noSpare gen e s = r
  simp only [noSpare] at hr
  repeat' split at hr
  all_goals (subst hr; simp)
@[simp] theorem replaceEngine_frame (gen : ℕ) (e : ℕ) (s : State) :
    (replaceEngine gen e s).pending = s.pending ∧ (replaceEngine gen e s).audio = s.audio ∧ (replaceEngine gen e s).lbox = s.lbox ∧ (replaceEngine gen e s).pins = s.pins ∧ (replaceEngine gen e s).tOffset = s.tOffset ∧ (replaceEngine gen e s).boot = s.boot ∧ (replaceEngine gen e s).chan = s.chan ∧ (replaceEngine gen e s).hbm = s.hbm ∧ (replaceEngine gen e s).glint = s.glint ∧ (replaceEngine gen e s).cond = s.cond ∧ (replaceEngine gen e s).tx = s.tx ∧ (replaceEngine gen e s).link = s.link ∧ (replaceEngine gen e s).twin = s.twin ∧ (replaceEngine gen e s).free = s.free ∧ (replaceEngine gen e s).tb = s.tb ∧ (replaceEngine gen e s).now = s.now := by
  generalize hr : replaceEngine gen e s = r
  simp only [replaceEngine] at hr
  repeat' split at hr
  all_goals (subst hr; simp)
@[simp] theorem endWork_frame (w : Work) (status : ℕ) (info : ℕ) (s : State) :
    (endWork w status info s).pending = s.pending ∧ (endWork w status info s).audio = s.audio ∧ (endWork w status info s).lbox = s.lbox ∧ (endWork w status info s).pins = s.pins ∧ (endWork w status info s).tOffset = s.tOffset ∧ (endWork w status info s).boot = s.boot ∧ (endWork w status info s).chan = s.chan ∧ (endWork w status info s).hbm = s.hbm ∧ (endWork w status info s).glint = s.glint ∧ (endWork w status info s).cond = s.cond ∧ (endWork w status info s).tx = s.tx ∧ (endWork w status info s).corr = s.corr ∧ (endWork w status info s).link = s.link ∧ (endWork w status info s).twin = s.twin ∧ (endWork w status info s).mgmt = s.mgmt ∧ (endWork w status info s).out = s.out ∧ (endWork w status info s).free = s.free ∧ (endWork w status info s).tb = s.tb ∧ (endWork w status info s).now = s.now := by
  simp [endWork]
@[simp] theorem markFailed_frame (e : ℕ) (cause : ℕ) (s : State) :
    (markFailed e cause s).pending = s.pending ∧ (markFailed e cause s).audio = s.audio ∧ (markFailed e cause s).lbox = s.lbox ∧ (markFailed e cause s).pins = s.pins ∧ (markFailed e cause s).tOffset = s.tOffset ∧ (markFailed e cause s).boot = s.boot ∧ (markFailed e cause s).hbm = s.hbm ∧ (markFailed e cause s).glint = s.glint ∧ (markFailed e cause s).tx = s.tx ∧ (markFailed e cause s).link = s.link ∧ (markFailed e cause s).free = s.free ∧ (markFailed e cause s).tb = s.tb ∧ (markFailed e cause s).now = s.now := by
  generalize hr : markFailed e cause s = r
  simp only [markFailed] at hr
  repeat' split at hr
  all_goals (subst hr; simp)
@[simp] theorem fenceEngine_frame (e : ℕ) (cause : ℕ) (s : State) :
    (fenceEngine e cause s).pending = s.pending ∧ (fenceEngine e cause s).audio = s.audio ∧ (fenceEngine e cause s).lbox = s.lbox ∧ (fenceEngine e cause s).pins = s.pins ∧ (fenceEngine e cause s).tOffset = s.tOffset ∧ (fenceEngine e cause s).boot = s.boot ∧ (fenceEngine e cause s).hbm = s.hbm ∧ (fenceEngine e cause s).glint = s.glint ∧ (fenceEngine e cause s).tx = s.tx ∧ (fenceEngine e cause s).link = s.link ∧ (fenceEngine e cause s).free = s.free ∧ (fenceEngine e cause s).tb = s.tb ∧ (fenceEngine e cause s).now = s.now := by
  generalize hr : fenceEngine e cause s = r
  simp only [fenceEngine] at hr
  repeat' split at hr
  all_goals (subst hr; simp)
theorem execEngineStallTimeout_frame (t : Tick) (engine : Fin 256) (s : State) {t_ : State} (h : execEngineStallTimeout t engine s = .next t_) :
    t_.pending = s.pending ∧ t_.audio = s.audio ∧ t_.lbox = s.lbox ∧ t_.pins = s.pins ∧ t_.tOffset = (s.advance t).tOffset ∧ t_.boot = s.boot ∧ t_.hbm = s.hbm ∧ t_.glint = s.glint ∧ t_.tx = s.tx ∧ t_.link = s.link ∧ t_.free = s.free ∧ t_.tb = (s.advance t).tb ∧ t_.now = (s.advance t).now := by
  unfold execEngineStallTimeout at h
  extract_lets at h
  split at h
  · (have h' := Host.Outcome.next.inj h; rw [← h']; clear h h')
    simp +zetaDelta
  · extract_lets at h
    split at h <;> (have h' := Host.Outcome.next.inj h; rw [← h']; clear h h') <;> simp +zetaDelta
theorem execEngineBufferError_frame (t : Tick) (engine : Fin 256) (s : State) {t_ : State} (h : execEngineBufferError t engine s = .next t_) :
    t_.pending = s.pending ∧ t_.audio = s.audio ∧ t_.lbox = s.lbox ∧ t_.pins = s.pins ∧ t_.tOffset = (s.advance t).tOffset ∧ t_.boot = s.boot ∧ t_.hbm = s.hbm ∧ t_.glint = s.glint ∧ t_.tx = s.tx ∧ t_.link = s.link ∧ t_.free = s.free ∧ t_.tb = (s.advance t).tb ∧ t_.now = (s.advance t).now := by
  simp only [execEngineBufferError, Host.Outcome.next.injEq] at h
  subst h
  simp
theorem execFenceCheckDone_frame (t : Tick) (engine : Fin 256) (reloaded : Bool) (passed : Bool) (s : State) {t_ : State} (h : execFenceCheckDone t engine reloaded passed s = .next t_) :
    t_.pending = s.pending ∧ t_.audio = s.audio ∧ t_.lbox = s.lbox ∧ t_.pins = s.pins ∧ t_.tOffset = (s.advance t).tOffset ∧ t_.boot = s.boot ∧ t_.hbm = s.hbm ∧ t_.glint = s.glint ∧ t_.tx = s.tx ∧ t_.link = s.link ∧ t_.free = s.free ∧ t_.tb = (s.advance t).tb ∧ t_.now = (s.advance t).now := by
  simp only [execFenceCheckDone] at h
  repeat' split at h
  all_goals (cases h; simp)
theorem execEngineHandoff_frame (t : Tick) (engine : Fin 256) (carried : BitVec 32) (s : State) {t_ : State} (h : execEngineHandoff t engine carried s = .next t_) :
    t_.pending = s.pending ∧ t_.audio = s.audio ∧ t_.lbox = s.lbox ∧ t_.pins = s.pins ∧ t_.tOffset = (s.advance t).tOffset ∧ t_.boot = s.boot ∧ t_.hbm = s.hbm ∧ t_.glint = s.glint ∧ t_.tx = s.tx ∧ t_.link = s.link ∧ t_.free = s.free ∧ t_.tb = (s.advance t).tb ∧ t_.now = (s.advance t).now := by
  simp only [execEngineHandoff] at h
  repeat' split at h
  all_goals (cases h; simp)
theorem execSlotUnserved_frame (t : Tick) (engine : Fin 256) (s : State) {t_ : State} (h : execSlotUnserved t engine s = .next t_) :
    t_.pending = s.pending ∧ t_.audio = s.audio ∧ t_.lbox = s.lbox ∧ t_.pins = s.pins ∧ t_.tOffset = (s.advance t).tOffset ∧ t_.boot = s.boot ∧ t_.hbm = s.hbm ∧ t_.glint = s.glint ∧ t_.tx = s.tx ∧ t_.link = s.link ∧ t_.out = s.out ∧ t_.free = s.free ∧ t_.tb = (s.advance t).tb ∧ t_.now = (s.advance t).now := by
  simp only [execSlotUnserved] at h
  repeat' split at h
  all_goals (cases h; simp)
@[simp] theorem declareUncovered_frame (plan : ℕ) (j : ℕ) (i : ℕ) (s : State) :
    (declareUncovered plan j i s).pending = s.pending ∧ (declareUncovered plan j i s).audio = s.audio ∧ (declareUncovered plan j i s).lbox = s.lbox ∧ (declareUncovered plan j i s).pins = s.pins ∧ (declareUncovered plan j i s).tOffset = s.tOffset ∧ (declareUncovered plan j i s).boot = s.boot ∧ (declareUncovered plan j i s).chan = s.chan ∧ (declareUncovered plan j i s).hbm = s.hbm ∧ (declareUncovered plan j i s).glint = s.glint ∧ (declareUncovered plan j i s).cond = s.cond ∧ (declareUncovered plan j i s).tx = s.tx ∧ (declareUncovered plan j i s).link = s.link ∧ (declareUncovered plan j i s).mgmt = s.mgmt ∧ (declareUncovered plan j i s).out = s.out ∧ (declareUncovered plan j i s).free = s.free ∧ (declareUncovered plan j i s).tb = s.tb ∧ (declareUncovered plan j i s).now = s.now := by
  unfold declareUncovered
  refine ⟨foldl_pending _ _ _ fun s a => ?_, foldl_audio _ _ _ fun s a => ?_, foldl_lbox _ _ _ fun s a => ?_, foldl_pins _ _ _ fun s a => ?_, foldl_tOffset _ _ _ fun s a => ?_, foldl_boot _ _ _ fun s a => ?_, foldl_chan _ _ _ fun s a => ?_, foldl_hbm _ _ _ fun s a => ?_, foldl_glint _ _ _ fun s a => ?_, foldl_cond _ _ _ fun s a => ?_, foldl_tx _ _ _ fun s a => ?_, foldl_link _ _ _ fun s a => ?_, foldl_mgmt _ _ _ fun s a => ?_, foldl_out _ _ _ fun s a => ?_, foldl_free _ _ _ fun s a => ?_, foldl_tb _ _ _ fun s a => ?_, foldl_now _ _ _ fun s a => ?_⟩
  all_goals (try dsimp only)
  all_goals first
    | (apply foldl_pending
       intros
       split
       · apply foldl_pending
         intros
         split
         all_goals simp
       · rfl
       done)
    | (apply foldl_audio
       intros
       split
       · apply foldl_audio
         intros
         split
         all_goals simp
       · rfl
       done)
    | (apply foldl_lbox
       intros
       split
       · apply foldl_lbox
         intros
         split
         all_goals simp
       · rfl
       done)
    | (apply foldl_pins
       intros
       split
       · apply foldl_pins
         intros
         split
         all_goals simp
       · rfl
       done)
    | (apply foldl_tOffset
       intros
       split
       · apply foldl_tOffset
         intros
         split
         all_goals simp
       · rfl
       done)
    | (apply foldl_boot
       intros
       split
       · apply foldl_boot
         intros
         split
         all_goals simp
       · rfl
       done)
    | (apply foldl_chan
       intros
       split
       · apply foldl_chan
         intros
         split
         all_goals simp
       · rfl
       done)
    | (apply foldl_hbm
       intros
       split
       · apply foldl_hbm
         intros
         split
         all_goals simp
       · rfl
       done)
    | (apply foldl_glint
       intros
       split
       · apply foldl_glint
         intros
         split
         all_goals simp
       · rfl
       done)
    | (apply foldl_cond
       intros
       split
       · apply foldl_cond
         intros
         split
         all_goals simp
       · rfl
       done)
    | (apply foldl_tx
       intros
       split
       · apply foldl_tx
         intros
         split
         all_goals simp
       · rfl
       done)
    | (apply foldl_link
       intros
       split
       · apply foldl_link
         intros
         split
         all_goals simp
       · rfl
       done)
    | (apply foldl_mgmt
       intros
       split
       · apply foldl_mgmt
         intros
         split
         all_goals simp
       · rfl
       done)
    | (apply foldl_out
       intros
       split
       · apply foldl_out
         intros
         split
         all_goals simp
       · rfl
       done)
    | (apply foldl_free
       intros
       split
       · apply foldl_free
         intros
         split
         all_goals simp
       · rfl
       done)
    | (apply foldl_tb
       intros
       split
       · apply foldl_tb
         intros
         split
         all_goals simp
       · rfl
       done)
    | (apply foldl_now
       intros
       split
       · apply foldl_now
         intros
         split
         all_goals simp
       · rfl
       done)
theorem execStrokeRelease_frame (t : Tick) (plan : Fin 16) (j : ℕ) (s : State) {t_ : State} (h : execStrokeRelease t plan j s = .next t_) :
    t_.pending = s.pending ∧ t_.audio = s.audio ∧ t_.lbox = s.lbox ∧ t_.pins = s.pins ∧ t_.tOffset = (s.advance t).tOffset ∧ t_.boot = s.boot ∧ t_.hbm = s.hbm ∧ t_.glint = s.glint ∧ t_.tx = s.tx ∧ t_.link = s.link ∧ t_.mgmt = s.mgmt ∧ t_.out = s.out ∧ t_.free = s.free ∧ t_.tb = (s.advance t).tb ∧ t_.now = (s.advance t).now := by
  simp only [execStrokeRelease] at h
  repeat' split at h
  all_goals (cases h; simp)
@[simp] theorem twinSend_frame (kind : ℕ) (body : Bytes) (s : State) :
    (twinSend kind body s).pending = s.pending ∧ (twinSend kind body s).audio = s.audio ∧ (twinSend kind body s).lbox = s.lbox ∧ (twinSend kind body s).pins = s.pins ∧ (twinSend kind body s).tOffset = s.tOffset ∧ (twinSend kind body s).boot = s.boot ∧ (twinSend kind body s).chan = s.chan ∧ (twinSend kind body s).hbm = s.hbm ∧ (twinSend kind body s).glint = s.glint ∧ (twinSend kind body s).cond = s.cond ∧ (twinSend kind body s).tx = s.tx ∧ (twinSend kind body s).corr = s.corr ∧ (twinSend kind body s).twin = s.twin ∧ (twinSend kind body s).host = s.host ∧ (twinSend kind body s).free = s.free ∧ (twinSend kind body s).tb = s.tb ∧ (twinSend kind body s).now = s.now := by
  simp [twinSend]
@[simp] theorem stepEvent_frame (s : State) :
    (stepEvent s).pending = s.pending ∧ (stepEvent s).audio = s.audio ∧ (stepEvent s).lbox = s.lbox ∧ (stepEvent s).pins = s.pins ∧ (stepEvent s).tOffset = s.tOffset ∧ (stepEvent s).boot = s.boot ∧ (stepEvent s).chan = s.chan ∧ (stepEvent s).hbm = s.hbm ∧ (stepEvent s).glint = s.glint ∧ (stepEvent s).cond = s.cond ∧ (stepEvent s).tx = s.tx ∧ (stepEvent s).corr = s.corr ∧ (stepEvent s).link = s.link ∧ (stepEvent s).twin = s.twin ∧ (stepEvent s).free = s.free ∧ (stepEvent s).tb = s.tb ∧ (stepEvent s).now = s.now := by
  simp [stepEvent]
@[simp] theorem leaveStep_frame (s : State) :
    (leaveStep s).pending = s.pending ∧ (leaveStep s).audio = s.audio ∧ (leaveStep s).lbox = s.lbox ∧ (leaveStep s).pins = s.pins ∧ (leaveStep s).tOffset = s.tOffset ∧ (leaveStep s).boot = s.boot ∧ (leaveStep s).chan = s.chan ∧ (leaveStep s).hbm = s.hbm ∧ (leaveStep s).glint = s.glint ∧ (leaveStep s).cond = s.cond ∧ (leaveStep s).tx = s.tx ∧ (leaveStep s).corr = s.corr ∧ (leaveStep s).link = s.link ∧ (leaveStep s).free = s.free ∧ (leaveStep s).tb = s.tb ∧ (leaveStep s).now = s.now := by
  generalize hr : leaveStep s = r
  simp only [leaveStep] at hr
  repeat' split at hr
  all_goals (subst hr; simp)
@[simp] theorem takeT_frame (d : Desc) (data : Bytes) (s : State) :
    (takeT d data s).2.pending = s.pending ∧ (takeT d data s).2.audio = s.audio ∧ (takeT d data s).2.lbox = s.lbox ∧ (takeT d data s).2.pins = s.pins ∧ (takeT d data s).2.tOffset = s.tOffset ∧ (takeT d data s).2.boot = s.boot ∧ (takeT d data s).2.chan = s.chan ∧ (takeT d data s).2.hbm = s.hbm ∧ (takeT d data s).2.glint = s.glint ∧ (takeT d data s).2.cond = s.cond ∧ (takeT d data s).2.tx = s.tx ∧ (takeT d data s).2.corr = s.corr ∧ (takeT d data s).2.free = s.free ∧ (takeT d data s).2.tb = s.tb ∧ (takeT d data s).2.now = s.now := by
  generalize hr : takeT d data s = r
  simp only [takeT] at hr
  repeat' split at hr
  all_goals (subst hr; simp)
@[simp] theorem acceptTimed_frame (d : Desc) (s : State) :
    (acceptTimed d s).pending = s.pending ∧ (acceptTimed d s).audio = s.audio ∧ (acceptTimed d s).lbox = s.lbox ∧ (acceptTimed d s).pins = s.pins ∧ (acceptTimed d s).tOffset = s.tOffset ∧ (acceptTimed d s).boot = s.boot ∧ (acceptTimed d s).chan = s.chan ∧ (acceptTimed d s).hbm = s.hbm ∧ (acceptTimed d s).glint = s.glint ∧ (acceptTimed d s).cond = s.cond ∧ (acceptTimed d s).tx = s.tx ∧ (acceptTimed d s).corr = s.corr ∧ (acceptTimed d s).link = s.link ∧ (acceptTimed d s).free = s.free ∧ (acceptTimed d s).tb = s.tb ∧ (acceptTimed d s).now = s.now := by
  generalize hr : acceptTimed d s = r
  simp only [acceptTimed] at hr
  repeat' split at hr
  all_goals (subst hr; simp)
@[simp] theorem shedProduct_frame (product : ℕ) (T : ℕ) (s : State) :
    (shedProduct product T s).pending = s.pending ∧ (shedProduct product T s).audio = s.audio ∧ (shedProduct product T s).lbox = s.lbox ∧ (shedProduct product T s).pins = s.pins ∧ (shedProduct product T s).tOffset = s.tOffset ∧ (shedProduct product T s).boot = s.boot ∧ (shedProduct product T s).chan = s.chan ∧ (shedProduct product T s).hbm = s.hbm ∧ (shedProduct product T s).glint = s.glint ∧ (shedProduct product T s).cond = s.cond ∧ (shedProduct product T s).tx = s.tx ∧ (shedProduct product T s).link = s.link ∧ (shedProduct product T s).twin = s.twin ∧ (shedProduct product T s).free = s.free ∧ (shedProduct product T s).tb = s.tb ∧ (shedProduct product T s).now = s.now := by
  unfold shedProduct
  refine ⟨(foldl_pending _ _ _ fun s a => ?_), (foldl_audio _ _ _ fun s a => ?_), (foldl_lbox _ _ _ fun s a => ?_), (foldl_pins _ _ _ fun s a => ?_), (foldl_tOffset _ _ _ fun s a => ?_), (foldl_boot _ _ _ fun s a => ?_), (foldl_chan _ _ _ fun s a => ?_), (foldl_hbm _ _ _ fun s a => ?_), (foldl_glint _ _ _ fun s a => ?_), (foldl_cond _ _ _ fun s a => ?_), (foldl_tx _ _ _ fun s a => ?_), (foldl_link _ _ _ fun s a => ?_), (foldl_twin _ _ _ fun s a => ?_), (foldl_free _ _ _ fun s a => ?_), (foldl_tb _ _ _ fun s a => ?_), (foldl_now _ _ _ fun s a => ?_)⟩
  all_goals (try dsimp only)
  all_goals (repeat' (first | rfl | split))
  all_goals (try simp)
@[simp] theorem restoreEntry_frame (n : ℕ) (T : ℕ) (s : State) :
    (restoreEntry n T s).pending = s.pending ∧ (restoreEntry n T s).audio = s.audio ∧ (restoreEntry n T s).lbox = s.lbox ∧ (restoreEntry n T s).pins = s.pins ∧ (restoreEntry n T s).tOffset = s.tOffset ∧ (restoreEntry n T s).boot = s.boot ∧ (restoreEntry n T s).chan = s.chan ∧ (restoreEntry n T s).hbm = s.hbm ∧ (restoreEntry n T s).glint = s.glint ∧ (restoreEntry n T s).cond = s.cond ∧ (restoreEntry n T s).tx = s.tx ∧ (restoreEntry n T s).link = s.link ∧ (restoreEntry n T s).twin = s.twin ∧ (restoreEntry n T s).free = s.free ∧ (restoreEntry n T s).tb = s.tb ∧ (restoreEntry n T s).now = s.now := by
  generalize hr : restoreEntry n T s = r
  simp only [restoreEntry] at hr
  repeat' split at hr
  all_goals (subst hr; simp)
@[simp] theorem restoreProduct_frame (product : ℕ) (T : ℕ) (s : State) :
    (restoreProduct product T s).pending = s.pending ∧ (restoreProduct product T s).audio = s.audio ∧ (restoreProduct product T s).lbox = s.lbox ∧ (restoreProduct product T s).pins = s.pins ∧ (restoreProduct product T s).tOffset = s.tOffset ∧ (restoreProduct product T s).boot = s.boot ∧ (restoreProduct product T s).chan = s.chan ∧ (restoreProduct product T s).hbm = s.hbm ∧ (restoreProduct product T s).glint = s.glint ∧ (restoreProduct product T s).cond = s.cond ∧ (restoreProduct product T s).tx = s.tx ∧ (restoreProduct product T s).link = s.link ∧ (restoreProduct product T s).twin = s.twin ∧ (restoreProduct product T s).free = s.free ∧ (restoreProduct product T s).tb = s.tb ∧ (restoreProduct product T s).now = s.now := by
  simp [restoreProduct]
@[simp] theorem runShed_frame (d : Desc) (data : Bytes) (s : State) :
    (runShed d data s).pending = s.pending ∧ (runShed d data s).audio = s.audio ∧ (runShed d data s).lbox = s.lbox ∧ (runShed d data s).pins = s.pins ∧ (runShed d data s).tOffset = s.tOffset ∧ (runShed d data s).boot = s.boot ∧ (runShed d data s).chan = s.chan ∧ (runShed d data s).hbm = s.hbm ∧ (runShed d data s).glint = s.glint ∧ (runShed d data s).cond = s.cond ∧ (runShed d data s).tx = s.tx ∧ (runShed d data s).tb = s.tb ∧ (runShed d data s).now = s.now := by
  generalize hr : runShed d data s = r
  simp only [runShed] at hr
  repeat' split at hr
  all_goals (subst hr; simp)
theorem execShed_frame (t : Tick) (d : Desc) (data : Bytes) (s : State) {t_ : State} (h : execShed t d data s = .next t_) :
    t_.pending = s.pending ∧ t_.audio = s.audio ∧ t_.lbox = s.lbox ∧ t_.pins = s.pins ∧ t_.tOffset = (s.advance t).tOffset ∧ t_.boot = s.boot ∧ t_.chan = s.chan ∧ t_.hbm = s.hbm ∧ t_.glint = s.glint ∧ t_.cond = s.cond ∧ t_.tx = s.tx ∧ t_.tb = (s.advance t).tb ∧ t_.now = (s.advance t).now := by
  simp only [execShed, Host.Outcome.next.injEq] at h
  subst h
  simp
@[simp] theorem runRestore_frame (d : Desc) (data : Bytes) (s : State) :
    (runRestore d data s).pending = s.pending ∧ (runRestore d data s).audio = s.audio ∧ (runRestore d data s).lbox = s.lbox ∧ (runRestore d data s).pins = s.pins ∧ (runRestore d data s).tOffset = s.tOffset ∧ (runRestore d data s).boot = s.boot ∧ (runRestore d data s).chan = s.chan ∧ (runRestore d data s).hbm = s.hbm ∧ (runRestore d data s).glint = s.glint ∧ (runRestore d data s).cond = s.cond ∧ (runRestore d data s).tx = s.tx ∧ (runRestore d data s).tb = s.tb ∧ (runRestore d data s).now = s.now := by
  generalize hr : runRestore d data s = r
  simp only [runRestore] at hr
  repeat' split at hr
  all_goals (subst hr; simp)
theorem execRestore_frame (t : Tick) (d : Desc) (data : Bytes) (s : State) {t_ : State} (h : execRestore t d data s = .next t_) :
    t_.pending = s.pending ∧ t_.audio = s.audio ∧ t_.lbox = s.lbox ∧ t_.pins = s.pins ∧ t_.tOffset = (s.advance t).tOffset ∧ t_.boot = s.boot ∧ t_.chan = s.chan ∧ t_.hbm = s.hbm ∧ t_.glint = s.glint ∧ t_.cond = s.cond ∧ t_.tx = s.tx ∧ t_.tb = (s.advance t).tb ∧ t_.now = (s.advance t).now := by
  simp only [execRestore, Host.Outcome.next.injEq] at h
  subst h
  simp
@[simp] theorem shedNext_frame (domain : ℕ) (s : State) :
    (shedNext domain s).pending = s.pending ∧ (shedNext domain s).audio = s.audio ∧ (shedNext domain s).lbox = s.lbox ∧ (shedNext domain s).pins = s.pins ∧ (shedNext domain s).tOffset = s.tOffset ∧ (shedNext domain s).boot = s.boot ∧ (shedNext domain s).chan = s.chan ∧ (shedNext domain s).hbm = s.hbm ∧ (shedNext domain s).glint = s.glint ∧ (shedNext domain s).cond = s.cond ∧ (shedNext domain s).tx = s.tx ∧ (shedNext domain s).link = s.link ∧ (shedNext domain s).twin = s.twin ∧ (shedNext domain s).free = s.free ∧ (shedNext domain s).tb = s.tb ∧ (shedNext domain s).now = s.now := by
  generalize hr : shedNext domain s = r
  simp only [shedNext] at hr
  repeat' split at hr
  all_goals (subst hr; simp)
@[simp] theorem hostFence_frame (e : ℕ) (s : State) :
    (hostFence e s).pending = s.pending ∧ (hostFence e s).audio = s.audio ∧ (hostFence e s).lbox = s.lbox ∧ (hostFence e s).pins = s.pins ∧ (hostFence e s).tOffset = s.tOffset ∧ (hostFence e s).boot = s.boot ∧ (hostFence e s).hbm = s.hbm ∧ (hostFence e s).glint = s.glint ∧ (hostFence e s).tx = s.tx ∧ (hostFence e s).link = s.link ∧ (hostFence e s).free = s.free ∧ (hostFence e s).tb = s.tb ∧ (hostFence e s).now = s.now := by
  generalize hr : hostFence e s = r
  simp only [hostFence] at hr
  repeat' split at hr
  all_goals (subst hr; simp)
@[simp] theorem runEngineFence_frame (d : Desc) (data : Bytes) (s : State) :
    (runEngineFence d data s).pending = s.pending ∧ (runEngineFence d data s).audio = s.audio ∧ (runEngineFence d data s).lbox = s.lbox ∧ (runEngineFence d data s).pins = s.pins ∧ (runEngineFence d data s).tOffset = s.tOffset ∧ (runEngineFence d data s).boot = s.boot ∧ (runEngineFence d data s).hbm = s.hbm ∧ (runEngineFence d data s).glint = s.glint ∧ (runEngineFence d data s).tx = s.tx ∧ (runEngineFence d data s).tb = s.tb ∧ (runEngineFence d data s).now = s.now := by
  generalize hr : runEngineFence d data s = r
  simp only [runEngineFence] at hr
  repeat' split at hr
  all_goals (subst hr; simp)
theorem execEngineFence_frame (t : Tick) (d : Desc) (data : Bytes) (s : State) {t_ : State} (h : execEngineFence t d data s = .next t_) :
    t_.pending = s.pending ∧ t_.audio = s.audio ∧ t_.lbox = s.lbox ∧ t_.pins = s.pins ∧ t_.tOffset = (s.advance t).tOffset ∧ t_.boot = s.boot ∧ t_.hbm = s.hbm ∧ t_.glint = s.glint ∧ t_.tx = s.tx ∧ t_.tb = (s.advance t).tb ∧ t_.now = (s.advance t).now := by
  simp only [execEngineFence, Host.Outcome.next.injEq] at h
  subst h
  simp
@[simp] theorem loadSched_frame (c : Sched) (s : State) :
    (loadSched c s).pending = s.pending ∧ (loadSched c s).audio = s.audio ∧ (loadSched c s).lbox = s.lbox ∧ (loadSched c s).pins = s.pins ∧ (loadSched c s).tOffset = s.tOffset ∧ (loadSched c s).boot = s.boot ∧ (loadSched c s).hbm = s.hbm ∧ (loadSched c s).glint = s.glint ∧ (loadSched c s).tx = s.tx ∧ (loadSched c s).link = s.link ∧ (loadSched c s).tb = s.tb ∧ (loadSched c s).now = s.now := by
  simp [loadSched]
@[simp] theorem runScheduleLoad_frame (d : Desc) (data : Bytes) (s : State) :
    (runScheduleLoad d data s).pending = s.pending ∧ (runScheduleLoad d data s).audio = s.audio ∧ (runScheduleLoad d data s).lbox = s.lbox ∧ (runScheduleLoad d data s).pins = s.pins ∧ (runScheduleLoad d data s).tOffset = s.tOffset ∧ (runScheduleLoad d data s).boot = s.boot ∧ (runScheduleLoad d data s).hbm = s.hbm ∧ (runScheduleLoad d data s).glint = s.glint ∧ (runScheduleLoad d data s).tx = s.tx ∧ (runScheduleLoad d data s).link = s.link ∧ (runScheduleLoad d data s).tb = s.tb ∧ (runScheduleLoad d data s).now = s.now := by
  generalize hr : runScheduleLoad d data s = r
  simp only [runScheduleLoad] at hr
  repeat' split at hr
  all_goals (subst hr; simp)
theorem execScheduleLoad_frame (t : Tick) (d : Desc) (data : Bytes) (s : State) {t_ : State} (h : execScheduleLoad t d data s = .next t_) :
    t_.pending = s.pending ∧ t_.audio = s.audio ∧ t_.lbox = s.lbox ∧ t_.pins = s.pins ∧ t_.tOffset = (s.advance t).tOffset ∧ t_.boot = s.boot ∧ t_.hbm = s.hbm ∧ t_.glint = s.glint ∧ t_.tx = s.tx ∧ t_.link = s.link ∧ t_.tb = (s.advance t).tb ∧ t_.now = (s.advance t).now := by
  simp only [execScheduleLoad, Host.Outcome.next.injEq] at h
  subst h
  simp
theorem unloadSched_frame (id : ℕ) (s : State) {t_ : State} (h : unloadSched id s = some t_) :
    t_.pending = s.pending ∧ t_.audio = s.audio ∧ t_.lbox = s.lbox ∧ t_.pins = s.pins ∧ t_.tOffset = s.tOffset ∧ t_.boot = s.boot ∧ t_.hbm = s.hbm ∧ t_.glint = s.glint ∧ t_.tx = s.tx ∧ t_.link = s.link ∧ t_.mgmt = s.mgmt ∧ t_.host = s.host ∧ t_.out = s.out ∧ t_.free = s.free ∧ t_.tb = s.tb ∧ t_.now = s.now := by
  unfold unloadSched at h
  split at h
  · cases h
  · cases h
    simp
@[simp] theorem srcTrim_frame (ring : ℕ) (s : State) :
    (srcTrim ring s).pending = s.pending ∧ (srcTrim ring s).audio = s.audio ∧ (srcTrim ring s).lbox = s.lbox ∧ (srcTrim ring s).pins = s.pins ∧ (srcTrim ring s).tOffset = s.tOffset ∧ (srcTrim ring s).boot = s.boot ∧ (srcTrim ring s).chan = s.chan ∧ (srcTrim ring s).hbm = s.hbm ∧ (srcTrim ring s).glint = s.glint ∧ (srcTrim ring s).cond = s.cond ∧ (srcTrim ring s).tx = s.tx ∧ (srcTrim ring s).corr = s.corr ∧ (srcTrim ring s).link = s.link ∧ (srcTrim ring s).twin = s.twin ∧ (srcTrim ring s).mgmt = s.mgmt ∧ (srcTrim ring s).out = s.out ∧ (srcTrim ring s).free = s.free ∧ (srcTrim ring s).tb = s.tb ∧ (srcTrim ring s).now = s.now := by
  generalize hr : srcTrim ring s = r
  simp only [srcTrim] at hr
  repeat' split at hr
  all_goals (subst hr; simp)
@[simp] theorem dropSets_frame (s : State) :
    (dropSets s).pending = s.pending ∧ (dropSets s).audio = s.audio ∧ (dropSets s).lbox = s.lbox ∧ (dropSets s).pins = s.pins ∧ (dropSets s).tOffset = s.tOffset ∧ (dropSets s).boot = s.boot ∧ (dropSets s).chan = s.chan ∧ (dropSets s).hbm = s.hbm ∧ (dropSets s).glint = s.glint ∧ (dropSets s).cond = s.cond ∧ (dropSets s).tx = s.tx ∧ (dropSets s).corr = s.corr ∧ (dropSets s).link = s.link ∧ (dropSets s).mgmt = s.mgmt ∧ (dropSets s).host = s.host ∧ (dropSets s).out = s.out ∧ (dropSets s).free = s.free ∧ (dropSets s).tb = s.tb ∧ (dropSets s).now = s.now := by
  simp [dropSets]
@[simp] theorem runAudioConfigure_frame (d : Desc) (data : Bytes) (s : State) :
    (runAudioConfigure d data s).pending = s.pending ∧ (runAudioConfigure d data s).lbox = s.lbox ∧ (runAudioConfigure d data s).pins = s.pins ∧ (runAudioConfigure d data s).tOffset = s.tOffset ∧ (runAudioConfigure d data s).boot = s.boot ∧ (runAudioConfigure d data s).chan = s.chan ∧ (runAudioConfigure d data s).hbm = s.hbm ∧ (runAudioConfigure d data s).glint = s.glint ∧ (runAudioConfigure d data s).cond = s.cond ∧ (runAudioConfigure d data s).tx = s.tx ∧ (runAudioConfigure d data s).corr = s.corr ∧ (runAudioConfigure d data s).link = s.link ∧ (runAudioConfigure d data s).tb = s.tb ∧ (runAudioConfigure d data s).now = s.now := by
  generalize hr : runAudioConfigure d data s = r
  simp only [runAudioConfigure] at hr
  repeat' split at hr
  all_goals (subst hr; simp)
theorem execAudioConfigure_frame (t : Tick) (d : Desc) (data : Bytes) (s : State) {t_ : State} (h : execAudioConfigure t d data s = .next t_) :
    t_.pending = s.pending ∧ t_.lbox = s.lbox ∧ t_.pins = s.pins ∧ t_.tOffset = (s.advance t).tOffset ∧ t_.boot = s.boot ∧ t_.chan = s.chan ∧ t_.hbm = s.hbm ∧ t_.glint = s.glint ∧ t_.cond = s.cond ∧ t_.tx = s.tx ∧ t_.corr = s.corr ∧ t_.link = s.link ∧ t_.tb = (s.advance t).tb ∧ t_.now = (s.advance t).now := by
  simp only [execAudioConfigure, Host.Outcome.next.injEq] at h
  subst h
  simp
@[simp] theorem runRoutingSetLoad_frame (d : Desc) (data : Bytes) (s : State) :
    (runRoutingSetLoad d data s).pending = s.pending ∧ (runRoutingSetLoad d data s).lbox = s.lbox ∧ (runRoutingSetLoad d data s).pins = s.pins ∧ (runRoutingSetLoad d data s).tOffset = s.tOffset ∧ (runRoutingSetLoad d data s).boot = s.boot ∧ (runRoutingSetLoad d data s).chan = s.chan ∧ (runRoutingSetLoad d data s).hbm = s.hbm ∧ (runRoutingSetLoad d data s).glint = s.glint ∧ (runRoutingSetLoad d data s).cond = s.cond ∧ (runRoutingSetLoad d data s).tx = s.tx ∧ (runRoutingSetLoad d data s).corr = s.corr ∧ (runRoutingSetLoad d data s).link = s.link ∧ (runRoutingSetLoad d data s).tb = s.tb ∧ (runRoutingSetLoad d data s).now = s.now := by
  generalize hr : runRoutingSetLoad d data s = r
  simp only [runRoutingSetLoad] at hr
  repeat' split at hr
  all_goals (subst hr; simp)
theorem execRoutingSetLoad_frame (t : Tick) (d : Desc) (data : Bytes) (s : State) {t_ : State} (h : execRoutingSetLoad t d data s = .next t_) :
    t_.pending = s.pending ∧ t_.lbox = s.lbox ∧ t_.pins = s.pins ∧ t_.tOffset = (s.advance t).tOffset ∧ t_.boot = s.boot ∧ t_.chan = s.chan ∧ t_.hbm = s.hbm ∧ t_.glint = s.glint ∧ t_.cond = s.cond ∧ t_.tx = s.tx ∧ t_.corr = s.corr ∧ t_.link = s.link ∧ t_.tb = (s.advance t).tb ∧ t_.now = (s.advance t).now := by
  simp only [execRoutingSetLoad, Host.Outcome.next.injEq] at h
  subst h
  simp
@[simp] theorem runRoutingSwap_frame (d : Desc) (x1 : Bytes) (s : State) :
    (runRoutingSwap d x1 s).pending = s.pending ∧ (runRoutingSwap d x1 s).lbox = s.lbox ∧ (runRoutingSwap d x1 s).pins = s.pins ∧ (runRoutingSwap d x1 s).tOffset = s.tOffset ∧ (runRoutingSwap d x1 s).boot = s.boot ∧ (runRoutingSwap d x1 s).chan = s.chan ∧ (runRoutingSwap d x1 s).hbm = s.hbm ∧ (runRoutingSwap d x1 s).glint = s.glint ∧ (runRoutingSwap d x1 s).cond = s.cond ∧ (runRoutingSwap d x1 s).tx = s.tx ∧ (runRoutingSwap d x1 s).corr = s.corr ∧ (runRoutingSwap d x1 s).link = s.link ∧ (runRoutingSwap d x1 s).tb = s.tb ∧ (runRoutingSwap d x1 s).now = s.now := by
  generalize hr : runRoutingSwap d x1 s = r
  simp only [runRoutingSwap] at hr
  repeat' split at hr
  all_goals (subst hr; simp)
theorem execRoutingSwap_frame (t : Tick) (d : Desc) (data : Bytes) (s : State) {t_ : State} (h : execRoutingSwap t d data s = .next t_) :
    t_.pending = s.pending ∧ t_.lbox = s.lbox ∧ t_.pins = s.pins ∧ t_.tOffset = (s.advance t).tOffset ∧ t_.boot = s.boot ∧ t_.chan = s.chan ∧ t_.hbm = s.hbm ∧ t_.glint = s.glint ∧ t_.cond = s.cond ∧ t_.tx = s.tx ∧ t_.corr = s.corr ∧ t_.link = s.link ∧ t_.tb = (s.advance t).tb ∧ t_.now = (s.advance t).now := by
  simp only [execRoutingSwap, Host.Outcome.next.injEq] at h
  subst h
  simp
@[simp] theorem doSwap_frame (a : ℕ) (s : State) :
    (doSwap a s).pending = s.pending ∧ (doSwap a s).lbox = s.lbox ∧ (doSwap a s).pins = s.pins ∧ (doSwap a s).tOffset = s.tOffset ∧ (doSwap a s).boot = s.boot ∧ (doSwap a s).chan = s.chan ∧ (doSwap a s).hbm = s.hbm ∧ (doSwap a s).glint = s.glint ∧ (doSwap a s).cond = s.cond ∧ (doSwap a s).tx = s.tx ∧ (doSwap a s).corr = s.corr ∧ (doSwap a s).link = s.link ∧ (doSwap a s).twin = s.twin ∧ (doSwap a s).free = s.free ∧ (doSwap a s).tb = s.tb ∧ (doSwap a s).now = s.now := by
  generalize hr : doSwap a s = r
  simp only [doSwap] at hr
  repeat' split at hr
  all_goals (subst hr; simp)
@[simp] theorem convertSrc_frame (t0 : ℕ) (x : ℤ) (n : ℕ) (s : State) :
    (convertSrc t0 x n s).2.pending = s.pending ∧ (convertSrc t0 x n s).2.lbox = s.lbox ∧ (convertSrc t0 x n s).2.pins = s.pins ∧ (convertSrc t0 x n s).2.tOffset = s.tOffset ∧ (convertSrc t0 x n s).2.boot = s.boot ∧ (convertSrc t0 x n s).2.chan = s.chan ∧ (convertSrc t0 x n s).2.hbm = s.hbm ∧ (convertSrc t0 x n s).2.glint = s.glint ∧ (convertSrc t0 x n s).2.cond = s.cond ∧ (convertSrc t0 x n s).2.tx = s.tx ∧ (convertSrc t0 x n s).2.corr = s.corr ∧ (convertSrc t0 x n s).2.link = s.link ∧ (convertSrc t0 x n s).2.twin = s.twin ∧ (convertSrc t0 x n s).2.free = s.free ∧ (convertSrc t0 x n s).2.tb = s.tb ∧ (convertSrc t0 x n s).2.now = s.now := by
  generalize hr : convertSrc t0 x n s = r
  simp only [convertSrc] at hr
  repeat' split at hr
  all_goals (subst hr; simp)
@[simp] theorem convertAll_frame (t0 : ℕ) (x : ℤ) (s : State) :
    (convertAll t0 x s).2.pending = s.pending ∧ (convertAll t0 x s).2.lbox = s.lbox ∧ (convertAll t0 x s).2.pins = s.pins ∧ (convertAll t0 x s).2.tOffset = s.tOffset ∧ (convertAll t0 x s).2.boot = s.boot ∧ (convertAll t0 x s).2.chan = s.chan ∧ (convertAll t0 x s).2.hbm = s.hbm ∧ (convertAll t0 x s).2.glint = s.glint ∧ (convertAll t0 x s).2.cond = s.cond ∧ (convertAll t0 x s).2.tx = s.tx ∧ (convertAll t0 x s).2.corr = s.corr ∧ (convertAll t0 x s).2.link = s.link ∧ (convertAll t0 x s).2.twin = s.twin ∧ (convertAll t0 x s).2.free = s.free ∧ (convertAll t0 x s).2.tb = s.tb ∧ (convertAll t0 x s).2.now = s.now := by
  simp [convertAll]
@[simp] theorem emitCapture_frame (t0 : ℕ) (a : ℕ) (n : ℕ) (s : State) :
    (emitCapture t0 a n s).pending = s.pending ∧ (emitCapture t0 a n s).lbox = s.lbox ∧ (emitCapture t0 a n s).pins = s.pins ∧ (emitCapture t0 a n s).tOffset = s.tOffset ∧ (emitCapture t0 a n s).boot = s.boot ∧ (emitCapture t0 a n s).chan = s.chan ∧ (emitCapture t0 a n s).glint = s.glint ∧ (emitCapture t0 a n s).cond = s.cond ∧ (emitCapture t0 a n s).tx = s.tx ∧ (emitCapture t0 a n s).corr = s.corr ∧ (emitCapture t0 a n s).link = s.link ∧ (emitCapture t0 a n s).out = s.out ∧ (emitCapture t0 a n s).tb = s.tb ∧ (emitCapture t0 a n s).now = s.now := by
  generalize hr : emitCapture t0 a n s = r
  simp only [emitCapture] at hr
  repeat' split at hr
  all_goals (subst hr; simp)
@[simp] theorem runIndex_frame (t0 : ℕ) (a : ℕ) (s : State) :
    (runIndex t0 a s).pending = s.pending ∧ (runIndex t0 a s).lbox = s.lbox ∧ (runIndex t0 a s).pins = s.pins ∧ (runIndex t0 a s).tOffset = s.tOffset ∧ (runIndex t0 a s).boot = s.boot ∧ (runIndex t0 a s).chan = s.chan ∧ (runIndex t0 a s).glint = s.glint ∧ (runIndex t0 a s).cond = s.cond ∧ (runIndex t0 a s).tx = s.tx ∧ (runIndex t0 a s).corr = s.corr ∧ (runIndex t0 a s).link = s.link ∧ (runIndex t0 a s).tb = s.tb ∧ (runIndex t0 a s).now = s.now := by
  generalize hr : runIndex t0 a s = r
  simp only [runIndex] at hr
  repeat' split at hr
  all_goals (subst hr; simp)
theorem execAudioIndex_frame (t : Tick) (s : State) {t_ : State} (h : execAudioIndex t s = .next t_) :
    t_.pending = s.pending ∧ t_.lbox = s.lbox ∧ t_.pins = s.pins ∧ t_.tOffset = (s.advance t).tOffset ∧ t_.boot = s.boot ∧ t_.chan = s.chan ∧ t_.glint = s.glint ∧ t_.cond = s.cond ∧ t_.tx = s.tx ∧ t_.corr = s.corr ∧ t_.link = s.link ∧ t_.tb = (s.advance t).tb ∧ t_.now = (s.advance t).now := by
  simp only [execAudioIndex] at h
  repeat' split at h
  all_goals (cases h; simp)
@[simp] theorem setDrive_frame (e : ℕ) (r : DriveRun) (s : State) :
    (setDrive e r s).pending = s.pending ∧ (setDrive e r s).audio = s.audio ∧ (setDrive e r s).lbox = s.lbox ∧ (setDrive e r s).pins = s.pins ∧ (setDrive e r s).tOffset = s.tOffset ∧ (setDrive e r s).boot = s.boot ∧ (setDrive e r s).chan = s.chan ∧ (setDrive e r s).hbm = s.hbm ∧ (setDrive e r s).glint = s.glint ∧ (setDrive e r s).cond = s.cond ∧ (setDrive e r s).corr = s.corr ∧ (setDrive e r s).link = s.link ∧ (setDrive e r s).twin = s.twin ∧ (setDrive e r s).mgmt = s.mgmt ∧ (setDrive e r s).host = s.host ∧ (setDrive e r s).out = s.out ∧ (setDrive e r s).free = s.free ∧ (setDrive e r s).tb = s.tb ∧ (setDrive e r s).now = s.now := by
  simp [setDrive]
@[simp] theorem muteElem_frame (e : ℕ) (cause : ℕ) (block : ℕ) (s : State) :
    (muteElem e cause block s).pending = s.pending ∧ (muteElem e cause block s).audio = s.audio ∧ (muteElem e cause block s).lbox = s.lbox ∧ (muteElem e cause block s).pins = s.pins ∧ (muteElem e cause block s).tOffset = s.tOffset ∧ (muteElem e cause block s).boot = s.boot ∧ (muteElem e cause block s).chan = s.chan ∧ (muteElem e cause block s).hbm = s.hbm ∧ (muteElem e cause block s).glint = s.glint ∧ (muteElem e cause block s).cond = s.cond ∧ (muteElem e cause block s).corr = s.corr ∧ (muteElem e cause block s).link = s.link ∧ (muteElem e cause block s).twin = s.twin ∧ (muteElem e cause block s).free = s.free ∧ (muteElem e cause block s).tb = s.tb ∧ (muteElem e cause block s).now = s.now := by
  generalize hr : muteElem e cause block s = r
  simp only [muteElem] at hr
  repeat' split at hr
  all_goals (subst hr; simp)
@[simp] theorem enterDrive_frame (old : List DriveEntry) (m : DriveEntry) (s : State) :
    (enterDrive old m s).pending = s.pending ∧ (enterDrive old m s).audio = s.audio ∧ (enterDrive old m s).lbox = s.lbox ∧ (enterDrive old m s).pins = s.pins ∧ (enterDrive old m s).tOffset = s.tOffset ∧ (enterDrive old m s).boot = s.boot ∧ (enterDrive old m s).chan = s.chan ∧ (enterDrive old m s).hbm = s.hbm ∧ (enterDrive old m s).glint = s.glint ∧ (enterDrive old m s).cond = s.cond ∧ (enterDrive old m s).corr = s.corr ∧ (enterDrive old m s).link = s.link ∧ (enterDrive old m s).twin = s.twin ∧ (enterDrive old m s).free = s.free ∧ (enterDrive old m s).tb = s.tb ∧ (enterDrive old m s).now = s.now := by
  generalize hr : enterDrive old m s = r
  simp only [enterDrive] at hr
  repeat' split at hr
  all_goals (subst hr; simp)
@[simp] theorem dropDrives_frame (map : List DriveEntry) (s : State) :
    (dropDrives map s).pending = s.pending ∧ (dropDrives map s).audio = s.audio ∧ (dropDrives map s).lbox = s.lbox ∧ (dropDrives map s).pins = s.pins ∧ (dropDrives map s).tOffset = s.tOffset ∧ (dropDrives map s).boot = s.boot ∧ (dropDrives map s).chan = s.chan ∧ (dropDrives map s).hbm = s.hbm ∧ (dropDrives map s).glint = s.glint ∧ (dropDrives map s).cond = s.cond ∧ (dropDrives map s).corr = s.corr ∧ (dropDrives map s).link = s.link ∧ (dropDrives map s).twin = s.twin ∧ (dropDrives map s).mgmt = s.mgmt ∧ (dropDrives map s).host = s.host ∧ (dropDrives map s).out = s.out ∧ (dropDrives map s).free = s.free ∧ (dropDrives map s).tb = s.tb ∧ (dropDrives map s).now = s.now := by
  simp [dropDrives]
@[simp] theorem runDriveMapLoad_frame (d : Desc) (data : Bytes) (s : State) :
    (runDriveMapLoad d data s).pending = s.pending ∧ (runDriveMapLoad d data s).audio = s.audio ∧ (runDriveMapLoad d data s).lbox = s.lbox ∧ (runDriveMapLoad d data s).pins = s.pins ∧ (runDriveMapLoad d data s).tOffset = s.tOffset ∧ (runDriveMapLoad d data s).boot = s.boot ∧ (runDriveMapLoad d data s).chan = s.chan ∧ (runDriveMapLoad d data s).hbm = s.hbm ∧ (runDriveMapLoad d data s).glint = s.glint ∧ (runDriveMapLoad d data s).cond = s.cond ∧ (runDriveMapLoad d data s).corr = s.corr ∧ (runDriveMapLoad d data s).link = s.link ∧ (runDriveMapLoad d data s).tb = s.tb ∧ (runDriveMapLoad d data s).now = s.now := by
  generalize hr : runDriveMapLoad d data s = r
  simp only [runDriveMapLoad] at hr
  repeat' split at hr
  all_goals (subst hr; simp)
theorem execDriveMapLoad_frame (t : Tick) (d : Desc) (data : Bytes) (s : State) {t_ : State} (h : execDriveMapLoad t d data s = .next t_) :
    t_.pending = s.pending ∧ t_.audio = s.audio ∧ t_.lbox = s.lbox ∧ t_.pins = s.pins ∧ t_.tOffset = (s.advance t).tOffset ∧ t_.boot = s.boot ∧ t_.chan = s.chan ∧ t_.hbm = s.hbm ∧ t_.glint = s.glint ∧ t_.cond = s.cond ∧ t_.corr = s.corr ∧ t_.link = s.link ∧ t_.tb = (s.advance t).tb ∧ t_.now = (s.advance t).now := by
  simp only [execDriveMapLoad, Host.Outcome.next.injEq] at h
  subst h
  simp
@[simp] theorem runDriveGroupLoad_frame (d : Desc) (data : Bytes) (s : State) :
    (runDriveGroupLoad d data s).pending = s.pending ∧ (runDriveGroupLoad d data s).audio = s.audio ∧ (runDriveGroupLoad d data s).lbox = s.lbox ∧ (runDriveGroupLoad d data s).pins = s.pins ∧ (runDriveGroupLoad d data s).tOffset = s.tOffset ∧ (runDriveGroupLoad d data s).boot = s.boot ∧ (runDriveGroupLoad d data s).chan = s.chan ∧ (runDriveGroupLoad d data s).hbm = s.hbm ∧ (runDriveGroupLoad d data s).glint = s.glint ∧ (runDriveGroupLoad d data s).cond = s.cond ∧ (runDriveGroupLoad d data s).corr = s.corr ∧ (runDriveGroupLoad d data s).link = s.link ∧ (runDriveGroupLoad d data s).tb = s.tb ∧ (runDriveGroupLoad d data s).now = s.now := by
  generalize hr : runDriveGroupLoad d data s = r
  simp only [runDriveGroupLoad] at hr
  repeat' split at hr
  all_goals (subst hr; simp)
theorem execDriveGroupLoad_frame (t : Tick) (d : Desc) (data : Bytes) (s : State) {t_ : State} (h : execDriveGroupLoad t d data s = .next t_) :
    t_.pending = s.pending ∧ t_.audio = s.audio ∧ t_.lbox = s.lbox ∧ t_.pins = s.pins ∧ t_.tOffset = (s.advance t).tOffset ∧ t_.boot = s.boot ∧ t_.chan = s.chan ∧ t_.hbm = s.hbm ∧ t_.glint = s.glint ∧ t_.cond = s.cond ∧ t_.corr = s.corr ∧ t_.link = s.link ∧ t_.tb = (s.advance t).tb ∧ t_.now = (s.advance t).now := by
  simp only [execDriveGroupLoad, Host.Outcome.next.injEq] at h
  subst h
  simp
@[simp] theorem startDriveGroup_frame (k : ℕ) (t0 : ℕ) (g : DriveGroup) (s : State) :
    (startDriveGroup k t0 g s).pending = s.pending ∧ (startDriveGroup k t0 g s).audio = s.audio ∧ (startDriveGroup k t0 g s).lbox = s.lbox ∧ (startDriveGroup k t0 g s).pins = s.pins ∧ (startDriveGroup k t0 g s).tOffset = s.tOffset ∧ (startDriveGroup k t0 g s).boot = s.boot ∧ (startDriveGroup k t0 g s).chan = s.chan ∧ (startDriveGroup k t0 g s).hbm = s.hbm ∧ (startDriveGroup k t0 g s).glint = s.glint ∧ (startDriveGroup k t0 g s).cond = s.cond ∧ (startDriveGroup k t0 g s).corr = s.corr ∧ (startDriveGroup k t0 g s).link = s.link ∧ (startDriveGroup k t0 g s).twin = s.twin ∧ (startDriveGroup k t0 g s).mgmt = s.mgmt ∧ (startDriveGroup k t0 g s).host = s.host ∧ (startDriveGroup k t0 g s).out = s.out ∧ (startDriveGroup k t0 g s).free = s.free ∧ (startDriveGroup k t0 g s).tb = s.tb ∧ (startDriveGroup k t0 g s).now = s.now := by
  simp [startDriveGroup]
@[simp] theorem runDriveGroupStart_frame (d : Desc) (x1 : Bytes) (s : State) :
    (runDriveGroupStart d x1 s).pending = s.pending ∧ (runDriveGroupStart d x1 s).audio = s.audio ∧ (runDriveGroupStart d x1 s).lbox = s.lbox ∧ (runDriveGroupStart d x1 s).pins = s.pins ∧ (runDriveGroupStart d x1 s).tOffset = s.tOffset ∧ (runDriveGroupStart d x1 s).boot = s.boot ∧ (runDriveGroupStart d x1 s).chan = s.chan ∧ (runDriveGroupStart d x1 s).hbm = s.hbm ∧ (runDriveGroupStart d x1 s).glint = s.glint ∧ (runDriveGroupStart d x1 s).cond = s.cond ∧ (runDriveGroupStart d x1 s).corr = s.corr ∧ (runDriveGroupStart d x1 s).link = s.link ∧ (runDriveGroupStart d x1 s).tb = s.tb ∧ (runDriveGroupStart d x1 s).now = s.now := by
  generalize hr : runDriveGroupStart d x1 s = r
  simp only [runDriveGroupStart] at hr
  repeat' split at hr
  all_goals (subst hr; simp)
theorem execDriveGroupStart_frame (t : Tick) (d : Desc) (data : Bytes) (s : State) {t_ : State} (h : execDriveGroupStart t d data s = .next t_) :
    t_.pending = s.pending ∧ t_.audio = s.audio ∧ t_.lbox = s.lbox ∧ t_.pins = s.pins ∧ t_.tOffset = (s.advance t).tOffset ∧ t_.boot = s.boot ∧ t_.chan = s.chan ∧ t_.hbm = s.hbm ∧ t_.glint = s.glint ∧ t_.cond = s.cond ∧ t_.corr = s.corr ∧ t_.link = s.link ∧ t_.tb = (s.advance t).tb ∧ t_.now = (s.advance t).now := by
  simp only [execDriveGroupStart, Host.Outcome.next.injEq] at h
  subst h
  simp
@[simp] theorem runWaveformTableLoad_frame (d : Desc) (data : Bytes) (s : State) :
    (runWaveformTableLoad d data s).pending = s.pending ∧ (runWaveformTableLoad d data s).audio = s.audio ∧ (runWaveformTableLoad d data s).lbox = s.lbox ∧ (runWaveformTableLoad d data s).pins = s.pins ∧ (runWaveformTableLoad d data s).tOffset = s.tOffset ∧ (runWaveformTableLoad d data s).boot = s.boot ∧ (runWaveformTableLoad d data s).chan = s.chan ∧ (runWaveformTableLoad d data s).glint = s.glint ∧ (runWaveformTableLoad d data s).cond = s.cond ∧ (runWaveformTableLoad d data s).corr = s.corr ∧ (runWaveformTableLoad d data s).link = s.link ∧ (runWaveformTableLoad d data s).tb = s.tb ∧ (runWaveformTableLoad d data s).now = s.now := by
  generalize hr : runWaveformTableLoad d data s = r
  simp only [runWaveformTableLoad] at hr
  repeat' split at hr
  all_goals (subst hr; simp)
theorem execWaveformTableLoad_frame (t : Tick) (d : Desc) (data : Bytes) (s : State) {t_ : State} (h : execWaveformTableLoad t d data s = .next t_) :
    t_.pending = s.pending ∧ t_.audio = s.audio ∧ t_.lbox = s.lbox ∧ t_.pins = s.pins ∧ t_.tOffset = (s.advance t).tOffset ∧ t_.boot = s.boot ∧ t_.chan = s.chan ∧ t_.glint = s.glint ∧ t_.cond = s.cond ∧ t_.corr = s.corr ∧ t_.link = s.link ∧ t_.tb = (s.advance t).tb ∧ t_.now = (s.advance t).now := by
  simp only [execWaveformTableLoad, Host.Outcome.next.injEq] at h
  subst h
  simp
@[simp] theorem runTransmitProgramLoad_frame (d : Desc) (data : Bytes) (s : State) :
    (runTransmitProgramLoad d data s).pending = s.pending ∧ (runTransmitProgramLoad d data s).audio = s.audio ∧ (runTransmitProgramLoad d data s).lbox = s.lbox ∧ (runTransmitProgramLoad d data s).pins = s.pins ∧ (runTransmitProgramLoad d data s).tOffset = s.tOffset ∧ (runTransmitProgramLoad d data s).boot = s.boot ∧ (runTransmitProgramLoad d data s).chan = s.chan ∧ (runTransmitProgramLoad d data s).hbm = s.hbm ∧ (runTransmitProgramLoad d data s).glint = s.glint ∧ (runTransmitProgramLoad d data s).cond = s.cond ∧ (runTransmitProgramLoad d data s).corr = s.corr ∧ (runTransmitProgramLoad d data s).link = s.link ∧ (runTransmitProgramLoad d data s).tb = s.tb ∧ (runTransmitProgramLoad d data s).now = s.now := by
  generalize hr : runTransmitProgramLoad d data s = r
  simp only [runTransmitProgramLoad] at hr
  repeat' split at hr
  all_goals (subst hr; simp)
theorem execTransmitProgramLoad_frame (t : Tick) (d : Desc) (data : Bytes) (s : State) {t_ : State} (h : execTransmitProgramLoad t d data s = .next t_) :
    t_.pending = s.pending ∧ t_.audio = s.audio ∧ t_.lbox = s.lbox ∧ t_.pins = s.pins ∧ t_.tOffset = (s.advance t).tOffset ∧ t_.boot = s.boot ∧ t_.chan = s.chan ∧ t_.hbm = s.hbm ∧ t_.glint = s.glint ∧ t_.cond = s.cond ∧ t_.corr = s.corr ∧ t_.link = s.link ∧ t_.tb = (s.advance t).tb ∧ t_.now = (s.advance t).now := by
  simp only [execTransmitProgramLoad, Host.Outcome.next.injEq] at h
  subst h
  simp
@[simp] theorem nextSample_frame (key : ℕ) (ecc : List Ecc) (s : State) :
    (nextSample key ecc s).2.pending = s.pending ∧ (nextSample key ecc s).2.audio = s.audio ∧ (nextSample key ecc s).2.lbox = s.lbox ∧ (nextSample key ecc s).2.pins = s.pins ∧ (nextSample key ecc s).2.tOffset = s.tOffset ∧ (nextSample key ecc s).2.boot = s.boot ∧ (nextSample key ecc s).2.chan = s.chan ∧ (nextSample key ecc s).2.hbm = s.hbm ∧ (nextSample key ecc s).2.glint = s.glint ∧ (nextSample key ecc s).2.cond = s.cond ∧ (nextSample key ecc s).2.corr = s.corr ∧ (nextSample key ecc s).2.link = s.link ∧ (nextSample key ecc s).2.twin = s.twin ∧ (nextSample key ecc s).2.free = s.free ∧ (nextSample key ecc s).2.tb = s.tb ∧ (nextSample key ecc s).2.now = s.now := by
  generalize hr : nextSample key ecc s = r
  simp only [nextSample] at hr
  repeat' split at hr
  all_goals (subst hr; simp)
@[simp] theorem pullBeam_frame (key : ℕ) (c : ℕ) (g : DriveGroup) (ecc : List Ecc) (a : ℕ) (a5 : State) :
    (pullBeam key c g ecc a a5).pending = a5.pending ∧ (pullBeam key c g ecc a a5).audio = a5.audio ∧ (pullBeam key c g ecc a a5).lbox = a5.lbox ∧ (pullBeam key c g ecc a a5).pins = a5.pins ∧ (pullBeam key c g ecc a a5).tOffset = a5.tOffset ∧ (pullBeam key c g ecc a a5).boot = a5.boot ∧ (pullBeam key c g ecc a a5).chan = a5.chan ∧ (pullBeam key c g ecc a a5).hbm = a5.hbm ∧ (pullBeam key c g ecc a a5).glint = a5.glint ∧ (pullBeam key c g ecc a a5).cond = a5.cond ∧ (pullBeam key c g ecc a a5).corr = a5.corr ∧ (pullBeam key c g ecc a a5).link = a5.link ∧ (pullBeam key c g ecc a a5).twin = a5.twin ∧ (pullBeam key c g ecc a a5).free = a5.free ∧ (pullBeam key c g ecc a a5).tb = a5.tb ∧ (pullBeam key c g ecc a a5).now = a5.now := by
  induction a generalizing a5 with
  | zero => simp [pullBeam]
  | succ n ih =>
    generalize hr : pullBeam key c g ecc (n + 1) a5 = r
    simp only [pullBeam] at hr
    repeat' (first | split at hr)
    all_goals (subst hr; simp [ih])
@[simp] theorem latchBeam_frame (key : ℕ) (s : State) :
    (latchBeam key s).pending = s.pending ∧ (latchBeam key s).audio = s.audio ∧ (latchBeam key s).lbox = s.lbox ∧ (latchBeam key s).pins = s.pins ∧ (latchBeam key s).tOffset = s.tOffset ∧ (latchBeam key s).boot = s.boot ∧ (latchBeam key s).chan = s.chan ∧ (latchBeam key s).hbm = s.hbm ∧ (latchBeam key s).glint = s.glint ∧ (latchBeam key s).cond = s.cond ∧ (latchBeam key s).corr = s.corr ∧ (latchBeam key s).link = s.link ∧ (latchBeam key s).twin = s.twin ∧ (latchBeam key s).mgmt = s.mgmt ∧ (latchBeam key s).host = s.host ∧ (latchBeam key s).out = s.out ∧ (latchBeam key s).free = s.free ∧ (latchBeam key s).tb = s.tb ∧ (latchBeam key s).now = s.now := by
  generalize hr : latchBeam key s = r
  simp only [latchBeam] at hr
  repeat' split at hr
  all_goals (subst hr; simp)
@[simp] theorem latchBeams_frame (group : ℕ) (k : ℕ) (s : State) :
    (latchBeams group k s).pending = s.pending ∧ (latchBeams group k s).audio = s.audio ∧ (latchBeams group k s).lbox = s.lbox ∧ (latchBeams group k s).pins = s.pins ∧ (latchBeams group k s).tOffset = s.tOffset ∧ (latchBeams group k s).boot = s.boot ∧ (latchBeams group k s).chan = s.chan ∧ (latchBeams group k s).hbm = s.hbm ∧ (latchBeams group k s).glint = s.glint ∧ (latchBeams group k s).cond = s.cond ∧ (latchBeams group k s).corr = s.corr ∧ (latchBeams group k s).link = s.link ∧ (latchBeams group k s).twin = s.twin ∧ (latchBeams group k s).mgmt = s.mgmt ∧ (latchBeams group k s).host = s.host ∧ (latchBeams group k s).out = s.out ∧ (latchBeams group k s).free = s.free ∧ (latchBeams group k s).tb = s.tb ∧ (latchBeams group k s).now = s.now := by
  simp [latchBeams]
@[simp] theorem pullElem_frame (e : ℕ) (k : ℕ) (g : DriveGroup) (ecc : List Ecc) (s : State) :
    (pullElem e k g ecc s).pending = s.pending ∧ (pullElem e k g ecc s).audio = s.audio ∧ (pullElem e k g ecc s).lbox = s.lbox ∧ (pullElem e k g ecc s).pins = s.pins ∧ (pullElem e k g ecc s).tOffset = s.tOffset ∧ (pullElem e k g ecc s).boot = s.boot ∧ (pullElem e k g ecc s).chan = s.chan ∧ (pullElem e k g ecc s).hbm = s.hbm ∧ (pullElem e k g ecc s).glint = s.glint ∧ (pullElem e k g ecc s).cond = s.cond ∧ (pullElem e k g ecc s).corr = s.corr ∧ (pullElem e k g ecc s).link = s.link ∧ (pullElem e k g ecc s).twin = s.twin ∧ (pullElem e k g ecc s).free = s.free ∧ (pullElem e k g ecc s).tb = s.tb ∧ (pullElem e k g ecc s).now = s.now := by
  unfold pullElem
  refine ⟨(foldl_pending _ _ _ fun s a => ?_), (foldl_audio _ _ _ fun s a => ?_), (foldl_lbox _ _ _ fun s a => ?_), (foldl_pins _ _ _ fun s a => ?_), (foldl_tOffset _ _ _ fun s a => ?_), (foldl_boot _ _ _ fun s a => ?_), (foldl_chan _ _ _ fun s a => ?_), (foldl_hbm _ _ _ fun s a => ?_), (foldl_glint _ _ _ fun s a => ?_), (foldl_cond _ _ _ fun s a => ?_), (foldl_corr _ _ _ fun s a => ?_), (foldl_link _ _ _ fun s a => ?_), (foldl_twin _ _ _ fun s a => ?_), (foldl_free _ _ _ fun s a => ?_), (foldl_tb _ _ _ fun s a => ?_), (foldl_now _ _ _ fun s a => ?_)⟩
  all_goals (try dsimp only)
  all_goals (repeat' (first | rfl | split))
  all_goals (try simp)
@[simp] theorem emitSample_frame (e : ℕ) (k : ℕ) (g : DriveGroup) (ecc : List Ecc) (s : State) :
    (emitSample e k g ecc s).2.pending = s.pending ∧ (emitSample e k g ecc s).2.audio = s.audio ∧ (emitSample e k g ecc s).2.lbox = s.lbox ∧ (emitSample e k g ecc s).2.pins = s.pins ∧ (emitSample e k g ecc s).2.tOffset = s.tOffset ∧ (emitSample e k g ecc s).2.boot = s.boot ∧ (emitSample e k g ecc s).2.chan = s.chan ∧ (emitSample e k g ecc s).2.hbm = s.hbm ∧ (emitSample e k g ecc s).2.glint = s.glint ∧ (emitSample e k g ecc s).2.cond = s.cond ∧ (emitSample e k g ecc s).2.corr = s.corr ∧ (emitSample e k g ecc s).2.link = s.link ∧ (emitSample e k g ecc s).2.twin = s.twin ∧ (emitSample e k g ecc s).2.free = s.free ∧ (emitSample e k g ecc s).2.tb = s.tb ∧ (emitSample e k g ecc s).2.now = s.now := by
  generalize hr : emitSample e k g ecc s = r
  simp only [emitSample] at hr
  repeat' split at hr
  all_goals (subst hr; simp)
@[simp] theorem trimBeams_frame (s : State) :
    (trimBeams s).pending = s.pending ∧ (trimBeams s).audio = s.audio ∧ (trimBeams s).lbox = s.lbox ∧ (trimBeams s).pins = s.pins ∧ (trimBeams s).tOffset = s.tOffset ∧ (trimBeams s).boot = s.boot ∧ (trimBeams s).chan = s.chan ∧ (trimBeams s).hbm = s.hbm ∧ (trimBeams s).glint = s.glint ∧ (trimBeams s).cond = s.cond ∧ (trimBeams s).corr = s.corr ∧ (trimBeams s).link = s.link ∧ (trimBeams s).twin = s.twin ∧ (trimBeams s).mgmt = s.mgmt ∧ (trimBeams s).out = s.out ∧ (trimBeams s).free = s.free ∧ (trimBeams s).tb = s.tb ∧ (trimBeams s).now = s.now := by
  simp [trimBeams]
@[simp] theorem leaveStreams_frame (group : ℕ) (s : State) :
    (leaveStreams group s).pending = s.pending ∧ (leaveStreams group s).audio = s.audio ∧ (leaveStreams group s).lbox = s.lbox ∧ (leaveStreams group s).pins = s.pins ∧ (leaveStreams group s).tOffset = s.tOffset ∧ (leaveStreams group s).boot = s.boot ∧ (leaveStreams group s).chan = s.chan ∧ (leaveStreams group s).hbm = s.hbm ∧ (leaveStreams group s).glint = s.glint ∧ (leaveStreams group s).cond = s.cond ∧ (leaveStreams group s).corr = s.corr ∧ (leaveStreams group s).link = s.link ∧ (leaveStreams group s).twin = s.twin ∧ (leaveStreams group s).mgmt = s.mgmt ∧ (leaveStreams group s).host = s.host ∧ (leaveStreams group s).out = s.out ∧ (leaveStreams group s).free = s.free ∧ (leaveStreams group s).tb = s.tb ∧ (leaveStreams group s).now = s.now := by
  simp [leaveStreams]
@[simp] theorem frameSample_frame (m : Option DriveEntry) (k : Nat) (g : DriveGroup) (ecc : List Ecc) (p : List Int × State) :
    (frameSample m k g ecc p).2.pending = p.2.pending ∧ (frameSample m k g ecc p).2.audio = p.2.audio ∧ (frameSample m k g ecc p).2.lbox = p.2.lbox ∧ (frameSample m k g ecc p).2.pins = p.2.pins ∧ (frameSample m k g ecc p).2.tOffset = p.2.tOffset ∧ (frameSample m k g ecc p).2.boot = p.2.boot ∧ (frameSample m k g ecc p).2.chan = p.2.chan ∧ (frameSample m k g ecc p).2.hbm = p.2.hbm ∧ (frameSample m k g ecc p).2.glint = p.2.glint ∧ (frameSample m k g ecc p).2.cond = p.2.cond ∧ (frameSample m k g ecc p).2.corr = p.2.corr ∧ (frameSample m k g ecc p).2.link = p.2.link ∧ (frameSample m k g ecc p).2.twin = p.2.twin ∧ (frameSample m k g ecc p).2.free = p.2.free ∧ (frameSample m k g ecc p).2.tb = p.2.tb ∧ (frameSample m k g ecc p).2.now = p.2.now := by
  cases m <;> simp [frameSample]
@[simp] theorem frameSamples_frame (chans : List (Option DriveEntry)) (k : ℕ) (nsamp : ℕ) (g : DriveGroup) (ecc : List Ecc) (s : State) :
    (frameSamples chans k nsamp g ecc s).2.pending = s.pending ∧ (frameSamples chans k nsamp g ecc s).2.audio = s.audio ∧ (frameSamples chans k nsamp g ecc s).2.lbox = s.lbox ∧ (frameSamples chans k nsamp g ecc s).2.pins = s.pins ∧ (frameSamples chans k nsamp g ecc s).2.tOffset = s.tOffset ∧ (frameSamples chans k nsamp g ecc s).2.boot = s.boot ∧ (frameSamples chans k nsamp g ecc s).2.chan = s.chan ∧ (frameSamples chans k nsamp g ecc s).2.hbm = s.hbm ∧ (frameSamples chans k nsamp g ecc s).2.glint = s.glint ∧ (frameSamples chans k nsamp g ecc s).2.cond = s.cond ∧ (frameSamples chans k nsamp g ecc s).2.corr = s.corr ∧ (frameSamples chans k nsamp g ecc s).2.link = s.link ∧ (frameSamples chans k nsamp g ecc s).2.twin = s.twin ∧ (frameSamples chans k nsamp g ecc s).2.free = s.free ∧ (frameSamples chans k nsamp g ecc s).2.tb = s.tb ∧ (frameSamples chans k nsamp g ecc s).2.now = s.now := by
  unfold frameSamples
  refine ⟨(foldlSnd_pending _ _ _ fun p a => ?_), (foldlSnd_audio _ _ _ fun p a => ?_), (foldlSnd_lbox _ _ _ fun p a => ?_), (foldlSnd_pins _ _ _ fun p a => ?_), (foldlSnd_tOffset _ _ _ fun p a => ?_), (foldlSnd_boot _ _ _ fun p a => ?_), (foldlSnd_chan _ _ _ fun p a => ?_), (foldlSnd_hbm _ _ _ fun p a => ?_), (foldlSnd_glint _ _ _ fun p a => ?_), (foldlSnd_cond _ _ _ fun p a => ?_), (foldlSnd_corr _ _ _ fun p a => ?_), (foldlSnd_link _ _ _ fun p a => ?_), (foldlSnd_twin _ _ _ fun p a => ?_), (foldlSnd_free _ _ _ fun p a => ?_), (foldlSnd_tb _ _ _ fun p a => ?_), (foldlSnd_now _ _ _ fun p a => ?_)⟩
  all_goals (try dsimp only)
  all_goals (repeat' (first | rfl | split))
  all_goals (try simp)
@[simp] theorem sendDriveFrame_frame (q : ℕ) (group : ℕ) (stream : ℕ) (chan0 : ℕ) (nsamp : ℕ) (chans : List (Option DriveEntry)) (k : ℕ) (g : DriveGroup) (ecc : List Ecc) (s : State) :
    (sendDriveFrame q group stream chan0 nsamp chans k g ecc s).pending = s.pending ∧ (sendDriveFrame q group stream chan0 nsamp chans k g ecc s).audio = s.audio ∧ (sendDriveFrame q group stream chan0 nsamp chans k g ecc s).lbox = s.lbox ∧ (sendDriveFrame q group stream chan0 nsamp chans k g ecc s).pins = s.pins ∧ (sendDriveFrame q group stream chan0 nsamp chans k g ecc s).tOffset = s.tOffset ∧ (sendDriveFrame q group stream chan0 nsamp chans k g ecc s).boot = s.boot ∧ (sendDriveFrame q group stream chan0 nsamp chans k g ecc s).chan = s.chan ∧ (sendDriveFrame q group stream chan0 nsamp chans k g ecc s).glint = s.glint ∧ (sendDriveFrame q group stream chan0 nsamp chans k g ecc s).cond = s.cond ∧ (sendDriveFrame q group stream chan0 nsamp chans k g ecc s).corr = s.corr ∧ (sendDriveFrame q group stream chan0 nsamp chans k g ecc s).tb = s.tb ∧ (sendDriveFrame q group stream chan0 nsamp chans k g ecc s).now = s.now := by
  generalize hr : sendDriveFrame q group stream chan0 nsamp chans k g ecc s = r
  simp only [sendDriveFrame] at hr
  repeat' split at hr
  all_goals (subst hr; simp)
theorem execDriveFrameSend_frame (t : Tick) (q : Fin 16) (group : Fin 16) (stream : BitVec 16) (chan0 : BitVec 16) (nch : ℕ) (nsamp : ℕ) (ecc : List Ecc) (s : State) {t_ : State} (h : execDriveFrameSend t q group stream chan0 nch nsamp ecc s = .next t_) :
    t_.pending = s.pending ∧ t_.audio = s.audio ∧ t_.lbox = s.lbox ∧ t_.pins = s.pins ∧ t_.tOffset = (s.advance t).tOffset ∧ t_.boot = s.boot ∧ t_.chan = s.chan ∧ t_.glint = s.glint ∧ t_.cond = s.cond ∧ t_.corr = s.corr ∧ t_.tb = (s.advance t).tb ∧ t_.now = (s.advance t).now := by
  simp only [execDriveFrameSend] at h
  repeat' split at h
  all_goals (cases h; simp)
@[simp] theorem endBlank_frame (entry : ℕ) (after : ℕ) (s : State) :
    (endBlank entry after s).pending = s.pending ∧ (endBlank entry after s).audio = s.audio ∧ (endBlank entry after s).lbox = s.lbox ∧ (endBlank entry after s).pins = s.pins ∧ (endBlank entry after s).tOffset = s.tOffset ∧ (endBlank entry after s).boot = s.boot ∧ (endBlank entry after s).chan = s.chan ∧ (endBlank entry after s).hbm = s.hbm ∧ (endBlank entry after s).cond = s.cond ∧ (endBlank entry after s).tx = s.tx ∧ (endBlank entry after s).corr = s.corr ∧ (endBlank entry after s).link = s.link ∧ (endBlank entry after s).twin = s.twin ∧ (endBlank entry after s).mgmt = s.mgmt ∧ (endBlank entry after s).host = s.host ∧ (endBlank entry after s).out = s.out ∧ (endBlank entry after s).free = s.free ∧ (endBlank entry after s).tb = s.tb ∧ (endBlank entry after s).now = s.now := by
  simp [endBlank]
@[simp] theorem finishAfter_frame (after : ℕ) (id : ℕ) (status : ℕ) (info : ℕ) (s : State) :
    (finishAfter after id status info s).pending = s.pending ∧ (finishAfter after id status info s).audio = s.audio ∧ (finishAfter after id status info s).lbox = s.lbox ∧ (finishAfter after id status info s).pins = s.pins ∧ (finishAfter after id status info s).tOffset = s.tOffset ∧ (finishAfter after id status info s).boot = s.boot ∧ (finishAfter after id status info s).chan = s.chan ∧ (finishAfter after id status info s).hbm = s.hbm ∧ (finishAfter after id status info s).cond = s.cond ∧ (finishAfter after id status info s).corr = s.corr ∧ (finishAfter after id status info s).link = s.link ∧ (finishAfter after id status info s).twin = s.twin ∧ (finishAfter after id status info s).free = s.free ∧ (finishAfter after id status info s).tb = s.tb ∧ (finishAfter after id status info s).now = s.now := by
  generalize hr : finishAfter after id status info s = r
  simp only [finishAfter] at hr
  repeat' split at hr
  all_goals (subst hr; simp)
@[simp] theorem finishStart_frame (id : ℕ) (status : ℕ) (info : ℕ) (s : State) :
    (finishStart id status info s).pending = s.pending ∧ (finishStart id status info s).audio = s.audio ∧ (finishStart id status info s).lbox = s.lbox ∧ (finishStart id status info s).pins = s.pins ∧ (finishStart id status info s).tOffset = s.tOffset ∧ (finishStart id status info s).boot = s.boot ∧ (finishStart id status info s).chan = s.chan ∧ (finishStart id status info s).hbm = s.hbm ∧ (finishStart id status info s).cond = s.cond ∧ (finishStart id status info s).corr = s.corr ∧ (finishStart id status info s).link = s.link ∧ (finishStart id status info s).twin = s.twin ∧ (finishStart id status info s).free = s.free ∧ (finishStart id status info s).tb = s.tb ∧ (finishStart id status info s).now = s.now := by
  generalize hr : finishStart id status info s = r
  simp only [finishStart] at hr
  repeat' split at hr
  all_goals (subst hr; simp)
@[simp] theorem drain_frame (slot : ℕ) (s : State) :
    (drain slot s).pending = s.pending ∧ (drain slot s).audio = s.audio ∧ (drain slot s).lbox = s.lbox ∧ (drain slot s).pins = s.pins ∧ (drain slot s).tOffset = s.tOffset ∧ (drain slot s).boot = s.boot ∧ (drain slot s).chan = s.chan ∧ (drain slot s).hbm = s.hbm ∧ (drain slot s).glint = s.glint ∧ (drain slot s).cond = s.cond ∧ (drain slot s).corr = s.corr ∧ (drain slot s).link = s.link ∧ (drain slot s).twin = s.twin ∧ (drain slot s).mgmt = s.mgmt ∧ (drain slot s).host = s.host ∧ (drain slot s).out = s.out ∧ (drain slot s).free = s.free ∧ (drain slot s).tb = s.tb ∧ (drain slot s).now = s.now := by
  generalize hr : drain slot s = r
  simp only [drain] at hr
  repeat' split at hr
  all_goals (subst hr; simp)
@[simp] theorem rampBeam_frame (T : ℕ) (slot : ℕ) (s : State) :
    (rampBeam T slot s).pending = s.pending ∧ (rampBeam T slot s).audio = s.audio ∧ (rampBeam T slot s).lbox = s.lbox ∧ (rampBeam T slot s).pins = s.pins ∧ (rampBeam T slot s).tOffset = s.tOffset ∧ (rampBeam T slot s).boot = s.boot ∧ (rampBeam T slot s).chan = s.chan ∧ (rampBeam T slot s).hbm = s.hbm ∧ (rampBeam T slot s).glint = s.glint ∧ (rampBeam T slot s).cond = s.cond ∧ (rampBeam T slot s).corr = s.corr ∧ (rampBeam T slot s).link = s.link ∧ (rampBeam T slot s).twin = s.twin ∧ (rampBeam T slot s).mgmt = s.mgmt ∧ (rampBeam T slot s).host = s.host ∧ (rampBeam T slot s).out = s.out ∧ (rampBeam T slot s).free = s.free ∧ (rampBeam T slot s).tb = s.tb ∧ (rampBeam T slot s).now = s.now := by
  generalize hr : rampBeam T slot s = r
  simp only [rampBeam] at hr
  repeat' split at hr
  all_goals (subst hr; simp)
@[simp] theorem stopStart_frame (id : ℕ) (T : ℕ) (status : ℕ) (info : ℕ) (s : State) :
    (stopStart id T status info s).pending = s.pending ∧ (stopStart id T status info s).audio = s.audio ∧ (stopStart id T status info s).lbox = s.lbox ∧ (stopStart id T status info s).pins = s.pins ∧ (stopStart id T status info s).tOffset = s.tOffset ∧ (stopStart id T status info s).boot = s.boot ∧ (stopStart id T status info s).chan = s.chan ∧ (stopStart id T status info s).hbm = s.hbm ∧ (stopStart id T status info s).cond = s.cond ∧ (stopStart id T status info s).corr = s.corr ∧ (stopStart id T status info s).link = s.link ∧ (stopStart id T status info s).twin = s.twin ∧ (stopStart id T status info s).free = s.free ∧ (stopStart id T status info s).tb = s.tb ∧ (stopStart id T status info s).now = s.now := by
  simp [stopStart]
@[simp] theorem beginProgram_frame (id : ℕ) (tS : ℤ) (s : State) :
    (beginProgram id tS s).pending = s.pending ∧ (beginProgram id tS s).audio = s.audio ∧ (beginProgram id tS s).lbox = s.lbox ∧ (beginProgram id tS s).pins = s.pins ∧ (beginProgram id tS s).tOffset = s.tOffset ∧ (beginProgram id tS s).boot = s.boot ∧ (beginProgram id tS s).chan = s.chan ∧ (beginProgram id tS s).hbm = s.hbm ∧ (beginProgram id tS s).cond = s.cond ∧ (beginProgram id tS s).corr = s.corr ∧ (beginProgram id tS s).link = s.link ∧ (beginProgram id tS s).twin = s.twin ∧ (beginProgram id tS s).tb = s.tb ∧ (beginProgram id tS s).now = s.now := by
  generalize hr : beginProgram id tS s = r
  simp only [beginProgram] at hr
  repeat' split at hr
  all_goals (subst hr; simp)
@[simp] theorem beginEcho_frame (id : ℕ) (c : EchoCmd) (tS : ℤ) (s : State) :
    (beginEcho id c tS s).pending = s.pending ∧ (beginEcho id c tS s).audio = s.audio ∧ (beginEcho id c tS s).lbox = s.lbox ∧ (beginEcho id c tS s).pins = s.pins ∧ (beginEcho id c tS s).tOffset = s.tOffset ∧ (beginEcho id c tS s).boot = s.boot ∧ (beginEcho id c tS s).chan = s.chan ∧ (beginEcho id c tS s).hbm = s.hbm ∧ (beginEcho id c tS s).cond = s.cond ∧ (beginEcho id c tS s).corr = s.corr ∧ (beginEcho id c tS s).link = s.link ∧ (beginEcho id c tS s).twin = s.twin ∧ (beginEcho id c tS s).free = s.free ∧ (beginEcho id c tS s).tb = s.tb ∧ (beginEcho id c tS s).now = s.now := by
  generalize hr : beginEcho id c tS s = r
  simp only [beginEcho] at hr
  repeat' split at hr
  all_goals (subst hr; simp)
@[simp] theorem beginStart_frame (id : ℕ) (tS : ℤ) (s : State) :
    (beginStart id tS s).pending = s.pending ∧ (beginStart id tS s).audio = s.audio ∧ (beginStart id tS s).lbox = s.lbox ∧ (beginStart id tS s).pins = s.pins ∧ (beginStart id tS s).tOffset = s.tOffset ∧ (beginStart id tS s).boot = s.boot ∧ (beginStart id tS s).chan = s.chan ∧ (beginStart id tS s).hbm = s.hbm ∧ (beginStart id tS s).cond = s.cond ∧ (beginStart id tS s).corr = s.corr ∧ (beginStart id tS s).link = s.link ∧ (beginStart id tS s).twin = s.twin ∧ (beginStart id tS s).tb = s.tb ∧ (beginStart id tS s).now = s.now := by
  generalize hr : beginStart id tS s = r
  simp only [beginStart] at hr
  repeat' split at hr
  all_goals (subst hr; simp)
@[simp] theorem echoEntry_frame (e : ℕ) (r : EchoRes) (proposal : ℤ) (s : State) :
    (echoEntry e r proposal s).2.pending = s.pending ∧ (echoEntry e r proposal s).2.audio = s.audio ∧ (echoEntry e r proposal s).2.lbox = s.lbox ∧ (echoEntry e r proposal s).2.pins = s.pins ∧ (echoEntry e r proposal s).2.tOffset = s.tOffset ∧ (echoEntry e r proposal s).2.boot = s.boot ∧ (echoEntry e r proposal s).2.chan = s.chan ∧ (echoEntry e r proposal s).2.hbm = s.hbm ∧ (echoEntry e r proposal s).2.glint = s.glint ∧ (echoEntry e r proposal s).2.cond = s.cond ∧ (echoEntry e r proposal s).2.tx = s.tx ∧ (echoEntry e r proposal s).2.corr = s.corr ∧ (echoEntry e r proposal s).2.link = s.link ∧ (echoEntry e r proposal s).2.twin = s.twin ∧ (echoEntry e r proposal s).2.mgmt = s.mgmt ∧ (echoEntry e r proposal s).2.host = s.host ∧ (echoEntry e r proposal s).2.out = s.out ∧ (echoEntry e r proposal s).2.tb = s.tb ∧ (echoEntry e r proposal s).2.now = s.now := by
  simp [echoEntry]
@[simp] theorem echoRecord_frame (k : EchoRun) (abandoned : Bool) (s : State) :
    (echoRecord k abandoned s).pending = s.pending ∧ (echoRecord k abandoned s).audio = s.audio ∧ (echoRecord k abandoned s).lbox = s.lbox ∧ (echoRecord k abandoned s).pins = s.pins ∧ (echoRecord k abandoned s).tOffset = s.tOffset ∧ (echoRecord k abandoned s).boot = s.boot ∧ (echoRecord k abandoned s).chan = s.chan ∧ (echoRecord k abandoned s).cond = s.cond ∧ (echoRecord k abandoned s).corr = s.corr ∧ (echoRecord k abandoned s).link = s.link ∧ (echoRecord k abandoned s).tb = s.tb ∧ (echoRecord k abandoned s).now = s.now := by
  simp [echoRecord]
@[simp] theorem abandonEcho_frame (s : State) :
    (abandonEcho s).pending = s.pending ∧ (abandonEcho s).audio = s.audio ∧ (abandonEcho s).lbox = s.lbox ∧ (abandonEcho s).pins = s.pins ∧ (abandonEcho s).tOffset = s.tOffset ∧ (abandonEcho s).boot = s.boot ∧ (abandonEcho s).chan = s.chan ∧ (abandonEcho s).cond = s.cond ∧ (abandonEcho s).corr = s.corr ∧ (abandonEcho s).link = s.link ∧ (abandonEcho s).tb = s.tb ∧ (abandonEcho s).now = s.now := by
  generalize hr : abandonEcho s = r
  simp only [abandonEcho] at hr
  repeat' split at hr
  all_goals (subst hr; simp)
@[simp] theorem preempt_frame (x : Start) (s : State) :
    (preempt x s).pending = s.pending ∧ (preempt x s).audio = s.audio ∧ (preempt x s).lbox = s.lbox ∧ (preempt x s).pins = s.pins ∧ (preempt x s).tOffset = s.tOffset ∧ (preempt x s).boot = s.boot ∧ (preempt x s).chan = s.chan ∧ (preempt x s).hbm = s.hbm ∧ (preempt x s).cond = s.cond ∧ (preempt x s).corr = s.corr ∧ (preempt x s).link = s.link ∧ (preempt x s).twin = s.twin ∧ (preempt x s).free = s.free ∧ (preempt x s).tb = s.tb ∧ (preempt x s).now = s.now := by
  generalize hr : preempt x s = r
  simp only [preempt] at hr
  repeat' split at hr
  all_goals (subst hr; simp)
@[simp] theorem beginOrRamp_frame (id : ℕ) (x : Start) (s : State) :
    (beginOrRamp id x s).pending = s.pending ∧ (beginOrRamp id x s).audio = s.audio ∧ (beginOrRamp id x s).lbox = s.lbox ∧ (beginOrRamp id x s).pins = s.pins ∧ (beginOrRamp id x s).tOffset = s.tOffset ∧ (beginOrRamp id x s).boot = s.boot ∧ (beginOrRamp id x s).chan = s.chan ∧ (beginOrRamp id x s).hbm = s.hbm ∧ (beginOrRamp id x s).cond = s.cond ∧ (beginOrRamp id x s).corr = s.corr ∧ (beginOrRamp id x s).link = s.link ∧ (beginOrRamp id x s).twin = s.twin ∧ (beginOrRamp id x s).tb = s.tb ∧ (beginOrRamp id x s).now = s.now := by
  generalize hr : beginOrRamp id x s = r
  simp only [beginOrRamp] at hr
  repeat' split at hr
  all_goals (subst hr; simp)
@[simp] theorem fallDue_frame (id : ℕ) (x : Start) (s : State) :
    (fallDue id x s).pending = s.pending ∧ (fallDue id x s).audio = s.audio ∧ (fallDue id x s).lbox = s.lbox ∧ (fallDue id x s).pins = s.pins ∧ (fallDue id x s).tOffset = s.tOffset ∧ (fallDue id x s).boot = s.boot ∧ (fallDue id x s).chan = s.chan ∧ (fallDue id x s).cond = s.cond ∧ (fallDue id x s).corr = s.corr ∧ (fallDue id x s).link = s.link ∧ (fallDue id x s).tb = s.tb ∧ (fallDue id x s).now = s.now := by
  generalize hr : fallDue id x s = r
  simp only [fallDue] at hr
  repeat' split at hr
  all_goals (subst hr; simp)
theorem execTransmitStartDue_frame (t : Tick) (s : State) {t_ : State} (h : execTransmitStartDue t s = .next t_) :
    t_.pending = s.pending ∧ t_.audio = s.audio ∧ t_.lbox = s.lbox ∧ t_.pins = s.pins ∧ t_.tOffset = (s.advance t).tOffset ∧ t_.boot = s.boot ∧ t_.chan = s.chan ∧ t_.cond = s.cond ∧ t_.corr = s.corr ∧ t_.link = s.link ∧ t_.tb = (s.advance t).tb ∧ t_.now = (s.advance t).now := by
  simp only [execTransmitStartDue] at h
  repeat' split at h
  all_goals (cases h; simp)
theorem execHeldStartReady_frame (t : Tick) (start : ℕ) (s : State) {t_ : State} (h : execHeldStartReady t start s = .next t_) :
    t_.pending = s.pending ∧ t_.audio = s.audio ∧ t_.lbox = s.lbox ∧ t_.pins = s.pins ∧ t_.tOffset = (s.advance t).tOffset ∧ t_.boot = s.boot ∧ t_.chan = s.chan ∧ t_.hbm = s.hbm ∧ t_.cond = s.cond ∧ t_.corr = s.corr ∧ t_.link = s.link ∧ t_.twin = s.twin ∧ t_.tb = (s.advance t).tb ∧ t_.now = (s.advance t).now := by
  simp only [execHeldStartReady] at h
  repeat' split at h
  all_goals (cases h; simp)
@[simp] theorem queueStart_frame (id : ℕ) (o : Origin) (program : ℕ) (tS : Option ℕ) (flags : ℕ) (s : State) :
    (queueStart id o program tS flags s).pending = s.pending ∧ (queueStart id o program tS flags s).audio = s.audio ∧ (queueStart id o program tS flags s).lbox = s.lbox ∧ (queueStart id o program tS flags s).pins = s.pins ∧ (queueStart id o program tS flags s).tOffset = s.tOffset ∧ (queueStart id o program tS flags s).boot = s.boot ∧ (queueStart id o program tS flags s).chan = s.chan ∧ (queueStart id o program tS flags s).hbm = s.hbm ∧ (queueStart id o program tS flags s).glint = s.glint ∧ (queueStart id o program tS flags s).cond = s.cond ∧ (queueStart id o program tS flags s).corr = s.corr ∧ (queueStart id o program tS flags s).link = s.link ∧ (queueStart id o program tS flags s).twin = s.twin ∧ (queueStart id o program tS flags s).mgmt = s.mgmt ∧ (queueStart id o program tS flags s).host = s.host ∧ (queueStart id o program tS flags s).out = s.out ∧ (queueStart id o program tS flags s).free = s.free ∧ (queueStart id o program tS flags s).tb = s.tb ∧ (queueStart id o program tS flags s).now = s.now := by
  simp [queueStart]
@[simp] theorem startNow_frame (d : Desc) (id : ℕ) (T : ℕ) (paired : Bool) (s : State) :
    (startNow d id T paired s).pending = s.pending ∧ (startNow d id T paired s).audio = s.audio ∧ (startNow d id T paired s).lbox = s.lbox ∧ (startNow d id T paired s).pins = s.pins ∧ (startNow d id T paired s).tOffset = s.tOffset ∧ (startNow d id T paired s).boot = s.boot ∧ (startNow d id T paired s).chan = s.chan ∧ (startNow d id T paired s).hbm = s.hbm ∧ (startNow d id T paired s).glint = s.glint ∧ (startNow d id T paired s).cond = s.cond ∧ (startNow d id T paired s).corr = s.corr ∧ (startNow d id T paired s).link = s.link ∧ (startNow d id T paired s).twin = s.twin ∧ (startNow d id T paired s).mgmt = s.mgmt ∧ (startNow d id T paired s).host = s.host ∧ (startNow d id T paired s).out = s.out ∧ (startNow d id T paired s).free = s.free ∧ (startNow d id T paired s).tb = s.tb ∧ (startNow d id T paired s).now = s.now := by
  simp [startNow]
@[simp] theorem effectStart_frame (d : Desc) (T : ℕ) (s : State) :
    (effectStart d T s).pending = s.pending ∧ (effectStart d T s).audio = s.audio ∧ (effectStart d T s).lbox = s.lbox ∧ (effectStart d T s).pins = s.pins ∧ (effectStart d T s).tOffset = s.tOffset ∧ (effectStart d T s).boot = s.boot ∧ (effectStart d T s).chan = s.chan ∧ (effectStart d T s).hbm = s.hbm ∧ (effectStart d T s).glint = s.glint ∧ (effectStart d T s).cond = s.cond ∧ (effectStart d T s).corr = s.corr ∧ (effectStart d T s).link = s.link ∧ (effectStart d T s).twin = s.twin ∧ (effectStart d T s).mgmt = s.mgmt ∧ (effectStart d T s).host = s.host ∧ (effectStart d T s).out = s.out ∧ (effectStart d T s).free = s.free ∧ (effectStart d T s).tb = s.tb ∧ (effectStart d T s).now = s.now := by
  generalize hr : effectStart d T s = r
  simp only [effectStart] at hr
  repeat' split at hr
  all_goals (subst hr; simp)
@[simp] theorem deferStart_frame (d : Desc) (w : Work) (s : State) :
    (deferStart d w s).pending = s.pending ∧ (deferStart d w s).audio = s.audio ∧ (deferStart d w s).lbox = s.lbox ∧ (deferStart d w s).pins = s.pins ∧ (deferStart d w s).tOffset = s.tOffset ∧ (deferStart d w s).boot = s.boot ∧ (deferStart d w s).chan = s.chan ∧ (deferStart d w s).hbm = s.hbm ∧ (deferStart d w s).glint = s.glint ∧ (deferStart d w s).cond = s.cond ∧ (deferStart d w s).corr = s.corr ∧ (deferStart d w s).link = s.link ∧ (deferStart d w s).twin = s.twin ∧ (deferStart d w s).mgmt = s.mgmt ∧ (deferStart d w s).out = s.out ∧ (deferStart d w s).free = s.free ∧ (deferStart d w s).tb = s.tb ∧ (deferStart d w s).now = s.now := by
  simp [deferStart]
@[simp] theorem runTransmitStart_frame (d : Desc) (data : Bytes) (s : State) :
    (runTransmitStart d data s).pending = s.pending ∧ (runTransmitStart d data s).audio = s.audio ∧ (runTransmitStart d data s).lbox = s.lbox ∧ (runTransmitStart d data s).pins = s.pins ∧ (runTransmitStart d data s).tOffset = s.tOffset ∧ (runTransmitStart d data s).boot = s.boot ∧ (runTransmitStart d data s).chan = s.chan ∧ (runTransmitStart d data s).hbm = s.hbm ∧ (runTransmitStart d data s).glint = s.glint ∧ (runTransmitStart d data s).cond = s.cond ∧ (runTransmitStart d data s).corr = s.corr ∧ (runTransmitStart d data s).tb = s.tb ∧ (runTransmitStart d data s).now = s.now := by
  generalize hr : runTransmitStart d data s = r
  simp only [runTransmitStart] at hr
  repeat' split at hr
  all_goals (subst hr; simp)
theorem execTransmitStart_frame (t : Tick) (d : Desc) (data : Bytes) (s : State) {t_ : State} (h : execTransmitStart t d data s = .next t_) :
    t_.pending = s.pending ∧ t_.audio = s.audio ∧ t_.lbox = s.lbox ∧ t_.pins = s.pins ∧ t_.tOffset = (s.advance t).tOffset ∧ t_.boot = s.boot ∧ t_.chan = s.chan ∧ t_.hbm = s.hbm ∧ t_.glint = s.glint ∧ t_.cond = s.cond ∧ t_.corr = s.corr ∧ t_.tb = (s.advance t).tb ∧ t_.now = (s.advance t).now := by
  simp only [execTransmitStart, Host.Outcome.next.injEq] at h
  subst h
  simp
@[simp] theorem stopProgram_frame (prog : ℕ) (T : ℕ) (s : State) :
    (stopProgram prog T s).pending = s.pending ∧ (stopProgram prog T s).audio = s.audio ∧ (stopProgram prog T s).lbox = s.lbox ∧ (stopProgram prog T s).pins = s.pins ∧ (stopProgram prog T s).tOffset = s.tOffset ∧ (stopProgram prog T s).boot = s.boot ∧ (stopProgram prog T s).chan = s.chan ∧ (stopProgram prog T s).hbm = s.hbm ∧ (stopProgram prog T s).cond = s.cond ∧ (stopProgram prog T s).corr = s.corr ∧ (stopProgram prog T s).link = s.link ∧ (stopProgram prog T s).twin = s.twin ∧ (stopProgram prog T s).free = s.free ∧ (stopProgram prog T s).tb = s.tb ∧ (stopProgram prog T s).now = s.now := by
  simp [stopProgram]
@[simp] theorem runTransmitStop_frame (d : Desc) (data : Bytes) (s : State) :
    (runTransmitStop d data s).pending = s.pending ∧ (runTransmitStop d data s).audio = s.audio ∧ (runTransmitStop d data s).lbox = s.lbox ∧ (runTransmitStop d data s).pins = s.pins ∧ (runTransmitStop d data s).tOffset = s.tOffset ∧ (runTransmitStop d data s).boot = s.boot ∧ (runTransmitStop d data s).chan = s.chan ∧ (runTransmitStop d data s).hbm = s.hbm ∧ (runTransmitStop d data s).cond = s.cond ∧ (runTransmitStop d data s).corr = s.corr ∧ (runTransmitStop d data s).tb = s.tb ∧ (runTransmitStop d data s).now = s.now := by
  generalize hr : runTransmitStop d data s = r
  simp only [runTransmitStop] at hr
  repeat' split at hr
  all_goals (subst hr; simp)
theorem execTransmitStop_frame (t : Tick) (d : Desc) (data : Bytes) (s : State) {t_ : State} (h : execTransmitStop t d data s = .next t_) :
    t_.pending = s.pending ∧ t_.audio = s.audio ∧ t_.lbox = s.lbox ∧ t_.pins = s.pins ∧ t_.tOffset = (s.advance t).tOffset ∧ t_.boot = s.boot ∧ t_.chan = s.chan ∧ t_.hbm = s.hbm ∧ t_.cond = s.cond ∧ t_.corr = s.corr ∧ t_.tb = (s.advance t).tb ∧ t_.now = (s.advance t).now := by
  simp only [execTransmitStop, Host.Outcome.next.injEq] at h
  subst h
  simp
theorem execProgramEnd_frame (t : Tick) (start : ℕ) (s : State) {t_ : State} (h : execProgramEnd t start s = .next t_) :
    t_.pending = s.pending ∧ t_.audio = s.audio ∧ t_.lbox = s.lbox ∧ t_.pins = s.pins ∧ t_.tOffset = (s.advance t).tOffset ∧ t_.boot = s.boot ∧ t_.chan = s.chan ∧ t_.hbm = s.hbm ∧ t_.cond = s.cond ∧ t_.corr = s.corr ∧ t_.link = s.link ∧ t_.twin = s.twin ∧ t_.free = s.free ∧ t_.tb = (s.advance t).tb ∧ t_.now = (s.advance t).now := by
  simp only [execProgramEnd] at h
  repeat' split at h
  all_goals (cases h; simp)
@[simp] theorem runEchoCalibration_frame (d : Desc) (data : Bytes) (s : State) :
    (runEchoCalibration d data s).pending = s.pending ∧ (runEchoCalibration d data s).audio = s.audio ∧ (runEchoCalibration d data s).lbox = s.lbox ∧ (runEchoCalibration d data s).pins = s.pins ∧ (runEchoCalibration d data s).tOffset = s.tOffset ∧ (runEchoCalibration d data s).boot = s.boot ∧ (runEchoCalibration d data s).chan = s.chan ∧ (runEchoCalibration d data s).hbm = s.hbm ∧ (runEchoCalibration d data s).glint = s.glint ∧ (runEchoCalibration d data s).cond = s.cond ∧ (runEchoCalibration d data s).corr = s.corr ∧ (runEchoCalibration d data s).link = s.link ∧ (runEchoCalibration d data s).tb = s.tb ∧ (runEchoCalibration d data s).now = s.now := by
  generalize hr : runEchoCalibration d data s = r
  simp only [runEchoCalibration] at hr
  repeat' split at hr
  all_goals (subst hr; simp)
theorem execEchoCalibration_frame (t : Tick) (d : Desc) (data : Bytes) (s : State) {t_ : State} (h : execEchoCalibration t d data s = .next t_) :
    t_.pending = s.pending ∧ t_.audio = s.audio ∧ t_.lbox = s.lbox ∧ t_.pins = s.pins ∧ t_.tOffset = (s.advance t).tOffset ∧ t_.boot = s.boot ∧ t_.chan = s.chan ∧ t_.hbm = s.hbm ∧ t_.glint = s.glint ∧ t_.cond = s.cond ∧ t_.corr = s.corr ∧ t_.link = s.link ∧ t_.tb = (s.advance t).tb ∧ t_.now = (s.advance t).now := by
  simp only [execEchoCalibration, Host.Outcome.next.injEq] at h
  subst h
  simp
@[simp] theorem sendProbe_frame (k : EchoRun) (m : DriveEntry) (g : DriveGroup) (ki : ℕ) (D : ℕ) (s : State) :
    (sendProbe k m g ki D s).pending = s.pending ∧ (sendProbe k m g ki D s).audio = s.audio ∧ (sendProbe k m g ki D s).lbox = s.lbox ∧ (sendProbe k m g ki D s).pins = s.pins ∧ (sendProbe k m g ki D s).tOffset = s.tOffset ∧ (sendProbe k m g ki D s).boot = s.boot ∧ (sendProbe k m g ki D s).chan = s.chan ∧ (sendProbe k m g ki D s).hbm = s.hbm ∧ (sendProbe k m g ki D s).glint = s.glint ∧ (sendProbe k m g ki D s).cond = s.cond ∧ (sendProbe k m g ki D s).corr = s.corr ∧ (sendProbe k m g ki D s).link = s.link ∧ (sendProbe k m g ki D s).twin = s.twin ∧ (sendProbe k m g ki D s).mgmt = s.mgmt ∧ (sendProbe k m g ki D s).host = s.host ∧ (sendProbe k m g ki D s).out = s.out ∧ (sendProbe k m g ki D s).free = s.free ∧ (sendProbe k m g ki D s).tb = s.tb ∧ (sendProbe k m g ki D s).now = s.now := by
  simp [sendProbe]
theorem execEchoRepeat_frame (t : Tick) (s : State) {t_ : State} (h : execEchoRepeat t s = .next t_) :
    t_.pending = s.pending ∧ t_.audio = s.audio ∧ t_.lbox = s.lbox ∧ t_.pins = s.pins ∧ t_.tOffset = (s.advance t).tOffset ∧ t_.boot = s.boot ∧ t_.chan = s.chan ∧ t_.hbm = s.hbm ∧ t_.glint = s.glint ∧ t_.cond = s.cond ∧ t_.corr = s.corr ∧ t_.link = s.link ∧ t_.twin = s.twin ∧ t_.mgmt = s.mgmt ∧ t_.host = s.host ∧ t_.out = s.out ∧ t_.free = s.free ∧ t_.tb = (s.advance t).tb ∧ t_.now = (s.advance t).now := by
  simp only [execEchoRepeat] at h
  repeat' split at h
  all_goals (cases h; simp)
theorem execEchoRecord_frame (t : Tick) (s : State) {t_ : State} (h : execEchoRecord t s = .next t_) :
    t_.pending = s.pending ∧ t_.audio = s.audio ∧ t_.lbox = s.lbox ∧ t_.pins = s.pins ∧ t_.tOffset = (s.advance t).tOffset ∧ t_.boot = s.boot ∧ t_.chan = s.chan ∧ t_.cond = s.cond ∧ t_.corr = s.corr ∧ t_.link = s.link ∧ t_.tb = (s.advance t).tb ∧ t_.now = (s.advance t).now := by
  simp only [execEchoRecord] at h
  repeat' split at h
  all_goals (cases h; simp)
@[simp] theorem clearMute_frame (e : ℕ) (s : State) :
    (clearMute e s).pending = s.pending ∧ (clearMute e s).audio = s.audio ∧ (clearMute e s).lbox = s.lbox ∧ (clearMute e s).pins = s.pins ∧ (clearMute e s).tOffset = s.tOffset ∧ (clearMute e s).boot = s.boot ∧ (clearMute e s).chan = s.chan ∧ (clearMute e s).hbm = s.hbm ∧ (clearMute e s).glint = s.glint ∧ (clearMute e s).cond = s.cond ∧ (clearMute e s).corr = s.corr ∧ (clearMute e s).link = s.link ∧ (clearMute e s).twin = s.twin ∧ (clearMute e s).free = s.free ∧ (clearMute e s).tb = s.tb ∧ (clearMute e s).now = s.now := by
  generalize hr : clearMute e s = r
  simp only [clearMute] at hr
  repeat' split at hr
  all_goals (subst hr; simp)
@[simp] theorem evalBlock_frame (m : DriveEntry) (g : DriveGroup) (q : ℕ) (s : State) :
    (evalBlock m g q s).pending = s.pending ∧ (evalBlock m g q s).audio = s.audio ∧ (evalBlock m g q s).lbox = s.lbox ∧ (evalBlock m g q s).pins = s.pins ∧ (evalBlock m g q s).tOffset = s.tOffset ∧ (evalBlock m g q s).boot = s.boot ∧ (evalBlock m g q s).chan = s.chan ∧ (evalBlock m g q s).hbm = s.hbm ∧ (evalBlock m g q s).glint = s.glint ∧ (evalBlock m g q s).cond = s.cond ∧ (evalBlock m g q s).corr = s.corr ∧ (evalBlock m g q s).link = s.link ∧ (evalBlock m g q s).twin = s.twin ∧ (evalBlock m g q s).free = s.free ∧ (evalBlock m g q s).tb = s.tb ∧ (evalBlock m g q s).now = s.now := by
  generalize hr : evalBlock m g q s = r
  simp only [evalBlock] at hr
  repeat' split at hr
  all_goals (subst hr; simp [apply_ite State.pending, apply_ite State.audio, apply_ite State.lbox, apply_ite State.pins, apply_ite State.tOffset, apply_ite State.boot, apply_ite State.chan, apply_ite State.hbm, apply_ite State.glint, apply_ite State.cond, apply_ite State.corr, apply_ite State.link, apply_ite State.twin, apply_ite State.free, apply_ite State.tb, apply_ite State.now, ite_self])
@[simp] theorem takeSense_frame (m : DriveEntry) (g : DriveGroup) (j : ℕ) (x : Sense) (s : State) :
    (takeSense m g j x s).pending = s.pending ∧ (takeSense m g j x s).audio = s.audio ∧ (takeSense m g j x s).lbox = s.lbox ∧ (takeSense m g j x s).pins = s.pins ∧ (takeSense m g j x s).tOffset = s.tOffset ∧ (takeSense m g j x s).boot = s.boot ∧ (takeSense m g j x s).chan = s.chan ∧ (takeSense m g j x s).hbm = s.hbm ∧ (takeSense m g j x s).glint = s.glint ∧ (takeSense m g j x s).cond = s.cond ∧ (takeSense m g j x s).corr = s.corr ∧ (takeSense m g j x s).link = s.link ∧ (takeSense m g j x s).twin = s.twin ∧ (takeSense m g j x s).free = s.free ∧ (takeSense m g j x s).tb = s.tb ∧ (takeSense m g j x s).now = s.now := by
  generalize hr : takeSense m g j x s = r
  simp only [takeSense] at hr
  repeat' split at hr
  all_goals (subst hr; simp)
@[simp] theorem senseSample_frame (f : RawFrame) (ms : List DriveEntry) (s : State) (i : ℕ) :
    (senseSample f ms s i).pending = s.pending ∧ (senseSample f ms s i).audio = s.audio ∧ (senseSample f ms s i).lbox = s.lbox ∧ (senseSample f ms s i).pins = s.pins ∧ (senseSample f ms s i).tOffset = s.tOffset ∧ (senseSample f ms s i).boot = s.boot ∧ (senseSample f ms s i).chan = s.chan ∧ (senseSample f ms s i).hbm = s.hbm ∧ (senseSample f ms s i).glint = s.glint ∧ (senseSample f ms s i).cond = s.cond ∧ (senseSample f ms s i).corr = s.corr ∧ (senseSample f ms s i).link = s.link ∧ (senseSample f ms s i).twin = s.twin ∧ (senseSample f ms s i).free = s.free ∧ (senseSample f ms s i).tb = s.tb ∧ (senseSample f ms s i).now = s.now := by
  generalize hr : senseSample f ms s i = r
  simp only [senseSample] at hr
  repeat' split at hr
  all_goals (subst hr; simp)
@[simp] theorem senseSamples_frame (f : RawFrame) (s : State) :
    (senseSamples f s).pending = s.pending ∧ (senseSamples f s).audio = s.audio ∧ (senseSamples f s).lbox = s.lbox ∧ (senseSamples f s).pins = s.pins ∧ (senseSamples f s).tOffset = s.tOffset ∧ (senseSamples f s).boot = s.boot ∧ (senseSamples f s).chan = s.chan ∧ (senseSamples f s).hbm = s.hbm ∧ (senseSamples f s).glint = s.glint ∧ (senseSamples f s).cond = s.cond ∧ (senseSamples f s).corr = s.corr ∧ (senseSamples f s).link = s.link ∧ (senseSamples f s).twin = s.twin ∧ (senseSamples f s).free = s.free ∧ (senseSamples f s).tb = s.tb ∧ (senseSamples f s).now = s.now := by
  simp [senseSamples]
theorem execSenseFrame_frame (t : Tick) (q : Fin 16) (f : RawFrame) (s : State) {t_ : State} (h : execSenseFrame t q f s = .next t_) :
    t_.pending = s.pending ∧ t_.audio = s.audio ∧ t_.lbox = s.lbox ∧ t_.pins = s.pins ∧ t_.tOffset = (s.advance t).tOffset ∧ t_.boot = s.boot ∧ t_.chan = s.chan ∧ t_.hbm = s.hbm ∧ t_.glint = s.glint ∧ t_.cond = s.cond ∧ t_.corr = s.corr ∧ t_.twin = s.twin ∧ t_.free = s.free ∧ t_.tb = (s.advance t).tb ∧ t_.now = (s.advance t).now := by
  simp only [execSenseFrame] at h
  repeat' split at h
  all_goals (cases h; simp)
theorem execLoadWatchEval_frame (t : Tick) (e : Fin 16384) (s : State) {t_ : State} (h : execLoadWatchEval t e s = .next t_) :
    t_.pending = s.pending ∧ t_.audio = s.audio ∧ t_.lbox = s.lbox ∧ t_.pins = s.pins ∧ t_.tOffset = (s.advance t).tOffset ∧ t_.boot = s.boot ∧ t_.chan = s.chan ∧ t_.hbm = s.hbm ∧ t_.glint = s.glint ∧ t_.cond = s.cond ∧ t_.corr = s.corr ∧ t_.link = s.link ∧ t_.twin = s.twin ∧ t_.free = s.free ∧ t_.tb = (s.advance t).tb ∧ t_.now = (s.advance t).now := by
  simp only [execLoadWatchEval] at h
  repeat' split at h
  all_goals (cases h; simp)
@[simp] theorem runLoadWatchClear_frame (d : Desc) (data : Bytes) (s : State) :
    (runLoadWatchClear d data s).pending = s.pending ∧ (runLoadWatchClear d data s).audio = s.audio ∧ (runLoadWatchClear d data s).lbox = s.lbox ∧ (runLoadWatchClear d data s).pins = s.pins ∧ (runLoadWatchClear d data s).tOffset = s.tOffset ∧ (runLoadWatchClear d data s).boot = s.boot ∧ (runLoadWatchClear d data s).chan = s.chan ∧ (runLoadWatchClear d data s).hbm = s.hbm ∧ (runLoadWatchClear d data s).glint = s.glint ∧ (runLoadWatchClear d data s).cond = s.cond ∧ (runLoadWatchClear d data s).corr = s.corr ∧ (runLoadWatchClear d data s).tb = s.tb ∧ (runLoadWatchClear d data s).now = s.now := by
  generalize hr : runLoadWatchClear d data s = r
  simp only [runLoadWatchClear] at hr
  repeat' split at hr
  all_goals (subst hr; simp)
theorem execLoadWatchClear_frame (t : Tick) (d : Desc) (data : Bytes) (s : State) {t_ : State} (h : execLoadWatchClear t d data s = .next t_) :
    t_.pending = s.pending ∧ t_.audio = s.audio ∧ t_.lbox = s.lbox ∧ t_.pins = s.pins ∧ t_.tOffset = (s.advance t).tOffset ∧ t_.boot = s.boot ∧ t_.chan = s.chan ∧ t_.hbm = s.hbm ∧ t_.glint = s.glint ∧ t_.cond = s.cond ∧ t_.corr = s.corr ∧ t_.tb = (s.advance t).tb ∧ t_.now = (s.advance t).now := by
  simp only [execLoadWatchClear, Host.Outcome.next.injEq] at h
  subst h
  simp
@[simp] theorem drivePins_frame (s : State) :
    (drivePins s).pending = s.pending ∧ (drivePins s).audio = s.audio ∧ (drivePins s).lbox = s.lbox ∧ (drivePins s).tOffset = s.tOffset ∧ (drivePins s).boot = s.boot ∧ (drivePins s).chan = s.chan ∧ (drivePins s).hbm = s.hbm ∧ (drivePins s).glint = s.glint ∧ (drivePins s).cond = s.cond ∧ (drivePins s).tx = s.tx ∧ (drivePins s).corr = s.corr ∧ (drivePins s).link = s.link ∧ (drivePins s).twin = s.twin ∧ (drivePins s).mgmt = s.mgmt ∧ (drivePins s).host = s.host ∧ (drivePins s).out = s.out ∧ (drivePins s).free = s.free ∧ (drivePins s).tb = s.tb ∧ (drivePins s).now = s.now := by
  generalize hr : drivePins s = r
  simp only [drivePins] at hr
  repeat' split at hr
  all_goals (subst hr; simp)
@[simp] theorem glintSample_frame (subject : ℕ) (arr : Option ℕ) (s : State) :
    (glintSample subject arr s).pending = s.pending ∧ (glintSample subject arr s).audio = s.audio ∧ (glintSample subject arr s).lbox = s.lbox ∧ (glintSample subject arr s).pins = s.pins ∧ (glintSample subject arr s).tOffset = s.tOffset ∧ (glintSample subject arr s).boot = s.boot ∧ (glintSample subject arr s).chan = s.chan ∧ (glintSample subject arr s).hbm = s.hbm ∧ (glintSample subject arr s).glint = s.glint ∧ (glintSample subject arr s).cond = s.cond ∧ (glintSample subject arr s).tx = s.tx ∧ (glintSample subject arr s).corr = s.corr ∧ (glintSample subject arr s).link = s.link ∧ (glintSample subject arr s).twin = s.twin ∧ (glintSample subject arr s).host = s.host ∧ (glintSample subject arr s).out = s.out ∧ (glintSample subject arr s).free = s.free ∧ (glintSample subject arr s).tb = s.tb ∧ (glintSample subject arr s).now = s.now := by
  simp [glintSample]
@[simp] theorem emitGlint_frame (q : ℕ) (f : RawFrame) (s : State) :
    (emitGlint q f s).pending = s.pending ∧ (emitGlint q f s).audio = s.audio ∧ (emitGlint q f s).lbox = s.lbox ∧ (emitGlint q f s).pins = s.pins ∧ (emitGlint q f s).tOffset = s.tOffset ∧ (emitGlint q f s).boot = s.boot ∧ (emitGlint q f s).chan = s.chan ∧ (emitGlint q f s).hbm = s.hbm ∧ (emitGlint q f s).glint = s.glint ∧ (emitGlint q f s).cond = s.cond ∧ (emitGlint q f s).tx = s.tx ∧ (emitGlint q f s).corr = s.corr ∧ (emitGlint q f s).twin = s.twin ∧ (emitGlint q f s).host = s.host ∧ (emitGlint q f s).free = s.free ∧ (emitGlint q f s).tb = s.tb ∧ (emitGlint q f s).now = s.now := by
  generalize hr : emitGlint q f s = r
  simp only [emitGlint] at hr
  repeat' split at hr
  all_goals (subst hr; simp)
@[simp] theorem sendGlint_frame (arr : Option ℕ) (body : Bytes) (q : ℕ) (s : State) :
    (sendGlint arr body q s).pending = s.pending ∧ (sendGlint arr body q s).audio = s.audio ∧ (sendGlint arr body q s).lbox = s.lbox ∧ (sendGlint arr body q s).pins = s.pins ∧ (sendGlint arr body q s).tOffset = s.tOffset ∧ (sendGlint arr body q s).boot = s.boot ∧ (sendGlint arr body q s).chan = s.chan ∧ (sendGlint arr body q s).hbm = s.hbm ∧ (sendGlint arr body q s).glint = s.glint ∧ (sendGlint arr body q s).cond = s.cond ∧ (sendGlint arr body q s).tx = s.tx ∧ (sendGlint arr body q s).corr = s.corr ∧ (sendGlint arr body q s).twin = s.twin ∧ (sendGlint arr body q s).host = s.host ∧ (sendGlint arr body q s).free = s.free ∧ (sendGlint arr body q s).tb = s.tb ∧ (sendGlint arr body q s).now = s.now := by
  generalize hr : sendGlint arr body q s = r
  simp only [sendGlint] at hr
  repeat' split at hr
  all_goals (subst hr; simp)
@[simp] theorem triggerOut_frame (arr : Option ℕ) (body : Bytes) (s : State) :
    (triggerOut arr body s).pending = s.pending ∧ (triggerOut arr body s).audio = s.audio ∧ (triggerOut arr body s).lbox = s.lbox ∧ (triggerOut arr body s).pins = s.pins ∧ (triggerOut arr body s).tOffset = s.tOffset ∧ (triggerOut arr body s).boot = s.boot ∧ (triggerOut arr body s).chan = s.chan ∧ (triggerOut arr body s).hbm = s.hbm ∧ (triggerOut arr body s).cond = s.cond ∧ (triggerOut arr body s).tx = s.tx ∧ (triggerOut arr body s).corr = s.corr ∧ (triggerOut arr body s).twin = s.twin ∧ (triggerOut arr body s).host = s.host ∧ (triggerOut arr body s).free = s.free ∧ (triggerOut arr body s).tb = s.tb ∧ (triggerOut arr body s).now = s.now := by
  generalize hr : triggerOut arr body s = r
  simp only [triggerOut] at hr
  repeat' split at hr
  all_goals (subst hr; simp)
@[simp] theorem sendPublication_frame (code : ℕ) (id : ℕ) (arr : Option ℕ) (body : Bytes) (md : ℕ) (m : ℕ) (s : State) :
    (sendPublication code id arr body md m s).pending = s.pending ∧ (sendPublication code id arr body md m s).audio = s.audio ∧ (sendPublication code id arr body md m s).lbox = s.lbox ∧ (sendPublication code id arr body md m s).pins = s.pins ∧ (sendPublication code id arr body md m s).tOffset = s.tOffset ∧ (sendPublication code id arr body md m s).boot = s.boot ∧ (sendPublication code id arr body md m s).chan = s.chan ∧ (sendPublication code id arr body md m s).hbm = s.hbm ∧ (sendPublication code id arr body md m s).cond = s.cond ∧ (sendPublication code id arr body md m s).tx = s.tx ∧ (sendPublication code id arr body md m s).corr = s.corr ∧ (sendPublication code id arr body md m s).free = s.free ∧ (sendPublication code id arr body md m s).tb = s.tb ∧ (sendPublication code id arr body md m s).now = s.now := by
  generalize hr : sendPublication code id arr body md m s = r
  simp only [sendPublication] at hr
  repeat' split at hr
  all_goals (subst hr; simp)
@[simp] theorem publishGlint_frame (det : ℕ) (code : ℕ) (e : GlintEvent) (s : State) :
    (publishGlint det code e s).pending = s.pending ∧ (publishGlint det code e s).audio = s.audio ∧ (publishGlint det code e s).lbox = s.lbox ∧ (publishGlint det code e s).pins = s.pins ∧ (publishGlint det code e s).tOffset = s.tOffset ∧ (publishGlint det code e s).boot = s.boot ∧ (publishGlint det code e s).chan = s.chan ∧ (publishGlint det code e s).hbm = s.hbm ∧ (publishGlint det code e s).cond = s.cond ∧ (publishGlint det code e s).tx = s.tx ∧ (publishGlint det code e s).corr = s.corr ∧ (publishGlint det code e s).free = s.free ∧ (publishGlint det code e s).tb = s.tb ∧ (publishGlint det code e s).now = s.now := by
  simp [publishGlint]
@[simp] theorem setDet_frame (d : ℕ) (x : Detector) (s : State) :
    (setDet d x s).pending = s.pending ∧ (setDet d x s).audio = s.audio ∧ (setDet d x s).lbox = s.lbox ∧ (setDet d x s).pins = s.pins ∧ (setDet d x s).tOffset = s.tOffset ∧ (setDet d x s).boot = s.boot ∧ (setDet d x s).chan = s.chan ∧ (setDet d x s).hbm = s.hbm ∧ (setDet d x s).cond = s.cond ∧ (setDet d x s).tx = s.tx ∧ (setDet d x s).corr = s.corr ∧ (setDet d x s).link = s.link ∧ (setDet d x s).twin = s.twin ∧ (setDet d x s).mgmt = s.mgmt ∧ (setDet d x s).host = s.host ∧ (setDet d x s).out = s.out ∧ (setDet d x s).free = s.free ∧ (setDet d x s).tb = s.tb ∧ (setDet d x s).now = s.now := by
  simp [setDet]
@[simp] theorem modEvent_frame (d : ℕ) (f : GlintEvent → GlintEvent) (s : State) :
    (modEvent d f s).pending = s.pending ∧ (modEvent d f s).audio = s.audio ∧ (modEvent d f s).lbox = s.lbox ∧ (modEvent d f s).pins = s.pins ∧ (modEvent d f s).tOffset = s.tOffset ∧ (modEvent d f s).boot = s.boot ∧ (modEvent d f s).chan = s.chan ∧ (modEvent d f s).hbm = s.hbm ∧ (modEvent d f s).cond = s.cond ∧ (modEvent d f s).tx = s.tx ∧ (modEvent d f s).corr = s.corr ∧ (modEvent d f s).link = s.link ∧ (modEvent d f s).twin = s.twin ∧ (modEvent d f s).mgmt = s.mgmt ∧ (modEvent d f s).host = s.host ∧ (modEvent d f s).out = s.out ∧ (modEvent d f s).free = s.free ∧ (modEvent d f s).tb = s.tb ∧ (modEvent d f s).now = s.now := by
  simp [modEvent]
@[simp] theorem setBeam_frame (b : ℕ) (x : BeamRun) (s : State) :
    (setBeam b x s).pending = s.pending ∧ (setBeam b x s).audio = s.audio ∧ (setBeam b x s).lbox = s.lbox ∧ (setBeam b x s).pins = s.pins ∧ (setBeam b x s).tOffset = s.tOffset ∧ (setBeam b x s).boot = s.boot ∧ (setBeam b x s).chan = s.chan ∧ (setBeam b x s).hbm = s.hbm ∧ (setBeam b x s).cond = s.cond ∧ (setBeam b x s).tx = s.tx ∧ (setBeam b x s).corr = s.corr ∧ (setBeam b x s).link = s.link ∧ (setBeam b x s).twin = s.twin ∧ (setBeam b x s).mgmt = s.mgmt ∧ (setBeam b x s).host = s.host ∧ (setBeam b x s).out = s.out ∧ (setBeam b x s).free = s.free ∧ (setBeam b x s).tb = s.tb ∧ (setBeam b x s).now = s.now := by
  simp [setBeam]
@[simp] theorem setMark_frame (layer : ℕ) (m : ℕ) (confirmed : Bool) (s : State) :
    (setMark layer m confirmed s).pending = s.pending ∧ (setMark layer m confirmed s).audio = s.audio ∧ (setMark layer m confirmed s).pins = s.pins ∧ (setMark layer m confirmed s).tOffset = s.tOffset ∧ (setMark layer m confirmed s).boot = s.boot ∧ (setMark layer m confirmed s).chan = s.chan ∧ (setMark layer m confirmed s).hbm = s.hbm ∧ (setMark layer m confirmed s).glint = s.glint ∧ (setMark layer m confirmed s).cond = s.cond ∧ (setMark layer m confirmed s).tx = s.tx ∧ (setMark layer m confirmed s).corr = s.corr ∧ (setMark layer m confirmed s).link = s.link ∧ (setMark layer m confirmed s).twin = s.twin ∧ (setMark layer m confirmed s).mgmt = s.mgmt ∧ (setMark layer m confirmed s).host = s.host ∧ (setMark layer m confirmed s).out = s.out ∧ (setMark layer m confirmed s).free = s.free ∧ (setMark layer m confirmed s).tb = s.tb ∧ (setMark layer m confirmed s).now = s.now := by
  simp [setMark]
@[simp] theorem endMark_frame (layer : ℕ) (m : ℕ) (at_ : ℕ) (s : State) :
    (endMark layer m at_ s).pending = s.pending ∧ (endMark layer m at_ s).audio = s.audio ∧ (endMark layer m at_ s).pins = s.pins ∧ (endMark layer m at_ s).tOffset = s.tOffset ∧ (endMark layer m at_ s).boot = s.boot ∧ (endMark layer m at_ s).chan = s.chan ∧ (endMark layer m at_ s).hbm = s.hbm ∧ (endMark layer m at_ s).glint = s.glint ∧ (endMark layer m at_ s).cond = s.cond ∧ (endMark layer m at_ s).tx = s.tx ∧ (endMark layer m at_ s).corr = s.corr ∧ (endMark layer m at_ s).link = s.link ∧ (endMark layer m at_ s).twin = s.twin ∧ (endMark layer m at_ s).mgmt = s.mgmt ∧ (endMark layer m at_ s).host = s.host ∧ (endMark layer m at_ s).out = s.out ∧ (endMark layer m at_ s).free = s.free ∧ (endMark layer m at_ s).tb = s.tb ∧ (endMark layer m at_ s).now = s.now := by
  simp [endMark]
@[simp] theorem markActions_frame (det : ℕ) (code : ℕ) (e : GlintEvent) (s : State) :
    (markActions det code e s).pending = s.pending ∧ (markActions det code e s).audio = s.audio ∧ (markActions det code e s).pins = s.pins ∧ (markActions det code e s).tOffset = s.tOffset ∧ (markActions det code e s).boot = s.boot ∧ (markActions det code e s).chan = s.chan ∧ (markActions det code e s).hbm = s.hbm ∧ (markActions det code e s).cond = s.cond ∧ (markActions det code e s).tx = s.tx ∧ (markActions det code e s).corr = s.corr ∧ (markActions det code e s).link = s.link ∧ (markActions det code e s).twin = s.twin ∧ (markActions det code e s).mgmt = s.mgmt ∧ (markActions det code e s).host = s.host ∧ (markActions det code e s).out = s.out ∧ (markActions det code e s).free = s.free ∧ (markActions det code e s).tb = s.tb ∧ (markActions det code e s).now = s.now := by
  unfold markActions
  split
  · refine ⟨foldl_pending _ _ _ fun s a => ?_, foldl_audio _ _ _ fun s a => ?_, foldl_pins _ _ _ fun s a => ?_, foldl_tOffset _ _ _ fun s a => ?_, foldl_boot _ _ _ fun s a => ?_, foldl_chan _ _ _ fun s a => ?_, foldl_hbm _ _ _ fun s a => ?_, foldl_cond _ _ _ fun s a => ?_, foldl_tx _ _ _ fun s a => ?_, foldl_corr _ _ _ fun s a => ?_, foldl_link _ _ _ fun s a => ?_, foldl_twin _ _ _ fun s a => ?_, foldl_mgmt _ _ _ fun s a => ?_, foldl_host _ _ _ fun s a => ?_, foldl_out _ _ _ fun s a => ?_, foldl_free _ _ _ fun s a => ?_, foldl_tb _ _ _ fun s a => ?_, foldl_now _ _ _ fun s a => ?_⟩
    all_goals simp
  · refine ⟨foldl_pending _ _ _ fun s a => ?_, foldl_audio _ _ _ fun s a => ?_, foldl_pins _ _ _ fun s a => ?_, foldl_tOffset _ _ _ fun s a => ?_, foldl_boot _ _ _ fun s a => ?_, foldl_chan _ _ _ fun s a => ?_, foldl_hbm _ _ _ fun s a => ?_, foldl_cond _ _ _ fun s a => ?_, foldl_tx _ _ _ fun s a => ?_, foldl_corr _ _ _ fun s a => ?_, foldl_link _ _ _ fun s a => ?_, foldl_twin _ _ _ fun s a => ?_, foldl_mgmt _ _ _ fun s a => ?_, foldl_host _ _ _ fun s a => ?_, foldl_out _ _ _ fun s a => ?_, foldl_free _ _ _ fun s a => ?_, foldl_tb _ _ _ fun s a => ?_, foldl_now _ _ _ fun s a => ?_⟩
    all_goals simp
@[simp] theorem pinActions_frame (det : ℕ) (code : ℕ) (s : State) :
    (pinActions det code s).pending = s.pending ∧ (pinActions det code s).audio = s.audio ∧ (pinActions det code s).lbox = s.lbox ∧ (pinActions det code s).tOffset = s.tOffset ∧ (pinActions det code s).boot = s.boot ∧ (pinActions det code s).chan = s.chan ∧ (pinActions det code s).hbm = s.hbm ∧ (pinActions det code s).cond = s.cond ∧ (pinActions det code s).tx = s.tx ∧ (pinActions det code s).corr = s.corr ∧ (pinActions det code s).link = s.link ∧ (pinActions det code s).twin = s.twin ∧ (pinActions det code s).mgmt = s.mgmt ∧ (pinActions det code s).host = s.host ∧ (pinActions det code s).out = s.out ∧ (pinActions det code s).free = s.free ∧ (pinActions det code s).tb = s.tb ∧ (pinActions det code s).now = s.now := by
  simp [pinActions]
@[simp] theorem takePin_frame (det : ℕ) (e : GlintEvent) (provisional : Bool) (s : State) :
    (takePin det e provisional s).pending = s.pending ∧ (takePin det e provisional s).audio = s.audio ∧ (takePin det e provisional s).lbox = s.lbox ∧ (takePin det e provisional s).pins = s.pins ∧ (takePin det e provisional s).tOffset = s.tOffset ∧ (takePin det e provisional s).boot = s.boot ∧ (takePin det e provisional s).chan = s.chan ∧ (takePin det e provisional s).hbm = s.hbm ∧ (takePin det e provisional s).cond = s.cond ∧ (takePin det e provisional s).tx = s.tx ∧ (takePin det e provisional s).corr = s.corr ∧ (takePin det e provisional s).link = s.link ∧ (takePin det e provisional s).twin = s.twin ∧ (takePin det e provisional s).mgmt = s.mgmt ∧ (takePin det e provisional s).host = s.host ∧ (takePin det e provisional s).out = s.out ∧ (takePin det e provisional s).free = s.free ∧ (takePin det e provisional s).tb = s.tb ∧ (takePin det e provisional s).now = s.now := by
  generalize hr : takePin det e provisional s = r
  simp only [takePin] at hr
  repeat' split at hr
  all_goals (subst hr; simp)
@[simp] theorem captureAction_frame (det : ℕ) (code : ℕ) (e : GlintEvent) (s : State) :
    (captureAction det code e s).pending = s.pending ∧ (captureAction det code e s).audio = s.audio ∧ (captureAction det code e s).lbox = s.lbox ∧ (captureAction det code e s).pins = s.pins ∧ (captureAction det code e s).tOffset = s.tOffset ∧ (captureAction det code e s).boot = s.boot ∧ (captureAction det code e s).chan = s.chan ∧ (captureAction det code e s).hbm = s.hbm ∧ (captureAction det code e s).cond = s.cond ∧ (captureAction det code e s).tx = s.tx ∧ (captureAction det code e s).corr = s.corr ∧ (captureAction det code e s).link = s.link ∧ (captureAction det code e s).twin = s.twin ∧ (captureAction det code e s).mgmt = s.mgmt ∧ (captureAction det code e s).host = s.host ∧ (captureAction det code e s).out = s.out ∧ (captureAction det code e s).free = s.free ∧ (captureAction det code e s).tb = s.tb ∧ (captureAction det code e s).now = s.now := by
  generalize hr : captureAction det code e s = r
  simp only [captureAction] at hr
  repeat' split at hr
  all_goals (subst hr; simp)
@[simp] theorem startAction_frame (det : ℕ) (e : GlintEvent) (s : State) :
    (startAction det e s).pending = s.pending ∧ (startAction det e s).audio = s.audio ∧ (startAction det e s).lbox = s.lbox ∧ (startAction det e s).pins = s.pins ∧ (startAction det e s).tOffset = s.tOffset ∧ (startAction det e s).boot = s.boot ∧ (startAction det e s).chan = s.chan ∧ (startAction det e s).hbm = s.hbm ∧ (startAction det e s).cond = s.cond ∧ (startAction det e s).corr = s.corr ∧ (startAction det e s).link = s.link ∧ (startAction det e s).twin = s.twin ∧ (startAction det e s).free = s.free ∧ (startAction det e s).tb = s.tb ∧ (startAction det e s).now = s.now := by
  unfold startAction
  refine ⟨(foldl_pending _ _ _ fun s a => ?_), (foldl_audio _ _ _ fun s a => ?_), (foldl_lbox _ _ _ fun s a => ?_), (foldl_pins _ _ _ fun s a => ?_), (foldl_tOffset _ _ _ fun s a => ?_), (foldl_boot _ _ _ fun s a => ?_), (foldl_chan _ _ _ fun s a => ?_), (foldl_hbm _ _ _ fun s a => ?_), (foldl_cond _ _ _ fun s a => ?_), (foldl_corr _ _ _ fun s a => ?_), (foldl_link _ _ _ fun s a => ?_), (foldl_twin _ _ _ fun s a => ?_), (foldl_free _ _ _ fun s a => ?_), (foldl_tb _ _ _ fun s a => ?_), (foldl_now _ _ _ fun s a => ?_)⟩
  all_goals (try dsimp only)
  all_goals (repeat' (first | rfl | split))
  all_goals (try simp)
@[simp] theorem publishEvent_frame (det : ℕ) (code : ℕ) (s : State) :
    (publishEvent det code s).pending = s.pending ∧ (publishEvent det code s).audio = s.audio ∧ (publishEvent det code s).tOffset = s.tOffset ∧ (publishEvent det code s).boot = s.boot ∧ (publishEvent det code s).chan = s.chan ∧ (publishEvent det code s).hbm = s.hbm ∧ (publishEvent det code s).cond = s.cond ∧ (publishEvent det code s).corr = s.corr ∧ (publishEvent det code s).free = s.free ∧ (publishEvent det code s).tb = s.tb ∧ (publishEvent det code s).now = s.now := by
  generalize hr : publishEvent det code s = r
  simp only [publishEvent] at hr
  repeat' split at hr
  all_goals (subst hr; simp)
@[simp] theorem goProvisional_frame (det : ℕ) (s : State) :
    (goProvisional det s).pending = s.pending ∧ (goProvisional det s).audio = s.audio ∧ (goProvisional det s).tOffset = s.tOffset ∧ (goProvisional det s).boot = s.boot ∧ (goProvisional det s).chan = s.chan ∧ (goProvisional det s).hbm = s.hbm ∧ (goProvisional det s).cond = s.cond ∧ (goProvisional det s).corr = s.corr ∧ (goProvisional det s).free = s.free ∧ (goProvisional det s).tb = s.tb ∧ (goProvisional det s).now = s.now := by
  simp [goProvisional]
@[simp] theorem goConfirmed_frame (det : ℕ) (s : State) :
    (goConfirmed det s).pending = s.pending ∧ (goConfirmed det s).audio = s.audio ∧ (goConfirmed det s).tOffset = s.tOffset ∧ (goConfirmed det s).boot = s.boot ∧ (goConfirmed det s).chan = s.chan ∧ (goConfirmed det s).hbm = s.hbm ∧ (goConfirmed det s).cond = s.cond ∧ (goConfirmed det s).corr = s.corr ∧ (goConfirmed det s).free = s.free ∧ (goConfirmed det s).tb = s.tb ∧ (goConfirmed det s).now = s.now := by
  simp [goConfirmed]
@[simp] theorem closeEvent_frame (det : ℕ) (bit : ℕ) (s : State) :
    (closeEvent det bit s).pending = s.pending ∧ (closeEvent det bit s).audio = s.audio ∧ (closeEvent det bit s).tOffset = s.tOffset ∧ (closeEvent det bit s).boot = s.boot ∧ (closeEvent det bit s).chan = s.chan ∧ (closeEvent det bit s).hbm = s.hbm ∧ (closeEvent det bit s).cond = s.cond ∧ (closeEvent det bit s).corr = s.corr ∧ (closeEvent det bit s).free = s.free ∧ (closeEvent det bit s).tb = s.tb ∧ (closeEvent det bit s).now = s.now := by
  generalize hr : closeEvent det bit s = r
  simp only [closeEvent] at hr
  repeat' split at hr
  all_goals (subst hr; simp)
@[simp] theorem forceClose_frame (det : ℕ) (s : State) :
    (forceClose det s).pending = s.pending ∧ (forceClose det s).audio = s.audio ∧ (forceClose det s).tOffset = s.tOffset ∧ (forceClose det s).boot = s.boot ∧ (forceClose det s).chan = s.chan ∧ (forceClose det s).hbm = s.hbm ∧ (forceClose det s).cond = s.cond ∧ (forceClose det s).corr = s.corr ∧ (forceClose det s).free = s.free ∧ (forceClose det s).tb = s.tb ∧ (forceClose det s).now = s.now := by
  generalize hr : forceClose det s = r
  simp only [forceClose] at hr
  repeat' split at hr
  all_goals (subst hr; simp)
@[simp] theorem closeAll_frame (s : State) :
    (closeAll s).pending = s.pending ∧ (closeAll s).audio = s.audio ∧ (closeAll s).tOffset = s.tOffset ∧ (closeAll s).boot = s.boot ∧ (closeAll s).chan = s.chan ∧ (closeAll s).hbm = s.hbm ∧ (closeAll s).cond = s.cond ∧ (closeAll s).corr = s.corr ∧ (closeAll s).free = s.free ∧ (closeAll s).tb = s.tb ∧ (closeAll s).now = s.now := by
  simp [closeAll]
@[simp] theorem glintInstall_frame (c : GlintCfg) (s : State) :
    (glintInstall c s).pending = s.pending ∧ (glintInstall c s).audio = s.audio ∧ (glintInstall c s).lbox = s.lbox ∧ (glintInstall c s).pins = s.pins ∧ (glintInstall c s).tOffset = s.tOffset ∧ (glintInstall c s).boot = s.boot ∧ (glintInstall c s).chan = s.chan ∧ (glintInstall c s).hbm = s.hbm ∧ (glintInstall c s).cond = s.cond ∧ (glintInstall c s).tx = s.tx ∧ (glintInstall c s).corr = s.corr ∧ (glintInstall c s).link = s.link ∧ (glintInstall c s).twin = s.twin ∧ (glintInstall c s).mgmt = s.mgmt ∧ (glintInstall c s).host = s.host ∧ (glintInstall c s).out = s.out ∧ (glintInstall c s).free = s.free ∧ (glintInstall c s).tb = s.tb ∧ (glintInstall c s).now = s.now := by
  simp [glintInstall]
@[simp] theorem runGlintConfigure_frame (d : Desc) (data : Bytes) (s : State) :
    (runGlintConfigure d data s).pending = s.pending ∧ (runGlintConfigure d data s).audio = s.audio ∧ (runGlintConfigure d data s).tOffset = s.tOffset ∧ (runGlintConfigure d data s).boot = s.boot ∧ (runGlintConfigure d data s).chan = s.chan ∧ (runGlintConfigure d data s).hbm = s.hbm ∧ (runGlintConfigure d data s).cond = s.cond ∧ (runGlintConfigure d data s).corr = s.corr ∧ (runGlintConfigure d data s).tb = s.tb ∧ (runGlintConfigure d data s).now = s.now := by
  generalize hr : runGlintConfigure d data s = r
  simp only [runGlintConfigure] at hr
  repeat' split at hr
  all_goals (subst hr; simp)
theorem execGlintConfigure_frame (t : Tick) (d : Desc) (data : Bytes) (s : State) {t_ : State} (h : execGlintConfigure t d data s = .next t_) :
    t_.pending = s.pending ∧ t_.audio = s.audio ∧ t_.tOffset = (s.advance t).tOffset ∧ t_.boot = s.boot ∧ t_.chan = s.chan ∧ t_.hbm = s.hbm ∧ t_.cond = s.cond ∧ t_.corr = s.corr ∧ t_.tb = (s.advance t).tb ∧ t_.now = (s.advance t).now := by
  simp only [execGlintConfigure, Host.Outcome.next.injEq] at h
  subst h
  simp
@[simp] theorem runGlintBeamSetLoad_frame (d : Desc) (data : Bytes) (s : State) :
    (runGlintBeamSetLoad d data s).pending = s.pending ∧ (runGlintBeamSetLoad d data s).audio = s.audio ∧ (runGlintBeamSetLoad d data s).lbox = s.lbox ∧ (runGlintBeamSetLoad d data s).pins = s.pins ∧ (runGlintBeamSetLoad d data s).tOffset = s.tOffset ∧ (runGlintBeamSetLoad d data s).boot = s.boot ∧ (runGlintBeamSetLoad d data s).chan = s.chan ∧ (runGlintBeamSetLoad d data s).hbm = s.hbm ∧ (runGlintBeamSetLoad d data s).cond = s.cond ∧ (runGlintBeamSetLoad d data s).tx = s.tx ∧ (runGlintBeamSetLoad d data s).corr = s.corr ∧ (runGlintBeamSetLoad d data s).link = s.link ∧ (runGlintBeamSetLoad d data s).tb = s.tb ∧ (runGlintBeamSetLoad d data s).now = s.now := by
  generalize hr : runGlintBeamSetLoad d data s = r
  simp only [runGlintBeamSetLoad] at hr
  repeat' split at hr
  all_goals (subst hr; simp)
theorem execGlintBeamSetLoad_frame (t : Tick) (d : Desc) (data : Bytes) (s : State) {t_ : State} (h : execGlintBeamSetLoad t d data s = .next t_) :
    t_.pending = s.pending ∧ t_.audio = s.audio ∧ t_.lbox = s.lbox ∧ t_.pins = s.pins ∧ t_.tOffset = (s.advance t).tOffset ∧ t_.boot = s.boot ∧ t_.chan = s.chan ∧ t_.hbm = s.hbm ∧ t_.cond = s.cond ∧ t_.tx = s.tx ∧ t_.corr = s.corr ∧ t_.link = s.link ∧ t_.tb = (s.advance t).tb ∧ t_.now = (s.advance t).now := by
  simp only [execGlintBeamSetLoad, Host.Outcome.next.injEq] at h
  subst h
  simp
@[simp] theorem runGlintDetector_frame (d : Desc) (data : Bytes) (s : State) :
    (runGlintDetector d data s).pending = s.pending ∧ (runGlintDetector d data s).audio = s.audio ∧ (runGlintDetector d data s).lbox = s.lbox ∧ (runGlintDetector d data s).pins = s.pins ∧ (runGlintDetector d data s).tOffset = s.tOffset ∧ (runGlintDetector d data s).boot = s.boot ∧ (runGlintDetector d data s).chan = s.chan ∧ (runGlintDetector d data s).hbm = s.hbm ∧ (runGlintDetector d data s).cond = s.cond ∧ (runGlintDetector d data s).tx = s.tx ∧ (runGlintDetector d data s).corr = s.corr ∧ (runGlintDetector d data s).link = s.link ∧ (runGlintDetector d data s).twin = s.twin ∧ (runGlintDetector d data s).mgmt = s.mgmt ∧ (runGlintDetector d data s).tb = s.tb ∧ (runGlintDetector d data s).now = s.now := by
  generalize hr : runGlintDetector d data s = r
  simp only [runGlintDetector] at hr
  repeat' split at hr
  all_goals (subst hr; simp)
theorem execGlintDetector_frame (t : Tick) (d : Desc) (data : Bytes) (s : State) {t_ : State} (h : execGlintDetector t d data s = .next t_) :
    t_.pending = s.pending ∧ t_.audio = s.audio ∧ t_.lbox = s.lbox ∧ t_.pins = s.pins ∧ t_.tOffset = (s.advance t).tOffset ∧ t_.boot = s.boot ∧ t_.chan = s.chan ∧ t_.hbm = s.hbm ∧ t_.cond = s.cond ∧ t_.tx = s.tx ∧ t_.corr = s.corr ∧ t_.link = s.link ∧ t_.twin = s.twin ∧ t_.mgmt = s.mgmt ∧ t_.tb = (s.advance t).tb ∧ t_.now = (s.advance t).now := by
  simp only [execGlintDetector, Host.Outcome.next.injEq] at h
  subst h
  simp
@[simp] theorem runGlintArm_frame (d : Desc) (data : Bytes) (s : State) :
    (runGlintArm d data s).pending = s.pending ∧ (runGlintArm d data s).audio = s.audio ∧ (runGlintArm d data s).lbox = s.lbox ∧ (runGlintArm d data s).tOffset = s.tOffset ∧ (runGlintArm d data s).boot = s.boot ∧ (runGlintArm d data s).chan = s.chan ∧ (runGlintArm d data s).hbm = s.hbm ∧ (runGlintArm d data s).cond = s.cond ∧ (runGlintArm d data s).tx = s.tx ∧ (runGlintArm d data s).corr = s.corr ∧ (runGlintArm d data s).link = s.link ∧ (runGlintArm d data s).tb = s.tb ∧ (runGlintArm d data s).now = s.now := by
  generalize hr : runGlintArm d data s = r
  simp only [runGlintArm] at hr
  repeat' split at hr
  all_goals (subst hr; simp)
theorem execGlintArm_frame (t : Tick) (d : Desc) (data : Bytes) (s : State) {t_ : State} (h : execGlintArm t d data s = .next t_) :
    t_.pending = s.pending ∧ t_.audio = s.audio ∧ t_.lbox = s.lbox ∧ t_.tOffset = (s.advance t).tOffset ∧ t_.boot = s.boot ∧ t_.chan = s.chan ∧ t_.hbm = s.hbm ∧ t_.cond = s.cond ∧ t_.tx = s.tx ∧ t_.corr = s.corr ∧ t_.link = s.link ∧ t_.tb = (s.advance t).tb ∧ t_.now = (s.advance t).now := by
  simp only [execGlintArm, Host.Outcome.next.injEq] at h
  subst h
  simp
@[simp] theorem runGlintSetSwitch_frame (d : Desc) (x1 : Bytes) (s : State) :
    (runGlintSetSwitch d x1 s).pending = s.pending ∧ (runGlintSetSwitch d x1 s).audio = s.audio ∧ (runGlintSetSwitch d x1 s).lbox = s.lbox ∧ (runGlintSetSwitch d x1 s).pins = s.pins ∧ (runGlintSetSwitch d x1 s).tOffset = s.tOffset ∧ (runGlintSetSwitch d x1 s).boot = s.boot ∧ (runGlintSetSwitch d x1 s).chan = s.chan ∧ (runGlintSetSwitch d x1 s).hbm = s.hbm ∧ (runGlintSetSwitch d x1 s).cond = s.cond ∧ (runGlintSetSwitch d x1 s).tx = s.tx ∧ (runGlintSetSwitch d x1 s).corr = s.corr ∧ (runGlintSetSwitch d x1 s).link = s.link ∧ (runGlintSetSwitch d x1 s).twin = s.twin ∧ (runGlintSetSwitch d x1 s).mgmt = s.mgmt ∧ (runGlintSetSwitch d x1 s).tb = s.tb ∧ (runGlintSetSwitch d x1 s).now = s.now := by
  generalize hr : runGlintSetSwitch d x1 s = r
  simp only [runGlintSetSwitch] at hr
  repeat' split at hr
  all_goals (subst hr; simp)
theorem execGlintSetSwitch_frame (t : Tick) (d : Desc) (data : Bytes) (s : State) {t_ : State} (h : execGlintSetSwitch t d data s = .next t_) :
    t_.pending = s.pending ∧ t_.audio = s.audio ∧ t_.lbox = s.lbox ∧ t_.pins = s.pins ∧ t_.tOffset = (s.advance t).tOffset ∧ t_.boot = s.boot ∧ t_.chan = s.chan ∧ t_.hbm = s.hbm ∧ t_.cond = s.cond ∧ t_.tx = s.tx ∧ t_.corr = s.corr ∧ t_.link = s.link ∧ t_.twin = s.twin ∧ t_.mgmt = s.mgmt ∧ t_.tb = (s.advance t).tb ∧ t_.now = (s.advance t).now := by
  simp only [execGlintSetSwitch, Host.Outcome.next.injEq] at h
  subst h
  simp
@[simp] theorem clearPins_frame (mask : ℕ) (s : State) :
    (clearPins mask s).pending = s.pending ∧ (clearPins mask s).audio = s.audio ∧ (clearPins mask s).lbox = s.lbox ∧ (clearPins mask s).tOffset = s.tOffset ∧ (clearPins mask s).boot = s.boot ∧ (clearPins mask s).chan = s.chan ∧ (clearPins mask s).hbm = s.hbm ∧ (clearPins mask s).cond = s.cond ∧ (clearPins mask s).tx = s.tx ∧ (clearPins mask s).corr = s.corr ∧ (clearPins mask s).link = s.link ∧ (clearPins mask s).twin = s.twin ∧ (clearPins mask s).mgmt = s.mgmt ∧ (clearPins mask s).host = s.host ∧ (clearPins mask s).out = s.out ∧ (clearPins mask s).free = s.free ∧ (clearPins mask s).tb = s.tb ∧ (clearPins mask s).now = s.now := by
  generalize hr : clearPins mask s = r
  simp only [clearPins] at hr
  repeat' split at hr
  all_goals (subst hr; simp)
@[simp] theorem runGlintPinClear_frame (d : Desc) (data : Bytes) (s : State) :
    (runGlintPinClear d data s).pending = s.pending ∧ (runGlintPinClear d data s).audio = s.audio ∧ (runGlintPinClear d data s).lbox = s.lbox ∧ (runGlintPinClear d data s).tOffset = s.tOffset ∧ (runGlintPinClear d data s).boot = s.boot ∧ (runGlintPinClear d data s).chan = s.chan ∧ (runGlintPinClear d data s).hbm = s.hbm ∧ (runGlintPinClear d data s).cond = s.cond ∧ (runGlintPinClear d data s).tx = s.tx ∧ (runGlintPinClear d data s).corr = s.corr ∧ (runGlintPinClear d data s).tb = s.tb ∧ (runGlintPinClear d data s).now = s.now := by
  generalize hr : runGlintPinClear d data s = r
  simp only [runGlintPinClear] at hr
  repeat' split at hr
  all_goals (subst hr; simp)
theorem execGlintPinClear_frame (t : Tick) (d : Desc) (data : Bytes) (s : State) {t_ : State} (h : execGlintPinClear t d data s = .next t_) :
    t_.pending = s.pending ∧ t_.audio = s.audio ∧ t_.lbox = s.lbox ∧ t_.tOffset = (s.advance t).tOffset ∧ t_.boot = s.boot ∧ t_.chan = s.chan ∧ t_.hbm = s.hbm ∧ t_.cond = s.cond ∧ t_.tx = s.tx ∧ t_.corr = s.corr ∧ t_.tb = (s.advance t).tb ∧ t_.now = (s.advance t).now := by
  simp only [execGlintPinClear, Host.Outcome.next.injEq] at h
  subst h
  simp
theorem execGlintOutputDue_frame (t : Tick) (e : Fin 16384) (s : State) {t_ : State} (h : execGlintOutputDue t e s = .next t_) :
    t_.pending = s.pending ∧ t_.audio = s.audio ∧ t_.lbox = s.lbox ∧ t_.pins = s.pins ∧ t_.tOffset = (s.advance t).tOffset ∧ t_.boot = s.boot ∧ t_.chan = s.chan ∧ t_.hbm = s.hbm ∧ t_.cond = s.cond ∧ t_.tx = s.tx ∧ t_.corr = s.corr ∧ t_.link = s.link ∧ t_.twin = s.twin ∧ t_.mgmt = s.mgmt ∧ t_.host = s.host ∧ t_.out = s.out ∧ t_.free = s.free ∧ t_.tb = (s.advance t).tb ∧ t_.now = (s.advance t).now := by
  simp only [execGlintOutputDue] at h
  repeat' split at h
  all_goals (cases h; simp)
@[simp] theorem detEvent_frame (det : ℕ) (p : DetPar) (was : Bool) (is_ : Bool) (peak : ℕ) (m : ℕ) (x : BeamSample) (s : State) :
    (detEvent det p was is_ peak m x s).pending = s.pending ∧ (detEvent det p was is_ peak m x s).audio = s.audio ∧ (detEvent det p was is_ peak m x s).tOffset = s.tOffset ∧ (detEvent det p was is_ peak m x s).boot = s.boot ∧ (detEvent det p was is_ peak m x s).chan = s.chan ∧ (detEvent det p was is_ peak m x s).hbm = s.hbm ∧ (detEvent det p was is_ peak m x s).cond = s.cond ∧ (detEvent det p was is_ peak m x s).corr = s.corr ∧ (detEvent det p was is_ peak m x s).free = s.free ∧ (detEvent det p was is_ peak m x s).tb = s.tb ∧ (detEvent det p was is_ peak m x s).now = s.now := by
  generalize hr : detEvent det p was is_ peak m x s = r
  simp only [detEvent] at hr
  repeat' split at hr
  all_goals (subst hr; simp)
@[simp] theorem runBeam_frame (b : ℕ) (m : ℕ) (x : BeamSample) (s : State) :
    (runBeam b m x s).pending = s.pending ∧ (runBeam b m x s).audio = s.audio ∧ (runBeam b m x s).tOffset = s.tOffset ∧ (runBeam b m x s).boot = s.boot ∧ (runBeam b m x s).chan = s.chan ∧ (runBeam b m x s).hbm = s.hbm ∧ (runBeam b m x s).cond = s.cond ∧ (runBeam b m x s).corr = s.corr ∧ (runBeam b m x s).free = s.free ∧ (runBeam b m x s).tb = s.tb ∧ (runBeam b m x s).now = s.now := by
  generalize hr : runBeam b m x s = r
  simp only [runBeam] at hr
  repeat' split at hr
  all_goals (subst hr; simp)
@[simp] theorem gstepCheck_frame (s : State) :
    (gstepCheck s).pending = s.pending ∧ (gstepCheck s).audio = s.audio ∧ (gstepCheck s).lbox = s.lbox ∧ (gstepCheck s).pins = s.pins ∧ (gstepCheck s).tOffset = s.tOffset ∧ (gstepCheck s).boot = s.boot ∧ (gstepCheck s).chan = s.chan ∧ (gstepCheck s).hbm = s.hbm ∧ (gstepCheck s).glint = s.glint ∧ (gstepCheck s).cond = s.cond ∧ (gstepCheck s).tx = s.tx ∧ (gstepCheck s).corr = s.corr ∧ (gstepCheck s).link = s.link ∧ (gstepCheck s).free = s.free ∧ (gstepCheck s).tb = s.tb ∧ (gstepCheck s).now = s.now := by
  generalize hr : gstepCheck s = r
  simp only [gstepCheck] at hr
  repeat' split at hr
  all_goals (subst hr; simp)
@[simp] theorem applySwitch_frame (id : ℕ) (m : ℕ) (s : State) :
    (applySwitch id m s).pending = s.pending ∧ (applySwitch id m s).audio = s.audio ∧ (applySwitch id m s).tOffset = s.tOffset ∧ (applySwitch id m s).boot = s.boot ∧ (applySwitch id m s).chan = s.chan ∧ (applySwitch id m s).hbm = s.hbm ∧ (applySwitch id m s).cond = s.cond ∧ (applySwitch id m s).corr = s.corr ∧ (applySwitch id m s).free = s.free ∧ (applySwitch id m s).tb = s.tb ∧ (applySwitch id m s).now = s.now := by
  simp [applySwitch]
@[simp] theorem countSteps_frame (b : ℕ) (ds : List (ℕ × ℤ)) (s : State) :
    (countSteps b ds s).pending = s.pending ∧ (countSteps b ds s).audio = s.audio ∧ (countSteps b ds s).lbox = s.lbox ∧ (countSteps b ds s).pins = s.pins ∧ (countSteps b ds s).tOffset = s.tOffset ∧ (countSteps b ds s).boot = s.boot ∧ (countSteps b ds s).chan = s.chan ∧ (countSteps b ds s).hbm = s.hbm ∧ (countSteps b ds s).cond = s.cond ∧ (countSteps b ds s).tx = s.tx ∧ (countSteps b ds s).corr = s.corr ∧ (countSteps b ds s).link = s.link ∧ (countSteps b ds s).twin = s.twin ∧ (countSteps b ds s).mgmt = s.mgmt ∧ (countSteps b ds s).host = s.host ∧ (countSteps b ds s).out = s.out ∧ (countSteps b ds s).free = s.free ∧ (countSteps b ds s).tb = s.tb ∧ (countSteps b ds s).now = s.now := by
  generalize hr : countSteps b ds s = r
  simp only [countSteps] at hr
  repeat' split at hr
  all_goals (subst hr; simp)
@[simp] theorem takeSamples_frame (m : ℕ) (g : GroupDesc) (org : ℕ) (bs : List (ℕ × GlintBeam × List (ℕ × ℤ) × List (ℕ × ℤ))) (s : State) :
    (takeSamples m g org bs s).pending = s.pending ∧ (takeSamples m g org bs s).audio = s.audio ∧ (takeSamples m g org bs s).tOffset = s.tOffset ∧ (takeSamples m g org bs s).boot = s.boot ∧ (takeSamples m g org bs s).chan = s.chan ∧ (takeSamples m g org bs s).hbm = s.hbm ∧ (takeSamples m g org bs s).cond = s.cond ∧ (takeSamples m g org bs s).corr = s.corr ∧ (takeSamples m g org bs s).free = s.free ∧ (takeSamples m g org bs s).tb = s.tb ∧ (takeSamples m g org bs s).now = s.now := by
  simp [takeSamples]
theorem execGlintBeamSample_frame (t : Tick) (s : State) {t_ : State} (h : execGlintBeamSample t s = .next t_) :
    t_.pending = s.pending ∧ t_.audio = s.audio ∧ t_.tOffset = (s.advance t).tOffset ∧ t_.boot = s.boot ∧ t_.chan = s.chan ∧ t_.hbm = s.hbm ∧ t_.corr = s.corr ∧ t_.free = s.free ∧ t_.tb = (s.advance t).tb ∧ t_.now = (s.advance t).now := by
  simp only [execGlintBeamSample] at h
  repeat' split at h
  all_goals (cases h; simp)
theorem execPublishHoldExpiry_frame (t : Tick) (det : Fin 512) (s : State) {t_ : State} (h : execPublishHoldExpiry t det s = .next t_) :
    t_.pending = s.pending ∧ t_.audio = s.audio ∧ t_.tOffset = (s.advance t).tOffset ∧ t_.boot = s.boot ∧ t_.chan = s.chan ∧ t_.hbm = s.hbm ∧ t_.cond = s.cond ∧ t_.corr = s.corr ∧ t_.free = s.free ∧ t_.tb = (s.advance t).tb ∧ t_.now = (s.advance t).now := by
  simp only [execPublishHoldExpiry] at h
  repeat' split at h
  all_goals (cases h; simp)
theorem execVoidTimeout_frame (t : Tick) (det : Fin 512) (s : State) {t_ : State} (h : execVoidTimeout t det s = .next t_) :
    t_.pending = s.pending ∧ t_.audio = s.audio ∧ t_.tOffset = (s.advance t).tOffset ∧ t_.boot = s.boot ∧ t_.chan = s.chan ∧ t_.hbm = s.hbm ∧ t_.cond = s.cond ∧ t_.corr = s.corr ∧ t_.free = s.free ∧ t_.tb = (s.advance t).tb ∧ t_.now = (s.advance t).now := by
  simp only [execVoidTimeout] at h
  repeat' split at h
  all_goals (cases h; simp)
theorem execMarkerHoldExpiry_frame (t : Tick) (layer : BitVec 8) (m : BitVec 8) (s : State) {t_ : State} (h : execMarkerHoldExpiry t layer m s = .next t_) :
    t_.pending = s.pending ∧ t_.audio = s.audio ∧ t_.pins = s.pins ∧ t_.tOffset = (s.advance t).tOffset ∧ t_.boot = s.boot ∧ t_.chan = s.chan ∧ t_.hbm = s.hbm ∧ t_.glint = s.glint ∧ t_.cond = s.cond ∧ t_.tx = s.tx ∧ t_.corr = s.corr ∧ t_.link = s.link ∧ t_.twin = s.twin ∧ t_.mgmt = s.mgmt ∧ t_.host = s.host ∧ t_.out = s.out ∧ t_.free = s.free ∧ t_.tb = (s.advance t).tb ∧ t_.now = (s.advance t).now := by
  simp only [execMarkerHoldExpiry, Host.Outcome.next.injEq] at h
  subst h
  simp
theorem execBlankEnd_frame (t : Tick) (entry : Fin 64) (s : State) {t_ : State} (h : execBlankEnd t entry s = .next t_) :
    t_.pending = s.pending ∧ t_.audio = s.audio ∧ t_.lbox = s.lbox ∧ t_.pins = s.pins ∧ t_.tOffset = (s.advance t).tOffset ∧ t_.boot = s.boot ∧ t_.chan = s.chan ∧ t_.hbm = s.hbm ∧ t_.cond = s.cond ∧ t_.tx = s.tx ∧ t_.corr = s.corr ∧ t_.link = s.link ∧ t_.twin = s.twin ∧ t_.mgmt = s.mgmt ∧ t_.host = s.host ∧ t_.out = s.out ∧ t_.free = s.free ∧ t_.tb = (s.advance t).tb ∧ t_.now = (s.advance t).now := by
  simp only [execBlankEnd, Host.Outcome.next.injEq] at h
  subst h
  simp
@[simp] theorem captureLand_frame (p : Pin) (s : State) :
    (captureLand p s).pending = s.pending ∧ (captureLand p s).audio = s.audio ∧ (captureLand p s).lbox = s.lbox ∧ (captureLand p s).pins = s.pins ∧ (captureLand p s).tOffset = s.tOffset ∧ (captureLand p s).boot = s.boot ∧ (captureLand p s).chan = s.chan ∧ (captureLand p s).tx = s.tx ∧ (captureLand p s).corr = s.corr ∧ (captureLand p s).link = s.link ∧ (captureLand p s).twin = s.twin ∧ (captureLand p s).mgmt = s.mgmt ∧ (captureLand p s).host = s.host ∧ (captureLand p s).out = s.out ∧ (captureLand p s).free = s.free ∧ (captureLand p s).tb = s.tb ∧ (captureLand p s).now = s.now := by
  simp [captureLand]
@[simp] theorem captureRead_frame (p : Pin) (ecc : List Ecc) (s : State) :
    (captureRead p ecc s).pending = s.pending ∧ (captureRead p ecc s).audio = s.audio ∧ (captureRead p ecc s).lbox = s.lbox ∧ (captureRead p ecc s).pins = s.pins ∧ (captureRead p ecc s).tOffset = s.tOffset ∧ (captureRead p ecc s).boot = s.boot ∧ (captureRead p ecc s).chan = s.chan ∧ (captureRead p ecc s).glint = s.glint ∧ (captureRead p ecc s).cond = s.cond ∧ (captureRead p ecc s).tx = s.tx ∧ (captureRead p ecc s).corr = s.corr ∧ (captureRead p ecc s).link = s.link ∧ (captureRead p ecc s).tb = s.tb ∧ (captureRead p ecc s).now = s.now := by
  unfold captureRead
  extract_lets
  refine ⟨(foldl_pending _ _ _ fun s a => ?_).trans ?_, (foldl_audio _ _ _ fun s a => ?_).trans ?_, (foldl_lbox _ _ _ fun s a => ?_).trans ?_, (foldl_pins _ _ _ fun s a => ?_).trans ?_, (foldl_tOffset _ _ _ fun s a => ?_).trans ?_, (foldl_boot _ _ _ fun s a => ?_).trans ?_, (foldl_chan _ _ _ fun s a => ?_).trans ?_, (foldl_glint _ _ _ fun s a => ?_).trans ?_, (foldl_cond _ _ _ fun s a => ?_).trans ?_, (foldl_tx _ _ _ fun s a => ?_).trans ?_, (foldl_corr _ _ _ fun s a => ?_).trans ?_, (foldl_link _ _ _ fun s a => ?_).trans ?_, (foldl_tb _ _ _ fun s a => ?_).trans ?_, (foldl_now _ _ _ fun s a => ?_).trans ?_⟩
  all_goals (repeat' (first | rfl | split))
  all_goals (simp +zetaDelta)
theorem execCaptureCopy_frame (t : Tick) (pin : ℕ) (ecc : List Ecc) (s : State) {t_ : State} (h : execCaptureCopy t pin ecc s = .next t_) :
    t_.pending = s.pending ∧ t_.audio = s.audio ∧ t_.lbox = s.lbox ∧ t_.pins = s.pins ∧ t_.tOffset = (s.advance t).tOffset ∧ t_.boot = s.boot ∧ t_.chan = s.chan ∧ t_.tx = s.tx ∧ t_.corr = s.corr ∧ t_.link = s.link ∧ t_.tb = (s.advance t).tb ∧ t_.now = (s.advance t).now := by
  simp only [execCaptureCopy] at h
  repeat' split at h
  all_goals (cases h; simp)
@[simp] theorem runSceneLoad_frame (d : Desc) (data : Bytes) (s : State) :
    (runSceneLoad d data s).pending = s.pending ∧ (runSceneLoad d data s).audio = s.audio ∧ (runSceneLoad d data s).pins = s.pins ∧ (runSceneLoad d data s).tOffset = s.tOffset ∧ (runSceneLoad d data s).boot = s.boot ∧ (runSceneLoad d data s).chan = s.chan ∧ (runSceneLoad d data s).hbm = s.hbm ∧ (runSceneLoad d data s).glint = s.glint ∧ (runSceneLoad d data s).cond = s.cond ∧ (runSceneLoad d data s).tx = s.tx ∧ (runSceneLoad d data s).corr = s.corr ∧ (runSceneLoad d data s).link = s.link ∧ (runSceneLoad d data s).mgmt = s.mgmt ∧ (runSceneLoad d data s).tb = s.tb ∧ (runSceneLoad d data s).now = s.now := by
  generalize hr : runSceneLoad d data s = r
  simp only [runSceneLoad] at hr
  repeat' split at hr
  all_goals (subst hr; simp)
theorem execSceneLoad_frame (t : Tick) (d : Desc) (data : Bytes) (s : State) {t_ : State} (h : execSceneLoad t d data s = .next t_) :
    t_.pending = s.pending ∧ t_.audio = s.audio ∧ t_.pins = s.pins ∧ t_.tOffset = (s.advance t).tOffset ∧ t_.boot = s.boot ∧ t_.chan = s.chan ∧ t_.hbm = s.hbm ∧ t_.glint = s.glint ∧ t_.cond = s.cond ∧ t_.tx = s.tx ∧ t_.corr = s.corr ∧ t_.link = s.link ∧ t_.mgmt = s.mgmt ∧ t_.tb = (s.advance t).tb ∧ t_.now = (s.advance t).now := by
  simp only [execSceneLoad, Host.Outcome.next.injEq] at h
  subst h
  simp
@[simp] theorem runLightboxTableLoad_frame (d : Desc) (data : Bytes) (s : State) :
    (runLightboxTableLoad d data s).pending = s.pending ∧ (runLightboxTableLoad d data s).audio = s.audio ∧ (runLightboxTableLoad d data s).pins = s.pins ∧ (runLightboxTableLoad d data s).tOffset = s.tOffset ∧ (runLightboxTableLoad d data s).boot = s.boot ∧ (runLightboxTableLoad d data s).chan = s.chan ∧ (runLightboxTableLoad d data s).hbm = s.hbm ∧ (runLightboxTableLoad d data s).glint = s.glint ∧ (runLightboxTableLoad d data s).cond = s.cond ∧ (runLightboxTableLoad d data s).tx = s.tx ∧ (runLightboxTableLoad d data s).corr = s.corr ∧ (runLightboxTableLoad d data s).link = s.link ∧ (runLightboxTableLoad d data s).tb = s.tb ∧ (runLightboxTableLoad d data s).now = s.now := by
  generalize hr : runLightboxTableLoad d data s = r
  simp only [runLightboxTableLoad] at hr
  repeat' split at hr
  all_goals (subst hr; simp)
theorem execLightboxTableLoad_frame (t : Tick) (d : Desc) (data : Bytes) (s : State) {t_ : State} (h : execLightboxTableLoad t d data s = .next t_) :
    t_.pending = s.pending ∧ t_.audio = s.audio ∧ t_.pins = s.pins ∧ t_.tOffset = (s.advance t).tOffset ∧ t_.boot = s.boot ∧ t_.chan = s.chan ∧ t_.hbm = s.hbm ∧ t_.glint = s.glint ∧ t_.cond = s.cond ∧ t_.tx = s.tx ∧ t_.corr = s.corr ∧ t_.link = s.link ∧ t_.tb = (s.advance t).tb ∧ t_.now = (s.advance t).now := by
  simp only [execLightboxTableLoad, Host.Outcome.next.injEq] at h
  subst h
  simp
@[simp] theorem dropFrame_frame (s : State) :
    (dropFrame s).pending = s.pending ∧ (dropFrame s).audio = s.audio ∧ (dropFrame s).lbox = s.lbox ∧ (dropFrame s).pins = s.pins ∧ (dropFrame s).tOffset = s.tOffset ∧ (dropFrame s).boot = s.boot ∧ (dropFrame s).chan = s.chan ∧ (dropFrame s).hbm = s.hbm ∧ (dropFrame s).glint = s.glint ∧ (dropFrame s).cond = s.cond ∧ (dropFrame s).tx = s.tx ∧ (dropFrame s).corr = s.corr ∧ (dropFrame s).link = s.link ∧ (dropFrame s).mgmt = s.mgmt ∧ (dropFrame s).out = s.out ∧ (dropFrame s).free = s.free ∧ (dropFrame s).tb = s.tb ∧ (dropFrame s).now = s.now := by
  generalize hr : dropFrame s = r
  simp only [dropFrame] at hr
  repeat' split at hr
  all_goals (subst hr; simp)
@[simp] theorem composeFrame_frame (sc : LbScene) (f : ℕ) (b : ℕ) (start : ℕ) (marks : List LbMark) (ecc : List Ecc) (s : State) :
    (composeFrame sc f b start marks ecc s).pending = s.pending ∧ (composeFrame sc f b start marks ecc s).audio = s.audio ∧ (composeFrame sc f b start marks ecc s).pins = s.pins ∧ (composeFrame sc f b start marks ecc s).tOffset = s.tOffset ∧ (composeFrame sc f b start marks ecc s).boot = s.boot ∧ (composeFrame sc f b start marks ecc s).chan = s.chan ∧ (composeFrame sc f b start marks ecc s).glint = s.glint ∧ (composeFrame sc f b start marks ecc s).cond = s.cond ∧ (composeFrame sc f b start marks ecc s).tx = s.tx ∧ (composeFrame sc f b start marks ecc s).corr = s.corr ∧ (composeFrame sc f b start marks ecc s).link = s.link ∧ (composeFrame sc f b start marks ecc s).tb = s.tb ∧ (composeFrame sc f b start marks ecc s).now = s.now := by
  generalize hr : composeFrame sc f b start marks ecc s = r
  simp only [composeFrame] at hr
  repeat' split at hr
  all_goals (subst hr; simp)
@[simp] theorem tryFrame_frame (ecc : List Ecc) (s : State) :
    (tryFrame ecc s).pending = s.pending ∧ (tryFrame ecc s).audio = s.audio ∧ (tryFrame ecc s).pins = s.pins ∧ (tryFrame ecc s).tOffset = s.tOffset ∧ (tryFrame ecc s).boot = s.boot ∧ (tryFrame ecc s).chan = s.chan ∧ (tryFrame ecc s).glint = s.glint ∧ (tryFrame ecc s).cond = s.cond ∧ (tryFrame ecc s).tx = s.tx ∧ (tryFrame ecc s).corr = s.corr ∧ (tryFrame ecc s).link = s.link ∧ (tryFrame ecc s).tb = s.tb ∧ (tryFrame ecc s).now = s.now := by
  generalize hr : tryFrame ecc s = r
  simp only [tryFrame] at hr
  repeat' split at hr
  all_goals (subst hr; simp)
@[simp] theorem resumeFrame_frame (s : State) :
    (resumeFrame s).pending = s.pending ∧ (resumeFrame s).audio = s.audio ∧ (resumeFrame s).pins = s.pins ∧ (resumeFrame s).tOffset = s.tOffset ∧ (resumeFrame s).boot = s.boot ∧ (resumeFrame s).chan = s.chan ∧ (resumeFrame s).glint = s.glint ∧ (resumeFrame s).cond = s.cond ∧ (resumeFrame s).tx = s.tx ∧ (resumeFrame s).corr = s.corr ∧ (resumeFrame s).link = s.link ∧ (resumeFrame s).tb = s.tb ∧ (resumeFrame s).now = s.now := by
  generalize hr : resumeFrame s = r
  simp only [resumeFrame] at hr
  repeat' split at hr
  all_goals (subst hr; simp)
@[simp] theorem runSurfaceWrite_frame (d : Desc) (data : Bytes) (s : State) :
    (runSurfaceWrite d data s).pending = s.pending ∧ (runSurfaceWrite d data s).audio = s.audio ∧ (runSurfaceWrite d data s).pins = s.pins ∧ (runSurfaceWrite d data s).tOffset = s.tOffset ∧ (runSurfaceWrite d data s).boot = s.boot ∧ (runSurfaceWrite d data s).chan = s.chan ∧ (runSurfaceWrite d data s).glint = s.glint ∧ (runSurfaceWrite d data s).cond = s.cond ∧ (runSurfaceWrite d data s).tx = s.tx ∧ (runSurfaceWrite d data s).corr = s.corr ∧ (runSurfaceWrite d data s).link = s.link ∧ (runSurfaceWrite d data s).tb = s.tb ∧ (runSurfaceWrite d data s).now = s.now := by
  generalize hr : runSurfaceWrite d data s = r
  simp only [runSurfaceWrite] at hr
  repeat' split at hr
  all_goals (subst hr; simp)
theorem execSurfaceWrite_frame (t : Tick) (d : Desc) (data : Bytes) (s : State) {t_ : State} (h : execSurfaceWrite t d data s = .next t_) :
    t_.pending = s.pending ∧ t_.audio = s.audio ∧ t_.pins = s.pins ∧ t_.tOffset = (s.advance t).tOffset ∧ t_.boot = s.boot ∧ t_.chan = s.chan ∧ t_.glint = s.glint ∧ t_.cond = s.cond ∧ t_.tx = s.tx ∧ t_.corr = s.corr ∧ t_.link = s.link ∧ t_.tb = (s.advance t).tb ∧ t_.now = (s.advance t).now := by
  simp only [execSurfaceWrite, Host.Outcome.next.injEq] at h
  subst h
  simp
@[simp] theorem takeScene_frame (sc : LbScene) (s : State) :
    (takeScene sc s).pending = s.pending ∧ (takeScene sc s).audio = s.audio ∧ (takeScene sc s).pins = s.pins ∧ (takeScene sc s).tOffset = s.tOffset ∧ (takeScene sc s).boot = s.boot ∧ (takeScene sc s).chan = s.chan ∧ (takeScene sc s).hbm = s.hbm ∧ (takeScene sc s).glint = s.glint ∧ (takeScene sc s).cond = s.cond ∧ (takeScene sc s).tx = s.tx ∧ (takeScene sc s).corr = s.corr ∧ (takeScene sc s).link = s.link ∧ (takeScene sc s).mgmt = s.mgmt ∧ (takeScene sc s).host = s.host ∧ (takeScene sc s).out = s.out ∧ (takeScene sc s).free = s.free ∧ (takeScene sc s).tb = s.tb ∧ (takeScene sc s).now = s.now := by
  generalize hr : takeScene sc s = r
  simp only [takeScene] at hr
  repeat' split at hr
  all_goals (subst hr; simp)
theorem execLightboxFrameBoundary_frame (t : Tick) (ecc : List Ecc) (s : State) {t_ : State} (h : execLightboxFrameBoundary t ecc s = .next t_) :
    t_.pending = s.pending ∧ t_.audio = s.audio ∧ t_.pins = s.pins ∧ t_.tOffset = (s.advance t).tOffset ∧ t_.boot = s.boot ∧ t_.chan = s.chan ∧ t_.glint = s.glint ∧ t_.cond = s.cond ∧ t_.tx = s.tx ∧ t_.corr = s.corr ∧ t_.link = s.link ∧ t_.tb = (s.advance t).tb ∧ t_.now = (s.advance t).now := by
  simp only [execLightboxFrameBoundary] at h
  repeat' split at h
  all_goals (cases h; simp)
theorem execLightboxWaitExpiry_frame (t : Tick) (ecc : List Ecc) (s : State) {t_ : State} (h : execLightboxWaitExpiry t ecc s = .next t_) :
    t_.pending = s.pending ∧ t_.audio = s.audio ∧ t_.pins = s.pins ∧ t_.tOffset = (s.advance t).tOffset ∧ t_.boot = s.boot ∧ t_.chan = s.chan ∧ t_.glint = s.glint ∧ t_.cond = s.cond ∧ t_.tx = s.tx ∧ t_.corr = s.corr ∧ t_.link = s.link ∧ t_.tb = (s.advance t).tb ∧ t_.now = (s.advance t).now := by
  simp only [execLightboxWaitExpiry] at h
  repeat' split at h
  all_goals (cases h; simp)
theorem execBeamRecord_frame (t : Tick) (pool : ℕ) (s : State) {t_ : State} (h : execBeamRecord t pool s = .next t_) :
    t_.pending = s.pending ∧ t_.audio = s.audio ∧ t_.pins = s.pins ∧ t_.tOffset = (s.advance t).tOffset ∧ t_.boot = s.boot ∧ t_.glint = s.glint ∧ t_.tx = s.tx ∧ t_.link = s.link ∧ t_.tb = (s.advance t).tb ∧ t_.now = (s.advance t).now := by
  simp only [execBeamRecord] at h
  repeat' split at h
  all_goals (cases h; simp)
@[simp] theorem stepVoltage_frame (d : ℕ) (v : ℕ) (s : State) :
    (stepVoltage d v s).pending = s.pending ∧ (stepVoltage d v s).audio = s.audio ∧ (stepVoltage d v s).lbox = s.lbox ∧ (stepVoltage d v s).pins = s.pins ∧ (stepVoltage d v s).tOffset = s.tOffset ∧ (stepVoltage d v s).boot = s.boot ∧ (stepVoltage d v s).chan = s.chan ∧ (stepVoltage d v s).hbm = s.hbm ∧ (stepVoltage d v s).glint = s.glint ∧ (stepVoltage d v s).cond = s.cond ∧ (stepVoltage d v s).tx = s.tx ∧ (stepVoltage d v s).corr = s.corr ∧ (stepVoltage d v s).link = s.link ∧ (stepVoltage d v s).twin = s.twin ∧ (stepVoltage d v s).host = s.host ∧ (stepVoltage d v s).out = s.out ∧ (stepVoltage d v s).free = s.free ∧ (stepVoltage d v s).tb = s.tb ∧ (stepVoltage d v s).now = s.now := by
  simp [stepVoltage]
@[simp] theorem shortBand_frame (d : ℕ) (short : Bool) (s : State) :
    (shortBand d short s).pending = s.pending ∧ (shortBand d short s).audio = s.audio ∧ (shortBand d short s).lbox = s.lbox ∧ (shortBand d short s).pins = s.pins ∧ (shortBand d short s).tOffset = s.tOffset ∧ (shortBand d short s).boot = s.boot ∧ (shortBand d short s).chan = s.chan ∧ (shortBand d short s).hbm = s.hbm ∧ (shortBand d short s).glint = s.glint ∧ (shortBand d short s).cond = s.cond ∧ (shortBand d short s).tx = s.tx ∧ (shortBand d short s).link = s.link ∧ (shortBand d short s).twin = s.twin ∧ (shortBand d short s).free = s.free ∧ (shortBand d short s).tb = s.tb ∧ (shortBand d short s).now = s.now := by
  generalize hr : shortBand d short s = r
  simp only [shortBand] at hr
  repeat' split at hr
  all_goals (subst hr; simp)
theorem execSlackWindowEval_frame (t : Tick) (d : Fin 16) (s : State) {t_ : State} (h : execSlackWindowEval t d s = .next t_) :
    t_.pending = s.pending ∧ t_.audio = s.audio ∧ t_.lbox = s.lbox ∧ t_.pins = s.pins ∧ t_.tOffset = (s.advance t).tOffset ∧ t_.boot = s.boot ∧ t_.chan = s.chan ∧ t_.hbm = s.hbm ∧ t_.glint = s.glint ∧ t_.cond = s.cond ∧ t_.tx = s.tx ∧ t_.link = s.link ∧ t_.twin = s.twin ∧ t_.free = s.free ∧ t_.tb = (s.advance t).tb ∧ t_.now = (s.advance t).now := by
  simp only [execSlackWindowEval] at h
  repeat' split at h
  all_goals (cases h; simp)
theorem execVoltageSettled_frame (t : Tick) (d : Fin 16) (s : State) {t_ : State} (h : execVoltageSettled t d s = .next t_) :
    t_.pending = s.pending ∧ t_.audio = s.audio ∧ t_.lbox = s.lbox ∧ t_.pins = s.pins ∧ t_.tOffset = (s.advance t).tOffset ∧ t_.boot = s.boot ∧ t_.chan = s.chan ∧ t_.hbm = s.hbm ∧ t_.glint = s.glint ∧ t_.cond = s.cond ∧ t_.tx = s.tx ∧ t_.corr = s.corr ∧ t_.link = s.link ∧ t_.twin = s.twin ∧ t_.host = s.host ∧ t_.out = s.out ∧ t_.free = s.free ∧ t_.tb = (s.advance t).tb ∧ t_.now = (s.advance t).now := by
  simp only [execVoltageSettled] at h
  repeat' split at h
  all_goals (cases h; simp)
theorem execCeilingLoweringStep_frame (t : Tick) (d : Fin 16) (s : State) {t_ : State} (h : execCeilingLoweringStep t d s = .next t_) :
    t_.pending = s.pending ∧ t_.audio = s.audio ∧ t_.lbox = s.lbox ∧ t_.pins = s.pins ∧ t_.tOffset = (s.advance t).tOffset ∧ t_.boot = s.boot ∧ t_.chan = s.chan ∧ t_.hbm = s.hbm ∧ t_.glint = s.glint ∧ t_.cond = s.cond ∧ t_.tx = s.tx ∧ t_.corr = s.corr ∧ t_.link = s.link ∧ t_.twin = s.twin ∧ t_.host = s.host ∧ t_.out = s.out ∧ t_.free = s.free ∧ t_.tb = (s.advance t).tb ∧ t_.now = (s.advance t).now := by
  simp only [execCeilingLoweringStep] at h
  repeat' split at h
  all_goals (cases h; simp)
@[simp] theorem notePower_frame (d : ℕ) (mw : ℕ) (s : State) :
    (notePower d mw s).pending = s.pending ∧ (notePower d mw s).audio = s.audio ∧ (notePower d mw s).lbox = s.lbox ∧ (notePower d mw s).pins = s.pins ∧ (notePower d mw s).tOffset = s.tOffset ∧ (notePower d mw s).boot = s.boot ∧ (notePower d mw s).chan = s.chan ∧ (notePower d mw s).hbm = s.hbm ∧ (notePower d mw s).glint = s.glint ∧ (notePower d mw s).cond = s.cond ∧ (notePower d mw s).tx = s.tx ∧ (notePower d mw s).corr = s.corr ∧ (notePower d mw s).link = s.link ∧ (notePower d mw s).twin = s.twin ∧ (notePower d mw s).host = s.host ∧ (notePower d mw s).out = s.out ∧ (notePower d mw s).free = s.free ∧ (notePower d mw s).tb = s.tb ∧ (notePower d mw s).now = s.now := by
  generalize hr : notePower d mw s = r
  simp only [notePower] at hr
  repeat' split at hr
  all_goals (subst hr; simp)
@[simp] theorem notePowers_frame (mw : Vector ℕ 17) (s : State) :
    (notePowers mw s).pending = s.pending ∧ (notePowers mw s).audio = s.audio ∧ (notePowers mw s).lbox = s.lbox ∧ (notePowers mw s).pins = s.pins ∧ (notePowers mw s).tOffset = s.tOffset ∧ (notePowers mw s).boot = s.boot ∧ (notePowers mw s).chan = s.chan ∧ (notePowers mw s).hbm = s.hbm ∧ (notePowers mw s).glint = s.glint ∧ (notePowers mw s).cond = s.cond ∧ (notePowers mw s).tx = s.tx ∧ (notePowers mw s).corr = s.corr ∧ (notePowers mw s).link = s.link ∧ (notePowers mw s).twin = s.twin ∧ (notePowers mw s).host = s.host ∧ (notePowers mw s).out = s.out ∧ (notePowers mw s).free = s.free ∧ (notePowers mw s).tb = s.tb ∧ (notePowers mw s).now = s.now := by
  simp [notePowers]
theorem execPowerCapCheck_frame (t : Tick) (deviceMw : ℕ) (domainMw : Vector ℕ 17) (s : State) {t_ : State} (h : execPowerCapCheck t deviceMw domainMw s = .next t_) :
    t_.pending = s.pending ∧ t_.audio = s.audio ∧ t_.lbox = s.lbox ∧ t_.pins = s.pins ∧ t_.tOffset = (s.advance t).tOffset ∧ t_.boot = s.boot ∧ t_.chan = s.chan ∧ t_.hbm = s.hbm ∧ t_.glint = s.glint ∧ t_.cond = s.cond ∧ t_.tx = s.tx ∧ t_.corr = s.corr ∧ t_.link = s.link ∧ t_.twin = s.twin ∧ t_.host = s.host ∧ t_.out = s.out ∧ t_.free = s.free ∧ t_.tb = (s.advance t).tb ∧ t_.now = (s.advance t).now := by
  have hn : (notePowers domainMw (s.advance t)).pending = s.pending ∧ (notePowers domainMw (s.advance t)).audio = s.audio ∧ (notePowers domainMw (s.advance t)).lbox = s.lbox ∧ (notePowers domainMw (s.advance t)).pins = s.pins ∧ (notePowers domainMw (s.advance t)).tOffset = (s.advance t).tOffset ∧ (notePowers domainMw (s.advance t)).boot = s.boot ∧ (notePowers domainMw (s.advance t)).chan = s.chan ∧ (notePowers domainMw (s.advance t)).hbm = s.hbm ∧ (notePowers domainMw (s.advance t)).glint = s.glint ∧ (notePowers domainMw (s.advance t)).cond = s.cond ∧ (notePowers domainMw (s.advance t)).tx = s.tx ∧ (notePowers domainMw (s.advance t)).corr = s.corr ∧ (notePowers domainMw (s.advance t)).link = s.link ∧ (notePowers domainMw (s.advance t)).twin = s.twin ∧ (notePowers domainMw (s.advance t)).host = s.host ∧ (notePowers domainMw (s.advance t)).out = s.out ∧ (notePowers domainMw (s.advance t)).free = s.free ∧ (notePowers domainMw (s.advance t)).tb = (s.advance t).tb ∧ (notePowers domainMw (s.advance t)).now = (s.advance t).now := by simp
  unfold execPowerCapCheck at h
  generalize notePowers domainMw (s.advance t) = u at h hn
  simp only at h
  repeat' split at h
  all_goals (have h' := Host.Outcome.next.inj h; subst h'; clear h)
  all_goals simp [hn]
@[simp] theorem thermalEvent_frame (level : ℕ) (x : ℕ × ℤ × ℤ) (s : State) :
    (thermalEvent level x s).pending = s.pending ∧ (thermalEvent level x s).audio = s.audio ∧ (thermalEvent level x s).lbox = s.lbox ∧ (thermalEvent level x s).pins = s.pins ∧ (thermalEvent level x s).tOffset = s.tOffset ∧ (thermalEvent level x s).boot = s.boot ∧ (thermalEvent level x s).chan = s.chan ∧ (thermalEvent level x s).hbm = s.hbm ∧ (thermalEvent level x s).glint = s.glint ∧ (thermalEvent level x s).cond = s.cond ∧ (thermalEvent level x s).tx = s.tx ∧ (thermalEvent level x s).corr = s.corr ∧ (thermalEvent level x s).link = s.link ∧ (thermalEvent level x s).twin = s.twin ∧ (thermalEvent level x s).free = s.free ∧ (thermalEvent level x s).tb = s.tb ∧ (thermalEvent level x s).now = s.now := by
  simp [thermalEvent]
@[simp] theorem thermalWarm_frame (x : ℕ × ℤ × ℤ) (s : State) :
    (thermalWarm x s).pending = s.pending ∧ (thermalWarm x s).audio = s.audio ∧ (thermalWarm x s).lbox = s.lbox ∧ (thermalWarm x s).pins = s.pins ∧ (thermalWarm x s).tOffset = s.tOffset ∧ (thermalWarm x s).boot = s.boot ∧ (thermalWarm x s).chan = s.chan ∧ (thermalWarm x s).hbm = s.hbm ∧ (thermalWarm x s).glint = s.glint ∧ (thermalWarm x s).cond = s.cond ∧ (thermalWarm x s).tx = s.tx ∧ (thermalWarm x s).corr = s.corr ∧ (thermalWarm x s).link = s.link ∧ (thermalWarm x s).twin = s.twin ∧ (thermalWarm x s).free = s.free ∧ (thermalWarm x s).tb = s.tb ∧ (thermalWarm x s).now = s.now := by
  generalize hr : thermalWarm x s = r
  simp only [thermalWarm] at hr
  repeat' split at hr
  all_goals (subst hr; simp)
@[simp] theorem thermalAlert_frame (x : ℕ × ℤ × ℤ) (s : State) :
    (thermalAlert x s).pending = s.pending ∧ (thermalAlert x s).audio = s.audio ∧ (thermalAlert x s).lbox = s.lbox ∧ (thermalAlert x s).pins = s.pins ∧ (thermalAlert x s).tOffset = s.tOffset ∧ (thermalAlert x s).boot = s.boot ∧ (thermalAlert x s).chan = s.chan ∧ (thermalAlert x s).hbm = s.hbm ∧ (thermalAlert x s).glint = s.glint ∧ (thermalAlert x s).cond = s.cond ∧ (thermalAlert x s).tx = s.tx ∧ (thermalAlert x s).corr = s.corr ∧ (thermalAlert x s).link = s.link ∧ (thermalAlert x s).twin = s.twin ∧ (thermalAlert x s).free = s.free ∧ (thermalAlert x s).tb = s.tb ∧ (thermalAlert x s).now = s.now := by
  generalize hr : thermalAlert x s = r
  simp only [thermalAlert] at hr
  repeat' split at hr
  all_goals (subst hr; simp)
@[simp] theorem thermalHot_frame (x : ℕ × ℤ × ℤ) (s : State) :
    (thermalHot x s).pending = s.pending ∧ (thermalHot x s).audio = s.audio ∧ (thermalHot x s).lbox = s.lbox ∧ (thermalHot x s).pins = s.pins ∧ (thermalHot x s).tOffset = s.tOffset ∧ (thermalHot x s).boot = s.boot ∧ (thermalHot x s).chan = s.chan ∧ (thermalHot x s).hbm = s.hbm ∧ (thermalHot x s).glint = s.glint ∧ (thermalHot x s).cond = s.cond ∧ (thermalHot x s).tx = s.tx ∧ (thermalHot x s).corr = s.corr ∧ (thermalHot x s).link = s.link ∧ (thermalHot x s).twin = s.twin ∧ (thermalHot x s).host = s.host ∧ (thermalHot x s).out = s.out ∧ (thermalHot x s).free = s.free ∧ (thermalHot x s).tb = s.tb ∧ (thermalHot x s).now = s.now := by
  generalize hr : thermalHot x s = r
  simp only [thermalHot] at hr
  repeat' split at hr
  all_goals (subst hr; simp)
@[simp] theorem thermalTrip_frame (x : ℕ × ℤ × ℤ) (s : State) :
    (thermalTrip x s).pending = s.pending ∧ (thermalTrip x s).audio = s.audio ∧ (thermalTrip x s).lbox = s.lbox ∧ (thermalTrip x s).pins = s.pins ∧ (thermalTrip x s).tOffset = s.tOffset ∧ (thermalTrip x s).boot = s.boot ∧ (thermalTrip x s).chan = s.chan ∧ (thermalTrip x s).hbm = s.hbm ∧ (thermalTrip x s).glint = s.glint ∧ (thermalTrip x s).cond = s.cond ∧ (thermalTrip x s).tx = s.tx ∧ (thermalTrip x s).corr = s.corr ∧ (thermalTrip x s).link = s.link ∧ (thermalTrip x s).twin = s.twin ∧ (thermalTrip x s).free = s.free ∧ (thermalTrip x s).tb = s.tb ∧ (thermalTrip x s).now = s.now := by
  generalize hr : thermalTrip x s = r
  simp only [thermalTrip] at hr
  repeat' split at hr
  all_goals (subst hr; simp)
@[simp] theorem thermalAct_frame (x : ℕ × ℤ × ℤ) (s : State) :
    (thermalAct x s).pending = s.pending ∧ (thermalAct x s).audio = s.audio ∧ (thermalAct x s).lbox = s.lbox ∧ (thermalAct x s).pins = s.pins ∧ (thermalAct x s).tOffset = s.tOffset ∧ (thermalAct x s).boot = s.boot ∧ (thermalAct x s).chan = s.chan ∧ (thermalAct x s).hbm = s.hbm ∧ (thermalAct x s).glint = s.glint ∧ (thermalAct x s).cond = s.cond ∧ (thermalAct x s).tx = s.tx ∧ (thermalAct x s).corr = s.corr ∧ (thermalAct x s).link = s.link ∧ (thermalAct x s).twin = s.twin ∧ (thermalAct x s).free = s.free ∧ (thermalAct x s).tb = s.tb ∧ (thermalAct x s).now = s.now := by
  generalize hr : thermalAct x s = r
  simp only [thermalAct] at hr
  repeat' split at hr
  all_goals (subst hr; simp)
@[simp] theorem thermalRise_frame (x : ℕ × ℤ × ℤ) (s : State) :
    (thermalRise x s).pending = s.pending ∧ (thermalRise x s).audio = s.audio ∧ (thermalRise x s).lbox = s.lbox ∧ (thermalRise x s).pins = s.pins ∧ (thermalRise x s).tOffset = s.tOffset ∧ (thermalRise x s).boot = s.boot ∧ (thermalRise x s).chan = s.chan ∧ (thermalRise x s).hbm = s.hbm ∧ (thermalRise x s).glint = s.glint ∧ (thermalRise x s).cond = s.cond ∧ (thermalRise x s).tx = s.tx ∧ (thermalRise x s).corr = s.corr ∧ (thermalRise x s).link = s.link ∧ (thermalRise x s).twin = s.twin ∧ (thermalRise x s).free = s.free ∧ (thermalRise x s).tb = s.tb ∧ (thermalRise x s).now = s.now := by
  simp [thermalRise]
@[simp] theorem noteTemp_frame (d : ℕ) (temp : ℤ) (s : State) :
    (noteTemp d temp s).pending = s.pending ∧ (noteTemp d temp s).audio = s.audio ∧ (noteTemp d temp s).lbox = s.lbox ∧ (noteTemp d temp s).pins = s.pins ∧ (noteTemp d temp s).tOffset = s.tOffset ∧ (noteTemp d temp s).boot = s.boot ∧ (noteTemp d temp s).chan = s.chan ∧ (noteTemp d temp s).hbm = s.hbm ∧ (noteTemp d temp s).glint = s.glint ∧ (noteTemp d temp s).cond = s.cond ∧ (noteTemp d temp s).tx = s.tx ∧ (noteTemp d temp s).corr = s.corr ∧ (noteTemp d temp s).link = s.link ∧ (noteTemp d temp s).twin = s.twin ∧ (noteTemp d temp s).host = s.host ∧ (noteTemp d temp s).out = s.out ∧ (noteTemp d temp s).free = s.free ∧ (noteTemp d temp s).tb = s.tb ∧ (noteTemp d temp s).now = s.now := by
  generalize hr : noteTemp d temp s = r
  simp only [noteTemp] at hr
  repeat' split at hr
  all_goals (subst hr; simp)
@[simp] theorem noteStackTemp_frame (k : ℕ) (s : State) :
    (noteStackTemp k s).pending = s.pending ∧ (noteStackTemp k s).audio = s.audio ∧ (noteStackTemp k s).lbox = s.lbox ∧ (noteStackTemp k s).pins = s.pins ∧ (noteStackTemp k s).tOffset = s.tOffset ∧ (noteStackTemp k s).boot = s.boot ∧ (noteStackTemp k s).chan = s.chan ∧ (noteStackTemp k s).hbm = s.hbm ∧ (noteStackTemp k s).glint = s.glint ∧ (noteStackTemp k s).cond = s.cond ∧ (noteStackTemp k s).tx = s.tx ∧ (noteStackTemp k s).corr = s.corr ∧ (noteStackTemp k s).link = s.link ∧ (noteStackTemp k s).twin = s.twin ∧ (noteStackTemp k s).host = s.host ∧ (noteStackTemp k s).out = s.out ∧ (noteStackTemp k s).free = s.free ∧ (noteStackTemp k s).tb = s.tb ∧ (noteStackTemp k s).now = s.now := by
  generalize hr : noteStackTemp k s = r
  simp only [noteStackTemp] at hr
  repeat' split at hr
  all_goals (subst hr; simp)
@[simp] theorem noteTemps_frame (temps : Vector ℤ 17) (s : State) :
    (noteTemps temps s).pending = s.pending ∧ (noteTemps temps s).audio = s.audio ∧ (noteTemps temps s).lbox = s.lbox ∧ (noteTemps temps s).pins = s.pins ∧ (noteTemps temps s).tOffset = s.tOffset ∧ (noteTemps temps s).boot = s.boot ∧ (noteTemps temps s).chan = s.chan ∧ (noteTemps temps s).hbm = s.hbm ∧ (noteTemps temps s).glint = s.glint ∧ (noteTemps temps s).cond = s.cond ∧ (noteTemps temps s).tx = s.tx ∧ (noteTemps temps s).corr = s.corr ∧ (noteTemps temps s).link = s.link ∧ (noteTemps temps s).twin = s.twin ∧ (noteTemps temps s).host = s.host ∧ (noteTemps temps s).out = s.out ∧ (noteTemps temps s).free = s.free ∧ (noteTemps temps s).tb = s.tb ∧ (noteTemps temps s).now = s.now := by
  simp [noteTemps]
theorem execThermalSample_frame (t : Tick) (temps : Vector ℤ 17) (s : State) {t_ : State} (h : execThermalSample t temps s = .next t_) :
    t_.pending = s.pending ∧ t_.audio = s.audio ∧ t_.lbox = s.lbox ∧ t_.pins = s.pins ∧ t_.tOffset = (s.advance t).tOffset ∧ t_.boot = s.boot ∧ t_.chan = s.chan ∧ t_.hbm = s.hbm ∧ t_.glint = s.glint ∧ t_.cond = s.cond ∧ t_.tx = s.tx ∧ t_.corr = s.corr ∧ t_.link = s.link ∧ t_.twin = s.twin ∧ t_.free = s.free ∧ t_.tb = (s.advance t).tb ∧ t_.now = (s.advance t).now := by
  have hn : (noteTemps temps (s.advance t)).pending = s.pending ∧ (noteTemps temps (s.advance t)).audio = s.audio ∧ (noteTemps temps (s.advance t)).lbox = s.lbox ∧ (noteTemps temps (s.advance t)).pins = s.pins ∧ (noteTemps temps (s.advance t)).tOffset = (s.advance t).tOffset ∧ (noteTemps temps (s.advance t)).boot = s.boot ∧ (noteTemps temps (s.advance t)).chan = s.chan ∧ (noteTemps temps (s.advance t)).hbm = s.hbm ∧ (noteTemps temps (s.advance t)).glint = s.glint ∧ (noteTemps temps (s.advance t)).cond = s.cond ∧ (noteTemps temps (s.advance t)).tx = s.tx ∧ (noteTemps temps (s.advance t)).corr = s.corr ∧ (noteTemps temps (s.advance t)).link = s.link ∧ (noteTemps temps (s.advance t)).twin = s.twin ∧ (noteTemps temps (s.advance t)).free = s.free ∧ (noteTemps temps (s.advance t)).tb = (s.advance t).tb ∧ (noteTemps temps (s.advance t)).now = (s.advance t).now := by simp
  unfold execThermalSample at h
  generalize noteTemps temps (s.advance t) = u at h hn
  simp only at h
  repeat' split at h
  all_goals (have h' := Host.Outcome.next.inj h; subst h'; clear h)
  all_goals simp [hn]
@[simp] theorem modThermal_frame (f : ℕ → ℕ) (s : State) :
    (modThermal f s).pending = s.pending ∧ (modThermal f s).audio = s.audio ∧ (modThermal f s).lbox = s.lbox ∧ (modThermal f s).pins = s.pins ∧ (modThermal f s).tOffset = s.tOffset ∧ (modThermal f s).boot = s.boot ∧ (modThermal f s).chan = s.chan ∧ (modThermal f s).hbm = s.hbm ∧ (modThermal f s).glint = s.glint ∧ (modThermal f s).cond = s.cond ∧ (modThermal f s).tx = s.tx ∧ (modThermal f s).corr = s.corr ∧ (modThermal f s).link = s.link ∧ (modThermal f s).twin = s.twin ∧ (modThermal f s).host = s.host ∧ (modThermal f s).out = s.out ∧ (modThermal f s).free = s.free ∧ (modThermal f s).tb = s.tb ∧ (modThermal f s).now = s.now := by
  simp [modThermal]
theorem execThermalCeilingStep_frame (t : Tick) (s : State) {t_ : State} (h : execThermalCeilingStep t s = .next t_) :
    t_.pending = s.pending ∧ t_.audio = s.audio ∧ t_.lbox = s.lbox ∧ t_.pins = s.pins ∧ t_.tOffset = (s.advance t).tOffset ∧ t_.boot = s.boot ∧ t_.chan = s.chan ∧ t_.hbm = s.hbm ∧ t_.glint = s.glint ∧ t_.cond = s.cond ∧ t_.tx = s.tx ∧ t_.corr = s.corr ∧ t_.link = s.link ∧ t_.twin = s.twin ∧ t_.host = s.host ∧ t_.out = s.out ∧ t_.free = s.free ∧ t_.tb = (s.advance t).tb ∧ t_.now = (s.advance t).now := by
  simp only [execThermalCeilingStep] at h
  repeat' split at h
  all_goals (cases h; simp)
theorem execHbmTempRead_frame (t : Tick) (stack : Fin 4) (reading : Option ℤ) (s : State) {t_ : State} (h : execHbmTempRead t stack reading s = .next t_) :
    t_.pending = s.pending ∧ t_.audio = s.audio ∧ t_.lbox = s.lbox ∧ t_.pins = s.pins ∧ t_.tOffset = (s.advance t).tOffset ∧ t_.boot = s.boot ∧ t_.chan = s.chan ∧ t_.glint = s.glint ∧ t_.cond = s.cond ∧ t_.tx = s.tx ∧ t_.corr = s.corr ∧ t_.link = s.link ∧ t_.twin = s.twin ∧ t_.free = s.free ∧ t_.tb = (s.advance t).tb ∧ t_.now = (s.advance t).now := by
  simp only [execHbmTempRead] at h
  repeat' split at h
  all_goals (cases h; simp)
theorem execStewardHeartbeatMiss_frame (t : Tick) (w : Fin 17) (s : State) {t_ : State} (h : execStewardHeartbeatMiss t w s = .next t_) :
    t_.pending = s.pending ∧ t_.audio = s.audio ∧ t_.lbox = s.lbox ∧ t_.pins = s.pins ∧ t_.tOffset = (s.advance t).tOffset ∧ t_.boot = s.boot ∧ t_.hbm = s.hbm ∧ t_.glint = s.glint ∧ t_.tx = s.tx ∧ t_.link = s.link ∧ t_.free = s.free ∧ t_.tb = (s.advance t).tb ∧ t_.now = (s.advance t).now := by
  simp only [execStewardHeartbeatMiss] at h
  repeat' split at h
  all_goals (cases h; simp)
@[simp] theorem setWin_frame (n : ℕ) (w : Window) (s : State) :
    (setWin n w s).pending = s.pending ∧ (setWin n w s).audio = s.audio ∧ (setWin n w s).lbox = s.lbox ∧ (setWin n w s).pins = s.pins ∧ (setWin n w s).tOffset = s.tOffset ∧ (setWin n w s).boot = s.boot ∧ (setWin n w s).chan = s.chan ∧ (setWin n w s).hbm = s.hbm ∧ (setWin n w s).glint = s.glint ∧ (setWin n w s).cond = s.cond ∧ (setWin n w s).tx = s.tx ∧ (setWin n w s).corr = s.corr ∧ (setWin n w s).link = s.link ∧ (setWin n w s).twin = s.twin ∧ (setWin n w s).host = s.host ∧ (setWin n w s).out = s.out ∧ (setWin n w s).free = s.free ∧ (setWin n w s).tb = s.tb ∧ (setWin n w s).now = s.now := by
  simp [setWin]
@[simp] theorem snapshot_frame (n : ℕ) (byCommand : Bool) (s : State) :
    (snapshot n byCommand s).pending = s.pending ∧ (snapshot n byCommand s).audio = s.audio ∧ (snapshot n byCommand s).lbox = s.lbox ∧ (snapshot n byCommand s).pins = s.pins ∧ (snapshot n byCommand s).tOffset = s.tOffset ∧ (snapshot n byCommand s).boot = s.boot ∧ (snapshot n byCommand s).chan = s.chan ∧ (snapshot n byCommand s).glint = s.glint ∧ (snapshot n byCommand s).cond = s.cond ∧ (snapshot n byCommand s).tx = s.tx ∧ (snapshot n byCommand s).corr = s.corr ∧ (snapshot n byCommand s).link = s.link ∧ (snapshot n byCommand s).out = s.out ∧ (snapshot n byCommand s).tb = s.tb ∧ (snapshot n byCommand s).now = s.now := by
  generalize hr : snapshot n byCommand s = r
  simp only [snapshot] at hr
  repeat' split at hr
  all_goals (subst hr; simp)
@[simp] theorem startWindow_frame (n : ℕ) (s : State) :
    (startWindow n s).pending = s.pending ∧ (startWindow n s).audio = s.audio ∧ (startWindow n s).lbox = s.lbox ∧ (startWindow n s).pins = s.pins ∧ (startWindow n s).tOffset = s.tOffset ∧ (startWindow n s).boot = s.boot ∧ (startWindow n s).chan = s.chan ∧ (startWindow n s).hbm = s.hbm ∧ (startWindow n s).glint = s.glint ∧ (startWindow n s).cond = s.cond ∧ (startWindow n s).tx = s.tx ∧ (startWindow n s).corr = s.corr ∧ (startWindow n s).link = s.link ∧ (startWindow n s).twin = s.twin ∧ (startWindow n s).host = s.host ∧ (startWindow n s).out = s.out ∧ (startWindow n s).free = s.free ∧ (startWindow n s).tb = s.tb ∧ (startWindow n s).now = s.now := by
  simp [startWindow]
theorem execMonitorWindowEnd_frame (t : Tick) (n : Fin 16) (s : State) {t_ : State} (h : execMonitorWindowEnd t n s = .next t_) :
    t_.pending = s.pending ∧ t_.audio = s.audio ∧ t_.lbox = s.lbox ∧ t_.pins = s.pins ∧ t_.tOffset = (s.advance t).tOffset ∧ t_.boot = s.boot ∧ t_.chan = s.chan ∧ t_.glint = s.glint ∧ t_.cond = s.cond ∧ t_.tx = s.tx ∧ t_.corr = s.corr ∧ t_.link = s.link ∧ t_.out = s.out ∧ t_.tb = (s.advance t).tb ∧ t_.now = (s.advance t).now := by
  simp only [execMonitorWindowEnd] at h
  repeat' split at h
  all_goals (cases h; simp)
@[simp] theorem runMonitorSnapshot_frame (d : Desc) (x1 : Bytes) (s : State) :
    (runMonitorSnapshot d x1 s).pending = s.pending ∧ (runMonitorSnapshot d x1 s).audio = s.audio ∧ (runMonitorSnapshot d x1 s).lbox = s.lbox ∧ (runMonitorSnapshot d x1 s).pins = s.pins ∧ (runMonitorSnapshot d x1 s).tOffset = s.tOffset ∧ (runMonitorSnapshot d x1 s).boot = s.boot ∧ (runMonitorSnapshot d x1 s).chan = s.chan ∧ (runMonitorSnapshot d x1 s).glint = s.glint ∧ (runMonitorSnapshot d x1 s).cond = s.cond ∧ (runMonitorSnapshot d x1 s).tx = s.tx ∧ (runMonitorSnapshot d x1 s).corr = s.corr ∧ (runMonitorSnapshot d x1 s).link = s.link ∧ (runMonitorSnapshot d x1 s).tb = s.tb ∧ (runMonitorSnapshot d x1 s).now = s.now := by
  generalize hr : runMonitorSnapshot d x1 s = r
  simp only [runMonitorSnapshot] at hr
  repeat' split at hr
  all_goals (subst hr; simp)
theorem execMonitorSnapshot_frame (t : Tick) (d : Desc) (data : Bytes) (s : State) {t_ : State} (h : execMonitorSnapshot t d data s = .next t_) :
    t_.pending = s.pending ∧ t_.audio = s.audio ∧ t_.lbox = s.lbox ∧ t_.pins = s.pins ∧ t_.tOffset = (s.advance t).tOffset ∧ t_.boot = s.boot ∧ t_.chan = s.chan ∧ t_.glint = s.glint ∧ t_.cond = s.cond ∧ t_.tx = s.tx ∧ t_.corr = s.corr ∧ t_.link = s.link ∧ t_.tb = (s.advance t).tb ∧ t_.now = (s.advance t).now := by
  simp only [execMonitorSnapshot, Host.Outcome.next.injEq] at h
  subst h
  simp
@[simp] theorem writeWinCfg_frame (n : ℕ) (v : Reg) (s : State) :
    (writeWinCfg n v s).pending = s.pending ∧ (writeWinCfg n v s).audio = s.audio ∧ (writeWinCfg n v s).lbox = s.lbox ∧ (writeWinCfg n v s).pins = s.pins ∧ (writeWinCfg n v s).tOffset = s.tOffset ∧ (writeWinCfg n v s).boot = s.boot ∧ (writeWinCfg n v s).chan = s.chan ∧ (writeWinCfg n v s).glint = s.glint ∧ (writeWinCfg n v s).cond = s.cond ∧ (writeWinCfg n v s).tx = s.tx ∧ (writeWinCfg n v s).corr = s.corr ∧ (writeWinCfg n v s).link = s.link ∧ (writeWinCfg n v s).out = s.out ∧ (writeWinCfg n v s).tb = s.tb ∧ (writeWinCfg n v s).now = s.now := by
  generalize hr : writeWinCfg n v s = r
  simp only [writeWinCfg] at hr
  repeat' split at hr
  all_goals (subst hr; simp)
@[simp] theorem writeWinValue_frame (n : ℕ) (k : ℕ) (v : Reg) (s : State) :
    (writeWinValue n k v s).pending = s.pending ∧ (writeWinValue n k v s).audio = s.audio ∧ (writeWinValue n k v s).lbox = s.lbox ∧ (writeWinValue n k v s).pins = s.pins ∧ (writeWinValue n k v s).tOffset = s.tOffset ∧ (writeWinValue n k v s).boot = s.boot ∧ (writeWinValue n k v s).chan = s.chan ∧ (writeWinValue n k v s).hbm = s.hbm ∧ (writeWinValue n k v s).glint = s.glint ∧ (writeWinValue n k v s).cond = s.cond ∧ (writeWinValue n k v s).tx = s.tx ∧ (writeWinValue n k v s).corr = s.corr ∧ (writeWinValue n k v s).link = s.link ∧ (writeWinValue n k v s).twin = s.twin ∧ (writeWinValue n k v s).host = s.host ∧ (writeWinValue n k v s).out = s.out ∧ (writeWinValue n k v s).free = s.free ∧ (writeWinValue n k v s).tb = s.tb ∧ (writeWinValue n k v s).now = s.now := by
  generalize hr : writeWinValue n k v s = r
  simp only [writeWinValue] at hr
  repeat' split at hr
  all_goals (subst hr; simp)
@[simp] theorem accessError_frame (s : State) :
    (accessError s).pending = s.pending ∧ (accessError s).audio = s.audio ∧ (accessError s).lbox = s.lbox ∧ (accessError s).pins = s.pins ∧ (accessError s).tOffset = s.tOffset ∧ (accessError s).boot = s.boot ∧ (accessError s).chan = s.chan ∧ (accessError s).hbm = s.hbm ∧ (accessError s).glint = s.glint ∧ (accessError s).cond = s.cond ∧ (accessError s).tx = s.tx ∧ (accessError s).corr = s.corr ∧ (accessError s).link = s.link ∧ (accessError s).twin = s.twin ∧ (accessError s).host = s.host ∧ (accessError s).out = s.out ∧ (accessError s).free = s.free ∧ (accessError s).tb = s.tb ∧ (accessError s).now = s.now := by
  simp [accessError]
@[simp] theorem twinLink_frame (q : ℕ) (f : RawFrame) (s : State) :
    (twinLink q f s).2.pending = s.pending ∧ (twinLink q f s).2.audio = s.audio ∧ (twinLink q f s).2.lbox = s.lbox ∧ (twinLink q f s).2.pins = s.pins ∧ (twinLink q f s).2.tOffset = s.tOffset ∧ (twinLink q f s).2.boot = s.boot ∧ (twinLink q f s).2.chan = s.chan ∧ (twinLink q f s).2.hbm = s.hbm ∧ (twinLink q f s).2.glint = s.glint ∧ (twinLink q f s).2.cond = s.cond ∧ (twinLink q f s).2.tx = s.tx ∧ (twinLink q f s).2.corr = s.corr ∧ (twinLink q f s).2.twin = s.twin ∧ (twinLink q f s).2.host = s.host ∧ (twinLink q f s).2.free = s.free ∧ (twinLink q f s).2.tb = s.tb ∧ (twinLink q f s).2.now = s.now := by
  generalize hr : twinLink q f s = r
  simp only [twinLink] at hr
  repeat' split at hr
  all_goals (subst hr; simp)
@[simp] theorem twinTake_pending (f : RawFrame) (mine : Bool) (act : Bytes → State → State) (s : State)
    (h : ∀ b s, (act b s).pending = s.pending) : (twinTake f mine act s).pending = s.pending := by
  generalize hr : twinTake f mine act s = r
  simp only [twinTake] at hr
  repeat' split at hr
  all_goals (subst hr; simp [h, apply_ite (fun s : State => s.pending)])
@[simp] theorem twinTake_audio (f : RawFrame) (mine : Bool) (act : Bytes → State → State) (s : State)
    (h : ∀ b s, (act b s).audio = s.audio) : (twinTake f mine act s).audio = s.audio := by
  generalize hr : twinTake f mine act s = r
  simp only [twinTake] at hr
  repeat' split at hr
  all_goals (subst hr; simp [h, apply_ite (fun s : State => s.audio)])
@[simp] theorem twinTake_lbox (f : RawFrame) (mine : Bool) (act : Bytes → State → State) (s : State)
    (h : ∀ b s, (act b s).lbox = s.lbox) : (twinTake f mine act s).lbox = s.lbox := by
  generalize hr : twinTake f mine act s = r
  simp only [twinTake] at hr
  repeat' split at hr
  all_goals (subst hr; simp [h, apply_ite (fun s : State => s.lbox)])
@[simp] theorem twinTake_pins (f : RawFrame) (mine : Bool) (act : Bytes → State → State) (s : State)
    (h : ∀ b s, (act b s).pins = s.pins) : (twinTake f mine act s).pins = s.pins := by
  generalize hr : twinTake f mine act s = r
  simp only [twinTake] at hr
  repeat' split at hr
  all_goals (subst hr; simp [h, apply_ite (fun s : State => s.pins)])
@[simp] theorem twinTake_tOffset (f : RawFrame) (mine : Bool) (act : Bytes → State → State) (s : State)
    (h : ∀ b s, (act b s).tOffset = s.tOffset) : (twinTake f mine act s).tOffset = s.tOffset := by
  generalize hr : twinTake f mine act s = r
  simp only [twinTake] at hr
  repeat' split at hr
  all_goals (subst hr; simp [h, apply_ite (fun s : State => s.tOffset)])
@[simp] theorem twinTake_boot (f : RawFrame) (mine : Bool) (act : Bytes → State → State) (s : State)
    (h : ∀ b s, (act b s).boot = s.boot) : (twinTake f mine act s).boot = s.boot := by
  generalize hr : twinTake f mine act s = r
  simp only [twinTake] at hr
  repeat' split at hr
  all_goals (subst hr; simp [h, apply_ite (fun s : State => s.boot)])
@[simp] theorem twinTake_chan (f : RawFrame) (mine : Bool) (act : Bytes → State → State) (s : State)
    (h : ∀ b s, (act b s).chan = s.chan) : (twinTake f mine act s).chan = s.chan := by
  generalize hr : twinTake f mine act s = r
  simp only [twinTake] at hr
  repeat' split at hr
  all_goals (subst hr; simp [h, apply_ite (fun s : State => s.chan)])
@[simp] theorem twinTake_hbm (f : RawFrame) (mine : Bool) (act : Bytes → State → State) (s : State)
    (h : ∀ b s, (act b s).hbm = s.hbm) : (twinTake f mine act s).hbm = s.hbm := by
  generalize hr : twinTake f mine act s = r
  simp only [twinTake] at hr
  repeat' split at hr
  all_goals (subst hr; simp [h, apply_ite (fun s : State => s.hbm)])
@[simp] theorem twinTake_glint (f : RawFrame) (mine : Bool) (act : Bytes → State → State) (s : State)
    (h : ∀ b s, (act b s).glint = s.glint) : (twinTake f mine act s).glint = s.glint := by
  generalize hr : twinTake f mine act s = r
  simp only [twinTake] at hr
  repeat' split at hr
  all_goals (subst hr; simp [h, apply_ite (fun s : State => s.glint)])
@[simp] theorem twinTake_cond (f : RawFrame) (mine : Bool) (act : Bytes → State → State) (s : State)
    (h : ∀ b s, (act b s).cond = s.cond) : (twinTake f mine act s).cond = s.cond := by
  generalize hr : twinTake f mine act s = r
  simp only [twinTake] at hr
  repeat' split at hr
  all_goals (subst hr; simp [h, apply_ite (fun s : State => s.cond)])
@[simp] theorem twinTake_tx (f : RawFrame) (mine : Bool) (act : Bytes → State → State) (s : State)
    (h : ∀ b s, (act b s).tx = s.tx) : (twinTake f mine act s).tx = s.tx := by
  generalize hr : twinTake f mine act s = r
  simp only [twinTake] at hr
  repeat' split at hr
  all_goals (subst hr; simp [h, apply_ite (fun s : State => s.tx)])
@[simp] theorem twinTake_corr (f : RawFrame) (mine : Bool) (act : Bytes → State → State) (s : State)
    (h : ∀ b s, (act b s).corr = s.corr) : (twinTake f mine act s).corr = s.corr := by
  generalize hr : twinTake f mine act s = r
  simp only [twinTake] at hr
  repeat' split at hr
  all_goals (subst hr; simp [h, apply_ite (fun s : State => s.corr)])
@[simp] theorem twinTake_twin (f : RawFrame) (mine : Bool) (act : Bytes → State → State) (s : State)
    (h : ∀ b s, (act b s).twin = s.twin) : (twinTake f mine act s).twin = s.twin := by
  generalize hr : twinTake f mine act s = r
  simp only [twinTake] at hr
  repeat' split at hr
  all_goals (subst hr; simp [h, apply_ite (fun s : State => s.twin)])
@[simp] theorem twinTake_host (f : RawFrame) (mine : Bool) (act : Bytes → State → State) (s : State)
    (h : ∀ b s, (act b s).host = s.host) : (twinTake f mine act s).host = s.host := by
  generalize hr : twinTake f mine act s = r
  simp only [twinTake] at hr
  repeat' split at hr
  all_goals (subst hr; simp [h, apply_ite (fun s : State => s.host)])
@[simp] theorem twinTake_free (f : RawFrame) (mine : Bool) (act : Bytes → State → State) (s : State)
    (h : ∀ b s, (act b s).free = s.free) : (twinTake f mine act s).free = s.free := by
  generalize hr : twinTake f mine act s = r
  simp only [twinTake] at hr
  repeat' split at hr
  all_goals (subst hr; simp [h, apply_ite (fun s : State => s.free)])
@[simp] theorem twinTake_tb (f : RawFrame) (mine : Bool) (act : Bytes → State → State) (s : State)
    (h : ∀ b s, (act b s).tb = s.tb) : (twinTake f mine act s).tb = s.tb := by
  generalize hr : twinTake f mine act s = r
  simp only [twinTake] at hr
  repeat' split at hr
  all_goals (subst hr; simp [h, apply_ite (fun s : State => s.tb)])
@[simp] theorem twinTake_now (f : RawFrame) (mine : Bool) (act : Bytes → State → State) (s : State)
    (h : ∀ b s, (act b s).now = s.now) : (twinTake f mine act s).now = s.now := by
  generalize hr : twinTake f mine act s = r
  simp only [twinTake] at hr
  repeat' split at hr
  all_goals (subst hr; simp [h, apply_ite (fun s : State => s.now)])
@[simp] theorem sendHeartbeat_frame (s : State) :
    (sendHeartbeat s).pending = s.pending ∧ (sendHeartbeat s).audio = s.audio ∧ (sendHeartbeat s).lbox = s.lbox ∧ (sendHeartbeat s).pins = s.pins ∧ (sendHeartbeat s).tOffset = s.tOffset ∧ (sendHeartbeat s).boot = s.boot ∧ (sendHeartbeat s).chan = s.chan ∧ (sendHeartbeat s).hbm = s.hbm ∧ (sendHeartbeat s).glint = s.glint ∧ (sendHeartbeat s).cond = s.cond ∧ (sendHeartbeat s).tx = s.tx ∧ (sendHeartbeat s).corr = s.corr ∧ (sendHeartbeat s).twin = s.twin ∧ (sendHeartbeat s).host = s.host ∧ (sendHeartbeat s).free = s.free ∧ (sendHeartbeat s).tb = s.tb ∧ (sendHeartbeat s).now = s.now := by
  simp [sendHeartbeat]
theorem execTwinHeartbeatSend_frame (t : Tick) (s : State) {t_ : State} (h : execTwinHeartbeatSend t s = .next t_) :
    t_.pending = s.pending ∧ t_.audio = s.audio ∧ t_.lbox = s.lbox ∧ t_.pins = s.pins ∧ t_.tOffset = (s.advance t).tOffset ∧ t_.boot = s.boot ∧ t_.chan = s.chan ∧ t_.hbm = s.hbm ∧ t_.glint = s.glint ∧ t_.cond = s.cond ∧ t_.tx = s.tx ∧ t_.corr = s.corr ∧ t_.free = s.free ∧ t_.tb = (s.advance t).tb ∧ t_.now = (s.advance t).now := by
  simp only [execTwinHeartbeatSend] at h
  repeat' split at h
  all_goals (cases h; simp)
@[simp] theorem roleChange_frame (new : Role) (cause : ℕ) (s : State) :
    (roleChange new cause s).pending = s.pending ∧ (roleChange new cause s).audio = s.audio ∧ (roleChange new cause s).lbox = s.lbox ∧ (roleChange new cause s).pins = s.pins ∧ (roleChange new cause s).tOffset = s.tOffset ∧ (roleChange new cause s).boot = s.boot ∧ (roleChange new cause s).chan = s.chan ∧ (roleChange new cause s).hbm = s.hbm ∧ (roleChange new cause s).glint = s.glint ∧ (roleChange new cause s).cond = s.cond ∧ (roleChange new cause s).tx = s.tx ∧ (roleChange new cause s).corr = s.corr ∧ (roleChange new cause s).link = s.link ∧ (roleChange new cause s).free = s.free ∧ (roleChange new cause s).tb = s.tb ∧ (roleChange new cause s).now = s.now := by
  simp [roleChange]
@[simp] theorem abandonOutlets_frame (rings : Bool) (s : State) :
    (abandonOutlets rings s).pending = s.pending ∧ (abandonOutlets rings s).audio = s.audio ∧ (abandonOutlets rings s).lbox = s.lbox ∧ (abandonOutlets rings s).pins = s.pins ∧ (abandonOutlets rings s).tOffset = s.tOffset ∧ (abandonOutlets rings s).boot = s.boot ∧ (abandonOutlets rings s).chan = s.chan ∧ (abandonOutlets rings s).hbm = s.hbm ∧ (abandonOutlets rings s).glint = s.glint ∧ (abandonOutlets rings s).cond = s.cond ∧ (abandonOutlets rings s).tx = s.tx ∧ (abandonOutlets rings s).corr = s.corr ∧ (abandonOutlets rings s).link = s.link ∧ (abandonOutlets rings s).twin = s.twin ∧ (abandonOutlets rings s).mgmt = s.mgmt ∧ (abandonOutlets rings s).out = s.out ∧ (abandonOutlets rings s).free = s.free ∧ (abandonOutlets rings s).tb = s.tb ∧ (abandonOutlets rings s).now = s.now := by
  simp [abandonOutlets]
@[simp] theorem shutQuad_frame (s : State) (q : ℕ) :
    (shutQuad s q).pending = s.pending ∧ (shutQuad s q).audio = s.audio ∧ (shutQuad s q).lbox = s.lbox ∧ (shutQuad s q).pins = s.pins ∧ (shutQuad s q).tOffset = s.tOffset ∧ (shutQuad s q).boot = s.boot ∧ (shutQuad s q).chan = s.chan ∧ (shutQuad s q).hbm = s.hbm ∧ (shutQuad s q).glint = s.glint ∧ (shutQuad s q).cond = s.cond ∧ (shutQuad s q).tx = s.tx ∧ (shutQuad s q).corr = s.corr ∧ (shutQuad s q).twin = s.twin ∧ (shutQuad s q).mgmt = s.mgmt ∧ (shutQuad s q).host = s.host ∧ (shutQuad s q).out = s.out ∧ (shutQuad s q).free = s.free ∧ (shutQuad s q).tb = s.tb ∧ (shutQuad s q).now = s.now := by
  generalize hr : shutQuad s q = r
  simp only [shutQuad] at hr
  repeat' split at hr
  all_goals (subst hr; simp)
@[simp] theorem shutGate_frame (s : State) :
    (shutGate s).pending = s.pending ∧ (shutGate s).audio = s.audio ∧ (shutGate s).lbox = s.lbox ∧ (shutGate s).pins = s.pins ∧ (shutGate s).tOffset = s.tOffset ∧ (shutGate s).boot = s.boot ∧ (shutGate s).chan = s.chan ∧ (shutGate s).hbm = s.hbm ∧ (shutGate s).glint = s.glint ∧ (shutGate s).cond = s.cond ∧ (shutGate s).tx = s.tx ∧ (shutGate s).corr = s.corr ∧ (shutGate s).mgmt = s.mgmt ∧ (shutGate s).host = s.host ∧ (shutGate s).out = s.out ∧ (shutGate s).free = s.free ∧ (shutGate s).tb = s.tb ∧ (shutGate s).now = s.now := by
  simp [shutGate]
@[simp] theorem dropPin_frame (s : State) :
    (dropPin s).pending = s.pending ∧ (dropPin s).audio = s.audio ∧ (dropPin s).lbox = s.lbox ∧ (dropPin s).pins = s.pins ∧ (dropPin s).tOffset = s.tOffset ∧ (dropPin s).boot = s.boot ∧ (dropPin s).chan = s.chan ∧ (dropPin s).hbm = s.hbm ∧ (dropPin s).glint = s.glint ∧ (dropPin s).cond = s.cond ∧ (dropPin s).tx = s.tx ∧ (dropPin s).corr = s.corr ∧ (dropPin s).mgmt = s.mgmt ∧ (dropPin s).out = s.out ∧ (dropPin s).free = s.free ∧ (dropPin s).tb = s.tb ∧ (dropPin s).now = s.now := by
  simp [dropPin]
@[simp] theorem gapOver_frame (s : State) :
    (gapOver s).pending = s.pending ∧ (gapOver s).audio = s.audio ∧ (gapOver s).lbox = s.lbox ∧ (gapOver s).tOffset = s.tOffset ∧ (gapOver s).boot = s.boot ∧ (gapOver s).chan = s.chan ∧ (gapOver s).hbm = s.hbm ∧ (gapOver s).cond = s.cond ∧ (gapOver s).tx = s.tx ∧ (gapOver s).corr = s.corr ∧ (gapOver s).link = s.link ∧ (gapOver s).mgmt = s.mgmt ∧ (gapOver s).host = s.host ∧ (gapOver s).out = s.out ∧ (gapOver s).free = s.free ∧ (gapOver s).tb = s.tb ∧ (gapOver s).now = s.now := by
  simp [gapOver]
@[simp] theorem withdraw_frame (new : Role) (cause : ℕ) (s : State) :
    (withdraw new cause s).pending = s.pending ∧ (withdraw new cause s).audio = s.audio ∧ (withdraw new cause s).lbox = s.lbox ∧ (withdraw new cause s).pins = s.pins ∧ (withdraw new cause s).tOffset = s.tOffset ∧ (withdraw new cause s).boot = s.boot ∧ (withdraw new cause s).chan = s.chan ∧ (withdraw new cause s).hbm = s.hbm ∧ (withdraw new cause s).glint = s.glint ∧ (withdraw new cause s).cond = s.cond ∧ (withdraw new cause s).tx = s.tx ∧ (withdraw new cause s).corr = s.corr ∧ (withdraw new cause s).free = s.free ∧ (withdraw new cause s).tb = s.tb ∧ (withdraw new cause s).now = s.now := by
  simp [withdraw]
@[simp] theorem openSwitchover_frame (s : State) :
    (openSwitchover s).pending = s.pending ∧ (openSwitchover s).audio = s.audio ∧ (openSwitchover s).lbox = s.lbox ∧ (openSwitchover s).pins = s.pins ∧ (openSwitchover s).tOffset = s.tOffset ∧ (openSwitchover s).boot = s.boot ∧ (openSwitchover s).chan = s.chan ∧ (openSwitchover s).hbm = s.hbm ∧ (openSwitchover s).glint = s.glint ∧ (openSwitchover s).cond = s.cond ∧ (openSwitchover s).tx = s.tx ∧ (openSwitchover s).corr = s.corr ∧ (openSwitchover s).link = s.link ∧ (openSwitchover s).free = s.free ∧ (openSwitchover s).tb = s.tb ∧ (openSwitchover s).now = s.now := by
  generalize hr : openSwitchover s = r
  simp only [openSwitchover] at hr
  repeat' split at hr
  all_goals (subst hr; simp)
@[simp] theorem published_frame (bid : ℕ) (s : State) :
    (published bid s).pending = s.pending ∧ (published bid s).audio = s.audio ∧ (published bid s).lbox = s.lbox ∧ (published bid s).pins = s.pins ∧ (published bid s).tOffset = s.tOffset ∧ (published bid s).boot = s.boot ∧ (published bid s).chan = s.chan ∧ (published bid s).hbm = s.hbm ∧ (published bid s).glint = s.glint ∧ (published bid s).cond = s.cond ∧ (published bid s).tx = s.tx ∧ (published bid s).corr = s.corr ∧ (published bid s).link = s.link ∧ (published bid s).mgmt = s.mgmt ∧ (published bid s).host = s.host ∧ (published bid s).out = s.out ∧ (published bid s).free = s.free ∧ (published bid s).tb = s.tb ∧ (published bid s).now = s.now := by
  generalize hr : published bid s = r
  simp only [published] at hr
  repeat' split at hr
  all_goals (subst hr; simp)
@[simp] theorem applyEffect_frame (d : Desc) (data : Bytes) (T : ℕ) (s : State) :
    (applyEffect d data T s).pending = s.pending ∧ (applyEffect d data T s).audio = s.audio ∧ (applyEffect d data T s).lbox = s.lbox ∧ (applyEffect d data T s).pins = s.pins ∧ (applyEffect d data T s).tOffset = s.tOffset ∧ (applyEffect d data T s).boot = s.boot ∧ (applyEffect d data T s).chan = s.chan ∧ (applyEffect d data T s).hbm = s.hbm ∧ (applyEffect d data T s).cond = s.cond ∧ (applyEffect d data T s).link = s.link ∧ (applyEffect d data T s).free = s.free ∧ (applyEffect d data T s).tb = s.tb ∧ (applyEffect d data T s).now = s.now := by
  generalize hr : applyEffect d data T s = r
  simp only [applyEffect] at hr
  repeat' split at hr
  all_goals (subst hr; simp)
@[simp] theorem releaseHeld_frame (T : ℕ) (s : State) :
    (releaseHeld T s).pending = s.pending ∧ (releaseHeld T s).audio = s.audio ∧ (releaseHeld T s).lbox = s.lbox ∧ (releaseHeld T s).pins = s.pins ∧ (releaseHeld T s).tOffset = s.tOffset ∧ (releaseHeld T s).boot = s.boot ∧ (releaseHeld T s).chan = s.chan ∧ (releaseHeld T s).hbm = s.hbm ∧ (releaseHeld T s).cond = s.cond ∧ (releaseHeld T s).link = s.link ∧ (releaseHeld T s).free = s.free ∧ (releaseHeld T s).tb = s.tb ∧ (releaseHeld T s).now = s.now := by
  simp [releaseHeld]
@[simp] theorem yieldRole_frame (s : State) :
    (yieldRole s).pending = s.pending ∧ (yieldRole s).audio = s.audio ∧ (yieldRole s).lbox = s.lbox ∧ (yieldRole s).tOffset = s.tOffset ∧ (yieldRole s).boot = s.boot ∧ (yieldRole s).chan = s.chan ∧ (yieldRole s).hbm = s.hbm ∧ (yieldRole s).cond = s.cond ∧ (yieldRole s).tx = s.tx ∧ (yieldRole s).corr = s.corr ∧ (yieldRole s).tb = s.tb ∧ (yieldRole s).now = s.now := by
  simp [yieldRole]
@[simp] theorem pinConflict_frame (s : State) :
    (pinConflict s).pending = s.pending ∧ (pinConflict s).audio = s.audio ∧ (pinConflict s).lbox = s.lbox ∧ (pinConflict s).tOffset = s.tOffset ∧ (pinConflict s).boot = s.boot ∧ (pinConflict s).chan = s.chan ∧ (pinConflict s).hbm = s.hbm ∧ (pinConflict s).cond = s.cond ∧ (pinConflict s).tx = s.tx ∧ (pinConflict s).corr = s.corr ∧ (pinConflict s).tb = s.tb ∧ (pinConflict s).now = s.now := by
  generalize hr : pinConflict s = r
  simp only [pinConflict] at hr
  repeat' split at hr
  all_goals (subst hr; simp)
@[simp] theorem claim_frame (cause : ℕ) (s : State) :
    (claim cause s).pending = s.pending ∧ (claim cause s).audio = s.audio ∧ (claim cause s).lbox = s.lbox ∧ (claim cause s).tOffset = s.tOffset ∧ (claim cause s).boot = s.boot ∧ (claim cause s).chan = s.chan ∧ (claim cause s).hbm = s.hbm ∧ (claim cause s).cond = s.cond ∧ (claim cause s).tb = s.tb ∧ (claim cause s).now = s.now := by
  generalize hr : claim cause s = r
  simp only [claim] at hr
  repeat' split at hr
  all_goals (subst hr; simp)
theorem execTwinClaimTimer_frame (t : Tick) (s : State) {t_ : State} (h : execTwinClaimTimer t s = .next t_) :
    t_.pending = s.pending ∧ t_.audio = s.audio ∧ t_.lbox = s.lbox ∧ t_.tOffset = (s.advance t).tOffset ∧ t_.boot = s.boot ∧ t_.chan = s.chan ∧ t_.hbm = s.hbm ∧ t_.cond = s.cond ∧ t_.tb = (s.advance t).tb ∧ t_.now = (s.advance t).now := by
  simp only [execTwinClaimTimer] at h
  repeat' split at h
  all_goals (cases h; simp)
@[simp] theorem handoverClaim_frame (s : State) :
    (handoverClaim s).pending = s.pending ∧ (handoverClaim s).audio = s.audio ∧ (handoverClaim s).lbox = s.lbox ∧ (handoverClaim s).tOffset = s.tOffset ∧ (handoverClaim s).boot = s.boot ∧ (handoverClaim s).chan = s.chan ∧ (handoverClaim s).hbm = s.hbm ∧ (handoverClaim s).cond = s.cond ∧ (handoverClaim s).tb = s.tb ∧ (handoverClaim s).now = s.now := by
  generalize hr : handoverClaim s = r
  simp only [handoverClaim] at hr
  repeat' split at hr
  all_goals (subst hr; simp)
@[simp] theorem noteMismatch_frame (s : State) :
    (noteMismatch s).pending = s.pending ∧ (noteMismatch s).audio = s.audio ∧ (noteMismatch s).lbox = s.lbox ∧ (noteMismatch s).pins = s.pins ∧ (noteMismatch s).tOffset = s.tOffset ∧ (noteMismatch s).boot = s.boot ∧ (noteMismatch s).chan = s.chan ∧ (noteMismatch s).hbm = s.hbm ∧ (noteMismatch s).glint = s.glint ∧ (noteMismatch s).cond = s.cond ∧ (noteMismatch s).tx = s.tx ∧ (noteMismatch s).corr = s.corr ∧ (noteMismatch s).link = s.link ∧ (noteMismatch s).mgmt = s.mgmt ∧ (noteMismatch s).host = s.host ∧ (noteMismatch s).out = s.out ∧ (noteMismatch s).free = s.free ∧ (noteMismatch s).tb = s.tb ∧ (noteMismatch s).now = s.now := by
  generalize hr : noteMismatch s = r
  simp only [noteMismatch] at hr
  repeat' split at hr
  all_goals (subst hr; simp)
theorem execTwinLitInChange_frame (t : Tick) (level : Bool) (s : State) {t_ : State} (h : execTwinLitInChange t level s = .next t_) :
    t_.pending = s.pending ∧ t_.audio = s.audio ∧ t_.lbox = s.lbox ∧ t_.tOffset = (s.advance t).tOffset ∧ t_.boot = s.boot ∧ t_.chan = s.chan ∧ t_.hbm = s.hbm ∧ t_.cond = s.cond ∧ t_.tb = (s.advance t).tb ∧ t_.now = (s.advance t).now := by
  simp only [execTwinLitInChange] at h
  repeat' split at h
  all_goals (cases h; simp)
theorem execPinMismatch_frame (t : Tick) (s : State) {t_ : State} (h : execPinMismatch t s = .next t_) :
    t_.pending = s.pending ∧ t_.audio = s.audio ∧ t_.lbox = s.lbox ∧ t_.pins = s.pins ∧ t_.tOffset = (s.advance t).tOffset ∧ t_.boot = s.boot ∧ t_.chan = s.chan ∧ t_.hbm = s.hbm ∧ t_.glint = s.glint ∧ t_.cond = s.cond ∧ t_.tx = s.tx ∧ t_.corr = s.corr ∧ t_.link = s.link ∧ t_.free = s.free ∧ t_.tb = (s.advance t).tb ∧ t_.now = (s.advance t).now := by
  simp only [execPinMismatch] at h
  repeat' split at h
  all_goals (cases h; simp)
theorem execLitTimerExpiry_frame (t : Tick) (s : State) {t_ : State} (h : execLitTimerExpiry t s = .next t_) :
    t_.pending = s.pending ∧ t_.audio = s.audio ∧ t_.lbox = s.lbox ∧ t_.pins = s.pins ∧ t_.tOffset = (s.advance t).tOffset ∧ t_.boot = s.boot ∧ t_.chan = s.chan ∧ t_.hbm = s.hbm ∧ t_.glint = s.glint ∧ t_.cond = s.cond ∧ t_.tx = s.tx ∧ t_.corr = s.corr ∧ t_.free = s.free ∧ t_.tb = (s.advance t).tb ∧ t_.now = (s.advance t).now := by
  simp only [execLitTimerExpiry] at h
  repeat' split at h
  all_goals (cases h; simp)
@[simp] theorem runTwinHandover_frame (d : Desc) (x1 : Bytes) (s : State) :
    (runTwinHandover d x1 s).pending = s.pending ∧ (runTwinHandover d x1 s).audio = s.audio ∧ (runTwinHandover d x1 s).lbox = s.lbox ∧ (runTwinHandover d x1 s).pins = s.pins ∧ (runTwinHandover d x1 s).tOffset = s.tOffset ∧ (runTwinHandover d x1 s).boot = s.boot ∧ (runTwinHandover d x1 s).chan = s.chan ∧ (runTwinHandover d x1 s).hbm = s.hbm ∧ (runTwinHandover d x1 s).glint = s.glint ∧ (runTwinHandover d x1 s).cond = s.cond ∧ (runTwinHandover d x1 s).tx = s.tx ∧ (runTwinHandover d x1 s).corr = s.corr ∧ (runTwinHandover d x1 s).tb = s.tb ∧ (runTwinHandover d x1 s).now = s.now := by
  generalize hr : runTwinHandover d x1 s = r
  simp only [runTwinHandover] at hr
  repeat' split at hr
  all_goals (subst hr; simp)
theorem execTwinHandover_frame (t : Tick) (d : Desc) (data : Bytes) (s : State) {t_ : State} (h : execTwinHandover t d data s = .next t_) :
    t_.pending = s.pending ∧ t_.audio = s.audio ∧ t_.lbox = s.lbox ∧ t_.pins = s.pins ∧ t_.tOffset = (s.advance t).tOffset ∧ t_.boot = s.boot ∧ t_.chan = s.chan ∧ t_.hbm = s.hbm ∧ t_.glint = s.glint ∧ t_.cond = s.cond ∧ t_.tx = s.tx ∧ t_.corr = s.corr ∧ t_.tb = (s.advance t).tb ∧ t_.now = (s.advance t).now := by
  simp only [execTwinHandover, Host.Outcome.next.injEq] at h
  subst h
  simp
@[simp] theorem runTwinClaim_frame (d : Desc) (x1 : Bytes) (s : State) :
    (runTwinClaim d x1 s).pending = s.pending ∧ (runTwinClaim d x1 s).audio = s.audio ∧ (runTwinClaim d x1 s).lbox = s.lbox ∧ (runTwinClaim d x1 s).tOffset = s.tOffset ∧ (runTwinClaim d x1 s).boot = s.boot ∧ (runTwinClaim d x1 s).chan = s.chan ∧ (runTwinClaim d x1 s).hbm = s.hbm ∧ (runTwinClaim d x1 s).cond = s.cond ∧ (runTwinClaim d x1 s).tb = s.tb ∧ (runTwinClaim d x1 s).now = s.now := by
  generalize hr : runTwinClaim d x1 s = r
  simp only [runTwinClaim] at hr
  repeat' split at hr
  all_goals (subst hr; simp)
theorem execTwinClaim_frame (t : Tick) (d : Desc) (data : Bytes) (s : State) {t_ : State} (h : execTwinClaim t d data s = .next t_) :
    t_.pending = s.pending ∧ t_.audio = s.audio ∧ t_.lbox = s.lbox ∧ t_.tOffset = (s.advance t).tOffset ∧ t_.boot = s.boot ∧ t_.chan = s.chan ∧ t_.hbm = s.hbm ∧ t_.cond = s.cond ∧ t_.tb = (s.advance t).tb ∧ t_.now = (s.advance t).now := by
  simp only [execTwinClaim, Host.Outcome.next.injEq] at h
  subst h
  simp
@[simp] theorem runTwinMap_frame (d : Desc) (data : Bytes) (s : State) :
    (runTwinMap d data s).pending = s.pending ∧ (runTwinMap d data s).audio = s.audio ∧ (runTwinMap d data s).lbox = s.lbox ∧ (runTwinMap d data s).pins = s.pins ∧ (runTwinMap d data s).tOffset = s.tOffset ∧ (runTwinMap d data s).boot = s.boot ∧ (runTwinMap d data s).chan = s.chan ∧ (runTwinMap d data s).hbm = s.hbm ∧ (runTwinMap d data s).glint = s.glint ∧ (runTwinMap d data s).cond = s.cond ∧ (runTwinMap d data s).tx = s.tx ∧ (runTwinMap d data s).corr = s.corr ∧ (runTwinMap d data s).link = s.link ∧ (runTwinMap d data s).tb = s.tb ∧ (runTwinMap d data s).now = s.now := by
  generalize hr : runTwinMap d data s = r
  simp only [runTwinMap] at hr
  repeat' split at hr
  all_goals (subst hr; simp)
theorem execTwinMap_frame (t : Tick) (d : Desc) (data : Bytes) (s : State) {t_ : State} (h : execTwinMap t d data s = .next t_) :
    t_.pending = s.pending ∧ t_.audio = s.audio ∧ t_.lbox = s.lbox ∧ t_.pins = s.pins ∧ t_.tOffset = (s.advance t).tOffset ∧ t_.boot = s.boot ∧ t_.chan = s.chan ∧ t_.hbm = s.hbm ∧ t_.glint = s.glint ∧ t_.cond = s.cond ∧ t_.tx = s.tx ∧ t_.corr = s.corr ∧ t_.link = s.link ∧ t_.tb = (s.advance t).tb ∧ t_.now = (s.advance t).now := by
  simp only [execTwinMap, Host.Outcome.next.injEq] at h
  subst h
  simp
@[simp] theorem setPair_frame (on : Bool) (ctl : Reg) (s : State) :
    (setPair on ctl s).pending = s.pending ∧ (setPair on ctl s).audio = s.audio ∧ (setPair on ctl s).lbox = s.lbox ∧ (setPair on ctl s).tOffset = s.tOffset ∧ (setPair on ctl s).boot = s.boot ∧ (setPair on ctl s).chan = s.chan ∧ (setPair on ctl s).hbm = s.hbm ∧ (setPair on ctl s).cond = s.cond ∧ (setPair on ctl s).free = s.free ∧ (setPair on ctl s).tb = s.tb ∧ (setPair on ctl s).now = s.now := by
  generalize hr : setPair on ctl s = r
  simp only [setPair] at hr
  repeat' split at hr
  all_goals (subst hr; simp)
@[simp] theorem writeTwinCtl_frame (v : Reg) (s : State) :
    (writeTwinCtl v s).pending = s.pending ∧ (writeTwinCtl v s).audio = s.audio ∧ (writeTwinCtl v s).lbox = s.lbox ∧ (writeTwinCtl v s).tOffset = s.tOffset ∧ (writeTwinCtl v s).boot = s.boot ∧ (writeTwinCtl v s).chan = s.chan ∧ (writeTwinCtl v s).hbm = s.hbm ∧ (writeTwinCtl v s).cond = s.cond ∧ (writeTwinCtl v s).free = s.free ∧ (writeTwinCtl v s).tb = s.tb ∧ (writeTwinCtl v s).now = s.now := by
  generalize hr : writeTwinCtl v s = r
  simp only [writeTwinCtl] at hr
  repeat' split at hr
  all_goals (subst hr; simp)
@[simp] theorem sendArb_frame (op : ℕ) (a : Arb) (result : ℕ) (s : State) :
    (sendArb op a result s).pending = s.pending ∧ (sendArb op a result s).audio = s.audio ∧ (sendArb op a result s).lbox = s.lbox ∧ (sendArb op a result s).pins = s.pins ∧ (sendArb op a result s).tOffset = s.tOffset ∧ (sendArb op a result s).boot = s.boot ∧ (sendArb op a result s).chan = s.chan ∧ (sendArb op a result s).hbm = s.hbm ∧ (sendArb op a result s).glint = s.glint ∧ (sendArb op a result s).cond = s.cond ∧ (sendArb op a result s).tx = s.tx ∧ (sendArb op a result s).corr = s.corr ∧ (sendArb op a result s).twin = s.twin ∧ (sendArb op a result s).host = s.host ∧ (sendArb op a result s).free = s.free ∧ (sendArb op a result s).tb = s.tb ∧ (sendArb op a result s).now = s.now := by
  simp [sendArb]
@[simp] theorem openArbWindow_frame (cls : ℕ) (subject : ℕ) (s : State) :
    (openArbWindow cls subject s).pending = s.pending ∧ (openArbWindow cls subject s).audio = s.audio ∧ (openArbWindow cls subject s).lbox = s.lbox ∧ (openArbWindow cls subject s).pins = s.pins ∧ (openArbWindow cls subject s).tOffset = s.tOffset ∧ (openArbWindow cls subject s).boot = s.boot ∧ (openArbWindow cls subject s).chan = s.chan ∧ (openArbWindow cls subject s).hbm = s.hbm ∧ (openArbWindow cls subject s).glint = s.glint ∧ (openArbWindow cls subject s).cond = s.cond ∧ (openArbWindow cls subject s).tx = s.tx ∧ (openArbWindow cls subject s).corr = s.corr ∧ (openArbWindow cls subject s).link = s.link ∧ (openArbWindow cls subject s).free = s.free ∧ (openArbWindow cls subject s).tb = s.tb ∧ (openArbWindow cls subject s).now = s.now := by
  generalize hr : openArbWindow cls subject s = r
  simp only [openArbWindow] at hr
  repeat' split at hr
  all_goals (subst hr; simp)
@[simp] theorem beginArb_frame (a : Arb) (s : State) :
    (beginArb a s).pending = s.pending ∧ (beginArb a s).audio = s.audio ∧ (beginArb a s).lbox = s.lbox ∧ (beginArb a s).pins = s.pins ∧ (beginArb a s).tOffset = s.tOffset ∧ (beginArb a s).boot = s.boot ∧ (beginArb a s).chan = s.chan ∧ (beginArb a s).hbm = s.hbm ∧ (beginArb a s).glint = s.glint ∧ (beginArb a s).cond = s.cond ∧ (beginArb a s).tx = s.tx ∧ (beginArb a s).corr = s.corr ∧ (beginArb a s).link = s.link ∧ (beginArb a s).mgmt = s.mgmt ∧ (beginArb a s).host = s.host ∧ (beginArb a s).out = s.out ∧ (beginArb a s).free = s.free ∧ (beginArb a s).tb = s.tb ∧ (beginArb a s).now = s.now := by
  generalize hr : beginArb a s = r
  simp only [beginArb] at hr
  repeat' split at hr
  all_goals (subst hr; simp)
@[simp] theorem nextArb_frame (s : State) :
    (nextArb s).pending = s.pending ∧ (nextArb s).audio = s.audio ∧ (nextArb s).lbox = s.lbox ∧ (nextArb s).pins = s.pins ∧ (nextArb s).tOffset = s.tOffset ∧ (nextArb s).boot = s.boot ∧ (nextArb s).chan = s.chan ∧ (nextArb s).hbm = s.hbm ∧ (nextArb s).glint = s.glint ∧ (nextArb s).cond = s.cond ∧ (nextArb s).tx = s.tx ∧ (nextArb s).corr = s.corr ∧ (nextArb s).host = s.host ∧ (nextArb s).tb = s.tb ∧ (nextArb s).now = s.now := by
  generalize hr : nextArb s = r
  simp only [nextArb] at hr
  repeat' split at hr
  all_goals (subst hr; simp)
@[simp] theorem mismatchOn_frame (cls : ℕ) (subject : ℕ) (s : State) :
    (mismatchOn cls subject s).pending = s.pending ∧ (mismatchOn cls subject s).audio = s.audio ∧ (mismatchOn cls subject s).lbox = s.lbox ∧ (mismatchOn cls subject s).pins = s.pins ∧ (mismatchOn cls subject s).tOffset = s.tOffset ∧ (mismatchOn cls subject s).boot = s.boot ∧ (mismatchOn cls subject s).chan = s.chan ∧ (mismatchOn cls subject s).hbm = s.hbm ∧ (mismatchOn cls subject s).glint = s.glint ∧ (mismatchOn cls subject s).cond = s.cond ∧ (mismatchOn cls subject s).tx = s.tx ∧ (mismatchOn cls subject s).corr = s.corr ∧ (mismatchOn cls subject s).tb = s.tb ∧ (mismatchOn cls subject s).now = s.now := by
  generalize hr : mismatchOn cls subject s = r
  simp only [mismatchOn] at hr
  repeat' split at hr
  all_goals (subst hr; simp)
@[simp] theorem endArb_frame (a : Arb) (agree : ℕ) (s : State) :
    (endArb a agree s).pending = s.pending ∧ (endArb a agree s).audio = s.audio ∧ (endArb a agree s).lbox = s.lbox ∧ (endArb a agree s).pins = s.pins ∧ (endArb a agree s).tOffset = s.tOffset ∧ (endArb a agree s).boot = s.boot ∧ (endArb a agree s).chan = s.chan ∧ (endArb a agree s).hbm = s.hbm ∧ (endArb a agree s).glint = s.glint ∧ (endArb a agree s).cond = s.cond ∧ (endArb a agree s).tx = s.tx ∧ (endArb a agree s).corr = s.corr ∧ (endArb a agree s).host = s.host ∧ (endArb a agree s).tb = s.tb ∧ (endArb a agree s).now = s.now := by
  simp [endArb]
@[simp] theorem verdict_frame (a : Arb) (lit : ℕ) (shadow : ℕ) (s : State) :
    (verdict a lit shadow s).pending = s.pending ∧ (verdict a lit shadow s).audio = s.audio ∧ (verdict a lit shadow s).lbox = s.lbox ∧ (verdict a lit shadow s).pins = s.pins ∧ (verdict a lit shadow s).tOffset = s.tOffset ∧ (verdict a lit shadow s).boot = s.boot ∧ (verdict a lit shadow s).chan = s.chan ∧ (verdict a lit shadow s).hbm = s.hbm ∧ (verdict a lit shadow s).glint = s.glint ∧ (verdict a lit shadow s).cond = s.cond ∧ (verdict a lit shadow s).tx = s.tx ∧ (verdict a lit shadow s).corr = s.corr ∧ (verdict a lit shadow s).tb = s.tb ∧ (verdict a lit shadow s).now = s.now := by
  generalize hr : verdict a lit shadow s = r
  simp only [verdict] at hr
  repeat' split at hr
  all_goals (subst hr; simp)
@[simp] theorem decideArb_frame (s : State) :
    (decideArb s).pending = s.pending ∧ (decideArb s).audio = s.audio ∧ (decideArb s).lbox = s.lbox ∧ (decideArb s).pins = s.pins ∧ (decideArb s).tOffset = s.tOffset ∧ (decideArb s).boot = s.boot ∧ (decideArb s).chan = s.chan ∧ (decideArb s).hbm = s.hbm ∧ (decideArb s).glint = s.glint ∧ (decideArb s).cond = s.cond ∧ (decideArb s).tx = s.tx ∧ (decideArb s).corr = s.corr ∧ (decideArb s).tb = s.tb ∧ (decideArb s).now = s.now := by
  generalize hr : decideArb s = r
  simp only [decideArb] at hr
  repeat' split at hr
  all_goals (subst hr; simp)
theorem execArbitrationOpen_frame (t : Tick) (f : RawFrame) (s : State) {t_ : State} (h : execArbitrationOpen t f s = .next t_) :
    t_.pending = s.pending ∧ t_.audio = s.audio ∧ t_.lbox = s.lbox ∧ t_.pins = s.pins ∧ t_.tOffset = (s.advance t).tOffset ∧ t_.boot = s.boot ∧ t_.chan = s.chan ∧ t_.hbm = s.hbm ∧ t_.glint = s.glint ∧ t_.cond = s.cond ∧ t_.tx = s.tx ∧ t_.corr = s.corr ∧ t_.tb = (s.advance t).tb ∧ t_.now = (s.advance t).now := by
  unfold execArbitrationOpen at h
  extract_lets at h
  repeat' split at h
  all_goals (have h' := Host.Outcome.next.inj h; subst h'; clear h)
  all_goals first
    | (simp +zetaDelta; done)
    | refine ⟨(twinTake_pending _ _ _ _  fun b s => ?_).trans (by simp +zetaDelta), (twinTake_audio _ _ _ _  fun b s => ?_).trans (by simp +zetaDelta), (twinTake_lbox _ _ _ _  fun b s => ?_).trans (by simp +zetaDelta), (twinTake_pins _ _ _ _  fun b s => ?_).trans (by simp +zetaDelta), (twinTake_tOffset _ _ _ _  fun b s => ?_).trans (by simp +zetaDelta), (twinTake_boot _ _ _ _  fun b s => ?_).trans (by simp +zetaDelta), (twinTake_chan _ _ _ _  fun b s => ?_).trans (by simp +zetaDelta), (twinTake_hbm _ _ _ _  fun b s => ?_).trans (by simp +zetaDelta), (twinTake_glint _ _ _ _  fun b s => ?_).trans (by simp +zetaDelta), (twinTake_cond _ _ _ _  fun b s => ?_).trans (by simp +zetaDelta), (twinTake_tx _ _ _ _  fun b s => ?_).trans (by simp +zetaDelta), (twinTake_corr _ _ _ _  fun b s => ?_).trans (by simp +zetaDelta), (twinTake_tb _ _ _ _  fun b s => ?_).trans (by simp +zetaDelta), (twinTake_now _ _ _ _  fun b s => ?_).trans (by simp +zetaDelta)⟩
  all_goals (try dsimp only)
  all_goals (repeat' (first | rfl | split))
  all_goals (try simp)
theorem execRecomputationDone_frame (t : Tick) (s : State) {t_ : State} (h : execRecomputationDone t s = .next t_) :
    t_.pending = s.pending ∧ t_.audio = s.audio ∧ t_.lbox = s.lbox ∧ t_.pins = s.pins ∧ t_.tOffset = (s.advance t).tOffset ∧ t_.boot = s.boot ∧ t_.chan = s.chan ∧ t_.hbm = s.hbm ∧ t_.glint = s.glint ∧ t_.cond = s.cond ∧ t_.tx = s.tx ∧ t_.corr = s.corr ∧ t_.tb = (s.advance t).tb ∧ t_.now = (s.advance t).now := by
  simp only [execRecomputationDone] at h
  repeat' split at h
  all_goals (cases h; simp)
theorem execArbitrationResult_frame (t : Tick) (f : RawFrame) (s : State) {t_ : State} (h : execArbitrationResult t f s = .next t_) :
    t_.pending = s.pending ∧ t_.audio = s.audio ∧ t_.lbox = s.lbox ∧ t_.pins = s.pins ∧ t_.tOffset = (s.advance t).tOffset ∧ t_.boot = s.boot ∧ t_.chan = s.chan ∧ t_.hbm = s.hbm ∧ t_.glint = s.glint ∧ t_.cond = s.cond ∧ t_.tx = s.tx ∧ t_.corr = s.corr ∧ t_.tb = (s.advance t).tb ∧ t_.now = (s.advance t).now := by
  unfold execArbitrationResult at h
  extract_lets at h
  repeat' split at h
  all_goals (have h' := Host.Outcome.next.inj h; subst h'; clear h)
  all_goals first
    | (simp +zetaDelta; done)
    | refine ⟨(twinTake_pending _ _ _ _  fun b s => ?_).trans (by simp +zetaDelta), (twinTake_audio _ _ _ _  fun b s => ?_).trans (by simp +zetaDelta), (twinTake_lbox _ _ _ _  fun b s => ?_).trans (by simp +zetaDelta), (twinTake_pins _ _ _ _  fun b s => ?_).trans (by simp +zetaDelta), (twinTake_tOffset _ _ _ _  fun b s => ?_).trans (by simp +zetaDelta), (twinTake_boot _ _ _ _  fun b s => ?_).trans (by simp +zetaDelta), (twinTake_chan _ _ _ _  fun b s => ?_).trans (by simp +zetaDelta), (twinTake_hbm _ _ _ _  fun b s => ?_).trans (by simp +zetaDelta), (twinTake_glint _ _ _ _  fun b s => ?_).trans (by simp +zetaDelta), (twinTake_cond _ _ _ _  fun b s => ?_).trans (by simp +zetaDelta), (twinTake_tx _ _ _ _  fun b s => ?_).trans (by simp +zetaDelta), (twinTake_corr _ _ _ _  fun b s => ?_).trans (by simp +zetaDelta), (twinTake_tb _ _ _ _  fun b s => ?_).trans (by simp +zetaDelta), (twinTake_now _ _ _ _  fun b s => ?_).trans (by simp +zetaDelta)⟩
  all_goals (try dsimp only)
  all_goals (repeat' (first | rfl | split))
  all_goals (try simp)
theorem execArbitrationTimeout_frame (t : Tick) (s : State) {t_ : State} (h : execArbitrationTimeout t s = .next t_) :
    t_.pending = s.pending ∧ t_.audio = s.audio ∧ t_.lbox = s.lbox ∧ t_.pins = s.pins ∧ t_.tOffset = (s.advance t).tOffset ∧ t_.boot = s.boot ∧ t_.chan = s.chan ∧ t_.hbm = s.hbm ∧ t_.glint = s.glint ∧ t_.cond = s.cond ∧ t_.tx = s.tx ∧ t_.corr = s.corr ∧ t_.host = s.host ∧ t_.tb = (s.advance t).tb ∧ t_.now = (s.advance t).now := by
  simp only [execArbitrationTimeout] at h
  repeat' split at h
  all_goals (cases h; simp)
@[simp] theorem noteAgreed_frame (x : DigestEntry) (s : State) :
    (noteAgreed x s).pending = s.pending ∧ (noteAgreed x s).audio = s.audio ∧ (noteAgreed x s).lbox = s.lbox ∧ (noteAgreed x s).pins = s.pins ∧ (noteAgreed x s).tOffset = s.tOffset ∧ (noteAgreed x s).boot = s.boot ∧ (noteAgreed x s).chan = s.chan ∧ (noteAgreed x s).hbm = s.hbm ∧ (noteAgreed x s).glint = s.glint ∧ (noteAgreed x s).cond = s.cond ∧ (noteAgreed x s).tx = s.tx ∧ (noteAgreed x s).corr = s.corr ∧ (noteAgreed x s).link = s.link ∧ (noteAgreed x s).mgmt = s.mgmt ∧ (noteAgreed x s).host = s.host ∧ (noteAgreed x s).out = s.out ∧ (noteAgreed x s).free = s.free ∧ (noteAgreed x s).tb = s.tb ∧ (noteAgreed x s).now = s.now := by
  generalize hr : noteAgreed x s = r
  simp only [noteAgreed] at hr
  repeat' split at hr
  all_goals (subst hr; simp)
@[simp] theorem markCompared_frame (x : DigestEntry) (s : State) :
    (markCompared x s).pending = s.pending ∧ (markCompared x s).audio = s.audio ∧ (markCompared x s).lbox = s.lbox ∧ (markCompared x s).pins = s.pins ∧ (markCompared x s).tOffset = s.tOffset ∧ (markCompared x s).boot = s.boot ∧ (markCompared x s).chan = s.chan ∧ (markCompared x s).hbm = s.hbm ∧ (markCompared x s).glint = s.glint ∧ (markCompared x s).cond = s.cond ∧ (markCompared x s).tx = s.tx ∧ (markCompared x s).corr = s.corr ∧ (markCompared x s).link = s.link ∧ (markCompared x s).mgmt = s.mgmt ∧ (markCompared x s).host = s.host ∧ (markCompared x s).out = s.out ∧ (markCompared x s).free = s.free ∧ (markCompared x s).tb = s.tb ∧ (markCompared x s).now = s.now := by
  simp [markCompared]
@[simp] theorem compareOwn_frame (x : DigestEntry) (s : State) :
    (compareOwn x s).pending = s.pending ∧ (compareOwn x s).audio = s.audio ∧ (compareOwn x s).lbox = s.lbox ∧ (compareOwn x s).pins = s.pins ∧ (compareOwn x s).tOffset = s.tOffset ∧ (compareOwn x s).boot = s.boot ∧ (compareOwn x s).chan = s.chan ∧ (compareOwn x s).hbm = s.hbm ∧ (compareOwn x s).glint = s.glint ∧ (compareOwn x s).cond = s.cond ∧ (compareOwn x s).tx = s.tx ∧ (compareOwn x s).corr = s.corr ∧ (compareOwn x s).tb = s.tb ∧ (compareOwn x s).now = s.now := by
  generalize hr : compareOwn x s = r
  simp only [compareOwn] at hr
  repeat' split at hr
  all_goals (subst hr; simp)
@[simp] theorem compareAll_frame (s : State) :
    (compareAll s).pending = s.pending ∧ (compareAll s).audio = s.audio ∧ (compareAll s).lbox = s.lbox ∧ (compareAll s).pins = s.pins ∧ (compareAll s).tOffset = s.tOffset ∧ (compareAll s).boot = s.boot ∧ (compareAll s).chan = s.chan ∧ (compareAll s).hbm = s.hbm ∧ (compareAll s).glint = s.glint ∧ (compareAll s).cond = s.cond ∧ (compareAll s).tx = s.tx ∧ (compareAll s).corr = s.corr ∧ (compareAll s).tb = s.tb ∧ (compareAll s).now = s.now := by
  simp [compareAll]
theorem execDigestSend_frame (t : Tick) (s : State) {t_ : State} (h : execDigestSend t s = .next t_) :
    t_.pending = s.pending ∧ t_.audio = s.audio ∧ t_.lbox = s.lbox ∧ t_.pins = s.pins ∧ t_.tOffset = (s.advance t).tOffset ∧ t_.boot = s.boot ∧ t_.chan = s.chan ∧ t_.hbm = s.hbm ∧ t_.glint = s.glint ∧ t_.cond = s.cond ∧ t_.tx = s.tx ∧ t_.corr = s.corr ∧ t_.tb = (s.advance t).tb ∧ t_.now = (s.advance t).now := by
  simp only [execDigestSend] at h
  repeat' split at h
  all_goals (cases h; simp)
@[simp] theorem forgetRecord_frame (subject : ℕ) (s : State) :
    (forgetRecord subject s).pending = s.pending ∧ (forgetRecord subject s).audio = s.audio ∧ (forgetRecord subject s).lbox = s.lbox ∧ (forgetRecord subject s).pins = s.pins ∧ (forgetRecord subject s).tOffset = s.tOffset ∧ (forgetRecord subject s).boot = s.boot ∧ (forgetRecord subject s).chan = s.chan ∧ (forgetRecord subject s).hbm = s.hbm ∧ (forgetRecord subject s).glint = s.glint ∧ (forgetRecord subject s).cond = s.cond ∧ (forgetRecord subject s).tx = s.tx ∧ (forgetRecord subject s).corr = s.corr ∧ (forgetRecord subject s).link = s.link ∧ (forgetRecord subject s).twin = s.twin ∧ (forgetRecord subject s).mgmt = s.mgmt ∧ (forgetRecord subject s).out = s.out ∧ (forgetRecord subject s).free = s.free ∧ (forgetRecord subject s).tb = s.tb ∧ (forgetRecord subject s).now = s.now := by
  generalize hr : forgetRecord subject s = r
  simp only [forgetRecord] at hr
  repeat' split at hr
  all_goals (subst hr; simp)
@[simp] theorem takeEntry_frame (x : DigestEntry) (s : State) :
    (takeEntry x s).pending = s.pending ∧ (takeEntry x s).audio = s.audio ∧ (takeEntry x s).lbox = s.lbox ∧ (takeEntry x s).pins = s.pins ∧ (takeEntry x s).tOffset = s.tOffset ∧ (takeEntry x s).boot = s.boot ∧ (takeEntry x s).chan = s.chan ∧ (takeEntry x s).hbm = s.hbm ∧ (takeEntry x s).glint = s.glint ∧ (takeEntry x s).cond = s.cond ∧ (takeEntry x s).tx = s.tx ∧ (takeEntry x s).corr = s.corr ∧ (takeEntry x s).link = s.link ∧ (takeEntry x s).mgmt = s.mgmt ∧ (takeEntry x s).out = s.out ∧ (takeEntry x s).free = s.free ∧ (takeEntry x s).tb = s.tb ∧ (takeEntry x s).now = s.now := by
  generalize hr : takeEntry x s = r
  simp only [takeEntry] at hr
  repeat' split at hr
  all_goals (subst hr; simp)
theorem execDigestFrame_frame (t : Tick) (f : RawFrame) (s : State) {t_ : State} (h : execDigestFrame t f s = .next t_) :
    t_.pending = s.pending ∧ t_.audio = s.audio ∧ t_.lbox = s.lbox ∧ t_.pins = s.pins ∧ t_.tOffset = (s.advance t).tOffset ∧ t_.boot = s.boot ∧ t_.chan = s.chan ∧ t_.hbm = s.hbm ∧ t_.glint = s.glint ∧ t_.cond = s.cond ∧ t_.tx = s.tx ∧ t_.corr = s.corr ∧ t_.tb = (s.advance t).tb ∧ t_.now = (s.advance t).now := by
  simp only [execDigestFrame, Host.Outcome.next.injEq] at h
  subst h
  simp
theorem execMirrorCheckLate_frame (t : Tick) (cls : BitVec 8) (subject : BitVec 64) (s : State) {t_ : State} (h : execMirrorCheckLate t cls subject s = .next t_) :
    t_.pending = s.pending ∧ t_.audio = s.audio ∧ t_.lbox = s.lbox ∧ t_.pins = s.pins ∧ t_.tOffset = (s.advance t).tOffset ∧ t_.boot = s.boot ∧ t_.chan = s.chan ∧ t_.hbm = s.hbm ∧ t_.glint = s.glint ∧ t_.cond = s.cond ∧ t_.tx = s.tx ∧ t_.corr = s.corr ∧ t_.tb = (s.advance t).tb ∧ t_.now = (s.advance t).now := by
  simp only [execMirrorCheckLate] at h
  repeat' split at h
  all_goals (cases h; simp)
@[simp] theorem takeSkew_frame (time : ℕ) (s : State) :
    (takeSkew time s).pending = s.pending ∧ (takeSkew time s).audio = s.audio ∧ (takeSkew time s).lbox = s.lbox ∧ (takeSkew time s).pins = s.pins ∧ (takeSkew time s).tOffset = s.tOffset ∧ (takeSkew time s).boot = s.boot ∧ (takeSkew time s).chan = s.chan ∧ (takeSkew time s).hbm = s.hbm ∧ (takeSkew time s).glint = s.glint ∧ (takeSkew time s).cond = s.cond ∧ (takeSkew time s).tx = s.tx ∧ (takeSkew time s).corr = s.corr ∧ (takeSkew time s).link = s.link ∧ (takeSkew time s).mgmt = s.mgmt ∧ (takeSkew time s).host = s.host ∧ (takeSkew time s).out = s.out ∧ (takeSkew time s).free = s.free ∧ (takeSkew time s).tb = s.tb ∧ (takeSkew time s).now = s.now := by
  simp [takeSkew]
@[simp] theorem takeEqual_frame (digest : ℕ) (s : State) :
    (takeEqual digest s).pending = s.pending ∧ (takeEqual digest s).audio = s.audio ∧ (takeEqual digest s).lbox = s.lbox ∧ (takeEqual digest s).pins = s.pins ∧ (takeEqual digest s).tOffset = s.tOffset ∧ (takeEqual digest s).boot = s.boot ∧ (takeEqual digest s).chan = s.chan ∧ (takeEqual digest s).hbm = s.hbm ∧ (takeEqual digest s).glint = s.glint ∧ (takeEqual digest s).cond = s.cond ∧ (takeEqual digest s).tx = s.tx ∧ (takeEqual digest s).corr = s.corr ∧ (takeEqual digest s).link = s.link ∧ (takeEqual digest s).free = s.free ∧ (takeEqual digest s).tb = s.tb ∧ (takeEqual digest s).now = s.now := by
  generalize hr : takeEqual digest s = r
  simp only [takeEqual] at hr
  repeat' split at hr
  all_goals (subst hr; simp)
theorem execTwinHeartbeat_frame (t : Tick) (f : RawFrame) (s : State) {t_ : State} (h : execTwinHeartbeat t f s = .next t_) :
    t_.pending = s.pending ∧ t_.audio = s.audio ∧ t_.lbox = s.lbox ∧ t_.tOffset = (s.advance t).tOffset ∧ t_.boot = s.boot ∧ t_.chan = s.chan ∧ t_.hbm = s.hbm ∧ t_.cond = s.cond ∧ t_.tb = (s.advance t).tb ∧ t_.now = (s.advance t).now := by
  unfold execTwinHeartbeat at h
  extract_lets at h
  repeat' split at h
  all_goals (have h' := Host.Outcome.next.inj h; subst h'; clear h)
  all_goals first
    | (simp +zetaDelta; done)
    | refine ⟨(twinTake_pending _ _ _ _  fun b s => ?_).trans (by simp +zetaDelta), (twinTake_audio _ _ _ _  fun b s => ?_).trans (by simp +zetaDelta), (twinTake_lbox _ _ _ _  fun b s => ?_).trans (by simp +zetaDelta), (twinTake_tOffset _ _ _ _  fun b s => ?_).trans (by simp +zetaDelta), (twinTake_boot _ _ _ _  fun b s => ?_).trans (by simp +zetaDelta), (twinTake_chan _ _ _ _  fun b s => ?_).trans (by simp +zetaDelta), (twinTake_hbm _ _ _ _  fun b s => ?_).trans (by simp +zetaDelta), (twinTake_cond _ _ _ _  fun b s => ?_).trans (by simp +zetaDelta), (twinTake_tb _ _ _ _  fun b s => ?_).trans (by simp +zetaDelta), (twinTake_now _ _ _ _  fun b s => ?_).trans (by simp +zetaDelta)⟩
  all_goals (try dsimp only)
  all_goals (repeat' (first | rfl | split))
  all_goals (try simp)
theorem execPartnerLost_frame (t : Tick) (s : State) {t_ : State} (h : execPartnerLost t s = .next t_) :
    t_.pending = s.pending ∧ t_.audio = s.audio ∧ t_.lbox = s.lbox ∧ t_.pins = s.pins ∧ t_.tOffset = (s.advance t).tOffset ∧ t_.boot = s.boot ∧ t_.chan = s.chan ∧ t_.hbm = s.hbm ∧ t_.glint = s.glint ∧ t_.cond = s.cond ∧ t_.tx = s.tx ∧ t_.corr = s.corr ∧ t_.tb = (s.advance t).tb ∧ t_.now = (s.advance t).now := by
  simp only [execPartnerLost] at h
  repeat' split at h
  all_goals (cases h; simp)
theorem execTimeSkew_frame (t : Tick) (s : State) {t_ : State} (h : execTimeSkew t s = .next t_) :
    t_.pending = s.pending ∧ t_.audio = s.audio ∧ t_.lbox = s.lbox ∧ t_.pins = s.pins ∧ t_.tOffset = (s.advance t).tOffset ∧ t_.boot = s.boot ∧ t_.chan = s.chan ∧ t_.hbm = s.hbm ∧ t_.glint = s.glint ∧ t_.cond = s.cond ∧ t_.tx = s.tx ∧ t_.corr = s.corr ∧ t_.link = s.link ∧ t_.free = s.free ∧ t_.tb = (s.advance t).tb ∧ t_.now = (s.advance t).now := by
  simp only [execTimeSkew] at h
  repeat' split at h
  all_goals (cases h; simp)
theorem execInStep_frame (t : Tick) (s : State) {t_ : State} (h : execInStep t s = .next t_) :
    t_.pending = s.pending ∧ t_.audio = s.audio ∧ t_.lbox = s.lbox ∧ t_.pins = s.pins ∧ t_.tOffset = (s.advance t).tOffset ∧ t_.boot = s.boot ∧ t_.chan = s.chan ∧ t_.hbm = s.hbm ∧ t_.glint = s.glint ∧ t_.cond = s.cond ∧ t_.tx = s.tx ∧ t_.corr = s.corr ∧ t_.link = s.link ∧ t_.free = s.free ∧ t_.tb = (s.advance t).tb ∧ t_.now = (s.advance t).now := by
  simp only [execInStep] at h
  repeat' split at h
  all_goals (cases h; simp)
@[simp] theorem publishFor_frame (code : ℕ) (id : ℕ) (s : State) :
    (publishFor code id s).pending = s.pending ∧ (publishFor code id s).audio = s.audio ∧ (publishFor code id s).lbox = s.lbox ∧ (publishFor code id s).pins = s.pins ∧ (publishFor code id s).tOffset = s.tOffset ∧ (publishFor code id s).boot = s.boot ∧ (publishFor code id s).chan = s.chan ∧ (publishFor code id s).hbm = s.hbm ∧ (publishFor code id s).cond = s.cond ∧ (publishFor code id s).tx = s.tx ∧ (publishFor code id s).corr = s.corr ∧ (publishFor code id s).tb = s.tb ∧ (publishFor code id s).now = s.now := by
  generalize hr : publishFor code id s = r
  simp only [publishFor] at hr
  repeat' split at hr
  all_goals (subst hr; simp)
@[simp] theorem reconcile_frame (since : ℕ) (s : State) :
    (reconcile since s).pending = s.pending ∧ (reconcile since s).audio = s.audio ∧ (reconcile since s).lbox = s.lbox ∧ (reconcile since s).pins = s.pins ∧ (reconcile since s).tOffset = s.tOffset ∧ (reconcile since s).boot = s.boot ∧ (reconcile since s).chan = s.chan ∧ (reconcile since s).hbm = s.hbm ∧ (reconcile since s).cond = s.cond ∧ (reconcile since s).tx = s.tx ∧ (reconcile since s).corr = s.corr ∧ (reconcile since s).tb = s.tb ∧ (reconcile since s).now = s.now := by
  unfold reconcile
  extract_lets
  refine ⟨(foldl_pending _ _ _ fun s a => ?_).trans ?_, (foldl_audio _ _ _ fun s a => ?_).trans ?_, (foldl_lbox _ _ _ fun s a => ?_).trans ?_, (foldl_pins _ _ _ fun s a => ?_).trans ?_, (foldl_tOffset _ _ _ fun s a => ?_).trans ?_, (foldl_boot _ _ _ fun s a => ?_).trans ?_, (foldl_chan _ _ _ fun s a => ?_).trans ?_, (foldl_hbm _ _ _ fun s a => ?_).trans ?_, (foldl_cond _ _ _ fun s a => ?_).trans ?_, (foldl_tx _ _ _ fun s a => ?_).trans ?_, (foldl_corr _ _ _ fun s a => ?_).trans ?_, (foldl_tb _ _ _ fun s a => ?_).trans ?_, (foldl_now _ _ _ fun s a => ?_).trans ?_⟩
  all_goals first
    | (repeat' (first | rfl | split)
       all_goals simp
       done)
    | (apply foldl_pending
       intros
       repeat' (first | rfl | split)
       all_goals simp
       done)
    | (apply foldl_audio
       intros
       repeat' (first | rfl | split)
       all_goals simp
       done)
    | (apply foldl_lbox
       intros
       repeat' (first | rfl | split)
       all_goals simp
       done)
    | (apply foldl_pins
       intros
       repeat' (first | rfl | split)
       all_goals simp
       done)
    | (apply foldl_tOffset
       intros
       repeat' (first | rfl | split)
       all_goals simp
       done)
    | (apply foldl_boot
       intros
       repeat' (first | rfl | split)
       all_goals simp
       done)
    | (apply foldl_chan
       intros
       repeat' (first | rfl | split)
       all_goals simp
       done)
    | (apply foldl_hbm
       intros
       repeat' (first | rfl | split)
       all_goals simp
       done)
    | (apply foldl_cond
       intros
       repeat' (first | rfl | split)
       all_goals simp
       done)
    | (apply foldl_tx
       intros
       repeat' (first | rfl | split)
       all_goals simp
       done)
    | (apply foldl_corr
       intros
       repeat' (first | rfl | split)
       all_goals simp
       done)
    | (apply foldl_tb
       intros
       repeat' (first | rfl | split)
       all_goals simp
       done)
    | (apply foldl_now
       intros
       repeat' (first | rfl | split)
       all_goals simp
       done)
theorem execTwinGateOpen_frame (t : Tick) (s : State) {t_ : State} (h : execTwinGateOpen t s = .next t_) :
    t_.pending = s.pending ∧ t_.audio = s.audio ∧ t_.lbox = s.lbox ∧ t_.tOffset = (s.advance t).tOffset ∧ t_.boot = s.boot ∧ t_.chan = s.chan ∧ t_.hbm = s.hbm ∧ t_.cond = s.cond ∧ t_.corr = s.corr ∧ t_.tb = (s.advance t).tb ∧ t_.now = (s.advance t).now := by
  simp only [execTwinGateOpen] at h
  repeat' split at h
  all_goals (cases h; simp)
theorem execEffectFrame_frame (t : Tick) (f : RawFrame) (s : State) {t_ : State} (h : execEffectFrame t f s = .next t_) :
    t_.pending = s.pending ∧ t_.audio = s.audio ∧ t_.lbox = s.lbox ∧ t_.pins = s.pins ∧ t_.tOffset = (s.advance t).tOffset ∧ t_.boot = s.boot ∧ t_.chan = s.chan ∧ t_.hbm = s.hbm ∧ t_.cond = s.cond ∧ t_.free = s.free ∧ t_.tb = (s.advance t).tb ∧ t_.now = (s.advance t).now := by
  unfold execEffectFrame at h
  extract_lets at h
  repeat' split at h
  all_goals (have h' := Host.Outcome.next.inj h; subst h'; clear h)
  all_goals first
    | (simp +zetaDelta; done)
    | refine ⟨(twinTake_pending _ _ _ _  fun b s => ?_).trans (by simp +zetaDelta), (twinTake_audio _ _ _ _  fun b s => ?_).trans (by simp +zetaDelta), (twinTake_lbox _ _ _ _  fun b s => ?_).trans (by simp +zetaDelta), (twinTake_pins _ _ _ _  fun b s => ?_).trans (by simp +zetaDelta), (twinTake_tOffset _ _ _ _  fun b s => ?_).trans (by simp +zetaDelta), (twinTake_boot _ _ _ _  fun b s => ?_).trans (by simp +zetaDelta), (twinTake_chan _ _ _ _  fun b s => ?_).trans (by simp +zetaDelta), (twinTake_hbm _ _ _ _  fun b s => ?_).trans (by simp +zetaDelta), (twinTake_cond _ _ _ _  fun b s => ?_).trans (by simp +zetaDelta), (twinTake_free _ _ _ _  fun b s => ?_).trans (by simp +zetaDelta), (twinTake_tb _ _ _ _  fun b s => ?_).trans (by simp +zetaDelta), (twinTake_now _ _ _ _  fun b s => ?_).trans (by simp +zetaDelta)⟩
  all_goals (try dsimp only)
  all_goals (repeat' (first | rfl | split))
  all_goals (try simp)
theorem execHostTimedEffect_frame (t : Tick) (index : BitVec 32) (s : State) {t_ : State} (h : execHostTimedEffect t index s = .next t_) :
    t_.pending = s.pending ∧ t_.audio = s.audio ∧ t_.lbox = s.lbox ∧ t_.tOffset = (s.advance t).tOffset ∧ t_.boot = s.boot ∧ t_.hbm = s.hbm ∧ t_.link = s.link ∧ t_.free = s.free ∧ t_.tb = (s.advance t).tb ∧ t_.now = (s.advance t).now := by
  simp only [execHostTimedEffect] at h
  repeat' split at h
  all_goals (cases h; simp)
@[simp] theorem dmaSpend_frame (ring : ℕ) (b : ℕ) (s : State) :
    (dmaSpend ring b s).pending = s.pending ∧ (dmaSpend ring b s).audio = s.audio ∧ (dmaSpend ring b s).lbox = s.lbox ∧ (dmaSpend ring b s).pins = s.pins ∧ (dmaSpend ring b s).tOffset = s.tOffset ∧ (dmaSpend ring b s).boot = s.boot ∧ (dmaSpend ring b s).chan = s.chan ∧ (dmaSpend ring b s).hbm = s.hbm ∧ (dmaSpend ring b s).glint = s.glint ∧ (dmaSpend ring b s).cond = s.cond ∧ (dmaSpend ring b s).tx = s.tx ∧ (dmaSpend ring b s).corr = s.corr ∧ (dmaSpend ring b s).link = s.link ∧ (dmaSpend ring b s).twin = s.twin ∧ (dmaSpend ring b s).mgmt = s.mgmt ∧ (dmaSpend ring b s).out = s.out ∧ (dmaSpend ring b s).free = s.free ∧ (dmaSpend ring b s).tb = s.tb ∧ (dmaSpend ring b s).now = s.now := by
  simp [dmaSpend]
@[simp] theorem dmaServe_frame (ring : ℕ) (b : ℕ) (s : State) :
    (dmaServe ring b s).pending = s.pending ∧ (dmaServe ring b s).audio = s.audio ∧ (dmaServe ring b s).lbox = s.lbox ∧ (dmaServe ring b s).pins = s.pins ∧ (dmaServe ring b s).tOffset = s.tOffset ∧ (dmaServe ring b s).boot = s.boot ∧ (dmaServe ring b s).chan = s.chan ∧ (dmaServe ring b s).hbm = s.hbm ∧ (dmaServe ring b s).glint = s.glint ∧ (dmaServe ring b s).cond = s.cond ∧ (dmaServe ring b s).tx = s.tx ∧ (dmaServe ring b s).corr = s.corr ∧ (dmaServe ring b s).link = s.link ∧ (dmaServe ring b s).twin = s.twin ∧ (dmaServe ring b s).mgmt = s.mgmt ∧ (dmaServe ring b s).out = s.out ∧ (dmaServe ring b s).free = s.free ∧ (dmaServe ring b s).tb = s.tb ∧ (dmaServe ring b s).now = s.now := by
  simp [dmaServe]
@[simp] theorem dropTaken_frame (o : Outlet) (id : ℕ) (cause : ℕ) (s : State) :
    (dropTaken o id cause s).pending = s.pending ∧ (dropTaken o id cause s).audio = s.audio ∧ (dropTaken o id cause s).lbox = s.lbox ∧ (dropTaken o id cause s).pins = s.pins ∧ (dropTaken o id cause s).tOffset = s.tOffset ∧ (dropTaken o id cause s).boot = s.boot ∧ (dropTaken o id cause s).chan = s.chan ∧ (dropTaken o id cause s).hbm = s.hbm ∧ (dropTaken o id cause s).glint = s.glint ∧ (dropTaken o id cause s).cond = s.cond ∧ (dropTaken o id cause s).tx = s.tx ∧ (dropTaken o id cause s).corr = s.corr ∧ (dropTaken o id cause s).link = s.link ∧ (dropTaken o id cause s).mgmt = s.mgmt ∧ (dropTaken o id cause s).out = s.out ∧ (dropTaken o id cause s).free = s.free ∧ (dropTaken o id cause s).tb = s.tb ∧ (dropTaken o id cause s).now = s.now := by
  generalize hr : dropTaken o id cause s = r
  simp only [dropTaken] at hr
  repeat' split at hr
  all_goals (subst hr; simp)
@[simp] theorem takeIntoRing_frame (o : Outlet) (r : ℕ) (w : Taking) (s : State) :
    (takeIntoRing o r w s).pending = s.pending ∧ (takeIntoRing o r w s).audio = s.audio ∧ (takeIntoRing o r w s).lbox = s.lbox ∧ (takeIntoRing o r w s).pins = s.pins ∧ (takeIntoRing o r w s).tOffset = s.tOffset ∧ (takeIntoRing o r w s).boot = s.boot ∧ (takeIntoRing o r w s).chan = s.chan ∧ (takeIntoRing o r w s).hbm = s.hbm ∧ (takeIntoRing o r w s).glint = s.glint ∧ (takeIntoRing o r w s).cond = s.cond ∧ (takeIntoRing o r w s).tx = s.tx ∧ (takeIntoRing o r w s).corr = s.corr ∧ (takeIntoRing o r w s).link = s.link ∧ (takeIntoRing o r w s).twin = s.twin ∧ (takeIntoRing o r w s).mgmt = s.mgmt ∧ (takeIntoRing o r w s).free = s.free ∧ (takeIntoRing o r w s).tb = s.tb ∧ (takeIntoRing o r w s).now = s.now := by
  generalize hr : takeIntoRing o r w s = r
  simp only [takeIntoRing] at hr
  repeat' split at hr
  all_goals (subst hr; simp)
@[simp] theorem sendSegments_frame (q : ℕ) (bid : ℕ) (rec_ : Bytes) (a : ℕ) (a4 : ℕ) (a5 : State) :
    (sendSegments q bid rec_ a a4 a5).2.pending = a5.pending ∧ (sendSegments q bid rec_ a a4 a5).2.audio = a5.audio ∧ (sendSegments q bid rec_ a a4 a5).2.lbox = a5.lbox ∧ (sendSegments q bid rec_ a a4 a5).2.pins = a5.pins ∧ (sendSegments q bid rec_ a a4 a5).2.tOffset = a5.tOffset ∧ (sendSegments q bid rec_ a a4 a5).2.boot = a5.boot ∧ (sendSegments q bid rec_ a a4 a5).2.chan = a5.chan ∧ (sendSegments q bid rec_ a a4 a5).2.hbm = a5.hbm ∧ (sendSegments q bid rec_ a a4 a5).2.glint = a5.glint ∧ (sendSegments q bid rec_ a a4 a5).2.cond = a5.cond ∧ (sendSegments q bid rec_ a a4 a5).2.tx = a5.tx ∧ (sendSegments q bid rec_ a a4 a5).2.corr = a5.corr ∧ (sendSegments q bid rec_ a a4 a5).2.twin = a5.twin ∧ (sendSegments q bid rec_ a a4 a5).2.free = a5.free ∧ (sendSegments q bid rec_ a a4 a5).2.tb = a5.tb ∧ (sendSegments q bid rec_ a a4 a5).2.now = a5.now := by
  induction a generalizing a4 a5 with
  | zero => simp [sendSegments]
  | succ n ih =>
    generalize hr : sendSegments q bid rec_ (n + 1) a4 a5 = r
    simp only [sendSegments] at hr
    repeat' (first | split at hr)
    all_goals (subst hr; simp [ih])
@[simp] theorem doneRecord_frame (o : Outlet) (w : Taking) (agree : ℕ) (s : State) :
    (doneRecord o w agree s).pending = s.pending ∧ (doneRecord o w agree s).audio = s.audio ∧ (doneRecord o w agree s).lbox = s.lbox ∧ (doneRecord o w agree s).pins = s.pins ∧ (doneRecord o w agree s).tOffset = s.tOffset ∧ (doneRecord o w agree s).boot = s.boot ∧ (doneRecord o w agree s).chan = s.chan ∧ (doneRecord o w agree s).hbm = s.hbm ∧ (doneRecord o w agree s).glint = s.glint ∧ (doneRecord o w agree s).cond = s.cond ∧ (doneRecord o w agree s).tx = s.tx ∧ (doneRecord o w agree s).corr = s.corr ∧ (doneRecord o w agree s).link = s.link ∧ (doneRecord o w agree s).mgmt = s.mgmt ∧ (doneRecord o w agree s).out = s.out ∧ (doneRecord o w agree s).free = s.free ∧ (doneRecord o w agree s).tb = s.tb ∧ (doneRecord o w agree s).now = s.now := by
  generalize hr : doneRecord o w agree s = r
  simp only [doneRecord] at hr
  repeat' split at hr
  all_goals (subst hr; simp)
@[simp] theorem quadSend_frame (o : Outlet) (q : ℕ) (s : State) :
    (quadSend o q s).pending = s.pending ∧ (quadSend o q s).audio = s.audio ∧ (quadSend o q s).lbox = s.lbox ∧ (quadSend o q s).pins = s.pins ∧ (quadSend o q s).tOffset = s.tOffset ∧ (quadSend o q s).boot = s.boot ∧ (quadSend o q s).chan = s.chan ∧ (quadSend o q s).hbm = s.hbm ∧ (quadSend o q s).glint = s.glint ∧ (quadSend o q s).cond = s.cond ∧ (quadSend o q s).tx = s.tx ∧ (quadSend o q s).corr = s.corr ∧ (quadSend o q s).free = s.free ∧ (quadSend o q s).tb = s.tb ∧ (quadSend o q s).now = s.now := by
  generalize hr : quadSend o q s = r
  simp only [quadSend] at hr
  repeat' split at hr
  all_goals (subst hr; simp)
@[simp] theorem takeOntoQuad_frame (o : Outlet) (q : ℕ) (w : Taking) (s : State) :
    (takeOntoQuad o q w s).pending = s.pending ∧ (takeOntoQuad o q w s).audio = s.audio ∧ (takeOntoQuad o q w s).lbox = s.lbox ∧ (takeOntoQuad o q w s).pins = s.pins ∧ (takeOntoQuad o q w s).tOffset = s.tOffset ∧ (takeOntoQuad o q w s).boot = s.boot ∧ (takeOntoQuad o q w s).chan = s.chan ∧ (takeOntoQuad o q w s).hbm = s.hbm ∧ (takeOntoQuad o q w s).glint = s.glint ∧ (takeOntoQuad o q w s).cond = s.cond ∧ (takeOntoQuad o q w s).tx = s.tx ∧ (takeOntoQuad o q w s).corr = s.corr ∧ (takeOntoQuad o q w s).free = s.free ∧ (takeOntoQuad o q w s).tb = s.tb ∧ (takeOntoQuad o q w s).now = s.now := by
  generalize hr : takeOntoQuad o q w s = r
  simp only [takeOntoQuad] at hr
  repeat' split at hr
  all_goals (subst hr; simp)
theorem execOutletTakeRecord_frame (t : Tick) (o : Outlet) (ecc : List Ecc) (s : State) {t_ : State} (h : execOutletTakeRecord t o ecc s = .next t_) :
    t_.pending = s.pending ∧ t_.audio = s.audio ∧ t_.lbox = s.lbox ∧ t_.pins = s.pins ∧ t_.tOffset = (s.advance t).tOffset ∧ t_.boot = s.boot ∧ t_.chan = s.chan ∧ t_.glint = s.glint ∧ t_.cond = s.cond ∧ t_.tx = s.tx ∧ t_.corr = s.corr ∧ t_.tb = (s.advance t).tb ∧ t_.now = (s.advance t).now := by
  simp only [execOutletTakeRecord] at h
  repeat' split at h
  all_goals (cases h; simp)
@[simp] theorem writeTrailer_frame (o : Outlet) (r : ℕ) (a : Active) (agree : ℕ) (bad : Bool) (s : State) :
    (writeTrailer o r a agree bad s).pending = s.pending ∧ (writeTrailer o r a agree bad s).audio = s.audio ∧ (writeTrailer o r a agree bad s).lbox = s.lbox ∧ (writeTrailer o r a agree bad s).pins = s.pins ∧ (writeTrailer o r a agree bad s).tOffset = s.tOffset ∧ (writeTrailer o r a agree bad s).boot = s.boot ∧ (writeTrailer o r a agree bad s).chan = s.chan ∧ (writeTrailer o r a agree bad s).hbm = s.hbm ∧ (writeTrailer o r a agree bad s).glint = s.glint ∧ (writeTrailer o r a agree bad s).cond = s.cond ∧ (writeTrailer o r a agree bad s).tx = s.tx ∧ (writeTrailer o r a agree bad s).corr = s.corr ∧ (writeTrailer o r a agree bad s).link = s.link ∧ (writeTrailer o r a agree bad s).twin = s.twin ∧ (writeTrailer o r a agree bad s).mgmt = s.mgmt ∧ (writeTrailer o r a agree bad s).free = s.free ∧ (writeTrailer o r a agree bad s).tb = s.tb ∧ (writeTrailer o r a agree bad s).now = s.now := by
  simp [writeTrailer]
theorem execTrailerWrite_frame (t : Tick) (o : Outlet) (s : State) {t_ : State} (h : execTrailerWrite t o s = .next t_) :
    t_.pending = s.pending ∧ t_.audio = s.audio ∧ t_.lbox = s.lbox ∧ t_.pins = s.pins ∧ t_.tOffset = (s.advance t).tOffset ∧ t_.boot = s.boot ∧ t_.chan = s.chan ∧ t_.hbm = s.hbm ∧ t_.glint = s.glint ∧ t_.cond = s.cond ∧ t_.tx = s.tx ∧ t_.corr = s.corr ∧ t_.link = s.link ∧ t_.twin = s.twin ∧ t_.mgmt = s.mgmt ∧ t_.free = s.free ∧ t_.tb = (s.advance t).tb ∧ t_.now = (s.advance t).now := by
  simp only [execTrailerWrite] at h
  repeat' split at h
  all_goals (cases h; simp)
@[simp] theorem itemVisible_frame (glint : Bool) (i : Item) (s : State) :
    (itemVisible glint i s).pending = s.pending ∧ (itemVisible glint i s).audio = s.audio ∧ (itemVisible glint i s).lbox = s.lbox ∧ (itemVisible glint i s).pins = s.pins ∧ (itemVisible glint i s).tOffset = s.tOffset ∧ (itemVisible glint i s).boot = s.boot ∧ (itemVisible glint i s).chan = s.chan ∧ (itemVisible glint i s).hbm = s.hbm ∧ (itemVisible glint i s).glint = s.glint ∧ (itemVisible glint i s).cond = s.cond ∧ (itemVisible glint i s).tx = s.tx ∧ (itemVisible glint i s).corr = s.corr ∧ (itemVisible glint i s).link = s.link ∧ (itemVisible glint i s).twin = s.twin ∧ (itemVisible glint i s).free = s.free ∧ (itemVisible glint i s).tb = s.tb ∧ (itemVisible glint i s).now = s.now := by
  generalize hr : itemVisible glint i s = r
  simp only [itemVisible] at hr
  repeat' split at hr
  all_goals (subst hr; simp)
@[simp] theorem confirmRing_frame (o : Outlet) (trailerDone : Bool) (s : State) :
    (confirmRing o trailerDone s).pending = s.pending ∧ (confirmRing o trailerDone s).audio = s.audio ∧ (confirmRing o trailerDone s).lbox = s.lbox ∧ (confirmRing o trailerDone s).pins = s.pins ∧ (confirmRing o trailerDone s).tOffset = s.tOffset ∧ (confirmRing o trailerDone s).boot = s.boot ∧ (confirmRing o trailerDone s).chan = s.chan ∧ (confirmRing o trailerDone s).hbm = s.hbm ∧ (confirmRing o trailerDone s).glint = s.glint ∧ (confirmRing o trailerDone s).cond = s.cond ∧ (confirmRing o trailerDone s).tx = s.tx ∧ (confirmRing o trailerDone s).corr = s.corr ∧ (confirmRing o trailerDone s).link = s.link ∧ (confirmRing o trailerDone s).mgmt = s.mgmt ∧ (confirmRing o trailerDone s).out = s.out ∧ (confirmRing o trailerDone s).free = s.free ∧ (confirmRing o trailerDone s).tb = s.tb ∧ (confirmRing o trailerDone s).now = s.now := by
  generalize hr : confirmRing o trailerDone s = r
  simp only [confirmRing] at hr
  repeat' split at hr
  all_goals (subst hr; simp)
@[simp] theorem confirmJob_frame (j : WriteJob) (s : State) :
    (confirmJob j s).pending = s.pending ∧ (confirmJob j s).audio = s.audio ∧ (confirmJob j s).lbox = s.lbox ∧ (confirmJob j s).pins = s.pins ∧ (confirmJob j s).tOffset = s.tOffset ∧ (confirmJob j s).boot = s.boot ∧ (confirmJob j s).chan = s.chan ∧ (confirmJob j s).hbm = s.hbm ∧ (confirmJob j s).glint = s.glint ∧ (confirmJob j s).cond = s.cond ∧ (confirmJob j s).tx = s.tx ∧ (confirmJob j s).corr = s.corr ∧ (confirmJob j s).link = s.link ∧ (confirmJob j s).free = s.free ∧ (confirmJob j s).tb = s.tb ∧ (confirmJob j s).now = s.now := by
  generalize hr : confirmJob j s = r
  simp only [confirmJob] at hr
  repeat' split at hr
  all_goals (subst hr; simp)
@[simp] theorem dmaError_frame (subject : ℕ) (cause : DmaCause) (seq : ℕ) (s : State) :
    (dmaError subject cause seq s).pending = s.pending ∧ (dmaError subject cause seq s).audio = s.audio ∧ (dmaError subject cause seq s).lbox = s.lbox ∧ (dmaError subject cause seq s).pins = s.pins ∧ (dmaError subject cause seq s).tOffset = s.tOffset ∧ (dmaError subject cause seq s).boot = s.boot ∧ (dmaError subject cause seq s).chan = s.chan ∧ (dmaError subject cause seq s).hbm = s.hbm ∧ (dmaError subject cause seq s).glint = s.glint ∧ (dmaError subject cause seq s).cond = s.cond ∧ (dmaError subject cause seq s).tx = s.tx ∧ (dmaError subject cause seq s).corr = s.corr ∧ (dmaError subject cause seq s).link = s.link ∧ (dmaError subject cause seq s).twin = s.twin ∧ (dmaError subject cause seq s).free = s.free ∧ (dmaError subject cause seq s).tb = s.tb ∧ (dmaError subject cause seq s).now = s.now := by
  simp [dmaError]
@[simp] theorem resendJob_frame (id : ℕ) (j : WriteJob) (s : State) :
    (resendJob id j s).pending = s.pending ∧ (resendJob id j s).audio = s.audio ∧ (resendJob id j s).lbox = s.lbox ∧ (resendJob id j s).pins = s.pins ∧ (resendJob id j s).tOffset = s.tOffset ∧ (resendJob id j s).boot = s.boot ∧ (resendJob id j s).chan = s.chan ∧ (resendJob id j s).hbm = s.hbm ∧ (resendJob id j s).glint = s.glint ∧ (resendJob id j s).cond = s.cond ∧ (resendJob id j s).tx = s.tx ∧ (resendJob id j s).corr = s.corr ∧ (resendJob id j s).link = s.link ∧ (resendJob id j s).twin = s.twin ∧ (resendJob id j s).mgmt = s.mgmt ∧ (resendJob id j s).free = s.free ∧ (resendJob id j s).tb = s.tb ∧ (resendJob id j s).now = s.now := by
  simp [resendJob]
@[simp] theorem failRecord_frame (id : ℕ) (j : WriteJob) (o : Outlet) (cause : DmaCause) (s : State) :
    (failRecord id j o cause s).pending = s.pending ∧ (failRecord id j o cause s).audio = s.audio ∧ (failRecord id j o cause s).lbox = s.lbox ∧ (failRecord id j o cause s).pins = s.pins ∧ (failRecord id j o cause s).tOffset = s.tOffset ∧ (failRecord id j o cause s).boot = s.boot ∧ (failRecord id j o cause s).chan = s.chan ∧ (failRecord id j o cause s).hbm = s.hbm ∧ (failRecord id j o cause s).glint = s.glint ∧ (failRecord id j o cause s).cond = s.cond ∧ (failRecord id j o cause s).tx = s.tx ∧ (failRecord id j o cause s).corr = s.corr ∧ (failRecord id j o cause s).link = s.link ∧ (failRecord id j o cause s).free = s.free ∧ (failRecord id j o cause s).tb = s.tb ∧ (failRecord id j o cause s).now = s.now := by
  generalize hr : failRecord id j o cause s = r
  simp only [failRecord] at hr
  repeat' split at hr
  all_goals (subst hr; simp)
theorem execWriteJobReadback_frame (t : Tick) (job : ℕ) (result : Option DmaCause) (s : State) {t_ : State} (h : execWriteJobReadback t job result s = .next t_) :
    t_.pending = s.pending ∧ t_.audio = s.audio ∧ t_.lbox = s.lbox ∧ t_.pins = s.pins ∧ t_.tOffset = (s.advance t).tOffset ∧ t_.boot = s.boot ∧ t_.chan = s.chan ∧ t_.hbm = s.hbm ∧ t_.glint = s.glint ∧ t_.cond = s.cond ∧ t_.tx = s.tx ∧ t_.corr = s.corr ∧ t_.link = s.link ∧ t_.free = s.free ∧ t_.tb = (s.advance t).tb ∧ t_.now = (s.advance t).now := by
  simp only [execWriteJobReadback] at h
  repeat' split at h
  all_goals (cases h; simp)
theorem execStatusBlockRefresh_frame (t : Tick) (s : State) {t_ : State} (h : execStatusBlockRefresh t s = .next t_) :
    t_.pending = s.pending ∧ t_.audio = s.audio ∧ t_.lbox = s.lbox ∧ t_.pins = s.pins ∧ t_.tOffset = (s.advance t).tOffset ∧ t_.boot = s.boot ∧ t_.chan = s.chan ∧ t_.hbm = s.hbm ∧ t_.glint = s.glint ∧ t_.cond = s.cond ∧ t_.tx = s.tx ∧ t_.corr = s.corr ∧ t_.link = s.link ∧ t_.free = s.free ∧ t_.tb = (s.advance t).tb ∧ t_.now = (s.advance t).now := by
  simp only [execStatusBlockRefresh] at h
  repeat' split at h
  all_goals (cases h; simp)
@[simp] theorem drainN_frame (a : ℕ) (a1 : State) :
    (drainN a a1).pending = a1.pending ∧ (drainN a a1).audio = a1.audio ∧ (drainN a a1).lbox = a1.lbox ∧ (drainN a a1).pins = a1.pins ∧ (drainN a a1).tOffset = a1.tOffset ∧ (drainN a a1).boot = a1.boot ∧ (drainN a a1).chan = a1.chan ∧ (drainN a a1).hbm = a1.hbm ∧ (drainN a a1).glint = a1.glint ∧ (drainN a a1).cond = a1.cond ∧ (drainN a a1).tx = a1.tx ∧ (drainN a a1).corr = a1.corr ∧ (drainN a a1).link = a1.link ∧ (drainN a a1).twin = a1.twin ∧ (drainN a a1).mgmt = a1.mgmt ∧ (drainN a a1).free = a1.free ∧ (drainN a a1).tb = a1.tb ∧ (drainN a a1).now = a1.now := by
  induction a generalizing a1 with
  | zero => simp [drainN]
  | succ n ih =>
    generalize hr : drainN (n + 1) a1 = r
    simp only [drainN] at hr
    repeat' (first | split at hr)
    all_goals (subst hr; simp [ih])
theorem execEventQueueDrain_frame (t : Tick) (s : State) {t_ : State} (h : execEventQueueDrain t s = .next t_) :
    t_.pending = s.pending ∧ t_.audio = s.audio ∧ t_.lbox = s.lbox ∧ t_.pins = s.pins ∧ t_.tOffset = (s.advance t).tOffset ∧ t_.boot = s.boot ∧ t_.chan = s.chan ∧ t_.hbm = s.hbm ∧ t_.glint = s.glint ∧ t_.cond = s.cond ∧ t_.tx = s.tx ∧ t_.corr = s.corr ∧ t_.link = s.link ∧ t_.twin = s.twin ∧ t_.free = s.free ∧ t_.tb = (s.advance t).tb ∧ t_.now = (s.advance t).now := by
  simp only [execEventQueueDrain] at h
  repeat' split at h
  all_goals (cases h; simp)
theorem execMsixTimerExpiry_frame (t : Tick) (v : Fin 64) (s : State) {t_ : State} (h : execMsixTimerExpiry t v s = .next t_) :
    t_.pending = s.pending ∧ t_.audio = s.audio ∧ t_.lbox = s.lbox ∧ t_.pins = s.pins ∧ t_.tOffset = (s.advance t).tOffset ∧ t_.boot = s.boot ∧ t_.chan = s.chan ∧ t_.hbm = s.hbm ∧ t_.glint = s.glint ∧ t_.cond = s.cond ∧ t_.tx = s.tx ∧ t_.corr = s.corr ∧ t_.link = s.link ∧ t_.twin = s.twin ∧ t_.mgmt = s.mgmt ∧ t_.free = s.free ∧ t_.tb = (s.advance t).tb ∧ t_.now = (s.advance t).now := by
  simp only [execMsixTimerExpiry] at h
  repeat' split at h
  all_goals (cases h; simp)
theorem execSourceRingRead_frame (t : Tick) (ring : Fin 32) (bytes : Option Bytes) (s : State) {t_ : State} (h : execSourceRingRead t ring bytes s = .next t_) :
    t_.pending = s.pending ∧ t_.audio = s.audio ∧ t_.lbox = s.lbox ∧ t_.pins = s.pins ∧ t_.tOffset = (s.advance t).tOffset ∧ t_.boot = s.boot ∧ t_.chan = s.chan ∧ t_.hbm = s.hbm ∧ t_.glint = s.glint ∧ t_.cond = s.cond ∧ t_.tx = s.tx ∧ t_.corr = s.corr ∧ t_.link = s.link ∧ t_.twin = s.twin ∧ t_.out = s.out ∧ t_.free = s.free ∧ t_.tb = (s.advance t).tb ∧ t_.now = (s.advance t).now := by
  simp only [execSourceRingRead] at h
  repeat' split at h
  all_goals (cases h; simp)
@[simp] theorem haltDma_frame (s : State) :
    (haltDma s).pending = s.pending ∧ (haltDma s).audio = s.audio ∧ (haltDma s).lbox = s.lbox ∧ (haltDma s).pins = s.pins ∧ (haltDma s).tOffset = s.tOffset ∧ (haltDma s).boot = s.boot ∧ (haltDma s).chan = s.chan ∧ (haltDma s).hbm = s.hbm ∧ (haltDma s).glint = s.glint ∧ (haltDma s).cond = s.cond ∧ (haltDma s).tx = s.tx ∧ (haltDma s).corr = s.corr ∧ (haltDma s).link = s.link ∧ (haltDma s).twin = s.twin ∧ (haltDma s).mgmt = s.mgmt ∧ (haltDma s).out = s.out ∧ (haltDma s).free = s.free ∧ (haltDma s).tb = s.tb ∧ (haltDma s).now = s.now := by
  simp [haltDma]
@[simp] theorem resumeDma_frame (s : State) :
    (resumeDma s).pending = s.pending ∧ (resumeDma s).audio = s.audio ∧ (resumeDma s).lbox = s.lbox ∧ (resumeDma s).pins = s.pins ∧ (resumeDma s).tOffset = s.tOffset ∧ (resumeDma s).boot = s.boot ∧ (resumeDma s).chan = s.chan ∧ (resumeDma s).hbm = s.hbm ∧ (resumeDma s).glint = s.glint ∧ (resumeDma s).cond = s.cond ∧ (resumeDma s).tx = s.tx ∧ (resumeDma s).corr = s.corr ∧ (resumeDma s).link = s.link ∧ (resumeDma s).twin = s.twin ∧ (resumeDma s).mgmt = s.mgmt ∧ (resumeDma s).free = s.free ∧ (resumeDma s).tb = s.tb ∧ (resumeDma s).now = s.now := by
  simp [resumeDma]
@[simp] theorem followLink_frame (s : State) :
    (followLink s).pending = s.pending ∧ (followLink s).audio = s.audio ∧ (followLink s).lbox = s.lbox ∧ (followLink s).pins = s.pins ∧ (followLink s).tOffset = s.tOffset ∧ (followLink s).boot = s.boot ∧ (followLink s).chan = s.chan ∧ (followLink s).hbm = s.hbm ∧ (followLink s).glint = s.glint ∧ (followLink s).cond = s.cond ∧ (followLink s).tx = s.tx ∧ (followLink s).corr = s.corr ∧ (followLink s).link = s.link ∧ (followLink s).twin = s.twin ∧ (followLink s).mgmt = s.mgmt ∧ (followLink s).free = s.free ∧ (followLink s).tb = s.tb ∧ (followLink s).now = s.now := by
  generalize hr : followLink s = r
  simp only [followLink] at hr
  repeat' split at hr
  all_goals (subst hr; simp)
@[simp] theorem writeHostCtl_frame (v : Reg) (s : State) :
    (writeHostCtl v s).pending = s.pending ∧ (writeHostCtl v s).audio = s.audio ∧ (writeHostCtl v s).lbox = s.lbox ∧ (writeHostCtl v s).pins = s.pins ∧ (writeHostCtl v s).tOffset = s.tOffset ∧ (writeHostCtl v s).boot = s.boot ∧ (writeHostCtl v s).chan = s.chan ∧ (writeHostCtl v s).hbm = s.hbm ∧ (writeHostCtl v s).glint = s.glint ∧ (writeHostCtl v s).cond = s.cond ∧ (writeHostCtl v s).tx = s.tx ∧ (writeHostCtl v s).corr = s.corr ∧ (writeHostCtl v s).link = s.link ∧ (writeHostCtl v s).twin = s.twin ∧ (writeHostCtl v s).mgmt = s.mgmt ∧ (writeHostCtl v s).free = s.free ∧ (writeHostCtl v s).tb = s.tb ∧ (writeHostCtl v s).now = s.now := by
  simp [writeHostCtl]
@[simp] theorem loseLink_frame (cause : LinkLoss) (s : State) :
    (loseLink cause s).pending = s.pending ∧ (loseLink cause s).audio = s.audio ∧ (loseLink cause s).lbox = s.lbox ∧ (loseLink cause s).pins = s.pins ∧ (loseLink cause s).tOffset = s.tOffset ∧ (loseLink cause s).boot = s.boot ∧ (loseLink cause s).chan = s.chan ∧ (loseLink cause s).hbm = s.hbm ∧ (loseLink cause s).glint = s.glint ∧ (loseLink cause s).cond = s.cond ∧ (loseLink cause s).tx = s.tx ∧ (loseLink cause s).corr = s.corr ∧ (loseLink cause s).link = s.link ∧ (loseLink cause s).twin = s.twin ∧ (loseLink cause s).mgmt = s.mgmt ∧ (loseLink cause s).free = s.free ∧ (loseLink cause s).tb = s.tb ∧ (loseLink cause s).now = s.now := by
  generalize hr : loseLink cause s = r
  simp only [loseLink] at hr
  repeat' split at hr
  all_goals (subst hr; simp)
theorem execHostLinkLoss_frame (t : Tick) (cause : LinkLoss) (s : State) {t_ : State} (h : execHostLinkLoss t cause s = .next t_) :
    t_.pending = s.pending ∧ t_.audio = s.audio ∧ t_.lbox = s.lbox ∧ t_.pins = s.pins ∧ t_.tOffset = (s.advance t).tOffset ∧ t_.boot = s.boot ∧ t_.chan = s.chan ∧ t_.hbm = s.hbm ∧ t_.glint = s.glint ∧ t_.cond = s.cond ∧ t_.tx = s.tx ∧ t_.corr = s.corr ∧ t_.link = s.link ∧ t_.twin = s.twin ∧ t_.mgmt = s.mgmt ∧ t_.free = s.free ∧ t_.tb = (s.advance t).tb ∧ t_.now = (s.advance t).now := by
  simp only [execHostLinkLoss] at h
  repeat' split at h
  all_goals (cases h; simp)
theorem execPcieLinkTrained_frame (t : Tick) (gen : Fin 6) (link : PciLink) (s : State) {t_ : State} (h : execPcieLinkTrained t gen link s = .next t_) :
    t_.pending = s.pending ∧ t_.audio = s.audio ∧ t_.lbox = s.lbox ∧ t_.pins = s.pins ∧ t_.tOffset = (s.advance t).tOffset ∧ t_.boot = s.boot ∧ t_.chan = s.chan ∧ t_.hbm = s.hbm ∧ t_.glint = s.glint ∧ t_.cond = s.cond ∧ t_.tx = s.tx ∧ t_.corr = s.corr ∧ t_.link = s.link ∧ t_.twin = s.twin ∧ t_.mgmt = s.mgmt ∧ t_.free = s.free ∧ t_.tb = (s.advance t).tb ∧ t_.now = (s.advance t).now := by
  simp only [execPcieLinkTrained] at h
  repeat' split at h
  all_goals (cases h; simp)
@[simp] theorem postClosings_frame (was : Vector Gate 3) (s : State) :
    (postClosings was s).pending = s.pending ∧ (postClosings was s).audio = s.audio ∧ (postClosings was s).lbox = s.lbox ∧ (postClosings was s).pins = s.pins ∧ (postClosings was s).tOffset = s.tOffset ∧ (postClosings was s).boot = s.boot ∧ (postClosings was s).chan = s.chan ∧ (postClosings was s).hbm = s.hbm ∧ (postClosings was s).glint = s.glint ∧ (postClosings was s).cond = s.cond ∧ (postClosings was s).tx = s.tx ∧ (postClosings was s).corr = s.corr ∧ (postClosings was s).link = s.link ∧ (postClosings was s).twin = s.twin ∧ (postClosings was s).free = s.free ∧ (postClosings was s).tb = s.tb ∧ (postClosings was s).now = s.now := by
  unfold postClosings
  refine ⟨(foldl_pending _ _ _ fun s a => ?_), (foldl_audio _ _ _ fun s a => ?_), (foldl_lbox _ _ _ fun s a => ?_), (foldl_pins _ _ _ fun s a => ?_), (foldl_tOffset _ _ _ fun s a => ?_), (foldl_boot _ _ _ fun s a => ?_), (foldl_chan _ _ _ fun s a => ?_), (foldl_hbm _ _ _ fun s a => ?_), (foldl_glint _ _ _ fun s a => ?_), (foldl_cond _ _ _ fun s a => ?_), (foldl_tx _ _ _ fun s a => ?_), (foldl_corr _ _ _ fun s a => ?_), (foldl_link _ _ _ fun s a => ?_), (foldl_twin _ _ _ fun s a => ?_), (foldl_free _ _ _ fun s a => ?_), (foldl_tb _ _ _ fun s a => ?_), (foldl_now _ _ _ fun s a => ?_)⟩
  all_goals (try dsimp only)
  all_goals (repeat' (first | rfl | split))
  all_goals (try simp)
@[simp] theorem postTimeLoss_frame (was : State) (s : State) :
    (postTimeLoss was s).pending = s.pending ∧ (postTimeLoss was s).audio = s.audio ∧ (postTimeLoss was s).lbox = s.lbox ∧ (postTimeLoss was s).pins = s.pins ∧ (postTimeLoss was s).tOffset = s.tOffset ∧ (postTimeLoss was s).boot = s.boot ∧ (postTimeLoss was s).chan = s.chan ∧ (postTimeLoss was s).hbm = s.hbm ∧ (postTimeLoss was s).glint = s.glint ∧ (postTimeLoss was s).cond = s.cond ∧ (postTimeLoss was s).tx = s.tx ∧ (postTimeLoss was s).corr = s.corr ∧ (postTimeLoss was s).link = s.link ∧ (postTimeLoss was s).twin = s.twin ∧ (postTimeLoss was s).free = s.free ∧ (postTimeLoss was s).tb = s.tb ∧ (postTimeLoss was s).now = s.now := by
  simp [postTimeLoss]
@[simp] theorem readFrom_frame (x : BootSrc) (s : State) :
    (readFrom x s).pending = s.pending ∧ (readFrom x s).audio = s.audio ∧ (readFrom x s).lbox = s.lbox ∧ (readFrom x s).pins = s.pins ∧ (readFrom x s).tOffset = s.tOffset ∧ (readFrom x s).chan = s.chan ∧ (readFrom x s).hbm = s.hbm ∧ (readFrom x s).glint = s.glint ∧ (readFrom x s).cond = s.cond ∧ (readFrom x s).tx = s.tx ∧ (readFrom x s).corr = s.corr ∧ (readFrom x s).link = s.link ∧ (readFrom x s).twin = s.twin ∧ (readFrom x s).mgmt = s.mgmt ∧ (readFrom x s).host = s.host ∧ (readFrom x s).free = s.free ∧ (readFrom x s).tb = s.tb ∧ (readFrom x s).now = s.now := by
  generalize hr : readFrom x s = r
  simp only [readFrom] at hr
  repeat' split at hr
  all_goals (subst hr; simp)
@[simp] theorem bootFail_frame (s : State) :
    (bootFail s).pending = s.pending ∧ (bootFail s).audio = s.audio ∧ (bootFail s).lbox = s.lbox ∧ (bootFail s).pins = s.pins ∧ (bootFail s).tOffset = s.tOffset ∧ (bootFail s).chan = s.chan ∧ (bootFail s).hbm = s.hbm ∧ (bootFail s).glint = s.glint ∧ (bootFail s).cond = s.cond ∧ (bootFail s).tx = s.tx ∧ (bootFail s).corr = s.corr ∧ (bootFail s).link = s.link ∧ (bootFail s).twin = s.twin ∧ (bootFail s).mgmt = s.mgmt ∧ (bootFail s).host = s.host ∧ (bootFail s).out = s.out ∧ (bootFail s).free = s.free ∧ (bootFail s).tb = s.tb ∧ (bootFail s).now = s.now := by
  simp [bootFail]
theorem execBootSelfCheckDone_frame (t : Tick) (s : State) {t_ : State} (h : execBootSelfCheckDone t s = .next t_) :
    t_.pending = s.pending ∧ t_.audio = s.audio ∧ t_.lbox = s.lbox ∧ t_.pins = s.pins ∧ t_.tOffset = (s.advance t).tOffset ∧ t_.chan = s.chan ∧ t_.hbm = s.hbm ∧ t_.glint = s.glint ∧ t_.cond = s.cond ∧ t_.tx = s.tx ∧ t_.corr = s.corr ∧ t_.link = s.link ∧ t_.twin = s.twin ∧ t_.mgmt = s.mgmt ∧ t_.host = s.host ∧ t_.free = s.free ∧ t_.tb = (s.advance t).tb ∧ t_.now = (s.advance t).now := by
  simp only [execBootSelfCheckDone] at h
  repeat' split at h
  all_goals (cases h; simp)
@[simp] theorem writeHostBoot_frame (v : Reg) (s : State) :
    (writeHostBoot v s).pending = s.pending ∧ (writeHostBoot v s).audio = s.audio ∧ (writeHostBoot v s).lbox = s.lbox ∧ (writeHostBoot v s).pins = s.pins ∧ (writeHostBoot v s).tOffset = s.tOffset ∧ (writeHostBoot v s).chan = s.chan ∧ (writeHostBoot v s).hbm = s.hbm ∧ (writeHostBoot v s).glint = s.glint ∧ (writeHostBoot v s).cond = s.cond ∧ (writeHostBoot v s).tx = s.tx ∧ (writeHostBoot v s).corr = s.corr ∧ (writeHostBoot v s).link = s.link ∧ (writeHostBoot v s).twin = s.twin ∧ (writeHostBoot v s).mgmt = s.mgmt ∧ (writeHostBoot v s).host = s.host ∧ (writeHostBoot v s).out = s.out ∧ (writeHostBoot v s).free = s.free ∧ (writeHostBoot v s).tb = s.tb ∧ (writeHostBoot v s).now = s.now := by
  generalize hr : writeHostBoot v s = r
  simp only [writeHostBoot] at hr
  repeat' split at hr
  all_goals (subst hr; simp)
@[simp] theorem nextSource_frame (x : BootSrc) (err : ℕ) (s : State) :
    (nextSource x err s).pending = s.pending ∧ (nextSource x err s).audio = s.audio ∧ (nextSource x err s).lbox = s.lbox ∧ (nextSource x err s).pins = s.pins ∧ (nextSource x err s).tOffset = s.tOffset ∧ (nextSource x err s).chan = s.chan ∧ (nextSource x err s).hbm = s.hbm ∧ (nextSource x err s).glint = s.glint ∧ (nextSource x err s).cond = s.cond ∧ (nextSource x err s).tx = s.tx ∧ (nextSource x err s).corr = s.corr ∧ (nextSource x err s).link = s.link ∧ (nextSource x err s).twin = s.twin ∧ (nextSource x err s).mgmt = s.mgmt ∧ (nextSource x err s).host = s.host ∧ (nextSource x err s).free = s.free ∧ (nextSource x err s).tb = s.tb ∧ (nextSource x err s).now = s.now := by
  generalize hr : nextSource x err s = r
  simp only [nextSource] at hr
  repeat' split at hr
  all_goals (subst hr; simp)
@[simp] theorem acceptImage_frame (x : BootSrc) (b : Bytes) (s : State) :
    (acceptImage x b s).pending = s.pending ∧ (acceptImage x b s).audio = s.audio ∧ (acceptImage x b s).lbox = s.lbox ∧ (acceptImage x b s).pins = s.pins ∧ (acceptImage x b s).tOffset = s.tOffset ∧ (acceptImage x b s).chan = s.chan ∧ (acceptImage x b s).hbm = s.hbm ∧ (acceptImage x b s).glint = s.glint ∧ (acceptImage x b s).cond = s.cond ∧ (acceptImage x b s).tx = s.tx ∧ (acceptImage x b s).corr = s.corr ∧ (acceptImage x b s).link = s.link ∧ (acceptImage x b s).twin = s.twin ∧ (acceptImage x b s).host = s.host ∧ (acceptImage x b s).out = s.out ∧ (acceptImage x b s).free = s.free ∧ (acceptImage x b s).tb = s.tb ∧ (acceptImage x b s).now = s.now := by
  simp [acceptImage]
theorem execFirmwareImageRead_frame (t : Tick) (image : ImageRead) (s : State) {t_ : State} (h : execFirmwareImageRead t image s = .next t_) :
    t_.pending = s.pending ∧ t_.audio = s.audio ∧ t_.lbox = s.lbox ∧ t_.pins = s.pins ∧ t_.tOffset = (s.advance t).tOffset ∧ t_.chan = s.chan ∧ t_.hbm = s.hbm ∧ t_.glint = s.glint ∧ t_.cond = s.cond ∧ t_.tx = s.tx ∧ t_.corr = s.corr ∧ t_.link = s.link ∧ t_.twin = s.twin ∧ t_.host = s.host ∧ t_.free = s.free ∧ t_.tb = (s.advance t).tb ∧ t_.now = (s.advance t).now := by
  simp only [execFirmwareImageRead] at h
  repeat' split at h
  all_goals (cases h; simp)
theorem execFirmwareReady_frame (t : Tick) (failed : List (Fin 256)) (s : State) {t_ : State} (h : execFirmwareReady t failed s = .next t_) :
    t_.pending = s.pending ∧ t_.audio = s.audio ∧ t_.lbox = s.lbox ∧ t_.pins = s.pins ∧ t_.tOffset = (s.advance t).tOffset ∧ t_.hbm = s.hbm ∧ t_.glint = s.glint ∧ t_.tx = s.tx ∧ t_.link = s.link ∧ t_.free = s.free ∧ t_.tb = (s.advance t).tb ∧ t_.now = (s.advance t).now := by
  simp only [execFirmwareReady] at h
  repeat' split at h
  all_goals (cases h; simp)
theorem execSupplyRangeChange_frame (t : Tick) (rail : Rail) (ok : Bool) (s : State) {t_ : State} (h : execSupplyRangeChange t rail ok s = .next t_) :
    t_.pending = s.pending ∧ t_.audio = s.audio ∧ t_.lbox = s.lbox ∧ t_.tOffset = (s.advance t).tOffset ∧ t_.boot = s.boot ∧ t_.chan = s.chan ∧ t_.hbm = s.hbm ∧ t_.glint = s.glint ∧ t_.cond = s.cond ∧ t_.tx = s.tx ∧ t_.corr = s.corr ∧ t_.link = s.link ∧ t_.twin = s.twin ∧ t_.mgmt = s.mgmt ∧ t_.host = s.host ∧ t_.out = s.out ∧ t_.free = s.free ∧ t_.tb = (s.advance t).tb ∧ t_.now = (s.advance t).now := by
  simp only [execSupplyRangeChange] at h
  repeat' split at h
  all_goals (cases h; simp)
@[simp] theorem commitSvn_frame (s : State) :
    (commitSvn s).pending = s.pending ∧ (commitSvn s).audio = s.audio ∧ (commitSvn s).lbox = s.lbox ∧ (commitSvn s).pins = s.pins ∧ (commitSvn s).tOffset = s.tOffset ∧ (commitSvn s).chan = s.chan ∧ (commitSvn s).hbm = s.hbm ∧ (commitSvn s).glint = s.glint ∧ (commitSvn s).cond = s.cond ∧ (commitSvn s).tx = s.tx ∧ (commitSvn s).corr = s.corr ∧ (commitSvn s).link = s.link ∧ (commitSvn s).twin = s.twin ∧ (commitSvn s).mgmt = s.mgmt ∧ (commitSvn s).host = s.host ∧ (commitSvn s).out = s.out ∧ (commitSvn s).free = s.free ∧ (commitSvn s).tb = s.tb ∧ (commitSvn s).now = s.now := by
  generalize hr : commitSvn s = r
  simp only [commitSvn] at hr
  repeat' split at hr
  all_goals (subst hr; simp)
@[simp] theorem revokeSlots_frame (m : BitVec 4) (s : State) :
    (revokeSlots m s).pending = s.pending ∧ (revokeSlots m s).audio = s.audio ∧ (revokeSlots m s).lbox = s.lbox ∧ (revokeSlots m s).pins = s.pins ∧ (revokeSlots m s).tOffset = s.tOffset ∧ (revokeSlots m s).chan = s.chan ∧ (revokeSlots m s).hbm = s.hbm ∧ (revokeSlots m s).glint = s.glint ∧ (revokeSlots m s).cond = s.cond ∧ (revokeSlots m s).tx = s.tx ∧ (revokeSlots m s).corr = s.corr ∧ (revokeSlots m s).link = s.link ∧ (revokeSlots m s).twin = s.twin ∧ (revokeSlots m s).mgmt = s.mgmt ∧ (revokeSlots m s).host = s.host ∧ (revokeSlots m s).out = s.out ∧ (revokeSlots m s).free = s.free ∧ (revokeSlots m s).tb = s.tb ∧ (revokeSlots m s).now = s.now := by
  simp [revokeSlots]
@[simp] theorem writeSecurityCtl_frame (v : Reg) (s : State) :
    (writeSecurityCtl v s).pending = s.pending ∧ (writeSecurityCtl v s).audio = s.audio ∧ (writeSecurityCtl v s).lbox = s.lbox ∧ (writeSecurityCtl v s).pins = s.pins ∧ (writeSecurityCtl v s).tOffset = s.tOffset ∧ (writeSecurityCtl v s).chan = s.chan ∧ (writeSecurityCtl v s).hbm = s.hbm ∧ (writeSecurityCtl v s).glint = s.glint ∧ (writeSecurityCtl v s).cond = s.cond ∧ (writeSecurityCtl v s).tx = s.tx ∧ (writeSecurityCtl v s).corr = s.corr ∧ (writeSecurityCtl v s).link = s.link ∧ (writeSecurityCtl v s).twin = s.twin ∧ (writeSecurityCtl v s).mgmt = s.mgmt ∧ (writeSecurityCtl v s).host = s.host ∧ (writeSecurityCtl v s).out = s.out ∧ (writeSecurityCtl v s).free = s.free ∧ (writeSecurityCtl v s).tb = s.tb ∧ (writeSecurityCtl v s).now = s.now := by
  generalize hr : writeSecurityCtl v s = r
  simp only [writeSecurityCtl] at hr
  repeat' split at hr
  all_goals (subst hr; simp)
@[simp] theorem accFlag_frame (flags : BitVec 4) (s : State) :
    (accFlag flags s).pending = s.pending ∧ (accFlag flags s).audio = s.audio ∧ (accFlag flags s).lbox = s.lbox ∧ (accFlag flags s).pins = s.pins ∧ (accFlag flags s).tOffset = s.tOffset ∧ (accFlag flags s).chan = s.chan ∧ (accFlag flags s).hbm = s.hbm ∧ (accFlag flags s).glint = s.glint ∧ (accFlag flags s).cond = s.cond ∧ (accFlag flags s).tx = s.tx ∧ (accFlag flags s).corr = s.corr ∧ (accFlag flags s).link = s.link ∧ (accFlag flags s).twin = s.twin ∧ (accFlag flags s).mgmt = s.mgmt ∧ (accFlag flags s).host = s.host ∧ (accFlag flags s).out = s.out ∧ (accFlag flags s).free = s.free ∧ (accFlag flags s).tb = s.tb ∧ (accFlag flags s).now = s.now := by
  simp [accFlag]
@[simp] theorem latchHi_frame (r : RegId) (s : State) :
    (latchHi r s).pending = s.pending ∧ (latchHi r s).audio = s.audio ∧ (latchHi r s).lbox = s.lbox ∧ (latchHi r s).pins = s.pins ∧ (latchHi r s).tOffset = s.tOffset ∧ (latchHi r s).chan = s.chan ∧ (latchHi r s).glint = s.glint ∧ (latchHi r s).cond = s.cond ∧ (latchHi r s).tx = s.tx ∧ (latchHi r s).corr = s.corr ∧ (latchHi r s).link = s.link ∧ (latchHi r s).twin = s.twin ∧ (latchHi r s).mgmt = s.mgmt ∧ (latchHi r s).host = s.host ∧ (latchHi r s).out = s.out ∧ (latchHi r s).free = s.free ∧ (latchHi r s).now = s.now := by
  generalize hr : latchHi r s = r
  simp only [latchHi] at hr
  repeat' split at hr
  all_goals (subst hr; simp)
@[simp] theorem regRead32_frame (off : ℕ) (s : State) :
    (regRead32 off s).2.pending = s.pending ∧ (regRead32 off s).2.audio = s.audio ∧ (regRead32 off s).2.lbox = s.lbox ∧ (regRead32 off s).2.pins = s.pins ∧ (regRead32 off s).2.tOffset = s.tOffset ∧ (regRead32 off s).2.chan = s.chan ∧ (regRead32 off s).2.glint = s.glint ∧ (regRead32 off s).2.cond = s.cond ∧ (regRead32 off s).2.tx = s.tx ∧ (regRead32 off s).2.corr = s.corr ∧ (regRead32 off s).2.link = s.link ∧ (regRead32 off s).2.twin = s.twin ∧ (regRead32 off s).2.mgmt = s.mgmt ∧ (regRead32 off s).2.host = s.host ∧ (regRead32 off s).2.out = s.out ∧ (regRead32 off s).2.free = s.free ∧ (regRead32 off s).2.now = s.now := by
  generalize hr : regRead32 off s = r
  simp only [regRead32] at hr
  repeat' split at hr
  all_goals (subst hr; simp)
@[simp] theorem regRead_frame (off : ℕ) (width : AccessWidth) (s : State) :
    (regRead off width s).2.pending = s.pending ∧ (regRead off width s).2.audio = s.audio ∧ (regRead off width s).2.lbox = s.lbox ∧ (regRead off width s).2.pins = s.pins ∧ (regRead off width s).2.tOffset = s.tOffset ∧ (regRead off width s).2.chan = s.chan ∧ (regRead off width s).2.glint = s.glint ∧ (regRead off width s).2.cond = s.cond ∧ (regRead off width s).2.tx = s.tx ∧ (regRead off width s).2.corr = s.corr ∧ (regRead off width s).2.link = s.link ∧ (regRead off width s).2.twin = s.twin ∧ (regRead off width s).2.mgmt = s.mgmt ∧ (regRead off width s).2.host = s.host ∧ (regRead off width s).2.out = s.out ∧ (regRead off width s).2.free = s.free ∧ (regRead off width s).2.now = s.now := by
  generalize hr : regRead off width s = r
  simp only [regRead] at hr
  repeat' split at hr
  all_goals (subst hr; simp)
@[simp] theorem baseWrite_pending (enabled : Bool) (old : Reg) (new : Reg) (store : State → State) (s : State)
    (h : (store s).pending = s.pending) : (baseWrite enabled old new store s).pending = s.pending := by
  unfold baseWrite
  split
  · rfl
  · exact h
@[simp] theorem baseWrite_audio (enabled : Bool) (old : Reg) (new : Reg) (store : State → State) (s : State)
    (h : (store s).audio = s.audio) : (baseWrite enabled old new store s).audio = s.audio := by
  unfold baseWrite
  split
  · rfl
  · exact h
@[simp] theorem baseWrite_lbox (enabled : Bool) (old : Reg) (new : Reg) (store : State → State) (s : State)
    (h : (store s).lbox = s.lbox) : (baseWrite enabled old new store s).lbox = s.lbox := by
  unfold baseWrite
  split
  · rfl
  · exact h
@[simp] theorem baseWrite_pins (enabled : Bool) (old : Reg) (new : Reg) (store : State → State) (s : State)
    (h : (store s).pins = s.pins) : (baseWrite enabled old new store s).pins = s.pins := by
  unfold baseWrite
  split
  · rfl
  · exact h
@[simp] theorem baseWrite_tOffset (enabled : Bool) (old : Reg) (new : Reg) (store : State → State) (s : State)
    (h : (store s).tOffset = s.tOffset) : (baseWrite enabled old new store s).tOffset = s.tOffset := by
  unfold baseWrite
  split
  · rfl
  · exact h
@[simp] theorem baseWrite_boot (enabled : Bool) (old : Reg) (new : Reg) (store : State → State) (s : State)
    (h : (store s).boot = s.boot) : (baseWrite enabled old new store s).boot = s.boot := by
  unfold baseWrite
  split
  · rfl
  · exact h
@[simp] theorem baseWrite_chan (enabled : Bool) (old : Reg) (new : Reg) (store : State → State) (s : State)
    (h : (store s).chan = s.chan) : (baseWrite enabled old new store s).chan = s.chan := by
  unfold baseWrite
  split
  · rfl
  · exact h
@[simp] theorem baseWrite_hbm (enabled : Bool) (old : Reg) (new : Reg) (store : State → State) (s : State)
    (h : (store s).hbm = s.hbm) : (baseWrite enabled old new store s).hbm = s.hbm := by
  unfold baseWrite
  split
  · rfl
  · exact h
@[simp] theorem baseWrite_glint (enabled : Bool) (old : Reg) (new : Reg) (store : State → State) (s : State)
    (h : (store s).glint = s.glint) : (baseWrite enabled old new store s).glint = s.glint := by
  unfold baseWrite
  split
  · rfl
  · exact h
@[simp] theorem baseWrite_cond (enabled : Bool) (old : Reg) (new : Reg) (store : State → State) (s : State)
    (h : (store s).cond = s.cond) : (baseWrite enabled old new store s).cond = s.cond := by
  unfold baseWrite
  split
  · rfl
  · exact h
@[simp] theorem baseWrite_tx (enabled : Bool) (old : Reg) (new : Reg) (store : State → State) (s : State)
    (h : (store s).tx = s.tx) : (baseWrite enabled old new store s).tx = s.tx := by
  unfold baseWrite
  split
  · rfl
  · exact h
@[simp] theorem baseWrite_corr (enabled : Bool) (old : Reg) (new : Reg) (store : State → State) (s : State)
    (h : (store s).corr = s.corr) : (baseWrite enabled old new store s).corr = s.corr := by
  unfold baseWrite
  split
  · rfl
  · exact h
@[simp] theorem baseWrite_link (enabled : Bool) (old : Reg) (new : Reg) (store : State → State) (s : State)
    (h : (store s).link = s.link) : (baseWrite enabled old new store s).link = s.link := by
  unfold baseWrite
  split
  · rfl
  · exact h
@[simp] theorem baseWrite_twin (enabled : Bool) (old : Reg) (new : Reg) (store : State → State) (s : State)
    (h : (store s).twin = s.twin) : (baseWrite enabled old new store s).twin = s.twin := by
  unfold baseWrite
  split
  · rfl
  · exact h
@[simp] theorem baseWrite_mgmt (enabled : Bool) (old : Reg) (new : Reg) (store : State → State) (s : State)
    (h : (store s).mgmt = s.mgmt) : (baseWrite enabled old new store s).mgmt = s.mgmt := by
  unfold baseWrite
  split
  · rfl
  · exact h
@[simp] theorem baseWrite_out (enabled : Bool) (old : Reg) (new : Reg) (store : State → State) (s : State)
    (h : (store s).out = s.out) : (baseWrite enabled old new store s).out = s.out := by
  unfold baseWrite
  split
  · rfl
  · exact h
@[simp] theorem baseWrite_free (enabled : Bool) (old : Reg) (new : Reg) (store : State → State) (s : State)
    (h : (store s).free = s.free) : (baseWrite enabled old new store s).free = s.free := by
  unfold baseWrite
  split
  · rfl
  · exact h
@[simp] theorem baseWrite_tb (enabled : Bool) (old : Reg) (new : Reg) (store : State → State) (s : State)
    (h : (store s).tb = s.tb) : (baseWrite enabled old new store s).tb = s.tb := by
  unfold baseWrite
  split
  · rfl
  · exact h
@[simp] theorem baseWrite_now (enabled : Bool) (old : Reg) (new : Reg) (store : State → State) (s : State)
    (h : (store s).now = s.now) : (baseWrite enabled old new store s).now = s.now := by
  unfold baseWrite
  split
  · rfl
  · exact h
@[simp] theorem stopRing_frame (r : ℕ) (s : State) :
    (stopRing r s).pending = s.pending ∧ (stopRing r s).audio = s.audio ∧ (stopRing r s).lbox = s.lbox ∧ (stopRing r s).pins = s.pins ∧ (stopRing r s).tOffset = s.tOffset ∧ (stopRing r s).boot = s.boot ∧ (stopRing r s).chan = s.chan ∧ (stopRing r s).hbm = s.hbm ∧ (stopRing r s).glint = s.glint ∧ (stopRing r s).cond = s.cond ∧ (stopRing r s).tx = s.tx ∧ (stopRing r s).corr = s.corr ∧ (stopRing r s).link = s.link ∧ (stopRing r s).twin = s.twin ∧ (stopRing r s).mgmt = s.mgmt ∧ (stopRing r s).out = s.out ∧ (stopRing r s).free = s.free ∧ (stopRing r s).tb = s.tb ∧ (stopRing r s).now = s.now := by
  generalize hr : stopRing r s = r
  simp only [stopRing] at hr
  repeat' split at hr
  all_goals (subst hr; simp)
@[simp] theorem startRing_frame (r : ℕ) (s : State) :
    (startRing r s).pending = s.pending ∧ (startRing r s).audio = s.audio ∧ (startRing r s).lbox = s.lbox ∧ (startRing r s).pins = s.pins ∧ (startRing r s).tOffset = s.tOffset ∧ (startRing r s).boot = s.boot ∧ (startRing r s).chan = s.chan ∧ (startRing r s).hbm = s.hbm ∧ (startRing r s).glint = s.glint ∧ (startRing r s).cond = s.cond ∧ (startRing r s).tx = s.tx ∧ (startRing r s).corr = s.corr ∧ (startRing r s).link = s.link ∧ (startRing r s).twin = s.twin ∧ (startRing r s).mgmt = s.mgmt ∧ (startRing r s).free = s.free ∧ (startRing r s).tb = s.tb ∧ (startRing r s).now = s.now := by
  generalize hr : startRing r s = r
  simp only [startRing] at hr
  repeat' split at hr
  all_goals (subst hr; simp)
@[simp] theorem writeRingCfg_frame (r : ℕ) (v : Reg) (s : State) :
    (writeRingCfg r v s).pending = s.pending ∧ (writeRingCfg r v s).audio = s.audio ∧ (writeRingCfg r v s).lbox = s.lbox ∧ (writeRingCfg r v s).pins = s.pins ∧ (writeRingCfg r v s).tOffset = s.tOffset ∧ (writeRingCfg r v s).boot = s.boot ∧ (writeRingCfg r v s).chan = s.chan ∧ (writeRingCfg r v s).hbm = s.hbm ∧ (writeRingCfg r v s).glint = s.glint ∧ (writeRingCfg r v s).cond = s.cond ∧ (writeRingCfg r v s).tx = s.tx ∧ (writeRingCfg r v s).corr = s.corr ∧ (writeRingCfg r v s).link = s.link ∧ (writeRingCfg r v s).twin = s.twin ∧ (writeRingCfg r v s).mgmt = s.mgmt ∧ (writeRingCfg r v s).free = s.free ∧ (writeRingCfg r v s).tb = s.tb ∧ (writeRingCfg r v s).now = s.now := by
  generalize hr : writeRingCfg r v s = r
  simp only [writeRingCfg] at hr
  repeat' split at hr
  all_goals (subst hr; simp)
@[simp] theorem writeDmaCh_frame (c : ℕ) (v : Reg) (s : State) :
    (writeDmaCh c v s).pending = s.pending ∧ (writeDmaCh c v s).audio = s.audio ∧ (writeDmaCh c v s).lbox = s.lbox ∧ (writeDmaCh c v s).pins = s.pins ∧ (writeDmaCh c v s).tOffset = s.tOffset ∧ (writeDmaCh c v s).boot = s.boot ∧ (writeDmaCh c v s).chan = s.chan ∧ (writeDmaCh c v s).hbm = s.hbm ∧ (writeDmaCh c v s).glint = s.glint ∧ (writeDmaCh c v s).cond = s.cond ∧ (writeDmaCh c v s).tx = s.tx ∧ (writeDmaCh c v s).corr = s.corr ∧ (writeDmaCh c v s).link = s.link ∧ (writeDmaCh c v s).twin = s.twin ∧ (writeDmaCh c v s).mgmt = s.mgmt ∧ (writeDmaCh c v s).out = s.out ∧ (writeDmaCh c v s).free = s.free ∧ (writeDmaCh c v s).tb = s.tb ∧ (writeDmaCh c v s).now = s.now := by
  generalize hr : writeDmaCh c v s = r
  simp only [writeDmaCh] at hr
  repeat' split at hr
  all_goals (subst hr; simp)
@[simp] theorem writeMsix_frame (i : ℕ) (v : Reg) (s : State) :
    (writeMsix i v s).pending = s.pending ∧ (writeMsix i v s).audio = s.audio ∧ (writeMsix i v s).lbox = s.lbox ∧ (writeMsix i v s).pins = s.pins ∧ (writeMsix i v s).tOffset = s.tOffset ∧ (writeMsix i v s).boot = s.boot ∧ (writeMsix i v s).chan = s.chan ∧ (writeMsix i v s).hbm = s.hbm ∧ (writeMsix i v s).glint = s.glint ∧ (writeMsix i v s).cond = s.cond ∧ (writeMsix i v s).tx = s.tx ∧ (writeMsix i v s).corr = s.corr ∧ (writeMsix i v s).link = s.link ∧ (writeMsix i v s).twin = s.twin ∧ (writeMsix i v s).mgmt = s.mgmt ∧ (writeMsix i v s).free = s.free ∧ (writeMsix i v s).tb = s.tb ∧ (writeMsix i v s).now = s.now := by
  generalize hr : writeMsix i v s = r
  simp only [writeMsix] at hr
  repeat' split at hr
  all_goals (subst hr; simp)
@[simp] theorem writeLaneEq_frame (l : ℕ) (v : Reg) (s : State) :
    (writeLaneEq l v s).pending = s.pending ∧ (writeLaneEq l v s).audio = s.audio ∧ (writeLaneEq l v s).lbox = s.lbox ∧ (writeLaneEq l v s).pins = s.pins ∧ (writeLaneEq l v s).tOffset = s.tOffset ∧ (writeLaneEq l v s).boot = s.boot ∧ (writeLaneEq l v s).chan = s.chan ∧ (writeLaneEq l v s).hbm = s.hbm ∧ (writeLaneEq l v s).glint = s.glint ∧ (writeLaneEq l v s).tx = s.tx ∧ (writeLaneEq l v s).corr = s.corr ∧ (writeLaneEq l v s).twin = s.twin ∧ (writeLaneEq l v s).free = s.free ∧ (writeLaneEq l v s).tb = s.tb ∧ (writeLaneEq l v s).now = s.now := by
  generalize hr : writeLaneEq l v s = r
  simp only [writeLaneEq] at hr
  repeat' split at hr
  all_goals (subst hr; simp)
@[simp] theorem writeLaneTest_frame (l : ℕ) (v : Reg) (s : State) :
    (writeLaneTest l v s).pending = s.pending ∧ (writeLaneTest l v s).audio = s.audio ∧ (writeLaneTest l v s).lbox = s.lbox ∧ (writeLaneTest l v s).pins = s.pins ∧ (writeLaneTest l v s).tOffset = s.tOffset ∧ (writeLaneTest l v s).boot = s.boot ∧ (writeLaneTest l v s).chan = s.chan ∧ (writeLaneTest l v s).hbm = s.hbm ∧ (writeLaneTest l v s).glint = s.glint ∧ (writeLaneTest l v s).cond = s.cond ∧ (writeLaneTest l v s).tx = s.tx ∧ (writeLaneTest l v s).corr = s.corr ∧ (writeLaneTest l v s).twin = s.twin ∧ (writeLaneTest l v s).mgmt = s.mgmt ∧ (writeLaneTest l v s).host = s.host ∧ (writeLaneTest l v s).out = s.out ∧ (writeLaneTest l v s).free = s.free ∧ (writeLaneTest l v s).tb = s.tb ∧ (writeLaneTest l v s).now = s.now := by
  generalize hr : writeLaneTest l v s = r
  simp only [writeLaneTest] at hr
  repeat' split at hr
  all_goals (subst hr; simp)
@[simp] theorem meshWrite_pending (old : Reg) (new : Reg) (store : State → State) (s : State)
    (h : (store s).pending = s.pending) : (meshWrite old new store s).pending = s.pending := by
  unfold meshWrite
  split
  · apply foldl_pending
    intros
    split <;> simp
  · exact h
@[simp] theorem meshWrite_audio (old : Reg) (new : Reg) (store : State → State) (s : State)
    (h : (store s).audio = s.audio) : (meshWrite old new store s).audio = s.audio := by
  unfold meshWrite
  split
  · apply foldl_audio
    intros
    split <;> simp
  · exact h
@[simp] theorem meshWrite_lbox (old : Reg) (new : Reg) (store : State → State) (s : State)
    (h : (store s).lbox = s.lbox) : (meshWrite old new store s).lbox = s.lbox := by
  unfold meshWrite
  split
  · apply foldl_lbox
    intros
    split <;> simp
  · exact h
@[simp] theorem meshWrite_pins (old : Reg) (new : Reg) (store : State → State) (s : State)
    (h : (store s).pins = s.pins) : (meshWrite old new store s).pins = s.pins := by
  unfold meshWrite
  split
  · apply foldl_pins
    intros
    split <;> simp
  · exact h
@[simp] theorem meshWrite_tOffset (old : Reg) (new : Reg) (store : State → State) (s : State)
    (h : (store s).tOffset = s.tOffset) : (meshWrite old new store s).tOffset = s.tOffset := by
  unfold meshWrite
  split
  · apply foldl_tOffset
    intros
    split <;> simp
  · exact h
@[simp] theorem meshWrite_boot (old : Reg) (new : Reg) (store : State → State) (s : State)
    (h : (store s).boot = s.boot) : (meshWrite old new store s).boot = s.boot := by
  unfold meshWrite
  split
  · apply foldl_boot
    intros
    split <;> simp
  · exact h
@[simp] theorem meshWrite_chan (old : Reg) (new : Reg) (store : State → State) (s : State)
    (h : (store s).chan = s.chan) : (meshWrite old new store s).chan = s.chan := by
  unfold meshWrite
  split
  · apply foldl_chan
    intros
    split <;> simp
  · exact h
@[simp] theorem meshWrite_hbm (old : Reg) (new : Reg) (store : State → State) (s : State)
    (h : (store s).hbm = s.hbm) : (meshWrite old new store s).hbm = s.hbm := by
  unfold meshWrite
  split
  · apply foldl_hbm
    intros
    split <;> simp
  · exact h
@[simp] theorem meshWrite_glint (old : Reg) (new : Reg) (store : State → State) (s : State)
    (h : (store s).glint = s.glint) : (meshWrite old new store s).glint = s.glint := by
  unfold meshWrite
  split
  · apply foldl_glint
    intros
    split <;> simp
  · exact h
@[simp] theorem meshWrite_cond (old : Reg) (new : Reg) (store : State → State) (s : State)
    (h : (store s).cond = s.cond) : (meshWrite old new store s).cond = s.cond := by
  unfold meshWrite
  split
  · apply foldl_cond
    intros
    split <;> simp
  · exact h
@[simp] theorem meshWrite_tx (old : Reg) (new : Reg) (store : State → State) (s : State)
    (h : (store s).tx = s.tx) : (meshWrite old new store s).tx = s.tx := by
  unfold meshWrite
  split
  · apply foldl_tx
    intros
    split <;> simp
  · exact h
@[simp] theorem meshWrite_corr (old : Reg) (new : Reg) (store : State → State) (s : State)
    (h : (store s).corr = s.corr) : (meshWrite old new store s).corr = s.corr := by
  unfold meshWrite
  split
  · apply foldl_corr
    intros
    split <;> simp
  · exact h
@[simp] theorem meshWrite_twin (old : Reg) (new : Reg) (store : State → State) (s : State)
    (h : (store s).twin = s.twin) : (meshWrite old new store s).twin = s.twin := by
  unfold meshWrite
  split
  · apply foldl_twin
    intros
    split <;> simp
  · exact h
@[simp] theorem meshWrite_mgmt (old : Reg) (new : Reg) (store : State → State) (s : State)
    (h : (store s).mgmt = s.mgmt) : (meshWrite old new store s).mgmt = s.mgmt := by
  unfold meshWrite
  split
  · apply foldl_mgmt
    intros
    split <;> simp
  · exact h
@[simp] theorem meshWrite_host (old : Reg) (new : Reg) (store : State → State) (s : State)
    (h : (store s).host = s.host) : (meshWrite old new store s).host = s.host := by
  unfold meshWrite
  split
  · apply foldl_host
    intros
    split <;> simp
  · exact h
@[simp] theorem meshWrite_out (old : Reg) (new : Reg) (store : State → State) (s : State)
    (h : (store s).out = s.out) : (meshWrite old new store s).out = s.out := by
  unfold meshWrite
  split
  · apply foldl_out
    intros
    split <;> simp
  · exact h
@[simp] theorem meshWrite_free (old : Reg) (new : Reg) (store : State → State) (s : State)
    (h : (store s).free = s.free) : (meshWrite old new store s).free = s.free := by
  unfold meshWrite
  split
  · apply foldl_free
    intros
    split <;> simp
  · exact h
@[simp] theorem meshWrite_tb (old : Reg) (new : Reg) (store : State → State) (s : State)
    (h : (store s).tb = s.tb) : (meshWrite old new store s).tb = s.tb := by
  unfold meshWrite
  split
  · apply foldl_tb
    intros
    split <;> simp
  · exact h
@[simp] theorem meshWrite_now (old : Reg) (new : Reg) (store : State → State) (s : State)
    (h : (store s).now = s.now) : (meshWrite old new store s).now = s.now := by
  unfold meshWrite
  split
  · apply foldl_now
    intros
    split <;> simp
  · exact h
@[simp] theorem writeVcap_frame (d : ℕ) (v : Reg) (s : State) :
    (writeVcap d v s).pending = s.pending ∧ (writeVcap d v s).audio = s.audio ∧ (writeVcap d v s).lbox = s.lbox ∧ (writeVcap d v s).pins = s.pins ∧ (writeVcap d v s).tOffset = s.tOffset ∧ (writeVcap d v s).boot = s.boot ∧ (writeVcap d v s).chan = s.chan ∧ (writeVcap d v s).hbm = s.hbm ∧ (writeVcap d v s).glint = s.glint ∧ (writeVcap d v s).cond = s.cond ∧ (writeVcap d v s).tx = s.tx ∧ (writeVcap d v s).corr = s.corr ∧ (writeVcap d v s).link = s.link ∧ (writeVcap d v s).twin = s.twin ∧ (writeVcap d v s).host = s.host ∧ (writeVcap d v s).out = s.out ∧ (writeVcap d v s).free = s.free ∧ (writeVcap d v s).tb = s.tb ∧ (writeVcap d v s).now = s.now := by
  generalize hr : writeVcap d v s = r
  simp only [writeVcap] at hr
  repeat' split at hr
  all_goals (subst hr; simp)
@[simp] theorem storeReg_frame (m : Master) (r : RegId) (v : Reg) (s : State) :
    (storeReg m r v s).pending = s.pending ∧ (storeReg m r v s).audio = s.audio ∧ (storeReg m r v s).lbox = s.lbox ∧ (storeReg m r v s).chan = s.chan ∧ (storeReg m r v s).now = s.now := by
  generalize hr : storeReg m r v s = r
  simp only [storeReg] at hr
  repeat' split at hr
  all_goals (subst hr; simp)
@[simp] theorem regWrite32_frame (m : Master) (off : ℕ) (v : Reg) (s : State) :
    (regWrite32 m off v s).pending = s.pending ∧ (regWrite32 m off v s).audio = s.audio ∧ (regWrite32 m off v s).lbox = s.lbox ∧ (regWrite32 m off v s).chan = s.chan ∧ (regWrite32 m off v s).now = s.now := by
  generalize hr : regWrite32 m off v s = r
  simp only [regWrite32] at hr
  repeat' split at hr
  all_goals (subst hr; simp)
@[simp] theorem regWrite_frame (m : Master) (off : ℕ) (width : AccessWidth) (v : BitVec 64) (s : State) :
    (regWrite m off width v s).pending = s.pending ∧ (regWrite m off width v s).audio = s.audio ∧ (regWrite m off width v s).lbox = s.lbox ∧ (regWrite m off width v s).chan = s.chan ∧ (regWrite m off width v s).now = s.now := by
  generalize hr : regWrite m off width v s = r
  simp only [regWrite] at hr
  repeat' split at hr
  all_goals (subst hr; simp)
@[simp] theorem dropLock_frame (x : XTarget) (m : Master) (s : State) :
    (dropLock x m s).pending = s.pending ∧ (dropLock x m s).audio = s.audio ∧ (dropLock x m s).lbox = s.lbox ∧ (dropLock x m s).pins = s.pins ∧ (dropLock x m s).tOffset = s.tOffset ∧ (dropLock x m s).boot = s.boot ∧ (dropLock x m s).chan = s.chan ∧ (dropLock x m s).hbm = s.hbm ∧ (dropLock x m s).glint = s.glint ∧ (dropLock x m s).cond = s.cond ∧ (dropLock x m s).tx = s.tx ∧ (dropLock x m s).corr = s.corr ∧ (dropLock x m s).link = s.link ∧ (dropLock x m s).twin = s.twin ∧ (dropLock x m s).host = s.host ∧ (dropLock x m s).out = s.out ∧ (dropLock x m s).free = s.free ∧ (dropLock x m s).tb = s.tb ∧ (dropLock x m s).now = s.now := by
  simp [dropLock]
@[simp] theorem countLock_frame (x : XTarget) (s : State) :
    (countLock x s).pending = s.pending ∧ (countLock x s).audio = s.audio ∧ (countLock x s).lbox = s.lbox ∧ (countLock x s).pins = s.pins ∧ (countLock x s).tOffset = s.tOffset ∧ (countLock x s).boot = s.boot ∧ (countLock x s).chan = s.chan ∧ (countLock x s).hbm = s.hbm ∧ (countLock x s).glint = s.glint ∧ (countLock x s).cond = s.cond ∧ (countLock x s).tx = s.tx ∧ (countLock x s).corr = s.corr ∧ (countLock x s).link = s.link ∧ (countLock x s).twin = s.twin ∧ (countLock x s).host = s.host ∧ (countLock x s).out = s.out ∧ (countLock x s).free = s.free ∧ (countLock x s).tb = s.tb ∧ (countLock x s).now = s.now := by
  simp [countLock]
@[simp] theorem memStore_frame (x : XTarget) (off : ℕ) (n : ℕ) (v : BitVec 64) (s : State) :
    (memStore x off n v s).pending = s.pending ∧ (memStore x off n v s).audio = s.audio ∧ (memStore x off n v s).lbox = s.lbox ∧ (memStore x off n v s).pins = s.pins ∧ (memStore x off n v s).tOffset = s.tOffset ∧ (memStore x off n v s).boot = s.boot ∧ (memStore x off n v s).chan = s.chan ∧ (memStore x off n v s).glint = s.glint ∧ (memStore x off n v s).cond = s.cond ∧ (memStore x off n v s).tx = s.tx ∧ (memStore x off n v s).corr = s.corr ∧ (memStore x off n v s).link = s.link ∧ (memStore x off n v s).twin = s.twin ∧ (memStore x off n v s).host = s.host ∧ (memStore x off n v s).out = s.out ∧ (memStore x off n v s).tb = s.tb ∧ (memStore x off n v s).now = s.now := by
  generalize hr : memStore x off n v s = r
  simp only [memStore] at hr
  repeat' split at hr
  all_goals (subst hr; simp)
@[simp] theorem memLoad_frame (x : XTarget) (off : ℕ) (n : ℕ) (s : State) :
    (memLoad x off n s).2.pending = s.pending ∧ (memLoad x off n s).2.audio = s.audio ∧ (memLoad x off n s).2.lbox = s.lbox ∧ (memLoad x off n s).2.pins = s.pins ∧ (memLoad x off n s).2.tOffset = s.tOffset ∧ (memLoad x off n s).2.boot = s.boot ∧ (memLoad x off n s).2.chan = s.chan ∧ (memLoad x off n s).2.glint = s.glint ∧ (memLoad x off n s).2.cond = s.cond ∧ (memLoad x off n s).2.tx = s.tx ∧ (memLoad x off n s).2.corr = s.corr ∧ (memLoad x off n s).2.link = s.link ∧ (memLoad x off n s).2.twin = s.twin ∧ (memLoad x off n s).2.host = s.host ∧ (memLoad x off n s).2.out = s.out ∧ (memLoad x off n s).2.tb = s.tb ∧ (memLoad x off n s).2.now = s.now := by
  generalize hr : memLoad x off n s = r
  simp only [memLoad] at hr
  repeat' split at hr
  all_goals (subst hr; simp)
@[simp] theorem serve_frame (m : Master) (x : XTarget) (a : Access) (s : State) :
    (serve m x a s).pending = s.pending ∧ (serve m x a s).audio = s.audio ∧ (serve m x a s).lbox = s.lbox ∧ (serve m x a s).chan = s.chan ∧ (serve m x a s).now = s.now := by
  generalize hr : serve m x a s = r
  simp only [serve] at hr
  repeat' split at hr
  all_goals (subst hr; simp)
@[simp] theorem access_frame (m : Master) (x : XTarget) (a : Access) (s : State) :
    (access m x a s).pending = s.pending ∧ (access m x a s).audio = s.audio ∧ (access m x a s).lbox = s.lbox ∧ (access m x a s).chan = s.chan ∧ (access m x a s).now = s.now := by
  generalize hr : access m x a s = r
  simp only [access] at hr
  repeat' split at hr
  all_goals (subst hr; simp)
@[simp] theorem serveOne_frame (p : XTarget × Master × Access) (s : State) :
    (serveOne p s).pending = s.pending ∧ (serveOne p s).audio = s.audio ∧ (serveOne p s).lbox = s.lbox ∧ (serveOne p s).chan = s.chan ∧ (serveOne p s).now = s.now := by
  simp [serveOne]
@[simp] theorem serveWaiting_frame (a : ℕ) (a1 : ℕ) (a2 : State) :
    (serveWaiting a a1 a2).pending = a2.pending ∧ (serveWaiting a a1 a2).audio = a2.audio ∧ (serveWaiting a a1 a2).lbox = a2.lbox ∧ (serveWaiting a a1 a2).chan = a2.chan ∧ (serveWaiting a a1 a2).now = a2.now := by
  induction a generalizing a1 a2 with
  | zero => simp [serveWaiting]
  | succ n ih =>
    generalize hr : serveWaiting (n + 1) a1 a2 = r
    simp only [serveWaiting] at hr
    repeat' (first | split at hr)
    all_goals (subst hr; simp [ih])
@[simp] theorem releaseTarget_frame (m : Master) (s : State) :
    (releaseTarget m s).pending = s.pending ∧ (releaseTarget m s).audio = s.audio ∧ (releaseTarget m s).lbox = s.lbox ∧ (releaseTarget m s).chan = s.chan ∧ (releaseTarget m s).now = s.now := by
  simp [releaseTarget]
@[simp] theorem accessAt_frame (m : Master) (addr : ℕ) (a : Access) (s : State) :
    (accessAt m addr a s).pending = s.pending ∧ (accessAt m addr a s).audio = s.audio ∧ (accessAt m addr a s).lbox = s.lbox ∧ (accessAt m addr a s).chan = s.chan ∧ (accessAt m addr a s).now = s.now := by
  generalize hr : accessAt m addr a s = r
  simp only [accessAt] at hr
  repeat' split at hr
  all_goals (subst hr; simp)
theorem execCrossbarLock_frame (t : Tick) (m : Master) (target : XTarget) (unlock : Bool) (s : State) {t_ : State} (h : execCrossbarLock t m target unlock s = .next t_) :
    t_.pending = s.pending ∧ t_.audio = s.audio ∧ t_.lbox = s.lbox ∧ t_.chan = s.chan ∧ t_.now = (s.advance t).now := by
  simp only [execCrossbarLock] at h
  repeat' split at h
  all_goals (cases h; simp)
theorem execCrossbarLockBroken_frame (t : Tick) (target : XTarget) (s : State) {t_ : State} (h : execCrossbarLockBroken t target s = .next t_) :
    t_.pending = s.pending ∧ t_.audio = s.audio ∧ t_.lbox = s.lbox ∧ t_.chan = s.chan ∧ t_.now = (s.advance t).now := by
  simp only [execCrossbarLockBroken] at h
  repeat' split at h
  all_goals (cases h; simp)
theorem execRegisterWrite_frame (t : Tick) (m : Master) (addr : BitVec 32) (width : AccessWidth) (value : BitVec 64) (s : State) {t_ : State} (h : execRegisterWrite t m addr width value s = .next t_) :
    t_.pending = s.pending ∧ t_.audio = s.audio ∧ t_.lbox = s.lbox ∧ t_.chan = s.chan ∧ t_.now = (s.advance t).now := by
  simp only [execRegisterWrite, Host.Outcome.next.injEq] at h
  subst h
  simp
@[simp] theorem hostReg_frame (off : ℕ) (v : Reg) (s : State) :
    (hostReg off v s).pending = s.pending ∧ (hostReg off v s).audio = s.audio ∧ (hostReg off v s).lbox = s.lbox ∧ (hostReg off v s).chan = s.chan ∧ (hostReg off v s).now = s.now := by
  simp [hostReg]
theorem execHostifEnable_frame (t : Tick) (value : Reg) (s : State) {t_ : State} (h : execHostifEnable t value s = .next t_) :
    t_.pending = s.pending ∧ t_.audio = s.audio ∧ t_.lbox = s.lbox ∧ t_.chan = s.chan ∧ t_.now = (s.advance t).now := by
  simp only [execHostifEnable, Host.Outcome.next.injEq] at h
  subst h
  simp
theorem execHostBootGo_frame (t : Tick) (value : Reg) (s : State) {t_ : State} (h : execHostBootGo t value s = .next t_) :
    t_.pending = s.pending ∧ t_.audio = s.audio ∧ t_.lbox = s.lbox ∧ t_.chan = s.chan ∧ t_.now = (s.advance t).now := by
  simp only [execHostBootGo, Host.Outcome.next.injEq] at h
  subst h
  simp
theorem execTimeSetArm_frame (t : Tick) (value : Reg) (s : State) {t_ : State} (h : execTimeSetArm t value s = .next t_) :
    t_.pending = s.pending ∧ t_.audio = s.audio ∧ t_.lbox = s.lbox ∧ t_.chan = s.chan ∧ t_.now = (s.advance t).now := by
  simp only [execTimeSetArm, Host.Outcome.next.injEq] at h
  subst h
  simp
theorem execRefSuspectClear_frame (t : Tick) (n : Fin 4) (value : Reg) (s : State) {t_ : State} (h : execRefSuspectClear t n value s = .next t_) :
    t_.pending = s.pending ∧ t_.audio = s.audio ∧ t_.lbox = s.lbox ∧ t_.chan = s.chan ∧ t_.now = (s.advance t).now := by
  simp only [execRefSuspectClear, Host.Outcome.next.injEq] at h
  subst h
  simp
theorem execSclkCfgWrite_frame (t : Tick) (k : Fin 2) (value : Reg) (s : State) {t_ : State} (h : execSclkCfgWrite t k value s = .next t_) :
    t_.pending = s.pending ∧ t_.audio = s.audio ∧ t_.lbox = s.lbox ∧ t_.chan = s.chan ∧ t_.now = (s.advance t).now := by
  simp only [execSclkCfgWrite, Host.Outcome.next.injEq] at h
  subst h
  simp
theorem execLaneRestart_frame (t : Tick) (lane : Fin 64) (value : Reg) (s : State) {t_ : State} (h : execLaneRestart t lane value s = .next t_) :
    t_.pending = s.pending ∧ t_.audio = s.audio ∧ t_.lbox = s.lbox ∧ t_.chan = s.chan ∧ t_.now = (s.advance t).now := by
  simp only [execLaneRestart, Host.Outcome.next.injEq] at h
  subst h
  simp
theorem execErrInj_frame (t : Tick) (lane : Fin 64) (value : Reg) (s : State) {t_ : State} (h : execErrInj t lane value s = .next t_) :
    t_.pending = s.pending ∧ t_.audio = s.audio ∧ t_.lbox = s.lbox ∧ t_.chan = s.chan ∧ t_.now = (s.advance t).now := by
  simp only [execErrInj, Host.Outcome.next.injEq] at h
  subst h
  simp
theorem execLaneCntClr_frame (t : Tick) (lane : Fin 64) (value : Reg) (s : State) {t_ : State} (h : execLaneCntClr t lane value s = .next t_) :
    t_.pending = s.pending ∧ t_.audio = s.audio ∧ t_.lbox = s.lbox ∧ t_.chan = s.chan ∧ t_.now = (s.advance t).now := by
  simp only [execLaneCntClr, Host.Outcome.next.injEq] at h
  subst h
  simp
theorem execLinkClr_frame (t : Tick) (q : Fin 16) (value : Reg) (s : State) {t_ : State} (h : execLinkClr t q value s = .next t_) :
    t_.pending = s.pending ∧ t_.audio = s.audio ∧ t_.lbox = s.lbox ∧ t_.chan = s.chan ∧ t_.now = (s.advance t).now := by
  simp only [execLinkClr, Host.Outcome.next.injEq] at h
  subst h
  simp
theorem execQuadEnable_frame (t : Tick) (q : Fin 16) (value : Reg) (s : State) {t_ : State} (h : execQuadEnable t q value s = .next t_) :
    t_.pending = s.pending ∧ t_.audio = s.audio ∧ t_.lbox = s.lbox ∧ t_.chan = s.chan ∧ t_.now = (s.advance t).now := by
  simp only [execQuadEnable, Host.Outcome.next.injEq] at h
  subst h
  simp
theorem execQuadDisable_frame (t : Tick) (q : Fin 16) (value : Reg) (s : State) {t_ : State} (h : execQuadDisable t q value s = .next t_) :
    t_.pending = s.pending ∧ t_.audio = s.audio ∧ t_.lbox = s.lbox ∧ t_.chan = s.chan ∧ t_.now = (s.advance t).now := by
  simp only [execQuadDisable, Host.Outcome.next.injEq] at h
  subst h
  simp
theorem execHbmApply_frame (t : Tick) (value : Reg) (s : State) {t_ : State} (h : execHbmApply t value s = .next t_) :
    t_.pending = s.pending ∧ t_.audio = s.audio ∧ t_.lbox = s.lbox ∧ t_.chan = s.chan ∧ t_.now = (s.advance t).now := by
  simp only [execHbmApply, Host.Outcome.next.injEq] at h
  subst h
  simp
theorem execHbmCntClr_frame (t : Tick) (value : Reg) (s : State) {t_ : State} (h : execHbmCntClr t value s = .next t_) :
    t_.pending = s.pending ∧ t_.audio = s.audio ∧ t_.lbox = s.lbox ∧ t_.chan = s.chan ∧ t_.now = (s.advance t).now := by
  simp only [execHbmCntClr, Host.Outcome.next.injEq] at h
  subst h
  simp
theorem execGdlySelWrite_frame (t : Tick) (value : Reg) (s : State) {t_ : State} (h : execGdlySelWrite t value s = .next t_) :
    t_.pending = s.pending ∧ t_.audio = s.audio ∧ t_.lbox = s.lbox ∧ t_.chan = s.chan ∧ t_.now = (s.advance t).now := by
  simp only [execGdlySelWrite, Host.Outcome.next.injEq] at h
  subst h
  simp
theorem execWindowStart_frame (t : Tick) (n : Fin 16) (value : Reg) (s : State) {t_ : State} (h : execWindowStart t n value s = .next t_) :
    t_.pending = s.pending ∧ t_.audio = s.audio ∧ t_.lbox = s.lbox ∧ t_.chan = s.chan ∧ t_.now = (s.advance t).now := by
  simp only [execWindowStart, Host.Outcome.next.injEq] at h
  subst h
  simp
theorem execWindowStop_frame (t : Tick) (n : Fin 16) (value : Reg) (s : State) {t_ : State} (h : execWindowStop t n value s = .next t_) :
    t_.pending = s.pending ∧ t_.audio = s.audio ∧ t_.lbox = s.lbox ∧ t_.chan = s.chan ∧ t_.now = (s.advance t).now := by
  simp only [execWindowStop, Host.Outcome.next.injEq] at h
  subst h
  simp
theorem execTwinCtlWrite_frame (t : Tick) (value : Reg) (s : State) {t_ : State} (h : execTwinCtlWrite t value s = .next t_) :
    t_.pending = s.pending ∧ t_.audio = s.audio ∧ t_.lbox = s.lbox ∧ t_.chan = s.chan ∧ t_.now = (s.advance t).now := by
  simp only [execTwinCtlWrite, Host.Outcome.next.injEq] at h
  subst h
  simp
theorem execDbgLock_frame (t : Tick) (value : Reg) (s : State) {t_ : State} (h : execDbgLock t value s = .next t_) :
    t_.pending = s.pending ∧ t_.audio = s.audio ∧ t_.lbox = s.lbox ∧ t_.chan = s.chan ∧ t_.now = (s.advance t).now := by
  simp only [execDbgLock, Host.Outcome.next.injEq] at h
  subst h
  simp
theorem execDbgFuse_frame (t : Tick) (value : Reg) (s : State) {t_ : State} (h : execDbgFuse t value s = .next t_) :
    t_.pending = s.pending ∧ t_.audio = s.audio ∧ t_.lbox = s.lbox ∧ t_.chan = s.chan ∧ t_.now = (s.advance t).now := by
  simp only [execDbgFuse, Host.Outcome.next.injEq] at h
  subst h
  simp
theorem execSvnCommit_frame (t : Tick) (value : Reg) (s : State) {t_ : State} (h : execSvnCommit t value s = .next t_) :
    t_.pending = s.pending ∧ t_.audio = s.audio ∧ t_.lbox = s.lbox ∧ t_.chan = s.chan ∧ t_.now = (s.advance t).now := by
  simp only [execSvnCommit, Host.Outcome.next.injEq] at h
  subst h
  simp
theorem execRevoke_frame (t : Tick) (value : Reg) (s : State) {t_ : State} (h : execRevoke t value s = .next t_) :
    t_.pending = s.pending ∧ t_.audio = s.audio ∧ t_.lbox = s.lbox ∧ t_.chan = s.chan ∧ t_.now = (s.advance t).now := by
  simp only [execRevoke, Host.Outcome.next.injEq] at h
  subst h
  simp
theorem execLatchedLoRead_frame (t : Tick) (pair : LatchedPair) (s : State) {t_ : State} (h : execLatchedLoRead t pair s = .next t_) :
    t_.pending = s.pending ∧ t_.audio = s.audio ∧ t_.lbox = s.lbox ∧ t_.chan = s.chan ∧ t_.now = (s.advance t).now := by
  simp only [execLatchedLoRead, Host.Outcome.next.injEq] at h
  subst h
  simp
theorem execBadRegisterRead_frame (t : Tick) (at_ : BusAddress) (width : AccessWidth) (s : State) {t_ : State} (h : execBadRegisterRead t at_ width s = .next t_) :
    t_.pending = s.pending ∧ t_.audio = s.audio ∧ t_.lbox = s.lbox ∧ t_.chan = s.chan ∧ t_.now = (s.advance t).now := by
  simp only [execBadRegisterRead, Host.Outcome.next.injEq] at h
  subst h
  simp
@[simp] theorem runNop_frame (d : Desc) (x1 : Bytes) (s : State) :
    (runNop d x1 s).pending = s.pending ∧ (runNop d x1 s).audio = s.audio ∧ (runNop d x1 s).lbox = s.lbox ∧ (runNop d x1 s).pins = s.pins ∧ (runNop d x1 s).tOffset = s.tOffset ∧ (runNop d x1 s).boot = s.boot ∧ (runNop d x1 s).chan = s.chan ∧ (runNop d x1 s).hbm = s.hbm ∧ (runNop d x1 s).glint = s.glint ∧ (runNop d x1 s).cond = s.cond ∧ (runNop d x1 s).tx = s.tx ∧ (runNop d x1 s).corr = s.corr ∧ (runNop d x1 s).link = s.link ∧ (runNop d x1 s).twin = s.twin ∧ (runNop d x1 s).mgmt = s.mgmt ∧ (runNop d x1 s).tb = s.tb ∧ (runNop d x1 s).now = s.now := by
  generalize hr : runNop d x1 s = r
  simp only [runNop] at hr
  repeat' split at hr
  all_goals (subst hr; simp)
theorem execNop_frame (t : Tick) (d : Desc) (data : Bytes) (s : State) {t_ : State} (h : execNop t d data s = .next t_) :
    t_.pending = s.pending ∧ t_.audio = s.audio ∧ t_.lbox = s.lbox ∧ t_.pins = s.pins ∧ t_.tOffset = (s.advance t).tOffset ∧ t_.boot = s.boot ∧ t_.chan = s.chan ∧ t_.hbm = s.hbm ∧ t_.glint = s.glint ∧ t_.cond = s.cond ∧ t_.tx = s.tx ∧ t_.corr = s.corr ∧ t_.link = s.link ∧ t_.twin = s.twin ∧ t_.mgmt = s.mgmt ∧ t_.tb = (s.advance t).tb ∧ t_.now = (s.advance t).now := by
  simp only [execNop, Host.Outcome.next.injEq] at h
  subst h
  simp
@[simp] theorem runCounterReadOut_frame (d : Desc) (data : Bytes) (s : State) :
    (runCounterReadOut d data s).pending = s.pending ∧ (runCounterReadOut d data s).audio = s.audio ∧ (runCounterReadOut d data s).lbox = s.lbox ∧ (runCounterReadOut d data s).pins = s.pins ∧ (runCounterReadOut d data s).tOffset = s.tOffset ∧ (runCounterReadOut d data s).boot = s.boot ∧ (runCounterReadOut d data s).chan = s.chan ∧ (runCounterReadOut d data s).hbm = s.hbm ∧ (runCounterReadOut d data s).glint = s.glint ∧ (runCounterReadOut d data s).cond = s.cond ∧ (runCounterReadOut d data s).tx = s.tx ∧ (runCounterReadOut d data s).corr = s.corr ∧ (runCounterReadOut d data s).link = s.link ∧ (runCounterReadOut d data s).twin = s.twin ∧ (runCounterReadOut d data s).mgmt = s.mgmt ∧ (runCounterReadOut d data s).tb = s.tb ∧ (runCounterReadOut d data s).now = s.now := by
  generalize hr : runCounterReadOut d data s = r
  simp only [runCounterReadOut] at hr
  repeat' split at hr
  all_goals (subst hr; simp)
theorem execCounterReadOut_frame (t : Tick) (d : Desc) (data : Bytes) (s : State) {t_ : State} (h : execCounterReadOut t d data s = .next t_) :
    t_.pending = s.pending ∧ t_.audio = s.audio ∧ t_.lbox = s.lbox ∧ t_.pins = s.pins ∧ t_.tOffset = (s.advance t).tOffset ∧ t_.boot = s.boot ∧ t_.chan = s.chan ∧ t_.hbm = s.hbm ∧ t_.glint = s.glint ∧ t_.cond = s.cond ∧ t_.tx = s.tx ∧ t_.corr = s.corr ∧ t_.link = s.link ∧ t_.twin = s.twin ∧ t_.mgmt = s.mgmt ∧ t_.tb = (s.advance t).tb ∧ t_.now = (s.advance t).now := by
  simp only [execCounterReadOut, Host.Outcome.next.injEq] at h
  subst h
  simp
@[simp] theorem runPresetReadOut_frame (d : Desc) (data : Bytes) (s : State) :
    (runPresetReadOut d data s).pending = s.pending ∧ (runPresetReadOut d data s).audio = s.audio ∧ (runPresetReadOut d data s).lbox = s.lbox ∧ (runPresetReadOut d data s).pins = s.pins ∧ (runPresetReadOut d data s).tOffset = s.tOffset ∧ (runPresetReadOut d data s).boot = s.boot ∧ (runPresetReadOut d data s).chan = s.chan ∧ (runPresetReadOut d data s).hbm = s.hbm ∧ (runPresetReadOut d data s).glint = s.glint ∧ (runPresetReadOut d data s).cond = s.cond ∧ (runPresetReadOut d data s).tx = s.tx ∧ (runPresetReadOut d data s).corr = s.corr ∧ (runPresetReadOut d data s).link = s.link ∧ (runPresetReadOut d data s).twin = s.twin ∧ (runPresetReadOut d data s).mgmt = s.mgmt ∧ (runPresetReadOut d data s).tb = s.tb ∧ (runPresetReadOut d data s).now = s.now := by
  generalize hr : runPresetReadOut d data s = r
  simp only [runPresetReadOut] at hr
  repeat' split at hr
  all_goals (subst hr; simp)
theorem execPresetReadOut_frame (t : Tick) (d : Desc) (data : Bytes) (s : State) {t_ : State} (h : execPresetReadOut t d data s = .next t_) :
    t_.pending = s.pending ∧ t_.audio = s.audio ∧ t_.lbox = s.lbox ∧ t_.pins = s.pins ∧ t_.tOffset = (s.advance t).tOffset ∧ t_.boot = s.boot ∧ t_.chan = s.chan ∧ t_.hbm = s.hbm ∧ t_.glint = s.glint ∧ t_.cond = s.cond ∧ t_.tx = s.tx ∧ t_.corr = s.corr ∧ t_.link = s.link ∧ t_.twin = s.twin ∧ t_.mgmt = s.mgmt ∧ t_.tb = (s.advance t).tb ∧ t_.now = (s.advance t).now := by
  simp only [execPresetReadOut, Host.Outcome.next.injEq] at h
  subst h
  simp
@[simp] theorem runClearUntrusted_frame (d : Desc) (x1 : Bytes) (s : State) :
    (runClearUntrusted d x1 s).pending = s.pending ∧ (runClearUntrusted d x1 s).audio = s.audio ∧ (runClearUntrusted d x1 s).lbox = s.lbox ∧ (runClearUntrusted d x1 s).pins = s.pins ∧ (runClearUntrusted d x1 s).tOffset = s.tOffset ∧ (runClearUntrusted d x1 s).boot = s.boot ∧ (runClearUntrusted d x1 s).chan = s.chan ∧ (runClearUntrusted d x1 s).hbm = s.hbm ∧ (runClearUntrusted d x1 s).glint = s.glint ∧ (runClearUntrusted d x1 s).cond = s.cond ∧ (runClearUntrusted d x1 s).tx = s.tx ∧ (runClearUntrusted d x1 s).corr = s.corr ∧ (runClearUntrusted d x1 s).link = s.link ∧ (runClearUntrusted d x1 s).tb = s.tb ∧ (runClearUntrusted d x1 s).now = s.now := by
  generalize hr : runClearUntrusted d x1 s = r
  simp only [runClearUntrusted] at hr
  repeat' split at hr
  all_goals (subst hr; simp)
theorem execClearUntrusted_frame (t : Tick) (d : Desc) (data : Bytes) (s : State) {t_ : State} (h : execClearUntrusted t d data s = .next t_) :
    t_.pending = s.pending ∧ t_.audio = s.audio ∧ t_.lbox = s.lbox ∧ t_.pins = s.pins ∧ t_.tOffset = (s.advance t).tOffset ∧ t_.boot = s.boot ∧ t_.chan = s.chan ∧ t_.hbm = s.hbm ∧ t_.glint = s.glint ∧ t_.cond = s.cond ∧ t_.tx = s.tx ∧ t_.corr = s.corr ∧ t_.link = s.link ∧ t_.tb = (s.advance t).tb ∧ t_.now = (s.advance t).now := by
  simp only [execClearUntrusted, Host.Outcome.next.injEq] at h
  subst h
  simp
@[simp] theorem unloadCfg_frame (kind : ℕ) (id : ℕ) (s : State) :
    (unloadCfg kind id s).pending = s.pending ∧ (unloadCfg kind id s).audio = s.audio ∧ (unloadCfg kind id s).lbox = s.lbox ∧ (unloadCfg kind id s).pins = s.pins ∧ (unloadCfg kind id s).tOffset = s.tOffset ∧ (unloadCfg kind id s).boot = s.boot ∧ (unloadCfg kind id s).chan = s.chan ∧ (unloadCfg kind id s).hbm = s.hbm ∧ (unloadCfg kind id s).glint = s.glint ∧ (unloadCfg kind id s).cond = s.cond ∧ (unloadCfg kind id s).tx = s.tx ∧ (unloadCfg kind id s).corr = s.corr ∧ (unloadCfg kind id s).link = s.link ∧ (unloadCfg kind id s).mgmt = s.mgmt ∧ (unloadCfg kind id s).host = s.host ∧ (unloadCfg kind id s).out = s.out ∧ (unloadCfg kind id s).free = s.free ∧ (unloadCfg kind id s).tb = s.tb ∧ (unloadCfg kind id s).now = s.now := by
  generalize hr : unloadCfg kind id s = r
  simp only [unloadCfg] at hr
  repeat' split at hr
  all_goals (subst hr; simp)
theorem unloadImage_frame (kind id : ℕ) (s : State) {t : State} (h : unloadImage kind id s = .removed t) :
    t.pending = s.pending ∧ t.pins = s.pins ∧ t.tOffset = s.tOffset ∧ t.boot = s.boot ∧ t.hbm = s.hbm ∧ t.link = s.link ∧ t.mgmt = s.mgmt ∧ t.host = s.host ∧ t.out = s.out ∧ t.free = s.free ∧ t.tb = s.tb ∧ t.now = s.now := by
  simp only [unloadImage, unloadEntry] at h
  repeat' (first | contradiction | split at h)
  all_goals (have h' := Unload.removed.inj h; subst h')
  all_goals first | (simp; done) | (rename_i hs; simp [unloadSched_frame _ _ hs])
@[simp] theorem runImageUnload_frame (d : Desc) (x1 : Bytes) (s : State) :
    (runImageUnload d x1 s).pending = s.pending ∧ (runImageUnload d x1 s).pins = s.pins ∧ (runImageUnload d x1 s).tOffset = s.tOffset ∧ (runImageUnload d x1 s).boot = s.boot ∧ (runImageUnload d x1 s).hbm = s.hbm ∧ (runImageUnload d x1 s).link = s.link ∧ (runImageUnload d x1 s).tb = s.tb ∧ (runImageUnload d x1 s).now = s.now := by
  generalize hr : runImageUnload d x1 s = r
  simp only [runImageUnload] at hr
  repeat' split at hr
  all_goals subst hr
  all_goals first | (simp; done) | (rename_i hu; simp [unloadImage_frame _ _ _ hu])
theorem execImageUnload_frame (t : Tick) (d : Desc) (data : Bytes) (s : State) {t_ : State} (h : execImageUnload t d data s = .next t_) :
    t_.pending = s.pending ∧ t_.pins = s.pins ∧ t_.tOffset = (s.advance t).tOffset ∧ t_.boot = s.boot ∧ t_.hbm = s.hbm ∧ t_.link = s.link ∧ t_.tb = (s.advance t).tb ∧ t_.now = (s.advance t).now := by
  simp only [execImageUnload, Host.Outcome.next.injEq] at h
  subst h
  simp
@[simp] theorem setFormat_frame (k : ℕ) (fmt : ℕ) (fscale : ℕ) (s : State) :
    (setFormat k fmt fscale s).pending = s.pending ∧ (setFormat k fmt fscale s).audio = s.audio ∧ (setFormat k fmt fscale s).lbox = s.lbox ∧ (setFormat k fmt fscale s).pins = s.pins ∧ (setFormat k fmt fscale s).tOffset = s.tOffset ∧ (setFormat k fmt fscale s).boot = s.boot ∧ (setFormat k fmt fscale s).chan = s.chan ∧ (setFormat k fmt fscale s).hbm = s.hbm ∧ (setFormat k fmt fscale s).glint = s.glint ∧ (setFormat k fmt fscale s).cond = s.cond ∧ (setFormat k fmt fscale s).tx = s.tx ∧ (setFormat k fmt fscale s).link = s.link ∧ (setFormat k fmt fscale s).twin = s.twin ∧ (setFormat k fmt fscale s).mgmt = s.mgmt ∧ (setFormat k fmt fscale s).host = s.host ∧ (setFormat k fmt fscale s).out = s.out ∧ (setFormat k fmt fscale s).free = s.free ∧ (setFormat k fmt fscale s).tb = s.tb ∧ (setFormat k fmt fscale s).now = s.now := by
  simp [setFormat]
@[simp] theorem wakeOutlet_frame (b : Binding) (s : State) :
    (wakeOutlet b s).pending = s.pending ∧ (wakeOutlet b s).audio = s.audio ∧ (wakeOutlet b s).lbox = s.lbox ∧ (wakeOutlet b s).pins = s.pins ∧ (wakeOutlet b s).tOffset = s.tOffset ∧ (wakeOutlet b s).boot = s.boot ∧ (wakeOutlet b s).chan = s.chan ∧ (wakeOutlet b s).hbm = s.hbm ∧ (wakeOutlet b s).glint = s.glint ∧ (wakeOutlet b s).cond = s.cond ∧ (wakeOutlet b s).tx = s.tx ∧ (wakeOutlet b s).corr = s.corr ∧ (wakeOutlet b s).twin = s.twin ∧ (wakeOutlet b s).mgmt = s.mgmt ∧ (wakeOutlet b s).host = s.host ∧ (wakeOutlet b s).out = s.out ∧ (wakeOutlet b s).free = s.free ∧ (wakeOutlet b s).tb = s.tb ∧ (wakeOutlet b s).now = s.now := by
  generalize hr : wakeOutlet b s = r
  simp only [wakeOutlet] at hr
  repeat' split at hr
  all_goals (subst hr; simp)
@[simp] theorem runProductBinding_frame (d : Desc) (x1 : Bytes) (s : State) :
    (runProductBinding d x1 s).pending = s.pending ∧ (runProductBinding d x1 s).audio = s.audio ∧ (runProductBinding d x1 s).lbox = s.lbox ∧ (runProductBinding d x1 s).pins = s.pins ∧ (runProductBinding d x1 s).tOffset = s.tOffset ∧ (runProductBinding d x1 s).boot = s.boot ∧ (runProductBinding d x1 s).chan = s.chan ∧ (runProductBinding d x1 s).hbm = s.hbm ∧ (runProductBinding d x1 s).glint = s.glint ∧ (runProductBinding d x1 s).cond = s.cond ∧ (runProductBinding d x1 s).tx = s.tx ∧ (runProductBinding d x1 s).tb = s.tb ∧ (runProductBinding d x1 s).now = s.now := by
  generalize hr : runProductBinding d x1 s = r
  simp only [runProductBinding] at hr
  repeat' split at hr
  all_goals (subst hr; simp)
theorem execProductBinding_frame (t : Tick) (d : Desc) (data : Bytes) (s : State) {t_ : State} (h : execProductBinding t d data s = .next t_) :
    t_.pending = s.pending ∧ t_.audio = s.audio ∧ t_.lbox = s.lbox ∧ t_.pins = s.pins ∧ t_.tOffset = (s.advance t).tOffset ∧ t_.boot = s.boot ∧ t_.chan = s.chan ∧ t_.hbm = s.hbm ∧ t_.glint = s.glint ∧ t_.cond = s.cond ∧ t_.tx = s.tx ∧ t_.tb = (s.advance t).tb ∧ t_.now = (s.advance t).now := by
  simp only [execProductBinding, Host.Outcome.next.injEq] at h
  subst h
  simp
@[simp] theorem runImageLoad_frame (d : Desc) (data : Bytes) (s : State) :
    (runImageLoad d data s).pending = s.pending ∧ (runImageLoad d data s).pins = s.pins ∧ (runImageLoad d data s).tOffset = s.tOffset ∧ (runImageLoad d data s).boot = s.boot ∧ (runImageLoad d data s).link = s.link ∧ (runImageLoad d data s).tb = s.tb ∧ (runImageLoad d data s).now = s.now := by
  generalize hr : runImageLoad d data s = r
  simp only [runImageLoad] at hr
  repeat' split at hr
  all_goals (subst hr; simp)
@[simp] theorem runTwinRole_frame (d : Desc) (data : Bytes) (s : State) :
    (runTwinRole d data s).pending = s.pending ∧ (runTwinRole d data s).audio = s.audio ∧ (runTwinRole d data s).lbox = s.lbox ∧ (runTwinRole d data s).tOffset = s.tOffset ∧ (runTwinRole d data s).boot = s.boot ∧ (runTwinRole d data s).chan = s.chan ∧ (runTwinRole d data s).hbm = s.hbm ∧ (runTwinRole d data s).cond = s.cond ∧ (runTwinRole d data s).tb = s.tb ∧ (runTwinRole d data s).now = s.now := by
  generalize hr : runTwinRole d data s = r
  simp only [runTwinRole] at hr
  repeat' split at hr
  all_goals (subst hr; simp)
@[simp] theorem runCommand_frame (d : Desc) (data : Bytes) (s : State) :
    (runCommand d data s).pending = s.pending ∧ (runCommand d data s).tOffset = s.tOffset ∧ (runCommand d data s).boot = s.boot ∧ (runCommand d data s).tb = s.tb ∧ (runCommand d data s).now = s.now := by
  generalize hr : runCommand d data s = r
  simp only [runCommand] at hr
  repeat' split at hr
  all_goals (subst hr; simp)
@[simp] theorem startCommand_frame (h : Held) (s : State) :
    (startCommand h s).pending = s.pending ∧ (startCommand h s).tOffset = s.tOffset ∧ (startCommand h s).boot = s.boot ∧ (startCommand h s).tb = s.tb ∧ (startCommand h s).now = s.now := by
  generalize hr : startCommand h s = r
  simp only [startCommand] at hr
  repeat' split at hr
  all_goals (subst hr; simp)
@[simp] theorem startHeldN_frame (a : ℕ) (a1 : State) :
    (startHeldN a a1).pending = a1.pending ∧ (startHeldN a a1).tOffset = a1.tOffset ∧ (startHeldN a a1).boot = a1.boot ∧ (startHeldN a a1).tb = a1.tb ∧ (startHeldN a a1).now = a1.now := by
  induction a generalizing a1 with
  | zero => simp [startHeldN]
  | succ n ih =>
    generalize hr : startHeldN (n + 1) a1 = r
    simp only [startHeldN] at hr
    repeat' (first | split at hr)
    all_goals (subst hr; simp [ih])
@[simp] theorem startHeld_frame (s : State) :
    (startHeld s).pending = s.pending ∧ (startHeld s).tOffset = s.tOffset ∧ (startHeld s).boot = s.boot ∧ (startHeld s).tb = s.tb ∧ (startHeld s).now = s.now := by
  simp [startHeld]
@[simp] theorem takeCommand_frame (h : Held) (s : State) :
    (takeCommand h s).pending = s.pending ∧ (takeCommand h s).tOffset = s.tOffset ∧ (takeCommand h s).boot = s.boot ∧ (takeCommand h s).tb = s.tb ∧ (takeCommand h s).now = s.now := by
  simp [takeCommand]
theorem execDescriptorFetched_frame (t : Tick) (bytes : Bytes) (data : Bytes) (s : State) {t_ : State} (h : execDescriptorFetched t bytes data s = .next t_) :
    t_.pending = s.pending ∧ t_.tOffset = (s.advance t).tOffset ∧ t_.boot = s.boot ∧ t_.tb = (s.advance t).tb ∧ t_.now = (s.advance t).now := by
  simp only [execDescriptorFetched] at h
  repeat' split at h
  all_goals (cases h; simp)
theorem execCommandReadFailed_frame (t : Tick) (bytes : Option Bytes) (cause : DmaCause) (s : State) {t_ : State} (h : execCommandReadFailed t bytes cause s = .next t_) :
    t_.pending = s.pending ∧ t_.tOffset = (s.advance t).tOffset ∧ t_.boot = s.boot ∧ t_.tb = (s.advance t).tb ∧ t_.now = (s.advance t).now := by
  simp only [execCommandReadFailed] at h
  repeat' split at h
  all_goals (cases h; simp)
theorem execDeferredCompletion_frame (t : Tick) (index : BitVec 32) (s : State) {t_ : State} (h : execDeferredCompletion t index s = .next t_) :
    t_.pending = s.pending ∧ t_.audio = s.audio ∧ t_.lbox = s.lbox ∧ t_.pins = s.pins ∧ t_.tOffset = (s.advance t).tOffset ∧ t_.boot = s.boot ∧ t_.chan = s.chan ∧ t_.hbm = s.hbm ∧ t_.glint = s.glint ∧ t_.cond = s.cond ∧ t_.tx = s.tx ∧ t_.corr = s.corr ∧ t_.link = s.link ∧ t_.twin = s.twin ∧ t_.mgmt = s.mgmt ∧ t_.free = s.free ∧ t_.tb = (s.advance t).tb ∧ t_.now = (s.advance t).now := by
  simp only [execDeferredCompletion] at h
  repeat' split at h
  all_goals (cases h; simp)
@[simp] theorem noteSources_frame (s : State) :
    (noteSources s).pending = s.pending ∧ (noteSources s).audio = s.audio ∧ (noteSources s).lbox = s.lbox ∧ (noteSources s).pins = s.pins ∧ (noteSources s).tOffset = s.tOffset ∧ (noteSources s).boot = s.boot ∧ (noteSources s).chan = s.chan ∧ (noteSources s).hbm = s.hbm ∧ (noteSources s).glint = s.glint ∧ (noteSources s).cond = s.cond ∧ (noteSources s).tx = s.tx ∧ (noteSources s).corr = s.corr ∧ (noteSources s).link = s.link ∧ (noteSources s).twin = s.twin ∧ (noteSources s).mgmt = s.mgmt ∧ (noteSources s).out = s.out ∧ (noteSources s).free = s.free ∧ (noteSources s).tb = s.tb ∧ (noteSources s).now = s.now := by
  unfold noteSources
  refine ⟨(foldl_pending _ _ _ fun s a => ?_), (foldl_audio _ _ _ fun s a => ?_), (foldl_lbox _ _ _ fun s a => ?_), (foldl_pins _ _ _ fun s a => ?_), (foldl_tOffset _ _ _ fun s a => ?_), (foldl_boot _ _ _ fun s a => ?_), (foldl_chan _ _ _ fun s a => ?_), (foldl_hbm _ _ _ fun s a => ?_), (foldl_glint _ _ _ fun s a => ?_), (foldl_cond _ _ _ fun s a => ?_), (foldl_tx _ _ _ fun s a => ?_), (foldl_corr _ _ _ fun s a => ?_), (foldl_link _ _ _ fun s a => ?_), (foldl_twin _ _ _ fun s a => ?_), (foldl_mgmt _ _ _ fun s a => ?_), (foldl_out _ _ _ fun s a => ?_), (foldl_free _ _ _ fun s a => ?_), (foldl_tb _ _ _ fun s a => ?_), (foldl_now _ _ _ fun s a => ?_)⟩
  all_goals (try dsimp only)
  all_goals (repeat' (first | rfl | split))
  all_goals (try simp)
theorem execDoorbellPoll_frame (t : Tick) (block : Bytes) (s : State) {t_ : State} (h : execDoorbellPoll t block s = .next t_) :
    t_.pending = s.pending ∧ t_.tOffset = (s.advance t).tOffset ∧ t_.boot = s.boot ∧ t_.tb = (s.advance t).tb ∧ t_.now = (s.advance t).now := by
  simp only [execDoorbellPoll] at h
  repeat' split at h
  all_goals (cases h; simp)
@[simp] theorem advance_self_now (s : State) : (s.advance s.now).now = s.now := Nat.max_self _
theorem after_pending (o : Host.Outcome State Fault Refusal) (s : State) (h : ∀ t, o = .next t → t.pending = s.pending) :
    (after o s).pending = s.pending := by
  unfold after
  split
  · exact h _ rfl
  · rfl
theorem after_audio (o : Host.Outcome State Fault Refusal) (s : State) (h : ∀ t, o = .next t → t.audio = s.audio) :
    (after o s).audio = s.audio := by
  unfold after
  split
  · exact h _ rfl
  · rfl
theorem after_lbox (o : Host.Outcome State Fault Refusal) (s : State) (h : ∀ t, o = .next t → t.lbox = s.lbox) :
    (after o s).lbox = s.lbox := by
  unfold after
  split
  · exact h _ rfl
  · rfl
theorem after_boot (o : Host.Outcome State Fault Refusal) (s : State) (h : ∀ t, o = .next t → t.boot = s.boot) :
    (after o s).boot = s.boot := by
  unfold after
  split
  · exact h _ rfl
  · rfl
theorem after_now (o : Host.Outcome State Fault Refusal) (s : State) (h : ∀ t, o = .next t → t.now = s.now) :
    (after o s).now = s.now := by
  unfold after
  split
  · exact h _ rfl
  · rfl
@[simp] theorem after_execIngestFrame (q : Fin 16) (f : RawFrame) (s : State) :
    (after (execIngestFrame s.now q f s) s).pending = s.pending ∧ (after (execIngestFrame s.now q f s) s).audio = s.audio ∧ (after (execIngestFrame s.now q f s) s).lbox = s.lbox ∧ (after (execIngestFrame s.now q f s) s).boot = s.boot ∧ (after (execIngestFrame s.now q f s) s).now = s.now := by
  refine ⟨after_pending _ _ fun t h => ?_, after_audio _ _ fun t h => ?_, after_lbox _ _ fun t h => ?_, after_boot _ _ fun t h => ?_, after_now _ _ fun t h => ?_⟩
  all_goals simp [execIngestFrame_frame _ _ _ _  h]
@[simp] theorem after_execSenseFrame (q : Fin 16) (f : RawFrame) (s : State) :
    (after (execSenseFrame s.now q f s) s).pending = s.pending ∧ (after (execSenseFrame s.now q f s) s).audio = s.audio ∧ (after (execSenseFrame s.now q f s) s).lbox = s.lbox ∧ (after (execSenseFrame s.now q f s) s).boot = s.boot ∧ (after (execSenseFrame s.now q f s) s).now = s.now := by
  refine ⟨after_pending _ _ fun t h => ?_, after_audio _ _ fun t h => ?_, after_lbox _ _ fun t h => ?_, after_boot _ _ fun t h => ?_, after_now _ _ fun t h => ?_⟩
  all_goals simp [execSenseFrame_frame _ _ _ _  h]
@[simp] theorem after_execLinkStateFrame (q : Fin 16) (f : RawFrame) (s : State) :
    (after (execLinkStateFrame s.now q f s) s).pending = s.pending ∧ (after (execLinkStateFrame s.now q f s) s).audio = s.audio ∧ (after (execLinkStateFrame s.now q f s) s).lbox = s.lbox ∧ (after (execLinkStateFrame s.now q f s) s).boot = s.boot ∧ (after (execLinkStateFrame s.now q f s) s).now = s.now := by
  refine ⟨after_pending _ _ fun t h => ?_, after_audio _ _ fun t h => ?_, after_lbox _ _ fun t h => ?_, after_boot _ _ fun t h => ?_, after_now _ _ fun t h => ?_⟩
  all_goals simp [execLinkStateFrame_frame _ _ _ _  h]
@[simp] theorem after_execPlanDigestFrame (q : Fin 16) (f : RawFrame) (s : State) :
    (after (execPlanDigestFrame s.now q f s) s).pending = s.pending ∧ (after (execPlanDigestFrame s.now q f s) s).audio = s.audio ∧ (after (execPlanDigestFrame s.now q f s) s).lbox = s.lbox ∧ (after (execPlanDigestFrame s.now q f s) s).boot = s.boot ∧ (after (execPlanDigestFrame s.now q f s) s).now = s.now := by
  refine ⟨after_pending _ _ fun t h => ?_, after_audio _ _ fun t h => ?_, after_lbox _ _ fun t h => ?_, after_boot _ _ fun t h => ?_, after_now _ _ fun t h => ?_⟩
  all_goals simp [execPlanDigestFrame_frame _ _ _ _  h]
@[simp] theorem after_execBatchFrame (q : Fin 16) (f : RawFrame) (s : State) :
    (after (execBatchFrame s.now q f s) s).pending = s.pending ∧ (after (execBatchFrame s.now q f s) s).audio = s.audio ∧ (after (execBatchFrame s.now q f s) s).lbox = s.lbox ∧ (after (execBatchFrame s.now q f s) s).boot = s.boot ∧ (after (execBatchFrame s.now q f s) s).now = s.now := by
  refine ⟨after_pending _ _ fun t h => ?_, after_audio _ _ fun t h => ?_, after_lbox _ _ fun t h => ?_, after_boot _ _ fun t h => ?_, after_now _ _ fun t h => ?_⟩
  all_goals simp [execBatchFrame_frame _ _ _ _  h]
@[simp] theorem after_execDigestFrame (f : RawFrame) (s : State) :
    (after (execDigestFrame s.now f s) s).pending = s.pending ∧ (after (execDigestFrame s.now f s) s).audio = s.audio ∧ (after (execDigestFrame s.now f s) s).lbox = s.lbox ∧ (after (execDigestFrame s.now f s) s).boot = s.boot ∧ (after (execDigestFrame s.now f s) s).now = s.now := by
  refine ⟨after_pending _ _ fun t h => ?_, after_audio _ _ fun t h => ?_, after_lbox _ _ fun t h => ?_, after_boot _ _ fun t h => ?_, after_now _ _ fun t h => ?_⟩
  all_goals simp [execDigestFrame_frame _ _ _  h]
@[simp] theorem after_execArbitrationResult (f : RawFrame) (s : State) :
    (after (execArbitrationResult s.now f s) s).pending = s.pending ∧ (after (execArbitrationResult s.now f s) s).audio = s.audio ∧ (after (execArbitrationResult s.now f s) s).lbox = s.lbox ∧ (after (execArbitrationResult s.now f s) s).boot = s.boot ∧ (after (execArbitrationResult s.now f s) s).now = s.now := by
  refine ⟨after_pending _ _ fun t h => ?_, after_audio _ _ fun t h => ?_, after_lbox _ _ fun t h => ?_, after_boot _ _ fun t h => ?_, after_now _ _ fun t h => ?_⟩
  all_goals simp [execArbitrationResult_frame _ _ _  h]
@[simp] theorem after_execEffectFrame (f : RawFrame) (s : State) :
    (after (execEffectFrame s.now f s) s).pending = s.pending ∧ (after (execEffectFrame s.now f s) s).audio = s.audio ∧ (after (execEffectFrame s.now f s) s).lbox = s.lbox ∧ (after (execEffectFrame s.now f s) s).boot = s.boot ∧ (after (execEffectFrame s.now f s) s).now = s.now := by
  refine ⟨after_pending _ _ fun t h => ?_, after_audio _ _ fun t h => ?_, after_lbox _ _ fun t h => ?_, after_boot _ _ fun t h => ?_, after_now _ _ fun t h => ?_⟩
  all_goals simp [execEffectFrame_frame _ _ _  h]
@[simp] theorem after_execArbitrationOpen (f : RawFrame) (s : State) :
    (after (execArbitrationOpen s.now f s) s).pending = s.pending ∧ (after (execArbitrationOpen s.now f s) s).audio = s.audio ∧ (after (execArbitrationOpen s.now f s) s).lbox = s.lbox ∧ (after (execArbitrationOpen s.now f s) s).boot = s.boot ∧ (after (execArbitrationOpen s.now f s) s).now = s.now := by
  refine ⟨after_pending _ _ fun t h => ?_, after_audio _ _ fun t h => ?_, after_lbox _ _ fun t h => ?_, after_boot _ _ fun t h => ?_, after_now _ _ fun t h => ?_⟩
  all_goals simp [execArbitrationOpen_frame _ _ _  h]
@[simp] theorem after_execTwinHeartbeat (f : RawFrame) (s : State) :
    (after (execTwinHeartbeat s.now f s) s).pending = s.pending ∧ (after (execTwinHeartbeat s.now f s) s).audio = s.audio ∧ (after (execTwinHeartbeat s.now f s) s).lbox = s.lbox ∧ (after (execTwinHeartbeat s.now f s) s).boot = s.boot ∧ (after (execTwinHeartbeat s.now f s) s).now = s.now := by
  refine ⟨after_pending _ _ fun t h => ?_, after_audio _ _ fun t h => ?_, after_lbox _ _ fun t h => ?_, after_boot _ _ fun t h => ?_, after_now _ _ fun t h => ?_⟩
  all_goals simp [execTwinHeartbeat_frame _ _ _  h]
@[simp] theorem after_execTimeFrame (q : Fin 16) (arrival : BitVec 64) (f : RawFrame) (s : State) :
    (after (execTimeFrame s.now q arrival f s) s).pending = s.pending ∧ (after (execTimeFrame s.now q arrival f s) s).audio = s.audio ∧ (after (execTimeFrame s.now q arrival f s) s).lbox = s.lbox ∧ (after (execTimeFrame s.now q arrival f s) s).boot = s.boot ∧ (after (execTimeFrame s.now q arrival f s) s).now = s.now := by
  refine ⟨after_pending _ _ fun t h => ?_, after_audio _ _ fun t h => ?_, after_lbox _ _ fun t h => ?_, after_boot _ _ fun t h => ?_, after_now _ _ fun t h => ?_⟩
  all_goals simp [execTimeFrame_frame _ _ _ _ _  h]
@[simp] theorem after_execCreditBlock (q : Fin 16) (b : BitVec 64) (s : State) :
    (after (execCreditBlock s.now q b s) s).pending = s.pending ∧ (after (execCreditBlock s.now q b s) s).audio = s.audio ∧ (after (execCreditBlock s.now q b s) s).lbox = s.lbox ∧ (after (execCreditBlock s.now q b s) s).boot = s.boot ∧ (after (execCreditBlock s.now q b s) s).now = s.now := by
  refine ⟨after_pending _ _ fun t h => ?_, after_audio _ _ fun t h => ?_, after_lbox _ _ fun t h => ?_, after_boot _ _ fun t h => ?_, after_now _ _ fun t h => ?_⟩
  all_goals simp [execCreditBlock_frame _ _ _ _  h]
@[simp] theorem after_execAckReceived (q : Fin 16) (b : BitVec 64) (s : State) :
    (after (execAckReceived s.now q b s) s).pending = s.pending ∧ (after (execAckReceived s.now q b s) s).audio = s.audio ∧ (after (execAckReceived s.now q b s) s).lbox = s.lbox ∧ (after (execAckReceived s.now q b s) s).boot = s.boot ∧ (after (execAckReceived s.now q b s) s).now = s.now := by
  refine ⟨after_pending _ _ fun t h => ?_, after_audio _ _ fun t h => ?_, after_lbox _ _ fun t h => ?_, after_boot _ _ fun t h => ?_, after_now _ _ fun t h => ?_⟩
  all_goals simp [execAckReceived_frame _ _ _ _  h]
@[simp] theorem after_execNakReceived (q : Fin 16) (b : BitVec 64) (s : State) :
    (after (execNakReceived s.now q b s) s).pending = s.pending ∧ (after (execNakReceived s.now q b s) s).audio = s.audio ∧ (after (execNakReceived s.now q b s) s).lbox = s.lbox ∧ (after (execNakReceived s.now q b s) s).boot = s.boot ∧ (after (execNakReceived s.now q b s) s).now = s.now := by
  refine ⟨after_pending _ _ fun t h => ?_, after_audio _ _ fun t h => ?_, after_lbox _ _ fun t h => ?_, after_boot _ _ fun t h => ?_, after_now _ _ fun t h => ?_⟩
  all_goals simp [execNakReceived_frame _ _ _ _  h]
@[simp] theorem after_execLateNoticeReceived (q : Fin 16) (b : BitVec 64) (s : State) :
    (after (execLateNoticeReceived s.now q b s) s).pending = s.pending ∧ (after (execLateNoticeReceived s.now q b s) s).audio = s.audio ∧ (after (execLateNoticeReceived s.now q b s) s).lbox = s.lbox ∧ (after (execLateNoticeReceived s.now q b s) s).boot = s.boot ∧ (after (execLateNoticeReceived s.now q b s) s).now = s.now := by
  refine ⟨after_pending _ _ fun t h => ?_, after_audio _ _ fun t h => ?_, after_lbox _ _ fun t h => ?_, after_boot _ _ fun t h => ?_, after_now _ _ fun t h => ?_⟩
  all_goals simp [execLateNoticeReceived_frame _ _ _ _  h]
@[simp] theorem after_execSleepReqReceived (q : Fin 16) (b : BitVec 64) (s : State) :
    (after (execSleepReqReceived s.now q b s) s).pending = s.pending ∧ (after (execSleepReqReceived s.now q b s) s).audio = s.audio ∧ (after (execSleepReqReceived s.now q b s) s).lbox = s.lbox ∧ (after (execSleepReqReceived s.now q b s) s).boot = s.boot ∧ (after (execSleepReqReceived s.now q b s) s).now = s.now := by
  refine ⟨after_pending _ _ fun t h => ?_, after_audio _ _ fun t h => ?_, after_lbox _ _ fun t h => ?_, after_boot _ _ fun t h => ?_, after_now _ _ fun t h => ?_⟩
  all_goals simp [execSleepReqReceived_frame _ _ _ _  h]
@[simp] theorem after_execSleepAckReceived (q : Fin 16) (b : BitVec 64) (s : State) :
    (after (execSleepAckReceived s.now q b s) s).pending = s.pending ∧ (after (execSleepAckReceived s.now q b s) s).audio = s.audio ∧ (after (execSleepAckReceived s.now q b s) s).lbox = s.lbox ∧ (after (execSleepAckReceived s.now q b s) s).boot = s.boot ∧ (after (execSleepAckReceived s.now q b s) s).now = s.now := by
  refine ⟨after_pending _ _ fun t h => ?_, after_audio _ _ fun t h => ?_, after_lbox _ _ fun t h => ?_, after_boot _ _ fun t h => ?_, after_now _ _ fun t h => ?_⟩
  all_goals simp [execSleepAckReceived_frame _ _ _ _  h]
@[simp] theorem after_execSleepNakReceived (q : Fin 16) (b : BitVec 64) (s : State) :
    (after (execSleepNakReceived s.now q b s) s).pending = s.pending ∧ (after (execSleepNakReceived s.now q b s) s).audio = s.audio ∧ (after (execSleepNakReceived s.now q b s) s).lbox = s.lbox ∧ (after (execSleepNakReceived s.now q b s) s).boot = s.boot ∧ (after (execSleepNakReceived s.now q b s) s).now = s.now := by
  refine ⟨after_pending _ _ fun t h => ?_, after_audio _ _ fun t h => ?_, after_lbox _ _ fun t h => ?_, after_boot _ _ fun t h => ?_, after_now _ _ fun t h => ?_⟩
  all_goals simp [execSleepNakReceived_frame _ _ _ _  h]
@[simp] theorem after_execCommitReceived (q : Fin 16) (b : BitVec 64) (s : State) :
    (after (execCommitReceived s.now q b s) s).pending = s.pending ∧ (after (execCommitReceived s.now q b s) s).audio = s.audio ∧ (after (execCommitReceived s.now q b s) s).lbox = s.lbox ∧ (after (execCommitReceived s.now q b s) s).boot = s.boot ∧ (after (execCommitReceived s.now q b s) s).now = s.now := by
  refine ⟨after_pending _ _ fun t h => ?_, after_audio _ _ fun t h => ?_, after_lbox _ _ fun t h => ?_, after_boot _ _ fun t h => ?_, after_now _ _ fun t h => ?_⟩
  all_goals simp [execCommitReceived_frame _ _ _ _  h]
@[simp] theorem after_execAbortReceived (q : Fin 16) (b : BitVec 64) (s : State) :
    (after (execAbortReceived s.now q b s) s).pending = s.pending ∧ (after (execAbortReceived s.now q b s) s).audio = s.audio ∧ (after (execAbortReceived s.now q b s) s).lbox = s.lbox ∧ (after (execAbortReceived s.now q b s) s).boot = s.boot ∧ (after (execAbortReceived s.now q b s) s).now = s.now := by
  refine ⟨after_pending _ _ fun t h => ?_, after_audio _ _ fun t h => ?_, after_lbox _ _ fun t h => ?_, after_boot _ _ fun t h => ?_, after_now _ _ fun t h => ?_⟩
  all_goals simp [execAbortReceived_frame _ _ _ _  h]
@[simp] theorem after_execWakeReceived (q : Fin 16) (b : BitVec 64) (s : State) :
    (after (execWakeReceived s.now q b s) s).pending = s.pending ∧ (after (execWakeReceived s.now q b s) s).audio = s.audio ∧ (after (execWakeReceived s.now q b s) s).lbox = s.lbox ∧ (after (execWakeReceived s.now q b s) s).boot = s.boot ∧ (after (execWakeReceived s.now q b s) s).now = s.now := by
  refine ⟨after_pending _ _ fun t h => ?_, after_audio _ _ fun t h => ?_, after_lbox _ _ fun t h => ?_, after_boot _ _ fun t h => ?_, after_now _ _ fun t h => ?_⟩
  all_goals simp [execWakeReceived_frame _ _ _ _  h]
@[simp] theorem takeFrame_frame (q : Fin 16) (arrival : ℕ) (f : RawFrame) (s : State) :
    (takeFrame q arrival f s).pending = s.pending ∧ (takeFrame q arrival f s).audio = s.audio ∧ (takeFrame q arrival f s).lbox = s.lbox ∧ (takeFrame q arrival f s).boot = s.boot ∧ (takeFrame q arrival f s).now = s.now := by
  generalize hr : takeFrame q arrival f s = r
  simp only [takeFrame] at hr
  repeat' split at hr
  all_goals (subst hr; simp)
@[simp] theorem endFrame_frame (q : Fin 16) (eof : BitVec 64) (damaged : Bool) (s : State) :
    (endFrame q eof damaged s).pending = s.pending ∧ (endFrame q eof damaged s).audio = s.audio ∧ (endFrame q eof damaged s).lbox = s.lbox ∧ (endFrame q eof damaged s).boot = s.boot ∧ (endFrame q eof damaged s).now = s.now := by
  generalize hr : endFrame q eof damaged s = r
  simp only [endFrame] at hr
  repeat' split at hr
  all_goals (subst hr; simp)
@[simp] theorem takeCtl_frame (q : Fin 16) (at_ : ℕ) (p : BitVec 64) (s : State) :
    (takeCtl q at_ p s).pending = s.pending ∧ (takeCtl q at_ p s).audio = s.audio ∧ (takeCtl q at_ p s).lbox = s.lbox ∧ (takeCtl q at_ p s).boot = s.boot ∧ (takeCtl q at_ p s).now = s.now := by
  generalize hr : takeCtl q at_ p s = r
  simp only [takeCtl] at hr
  repeat' split at hr
  all_goals (subst hr; simp)
@[simp] theorem takeBlk_frame (q : Fin 16) (at_ : ℕ) (b : Blk) (s : State) :
    (takeBlk q at_ b s).pending = s.pending ∧ (takeBlk q at_ b s).audio = s.audio ∧ (takeBlk q at_ b s).lbox = s.lbox ∧ (takeBlk q at_ b s).boot = s.boot ∧ (takeBlk q at_ b s).now = s.now := by
  generalize hr : takeBlk q at_ b s = r
  simp only [takeBlk] at hr
  repeat' split at hr
  all_goals (subst hr; simp)
@[simp] theorem pullN_frame (a : ℕ) (a1 : Fin 16) (a2 : State) :
    (pullN a a1 a2).pending = a2.pending ∧ (pullN a a1 a2).audio = a2.audio ∧ (pullN a a1 a2).lbox = a2.lbox ∧ (pullN a a1 a2).boot = a2.boot ∧ (pullN a a1 a2).now = a2.now := by
  induction a generalizing a2 with
  | zero => simp [pullN]
  | succ n ih =>
    generalize hr : pullN (n + 1) a1 a2 = r
    simp only [pullN] at hr
    repeat' (first | split at hr)
    all_goals (subst hr; simp [ih])
@[simp] theorem pull_frame (q : Fin 16) (s : State) :
    (pull q s).pending = s.pending ∧ (pull q s).audio = s.audio ∧ (pull q s).lbox = s.lbox ∧ (pull q s).boot = s.boot ∧ (pull q s).now = s.now := by
  simp [pull]
theorem execBlockLockAcquired_frame (t : Tick) (lane : Fin 64) (bits : List Bool) (s : State) {t_ : State} (h : execBlockLockAcquired t lane bits s = .next t_) :
    t_.pending = s.pending ∧ t_.audio = s.audio ∧ t_.lbox = s.lbox ∧ t_.boot = s.boot ∧ t_.now = (s.advance t).now := by
  simp only [execBlockLockAcquired] at h
  repeat' split at h
  all_goals (cases h; simp)
theorem execBlockLockLost_frame (t : Tick) (lane : Fin 64) (bits : List Bool) (s : State) {t_ : State} (h : execBlockLockLost t lane bits s = .next t_) :
    t_.pending = s.pending ∧ t_.audio = s.audio ∧ t_.lbox = s.lbox ∧ t_.boot = s.boot ∧ t_.now = (s.advance t).now := by
  simp only [execBlockLockLost] at h
  repeat' split at h
  all_goals (cases h; simp)

end Sys2Proof.Machine
end

