-- ==== Sys2Proof/Laws/Fuses.lean ====
section
/-!
SUPPORT. The key fuses: with the frame lemmas, every operation outside the SECURITY.CTL writes leaves them alone.
-/
set_option Elab.async false
namespace Sys2Proof.Machine

@[simp] theorem foldl_fuses {α : Type} (f : State → α → State) (l : List α) (s : State) (h : ∀ s a, (f s a).boot.fuses = s.boot.fuses) :
    (l.foldl f s).boot.fuses = s.boot.fuses := by
  induction l generalizing s with
  | nil => rfl
  | cons a l ih => simp [ih, h]
@[simp] theorem porReset_fuses (s : State) :
    (porReset s).boot.fuses = s.boot.fuses := by
  simp [porReset]
@[simp] theorem sysReset_fuses (s : State) :
    (sysReset s).boot.fuses = s.boot.fuses := by
  generalize hr : sysReset s = r
  simp only [sysReset] at hr
  repeat' split at hr
  all_goals (subst hr; simp)
theorem execResetAssert_fuses (t : Tick) (pin : ResetPin) (s : State) {t_ : State} (h : execResetAssert t pin s = .next t_) :
    t_.boot.fuses = s.boot.fuses := by
  simp only [execResetAssert] at h
  repeat' split at h
  all_goals (cases h; simp)
theorem execPorstRelease_fuses (t : Tick) (mode : BitVec 2) (s : State) {t_ : State} (h : execPorstRelease t mode s = .next t_) :
    t_.boot.fuses = s.boot.fuses := by
  simp only [execPorstRelease, Host.Outcome.next.injEq] at h
  subst h
  simp
theorem execSysrstRelease_fuses (t : Tick) (mode : BitVec 2) (s : State) {t_ : State} (h : execSysrstRelease t mode s = .next t_) :
    t_.boot.fuses = s.boot.fuses := by
  simp only [execSysrstRelease] at h
  repeat' split at h
  all_goals (cases h; simp)
@[simp] theorem readFrom_fuses (x : BootSrc) (s : State) :
    (readFrom x s).boot.fuses = s.boot.fuses := by
  generalize hr : readFrom x s = r
  simp only [readFrom] at hr
  repeat' split at hr
  all_goals (subst hr; simp)
@[simp] theorem bootFail_fuses (s : State) :
    (bootFail s).boot.fuses = s.boot.fuses := by
  simp [bootFail]
theorem execBootSelfCheckDone_fuses (t : Tick) (s : State) {t_ : State} (h : execBootSelfCheckDone t s = .next t_) :
    t_.boot.fuses = s.boot.fuses := by
  simp only [execBootSelfCheckDone] at h
  repeat' split at h
  all_goals (cases h; simp)
@[simp] theorem writeHostBoot_fuses (v : Reg) (s : State) :
    (writeHostBoot v s).boot.fuses = s.boot.fuses := by
  generalize hr : writeHostBoot v s = r
  simp only [writeHostBoot] at hr
  repeat' split at hr
  all_goals (subst hr; simp)
@[simp] theorem nextSource_fuses (x : BootSrc) (err : ℕ) (s : State) :
    (nextSource x err s).boot.fuses = s.boot.fuses := by
  generalize hr : nextSource x err s = r
  simp only [nextSource] at hr
  repeat' split at hr
  all_goals (subst hr; simp)
@[simp] theorem acceptImage_fuses (x : BootSrc) (b : Bytes) (s : State) :
    (acceptImage x b s).boot.fuses = s.boot.fuses := by
  simp [acceptImage]
theorem execFirmwareImageRead_fuses (t : Tick) (image : ImageRead) (s : State) {t_ : State} (h : execFirmwareImageRead t image s = .next t_) :
    t_.boot.fuses = s.boot.fuses := by
  simp only [execFirmwareImageRead] at h
  repeat' split at h
  all_goals (cases h; simp)
theorem execFirmwareReady_fuses (t : Tick) (failed : List (Fin 256)) (s : State) {t_ : State} (h : execFirmwareReady t failed s = .next t_) :
    t_.boot.fuses = s.boot.fuses := by
  simp only [execFirmwareReady] at h
  repeat' split at h
  all_goals (cases h; simp)
@[simp] theorem accFlag_fuses (flags : BitVec 4) (s : State) :
    (accFlag flags s).boot.fuses = s.boot.fuses := by
  simp [accFlag]
@[simp] theorem latchHi_fuses (r : RegId) (s : State) :
    (latchHi r s).boot.fuses = s.boot.fuses := by
  generalize hr : latchHi r s = r
  simp only [latchHi] at hr
  repeat' split at hr
  all_goals (subst hr; simp)
@[simp] theorem regRead32_fuses (off : ℕ) (s : State) :
    (regRead32 off s).2.boot.fuses = s.boot.fuses := by
  generalize hr : regRead32 off s = r
  simp only [regRead32] at hr
  repeat' split at hr
  all_goals (subst hr; simp)
@[simp] theorem regRead_fuses (off : ℕ) (width : AccessWidth) (s : State) :
    (regRead off width s).2.boot.fuses = s.boot.fuses := by
  generalize hr : regRead off width s = r
  simp only [regRead] at hr
  repeat' split at hr
  all_goals (subst hr; simp)

end Sys2Proof.Machine
end

