-- ==== Sys2Proof/Laws/Tab.lean ====
section
/-!
SUPPORT. The basic laws of the sparse tables, the fixed vectors and the byte strings: a read after a write gives the value written, and
a write leaves every other key alone.
-/
namespace Sys2Proof.Machine

/-! ## Sparse tables -/

@[simp] theorem Tab.get_put_same {α : Type} (l : Tab α) (k : Nat) (a : α) : Tab.get (Tab.put l k a) k = some a := by
  induction l with
  | nil => simp [Tab.put, Tab.get]
  | cons x l ih =>
    obtain ⟨j, b⟩ := x
    simp only [Tab.put]
    split
    · simp [Tab.get]
    · split
      · simp [Tab.get]
      · rename_i h
        simp [Tab.get, Ne.symm h, ih]

theorem Tab.get_put_ne {α : Type} (l : Tab α) (k m : Nat) (a : α) (h : m ≠ k) : Tab.get (Tab.put l k a) m = Tab.get l m := by
  induction l with
  | nil => simp [Tab.put, Tab.get, Ne.symm h]
  | cons x l ih =>
    obtain ⟨j, b⟩ := x
    simp only [Tab.put]
    split
    · simp [Tab.get, Ne.symm h]
    · split
      · rename_i hk
        subst hk
        simp [Tab.get, Ne.symm h]
      · simp [Tab.get, ih]

theorem Tab.get_del_same {α : Type} (l : Tab α) (k : Nat) : Tab.get (Tab.del l k) k = none := by
  induction l with
  | nil => rfl
  | cons x l ih =>
    obtain ⟨j, b⟩ := x
    simp only [Tab.del, List.filter_cons] at *
    split
    · rename_i h
      simp only [ne_eq, decide_not, Bool.not_eq_eq_eq_not, Bool.not_true, decide_eq_false_iff_not] at h
      simp only [Tab.get, if_neg h, ih]
    · exact ih

theorem Tab.get_del_ne {α : Type} (l : Tab α) (k m : Nat) (h : m ≠ k) : Tab.get (Tab.del l k) m = Tab.get l m := by
  induction l with
  | nil => rfl
  | cons x l ih =>
    obtain ⟨j, b⟩ := x
    simp only [Tab.del, List.filter_cons] at *
    split
    · simp only [Tab.get, ih]
    · rename_i hk
      simp only [ne_eq, decide_not, Bool.not_eq_eq_eq_not, Bool.not_true, decide_eq_false_iff_not, not_not] at hk
      subst hk
      simp only [Tab.get, if_neg (Ne.symm h), ih]

theorem Tab.getD_put_same {α : Type} (l : Tab α) (k : Nat) (a d : α) : Tab.getD (Tab.put l k a) k d = a := by
  simp [Tab.getD]

theorem Tab.getD_put_ne {α : Type} (l : Tab α) (k m : Nat) (a d : α) (h : m ≠ k) :
    Tab.getD (Tab.put l k a) m d = Tab.getD l m d := by
  simp [Tab.getD, Tab.get_put_ne _ _ _ _ h]

/-! ## Fixed vectors -/

@[simp] theorem vget_vset_same {α : Type} {n : Nat} (v : Vector α n) (i : Nat) (a d : α) (h : i < n) : vget (vset v i a) i d = a := by
  simp [vget, vset, h]

theorem vget_vset_ne {α : Type} {n : Nat} (v : Vector α n) (i j : Nat) (a d : α) (h : j ≠ i) : vget (vset v i a) j d = vget v j d := by
  by_cases hi : i < n
  · by_cases hj : j < n
    · simp [vget, vset, hi, hj, Vector.getElem_set_ne _ _ (Ne.symm h)]
    · simp [vget, hj]
  · simp [vset, hi]

/-! ## Byte strings -/

@[simp] theorem le_length (n v : Nat) : (le n v).length = n := by
  induction n generalizing v with
  | zero => rfl
  | succ n ih => simp [le, ih]

@[simp] theorem zeros_length (n : Nat) : (zeros n).length = n := by simp [zeros]

theorem ofLe_le (n v : Nat) : ofLe (le n v) = v % 256 ^ n := by
  induction n generalizing v with
  | zero => simp [le, ofLe, Nat.mod_one]
  | succ n ih =>
    simp only [le, ofLe, ih, BitVec.toNat_ofNat]
    rw [show v % 2 ^ 8 = v % 256 from rfl, pow_succ', Nat.mod_mul]

@[simp] theorem slice_length (b : Bytes) (off n : Nat) : (slice b off n).length = n := by
  simp only [slice, List.length_append, List.length_take, List.length_drop, List.length_replicate]
  omega

end Sys2Proof.Machine
end

