-- ==== Sys2Proof/Laws/State.lean ====
section
/-!
SUPPORT. The state's updates, field by field: for each setter the field it writes, and one lemma for each other field of the same block.
What a setter leaves alone in the other blocks stands in Frame.lean.
-/
set_option Elab.async false
namespace Sys2Proof.Machine

/-! ## The passing of time -/

theorem advance_now (t : Tick) (s : State) : (s.advance t).now = max s.now t := rfl

theorem now_le_advance (t : Tick) (s : State) : s.now ≤ (s.advance t).now := by
  rw [advance_now]
  exact Nat.le_max_left _ _

theorem walkTicks_zero (s : State) : walkTicks s 0 = 0 := by simp [walkTicks]

theorem walkedO_zero (s : State) : walkedO s 0 = s.tb.oNano := by
  simp only [walkedO, Nat.zero_mul, Nat.le_zero_eq, Int.natAbs_eq_zero]
  split
  · split
    · omega
    · split <;> simp
  · rfl

theorem dpllRun_zero (f g : Int) (r : Nat) : dpllRun f g r 0 = (f, 0) := by simp [dpllRun]

/-- The DPLL stands still where no tick passes. -/
theorem dpllNext_zero (s : State) : dpllNext s 0 = (s.tb.freq, 0) := by simp [dpllNext, walkTicks_zero, dpllRun_zero]

/-- At an instant that has come already nothing moves but a PPSOUT pulse that is due to fall, and the start of a lock that the frequency
error puts off. -/
theorem advance_past (t : Tick) (s : State) (h : t ≤ s.now) (hp : s.tb.ppsRise = none) (hl : lockSince s 0 = s.tb.lockFrom)
    (h0 : 0 ≤ s.tb.phase) (h1 : s.tb.phase < 2 * dpllUnit) : s.advance t = s := by
  have hn : max s.now t = s.now := Nat.max_eq_left h
  have hd : s.tb.phase.fdiv (2 * dpllUnit) = 0 := by
    rw [Int.fdiv_eq_ediv_of_nonneg _ (by decide)]; exact Int.ediv_eq_zero_of_lt h0 h1
  have hm : s.tb.phase.fmod (2 * dpllUnit) = s.tb.phase := by
    rw [Int.fmod_eq_emod_of_nonneg _ (by decide)]; exact Int.emod_eq_of_lt h0 h1
  simp only [State.advance, hn, Nat.sub_self, dpllNext_zero, walkedO_zero, hl, hp, Int.add_zero, hd, hm]
  rw [← hp]

@[simp] theorem advance_tb_ctl (t : Tick) (s : State) : (s.advance t).tb.ctl = s.tb.ctl := rfl
@[simp] theorem advance_tb_slew (t : Tick) (s : State) : (s.advance t).tb.slew = s.tb.slew := rfl
@[simp] theorem advance_tb_tsetLo (t : Tick) (s : State) : (s.advance t).tb.tsetLo = s.tb.tsetLo := rfl
@[simp] theorem advance_tb_tsetHi (t : Tick) (s : State) : (s.advance t).tb.tsetHi = s.tb.tsetHi := rfl
@[simp] theorem advance_tb_armed (t : Tick) (s : State) : (s.advance t).tb.armed = s.tb.armed := rfl
@[simp] theorem advance_tb_armedAt (t : Tick) (s : State) : (s.advance t).tb.armedAt = s.tb.armedAt := rfl
@[simp] theorem advance_tb_refCfg (t : Tick) (s : State) : (s.advance t).tb.refCfg = s.tb.refCfg := rfl
@[simp] theorem advance_tb_sclkCfg (t : Tick) (s : State) : (s.advance t).tb.sclkCfg = s.tb.sclkCfg := rfl
@[simp] theorem advance_tb_tsetErr (t : Tick) (s : State) : (s.advance t).tb.tsetErr = s.tb.tsetErr := rfl
@[simp] theorem advance_tb_sclkErr (t : Tick) (s : State) : (s.advance t).tb.sclkErr = s.tb.sclkErr := rfl
@[simp] theorem advance_tb_offHiLatch (t : Tick) (s : State) : (s.advance t).tb.offHiLatch = s.tb.offHiLatch := rfl
@[simp] theorem advance_tb_st (t : Tick) (s : State) : (s.advance t).tb.st = s.tb.st := rfl
@[simp] theorem advance_tb_sel (t : Tick) (s : State) : (s.advance t).tb.sel = s.tb.sel := rfl
@[simp] theorem advance_tb_walking (t : Tick) (s : State) : (s.advance t).tb.walking = s.tb.walking := rfl
@[simp] theorem advance_tb_refs (t : Tick) (s : State) : (s.advance t).tb.refs = s.tb.refs := rfl
@[simp] theorem advance_tb_hist (t : Tick) (s : State) : (s.advance t).tb.hist = s.tb.hist := rfl
@[simp] theorem advance_tb_holdVal (t : Tick) (s : State) : (s.advance t).tb.holdVal = s.tb.holdVal := rfl
@[simp] theorem advance_tb_holdAt (t : Tick) (s : State) : (s.advance t).tb.holdAt = s.tb.holdAt := rfl
@[simp] theorem advance_tb_trigger (t : Tick) (s : State) : (s.advance t).tb.trigger = s.tb.trigger := rfl
@[simp] theorem advance_tb_phaseErr (t : Tick) (s : State) : (s.advance t).tb.phaseErr = s.tb.phaseErr := rfl
@[simp] theorem advance_tb_histFrom (t : Tick) (s : State) : (s.advance t).tb.histFrom = s.tb.histFrom := rfl
@[simp] theorem advance_tb_gates (t : Tick) (s : State) : (s.advance t).tb.gates = s.tb.gates := rfl
@[simp] theorem advance_tb_switches (t : Tick) (s : State) : (s.advance t).tb.switches = s.tb.switches := rfl
@[simp] theorem advance_tb_sets (t : Tick) (s : State) : (s.advance t).tb.sets = s.tb.sets := rfl

/-! ## Free values -/

theorem drawFree_fst (bits : Nat) (s : State) : (s.drawFree bits).1 = Config.free s.free % 2 ^ bits := rfl
@[simp] theorem drawFree_count (bits : Nat) (s : State) : (s.drawFree bits).2.free = s.free + 1 := rfl

/-! ## Setters -/

@[simp] theorem setPchan_owned (plan j : Nat) (x : PChanState) (s : State) : (setPchan plan j x s).chan.owned = Tab.put s.chan.owned (pchanKey plan j) x := rfl
@[simp] theorem setPchan_protos (plan j : Nat) (x : PChanState) (s : State) : (setPchan plan j x s).chan.protos = s.chan.protos := rfl
@[simp] theorem setPchan_gains (plan j : Nat) (x : PChanState) (s : State) : (setPchan plan j x s).chan.gains = s.chan.gains := rfl
@[simp] theorem setPchan_plans (plan j : Nat) (x : PChanState) (s : State) : (setPchan plan j x s).chan.plans = s.chan.plans := rfl
@[simp] theorem setPchan_chanSat (plan j : Nat) (x : PChanState) (s : State) : (setPchan plan j x s).chan.chanSat = s.chan.chanSat := rfl
@[simp] theorem setPchan_send (plan j : Nat) (x : PChanState) (s : State) : (setPchan plan j x s).chan.send = s.chan.send := rfl
@[simp] theorem setPchan_loss (plan j : Nat) (x : PChanState) (s : State) : (setPchan plan j x s).chan.loss = s.chan.loss := rfl
@[simp] theorem setPchan_digestSent (plan j : Nat) (x : PChanState) (s : State) : (setPchan plan j x s).chan.digestSent = s.chan.digestSent := rfl
@[simp] theorem setPchan_mismatch (plan j : Nat) (x : PChanState) (s : State) : (setPchan plan j x s).chan.mismatch = s.chan.mismatch := rfl
@[simp] theorem setPchan_cnt (plan j : Nat) (x : PChanState) (s : State) : (setPchan plan j x s).chan.cnt = s.chan.cnt := rfl
@[simp] theorem setPchan_stamps (plan j : Nat) (x : PChanState) (s : State) : (setPchan plan j x s).chan.stamps = s.chan.stamps := rfl
@[simp] theorem setPchan_eras (plan j : Nat) (x : PChanState) (s : State) : (setPchan plan j x s).chan.eras = s.chan.eras := rfl

@[simp] theorem setRun_run (e : Nat) (x : ElemRun) (s : State) : (setRun e x s).cond.run = Tab.put s.cond.run e x := rfl
@[simp] theorem setRun_elems (e : Nat) (x : ElemRun) (s : State) : (setRun e x s).cond.elems = s.cond.elems := rfl
@[simp] theorem setRun_groups (e : Nat) (x : ElemRun) (s : State) : (setRun e x s).cond.groups = s.cond.groups := rfl
@[simp] theorem setRun_pending (e : Nat) (x : ElemRun) (s : State) : (setRun e x s).cond.pending = s.cond.pending := rfl
@[simp] theorem setRun_started (e : Nat) (x : ElemRun) (s : State) : (setRun e x s).cond.started = s.cond.started := rfl
@[simp] theorem setRun_cnt (e : Nat) (x : ElemRun) (s : State) : (setRun e x s).cond.cnt = s.cond.cnt := rfl
@[simp] theorem setRun_after (e : Nat) (x : ElemRun) (s : State) : (setRun e x s).cond.after = s.cond.after := rfl
@[simp] theorem setRun_gapIndex (e : Nat) (x : ElemRun) (s : State) : (setRun e x s).cond.gapIndex = s.cond.gapIndex := rfl
@[simp] theorem setRun_gapLost (e : Nat) (x : ElemRun) (s : State) : (setRun e x s).cond.gapLost = s.cond.gapLost := rfl
@[simp] theorem setRun_afterRates (e : Nat) (x : ElemRun) (s : State) : (setRun e x s).cond.afterRates = s.cond.afterRates := rfl
@[simp] theorem setRun_log (e : Nat) (x : ElemRun) (s : State) : (setRun e x s).cond.log = s.cond.log := rfl
@[simp] theorem setRun_lostMark (e : Nat) (x : ElemRun) (s : State) : (setRun e x s).cond.lostMark = s.cond.lostMark := rfl
@[simp] theorem setRun_onQuad (e : Nat) (x : ElemRun) (s : State) : (setRun e x s).cond.onQuad = s.cond.onQuad := rfl
@[simp] theorem setRun_gapGone (e : Nat) (x : ElemRun) (s : State) : (setRun e x s).cond.gapGone = s.cond.gapGone := rfl
@[simp] theorem setRun_afterWait (e : Nat) (x : ElemRun) (s : State) : (setRun e x s).cond.afterWait = s.cond.afterWait := rfl
@[simp] theorem setRun_afterFrom (e : Nat) (x : ElemRun) (s : State) : (setRun e x s).cond.afterFrom = s.cond.afterFrom := rfl

@[simp] theorem modCnt_cnt (e : Nat) (f : ElemCnt → ElemCnt) (s : State) : (modCnt e f s).cond.cnt = Tab.put s.cond.cnt e (f (cntOf s e)) := rfl
@[simp] theorem modCnt_elems (e : Nat) (f : ElemCnt → ElemCnt) (s : State) : (modCnt e f s).cond.elems = s.cond.elems := rfl
@[simp] theorem modCnt_groups (e : Nat) (f : ElemCnt → ElemCnt) (s : State) : (modCnt e f s).cond.groups = s.cond.groups := rfl
@[simp] theorem modCnt_pending (e : Nat) (f : ElemCnt → ElemCnt) (s : State) : (modCnt e f s).cond.pending = s.cond.pending := rfl
@[simp] theorem modCnt_started (e : Nat) (f : ElemCnt → ElemCnt) (s : State) : (modCnt e f s).cond.started = s.cond.started := rfl
@[simp] theorem modCnt_run (e : Nat) (f : ElemCnt → ElemCnt) (s : State) : (modCnt e f s).cond.run = s.cond.run := rfl
@[simp] theorem modCnt_after (e : Nat) (f : ElemCnt → ElemCnt) (s : State) : (modCnt e f s).cond.after = s.cond.after := rfl
@[simp] theorem modCnt_gapIndex (e : Nat) (f : ElemCnt → ElemCnt) (s : State) : (modCnt e f s).cond.gapIndex = s.cond.gapIndex := rfl
@[simp] theorem modCnt_gapLost (e : Nat) (f : ElemCnt → ElemCnt) (s : State) : (modCnt e f s).cond.gapLost = s.cond.gapLost := rfl
@[simp] theorem modCnt_afterRates (e : Nat) (f : ElemCnt → ElemCnt) (s : State) : (modCnt e f s).cond.afterRates = s.cond.afterRates := rfl
@[simp] theorem modCnt_log (e : Nat) (f : ElemCnt → ElemCnt) (s : State) : (modCnt e f s).cond.log = s.cond.log := rfl
@[simp] theorem modCnt_lostMark (e : Nat) (f : ElemCnt → ElemCnt) (s : State) : (modCnt e f s).cond.lostMark = s.cond.lostMark := rfl
@[simp] theorem modCnt_onQuad (e : Nat) (f : ElemCnt → ElemCnt) (s : State) : (modCnt e f s).cond.onQuad = s.cond.onQuad := rfl
@[simp] theorem modCnt_gapGone (e : Nat) (f : ElemCnt → ElemCnt) (s : State) : (modCnt e f s).cond.gapGone = s.cond.gapGone := rfl
@[simp] theorem modCnt_afterWait (e : Nat) (f : ElemCnt → ElemCnt) (s : State) : (modCnt e f s).cond.afterWait = s.cond.afterWait := rfl
@[simp] theorem modCnt_afterFrom (e : Nat) (f : ElemCnt → ElemCnt) (s : State) : (modCnt e f s).cond.afterFrom = s.cond.afterFrom := rfl

@[simp] theorem setDrive_elems (e : Nat) (x : DriveRun) (s : State) : (setDrive e x s).tx.elems = Tab.put s.tx.elems e x := rfl
@[simp] theorem setDrive_map (e : Nat) (x : DriveRun) (s : State) : (setDrive e x s).tx.map = s.tx.map := rfl
@[simp] theorem setDrive_groups (e : Nat) (x : DriveRun) (s : State) : (setDrive e x s).tx.groups = s.tx.groups := rfl
@[simp] theorem setDrive_waves (e : Nat) (x : DriveRun) (s : State) : (setDrive e x s).tx.waves = s.tx.waves := rfl
@[simp] theorem setDrive_progs (e : Nat) (x : DriveRun) (s : State) : (setDrive e x s).tx.progs = s.tx.progs := rfl
@[simp] theorem setDrive_starts (e : Nat) (x : DriveRun) (s : State) : (setDrive e x s).tx.starts = s.tx.starts := rfl
@[simp] theorem setDrive_nextStart (e : Nat) (x : DriveRun) (s : State) : (setDrive e x s).tx.nextStart = s.tx.nextStart := rfl
@[simp] theorem setDrive_beams (e : Nat) (x : DriveRun) (s : State) : (setDrive e x s).tx.beams = s.tx.beams := rfl
@[simp] theorem setDrive_newGroups (e : Nat) (x : DriveRun) (s : State) : (setDrive e x s).tx.newGroups = s.tx.newGroups := rfl
@[simp] theorem setDrive_gap (e : Nat) (x : DriveRun) (s : State) : (setDrive e x s).tx.gap = s.tx.gap := rfl
@[simp] theorem setDrive_last (e : Nat) (x : DriveRun) (s : State) : (setDrive e x s).tx.last = s.tx.last := rfl
@[simp] theorem setDrive_refused (e : Nat) (x : DriveRun) (s : State) : (setDrive e x s).tx.refused = s.tx.refused := rfl
@[simp] theorem setDrive_echo (e : Nat) (x : DriveRun) (s : State) : (setDrive e x s).tx.echo = s.tx.echo := rfl

@[simp] theorem setDet_dets (d : Nat) (x : Detector) (s : State) : (setDet d x s).glint.dets = vset s.glint.dets d x := rfl
@[simp] theorem setDet_cfg (d : Nat) (x : Detector) (s : State) : (setDet d x s).glint.cfg = s.glint.cfg := rfl
@[simp] theorem setDet_hist (d : Nat) (x : Detector) (s : State) : (setDet d x s).glint.hist = s.glint.hist := rfl
@[simp] theorem setDet_sets (d : Nat) (x : Detector) (s : State) : (setDet d x s).glint.sets = s.glint.sets := rfl
@[simp] theorem setDet_set_ (d : Nat) (x : Detector) (s : State) : (setDet d x s).glint.set_ = s.glint.set_ := rfl
@[simp] theorem setDet_switch (d : Nat) (x : Detector) (s : State) : (setDet d x s).glint.switch = s.glint.switch := rfl
@[simp] theorem setDet_m (d : Nat) (x : Detector) (s : State) : (setDet d x s).glint.m = s.glint.m := rfl
@[simp] theorem setDet_beams (d : Nat) (x : Detector) (s : State) : (setDet d x s).glint.beams = s.glint.beams := rfl
@[simp] theorem setDet_resp (d : Nat) (x : Detector) (s : State) : (setDet d x s).glint.resp = s.glint.resp := rfl
@[simp] theorem setDet_latch (d : Nat) (x : Detector) (s : State) : (setDet d x s).glint.latch = s.glint.latch := rfl
@[simp] theorem setDet_blanks (d : Nat) (x : Detector) (s : State) : (setDet d x s).glint.blanks = s.glint.blanks := rfl
@[simp] theorem setDet_pins (d : Nat) (x : Detector) (s : State) : (setDet d x s).glint.pins = s.glint.pins := rfl
@[simp] theorem setDet_refused (d : Nat) (x : Detector) (s : State) : (setDet d x s).glint.refused = s.glint.refused := rfl
@[simp] theorem setDet_nextPin (d : Nat) (x : Detector) (s : State) : (setDet d x s).glint.nextPin = s.glint.nextPin := rfl
@[simp] theorem setDet_delays (d : Nat) (x : Detector) (s : State) : (setDet d x s).glint.delays = s.glint.delays := rfl
@[simp] theorem setDet_gapPubs (d : Nat) (x : Detector) (s : State) : (setDet d x s).glint.gapPubs = s.glint.gapPubs := rfl
@[simp] theorem setDet_recent (d : Nat) (x : Detector) (s : State) : (setDet d x s).glint.recent = s.glint.recent := rfl
@[simp] theorem setDet_org (d : Nat) (x : Detector) (s : State) : (setDet d x s).glint.org = s.glint.org := rfl

@[simp] theorem setBeam_beams (b : Nat) (x : BeamRun) (s : State) : (setBeam b x s).glint.beams = vset s.glint.beams b x := rfl
@[simp] theorem setBeam_cfg (b : Nat) (x : BeamRun) (s : State) : (setBeam b x s).glint.cfg = s.glint.cfg := rfl
@[simp] theorem setBeam_hist (b : Nat) (x : BeamRun) (s : State) : (setBeam b x s).glint.hist = s.glint.hist := rfl
@[simp] theorem setBeam_sets (b : Nat) (x : BeamRun) (s : State) : (setBeam b x s).glint.sets = s.glint.sets := rfl
@[simp] theorem setBeam_set_ (b : Nat) (x : BeamRun) (s : State) : (setBeam b x s).glint.set_ = s.glint.set_ := rfl
@[simp] theorem setBeam_switch (b : Nat) (x : BeamRun) (s : State) : (setBeam b x s).glint.switch = s.glint.switch := rfl
@[simp] theorem setBeam_m (b : Nat) (x : BeamRun) (s : State) : (setBeam b x s).glint.m = s.glint.m := rfl
@[simp] theorem setBeam_dets (b : Nat) (x : BeamRun) (s : State) : (setBeam b x s).glint.dets = s.glint.dets := rfl
@[simp] theorem setBeam_resp (b : Nat) (x : BeamRun) (s : State) : (setBeam b x s).glint.resp = s.glint.resp := rfl
@[simp] theorem setBeam_latch (b : Nat) (x : BeamRun) (s : State) : (setBeam b x s).glint.latch = s.glint.latch := rfl
@[simp] theorem setBeam_blanks (b : Nat) (x : BeamRun) (s : State) : (setBeam b x s).glint.blanks = s.glint.blanks := rfl
@[simp] theorem setBeam_pins (b : Nat) (x : BeamRun) (s : State) : (setBeam b x s).glint.pins = s.glint.pins := rfl
@[simp] theorem setBeam_refused (b : Nat) (x : BeamRun) (s : State) : (setBeam b x s).glint.refused = s.glint.refused := rfl
@[simp] theorem setBeam_nextPin (b : Nat) (x : BeamRun) (s : State) : (setBeam b x s).glint.nextPin = s.glint.nextPin := rfl
@[simp] theorem setBeam_delays (b : Nat) (x : BeamRun) (s : State) : (setBeam b x s).glint.delays = s.glint.delays := rfl
@[simp] theorem setBeam_gapPubs (b : Nat) (x : BeamRun) (s : State) : (setBeam b x s).glint.gapPubs = s.glint.gapPubs := rfl
@[simp] theorem setBeam_recent (b : Nat) (x : BeamRun) (s : State) : (setBeam b x s).glint.recent = s.glint.recent := rfl
@[simp] theorem setBeam_org (b : Nat) (x : BeamRun) (s : State) : (setBeam b x s).glint.org = s.glint.org := rfl

@[simp] theorem cfgPut_cfgCrc (kind id : Nat) (b : Bytes) (s : State) : (cfgPut kind id b s).twin.cfgCrc = Tab.put s.twin.cfgCrc (kind * 2 ^ 20 + id) (crc32c b).toNat := rfl
@[simp] theorem cfgPut_ctl (kind id : Nat) (b : Bytes) (s : State) : (cfgPut kind id b s).twin.ctl = s.twin.ctl := rfl
@[simp] theorem cfgPut_cfgErr (kind id : Nat) (b : Bytes) (s : State) : (cfgPut kind id b s).twin.cfgErr = s.twin.cfgErr := rfl
@[simp] theorem cfgPut_role (kind id : Nat) (b : Bytes) (s : State) : (cfgPut kind id b s).twin.role = s.twin.role := rfl
@[simp] theorem cfgPut_faulty (kind id : Nat) (b : Bytes) (s : State) : (cfgPut kind id b s).twin.faulty = s.twin.faulty := rfl
@[simp] theorem cfgPut_pinOut (kind id : Nat) (b : Bytes) (s : State) : (cfgPut kind id b s).twin.pinOut = s.twin.pinOut := rfl
@[simp] theorem cfgPut_pinIn (kind id : Nat) (b : Bytes) (s : State) : (cfgPut kind id b s).twin.pinIn = s.twin.pinIn := rfl
@[simp] theorem cfgPut_pinLowAt (kind id : Nat) (b : Bytes) (s : State) : (cfgPut kind id b s).twin.pinLowAt = s.twin.pinLowAt := rfl
@[simp] theorem cfgPut_gate (kind id : Nat) (b : Bytes) (s : State) : (cfgPut kind id b s).twin.gate = s.twin.gate := rfl
@[simp] theorem cfgPut_gapAt (kind id : Nat) (b : Bytes) (s : State) : (cfgPut kind id b s).twin.gapAt = s.twin.gapAt := rfl
@[simp] theorem cfgPut_enAt (kind id : Nat) (b : Bytes) (s : State) : (cfgPut kind id b s).twin.enAt = s.twin.enAt := rfl
@[simp] theorem cfgPut_partner (kind id : Nat) (b : Bytes) (s : State) : (cfgPut kind id b s).twin.partner = s.twin.partner := rfl
@[simp] theorem cfgPut_present (kind id : Nat) (b : Bytes) (s : State) : (cfgPut kind id b s).twin.present = s.twin.present := rfl
@[simp] theorem cfgPut_step (kind id : Nat) (b : Bytes) (s : State) : (cfgPut kind id b s).twin.step = s.twin.step := rfl
@[simp] theorem cfgPut_stepAt (kind id : Nat) (b : Bytes) (s : State) : (cfgPut kind id b s).twin.stepAt = s.twin.stepAt := rfl
@[simp] theorem cfgPut_gstep (kind id : Nat) (b : Bytes) (s : State) : (cfgPut kind id b s).twin.gstep = s.twin.gstep := rfl
@[simp] theorem cfgPut_gcount (kind id : Nat) (b : Bytes) (s : State) : (cfgPut kind id b s).twin.gcount = s.twin.gcount := rfl
@[simp] theorem cfgPut_equalAt (kind id : Nat) (b : Bytes) (s : State) : (cfgPut kind id b s).twin.equalAt = s.twin.equalAt := rfl
@[simp] theorem cfgPut_pinErr (kind id : Nat) (b : Bytes) (s : State) : (cfgPut kind id b s).twin.pinErr = s.twin.pinErr := rfl
@[simp] theorem cfgPut_mismatchAt (kind id : Nat) (b : Bytes) (s : State) : (cfgPut kind id b s).twin.mismatchAt = s.twin.mismatchAt := rfl
@[simp] theorem cfgPut_skew (kind id : Nat) (b : Bytes) (s : State) : (cfgPut kind id b s).twin.skew = s.twin.skew := rfl
@[simp] theorem cfgPut_skewBadAt (kind id : Nat) (b : Bytes) (s : State) : (cfgPut kind id b s).twin.skewBadAt = s.twin.skewBadAt := rfl
@[simp] theorem cfgPut_skewGoodAt (kind id : Nat) (b : Bytes) (s : State) : (cfgPut kind id b s).twin.skewGoodAt = s.twin.skewGoodAt := rfl
@[simp] theorem cfgPut_skewOut (kind id : Nat) (b : Bytes) (s : State) : (cfgPut kind id b s).twin.skewOut = s.twin.skewOut := rfl
@[simp] theorem cfgPut_handover (kind id : Nat) (b : Bytes) (s : State) : (cfgPut kind id b s).twin.handover = s.twin.handover := rfl
@[simp] theorem cfgPut_sendHandover (kind id : Nat) (b : Bytes) (s : State) : (cfgPut kind id b s).twin.sendHandover = s.twin.sendHandover := rfl
@[simp] theorem cfgPut_mismatch (kind id : Nat) (b : Bytes) (s : State) : (cfgPut kind id b s).twin.mismatch = s.twin.mismatch := rfl
@[simp] theorem cfgPut_arbs (kind id : Nat) (b : Bytes) (s : State) : (cfgPut kind id b s).twin.arbs = s.twin.arbs := rfl
@[simp] theorem cfgPut_switches (kind id : Nat) (b : Bytes) (s : State) : (cfgPut kind id b s).twin.switches = s.twin.switches := rfl
@[simp] theorem cfgPut_late (kind id : Nat) (b : Bytes) (s : State) : (cfgPut kind id b s).twin.late = s.twin.late := rfl
@[simp] theorem cfgPut_map (kind id : Nat) (b : Bytes) (s : State) : (cfgPut kind id b s).twin.map = s.twin.map := rfl
@[simp] theorem cfgPut_timed (kind id : Nat) (b : Bytes) (s : State) : (cfgPut kind id b s).twin.timed = s.twin.timed := rfl
@[simp] theorem cfgPut_own (kind id : Nat) (b : Bytes) (s : State) : (cfgPut kind id b s).twin.own = s.twin.own := rfl
@[simp] theorem cfgPut_theirs (kind id : Nat) (b : Bytes) (s : State) : (cfgPut kind id b s).twin.theirs = s.twin.theirs := rfl
@[simp] theorem cfgPut_unsent (kind id : Nat) (b : Bytes) (s : State) : (cfgPut kind id b s).twin.unsent = s.twin.unsent := rfl
@[simp] theorem cfgPut_batches (kind id : Nat) (b : Bytes) (s : State) : (cfgPut kind id b s).twin.batches = s.twin.batches := rfl
@[simp] theorem cfgPut_hands (kind id : Nat) (b : Bytes) (s : State) : (cfgPut kind id b s).twin.hands = s.twin.hands := rfl
@[simp] theorem cfgPut_effects (kind id : Nat) (b : Bytes) (s : State) : (cfgPut kind id b s).twin.effects = s.twin.effects := rfl
@[simp] theorem cfgPut_everLit (kind id : Nat) (b : Bytes) (s : State) : (cfgPut kind id b s).twin.everLit = s.twin.everLit := rfl
@[simp] theorem cfgPut_awaitPub (kind id : Nat) (b : Bytes) (s : State) : (cfgPut kind id b s).twin.awaitPub = s.twin.awaitPub := rfl
@[simp] theorem cfgPut_arb (kind id : Nat) (b : Bytes) (s : State) : (cfgPut kind id b s).twin.arb = s.twin.arb := rfl
@[simp] theorem cfgPut_arbQ (kind id : Nat) (b : Bytes) (s : State) : (cfgPut kind id b s).twin.arbQ = s.twin.arbQ := rfl
@[simp] theorem cfgPut_verdicts (kind id : Nat) (b : Bytes) (s : State) : (cfgPut kind id b s).twin.verdicts = s.twin.verdicts := rfl
@[simp] theorem cfgPut_windows (kind id : Nat) (b : Bytes) (s : State) : (cfgPut kind id b s).twin.windows = s.twin.windows := rfl
@[simp] theorem cfgPut_discarded (kind id : Nat) (b : Bytes) (s : State) : (cfgPut kind id b s).twin.discarded = s.twin.discarded := rfl
@[simp] theorem cfgPut_recov (kind id : Nat) (b : Bytes) (s : State) : (cfgPut kind id b s).twin.recov = s.twin.recov := rfl
@[simp] theorem cfgPut_partnerStepAt (kind id : Nat) (b : Bytes) (s : State) : (cfgPut kind id b s).twin.partnerStepAt = s.twin.partnerStepAt := rfl
@[simp] theorem cfgPut_lost (kind id : Nat) (b : Bytes) (s : State) : (cfgPut kind id b s).twin.lost = s.twin.lost := rfl
@[simp] theorem cfgPut_skewTold (kind id : Nat) (b : Bytes) (s : State) : (cfgPut kind id b s).twin.skewTold = s.twin.skewTold := rfl
@[simp] theorem cfgPut_acts (kind id : Nat) (b : Bytes) (s : State) : (cfgPut kind id b s).twin.acts = forgetCfg false (cfgKey kind id) s := rfl

@[simp] theorem cfgDel_cfgCrc (kind id : Nat) (s : State) : (cfgDel kind id s).twin.cfgCrc = Tab.del s.twin.cfgCrc (kind * 2 ^ 20 + id) := rfl
@[simp] theorem cfgDel_ctl (kind id : Nat) (s : State) : (cfgDel kind id s).twin.ctl = s.twin.ctl := rfl
@[simp] theorem cfgDel_cfgErr (kind id : Nat) (s : State) : (cfgDel kind id s).twin.cfgErr = s.twin.cfgErr := rfl
@[simp] theorem cfgDel_role (kind id : Nat) (s : State) : (cfgDel kind id s).twin.role = s.twin.role := rfl
@[simp] theorem cfgDel_faulty (kind id : Nat) (s : State) : (cfgDel kind id s).twin.faulty = s.twin.faulty := rfl
@[simp] theorem cfgDel_pinOut (kind id : Nat) (s : State) : (cfgDel kind id s).twin.pinOut = s.twin.pinOut := rfl
@[simp] theorem cfgDel_pinIn (kind id : Nat) (s : State) : (cfgDel kind id s).twin.pinIn = s.twin.pinIn := rfl
@[simp] theorem cfgDel_pinLowAt (kind id : Nat) (s : State) : (cfgDel kind id s).twin.pinLowAt = s.twin.pinLowAt := rfl
@[simp] theorem cfgDel_gate (kind id : Nat) (s : State) : (cfgDel kind id s).twin.gate = s.twin.gate := rfl
@[simp] theorem cfgDel_gapAt (kind id : Nat) (s : State) : (cfgDel kind id s).twin.gapAt = s.twin.gapAt := rfl
@[simp] theorem cfgDel_enAt (kind id : Nat) (s : State) : (cfgDel kind id s).twin.enAt = s.twin.enAt := rfl
@[simp] theorem cfgDel_partner (kind id : Nat) (s : State) : (cfgDel kind id s).twin.partner = s.twin.partner := rfl
@[simp] theorem cfgDel_present (kind id : Nat) (s : State) : (cfgDel kind id s).twin.present = s.twin.present := rfl
@[simp] theorem cfgDel_step (kind id : Nat) (s : State) : (cfgDel kind id s).twin.step = s.twin.step := rfl
@[simp] theorem cfgDel_stepAt (kind id : Nat) (s : State) : (cfgDel kind id s).twin.stepAt = s.twin.stepAt := rfl
@[simp] theorem cfgDel_gstep (kind id : Nat) (s : State) : (cfgDel kind id s).twin.gstep = s.twin.gstep := rfl
@[simp] theorem cfgDel_gcount (kind id : Nat) (s : State) : (cfgDel kind id s).twin.gcount = s.twin.gcount := rfl
@[simp] theorem cfgDel_equalAt (kind id : Nat) (s : State) : (cfgDel kind id s).twin.equalAt = s.twin.equalAt := rfl
@[simp] theorem cfgDel_pinErr (kind id : Nat) (s : State) : (cfgDel kind id s).twin.pinErr = s.twin.pinErr := rfl
@[simp] theorem cfgDel_mismatchAt (kind id : Nat) (s : State) : (cfgDel kind id s).twin.mismatchAt = s.twin.mismatchAt := rfl
@[simp] theorem cfgDel_skew (kind id : Nat) (s : State) : (cfgDel kind id s).twin.skew = s.twin.skew := rfl
@[simp] theorem cfgDel_skewBadAt (kind id : Nat) (s : State) : (cfgDel kind id s).twin.skewBadAt = s.twin.skewBadAt := rfl
@[simp] theorem cfgDel_skewGoodAt (kind id : Nat) (s : State) : (cfgDel kind id s).twin.skewGoodAt = s.twin.skewGoodAt := rfl
@[simp] theorem cfgDel_skewOut (kind id : Nat) (s : State) : (cfgDel kind id s).twin.skewOut = s.twin.skewOut := rfl
@[simp] theorem cfgDel_handover (kind id : Nat) (s : State) : (cfgDel kind id s).twin.handover = s.twin.handover := rfl
@[simp] theorem cfgDel_sendHandover (kind id : Nat) (s : State) : (cfgDel kind id s).twin.sendHandover = s.twin.sendHandover := rfl
@[simp] theorem cfgDel_mismatch (kind id : Nat) (s : State) : (cfgDel kind id s).twin.mismatch = s.twin.mismatch := rfl
@[simp] theorem cfgDel_arbs (kind id : Nat) (s : State) : (cfgDel kind id s).twin.arbs = s.twin.arbs := rfl
@[simp] theorem cfgDel_switches (kind id : Nat) (s : State) : (cfgDel kind id s).twin.switches = s.twin.switches := rfl
@[simp] theorem cfgDel_late (kind id : Nat) (s : State) : (cfgDel kind id s).twin.late = s.twin.late := rfl
@[simp] theorem cfgDel_map (kind id : Nat) (s : State) : (cfgDel kind id s).twin.map = s.twin.map := rfl
@[simp] theorem cfgDel_timed (kind id : Nat) (s : State) : (cfgDel kind id s).twin.timed = s.twin.timed := rfl
@[simp] theorem cfgDel_own (kind id : Nat) (s : State) : (cfgDel kind id s).twin.own = s.twin.own := rfl
@[simp] theorem cfgDel_theirs (kind id : Nat) (s : State) : (cfgDel kind id s).twin.theirs = s.twin.theirs := rfl
@[simp] theorem cfgDel_unsent (kind id : Nat) (s : State) : (cfgDel kind id s).twin.unsent = s.twin.unsent := rfl
@[simp] theorem cfgDel_batches (kind id : Nat) (s : State) : (cfgDel kind id s).twin.batches = s.twin.batches := rfl
@[simp] theorem cfgDel_hands (kind id : Nat) (s : State) : (cfgDel kind id s).twin.hands = s.twin.hands := rfl
@[simp] theorem cfgDel_effects (kind id : Nat) (s : State) : (cfgDel kind id s).twin.effects = s.twin.effects := rfl
@[simp] theorem cfgDel_everLit (kind id : Nat) (s : State) : (cfgDel kind id s).twin.everLit = s.twin.everLit := rfl
@[simp] theorem cfgDel_awaitPub (kind id : Nat) (s : State) : (cfgDel kind id s).twin.awaitPub = s.twin.awaitPub := rfl
@[simp] theorem cfgDel_arb (kind id : Nat) (s : State) : (cfgDel kind id s).twin.arb = s.twin.arb := rfl
@[simp] theorem cfgDel_arbQ (kind id : Nat) (s : State) : (cfgDel kind id s).twin.arbQ = s.twin.arbQ := rfl
@[simp] theorem cfgDel_verdicts (kind id : Nat) (s : State) : (cfgDel kind id s).twin.verdicts = s.twin.verdicts := rfl
@[simp] theorem cfgDel_windows (kind id : Nat) (s : State) : (cfgDel kind id s).twin.windows = s.twin.windows := rfl
@[simp] theorem cfgDel_discarded (kind id : Nat) (s : State) : (cfgDel kind id s).twin.discarded = s.twin.discarded := rfl
@[simp] theorem cfgDel_recov (kind id : Nat) (s : State) : (cfgDel kind id s).twin.recov = s.twin.recov := rfl
@[simp] theorem cfgDel_partnerStepAt (kind id : Nat) (s : State) : (cfgDel kind id s).twin.partnerStepAt = s.twin.partnerStepAt := rfl
@[simp] theorem cfgDel_lost (kind id : Nat) (s : State) : (cfgDel kind id s).twin.lost = s.twin.lost := rfl
@[simp] theorem cfgDel_skewTold (kind id : Nat) (s : State) : (cfgDel kind id s).twin.skewTold = s.twin.skewTold := rfl
@[simp] theorem cfgDel_acts (kind id : Nat) (s : State) : (cfgDel kind id s).twin.acts = forgetCfg true (cfgKey kind id) s := rfl
@[simp] theorem enterAct_ctl (T : Nat) (cfg : Option (Nat × Option Nat)) (s : State) : (enterAct T cfg s).twin.ctl = s.twin.ctl := rfl
@[simp] theorem enterAct_cfgErr (T : Nat) (cfg : Option (Nat × Option Nat)) (s : State) : (enterAct T cfg s).twin.cfgErr = s.twin.cfgErr := rfl
@[simp] theorem enterAct_role (T : Nat) (cfg : Option (Nat × Option Nat)) (s : State) : (enterAct T cfg s).twin.role = s.twin.role := rfl
@[simp] theorem enterAct_faulty (T : Nat) (cfg : Option (Nat × Option Nat)) (s : State) : (enterAct T cfg s).twin.faulty = s.twin.faulty := rfl
@[simp] theorem enterAct_pinOut (T : Nat) (cfg : Option (Nat × Option Nat)) (s : State) : (enterAct T cfg s).twin.pinOut = s.twin.pinOut := rfl
@[simp] theorem enterAct_pinIn (T : Nat) (cfg : Option (Nat × Option Nat)) (s : State) : (enterAct T cfg s).twin.pinIn = s.twin.pinIn := rfl
@[simp] theorem enterAct_pinLowAt (T : Nat) (cfg : Option (Nat × Option Nat)) (s : State) : (enterAct T cfg s).twin.pinLowAt = s.twin.pinLowAt := rfl
@[simp] theorem enterAct_gate (T : Nat) (cfg : Option (Nat × Option Nat)) (s : State) : (enterAct T cfg s).twin.gate = s.twin.gate := rfl
@[simp] theorem enterAct_gapAt (T : Nat) (cfg : Option (Nat × Option Nat)) (s : State) : (enterAct T cfg s).twin.gapAt = s.twin.gapAt := rfl
@[simp] theorem enterAct_enAt (T : Nat) (cfg : Option (Nat × Option Nat)) (s : State) : (enterAct T cfg s).twin.enAt = s.twin.enAt := rfl
@[simp] theorem enterAct_lost (T : Nat) (cfg : Option (Nat × Option Nat)) (s : State) : (enterAct T cfg s).twin.lost = s.twin.lost := rfl
@[simp] theorem enterAct_partner (T : Nat) (cfg : Option (Nat × Option Nat)) (s : State) : (enterAct T cfg s).twin.partner = s.twin.partner := rfl
@[simp] theorem enterAct_present (T : Nat) (cfg : Option (Nat × Option Nat)) (s : State) : (enterAct T cfg s).twin.present = s.twin.present := rfl
@[simp] theorem enterAct_step (T : Nat) (cfg : Option (Nat × Option Nat)) (s : State) : (enterAct T cfg s).twin.step = s.twin.step := rfl
@[simp] theorem enterAct_stepAt (T : Nat) (cfg : Option (Nat × Option Nat)) (s : State) : (enterAct T cfg s).twin.stepAt = s.twin.stepAt := rfl
@[simp] theorem enterAct_gstep (T : Nat) (cfg : Option (Nat × Option Nat)) (s : State) : (enterAct T cfg s).twin.gstep = s.twin.gstep := rfl
@[simp] theorem enterAct_gcount (T : Nat) (cfg : Option (Nat × Option Nat)) (s : State) : (enterAct T cfg s).twin.gcount = s.twin.gcount := rfl
@[simp] theorem enterAct_equalAt (T : Nat) (cfg : Option (Nat × Option Nat)) (s : State) : (enterAct T cfg s).twin.equalAt = s.twin.equalAt := rfl
@[simp] theorem enterAct_pinErr (T : Nat) (cfg : Option (Nat × Option Nat)) (s : State) : (enterAct T cfg s).twin.pinErr = s.twin.pinErr := rfl
@[simp] theorem enterAct_mismatchAt (T : Nat) (cfg : Option (Nat × Option Nat)) (s : State) : (enterAct T cfg s).twin.mismatchAt = s.twin.mismatchAt := rfl
@[simp] theorem enterAct_skew (T : Nat) (cfg : Option (Nat × Option Nat)) (s : State) : (enterAct T cfg s).twin.skew = s.twin.skew := rfl
@[simp] theorem enterAct_skewBadAt (T : Nat) (cfg : Option (Nat × Option Nat)) (s : State) : (enterAct T cfg s).twin.skewBadAt = s.twin.skewBadAt := rfl
@[simp] theorem enterAct_skewTold (T : Nat) (cfg : Option (Nat × Option Nat)) (s : State) : (enterAct T cfg s).twin.skewTold = s.twin.skewTold := rfl
@[simp] theorem enterAct_skewGoodAt (T : Nat) (cfg : Option (Nat × Option Nat)) (s : State) : (enterAct T cfg s).twin.skewGoodAt = s.twin.skewGoodAt := rfl
@[simp] theorem enterAct_skewOut (T : Nat) (cfg : Option (Nat × Option Nat)) (s : State) : (enterAct T cfg s).twin.skewOut = s.twin.skewOut := rfl
@[simp] theorem enterAct_handover (T : Nat) (cfg : Option (Nat × Option Nat)) (s : State) : (enterAct T cfg s).twin.handover = s.twin.handover := rfl
@[simp] theorem enterAct_sendHandover (T : Nat) (cfg : Option (Nat × Option Nat)) (s : State) : (enterAct T cfg s).twin.sendHandover = s.twin.sendHandover := rfl
@[simp] theorem enterAct_mismatch (T : Nat) (cfg : Option (Nat × Option Nat)) (s : State) : (enterAct T cfg s).twin.mismatch = s.twin.mismatch := rfl
@[simp] theorem enterAct_arbs (T : Nat) (cfg : Option (Nat × Option Nat)) (s : State) : (enterAct T cfg s).twin.arbs = s.twin.arbs := rfl
@[simp] theorem enterAct_switches (T : Nat) (cfg : Option (Nat × Option Nat)) (s : State) : (enterAct T cfg s).twin.switches = s.twin.switches := rfl
@[simp] theorem enterAct_late (T : Nat) (cfg : Option (Nat × Option Nat)) (s : State) : (enterAct T cfg s).twin.late = s.twin.late := rfl
@[simp] theorem enterAct_map (T : Nat) (cfg : Option (Nat × Option Nat)) (s : State) : (enterAct T cfg s).twin.map = s.twin.map := rfl
@[simp] theorem enterAct_timed (T : Nat) (cfg : Option (Nat × Option Nat)) (s : State) : (enterAct T cfg s).twin.timed = s.twin.timed := rfl
@[simp] theorem enterAct_own (T : Nat) (cfg : Option (Nat × Option Nat)) (s : State) : (enterAct T cfg s).twin.own = s.twin.own := rfl
@[simp] theorem enterAct_theirs (T : Nat) (cfg : Option (Nat × Option Nat)) (s : State) : (enterAct T cfg s).twin.theirs = s.twin.theirs := rfl
@[simp] theorem enterAct_unsent (T : Nat) (cfg : Option (Nat × Option Nat)) (s : State) : (enterAct T cfg s).twin.unsent = s.twin.unsent := rfl
@[simp] theorem enterAct_batches (T : Nat) (cfg : Option (Nat × Option Nat)) (s : State) : (enterAct T cfg s).twin.batches = s.twin.batches := rfl
@[simp] theorem enterAct_hands (T : Nat) (cfg : Option (Nat × Option Nat)) (s : State) : (enterAct T cfg s).twin.hands = s.twin.hands := rfl
@[simp] theorem enterAct_effects (T : Nat) (cfg : Option (Nat × Option Nat)) (s : State) : (enterAct T cfg s).twin.effects = s.twin.effects := rfl
@[simp] theorem enterAct_everLit (T : Nat) (cfg : Option (Nat × Option Nat)) (s : State) : (enterAct T cfg s).twin.everLit = s.twin.everLit := rfl
@[simp] theorem enterAct_awaitPub (T : Nat) (cfg : Option (Nat × Option Nat)) (s : State) : (enterAct T cfg s).twin.awaitPub = s.twin.awaitPub := rfl
@[simp] theorem enterAct_arb (T : Nat) (cfg : Option (Nat × Option Nat)) (s : State) : (enterAct T cfg s).twin.arb = s.twin.arb := rfl
@[simp] theorem enterAct_arbQ (T : Nat) (cfg : Option (Nat × Option Nat)) (s : State) : (enterAct T cfg s).twin.arbQ = s.twin.arbQ := rfl
@[simp] theorem enterAct_verdicts (T : Nat) (cfg : Option (Nat × Option Nat)) (s : State) : (enterAct T cfg s).twin.verdicts = s.twin.verdicts := rfl
@[simp] theorem enterAct_windows (T : Nat) (cfg : Option (Nat × Option Nat)) (s : State) : (enterAct T cfg s).twin.windows = s.twin.windows := rfl
@[simp] theorem enterAct_discarded (T : Nat) (cfg : Option (Nat × Option Nat)) (s : State) : (enterAct T cfg s).twin.discarded = s.twin.discarded := rfl
@[simp] theorem enterAct_recov (T : Nat) (cfg : Option (Nat × Option Nat)) (s : State) : (enterAct T cfg s).twin.recov = s.twin.recov := rfl
@[simp] theorem enterAct_partnerStepAt (T : Nat) (cfg : Option (Nat × Option Nat)) (s : State) : (enterAct T cfg s).twin.partnerStepAt = s.twin.partnerStepAt := rfl
@[simp] theorem enterAct_acts (T : Nat) (cfg : Option (Nat × Option Nat)) (s : State) : (enterAct T cfg s).twin.acts = insertBy (·.at_) ⟨s.now + (T - s.tw), cfg⟩ s.twin.acts := rfl
@[simp] theorem enterAct_cfgCrc (T : Nat) (cfg : Option (Nat × Option Nat)) (s : State) : (enterAct T cfg s).twin.cfgCrc = s.twin.cfgCrc := rfl

@[simp] theorem setStackCnt_cnt (k : Nat) (x : StackCnt) (s : State) : (setStackCnt k x s).hbm.cnt = vset s.hbm.cnt k x := rfl
@[simp] theorem setStackCnt_rsvA (k : Nat) (x : StackCnt) (s : State) : (setStackCnt k x s).hbm.rsvA = s.hbm.rsvA := rfl
@[simp] theorem setStackCnt_rsvB (k : Nat) (x : StackCnt) (s : State) : (setStackCnt k x s).hbm.rsvB = s.hbm.rsvB := rfl
@[simp] theorem setStackCnt_ctl (k : Nat) (x : StackCnt) (s : State) : (setStackCnt k x s).hbm.ctl = s.hbm.ctl := rfl
@[simp] theorem setStackCnt_layA (k : Nat) (x : StackCnt) (s : State) : (setStackCnt k x s).hbm.layA = s.hbm.layA := rfl
@[simp] theorem setStackCnt_layB (k : Nat) (x : StackCnt) (s : State) : (setStackCnt k x s).hbm.layB = s.hbm.layB := rfl
@[simp] theorem setStackCnt_layoutErr (k : Nat) (x : StackCnt) (s : State) : (setStackCnt k x s).hbm.layoutErr = s.hbm.layoutErr := rfl
@[simp] theorem setStackCnt_trained (k : Nat) (x : StackCnt) (s : State) : (setStackCnt k x s).hbm.trained = s.hbm.trained := rfl
@[simp] theorem setStackCnt_trainDone (k : Nat) (x : StackCnt) (s : State) : (setStackCnt k x s).hbm.trainDone = s.hbm.trainDone := rfl
@[simp] theorem setStackCnt_temps (k : Nat) (x : StackCnt) (s : State) : (setStackCnt k x s).hbm.temps = s.hbm.temps := rfl
@[simp] theorem setStackCnt_readFails (k : Nat) (x : StackCnt) (s : State) : (setStackCnt k x s).hbm.readFails = s.hbm.readFails := rfl
@[simp] theorem setStackCnt_hot (k : Nat) (x : StackCnt) (s : State) : (setStackCnt k x s).hbm.hot = s.hbm.hot := rfl
@[simp] theorem setStackCnt_chFail (k : Nat) (x : StackCnt) (s : State) : (setStackCnt k x s).hbm.chFail = s.hbm.chFail := rfl
@[simp] theorem setStackCnt_chFailHi (k : Nat) (x : StackCnt) (s : State) : (setStackCnt k x s).hbm.chFailHi = s.hbm.chFailHi := rfl
@[simp] theorem setStackCnt_replays (k : Nat) (x : StackCnt) (s : State) : (setStackCnt k x s).hbm.replays = s.hbm.replays := rfl
@[simp] theorem setStackCnt_replayAt (k : Nat) (x : StackCnt) (s : State) : (setStackCnt k x s).hbm.replayAt = s.hbm.replayAt := rfl
@[simp] theorem setStackCnt_refreshAt (k : Nat) (x : StackCnt) (s : State) : (setStackCnt k x s).hbm.refreshAt = s.hbm.refreshAt := rfl
@[simp] theorem setStackCnt_perBank (k : Nat) (x : StackCnt) (s : State) : (setStackCnt k x s).hbm.perBank = s.hbm.perBank := rfl
@[simp] theorem setStackCnt_pairs (k : Nat) (x : StackCnt) (s : State) : (setStackCnt k x s).hbm.pairs = s.hbm.pairs := rfl
@[simp] theorem setStackCnt_waiting (k : Nat) (x : StackCnt) (s : State) : (setStackCnt k x s).hbm.waiting = s.hbm.waiting := rfl
@[simp] theorem setStackCnt_done (k : Nat) (x : StackCnt) (s : State) : (setStackCnt k x s).hbm.done = s.hbm.done := rfl
@[simp] theorem setStackCnt_soft (k : Nat) (x : StackCnt) (s : State) : (setStackCnt k x s).hbm.soft = s.hbm.soft := rfl
@[simp] theorem setStackCnt_poisoned (k : Nat) (x : StackCnt) (s : State) : (setStackCnt k x s).hbm.poisoned = s.hbm.poisoned := rfl
@[simp] theorem setStackCnt_skipped (k : Nat) (x : StackCnt) (s : State) : (setStackCnt k x s).hbm.skipped = s.hbm.skipped := rfl
@[simp] theorem setStackCnt_queues (k : Nat) (x : StackCnt) (s : State) : (setStackCnt k x s).hbm.queues = s.hbm.queues := rfl
@[simp] theorem setStackCnt_refreshBank (k : Nat) (x : StackCnt) (s : State) : (setStackCnt k x s).hbm.refreshBank = s.hbm.refreshBank := rfl
@[simp] theorem setStackCnt_tempAt (k : Nat) (x : StackCnt) (s : State) : (setStackCnt k x s).hbm.tempAt = s.hbm.tempAt := rfl
@[simp] theorem setStackCnt_answer (k : Nat) (x : StackCnt) (s : State) : (setStackCnt k x s).hbm.answer = s.hbm.answer := rfl
@[simp] theorem setStackCnt_reissue (k : Nat) (x : StackCnt) (s : State) : (setStackCnt k x s).hbm.reissue = s.hbm.reissue := rfl
@[simp] theorem setStackCnt_scrubAt (k : Nat) (x : StackCnt) (s : State) : (setStackCnt k x s).hbm.scrubAt = s.hbm.scrubAt := rfl
@[simp] theorem setStackCnt_scrubNext (k : Nat) (x : StackCnt) (s : State) : (setStackCnt k x s).hbm.scrubNext = s.hbm.scrubNext := rfl

@[simp] theorem setLane_lanes (l : Nat) (x : LaneState) (s : State) : (setLane l x s).link.lanes = vset s.link.lanes l x := rfl
@[simp] theorem setLane_quads (l : Nat) (x : LaneState) (s : State) : (setLane l x s).link.quads = s.link.quads := rfl
@[simp] theorem setLane_meshCfg (l : Nat) (x : LaneState) (s : State) : (setLane l x s).link.meshCfg = s.link.meshCfg := rfl
@[simp] theorem setLane_meshPort (l : Nat) (x : LaneState) (s : State) : (setLane l x s).link.meshPort = s.link.meshPort := rfl
@[simp] theorem setLane_links (l : Nat) (x : LaneState) (s : State) : (setLane l x s).link.links = s.link.links := rfl
@[simp] theorem setLane_lseq (l : Nat) (x : LaneState) (s : State) : (setLane l x s).link.lseq = s.link.lseq := rfl
@[simp] theorem setLane_fwd (l : Nat) (x : LaneState) (s : State) : (setLane l x s).link.fwd = s.link.fwd := rfl
@[simp] theorem setLane_nextFwd (l : Nat) (x : LaneState) (s : State) : (setLane l x s).link.nextFwd = s.link.nextFwd := rfl
@[simp] theorem setLane_discards (l : Nat) (x : LaneState) (s : State) : (setLane l x s).link.discards = s.link.discards := rfl
@[simp] theorem setLane_mismatched (l : Nat) (x : LaneState) (s : State) : (setLane l x s).link.mismatched = s.link.mismatched := rfl
@[simp] theorem setLane_coder (l : Nat) (x : LaneState) (s : State) : (setLane l x s).link.coder = s.link.coder := rfl

@[simp] theorem setQuad_quads (q : Nat) (x : QuadState) (s : State) : (setQuad q x s).link.quads = vset s.link.quads q x := rfl
@[simp] theorem setQuad_lanes (q : Nat) (x : QuadState) (s : State) : (setQuad q x s).link.lanes = s.link.lanes := rfl
@[simp] theorem setQuad_meshCfg (q : Nat) (x : QuadState) (s : State) : (setQuad q x s).link.meshCfg = s.link.meshCfg := rfl
@[simp] theorem setQuad_meshPort (q : Nat) (x : QuadState) (s : State) : (setQuad q x s).link.meshPort = s.link.meshPort := rfl
@[simp] theorem setQuad_links (q : Nat) (x : QuadState) (s : State) : (setQuad q x s).link.links = s.link.links := rfl
@[simp] theorem setQuad_lseq (q : Nat) (x : QuadState) (s : State) : (setQuad q x s).link.lseq = s.link.lseq := rfl
@[simp] theorem setQuad_fwd (q : Nat) (x : QuadState) (s : State) : (setQuad q x s).link.fwd = s.link.fwd := rfl
@[simp] theorem setQuad_nextFwd (q : Nat) (x : QuadState) (s : State) : (setQuad q x s).link.nextFwd = s.link.nextFwd := rfl
@[simp] theorem setQuad_discards (q : Nat) (x : QuadState) (s : State) : (setQuad q x s).link.discards = s.link.discards := rfl
@[simp] theorem setQuad_mismatched (q : Nat) (x : QuadState) (s : State) : (setQuad q x s).link.mismatched = s.link.mismatched := rfl
@[simp] theorem setQuad_coder (q : Nat) (x : QuadState) (s : State) : (setQuad q x s).link.coder = s.link.coder := rfl

@[simp] theorem setWin_win (n : Nat) (x : Window) (s : State) : (setWin n x s).mgmt.win = vset s.mgmt.win n x := rfl
@[simp] theorem setWin_dom (n : Nat) (x : Window) (s : State) : (setWin n x s).mgmt.dom = s.mgmt.dom := rfl
@[simp] theorem setWin_pcap (n : Nat) (x : Window) (s : State) : (setWin n x s).mgmt.pcap = s.mgmt.pcap := rfl
@[simp] theorem setWin_powerMw (n : Nat) (x : Window) (s : State) : (setWin n x s).mgmt.powerMw = s.mgmt.powerMw := rfl
@[simp] theorem setWin_lowMs (n : Nat) (x : Window) (s : State) : (setWin n x s).mgmt.lowMs = s.mgmt.lowMs := rfl
@[simp] theorem setWin_alert (n : Nat) (x : Window) (s : State) : (setWin n x s).mgmt.alert = s.mgmt.alert := rfl
@[simp] theorem setWin_hot (n : Nat) (x : Window) (s : State) : (setWin n x s).mgmt.hot = s.mgmt.hot := rfl
@[simp] theorem setWin_warm (n : Nat) (x : Window) (s : State) : (setWin n x s).mgmt.warm = s.mgmt.warm := rfl
@[simp] theorem setWin_trip (n : Nat) (x : Window) (s : State) : (setWin n x s).mgmt.trip = s.mgmt.trip := rfl
@[simp] theorem setWin_tceilAt (n : Nat) (x : Window) (s : State) : (setWin n x s).mgmt.tceilAt = s.mgmt.tceilAt := rfl
@[simp] theorem setWin_winErr (n : Nat) (x : Window) (s : State) : (setWin n x s).mgmt.winErr = s.mgmt.winErr := rfl
@[simp] theorem setWin_gdlySel (n : Nat) (x : Window) (s : State) : (setWin n x s).mgmt.gdlySel = s.mgmt.gdlySel := rfl
@[simp] theorem setWin_gdly (n : Nat) (x : Window) (s : State) : (setWin n x s).mgmt.gdly = s.mgmt.gdly := rfl
@[simp] theorem setWin_gdlyInfo (n : Nat) (x : Window) (s : State) : (setWin n x s).mgmt.gdlyInfo = s.mgmt.gdlyInfo := rfl
@[simp] theorem setWin_xctl (n : Nat) (x : Window) (s : State) : (setWin n x s).mgmt.xctl = s.mgmt.xctl := rfl
@[simp] theorem setWin_xstage (n : Nat) (x : Window) (s : State) : (setWin n x s).mgmt.xstage = s.mgmt.xstage := rfl
@[simp] theorem setWin_lockBroken (n : Nat) (x : Window) (s : State) : (setWin n x s).mgmt.lockBroken = s.mgmt.lockBroken := rfl
@[simp] theorem setWin_accessErr (n : Nat) (x : Window) (s : State) : (setWin n x s).mgmt.accessErr = s.mgmt.accessErr := rfl
@[simp] theorem setWin_errCount (n : Nat) (x : Window) (s : State) : (setWin n x s).mgmt.errCount = s.mgmt.errCount := rfl
@[simp] theorem setWin_locks (n : Nat) (x : Window) (s : State) : (setWin n x s).mgmt.locks = s.mgmt.locks := rfl
@[simp] theorem setWin_waiting (n : Nat) (x : Window) (s : State) : (setWin n x s).mgmt.waiting = s.mgmt.waiting := rfl
@[simp] theorem setWin_mailbox (n : Nat) (x : Window) (s : State) : (setWin n x s).mgmt.mailbox = s.mgmt.mailbox := rfl
@[simp] theorem setWin_scribe (n : Nat) (x : Window) (s : State) : (setWin n x s).mgmt.scribe = s.mgmt.scribe := rfl
@[simp] theorem setWin_log (n : Nat) (x : Window) (s : State) : (setWin n x s).mgmt.log = s.mgmt.log := rfl
@[simp] theorem setWin_logSkipped (n : Nat) (x : Window) (s : State) : (setWin n x s).mgmt.logSkipped = s.mgmt.logSkipped := rfl

@[simp] theorem setDom_dom (d : Nat) (x : Domain) (s : State) : (setDom d x s).mgmt.dom = vset s.mgmt.dom d x := rfl
@[simp] theorem setDom_pcap (d : Nat) (x : Domain) (s : State) : (setDom d x s).mgmt.pcap = s.mgmt.pcap := rfl
@[simp] theorem setDom_powerMw (d : Nat) (x : Domain) (s : State) : (setDom d x s).mgmt.powerMw = s.mgmt.powerMw := rfl
@[simp] theorem setDom_lowMs (d : Nat) (x : Domain) (s : State) : (setDom d x s).mgmt.lowMs = s.mgmt.lowMs := rfl
@[simp] theorem setDom_alert (d : Nat) (x : Domain) (s : State) : (setDom d x s).mgmt.alert = s.mgmt.alert := rfl
@[simp] theorem setDom_hot (d : Nat) (x : Domain) (s : State) : (setDom d x s).mgmt.hot = s.mgmt.hot := rfl
@[simp] theorem setDom_warm (d : Nat) (x : Domain) (s : State) : (setDom d x s).mgmt.warm = s.mgmt.warm := rfl
@[simp] theorem setDom_trip (d : Nat) (x : Domain) (s : State) : (setDom d x s).mgmt.trip = s.mgmt.trip := rfl
@[simp] theorem setDom_tceilAt (d : Nat) (x : Domain) (s : State) : (setDom d x s).mgmt.tceilAt = s.mgmt.tceilAt := rfl
@[simp] theorem setDom_win (d : Nat) (x : Domain) (s : State) : (setDom d x s).mgmt.win = s.mgmt.win := rfl
@[simp] theorem setDom_winErr (d : Nat) (x : Domain) (s : State) : (setDom d x s).mgmt.winErr = s.mgmt.winErr := rfl
@[simp] theorem setDom_gdlySel (d : Nat) (x : Domain) (s : State) : (setDom d x s).mgmt.gdlySel = s.mgmt.gdlySel := rfl
@[simp] theorem setDom_gdly (d : Nat) (x : Domain) (s : State) : (setDom d x s).mgmt.gdly = s.mgmt.gdly := rfl
@[simp] theorem setDom_gdlyInfo (d : Nat) (x : Domain) (s : State) : (setDom d x s).mgmt.gdlyInfo = s.mgmt.gdlyInfo := rfl
@[simp] theorem setDom_xctl (d : Nat) (x : Domain) (s : State) : (setDom d x s).mgmt.xctl = s.mgmt.xctl := rfl
@[simp] theorem setDom_xstage (d : Nat) (x : Domain) (s : State) : (setDom d x s).mgmt.xstage = s.mgmt.xstage := rfl
@[simp] theorem setDom_lockBroken (d : Nat) (x : Domain) (s : State) : (setDom d x s).mgmt.lockBroken = s.mgmt.lockBroken := rfl
@[simp] theorem setDom_accessErr (d : Nat) (x : Domain) (s : State) : (setDom d x s).mgmt.accessErr = s.mgmt.accessErr := rfl
@[simp] theorem setDom_errCount (d : Nat) (x : Domain) (s : State) : (setDom d x s).mgmt.errCount = s.mgmt.errCount := rfl
@[simp] theorem setDom_locks (d : Nat) (x : Domain) (s : State) : (setDom d x s).mgmt.locks = s.mgmt.locks := rfl
@[simp] theorem setDom_waiting (d : Nat) (x : Domain) (s : State) : (setDom d x s).mgmt.waiting = s.mgmt.waiting := rfl
@[simp] theorem setDom_mailbox (d : Nat) (x : Domain) (s : State) : (setDom d x s).mgmt.mailbox = s.mgmt.mailbox := rfl
@[simp] theorem setDom_scribe (d : Nat) (x : Domain) (s : State) : (setDom d x s).mgmt.scribe = s.mgmt.scribe := rfl
@[simp] theorem setDom_log (d : Nat) (x : Domain) (s : State) : (setDom d x s).mgmt.log = s.mgmt.log := rfl
@[simp] theorem setDom_logSkipped (d : Nat) (x : Domain) (s : State) : (setDom d x s).mgmt.logSkipped = s.mgmt.logSkipped := rfl

@[simp] theorem setEng_eng (e : Nat) (x : Engine) (s : State) : (setEng e x s).corr.eng = vset s.corr.eng e x := rfl
@[simp] theorem setEng_scheds (e : Nat) (x : Engine) (s : State) : (setEng e x s).corr.scheds = s.corr.scheds := rfl
@[simp] theorem setEng_tiles (e : Nat) (x : Engine) (s : State) : (setEng e x s).corr.tiles = s.corr.tiles := rfl
@[simp] theorem setEng_segs (e : Nat) (x : Engine) (s : State) : (setEng e x s).corr.segs = s.corr.segs := rfl
@[simp] theorem setEng_updating (e : Nat) (x : Engine) (s : State) : (setEng e x s).corr.updating = s.corr.updating := rfl
@[simp] theorem setEng_spillUsed (e : Nat) (x : Engine) (s : State) : (setEng e x s).corr.spillUsed = s.corr.spillUsed := rfl
@[simp] theorem setEng_spillHeld (e : Nat) (x : Engine) (s : State) : (setEng e x s).corr.spillHeld = s.corr.spillHeld := rfl
@[simp] theorem setEng_spillRefused (e : Nat) (x : Engine) (s : State) : (setEng e x s).corr.spillRefused = s.corr.spillRefused := rfl
@[simp] theorem setEng_blotsSince (e : Nat) (x : Engine) (s : State) : (setEng e x s).corr.blotsSince = s.corr.blotsSince := rfl
@[simp] theorem setEng_chbufOver (e : Nat) (x : Engine) (s : State) : (setEng e x s).corr.chbufOver = s.corr.chbufOver := rfl
@[simp] theorem setEng_readouts (e : Nat) (x : Engine) (s : State) : (setEng e x s).corr.readouts = s.corr.readouts := rfl
@[simp] theorem setEng_bsets (e : Nat) (x : Engine) (s : State) : (setEng e x s).corr.bsets = s.corr.bsets := rfl
@[simp] theorem setEng_tapers (e : Nat) (x : Engine) (s : State) : (setEng e x s).corr.tapers = s.corr.tapers := rfl
@[simp] theorem setEng_weights (e : Nat) (x : Engine) (s : State) : (setEng e x s).corr.weights = s.corr.weights := rfl
@[simp] theorem setEng_beamAcc (e : Nat) (x : Engine) (s : State) : (setEng e x s).corr.beamAcc = s.corr.beamAcc := rfl
@[simp] theorem setEng_beamOut (e : Nat) (x : Engine) (s : State) : (setEng e x s).corr.beamOut = s.corr.beamOut := rfl
@[simp] theorem setEng_beamNext (e : Nat) (x : Engine) (s : State) : (setEng e x s).corr.beamNext = s.corr.beamNext := rfl
@[simp] theorem setEng_beamGeom (e : Nat) (x : Engine) (s : State) : (setEng e x s).corr.beamGeom = s.corr.beamGeom := rfl
@[simp] theorem setEng_stats (e : Nat) (x : Engine) (s : State) : (setEng e x s).corr.stats = s.corr.stats := rfl
@[simp] theorem setEng_nextGen (e : Nat) (x : Engine) (s : State) : (setEng e x s).corr.nextGen = s.corr.nextGen := rfl
@[simp] theorem setEng_stalls (e : Nat) (x : Engine) (s : State) : (setEng e x s).corr.stalls = s.corr.stalls := rfl
@[simp] theorem setEng_reruns (e : Nat) (x : Engine) (s : State) : (setEng e x s).corr.reruns = s.corr.reruns := rfl
@[simp] theorem setEng_poisonCnt (e : Nat) (x : Engine) (s : State) : (setEng e x s).corr.poisonCnt = s.corr.poisonCnt := rfl

@[simp] theorem setSeg_segs (gen k bank first : Nat) (x : Segment) (s : State) : (setSeg gen k bank first x s).corr.segs = Tab.put s.corr.segs (segKey gen k bank first) x := rfl
@[simp] theorem setSeg_scheds (gen k bank first : Nat) (x : Segment) (s : State) : (setSeg gen k bank first x s).corr.scheds = s.corr.scheds := rfl
@[simp] theorem setSeg_eng (gen k bank first : Nat) (x : Segment) (s : State) : (setSeg gen k bank first x s).corr.eng = s.corr.eng := rfl
@[simp] theorem setSeg_tiles (gen k bank first : Nat) (x : Segment) (s : State) : (setSeg gen k bank first x s).corr.tiles = s.corr.tiles := rfl
@[simp] theorem setSeg_updating (gen k bank first : Nat) (x : Segment) (s : State) : (setSeg gen k bank first x s).corr.updating = s.corr.updating := rfl
@[simp] theorem setSeg_spillUsed (gen k bank first : Nat) (x : Segment) (s : State) : (setSeg gen k bank first x s).corr.spillUsed = s.corr.spillUsed := rfl
@[simp] theorem setSeg_spillHeld (gen k bank first : Nat) (x : Segment) (s : State) : (setSeg gen k bank first x s).corr.spillHeld = s.corr.spillHeld := rfl
@[simp] theorem setSeg_spillRefused (gen k bank first : Nat) (x : Segment) (s : State) : (setSeg gen k bank first x s).corr.spillRefused = s.corr.spillRefused := rfl
@[simp] theorem setSeg_blotsSince (gen k bank first : Nat) (x : Segment) (s : State) : (setSeg gen k bank first x s).corr.blotsSince = s.corr.blotsSince := rfl
@[simp] theorem setSeg_chbufOver (gen k bank first : Nat) (x : Segment) (s : State) : (setSeg gen k bank first x s).corr.chbufOver = s.corr.chbufOver := rfl
@[simp] theorem setSeg_readouts (gen k bank first : Nat) (x : Segment) (s : State) : (setSeg gen k bank first x s).corr.readouts = s.corr.readouts := rfl
@[simp] theorem setSeg_bsets (gen k bank first : Nat) (x : Segment) (s : State) : (setSeg gen k bank first x s).corr.bsets = s.corr.bsets := rfl
@[simp] theorem setSeg_tapers (gen k bank first : Nat) (x : Segment) (s : State) : (setSeg gen k bank first x s).corr.tapers = s.corr.tapers := rfl
@[simp] theorem setSeg_weights (gen k bank first : Nat) (x : Segment) (s : State) : (setSeg gen k bank first x s).corr.weights = s.corr.weights := rfl
@[simp] theorem setSeg_beamAcc (gen k bank first : Nat) (x : Segment) (s : State) : (setSeg gen k bank first x s).corr.beamAcc = s.corr.beamAcc := rfl
@[simp] theorem setSeg_beamOut (gen k bank first : Nat) (x : Segment) (s : State) : (setSeg gen k bank first x s).corr.beamOut = s.corr.beamOut := rfl
@[simp] theorem setSeg_beamNext (gen k bank first : Nat) (x : Segment) (s : State) : (setSeg gen k bank first x s).corr.beamNext = s.corr.beamNext := rfl
@[simp] theorem setSeg_beamGeom (gen k bank first : Nat) (x : Segment) (s : State) : (setSeg gen k bank first x s).corr.beamGeom = s.corr.beamGeom := rfl
@[simp] theorem setSeg_stats (gen k bank first : Nat) (x : Segment) (s : State) : (setSeg gen k bank first x s).corr.stats = s.corr.stats := rfl
@[simp] theorem setSeg_nextGen (gen k bank first : Nat) (x : Segment) (s : State) : (setSeg gen k bank first x s).corr.nextGen = s.corr.nextGen := rfl
@[simp] theorem setSeg_stalls (gen k bank first : Nat) (x : Segment) (s : State) : (setSeg gen k bank first x s).corr.stalls = s.corr.stalls := rfl
@[simp] theorem setSeg_reruns (gen k bank first : Nat) (x : Segment) (s : State) : (setSeg gen k bank first x s).corr.reruns = s.corr.reruns := rfl
@[simp] theorem setSeg_poisonCnt (gen k bank first : Nat) (x : Segment) (s : State) : (setSeg gen k bank first x s).corr.poisonCnt = s.corr.poisonCnt := rfl

@[simp] theorem setSched_scheds (x : SchedRun) (s : State) : (setSched x s).corr.scheds = s.corr.scheds.map (fun y => if y.gen = x.gen then x else y) := rfl
@[simp] theorem setSched_eng (x : SchedRun) (s : State) : (setSched x s).corr.eng = s.corr.eng := rfl
@[simp] theorem setSched_tiles (x : SchedRun) (s : State) : (setSched x s).corr.tiles = s.corr.tiles := rfl
@[simp] theorem setSched_segs (x : SchedRun) (s : State) : (setSched x s).corr.segs = s.corr.segs := rfl
@[simp] theorem setSched_updating (x : SchedRun) (s : State) : (setSched x s).corr.updating = s.corr.updating := rfl
@[simp] theorem setSched_spillUsed (x : SchedRun) (s : State) : (setSched x s).corr.spillUsed = s.corr.spillUsed := rfl
@[simp] theorem setSched_spillHeld (x : SchedRun) (s : State) : (setSched x s).corr.spillHeld = s.corr.spillHeld := rfl
@[simp] theorem setSched_spillRefused (x : SchedRun) (s : State) : (setSched x s).corr.spillRefused = s.corr.spillRefused := rfl
@[simp] theorem setSched_blotsSince (x : SchedRun) (s : State) : (setSched x s).corr.blotsSince = s.corr.blotsSince := rfl
@[simp] theorem setSched_chbufOver (x : SchedRun) (s : State) : (setSched x s).corr.chbufOver = s.corr.chbufOver := rfl
@[simp] theorem setSched_readouts (x : SchedRun) (s : State) : (setSched x s).corr.readouts = s.corr.readouts := rfl
@[simp] theorem setSched_bsets (x : SchedRun) (s : State) : (setSched x s).corr.bsets = s.corr.bsets := rfl
@[simp] theorem setSched_tapers (x : SchedRun) (s : State) : (setSched x s).corr.tapers = s.corr.tapers := rfl
@[simp] theorem setSched_weights (x : SchedRun) (s : State) : (setSched x s).corr.weights = s.corr.weights := rfl
@[simp] theorem setSched_beamAcc (x : SchedRun) (s : State) : (setSched x s).corr.beamAcc = s.corr.beamAcc := rfl
@[simp] theorem setSched_beamOut (x : SchedRun) (s : State) : (setSched x s).corr.beamOut = s.corr.beamOut := rfl
@[simp] theorem setSched_beamNext (x : SchedRun) (s : State) : (setSched x s).corr.beamNext = s.corr.beamNext := rfl
@[simp] theorem setSched_beamGeom (x : SchedRun) (s : State) : (setSched x s).corr.beamGeom = s.corr.beamGeom := rfl
@[simp] theorem setSched_stats (x : SchedRun) (s : State) : (setSched x s).corr.stats = s.corr.stats := rfl
@[simp] theorem setSched_nextGen (x : SchedRun) (s : State) : (setSched x s).corr.nextGen = s.corr.nextGen := rfl
@[simp] theorem setSched_stalls (x : SchedRun) (s : State) : (setSched x s).corr.stalls = s.corr.stalls := rfl
@[simp] theorem setSched_reruns (x : SchedRun) (s : State) : (setSched x s).corr.reruns = s.corr.reruns := rfl
@[simp] theorem setSched_poisonCnt (x : SchedRun) (s : State) : (setSched x s).corr.poisonCnt = s.corr.poisonCnt := rfl

@[simp] theorem setRef_refs (n : Nat) (x : RefState) (s : State) : (setRef n x s).tb.refs = vset s.tb.refs n x := rfl
@[simp] theorem setRef_ctl (n : Nat) (x : RefState) (s : State) : (setRef n x s).tb.ctl = s.tb.ctl := rfl
@[simp] theorem setRef_slew (n : Nat) (x : RefState) (s : State) : (setRef n x s).tb.slew = s.tb.slew := rfl
@[simp] theorem setRef_tsetLo (n : Nat) (x : RefState) (s : State) : (setRef n x s).tb.tsetLo = s.tb.tsetLo := rfl
@[simp] theorem setRef_tsetHi (n : Nat) (x : RefState) (s : State) : (setRef n x s).tb.tsetHi = s.tb.tsetHi := rfl
@[simp] theorem setRef_armed (n : Nat) (x : RefState) (s : State) : (setRef n x s).tb.armed = s.tb.armed := rfl
@[simp] theorem setRef_refCfg (n : Nat) (x : RefState) (s : State) : (setRef n x s).tb.refCfg = s.tb.refCfg := rfl
@[simp] theorem setRef_sclkCfg (n : Nat) (x : RefState) (s : State) : (setRef n x s).tb.sclkCfg = s.tb.sclkCfg := rfl
@[simp] theorem setRef_tsetErr (n : Nat) (x : RefState) (s : State) : (setRef n x s).tb.tsetErr = s.tb.tsetErr := rfl
@[simp] theorem setRef_sclkErr (n : Nat) (x : RefState) (s : State) : (setRef n x s).tb.sclkErr = s.tb.sclkErr := rfl
@[simp] theorem setRef_offHiLatch (n : Nat) (x : RefState) (s : State) : (setRef n x s).tb.offHiLatch = s.tb.offHiLatch := rfl
@[simp] theorem setRef_st (n : Nat) (x : RefState) (s : State) : (setRef n x s).tb.st = s.tb.st := rfl
@[simp] theorem setRef_sel (n : Nat) (x : RefState) (s : State) : (setRef n x s).tb.sel = s.tb.sel := rfl
@[simp] theorem setRef_oNano (n : Nat) (x : RefState) (s : State) : (setRef n x s).tb.oNano = s.tb.oNano := rfl
@[simp] theorem setRef_walking (n : Nat) (x : RefState) (s : State) : (setRef n x s).tb.walking = s.tb.walking := rfl
@[simp] theorem setRef_hist (n : Nat) (x : RefState) (s : State) : (setRef n x s).tb.hist = s.tb.hist := rfl
@[simp] theorem setRef_holdVal (n : Nat) (x : RefState) (s : State) : (setRef n x s).tb.holdVal = s.tb.holdVal := rfl
@[simp] theorem setRef_holdAt (n : Nat) (x : RefState) (s : State) : (setRef n x s).tb.holdAt = s.tb.holdAt := rfl
@[simp] theorem setRef_trigger (n : Nat) (x : RefState) (s : State) : (setRef n x s).tb.trigger = s.tb.trigger := rfl
@[simp] theorem setRef_gates (n : Nat) (x : RefState) (s : State) : (setRef n x s).tb.gates = s.tb.gates := rfl
@[simp] theorem setRef_switches (n : Nat) (x : RefState) (s : State) : (setRef n x s).tb.switches = s.tb.switches := rfl
@[simp] theorem setRef_ppsRise (n : Nat) (x : RefState) (s : State) : (setRef n x s).tb.ppsRise = s.tb.ppsRise := rfl
@[simp] theorem setRef_armedAt (n : Nat) (x : RefState) (s : State) : (setRef n x s).tb.armedAt = s.tb.armedAt := rfl
@[simp] theorem setRef_lockFrom (n : Nat) (x : RefState) (s : State) : (setRef n x s).tb.lockFrom = s.tb.lockFrom := rfl
@[simp] theorem setRef_freq (n : Nat) (x : RefState) (s : State) : (setRef n x s).tb.freq = s.tb.freq := rfl
@[simp] theorem setRef_phase (n : Nat) (x : RefState) (s : State) : (setRef n x s).tb.phase = s.tb.phase := rfl
@[simp] theorem setRef_phaseErr (n : Nat) (x : RefState) (s : State) : (setRef n x s).tb.phaseErr = s.tb.phaseErr := rfl
@[simp] theorem setRef_freqSum (n : Nat) (x : RefState) (s : State) : (setRef n x s).tb.freqSum = s.tb.freqSum := rfl
@[simp] theorem setRef_histFrom (n : Nat) (x : RefState) (s : State) : (setRef n x s).tb.histFrom = s.tb.histFrom := rfl
@[simp] theorem setRef_sets (n : Nat) (x : RefState) (s : State) : (setRef n x s).tb.sets = s.tb.sets := rfl

@[simp] theorem setOutlet_outlets (o : Outlet) (x : OutletState) (s : State) : (setOutlet o x s).host.outlets = Tab.put s.host.outlets (outletKey o) x := rfl
@[simp] theorem setOutlet_ctl (o : Outlet) (x : OutletState) (s : State) : (setOutlet o x s).host.ctl = s.host.ctl := rfl
@[simp] theorem setOutlet_poll (o : Outlet) (x : OutletState) (s : State) : (setOutlet o x s).host.poll = s.host.poll := rfl
@[simp] theorem setOutlet_dbLo (o : Outlet) (x : OutletState) (s : State) : (setOutlet o x s).host.dbLo = s.host.dbLo := rfl
@[simp] theorem setOutlet_dbHi (o : Outlet) (x : OutletState) (s : State) : (setOutlet o x s).host.dbHi = s.host.dbHi := rfl
@[simp] theorem setOutlet_sbLo (o : Outlet) (x : OutletState) (s : State) : (setOutlet o x s).host.sbLo = s.host.sbLo := rfl
@[simp] theorem setOutlet_sbHi (o : Outlet) (x : OutletState) (s : State) : (setOutlet o x s).host.sbHi = s.host.sbHi := rfl
@[simp] theorem setOutlet_ringLo (o : Outlet) (x : OutletState) (s : State) : (setOutlet o x s).host.ringLo = s.host.ringLo := rfl
@[simp] theorem setOutlet_ringHi (o : Outlet) (x : OutletState) (s : State) : (setOutlet o x s).host.ringHi = s.host.ringHi := rfl
@[simp] theorem setOutlet_ringCfg (o : Outlet) (x : OutletState) (s : State) : (setOutlet o x s).host.ringCfg = s.host.ringCfg := rfl
@[simp] theorem setOutlet_msixMod (o : Outlet) (x : OutletState) (s : State) : (setOutlet o x s).host.msixMod = s.host.msixMod := rfl
@[simp] theorem setOutlet_dmaCh (o : Outlet) (x : OutletState) (s : State) : (setOutlet o x s).host.dmaCh = s.host.dmaCh := rfl
@[simp] theorem setOutlet_quadQuota (o : Outlet) (x : OutletState) (s : State) : (setOutlet o x s).host.quadQuota = s.host.quadQuota := rfl
@[simp] theorem setOutlet_msixTable (o : Outlet) (x : OutletState) (s : State) : (setOutlet o x s).host.msixTable = s.host.msixTable := rfl
@[simp] theorem setOutlet_msixPba (o : Outlet) (x : OutletState) (s : State) : (setOutlet o x s).host.msixPba = s.host.msixPba := rfl
@[simp] theorem setOutlet_cfgErr (o : Outlet) (x : OutletState) (s : State) : (setOutlet o x s).host.cfgErr = s.host.cfgErr := rfl
@[simp] theorem setOutlet_perstSeen (o : Outlet) (x : OutletState) (s : State) : (setOutlet o x s).host.perstSeen = s.host.perstSeen := rfl
@[simp] theorem setOutlet_gen (o : Outlet) (x : OutletState) (s : State) : (setOutlet o x s).host.gen = s.host.gen := rfl
@[simp] theorem setOutlet_width (o : Outlet) (x : OutletState) (s : State) : (setOutlet o x s).host.width = s.host.width := rfl
@[simp] theorem setOutlet_slow (o : Outlet) (x : OutletState) (s : State) : (setOutlet o x s).host.slow = s.host.slow := rfl
@[simp] theorem setOutlet_running (o : Outlet) (x : OutletState) (s : State) : (setOutlet o x s).host.running = s.host.running := rfl
@[simp] theorem setOutlet_db (o : Outlet) (x : OutletState) (s : State) : (setOutlet o x s).host.db = s.host.db := rfl
@[simp] theorem setOutlet_cmdCons (o : Outlet) (x : OutletState) (s : State) : (setOutlet o x s).host.cmdCons = s.host.cmdCons := rfl
@[simp] theorem setOutlet_cplProd (o : Outlet) (x : OutletState) (s : State) : (setOutlet o x s).host.cplProd = s.host.cplProd := rfl
@[simp] theorem setOutlet_evtProd (o : Outlet) (x : OutletState) (s : State) : (setOutlet o x s).host.evtProd = s.host.evtProd := rfl
@[simp] theorem setOutlet_prodProd (o : Outlet) (x : OutletState) (s : State) : (setOutlet o x s).host.prodProd = s.host.prodProd := rfl
@[simp] theorem setOutlet_srcCons (o : Outlet) (x : OutletState) (s : State) : (setOutlet o x s).host.srcCons = s.host.srcCons := rfl
@[simp] theorem setOutlet_sbSeq (o : Outlet) (x : OutletState) (s : State) : (setOutlet o x s).host.sbSeq = s.host.sbSeq := rfl
@[simp] theorem setOutlet_sbAt (o : Outlet) (x : OutletState) (s : State) : (setOutlet o x s).host.sbAt = s.host.sbAt := rfl
@[simp] theorem setOutlet_sbLast (o : Outlet) (x : OutletState) (s : State) : (setOutlet o x s).host.sbLast = s.host.sbLast := rfl
@[simp] theorem setOutlet_held (o : Outlet) (x : OutletState) (s : State) : (setOutlet o x s).host.held = s.host.held := rfl
@[simp] theorem setOutlet_deferred (o : Outlet) (x : OutletState) (s : State) : (setOutlet o x s).host.deferred = s.host.deferred := rfl
@[simp] theorem setOutlet_owed (o : Outlet) (x : OutletState) (s : State) : (setOutlet o x s).host.owed = s.host.owed := rfl
@[simp] theorem setOutlet_evSeq (o : Outlet) (x : OutletState) (s : State) : (setOutlet o x s).host.evSeq = s.host.evSeq := rfl
@[simp] theorem setOutlet_evQueue (o : Outlet) (x : OutletState) (s : State) : (setOutlet o x s).host.evQueue = s.host.evQueue := rfl
@[simp] theorem setOutlet_evLost (o : Outlet) (x : OutletState) (s : State) : (setOutlet o x s).host.evLost = s.host.evLost := rfl
@[simp] theorem setOutlet_bindings (o : Outlet) (x : OutletState) (s : State) : (setOutlet o x s).host.bindings = s.host.bindings := rfl
@[simp] theorem setOutlet_unbound (o : Outlet) (x : OutletState) (s : State) : (setOutlet o x s).host.unbound = s.host.unbound := rfl
@[simp] theorem setOutlet_staged (o : Outlet) (x : OutletState) (s : State) : (setOutlet o x s).host.staged = s.host.staged := rfl
@[simp] theorem setOutlet_nextRec (o : Outlet) (x : OutletState) (s : State) : (setOutlet o x s).host.nextRec = s.host.nextRec := rfl
@[simp] theorem setOutlet_jobs (o : Outlet) (x : OutletState) (s : State) : (setOutlet o x s).host.jobs = s.host.jobs := rfl
@[simp] theorem setOutlet_nextJob (o : Outlet) (x : OutletState) (s : State) : (setOutlet o x s).host.nextJob = s.host.nextJob := rfl
@[simp] theorem setOutlet_src (o : Outlet) (x : OutletState) (s : State) : (setOutlet o x s).host.src = s.host.src := rfl
@[simp] theorem setOutlet_unpub (o : Outlet) (x : OutletState) (s : State) : (setOutlet o x s).host.unpub = s.host.unpub := rfl
@[simp] theorem setOutlet_stopped (o : Outlet) (x : OutletState) (s : State) : (setOutlet o x s).host.stopped = s.host.stopped := rfl
@[simp] theorem setOutlet_polls (o : Outlet) (x : OutletState) (s : State) : (setOutlet o x s).host.polls = s.host.polls := rfl
@[simp] theorem setOutlet_srcSeen (o : Outlet) (x : OutletState) (s : State) : (setOutlet o x s).host.srcSeen = s.host.srcSeen := rfl
@[simp] theorem setOutlet_msix (o : Outlet) (x : OutletState) (s : State) : (setOutlet o x s).host.msix = s.host.msix := rfl
@[simp] theorem setOutlet_untrusted (o : Outlet) (x : OutletState) (s : State) : (setOutlet o x s).host.untrusted = s.host.untrusted := rfl
@[simp] theorem setOutlet_dmaLast (o : Outlet) (x : OutletState) (s : State) : (setOutlet o x s).host.dmaLast = s.host.dmaLast := rfl
@[simp] theorem setOutlet_dmaNext (o : Outlet) (x : OutletState) (s : State) : (setOutlet o x s).host.dmaNext = s.host.dmaNext := rfl
@[simp] theorem setOutlet_pci (o : Outlet) (x : OutletState) (s : State) : (setOutlet o x s).host.pci = s.host.pci := rfl
@[simp] theorem setOutlet_aer (o : Outlet) (x : OutletState) (s : State) : (setOutlet o x s).host.aer = s.host.aer := rfl
@[simp] theorem setOutlet_pollAt (o : Outlet) (x : OutletState) (s : State) : (setOutlet o x s).host.pollAt = s.host.pollAt := rfl

@[simp] theorem hostWrite_host (ws : List HostWrite) (s : State) : (hostWrite ws s).out.host = s.out.host ++ hostBursts ws := rfl
@[simp] theorem hostWrite_lanes (ws : List HostWrite) (s : State) : (hostWrite ws s).out.lanes = s.out.lanes := rfl
@[simp] theorem hostWrite_read (ws : List HostWrite) (s : State) : (hostWrite ws s).out.read = s.out.read := rfl
@[simp] theorem hostWrite_wire (ws : List HostWrite) (s : State) : (hostWrite ws s).out.wire = s.out.wire := rfl
@[simp] theorem hostWrite_serial (ws : List HostWrite) (s : State) : (hostWrite ws s).out.serial = s.out.serial := rfl
@[simp] theorem hostWrite_flash (ws : List HostWrite) (s : State) : (hostWrite ws s).out.flash = s.out.flash := rfl

/-! ## Reading back what a setter wrote -/

@[simp] theorem quadOf_setQuad (q : Nat) (x : QuadState) (s : State) (h : q < 16) : quadOf (setQuad q x s) q = x := by
  simp [quadOf, vget_vset_same, h]
theorem quadOf_setQuad_ne (q k : Nat) (x : QuadState) (s : State) (h : k ≠ q) : quadOf (setQuad q x s) k = quadOf s k := by
  simp [quadOf, vget_vset_ne, h]
@[simp] theorem laneOf_setLane (l : Nat) (x : LaneState) (s : State) (h : l < 64) : laneOf (setLane l x s) l = x := by
  simp [laneOf, vget_vset_same, h]
theorem laneOf_setLane_ne (l k : Nat) (x : LaneState) (s : State) (h : k ≠ l) : laneOf (setLane l x s) k = laneOf s k := by
  simp [laneOf, vget_vset_ne, h]
@[simp] theorem laneOf_setQuad (q k : Nat) (x : QuadState) (s : State) : laneOf (setQuad q x s) k = laneOf s k := rfl
@[simp] theorem quadOf_setLane (l k : Nat) (x : LaneState) (s : State) : quadOf (setLane l x s) k = quadOf s k := rfl
@[simp] theorem domOf_setDom (d : Nat) (x : Domain) (s : State) (h : d < 17) : domOf (setDom d x s) d = x := by
  simp [domOf, vget_vset_same, h]
theorem domOf_setDom_ne (d k : Nat) (x : Domain) (s : State) (h : k ≠ d) : domOf (setDom d x s) k = domOf s k := by
  simp [domOf, vget_vset_ne, h]
@[simp] theorem engOf_setEng (e : Nat) (x : Engine) (s : State) (h : e < 256) : engOf (setEng e x s) e = x := by
  simp [engOf, vget_vset_same, h]
theorem engOf_setEng_ne (e k : Nat) (x : Engine) (s : State) (h : k ≠ e) : engOf (setEng e x s) k = engOf s k := by
  simp [engOf, vget_vset_ne, h]
@[simp] theorem winOf_setWin (n : Nat) (x : Window) (s : State) (h : n < 16) : winOf (setWin n x s) n = x := by
  simp [winOf, vget_vset_same, h]
@[simp] theorem detOf_setDet (d : Nat) (x : Detector) (s : State) (h : d < 512) : detOf (setDet d x s) d = x := by
  simp [detOf, vget_vset_same, h]
@[simp] theorem outletOf_setOutlet (p : Outlet) (x : OutletState) (s : State) : outletOf (setOutlet p x s) p = x := by
  simp [outletOf, Tab.getD, Tab.get_put_same]
@[simp] theorem driveRun_setDrive (e : Nat) (x : DriveRun) (s : State) : driveRun (setDrive e x s) e = x := by
  simp [driveRun, Tab.getD, Tab.get_put_same]
@[simp] theorem cntOf_modCnt (e : Nat) (f : ElemCnt → ElemCnt) (s : State) : cntOf (modCnt e f s) e = f (cntOf s e) := by
  simp [cntOf, modCnt, Tab.getD, Tab.get_put_same]

end Sys2Proof.Machine
end

