-- ==== Sys2Proof/Laws/Ops.lean ====
section
/-!
SUPPORT. One lemma for each shared operation that says what it can do: completions, events, link reception, twin frames, and writes of the
host to registers.
-/
set_option Elab.async false
namespace Sys2Proof.Machine

/-! ## Completions (R381, R382) -/

/-- With nothing owed and room in the ring, a completion is written at once. -/
theorem complete_room (d : Desc) (status info : Nat) (s : State) (h : s.host.owed = []) (hr : cplRoom s = true) :
    complete d status info s = writeCompl ⟨d.tag, d.opcode, status, info, d.index, none, s.now⟩ s := by
  have h2 : cplRoom { s with host.owed := [⟨d.tag, d.opcode, status, info, d.index, none, s.now⟩] } = true := hr
  have h3 : { s with host.owed := [] } = s := by rw [← h]
  simp only [complete, completeWith, flushOwed, h, List.nil_append, List.length_singleton, flushOwedN, h2, if_true, h3]

/-- With nothing owed and no room in the ring, a completion waits. -/
theorem complete_full (d : Desc) (status info : Nat) (s : State) (h : s.host.owed = []) (hr : cplRoom s = false) :
    complete d status info s = { s with host.owed := [⟨d.tag, d.opcode, status, info, d.index, none, s.now⟩] } := by
  have h2 (l : List Compl) : cplRoom { s with host.owed := l } = false := hr
  simp [complete, completeWith, flushOwed, h, flushOwedN, h2]

/-- A refusal with an info that the specification states is a completion. -/
theorem refuse_eq (d : Desc) (c : Nat × Nat) (s : State) (h : c.2 ≠ freeInfo) : refuse d c s = complete d c.1 c.2 s := by
  simp [refuse, h]

/-- A command that took effect completes with OK, after the open recovery windows have noted it. -/
theorem accept_eq (d : Desc) (s : State) : accept d s = complete d stOk 0 (disturb s) := rfl

/-- No recovery window is open: nothing is disturbed. -/
theorem disturb_quiet (s : State) (h : s.twin.recov = []) : disturb s = s := by simp [disturb, spoil, h]

/-! ## Events (R385, R386) -/

theorem ringCfgOf_of_host {s t : State} (h : t.host = s.host) (r : Nat) : ringCfgOf t r = ringCfgOf s r := by rw [ringCfgOf, h, ← ringCfgOf]
theorem ringEn_of_host {s t : State} (h : t.host = s.host) (r : Nat) : ringEn t r = ringEn s r := by
  rw [ringEn, ringCfgOf_of_host h, ← ringEn]
theorem ringSize_of_host {s t : State} (h : t.host = s.host) (r : Nat) : ringSize t r = ringSize s r := by
  rw [ringSize, ringCfgOf_of_host h, ← ringSize]
/-- Room in the event ring is a matter of the host interface alone. -/
theorem evtRoom_of_host {s t : State} (h : t.host = s.host) : evtRoom t = evtRoom s := by
  simp [evtRoom, ringEn_of_host h, ringSize_of_host h, h]
@[simp] theorem noteLog_evtRoom (x : LogEntry) (s : State) : evtRoom (noteLog x s) = evtRoom s := evtRoom_of_host (by simp)

/-- The scribe's log never holds more than its half of the LOG reservation. -/
theorem noteLog_fits (x : LogEntry) (s : State) (h : s.mgmt.log.length ≤ logRoom s) : (noteLog x s).mgmt.log.length ≤ logRoom s := by
  simp [noteLog]
  omega

/-- With room, an entry joins the end of the scribe's log. -/
theorem noteLog_room (x : LogEntry) (s : State) (h : s.mgmt.log.length < logRoom s) :
    noteLog x s = { s with mgmt.log := s.mgmt.log ++ [x] } := by
  have : s.mgmt.log.length + 1 - logRoom s = 0 := by omega
  simp [noteLog, this]

/-- With an empty queue and room in the ring, an event is written at once. -/
theorem pushEvent_room (e : Ev) (s : State) (h : s.host.evQueue = []) (hl : s.host.evLost = 0) (hr : evtRoom s = true) :
    pushEvent e s = writeEvent e (noteLog (.event e) s) := by
  simp [pushEvent, h, hl, hr]

/-- Without room, an event joins the queue while it has a place. -/
theorem pushEvent_queued (e : Ev) (s : State) (hr : evtRoom s = false) (hq : s.host.evQueue.length < 4096) :
    pushEvent e s = { noteLog (.event e) s with host.evQueue := s.host.evQueue ++ [e] } := by
  simp [pushEvent, hr, hq]

/-- Without room and with a full queue, an event is counted as lost. -/
theorem pushEvent_lost (e : Ev) (s : State) (hr : evtRoom s = false) (hq : 4096 ≤ s.host.evQueue.length) :
    pushEvent e s = { noteLog (.event e) s with host.evLost := bump 32 s.host.evLost 1 } := by
  simp [pushEvent, hr, Nat.not_lt.mpr hq]

/-! ## Lane quads (R301, R333) -/

/-- A disabled quad sends nothing (R285). -/
theorem emitOn_disabled (q : Nat) (x : LaneOut) (s : State) (h : rbit (quadOf s q).cfg 0 = false) : emitOn q x s = s := by
  simp [emitOn, h]

/-- An item goes out while the transmit direction is active. -/
theorem emitOn_active (q : Nat) (x : LaneOut) (s : State) (he : rbit (quadOf s q).cfg 0 = true) (h : (quadOf s q).tx.st = .active) :
    emitOn q x s = sendOn q s.now x (setQuad q { quadOf s q with tx := { (quadOf s q).tx with idleAt := s.now } } s) := by
  simp [emitOn, he, h]

/-- Otherwise it waits, and the direction wakes. -/
theorem emitOn_asleep (q : Nat) (x : LaneOut) (s : State) (he : rbit (quadOf s q).cfg 0 = true) (h : (quadOf s q).tx.st ≠ .active) :
    emitOn q x s = setQuad q { quadOf s q with
      held := (quadOf s q).held ++ [(s.now, x)], tx := { (quadOf s q).tx with st := .waking } } s := by
  simp [emitOn, he, h]

/-- A good frame with the expected sequence number is accepted. -/
theorem linkReceive_expected (q : Nat) (s : State) : (linkReceive q true (quadOf s q).expect s).1 = true := by simp [linkReceive]

theorem twinEn_of_twin {s t : State} (h : t.twin = s.twin) : t.twinEn = s.twinEn := by simp [State.twinEn, h]

/-- A good twin frame with the expected sequence number has its effect, after its acknowledgement and its credit. -/
theorem twinTake_good (f : RawFrame) (act : Bytes → State → State) (s : State) (h1 : s.twinEn = true)
    (h2 : (quadsOf s 5).head? = some (twinQuad s)) (h3 : (quadOf s (twinQuad s)).up = true) (h4 : twinFits f = true)
    (h5 : fieldU f.data 0 2 = (quadOf s (twinQuad s)).expect) :
    twinTake f true act s = act (f.data.drop 16)
      (frameTaken (twinQuad s) (returnCredit (twinQuad s) 0 f.n.toNat (linkReceive (twinQuad s) true (fieldU f.data 0 2) s).2)) := by
  have h7 : (linkReceive (twinQuad s) true (fieldU f.data 0 2) s).1 = true := by rw [h5]; exact linkReceive_expected _ _
  have h8 : (returnCredit (twinQuad s) 0 f.n.toNat (linkReceive (twinQuad s) true (fieldU f.data 0 2) s).2).twinEn = true := by
    rw [twinEn_of_twin (s := s) (by simp), h1]
  have h9 : twinQuad (returnCredit (twinQuad s) 0 f.n.toNat (linkReceive (twinQuad s) true (fieldU f.data 0 2) s).2) = twinQuad s := by
    simp [twinQuad]
  simp [twinTake, twinLink, h2, h3, h4, h7, h8, h9]

/-! ## Registers (R476, R477) -/

/-- A 32-bit write of the host to a register of a block that is served, with a value that names no reserved code, reaches the register. -/
theorem hostReg_served (off : Nat) (r : RegId) (v : Reg) (s : State) (h1 : inReset s = false) (h2 : s.boot.ready = true)
    (h3 : reaches s .hostBridge .banks = true) (h4 : s.mgmt.locks = []) (h5 : regAt off = some r) (h6 : off % 4 = 0)
    (h7 : off / 0x10000 < 10) (h8 : reservedCode r v = false) (h9 : s.host.slow = false) (h10 : outstanding s .hostBridge = false) :
    hostReg off v s = storeReg .hostBridge r v s := by
  have : ((BitVec.setWidth 64 v).setWidth 32 : BitVec 32) = v := by simp
  have h11 : ¬ 10 ≤ off / 65536 := by omega
  simp [hostReg, access, h3, brokenLock, h4, openLock, serve, regWrite, h1, accBytes, h6, regWrite32, bankServed, h2, h5, this, h8, h9, h10, h11]

/-! ## Temperatures (R418) -/

/-- A reading below every threshold sets nothing off. -/
theorem thermalRise_low (x : Nat × Int × Int) (s : State) (h : x.2.2 < -5000) : thermalRise x s = s := by
  have h1 : ¬ (-5000 ≤ x.2.2) := by omega
  have h2 : ¬ (0 ≤ x.2.2) := by omega
  have h3 : ¬ (10000 ≤ x.2.2) := by omega
  simp [thermalRise, thermalTrip, thermalHot, thermalAlert, thermalWarm, h1, h2, h3]

end Sys2Proof.Machine
end

