-- ==== Sys2Proof/Laws/Pending.lean ====
section
/-!
SUPPORT. The queue survives the resets: with the frame lemmas, no meaning changes the queue of commands.
-/
set_option Elab.async false
namespace Sys2Proof.Machine

@[simp] theorem porReset_pending (s : State) :
    (porReset s).pending = s.pending := by
  simp [porReset]
@[simp] theorem sysReset_pending (s : State) :
    (sysReset s).pending = s.pending := by
  generalize hr : sysReset s = r
  simp only [sysReset] at hr
  repeat' split at hr
  all_goals (subst hr; simp)
theorem execResetAssert_pending (t : Tick) (pin : ResetPin) (s : State) {t_ : State} (h : execResetAssert t pin s = .next t_) :
    t_.pending = s.pending := by
  simp only [execResetAssert] at h
  repeat' split at h
  all_goals (cases h; simp)
theorem execPorstRelease_pending (t : Tick) (mode : BitVec 2) (s : State) {t_ : State} (h : execPorstRelease t mode s = .next t_) :
    t_.pending = s.pending := by
  simp only [execPorstRelease, Host.Outcome.next.injEq] at h
  subst h
  simp
theorem execSysrstRelease_pending (t : Tick) (mode : BitVec 2) (s : State) {t_ : State} (h : execSysrstRelease t mode s = .next t_) :
    t_.pending = s.pending := by
  simp only [execSysrstRelease] at h
  repeat' split at h
  all_goals (cases h; simp)

end Sys2Proof.Machine
end

