-- ==== Sys2Proof/Tests/Slice0.lean ====
section
/-!
SUPPORT. Tests: ill-formed commands that WellFormed refuses, for each statement with hypotheses states and operands that meet them
(clause by clause, at boundary values), and the worked examples of the spec.
-/
set_option Elab.async false
set_option maxRecDepth 4000
namespace Sys2Proof.Tests
open Sys2Proof.Machine

/-! ## Small states -/

/-- A state with quad 0 set up. -/
def qs (x : QuadState) : State := setQuad 0 x State.reset

/-- A configuration of an enabled quad with a role. -/
def cfgOf (role : Nat) : Reg := BitVec.ofNat 32 (1 + 2 * role)

/-- A state whose quad 0 is enabled with a role. -/
def qr (role : Nat) : State := qs { QuadState.reset with cfg := cfgOf role }

/-- A plan of one channel, whose strokes have 256 frames, with elements given by number. -/
def planV (els : Nat) : Plan := ⟨0, 6, 4, 1000, 0, 2, 0, 1, 1, 1, 0, 0, [⟨0, 0, 0, els⟩], [⟨0, 4, true⟩], 0⟩

/-- Milliseconds and microseconds as ticks. -/
def ms (n : Nat) : Nat := (n * tickHz + 999) / 1000
def us (n : Nat) : Nat := (n * tickHz + 999999) / 1000000

/-- A descriptor with its parameter bytes, padded to 32. -/
def desc (len : Nat) (ps : Bytes) : Desc := ⟨0, 0, 7, 0x1000, BitVec.ofNat 32 len, 0, 0, ps ++ zeros (32 - ps.length), 0⟩

/-- A frame with good CRC. -/
def frm (profile kind : Nat) (data : Bytes) : RawFrame := mkFrame profile kind data

/-! ## Ill-formed commands are refused -/

theorem test_wf_params : Instr.wf (.nop 0 { desc 0 [] with params := [] } []) = false := by decide
theorem test_wf_data : Instr.wf (.scheduleLoad 0 (desc 4 []) [1, 2]) = false := by decide
theorem test_wf_data_ok : Instr.wf (.scheduleLoad 0 (desc 2 []) [1, 2]) = true := by decide
theorem test_wf_doorbell : Instr.wf (.doorbellPoll 0 [0]) = false := by decide
theorem test_wf_descriptor : Instr.wf (.descriptorFetched 0 (zeros 63) []) = false := by decide
theorem test_wf_read_failed : Instr.wf (.commandReadFailed 0 (some (zeros 65)) .timeout) = false := by decide
theorem test_wf_source : Instr.wf (.sourceRingRead 0 0 (some (zeros 4097))) = false := by decide +kernel
theorem test_wf_link : Instr.wf (.pcieLinkTrained 0 0 ⟨4, ⟨true, 0, 0⟩⟩) = false := by decide
theorem test_wf_access : Instr.wf (.registerWrite 0 .hostBridge 0 .w8 256) = false := by decide
theorem test_wf_failed_twice : Instr.wf (.firmwareReady 0 [3, 3]) = false := by decide
theorem test_wf_temps : Instr.wf (.thermalSample 0 (Vector.replicate 17 2048000)) = false := by decide +kernel
theorem test_wf_bank : Instr.wf (.segmentReadoutDone 0 0 0 2 []) = false := by decide
theorem test_wf_ecc : Instr.wf (.engineSlotStart 0 0 [⟨2 ^ 32, true⟩]) = false := by decide
theorem test_wf_frame : Instr.wf (.ingestFrame 0 0 { frm 1 0 [] with data := [0] }) = false := by decide +kernel
theorem test_wf_drive_frame : Instr.wf (.driveFrameSend 0 0 0 0 0 0 1 []) = false := by decide
theorem test_wf_markers : Instr.wf (.alignmentMarker 0 0 [⟨1, 0, 0, false⟩, ⟨1, 0, 0, false⟩]) = false := by decide
theorem test_wf_payload : Instr.wf (.pairHalfArrival 0 ⟨0, .splitWrite, false, false, 0, zeros 65⟩) = false := by decide +kernel

/-! ## States and operands that meet the hypotheses of the statements, clause by clause -/

theorem test_met_StepTakesTheFrontCommand : State.reset.pending = [] := rfl

/-- A step that answers a next state, with a well-formed command at the front. -/
theorem test_met_EveryStepConsumesOneCommand :
    step { State.reset with pending := [.adaptationDone 0 0] } = .next State.reset ∧ Instr.wf (.adaptationDone 0 0) = true := ⟨rfl, rfl⟩

/-- A key store at the bound of its raises, with the debug fuse burnt. -/
def fusedS : State := { State.reset with boot.fuses := { Fuses.reset with raises := 64, dbgFused := true }, pending := [.adaptationDone 0 0] }

theorem test_met_KeyStoreOnlyTightens :
    fusedS.boot.fuses.raises ≤ 64 ∧ fusedS.boot.fuses.dbgFused = true ∧ step fusedS = .next { fusedS with pending := [] } := ⟨by decide, rfl, rfl⟩

/-- PPSOUT is high, and falls at 100 ms exactly. -/
theorem test_met_TimeOnlyAdvances :
    ({ State.reset with tb.ppsRise := some 0 }).tb.ppsRise = some 0 ∧ State.reset.tb.ppsRise = none ∧
    ({ State.reset with tb.ppsRise := some 0 }.advance (ms 100 - 1)).tb.ppsRise = some 0 ∧
    ({ State.reset with tb.ppsRise := some 0 }.advance (ms 100)).tb.ppsRise = none ∧
    State.reset.tb.walking = false ∧ (State.reset.tb.freq - refFreq State.reset).natAbs ≤ 50000 * 2 ^ 32 ∧
    (let u := { State.reset with tb.walking := true }
     u.tb.walking = true ∧ gated u = true ∧ gated { u with tb.gates := Vector.replicate 3 ⟨false, 0, 0⟩ } = false) := by decide +kernel

theorem test_met_CompletionsAreNeverDropped : cplRoom State.reset = false ∧ State.reset.host.owed.length < 2 ^ 31 := by decide +kernel

/-- Quad 0 enabled, lane 0 as given. -/
def laneS (role : Nat) (x : LaneState) : State := setLane 0 x (qr role)

/-- The bits of `n` blocks with a valid header, or with an invalid one. -/
def okBits (n : Nat) : List Bool := (List.replicate n (true :: List.replicate 65 false)).flatten
def badBits (n : Nat) : List Bool := (List.replicate n (List.replicate 66 false)).flatten
/-- A block receiver as reset, out of lock or in it. -/
def stepX (locked : Bool) : RxStep := ⟨BlockRx.reset, locked, 0, 0, false, 0⟩

/-- What the receiver of lane 0 makes of the bits that arrive. -/
def rxOf (bits : List Bool) (u : State) : LaneState :=
  let r := receiveBits 0 true bits u
  rxLane (delivers r.2 0) (bitTime r.2.tw (laneRate (fld (quadOf r.2 0).cfg 5 2))) r.2.now r.1 (laneOf r.2 0)

theorem test_met_LaneLockFollowsTheHeaders :
    ((stepX false).rx.have_ = 0 ∧ (stepX false).rx.slip = 0 ∧ (stepX false).rx.acc = 0 ∧ (stepX false).rx.hunt = 0 ∧ (stepX true).rx.grpN = 0 ∧
      (stepX true).rx.grpBad = 0) ∧
    (∀ l ∈ [(64, 0), (1, 1), (64, 15), (16, 16)], let ws : List (BitVec 66) := List.replicate (l.1 - l.2) 1 ++ List.replicate l.2 0
     ws.length = l.1 ∧ ws.countP (fun w => w.getLsbD 0 == w.getLsbD 1) = l.2 ∧ (l.2 = 16 → ws.getLast? = some 0)) ∧
    (∀ a ∈ ([0, 0x2000] : List Nat), let u := laneS 1 { LaneState.reset with eq := BitVec.ofNat 32 a, rx := { BlockRx.reset with hunt := 63 } }
     let x := laneOf (receiveBits 0 true (okBits 1) u).2 0; let y := rxOf (okBits 1) u
     laneUsed u 0 = true ∧ rxAsleep u 0 = false ∧ quadHas u 0 0 = false ∧ x.adapting = false ∧ x.lock = false ∧ y.lock = true ∧ rbit x.eq 13 = decide (a = 0x2000)) ∧
    (let u := laneS 1 { LaneState.reset with lock := true, rx := { BlockRx.reset with grpBad := 15 } }
     let x := laneOf (receiveBits 0 true (badBits 1) u).2 0; let y := rxOf (badBits 1) u
     x.adapting = false ∧ x.lock = true ∧ y.lock = false) := by
  repeat' (refine And.intro ?_ ?_)
  all_goals decide +kernel

theorem test_met_LaneLockFollowsTheHeaders_retrain :
    (∀ a ∈ [(false, 2), (false, 3), (true, 2)], let u := (laneS 1 { LaneState.reset with adapting := a.1, retrains := a.2 }).advance (ms (if a.1 then 51 else 1))
     let x := laneOf u 0
     laneUsed u 0 = true ∧ x.lock = false ∧ rxAsleep u 0 = false ∧ x.fault = false ∧ (x.retrains < 3 ∨ 3 ≤ x.retrains) ∧
      (if x.adapting then 51 else 1) * tickHz ≤ (u.now - x.outSince) * 1000) ∧
    (let u := (laneS 1 { LaneState.reset with fault := true }).advance tickHz
     (laneOf u 0).fault = true ∧ 1000 * tickHz ≤ (u.now - (laneOf u 0).outSince) * 1000) ∧
    (laneOf (laneS 1 { LaneState.reset with adapting := true }) 0).adapting = true := by
  repeat' (refine And.intro ?_ ?_)
  all_goals decide +kernel

/-- A one-lane quad of role 1 with its lane locked, and the marker that aligns it. -/
def alignS (role : Nat) : State :=
  setLane 0 { LaneState.reset with lock := true } (qs { QuadState.reset with cfg := cfgOf role ||| 0x100 })
def goodMarker : MarkerSeen := ⟨0, 0x00000001000008D1, 0, true⟩

theorem test_met_QuadAlignsOnAGoodMarkerSet :
    rbit (quadOf (alignS 1) 0).cfg 0 = true ∧ rxAsleep (alignS 1) 0 = false ∧ markersGood (alignS 1) 0 [goodMarker] = true ∧
    (quadOf (alignS 1) 0).up = false ∧ retries (alignS 1) 0 = false ∧ markersGood (alignS 1) 0 [] = false ∧
    (let u := setQuad 0 { quadOf (alignS 1) 0 with up := true } (alignS 1)
     markersGood u 0 [goodMarker] = true ∧ (quadOf u 0).up = true) := by decide +kernel

theorem test_met_PatternLockAndItsLoss :
    LaneTx.reset.inject = 0 ∧ Checker.reset.grpN = 0 ∧ Checker.reset.grpBad = 0 ∧
    checkerOn (laneS 0 { LaneState.reset with test := 8 }) 0 = true ∧ loopOf (laneS 0 { LaneState.reset with test := 8 }) 0 = 0 ∧
    genOn (laneS 0 { LaneState.reset with test := 8 }) 0 = false := by decide +kernel

/-- Quad 0 of role 1 with TX_MODE, TX_IDLE, RX_ACCEPT as given. -/
def sleepS (cfg : Reg) (x : QuadState) : State := qs { x with cfg := cfgOf 1, sleepCfg := cfg }

theorem test_met_SleepRequestIsMadeAndAnswered :
    (let u := (sleepS 0x00040005 QuadState.reset).advance (us 1); let x := quadOf u 0
     rbit x.cfg 0 = true ∧ 1 ≤ min (fld x.sleepCfg 0 2) (txAllowed u 0) ∧ x.tx.st = .active ∧ x.tx.reqAt = none ∧ x.txq = [] ∧
      max 1 (fld x.sleepCfg 2 14) * tickHz ≤ (u.now - x.tx.idleAt) * 1000000) ∧
    (let u := sleepS 0x00010005 { QuadState.reset with up := true }; let x := quadOf u 0; let b := sleepBlock 1 3 1
     x.up = true ∧ ctlGood b = true ∧ isSleep b 1 = true ∧ ctlParam b % 4 ≠ 3 ∧
      1 ≤ min (ctlParam b % 4) (min (fld x.sleepCfg 16 2) (rxAllowed u 0))) ∧
    (let b := sleepBlock 1 3 3; ctlGood b = true ∧ isSleep b 1 = true ∧ ctlParam b % 4 = 3) ∧
    (let u := sleepS 0 { QuadState.reset with up := true }; let x := quadOf u 0; let b := sleepBlock 1 3 1
     x.up = true ∧ ctlGood b = true ∧ isSleep b 1 = true ∧ min (ctlParam b % 4) (min (fld x.sleepCfg 16 2) (rxAllowed u 0)) = 0) := by
  decide +kernel

/-- Quad 0, up, of a role, with its two sleep records as given. -/
def upS (role : Nat) (tx : TxSleep) (rx : RxSleep) : State := qs { QuadState.reset with cfg := cfgOf role, up := true, tx := tx, rx := rx }

theorem test_met_SleepHandshakeCommitsOrAborts :
    (∀ wake ∈ [false, true], let u := upS 1 { QuadState.reset.tx with token := 5, reqAt := some 0, wakeSeen := wake } QuadState.reset.rx
     let x := quadOf u 0
     rbit x.cfg 0 = true ∧ x.up = true ∧ (∀ op ∈ [2, 3], ctlGood (sleepBlock op 5 1) = true ∧ isSleep (sleepBlock op 5 1) op = true ∧
      ctlHi (sleepBlock op 5 1) = x.tx.token) ∧ x.tx.reqAt ≠ none ∧ x.held = [] ∧ x.txq = [] ∧ x.tx.wakeSeen = wake ∧
      1 ≤ min (ctlParam (sleepBlock 2 5 1) % 4) (txAllowed u 0) ∧ min (ctlParam (sleepBlock 2 5 0) % 4) (txAllowed u 0) = 0) ∧
    (let u := (upS 1 { QuadState.reset.tx with reqAt := some 0 } QuadState.reset.rx).advance (us 250)
     (quadOf u 0).tx.reqAt = some 0 ∧ 250 * tickHz ≤ (u.now - 0) * 1000000) ∧
    (∀ r ∈ [1, 2], let u := upS r QuadState.reset.tx { QuadState.reset.rx with token := 5, ackAt := some 0 }; let x := quadOf u 0
     (∀ op ∈ [4, 5], ctlGood (sleepBlock op 5 1) = true ∧ isSleep (sleepBlock op 5 1) op = true) ∧ x.rx.ackAt ≠ none ∧
      ctlHi (sleepBlock 4 5 1) = x.rx.token ∧ (1 ≤ rxAllowed u 0 ∧ r = 1 ∨ rxAllowed u 0 = 0 ∧ r = 2)) ∧
    (let u := (upS 1 QuadState.reset.tx { QuadState.reset.rx with ackAt := some 0 }).advance (250 * tickHz / 1000000)
     (quadOf u 0).rx.ackAt = some 0 ∧ (u.now - 0) * 1000000 ≤ 250 * tickHz ∧ 1 ≤ rxAllowed u 0) := by decide +kernel

theorem test_met_SleepAndWake :
    (let u := (upS 1 { QuadState.reset.tx with st := .doze, granted := 2, sleepAfter := 4 }
                { QuadState.reset.rx with st := .doze, granted := 2, sleepAfter := 4 }).advance (ms 4)
     let x := quadOf u 0
     rbit x.cfg 0 = true ∧ x.tx.st = .doze ∧ x.tx.granted = 2 ∧ txAllowed u 0 = 2 ∧ x.tx.sleepAfter * tickHz ≤ (u.now - x.tx.since) * 1000 ∧
      x.rx.st = .doze ∧ x.rx.granted = 2 ∧ rxAllowed u 0 = 2 ∧ x.rx.sleepAfter * tickHz ≤ (u.now - x.rx.since) * 1000 ∧ x.tx.reqAt = none ∧
      x.up = true ∧ rxAsleep u 0 = true) ∧
    (let b := sleepBlock 6 0 0; ctlGood b = true ∧ isSleep b 6 = true) ∧
    (quadOf (upS 1 { QuadState.reset.tx with reqAt := some 0 } QuadState.reset.rx) 0).tx.reqAt ≠ none ∧
    (quadOf (upS 1 { QuadState.reset.tx with st := .waking } QuadState.reset.rx) 0).tx.st = .waking := by decide +kernel

theorem test_met_BrokenControlBlocksAreCounted :
    (quadOf (upS 4 QuadState.reset.tx QuadState.reset.rx) 0).up = true ∧
    (∀ k ∈ ([0x2D, 0x33, 0x55] : List Nat), let t : BitVec 64 := BitVec.ofNat 64 k; (t.extractLsb' 0 8 = 0x2D ∨ t.extractLsb' 0 8 = 0x33 ∨ t.extractLsb' 0 8 = 0x55) ∧
      (t ||| 0x0000000100000000).extractLsb' 32 8 ≠ 0 ∧ t.extractLsb' 40 24 ≠ ~~~ (t.extractLsb' 8 24)) ∧
    ctlTypes.contains ((0xFF : BitVec 64).extractLsb' 0 8).toNat = false ∧ 0xFF < 256 ∧ 0xFFFF < 65536 := by decide +kernel

theorem test_met_AcknowledgementMovesTheWindow :
    (let u := (qs { QuadState.reset with cfg := cfgOf 4, up := true, txSeq := 1, oldest := 65535 }).advance (us 100); let x := quadOf u 0
     rbit x.cfg 0 = true ∧ x.up = true ∧ retries u 0 = true ∧ ctlGood (seqBlock 1 0 65535) = true ∧ isSeq (seqBlock 1 0 65535) 1 = true ∧
      seqDist x.oldest (ctlParam (seqBlock 1 0 65535)) < seqDist x.oldest x.txSeq ∧
      ctlGood (seqBlock 2 0 1) = true ∧ isSeq (seqBlock 2 0 1) 2 = true ∧
      seqDist x.oldest (ctlParam (seqBlock 2 0 1)) ≤ seqDist x.oldest x.txSeq ∧
      x.oldest ≠ x.txSeq ∧ max 1 (fld x.linkCfg 0 14) * tickHz ≤ (u.now - x.ackAt) * 1000000) := by decide +kernel

theorem test_met_ReceiverTakesTheExpectedFrameOnce : (quadOf (qs { QuadState.reset with expect := 65535 }) 0).expect < 65536 ∧
    ((false = false ∨ (0 : Nat) ≠ 65535) ∧ ((true = false) ∨ (0 : Nat) ≠ 65535)) := by decide +kernel

theorem test_met_CreditIsCumulative :
    (∀ vc ∈ [0, 1], ctlGood (creditBlock vc 65535) = true ∧ blkByte (creditBlock vc 65535) 0 = 0x2D ∧ ctlHi (creditBlock vc 65535) = 0 ∧
      ctlOp (creditBlock vc 65535) = vc) ∧
    quadRole (qr 6) 0 = 6 ∧ quadRole (qr 7) 0 = 7 ∧ quadRole (qr 4) 0 = 4 ∧ quadRole (qr 5) 0 = 5 ∧ rbit (quadOf (qr 7) 0).cfg 0 = true ∧
    (quadOf (upS 7 QuadState.reset.tx QuadState.reset.rx) 0).up = true ∧
    (roleVcs (quadRole (qr 4) 0)).contains 1 = true ∧ (roleVcs (quadRole (qr 5) 0)).contains 0 = true := by decide +kernel

/-- A mesh of 4 by 4 in which this device is chip 0, with quad 0 up. -/
def meshS : State :=
  { qs { QuadState.reset with cfg := cfgOf 4, up := true } with
    link.fwd := [(7, ⟨1, 0, 0, 0, 0, 0, zeros 64, 3, 0⟩)] }
/-- A link-state frame of chip 1 for chip 0. -/
def lsFrame : RawFrame := frm 4 2 (zeros 16 ++ le 2 1 ++ le 2 0 ++ le 4 9 ++ le 1 15 ++ zeros 7)

/-- A batch of plan 15, stroke 0, that this device sent to chip 1, kept as sequence 6. -/
def sentBatch : Bytes := le 2 6 ++ le 2 1 ++ le 2 0 ++ zeros 10 ++ [15, 0] ++ le 2 0 ++ le 4 1 ++ zeros 40
def noticeS : State :=
  { qs { QuadState.reset with cfg := cfgOf 4, up := true, replayBuf := [⟨5, 0, 0, zeros 8, true, false⟩, ⟨6, 0, 0, sentBatch, false, false⟩] } with
    chan.send := [(15 * 65536, SendState.empty)], chan.plans := [(15, [planV 1])] }

theorem test_met_MeshLinksKeepTheirState :
    (let u := meshS.advance (ms 1)
     Tab.get u.link.fwd 7 = some ⟨1, 0, 0, 0, 0, 0, zeros 64, 3, 0⟩ ∧ tickHz ≤ (u.now - 0) * 1000 ∧
      creditLeft (quadOf u 0) 0 < credits (blocksOf (zeros 64))) ∧
    (quadHas noticeS 0 4 = true ∧ (quadOf noticeS 0).up = true ∧
      (∀ c ∈ [(1, 5), (2, 6)], ctlGood (seqBlock 3 c.1 c.2) = true ∧ isSeq (seqBlock 3 c.1 c.2) 3 = true ∧ ctlHi (seqBlock 3 c.1 c.2) = c.1) ∧
      (quadOf noticeS 0).replayBuf.find? (fun r => decide (r.seq = ctlParam (seqBlock 3 1 5)) && !r.told) = some ⟨5, 0, 0, zeros 8, true, false⟩ ∧
      (quadOf noticeS 0).replayBuf.find? (fun r => decide (r.seq = ctlParam (seqBlock 3 2 6)) && !r.told) = some ⟨6, 0, 0, sentBatch, false, false⟩ ∧
      fieldU sentBatch 4 2 = noticeS.chip ∧
      (let key := fieldU sentBatch 16 1 * 65536 + fieldU sentBatch 18 2
       Tab.get noticeS.chan.send key = some SendState.empty ∧
        planFor noticeS (key / 65536) (key % 65536) (fieldU sentBatch 20 4) (fieldU sentBatch 24 8) = some (planV 1))) ∧
    (quadHas meshS 0 4 = true ∧ (quadOf meshS 0).up = true ∧ meshFits lsFrame = true ∧ lsFrame.kind.toNat = 2 ∧ lsFrame.spoilt = false ∧
      fieldU lsFrame.data 0 2 = (quadOf meshS 0).expect ∧ fieldU lsFrame.data 2 2 = routeChip meshS ∧
      routeChip meshS < xdim meshS * ydim meshS ∧ Tab.get meshS.link.links (fieldU lsFrame.data 16 2) = none ∧
      fieldU lsFrame.data 16 2 ≠ routeChip meshS) := by decide +kernel
/-- A device out of reset and ready. -/
def readyS : State := { State.reset with boot.ready := true }

theorem test_met_HostRegisterWritesReachTheirRegister :
    (inReset readyS = false ∧ readyS.boot.ready = true ∧ reaches readyS .hostBridge .banks = true ∧ readyS.mgmt.locks = [] ∧
      readyS.host.slow = false ∧ outstanding readyS .hostBridge = false) ∧
    (let u := { State.reset with boot.phase := 2, boot.goes := 2 }
     inReset u = false ∧ rbit 1 0 = true ∧ u.boot.phase = 2 ∧ u.boot.reading = none ∧ u.boot.goes < 3) ∧
    (∀ n : Fin 4, reservedCode (.refCfg n.val) 1 = false) ∧ reservedCode (.laneTest 63) 0x2D = false ∧ reservedCode (.quadCfg 15) 0x111 = false ∧
    reservedCode (.winCfg 15) 0x11 = false := by decide +kernel

theorem test_met_RegisterWidthsAndBanks :
    (3 % accBytes .w16 ≠ 0 ∧ 3 % accBytes .w64 ≠ 0) ∧ (0x20003 % accBytes .w8 = 0 ∧ 0xA0002 % accBytes .w16 = 0 ∧ bankServed State.reset 0x20003 = false) ∧ ((0x49FFFF : BitVec 32).toNat % 2 ^ 22 < 0xA0000) ∧
    (∀ k ∈ ([0xA0000, 0xFFFFFFFC] : List Nat), let a : BitVec 32 := BitVec.ofNat 32 k; 0xA0000 ≤ a.toNat % 2 ^ 22 ∧ a.toNat % 2 ^ 22 % 4 = 0) ∧
    (∀ k ∈ ([0x10000, 0x47FFFC] : List Nat), let a : BitVec 32 := BitVec.ofNat 32 k; 0x10000 ≤ a.toNat % 2 ^ 22 ∧ a.toNat % 2 ^ 22 < 0x80000 ∧ a.toNat % 2 ^ 22 % 4 = 0) ∧
    (∀ s ∈ [State.reset, readyS], inReset s = false ∧ reaches s .hostBridge .banks = true ∧ s.mgmt.locks = [] ∧ s.host.slow = false ∧
      outstanding s .hostBridge = false) ∧ State.reset.boot.ready = false ∧ readyS.boot.ready = true ∧
    (regAt 0x20040 = some (.refCfg 0) ∧ reservedCode (.refCfg 0) ((6 : BitVec 64).setWidth 32) = true ∧ 0x20040 % 4 = 0) ∧
    (∀ k ∈ ([0x10400000, 0xFFFFFFFF] : List Nat), xTarget readyS (BitVec.ofNat 32 k).toNat = none) := by decide +kernel

theorem test_met_LockedSequencesHoldTheTarget :
    State.reset.mgmt.locks = [] ∧ outstanding State.reset (.core 3) = false ∧ State.reset.host.slow = false ∧
    (let u := ({ State.reset with mgmt.locks := [(.banks, ⟨.core 1, 31, 0, false⟩)] }).advance (us 5)
     u.mgmt.locks = [(.banks, ⟨.core 1, 31, 0, false⟩)] ∧ 5 * tickHz ≤ (u.now - 0) * 1000000) ∧ (32 ≤ 32) := by decide +kernel

theorem test_met_SecurityControlActs :
    (let s := { State.reset with boot.fwSlot := some 3, boot.fwSvn := 5, boot.fuses := { Fuses.reset with raises := 63 } }
     s.boot.fwSlot ≠ none ∧ s.boot.fuses.svnMin < s.boot.fwSvn.toNat ∧ s.boot.fuses.raises < 64 ∧ s.boot.fwSlot = some 3) ∧
    64 ≤ ({ Fuses.reset with raises := 64 }).raises ∧ State.reset.boot.fwSvn.toNat ≤ State.reset.boot.fuses.svnMin := by decide +kernel

/-- Reference 0 as given. -/
def refS (r : RefState) : State := setRef 0 r State.reset

theorem test_met_ReferencesQualifyAndFail :
    (let r := refOf (refS { RefState.reset with st := .qualifying, inBand := 99 }) 0
     r.st = .qualifying ∧ r.inBand = 99 ∧ (2000 : Int).natAbs ≤ 2000 ∧ (-2000 : Int).natAbs ≤ 2000 ∧ 2000 < (-2001 : Int).natAbs) ∧
    ((refOf (refS { RefState.reset with st := .qualified }) 0).st = .qualified ∧ 4000 < (4001 : Int).natAbs) ∧
    inactiveHolds State.reset 0 .noEdge = true ∧ State.reset.tb.sel = none ∧
    (let u := ({ State.reset with tb.sel := some 3, tb.st := .pullIn }).advance (10 * tickHz)
     (u.tb.freq - refFreq u).natAbs ≤ 50000 * 2 ^ 32 ∧
     u.tb.sel = some 3 ∧ u.tb.st = .pullIn ∧ (50 : Int).natAbs ≤ 50 ∧ refTime u 3 = false ∧ 10000 * tickHz ≤ (u.now - u.tb.lockFrom) * 1000 ∧
      50 < (-51 : Int).natAbs) ∧
    (let u := ({ State.reset with tb.sel := some 3, tb.st := .pullIn }).advance (10 * tickHz - 1)
     (u.now - u.tb.lockFrom) * 1000 < 10000 * tickHz) ∧
    (let u := { refS { RefState.reset with timeValid := true } with tb.refCfg := vset State.reset.tb.refCfg 0 9 }
     refTime u 0 = true) ∧
    (let u := ({ State.reset with tb.st := .locked }).advance tickHz; u.tb.st = .locked ∧ tickHz ≤ u.now - u.tb.histFrom) ∧
    (let u := ({ State.reset with tb.st := .locked }).advance (tickHz - 1); u.now - u.tb.histFrom < tickHz) ∧
    (let u := { State.reset with tb.freq := 50001 * 2 ^ 32 }; ¬ (u.tb.freq - refFreq u).natAbs ≤ 50000 * 2 ^ 32) := by decide +kernel

theorem test_met_TimeIsTakenFromTheReference :
    (refOf State.reset 0).lastAt = none ∧
    (let u := (refS { RefState.reset with lastAt := some 0 }).advance (ms 1100); (refOf u 0).lastAt = some 0 ∧ 1100 * tickHz ≤ (u.now - 0) * 1000) ∧
    (let u := qs { QuadState.reset with cfg := cfgOf 8, up := true }; let f := frm 8 0 ([15, 3] ++ zeros 30)
     quadHas u 0 8 = true ∧ (quadOf u 0).lastT = none ∧ (quadOf u 0).up = true ∧ ({ f with damaged := true }).damaged = true ∧
      (∀ k ∈ ([2, 3] : List Nat), rbit (vget u.tb.refCfg k 0) 0 = false) ∧ frameGood f = true ∧ frameIs f 8 0 = true ∧ f.n.toNat = 4 ∧
      fieldU f.data 0 1 < 16 ∧ fieldU f.data 1 1 < 4 ∧ fieldU f.data 2 2 = 0 ∧ (quadOf u 0).echoAt = none) := by decide +kernel

theorem test_met_TimeSetLoadsAtOnce :
    inReset readyS = false ∧ readyS.boot.ready = true ∧ reaches readyS .hostBridge .banks = true ∧ readyS.mgmt.locks = [] ∧ readyS.host.slow = false ∧
    outstanding readyS .hostBridge = false ∧ rbit 1 0 = true ∧ anyActive readyS = false ∧ readyS.tb.armed = false ∧ readyS.tb.sel = none ∧ readyS.tb.freq = 0 ∧ dpllGoal readyS = 0 := by decide +kernel

/-- A walk with O as given, at 10 ns per second (2 ns of the reset value of WALK_RATE is code 10). -/
def walkS (o : Int) : State :=
  { State.reset with tb.walking := true, tb.oNano := o, tb.ctl := 0x14, tb.gates := Vector.replicate 3 ⟨false, 0, 0⟩ }

theorem test_met_OffsetWalksToZero :
    (let step : Nat := 2 ^ 32 * min 10 (max 1 (fld (walkS 0).tb.ctl 1 4))
     (walkS 0).tb.walking = true ∧ gated (walkS 0) = false ∧ gated { State.reset with tb.walking := true } = true ∧
      (∀ o ∈ [(step : Int), -(step : Int) - 1], step ≤ (walkS o).tb.oNano.natAbs) ∧ (∀ o ∈ [(step : Int), 0], (walkS o).tb.oNano.natAbs ≤ step)) ∧
    (let u := walkS 5; u.tb.walking = true ∧ rbit (u.tb.ctl ||| 1) 0 = true ∧ u.tb.oNano ≠ 0) ∧ (walkS 0).tb.oNano = 0 ∧
    State.reset.boot.phase ≠ 15 ∧ ({ State.reset with boot.phase := 15 }).boot.phase = 15 ∧
    (let u := State.reset.advance (ms 10)
     (vget u.tb.gates 2 ⟨false, 0, 0⟩).closed = true ∧ 10 * tickHz ≤ (u.now - (vget u.tb.gates 2 ⟨false, 0, 0⟩).since) * 1000) ∧
    ((State.reset.advance 21).tw % tickHz ≤ 21) ∧ tickHz - 21 ≤ (State.reset.advance (tickHz - 21)).tw % tickHz := by decide +kernel

/-- R418: a stack reading of 105 °C is Tmax + 10 °C of a stack; one of 104 °C only alerts. -/
theorem test_hbm_temp_trip : (match execHbmTempRead 0 3 (some 105) State.reset, execHbmTempRead 0 3 (some 104) State.reset with
    | .next a, .next b => a.mgmt.trip && b.mgmt.hot && !b.mgmt.trip && decide (b.mgmt.log.length = 2)
    | _, _ => false) = true := by decide +kernel

/-- R418: at 94 °C a stack is warm, at 89 °C it is not. -/
theorem test_hbm_temp_warm : (match execHbmTempRead 0 0 (some 94) State.reset, execHbmTempRead 0 0 (some 89) State.reset with
    | .next a, .next b => a.mgmt.warm && !a.mgmt.hot && !b.mgmt.warm
    | _, _ => false) = true := by decide +kernel

theorem test_met_MemoryKeepsItself :
    (let u := { State.reset with hbm.replays := [(63, 3)], hbm.ctl := 2 }
     u.hbm.chFail.getLsbD 63 = false ∧ 3 ≤ Tab.getD u.hbm.replays 63 0 ∧ u.hbm.trainDone = false ∧ refreshDue u 127 = true ∧ tempDue u 3 = true ∧
      u.pins.vcore = true ∧ (∀ w ∈ [0, 7], let v := scrubPass { u with hbm.skipped := [7] }
        scrubDue v w = true ∧ wordTile v w = none)) ∧
    (let u := { State.reset with hbm.refreshAt := [(0, 0)], hbm.trainDone := true }; refreshDue (u.advance 8375) 0 = false) ∧
    (∀ n ∈ [1, 2], Tab.getD ({ State.reset with hbm.replays := [(63, n)] }).hbm.replays 63 0 = n ∧ 0 < n ∧ n < 3) ∧
    (let w := regionBase State.reset 6 / 32
     let u := { State.reset with
       hbm.ctl := 2, hbm.skipped := [w], hbm.pairs := [(9, ⟨.inkwellUpdate 0, false, 0, [], false, 0, .opened⟩)] }
     scrubDue (scrubPass u) w = true ∧ wordTile (scrubPass u) w = some 0 ∧ tileOpen (scrubPass u) 0 = true) := by decide +kernel

/-- A half of a split write, and the pair its first half opened. -/
def halfOf (second : Bool) : PairHalf := ⟨9, .splitWrite, second, false, 1, zeros 32⟩
def pairOf (st : PairSt) : State := { State.reset with hbm.pairs := [(9, ⟨.splitWrite, false, 1, zeros 32, false, 0, st⟩)] }

theorem test_met_PairedBurstsApplyWhole :
    (Tab.get State.reset.hbm.pairs (halfOf false).tag.toNat = none ∧ mustWait State.reset (halfOf false) = false ∧ State.reset.hbm.waiting = []) ∧
    (let u := (pairOf .opened).advance (64 * tickHz / 1000000)
     Tab.get u.hbm.pairs (halfOf true).tag.toNat = some ⟨.splitWrite, false, 1, zeros 32, false, 0, .opened⟩ ∧
      (u.now - 0) * 1000000 < 64 * tickHz ∧ (halfOf true).second = true ∧ u.hbm.waiting = []) ∧
    (∀ st ∈ [PairSt.opened, .discarded], let u := (pairOf st).advance (us 128)
     Tab.get u.hbm.pairs 9 = some ⟨.splitWrite, false, 1, zeros 32, false, 0, st⟩ ∧ 128 * tickHz ≤ (u.now - 0) * 1000000 ∧ u.hbm.waiting = []) ∧
    (let u := (pairOf .opened).advance (us 64)
     Tab.get u.hbm.pairs 9 = some ⟨.splitWrite, false, 1, zeros 32, false, 0, .opened⟩ ∧ 64 * tickHz ≤ (u.now - 0) * 1000000 ∧ u.hbm.waiting = []) := by decide +kernel

/-- Domain 0 as given. -/
def domS (m : Domain) : State := setDom 0 m State.reset

theorem test_met_VoltageFollowsTheSlack :
    (let u := domS { Domain.reset false with slacks := [(-1, 4)] }; let m := domOf u 0
     lowSlack m.slacks = some (-1, 4) ∧ m.lost = false ∧ u.mgmt.trip = false ∧ m.stepAt = none ∧ m.vnow < domCeil u 0 ∧ m.capped = false) ∧
    (let u := domS { Domain.reset false with slacks := List.replicate 64 (1, 4), since := 64 }; let m := domOf u 0
     lowSlack m.slacks = some (1, 4) ∧ (4 : Int) ≤ 1 * 4 ∧ m.lost = false ∧ u.mgmt.trip = false ∧ m.stepAt = none ∧ 64 ≤ m.since ∧ m.slacks.length = 64 ∧ 0 < m.vnow) ∧
    (let u := (domS { Domain.reset false with stepAt := some 0 }).advance (us 20)
     (domOf u 0).stepAt = some 0) ∧
    (let u := domS { Domain.reset false with pceil := 7 }; (domOf u 0).lost = false ∧ (domOf u 0).stepAt = none ∧ domCeil u 0 < (domOf u 0).vnow) ∧
    ((domOf (notePowers (Vector.replicate 17 0) State.reset) 16).lost = false ∧ pcapMw State.reset < pcapMw State.reset + 1) := by decide +kernel

theorem test_met_ThermalLimitsAct :
    (let v := Vector.replicate 17 (1000 * (tmax State.reset : Int) + 10000)
     State.reset.pins.vcore = true ∧ ∃ x, hottest (thermalReadings (noteTemps v State.reset) v) = some x ∧ 10000 ≤ x.2.2) ∧
    (let u := { State.reset with pins.vio := true, pins.vcore := true }; u.pins.vio = true ∧ u.pins.vcore = true ∧ u.boot.ready = false) ∧
    (let u := { State.reset with pins.vcore := false }; u.pins.vcore = false ∧ (u.pins.vio && u.pins.vcore) = false) ∧
    (let u := ({ State.reset with mgmt.hot := true }).advance (ms 10); u.mgmt.hot = true ∧ 10 * tickHz ≤ (u.now - u.mgmt.tceilAt) * 1000) ∧
    ((domOf State.reset 15).lost = false ∧ (domOf State.reset 16).lost = false) ∧
    (let a : WinAcc := ⟨0, 0, 0, 0, 1, 0, 0, 0, 0, 0, 0, Vector.replicate 32 0, false⟩
     let u := (setWin 15 { Window.reset with len := 1, acc := some a } State.reset).advance (ms 1)
     (winOf u 15).acc = some a ∧ fld (winOf u 15).len 0 16 ≠ 0 ∧ fld (winOf u 15).len 0 16 * tickHz ≤ (u.now - a.startAt) * 1000) := by
  refine ⟨⟨?_, (0, 1000 * (tmax State.reset : Int) + 10000, 10000), ?_⟩, ?_, ?_, ?_, ?_, ?_⟩ <;> decide +kernel

theorem test_met_ResetsAndBoot :
    State.reset.pins.porstLow = false ∧ inReset State.reset = false ∧ State.reset.boot.cfgOk = false ∧ State.reset.boot.phase = 0 ∧
    State.reset.boot.mode = 0 ∧
    (let u := { State.reset with boot.reading := some .primary }; inReset u = false ∧ u.boot.reading = some .primary) ∧
    (let u := { State.reset with boot.phase := 4, hbm.trainDone := true }; inReset u = false ∧ u.boot.phase = 4 ∧ u.hbm.trainDone = true) := by
  decide +kernel

/-- A member of an enabled pair with its twin quad (quad 0) up. -/
def twinS (member : Nat) (x : TwinState) : State :=
  { qs { QuadState.reset with cfg := cfgOf 5, up := true } with twin := { x with ctl := BitVec.ofNat 32 (5 + 2 * member) } }

theorem test_met_TwinRoleMoves :
    (let u := (twinS 0 { TwinState.reset with role := .shadow, step := true }).advance (us 200)
     mayClaim u = true ∧ u.twin.step = true ∧ (if u.member = 0 then 200 else 400) * tickHz ≤ (u.now - u.twin.pinLowAt) * 1000000) ∧
    (let u := (twinS 1 { TwinState.reset with role := .shadow, step := true }).advance (us 400)
     mayClaim u = true ∧ u.member = 1 ∧ 400 * tickHz ≤ (u.now - u.twin.pinLowAt) * 1000000) ∧
    (twinS 0 { TwinState.reset with pinOut := true }).twin.pinOut = true ∧
    (let u := (twinS 0 { TwinState.reset with mismatchAt := some 0 }).advance (ms 1)
     u.twin.mismatchAt = some 0 ∧ u.twinEn = true ∧ u.twin.pinErr = false ∧ tickHz ≤ (u.now - 0) * 1000) ∧
    (let u := twinS 0 { TwinState.reset with role := .lit, present := true, partnerStepAt := some 0 }
     descChk (desc 0 [1]) [(32, 1)] = none ∧ u.twin.role = .lit ∧ u.twin.present = true ∧ u.twin.partnerStepAt ≠ none) ∧
    (let u := twinS 0 { TwinState.reset with role := .shadow }; u.twinEn = true ∧ u.twin.role = .shadow ∧ u.twin.faulty = false) ∧
    (let u := twinS 0 { TwinState.reset with role := .lit, pinOut := true }
     u.twin.gate = false ∧ u.twin.pinOut = true ∧ u.twin.pinIn = false ∧ u.twin.role = .lit ∧ u.twin.gapAt = none) ∧
    (State.reset.twin.pinIn = false ∧ State.reset.twin.pinOut = false) ∧ (twinS 0 TwinState.reset).twin.gapAt = none ∧ ({ State.reset with twin.pinIn := true }).twin.pinIn = true := by decide +kernel

/-- A heartbeat of a shadow. -/
def beat : RawFrame := frm 5 0 (zeros 16 ++ [1, 0, 0, 0] ++ le 4 7 ++ zeros 16)
def litS : State := twinS 0 { TwinState.reset with role := .lit, present := true, partner := some ⟨1, 0, 0, 7, 0⟩ }
/-- A stroke batch entry of 2 s ago. -/
def oldEntry : DigestEntry := ⟨0, 0, 5, 1, 0, false, 2 ^ 64⟩

theorem test_met_TwinMembersKeepInTouch :
    (let u := litS
     u.twinEn = true ∧ (quadsOf u 5).head? = some (twinQuad u) ∧ (quadOf u (twinQuad u)).up = true ∧ beat.kind.toNat = 0 ∧ twinFits beat = true ∧
      fieldU beat.data 0 2 = (quadOf u (twinQuad u)).expect ∧ u.twin.role = .lit ∧ u.twin.present = true ∧ u.twin.partner ≠ none) ∧
    (∀ s ∈ [litS, twinS 1 TwinState.reset], let u := s.advance (ms 1)
     (u.twin.partner = some ⟨1, 0, 0, 7, 0⟩ ∨ u.twin.partner = none ∧ u.twin.enAt = 0) ∧ u.twinEn = true ∧ u.twin.lost = false ∧
      tickHz ≤ (u.now - 0) * 1000) ∧
    (let u := (twinS 0 { TwinState.reset with skewBadAt := some 0 }).advance tickHz
     u.twin.skewBadAt = some 0 ∧ u.twinEn = true ∧ u.twin.skewTold = false ∧ tickHz ≤ u.now - 0) ∧
    (let u := (twinS 0 { TwinState.reset with equalAt := some 0, role := .lit }).advance (ms 100)
     u.twin.equalAt = some 0 ∧ u.twinEn = true ∧ u.twin.faulty = false ∧ u.twin.step = false ∧ u.twin.role = .lit ∧ 100 * tickHz ≤ (u.now - 0) * 1000) ∧
    (let u := (twinS 0 { TwinState.reset with equalAt := some 0, role := .shadow, present := true, partner := some ⟨0, 0, 0, 7, 0⟩ }).advance (ms 100)
     u.twin.equalAt = some 0 ∧ u.twin.step = false ∧ u.twin.present = true ∧ u.twin.partner = some ⟨0, 0, 0, 7, 0⟩) ∧
    (twinS 0 { TwinState.reset with unsent := [oldEntry] }).twin.unsent ≠ [] ∧
    (let u := (twinS 0 { TwinState.reset with role := .shadow, step := true, own := [oldEntry] }).advance (2 * tickHz)
     u.twinEn = true ∧ compares u 0 = true ∧ lateEntry u 0 (5 : BitVec 64).toNat = some oldEntry ∧ oldEntry.cls = 0) ∧
    (let x := { oldEntry with cls := 1 }
     let u := (twinS 0 { TwinState.reset with
       role := .shadow, step := true, gstep := true, partner := some ⟨0, 2, 0, 7, 0⟩, own := [x] }).advance (2 * tickHz)
     u.twinEn = true ∧ compares u 1 = true ∧ lateEntry u 1 (5 : BitVec 64).toNat = some x ∧ x.cls = 1) ∧
    (let d := desc 4 [1, 0]
     descChk d [(32, 2)] = none ∧ sizeChk d (4 * par d 32 2) = none ∧ ∀ i < 2 * par d 32 2, fieldU (dataOf d [255, 3, 0, 0]) (2 * i) 2 < 1024) := by
  decide +kernel

/-- An arbitration frame of op `op`, and a digest frame of one entry. -/
def arbFrame (op : Nat) : RawFrame := frm 5 2 (zeros 16 ++ le 1 op ++ zeros 7 ++ le 8 3 ++ le 8 4 ++ le 8 1)
def digestFrm : RawFrame := frm 5 1 (zeros 16 ++ le 2 1 ++ zeros 6 ++ zeros 24)
def arbS (own partner : Option Nat) : State := twinS 0 { TwinState.reset with role := .shadow, arb := some ⟨2, 1, 3, 4, own, partner, 0⟩ }

theorem test_met_ArbitrationRuns :
    (arbS none none).twin.arb = some ⟨2, 1, 3, 4, none, none, 0⟩ ∧
    (let u := (arbS none none).advance (ms 200); 200 * tickHz ≤ (u.now - 0) * 1000) ∧
    (let d : Desc := { desc 0 [1] with opcode := 0x44 }
     let u := twinS 0 { TwinState.reset with timed := [⟨d, [], some 0⟩] }
     u.twin.timed = [⟨d, [], some 0⟩] ∧ d.opcode = 0x44 ∧ 0 ≤ u.tw) ∧
    (let u := arbS none none; let q := twinQuad u
     u.twinEn = true ∧ (quadsOf u 5).head? = some q ∧ (quadOf u q).up = true ∧
      (∀ op ∈ [3, 4, 5], let f := arbFrame op
        twinFits f = true ∧ fieldU f.data 0 2 = (quadOf u q).expect ∧ f.kind.toNat = 2 ∧ fieldU f.data 16 1 = op ∧
        (let w := frameTaken q (returnCredit q 0 f.n.toNat (linkReceive q true (fieldU f.data 0 2) u).2)
         w.twin.role = .shadow ∧ w.twin.arb = some ⟨2, 1, 3, 4, none, none, 0⟩ ∧ w.twin.timed = []) ∧
        fieldU f.data 24 8 = 3 ∧ fieldU f.data 32 8 = 4) ∧
      (twinFits digestFrm = true ∧ fieldU digestFrm.data 0 2 = (quadOf u q).expect ∧ digestFrm.kind.toNat = 1 ∧
        fieldU digestFrm.data 16 2 = 1)) := by decide +kernel

/-! ### Host interface -/

/-- Host rings 0 to 98 enabled, with 2^16 bytes or entries each, and DMA running. -/
def hostS : State :=
  { State.reset with host.running := true, host.ctl := 1, host.ringCfg := Vector.replicate 99 0x4050 }

theorem test_met_CompletionEntriesAreWrittenAndPublished :
    hostS.host.owed = [] ∧ cplRoom hostS = true ∧ cplRoom { hostS with host.cplProd := 65536 } = false ∧ cplRoom { hostS with host.cplProd := 65535 } = true := by
  decide +kernel

theorem test_met_EventsAreNumberedQueuedAndCounted :
    (hostS.host.evQueue = [] ∧ hostS.host.evLost = 0 ∧ evtRoom hostS = true) ∧ evtRoom State.reset = false ∧
    (let e : Ev := ⟨3, zeros 28, 0⟩
     (List.replicate 4095 e).length < 4096 ∧ 4096 ≤ (List.replicate 4096 e).length ∧ evtRoom { hostS with host.evQueue := [e] } = true ∧
      evtRoom { hostS with host.evLost := 1 } = true) ∧
    (∀ n ∈ ([0, 65535] : List Nat), let u := { hostS with host.evLost := 1, host.evQueue := [⟨3, zeros 28, 0⟩], host.evtProd := BitVec.ofNat 32 n }
     let l : Ev := ⟨1, le 4 0 ++ le 8 u.tw ++ (le 4 u.host.evLost ++ zeros 12), u.now⟩
     evtRoom u = true ∧ evtRoom (writeEvent l (noteLog (.event l) { u with host.evLost := 0 })) = decide (n = 0)) := by decide +kernel

/-- A prototype with id 1 that group 0 does or does not name. -/
def protoS : State := { State.reset with chan.protos := [(1, ⟨6, 4, []⟩)] }
def groupD (plan proto : Nat) : GroupDesc := ⟨1000, 1, 0, 0, 0, 2, 0, 0, 0, 0, 0, 6, 4, 0, 0, proto, 0xFFFF, 0, 1, plan⟩
def namedS : State := { protoS with cond.groups := [(0, groupD 0 1)] }

theorem test_met_HostInterfaceCommandsAct :
    descChk (desc 0 []) [] = none ∧
    (let u := { State.reset with chan.plans := [(15, [planV 0])] }; let d := desc 2000 (le 2 0x030A ++ le 2 15)
     descChk d [(32, 2), (34, 2)] = none ∧ par d 32 2 = 0x030A ∧ (planVersions u (par d 34 2)).getLast? = some (planV 0) ∧
      16 + 8 * (planCounters u 15 (planV 0)).length ≤ d.len.toNat) ∧
    (let d := desc 80 [6]; descChk d [(32, 1)] = none ∧ par d 32 1 ≤ 9 ∧ 4 * romCount (par d 32 1) ≤ d.len.toNat) ∧
    (let d := desc 0 [0xE]; descChk d [(32, 4)] = none ∧ par d 32 4 &&& 0xE = par d 32 4) ∧
    (let d := desc 0 [0, 0, 1]
     descChk d [(32, 1), (34, 2)] = none ∧ par d 32 1 = 0 ∧ Tab.has protoS.chan.protos (par d 34 2) = true ∧ protoNamed protoS 1 = false ∧
      Tab.has namedS.chan.protos 1 = true ∧ protoNamed namedS 1 = true ∧ Tab.has State.reset.chan.protos 1 = false) ∧
    (let d := desc 0 [63, 9, 15, 0, 63, 15, 0, 0]
     bindChk d State.reset = none ∧ bindingOf State.reset (par d 33 1) (par d 34 2) = none ∧ par d 33 1 ≠ 0 ∧ par d 36 1 ≠ 0xFF ∧ par (desc 0 [63, 9, 15, 0, 0xFF, 15, 0, 0]) 37 1 ≠ 0xFF) := by
  decide +kernel

theorem test_met_image_unload : unloadImage 0 1 protoS = .removed { protoS with chan.protos := [] } := rfl

/-- A command waits in the ring: cmd_prod is one ahead of cmd_cons. -/
def fetchS : State := { hostS with host.db := { hostS.host.db with cmdProd := 1 } }
def endedS : State := { State.reset with host.deferred := [⟨desc 0 [], .fence 3, some (0, 0)⟩] }

theorem test_met_CommandsAreFetchedAndStarted :
    (hostS.host.running = true ∧ 832 ≤ (zeros 832).length ∧ pollDue hostS = true ∧ hostS.host.held = [] ∧ hostS.host.owed = []) ∧
    (fetchS.host.running = true ∧ ringEn fetchS 0 = true ∧ fetchS.host.cmdCons ≠ fetchS.host.db.cmdProd ∧ fetchS.host.held = [] ∧
      cplRoom fetchS = true ∧ fetchS.host.owed = [] ∧ cplRoom { fetchS with host.cplProd := 65536 } = false) ∧
    endedS.host.deferred = [⟨desc 0 [], .fence 3, some (0, 0)⟩] := by decide +kernel

/-- A staged record of 128 bytes on product ring 0, in a phase of its taking. -/
def recX : Staged := ⟨5, 2, 0, 0, 0, zeros 128, 0, 0, false, [.ring 0]⟩
def recS (y : OutletState) (jobs : Tab WriteJob) : State :=
  setOutlet (.ring 0) y { hostS with host.staged := [(4, recX)], host.jobs := jobs }
def actX (p : Phase) : Active := ⟨.record 4, p, zeros 128, 0, 0, false, 0⟩

theorem test_met_RecordsLeaveWholeOrAreResent :
    (let u := recS ⟨[4], none, none, [], none, []⟩ []; let y := outletOf u (.ring 0)
     u.emits = true ∧ u.host.running = true ∧ u.mgmt.trip = false ∧ ringEn u 3 = true ∧ dmaOpen u 3 = true ∧ y.active = none ∧ y.loss = none ∧
      y.pinned = none ∧ y.queue = [4] ∧ Tab.get u.host.staged 4 = some recX ∧ recX.length ≤ ringSize u 3 / 2 ∧
      poisonedIn (regionSeen u 2 0 (recX.size / 32) []) = false ∧ poisonedIn (regionSeen u 2 0 (recX.size / 32) [⟨0, false⟩]) = true ∧
      (∀ c ∈ ([0x4047, 0x4048] : List Nat), let w := { u with host.ringCfg := vset u.host.ringCfg 3 (BitVec.ofNat 32 c) }
       ringEn w 3 = true ∧ dmaOpen w 3 = true ∧ ringSize w 3 / 2 < recX.length) ∧ ({ u with mgmt.trip := true }).mgmt.trip = true) ∧
    (let u := recS ⟨[4], none, none, [], none, []⟩ []; let v := eccRead 4 2 (regionSeen u 2 0 (recX.size / 32) []) u
     Tab.get v.host.staged 4 = some recX ∧ recX.length ≤ ringSize v 3 - prodOf v 0 % ringSize v 3 ∧ ringFree v 0 (stride recX.length) = true) ∧
    (let u := { recS ⟨[4], none, none, [], none, []⟩ [] with
       host.prodProd := vset State.reset.host.prodProd 0 65408
       host.db := { State.reset.host.db with prodCons := vset State.reset.host.db.prodCons 0 65408 } }
     let v := eccRead 4 2 (regionSeen u 2 0 (recX.size / 32) []) u; let room := ringSize v 3 - prodOf v 0 % ringSize v 3
     dmaOpen u 3 = true ∧ Tab.get v.host.staged 4 = some recX ∧ room < recX.length ∧ ringFree v 0 (room + stride recX.length) = true) ∧
    (let u := recS ⟨[], none, some (actX .bodyConfirmed), [], none, []⟩ []
     dmaReady u (ringChannel u 3) = true ∧ (outletOf u (.ring 0)).active = some (actX .bodyConfirmed) ∧ (actX .bodyConfirmed).phase = .bodyConfirmed ∧
      trailerCodes u (actX .bodyConfirmed).what = some (0, false)) ∧
    (∀ k ∈ [JobKind.body (.ring 0), .trailer (.ring 0)], let u := recS ⟨[], none, some (actX .body), [], none, []⟩ [(7, ⟨k, [], 0, []⟩)]
     Tab.get u.host.jobs 7 = some ⟨k, [], 0, []⟩ ∧ (outletOf u (.ring 0)).active = some (actX .body) ∧ (actX .body).what = .record 4) ∧
    (∀ n ∈ [2, 3], Tab.get (recS OutletState.reset [(7, ⟨.completions 1, [], n, []⟩)]).host.jobs 7 = some ⟨.completions 1, [], n, []⟩) ∧
    (2 % 4 ≠ 3 ∧ 3 % 4 = 3) := by decide +kernel

theorem test_met_HostLinkAndItsUpkeep :
    (let u := hostS.advance (ms 10); u.host.running = true ∧ 10 * tickHz ≤ (u.now - u.host.sbAt) * 1000) ∧
    (let u := ({ State.reset with host.msix := vset State.reset.host.msix 63 ⟨1, some 0, 0⟩, host.msixMod := vset State.reset.host.msixMod 63 0x101 }).advance (us 1)
     (vget u.host.msix 63 ⟨0, none, 0⟩).since = some 0 ∧ msixTime u 63 ≠ 0 ∧ msixTime u 63 * tickHz ≤ (u.now - 0) * 1000000) ∧
    (let u := { hostS with host.db := { hostS.host.db with srcProd := vset hostS.host.db.srcProd 31 4 } }; let k := srcRingOf u 31
     u.host.running = true ∧ dmaOpen u 98 = true ∧ dmaOpen { u with host.dmaNext := (List.range 16).map (fun c => (c, 1)) } 98 = false ∧ min (min ([1, 2, 3] : Bytes).length 4096) ((vget u.host.db.srcProd 31 0).toNat - (k.base + k.read)) / 2 ≠ 0 ∧
      Tab.get u.host.srcSeen 31 = none) ∧
    (LinkLoss.perst ≠ .busMasterCleared) ∧ (rbit hostS.host.ctl 0 = true ∧ hostS.host.stopped = false ∧ 3 ≤ (3 : Fin 6).val) := by decide +kernel

/-! ### Elements and ingest -/

/-- The bytes of a group descriptor: 1 kHz, window 0.01 ms, preset ratio 2, not channelised into a plan. -/
def groupB : Bytes :=
  le 4 1000 ++ le 2 1 ++ [0, 0, 0, 0] ++ le 2 2 ++ zeros 20 ++ [6, 4, 0, 0] ++ le 2 0 ++ le 2 0xFFFF ++ le 2 0 ++ le 2 1 ++ [0xFF] ++ zeros 19
/-- An element table of one item: element 3, receive, group 0. -/
def elemB : Bytes := le 4 1 ++ zeros 12 ++ le 2 3 ++ zeros 14 ++ ([0, 1] ++ zeros 30)
def grpS : State := { State.reset with cond.groups := [(0, parseGroup groupB)] }
def startedS : State := { grpS with cond.started := [(0, ⟨0, none⟩)] }
/-- An element table of two items: element 3 of group 1, and element 4, which carries stream 1, of group 0. -/
def mixB : Bytes := le 4 2 ++ zeros 12 ++ le 2 3 ++ zeros 14 ++ ([1, 1] ++ zeros 30) ++ le 2 4 ++ zeros 14 ++ ([0, 1, 1] ++ zeros 29)
def group1S : State := { State.reset with cond.groups := [(1, parseGroup groupB)], cond.started := [(1, ⟨0, none⟩)] }

theorem test_met_ElementsAndGroupsChangeByCommand :
    (let d := desc 64 (zeros 8); let p := splitChange 0 (changeItems (dataOf d elemB) 1) State.reset
     elementTableChangeChk d elemB State.reset = none ∧ changeChk State.reset [p.1] (withPends State.reset (p.2.map (clampPend State.reset))) = none ∧ p.2 = []) ∧
    (let d := desc 64 (zeros 8); let p := splitChange 0 (changeItems (dataOf d elemB) 1) startedS
     elementTableChangeChk d elemB startedS = none ∧ changeChk startedS [p.1] (withPends startedS (p.2.map (clampPend startedS))) = none ∧
      p.2 ≠ [] ∧ p.1 = .elems []) ∧
    (let d := desc 112 (zeros 8); let p := splitChange 0 (changeItems (dataOf d mixB) 2) group1S
     elementTableChangeChk d mixB group1S = none ∧ changeChk group1S [p.1] (withPends group1S (p.2.map (clampPend group1S))) = none ∧
      p.2 ≠ [] ∧ p.1 = .elems [(4, parseElem mixB 80)]) ∧
    elementTableChangeChk (desc 15 []) elemB State.reset = some (5, 16) ∧
    (let d := desc 64 (zeros 16)
     firstFail [descChk d [(32, 1), (40, 8)], sizeChk d 64, groupChk groupB, imagesChk State.reset (parseGroup groupB)] = none ∧
      Tab.has State.reset.cond.started 0 = false ∧ changeChk State.reset [.group 0 (parseGroup groupB)] State.reset.cond.pending = none ∧
      Tab.has startedS.cond.started 0 = true ∧ changeChk startedS [] (withPends startedS [clampPend startedS ⟨0, .group 0 (parseGroup groupB)⟩]) = none) ∧
    (firstFail [descChk (desc 63 (zeros 16)) [(32, 1), (40, 8)], sizeChk (desc 63 (zeros 16)) 64, groupChk groupB,
      imagesChk State.reset (parseGroup groupB)] = some (5, 64)) ∧
    (descChk (desc 0 (zeros 16)) [(32, 1), (40, 8)] = none ∧ Tab.has grpS.cond.groups 0 = true ∧ Tab.has grpS.cond.started 0 = false ∧
      originClash grpS 0 0 = false ∧ Tab.has State.reset.cond.groups 0 = false ∧ Tab.get startedS.cond.started 0 = some ⟨0, none⟩) := by decide +kernel

/-- An element table that gives elements 3 and 4 one stream and channel. -/
def clashB : Bytes := le 4 2 ++ zeros 12 ++ le 2 3 ++ zeros 14 ++ ([0, 1] ++ zeros 30) ++ le 2 4 ++ zeros 14 ++ ([0, 1] ++ zeros 30)

theorem test_met_SharedStreamChannelIsRefused :
    (let d := desc 112 (zeros 8); let b := dataOf d clashB; let v := (splitChange (par d 32 8) (changeItems b (fieldU b 0 4)) State.reset).1.apply State.reset.view
     ∃ x y : Nat × ElemEntry, v.elems[0]? = some x ∧ v.elems[1]? = some y ∧ x.2.rx = true ∧ y.2.rx = true ∧ x.2.stream = y.2.stream ∧
      x.2.channel = y.2.channel) :=
  ⟨(3, { ElemEntry.reset with flags := 1 }), (4, { ElemEntry.reset with flags := 1 }), by decide +kernel⟩

/-- Element 3 of started group 0 runs from block 0, with the given input slots. -/
def elemX : ElemEntry := { ElemEntry.reset with flags := 1 }
def runX (slots : Tab (Nat × Int)) : ElemRun := { newRun 0 (parseGroup groupB) 0 0 with slots := slots }
def runS (slots : Tab (Nat × Int)) : State := { startedS with cond.elems := [(3, elemX)], cond.run := [(3, runX slots)] }

theorem test_met_DuplicateSamplesAreDiscarded :
    (let s := runS [(5, (5, 9))]
     (viewAt s (5 / 64)).elems.find? (fun p => p.2.rx && decide (p.2.stream = 0 ∧ p.2.channel = 0)) = some (3, elemX) ∧
      activeAt s 3 (5 / 64) = some (elemX, parseGroup groupB) ∧ Tab.get s.cond.run 3 = some (runX [(5, (5, 9))]) ∧ (runX [(5, (5, 9))]).next ≤ 5 / 64 ∧
      deadlineDue (originAt s 3 (5 / 64) (runX [(5, (5, 9))])).tOrg (parseGroup groupB) (5 / 64) s.tw true = false ∧
      Tab.get (runX [(5, (5, 9))]).slots (5 % max 1 (runX [(5, (5, 9))]).size) = some (5, 9)) := by decide +kernel

/-- An ingest frame of one sample, and a device whose quad 0 takes it. -/
def ingestF : RawFrame := frm 1 0 (le 2 0 ++ le 2 0 ++ le 2 1 ++ le 2 1 ++ le 8 0 ++ [0] ++ zeros 7 ++ zeros 24)
def ingestS : State := setQuad 0 { QuadState.reset with cfg := cfgOf 1, up := true } (runS [])
def full : Tab (Nat × Int) := (List.range 64).map (fun i => (i, (i, (7 : Int))))

theorem test_met_IngestPlacesSamplesAndReleasesBlocks :
    (quadHas ingestS 0 1 = true ∧ (quadOf ingestS 0).up = true ∧ ingestOk ingestF = true ∧ ({ ingestF with damaged := true }).damaged = true) ∧
    (let u := runS full
     Tab.get u.cond.run 3 = some (runX full) ∧ oldestBlock u 3 (runX full) = some 0 ∧ activeAt u 3 0 = some (elemX, parseGroup groupB) ∧
      ((List.range 64).all (fun i => decide (Tab.get (runX full).slots ((64 * 0 + i) % max 1 (runX full).size) = some (64 * 0 + i, 7)))) = true) ∧
    (let u := (runS []).advance (tickHz / 15)
     deadlineDue (originAt u 3 0 (runX [])).tOrg (parseGroup groupB) 0 u.tw false = true) ∧
    (let q : HbmReq := ⟨2, .outside, 0, 0⟩; let w : AfterWrite := ⟨4, 0, 0, []⟩
     let u := ({ State.reset with cond.afterWait := [(afterKey 3 2, w)], hbm.queues := [(0, { PcQueue.reset with cmd := [q] })] }).advance (us 100)
     let v := afterLanded u
     Tab.get v.cond.afterWait (afterKey 3 2) = some w ∧ 100 * tickHz ≤ (u.now - w.at_) * 1000000) := by
  decide +kernel

theorem test_met_ConditioningOutputsFitTheirWords :
    (let u := { runS [] with cond.run := [(3, { runX [] with ready := [⟨0, 0, List.replicate 64 (1, 0)⟩] })] }
     u.mgmt.trip = false ∧ (∃ n < 32, nextSlice u n = some 3) ∧ bankWaits u 3 = false) ∧
    (let u := { runS [] with
       cond.groups := [(0, groupD 15 1)]
       cond.run := [(3, { newRun 0 (groupD 15 1) 0 0 with ready := [⟨0, 0, List.replicate 64 (1, 0)⟩], fbNext := 512 })] }
     u.mgmt.trip = false ∧ (∃ n < 32, nextSlice u n = some 3)) := by decide +kernel

/-! ### Images of the channeliser -/

/-- An image with its CRC-32C of the bytes from 16 in place at `off`. -/
def withCrc (b : Bytes) (off : Nat) : Bytes := b.take off ++ le 4 (crc32c (b.drop 16)).toNat ++ b.drop (off + 4)
def protoB : Bytes := withCrc (le 2 1023 ++ [6, 4] ++ le 4 256 ++ zeros 8 ++ zeros 1024) 8
def gainB : Bytes := withCrc (le 2 1023 ++ le 2 1 ++ zeros 12 ++ le 2 5 ++ le 2 6) 4
def planB (version activate : Nat) : Bytes :=
  let b := [15, 0, 6, 4] ++ le 4 1000 ++ [0, 0] ++ le 2 2 ++ le 2 0 ++ le 2 1 ++ le 4 version ++ le 2 1 ++ le 2 1 ++ le 8 activate ++ le 8 (5 * tickHz) ++ zeros 8 ++
    (le 2 0 ++ le 2 4 ++ zeros 4)
  b ++ le 4 (crc32c b).toNat

set_option maxRecDepth 100000 in
theorem test_met_ChanneliserImagesAreLoaded :
    prototypeLoadChk (desc 1040 [0]) protoB State.reset = none ∧ prototypeLoadChk (desc 15 [0]) protoB State.reset = some (5, 16) ∧
    gainTableLoadChk (desc 20 [0]) gainB State.reset = none ∧ gainTableLoadChk (desc 15 [0]) gainB State.reset = some (5, 16) ∧
    planLoadChk (desc 60 [0]) (planB 1 4) State.reset = none ∧ planVersions State.reset (fieldU (planB 1 4) 0 1) = [] ∧
    planLoadChk (desc 39 [0]) (planB 1 4) State.reset = some (5, 40) ∧
    (let u := { State.reset with chan.plans := [(15, [planV 0])] }
     planLoadChk (desc 60 [0]) (planB 2 8) u = none ∧ planVersions u (fieldU (planB 2 8) 0 1) ≠ []) := by decide +kernel

/-! ### Schedules and beams -/

/-- Plan 15 is loaded: 2 elements, one channel of 256-frame strokes. -/
def planS : State := { State.reset with chan.plans := [(15, [planV 2])] }
/-- A schedule with one X pool of one job on engine 255: inkwells in the hub, slots of 512 ns, first stroke 1. -/
def schedB : Bytes :=
  let h := le 2 9 ++ [1, 0, 0, 0] ++ le 2 1 ++ le 8 3744 ++ le 8 1024 ++ le 8 0 ++ le 8 4 ++ le 4 124 ++ zeros 20
  let pool := [15, 0] ++ le 2 1 ++ le 2 4 ++ [1, 0] ++ le 2 0 ++ le 2 1 ++ le 4 1 ++ le 8 256 ++ le 4 1 ++ zeros 4
  let ent := [255, 0, 0, 0] ++ le 4 0 ++ le 4 1 ++ le 4 512
  let b := h ++ pool ++ ent ++ ([0, 0] ++ le 2 0 ++ le 2 1 ++ le 2 5)
  b ++ le 4 (crc32c b).toNat
/-- A beam set of one beam for plan 15, a taper of one value, and a table of one weight. -/
def beamB : Bytes :=
  let b := [255, 15, 0, 0] ++ le 2 1 ++ [0, 0] ++ le 2 0xFFFF ++ le 2 0xFFFF ++ zeros 20 ++ (zeros 12 ++ le 4 1)
  b ++ le 4 (crc32c b).toNat
def taperB : Bytes := withCrc (le 2 65535 ++ le 2 0 ++ le 4 1 ++ zeros 8 ++ le 2 2047) 8
def weightB : Bytes := withCrc (le 2 255 ++ [15, 0] ++ le 2 1 ++ le 2 0 ++ le 4 1 ++ zeros 4 ++ le 3 0xFFFFFF) 12
/-- The schedule of `schedB` as it runs, of mode `m`. -/
def poolX (m : Nat) : Pool := { parsePool schedB 64 with mode := m }
def runE : EntryRun := ⟨⟨255, 0, 0, 1, 512⟩, none, 1, none, (1, 0), none, false, [(1, 7)]⟩
def schedX (m : Nat) (x : EntryRun) : SchedRun :=
  ⟨0, { parseSched schedB with pools := [poolX m] }, [], [], [x], [], none, [], [], none, [], [], [], [], []⟩
def schedS (m : Nat) (x : EntryRun) : State := { planS with corr.scheds := [schedX m x] }
/-- The B pool's set 255 is loaded. -/
def bsetS : State := { schedS 1 runE with corr.bsets := [(255, parseBeamSet beamB)] }
/-- A switch of pool `k` at stroke `a`. -/
def switchD (k a : Nat) : Desc := desc 0 (le 1 k ++ le 1 255 ++ zeros 6 ++ le 8 a)

set_option maxRecDepth 100000 in
theorem test_met_ScheduleAndBeamImagesAreLoaded :
    schedChk (desc 124 [0]) schedB planS = none ∧ schedChk (desc 63 [0]) schedB planS = some (5, 64) ∧
    beamSetLoadChk (desc 52 [0]) beamB planS = none ∧ planAt planS (parseBeamSet beamB).plan (2 ^ 64) = some (planV 2) ∧
    beamSetLoadChk (desc 31 [0]) beamB planS = some (5, 32) ∧
    taperTableLoadChk (desc 18 [0]) taperB planS = none ∧ taperTableLoadChk (desc 15 [0]) taperB planS = some (5, 16) ∧
    weightTableLoadChk (desc 19 [0]) weightB planS = none ∧ weightTableLoadChk (desc 15 [0]) weightB planS = some (5, 16) ∧
    descChk (switchD 0 1) [(32, 2), (40, 8)] = none ∧ switchPool (switchD 0 1) bsetS = some (schedX 1 runE, poolX 1) ∧
    switchChk (switchD 0 1) bsetS (poolX 1) = none ∧ switchChk (switchD 0 0) bsetS (poolX 1) = some (9, 0) ∧
    switchPool (switchD 1 1) bsetS = none := by decide +kernel

/-- Engine 255 as given. -/
def engS (x : Engine) (s : State) : State := setEng 255 x s
def slotG : Running := ⟨0, 0, 0, 0, 1, 0, 0, [(1, 0)], 0, false, []⟩
/-- Window 15 has counted, with no length. -/
def winS : State :=
  { State.reset with mgmt.win := vset State.reset.mgmt.win 15 ⟨0, 0, 1, 0, some ⟨0, 0, 0, 0, 1, 0, 0, 0, 0, 0, 0, Vector.replicate 32 0, false⟩⟩ }

theorem test_met_SheddingAndFencingAct :
    (let u := schedS 0 runE; descChk (desc 0 (le 2 5)) [(32, 2)] = none ∧ u.twinEn = false ∧ productEntries u 5 = [0] ∧ preshedBy u [0] = none ∧
      productEntries u 65535 = []) ∧
    (∀ r ∈ [Role.lit, .shadow], let u := { schedS 0 runE with twin := { TwinState.reset with ctl := 5, role := r } }; let d := desc 0 (le 2 5)
     productEntries u (par d 32 2) ≠ [] ∧ ((takeT d [] u).1 = if r = .lit then some (usTicks 10000).toNat else none)) ∧
    (let v := schedS 0 runE; let w : State := { v with host.deferred := [⟨desc 0 [255], .fence 255, none⟩] }
     descChk (desc 0 [255]) [(32, 1)] = none ∧ (engOf w 255).failed = false ∧ w.twinEn = false ∧ fenceNow w 255 w.tw = false ∧
      fenceNow w 0 w.tw = true) ∧
    (let v := engS { Engine.reset with failed := true } (schedS 0 runE)
     (engOf { v with host.deferred := [⟨desc 0 [255], .fence 255, none⟩] } 255).failed = true) ∧
    (let u := { schedS 0 runE with twin := { TwinState.reset with ctl := 5, role := .lit } }
     (takeT (desc 0 [255]) [] u).1 = some (usTicks 10000).toNat ∧ (takeT (desc 0 [255]) [] u).2.twinEn = true) ∧
    (let u := (engS { Engine.reset with run := some slotG } (schedS 0 runE)).advance (us 101); let x := engOf u 255
     x.run = some slotG ∧ schedOf u 0 = some (schedX 0 runE) ∧ poolPlan u (poolX 0) 1 = some (planV 2) ∧ x.out = none ∧
      100 * tickHz < (u.now - slotG.startAt) * 1000000 ∧ 8 * (poolX 0).handshakes (planV 2) 0 * tickHz < (u.now - slotG.startAt) * 1000000000) ∧
    ((engOf (engS { Engine.reset with fence := some ⟨4, 0⟩ } (schedS 0 runE)) 255).fence = some ⟨4, 0⟩ ∧
      [(255, 0, 0, 1, 0)].any (fun y => decide (y.1 = 255)) = true) ∧
    (descChk (desc 0 [15]) [(32, 1)] = none ∧ 15 < 16 ∧ (winOf winS 15).acc.isSome = true ∧ fld (winOf winS 15).len 0 16 = 0) := by decide +kernel

/-! ### Channel samples -/

/-- A group of plan 15, started, whose element 3 has the outputs of its first frame. -/
def chanS : State :=
  { startedS with cond.groups := [(0, groupD 15 1)], cond.elems := [(3, elemX)]
                  cond.run := [(3, { newRun 0 (groupD 15 1) 0 0 with condNext := 4, fbNext := 128 })] }
/-- Plan 15 with its channel owned by chip 1, on a mesh of two devices joined by quad 0. -/
def farP : Plan := { planV 1 with chans := [⟨1, 4, true⟩], digest := 5 }
def meshX (sd : SendState) (cfg : Reg) : State :=
  { qs { QuadState.reset with cfg := cfgOf 4, up := true } with
    chan.plans := [(15, [farP])], chan.send := [(pchanKey 15 0, sd)], link.meshCfg := cfg, link.meshPort := 0x10, link.links := [(1, ⟨1, 15, 0⟩)] }
def sendX : SendState := ⟨[(strokeKey 1 0, { StrokeBuf.empty with parts := [(0, [0]), (2, [0])] })], [(1, (strokeKey 1 0, 2))], [], []⟩
def batchF : RawFrame := frm 4 0 (zeros 16 ++ le 1 15 ++ zeros 3 ++ le 4 1 ++ le 8 (2 ^ 48 - 1) ++ zeros 4 ++ le 2 1 ++ zeros 234)
def digestF : RawFrame := frm 4 1 (zeros 16 ++ le 1 15 ++ zeros 3 ++ le 4 1 ++ le 4 6 ++ zeros 4)

theorem test_met_ChannelSamplesAreFormedAndDelivered :
    (let u := chanS; let g := groupD 15 1; let r := { newRun 0 g 0 0 with condNext := 4, fbNext := 128 }
     let gd := (descAt u 3 (g.ratio * Nat.max ((r.frame + 1) * g.hop - g.len) r.fbStart / 64)).getD g
     Tab.get u.cond.run 3 = some r ∧ descAt u 3 (r.condNext - 1) = some g ∧ g.channelised = true ∧ (r.frame + 1) * g.hop ≤ r.fbNext ∧
      mustHold u gd.plan r.frame = false) ∧
    (∀ c ∈ ([0x10800, 0x10400] : List Nat), let u := meshX sendX (BitVec.ofNat 32 c); let sd := Tab.getD u.chan.send (pchanKey 15 0) SendState.empty
     let at_ := sendPos u 15 0 1 sd; let i := keyStroke at_.1; let x := Tab.getD sd.forming at_.1 StrokeBuf.empty
     planVer u 15 (keyVersion at_.1) = some farP ∧ ownEntry u farP = some ⟨0, 0, 0, 1⟩ ∧ sendsChan u 0 1 farP = true ∧
      batchReady ⟨0, 0, 0, 1⟩ x at_.2 = true ∧ sendTurn u 15 0 1 (planStamp farP (farP.stroke 0 * i + 64 * at_.2)) = true ∧ u.isShadow = false ∧
      u.emits = true ∧ Tab.get sd.dropping 1 ≠ some at_.1 ∧ Tab.get sd.cut 1 ≠ some at_.1 ∧ unreachable u 15 1 = decide (c = 0x10400) ∧
      64 * (at_.2 + 1) < farP.stroke 0) ∧
    (∀ f ∈ [batchF, digestF], let u := meshX sendX 0x10800
     quadHas u 0 4 = true ∧ (quadOf u 0).up = true ∧ meshFits f = true ∧ f.spoilt = false ∧ fieldU f.data 0 2 = (quadOf u 0).expect ∧
      fieldU f.data 2 2 = routeChip u ∧ routeChip u < xdim u * ydim u) ∧
    (batchF.kind.toNat = 0 ∧ digestF.kind.toNat = 1) ∧
    (let u := meshX sendX 0x10800
     quadPort u 0 = some 0 ∧ planNum u (fieldU digestF.data 16 1) (fieldU digestF.data 20 4) = some farP ∧
      fieldU digestF.data 24 4 ≠ farP.digest.toNat) ∧
    (let u := { planS with corr.stats := [(15, ⟨0, [], [], [(0, 65536), (1, 65536)]⟩)] }
     Tab.get u.corr.stats 15 = some ⟨0, [], [], [(0, 65536), (1, 65536)]⟩ ∧ planAt u 15 0 = some (planV 2) ∧ statEnd u 15 0 = 65536 ∧
      statDue u ⟨0, [], [], [(0, 65536), (1, 65536)]⟩ (planV 2) 65536 = true) := by
  repeat' (refine And.intro ?_ ?_)
  all_goals decide +kernel

/-- The next slot of the schedule's one entry, with its deadline. -/
def slotC : Cand := ⟨0, 0, 0, 0, (1, 0), deadlineOf (schedS 0 runE) (poolX 0) runE.entry (1, 0)⟩

/-- Stroke 1 of plan 15's channel is released. -/
def relS (m : Nat) (x : EntryRun) : State :=
  { schedS m x with chan.owned := [(15 * 65536, ⟨1, 2, [], [(strokeKey 1 1, ⟨StrokeBuf.empty, 0, false⟩)]⟩)] }

theorem test_met_EnginesRunTheirSlotsInOrder :
    (let u := planS.advance (ms 70000); releasable u 15 0 = some (planV 2)) ∧
    (let u := relS 0 runE
     u.mgmt.trip = false ∧ (engOf u 255).failed = false ∧ (engOf u 255).fence = none ∧ (engOf u 255).run = none ∧
      nextSlot u 255 = some ⟨0, 0, 0, 0, (1, 0), dueOf u (poolX 0) runE.entry (1, 0)⟩ ∧
      (⟨0, 0, 0, 0, (1, 0), dueOf u (poolX 0) runE.entry (1, 0)⟩ : Cand).shedBy u = none ∧ schedOf u 0 = some (schedX 0 runE) ∧
      (schedX 0 runE).pool? 0 = some (poolX 0) ∧ poolPlan u (poolX 0) 1 = some (planV 2)) ∧
    (∀ m ∈ [0, 1], let u := engS { Engine.reset with run := some slotG } (schedS m runE)
     (engOf u 255).run = some slotG ∧ (engOf u 255).out = none ∧ u.mgmt.trip = false ∧ schedOf u 0 = some (schedX m runE) ∧
      (schedX m runE).pool? 0 = some (poolX m) ∧ (schedX m runE).runs[0]? = some runE ∧ (7 : BitVec 32).toNat = runE.epochAt 1 ∧
      (8 : BitVec 32).toNat ≠ runE.epochAt 1 ∧ (poolX m).mode = m ∧ poolPlan u (poolX m) 1 = some (planV 2)) ∧
    (let u := (schedS 0 { runE with unserved := true }).advance (ms 200000)
     firstUnserved u 255 = some slotC ∧ slotC.shedBy u = none ∧ slotC.due ≤ (u.tw : Int)) ∧
    (let x := { runE with unserved := true }
     let u := ({ planS with corr.scheds := [{ schedX 0 x with shed := [(0, [⟨2, 0, 0, none, false⟩])] }] }).advance (ms 200000)
     firstUnserved u 255 = some slotC ∧ (slotC.shedBy u).isSome = true ∧ slotC.due ≤ (u.tw : Int)) := by
  repeat' (refine And.intro ?_ ?_)
  all_goals decide +kernel

/-- A hand-off of job 0 of stroke 1, with one inkwell's sum. -/
def handX : Handoff := ⟨0, 0, 0, 0, 1, 0, 255, 7, [(1, 0)], 0, 2 ^ 62, 0, 0, false, false, []⟩
def outS (x : EntryRun) : State := engS { Engine.reset with out := some handX } (schedS 0 x)
def readX : Readout := ⟨0, 0, 0, 0, 1, 0, SegAcc.empty, [none], 0, 0, 0, []⟩
def accX : BeamAcc := ⟨[(0, none)], 1, 7, none, false⟩
def outX : BeamOut := ⟨[], [], 1, 7, none, false, 0, 0⟩

theorem test_met_InkwellsAndBeamsAreRecorded :
    (∀ x ∈ [runE, { runE with done := some (1, 0) }], (engOf (outS x) 255).out = some handX ∧ (outS x).corr.updating = [] ∧
      schedOf (outS x) 0 = some (schedX 0 x) ∧ (schedX 0 x).pool? 0 = some (poolX 0) ∧ (schedX 0 x).runs[0]? = some x) ∧
    updateBusy (outS runE) handX (schedX 0 runE) (poolX 0) = false ∧
    runE.done = none ∧ ({ runE with done := some (1, 0) }).done = some (handX.stroke, handX.slot) ∧
    (let w : Updating := ⟨{ handX with deadline := deadlineOf (outS runE) (poolX 0) runE.entry (1, 0) }, 1023, 1⟩
     let u := { outS runE with corr.updating := [w], corr.spillUsed := 1048575 }
     u.corr.updating = [w] ∧ earlierCan u w = false ∧ 0 < spillFor u w.hand.deadline ∧ u.corr.spillRefused = false ∧
      schedOf u w.hand.gen = some (schedX 0 runE) ∧ (schedX 0 runE).pool? w.hand.pool = some (poolX 0)) ∧
    (let u := { schedS 0 runE with corr.segs := [(segKey 0 0 0 0, ⟨.full 0, []⟩)] }; fullSegment u 0 0 0 = some (schedX 0 runE, poolX 0) ∧
      inkBusy u (poolX 0) 1 (regionBase u 6) = false) ∧
    (let u := { State.reset with hbm.pairs := [(9, ⟨.inkwellUpdate 0, false, 0, [], false, 0, .opened⟩)] }
     inkBusy u { poolX 0 with ink := 0 } 1 (regionBase u 6) = true) ∧
    (let u := { schedS 0 runE with corr.readouts := [readX], corr.segs := [(segKey 0 0 0 0, ⟨.read 0, []⟩)] }
     leastDump u = some readX ∧ earlierDump u readX = false ∧ schedOf u 0 = some (schedX 0 runE) ∧ (schedX 0 runE).pool? 0 = some (poolX 0) ∧
      planAt u (poolX 0).plan (integFrame (poolX 0) 0) = some (planV 2)) ∧
    (let u := { schedS 1 runE with corr.beamAcc := [(beamKey 0 0 1 0 0, accX)] }
     blockReady u 0 0 0 = some (0, beamKey 0 0 1 0 0) ∧ schedOf u 0 = some (schedX 1 runE) ∧ Tab.get u.corr.beamAcc (beamKey 0 0 1 0 0) = some accX ∧
      (schedX 1 runE).pool? 0 = some (poolX 1)) ∧
    (let u := { schedS 1 runE with corr.beamOut := [(beamKey 0 0 1 0 0, outX)] }
     strokeReady u 0 = some (schedX 1 runE, poolX 1, planV 2, 1, [(0, 0, outX)])) := by
  repeat' (refine And.intro ?_ ?_)
  all_goals first | decide +kernel | rfl

/-- A stroke at the extremes of 12 bits in one sample. -/
def bufX : StrokeBuf := { StrokeBuf.empty with samples := [(0, ⟨-2048, 2047, 0, false⟩)] }

theorem test_met_SumsAreExactAndComponentsOnlyTighten : ({ poolX 0 with stroke := 32768 } : Pool).stroke ≤ 32768 ∧
    ∀ e f, -2048 ≤ (bufX.sample e f).re ∧ (bufX.sample e f).re ≤ 2047 ∧ -2048 ≤ (bufX.sample e f).im ∧ (bufX.sample e f).im ≤ 2047 := by
  refine ⟨by decide, fun e f => ?_⟩
  simp only [bufX, StrokeBuf.sample, Tab.getD, Tab.get]
  split <;> decide

/-! ### Glint path -/

/-- Element 3 tapped, its group started, and a set-up block of 1 kHz, window 1, hold 500 µs and histories of 64. -/
def glintC : GlintCfg := ⟨1000, 1, 500, 6, 0⟩
def tapS : State :=
  { runS [] with cond.elems := [(3, { ElemEntry.reset with flags := 9 })], glint.cfg := some glintC, glint.set_ := some 255
                 glint.sets := [(255, [⟨⟨0, 0, 0⟩, 1, 0, 0, 0⟩])] }
def glintB : Bytes := le 4 250000 ++ le 2 1000 ++ le 2 500 ++ [14, 0xFF] ++ zeros 6
def glintSetB : Bytes := withCrc ([0, 0] ++ le 2 1 ++ zeros 12 ++ (zeros 12 ++ le 4 1 ++ le 4 0 ++ le 2 4095 ++ [12] ++ zeros 9)) 12
def detB : Bytes := [3, 12, 24, 0] ++ le 2 2 ++ le 2 1 ++ le 2 1 ++ le 2 1 ++ le 4 0 ++ le 8 (2 ^ 48 - 1) ++ le 8 (2 ^ 48 - 2)
def respB : Bytes := le 2 255 ++ le 2 1 ++ [3, 15, 15, 7] ++ zeros 12 ++ le 2 10000 ++ le 2 0 ++ zeros 8
/-- An open provisional event of beam 0. -/
def evX (st : EvSt) : GlintEvent := ⟨0, st, 0, 0, 0, 0, 0, 0, 1, 1, 0, 0, 0, [], 1000, 0, 0, 0, []⟩
def detS (det : Nat) (st : EvSt) : State := setDet det ⟨1, 0, some (evX st)⟩ tapS

theorem test_met_GlintCommandsAct :
    (glintConfigureChk (desc 16 []) glintB State.reset = none ∧ glintConfigureChk (desc 15 []) glintB State.reset = some (5, 16)) ∧
    (glintBeamSetLoadChk (desc 48 [0]) glintSetB tapS = none ∧ glintBeamSetLoadChk (desc 15 [0]) glintSetB tapS = some (5, 16)) ∧
    (glintDetectorChk (desc 32 ([255, 0] ++ zeros 14)) detB tapS = none ∧ glintDetectorChk (desc 31 ([255, 0] ++ zeros 14)) detB tapS = some (5, 32)) ∧
    (let d := desc 32 [1]; let u := { tapS with glint.set_ := none }
     descChk d [(32, 1)] = none ∧ par d 32 1 ≤ 64 ∧ d.len.toNat = 32 * par d 32 1 ∧
      firstFail ((List.range (par d 32 1)).map (fun i => respChk u (dataOf d respB) (32 * i))) = none) ∧
    (let d := desc 0 ([255] ++ zeros 7 ++ le 8 7)
     descChk d [(32, 1), (40, 8)] = none ∧ Tab.has tapS.glint.sets (par d 32 1) = true ∧ ({ tapS with glint.m := 7 }).glint.m ≤ par d 40 8 ∧
      Tab.has State.reset.glint.sets (par d 32 1) = false ∧ par d 40 8 < ({ tapS with glint.m := 8 }).glint.m) ∧
    (let d := desc 0 [15]; let u := { detS 0 .provisional with glint.resp := [parseResp (le 2 0 ++ le 2 1 ++ [1, 8] ++ zeros 26) 0] }
     descChk d [(32, 1)] = none ∧ par d 32 1 < 16 ∧ pinsBusy tapS (par d 32 1) = false ∧ tapS.twinEn = false ∧ pinsBusy u (par d 32 1) = true) := by
  decide +kernel

def parD : DetPar := ⟨1, 0, 1, 2, 1, 1, 1, 0, 1, 0, 0⟩
def pinX : Pin := ⟨0, 0, [3], 0, 63, 1000, 0, 0, false, false, []⟩

theorem test_met_GlintSamplesAndEventsRun :
    (let u := tapS.advance (ms 64); let r := runX []; let g := parseGroup groupB
     let h := History.settleN (historyOf u 3 r.fbNext).words.length (historyOf u 3 r.fbNext)
     u.glint.cfg = some glintC ∧ Tab.get u.cond.run 3 = some r ∧ u.view.desc 3 = some g ∧ (activeAt u 3 (g.ratio * h.next / 64)).any (fun y => y.1.tapped) = true ∧
      glintDue u r g glintC h.next false = true) ∧
    (let u := { tapS with glint.hist := [(3, ⟨[(0, ⟨0, 0, false⟩)], 1, 0, 0, 0⟩)] }; let g := parseGroup groupB
     switchDue u = none ∧ glintBase u = some (g, 0) ∧ u.glint.set_ = some 255 ∧ u.glint.cfg = some glintC ∧
      (beamReads u u.glint.m g).all (fun y => beamReady u u.glint.m y.2.2.2) = true) ∧
    (let u := (detS 511 .declared).advance (us 500)
     (detOf u 511).ev = some (evX .declared) ∧ (evX .declared).st = .declared ∧ glintC.hold * tickHz ≤ (u.now - (evX .declared).at_) * 1000000) ∧
    (let u := (setBeam 255 { BeamRun.start with par := some parD } (detS 511 .provisional)).advance (ms 8)
     (detOf u 511).ev = some (evX .provisional) ∧ u.glint.cfg = some glintC ∧ (beamRunOf u (511 / 2)).par = some parD ∧
      (evX .provisional).st ≠ .confirmed ∧ 4 * parD.cWin * tickHz ≤ (u.now - (evX .provisional).at_) * glintC.rate) ∧
    (let u := { tapS with glint.pins := [(9, pinX)], cond.run := [(3, { runX [] with next := 1, condNext := 1 })] }
     Tab.get u.glint.pins 9 = some pinX ∧ captureReady u pinX = true) := by decide +kernel

/-! ### Transmit -/

/-- Element 3 drives channel 0 of stream 0 in group 15, which runs at 1 kHz from time 0; gates open. -/
def driveE (z : Nat) : DriveEntry := ⟨3, 15, 1, 0, 0, z, 1, 65535⟩
def driveG (t0 : Option Nat) : DriveGroup := ⟨3, 1, 1000, 0, 1, 50, t0⟩
def gatesS : State := { State.reset with tb.gates := Vector.replicate 3 ⟨false, 0, 0⟩ }
def txS (z : Nat) : State :=
  { gatesS with cond.groups := [(0, parseGroup groupB)], cond.started := [(0, ⟨0, none⟩)], cond.elems := [(3, { ElemEntry.reset with flags := 3 })]
                cond.run := [(3, runX [])], tx.map := [driveE z], tx.groups := [(15, driveG (some 0))], tx.waves := [(65535, [1])] }
def waveB : Bytes := withCrc (le 2 65535 ++ le 2 0 ++ le 4 1 ++ zeros 8 ++ le 2 32768) 8
/-- A program of one direct beam in slot 63, from waveform table 65535. -/
def progB : Bytes :=
  let h := le 2 255 ++ [1, 0] ++ le 4 5
  let b := zeros 20 ++ ([63, 1, 0, 15] ++ le 4 0 ++ le 4 1 ++ zeros 20 ++ le 2 65535 ++ [1, 0] ++ zeros 8 ++ le 2 32767 ++ zeros 2)
  h ++ le 4 (crc32c (b.drop 20)).toNat ++ b
def mapB : Bytes := le 2 16383 ++ [15, 1] ++ le 2 0 ++ le 2 0 ++ le 4 0 ++ le 2 1 ++ le 2 65535
def dgroupB : Bytes := [15, 3] ++ le 2 4096 ++ le 4 4000000 ++ le 4 0 ++ [1, 0] ++ le 2 10000
/-- An echo calibration of element 3 by itself. -/
def echoB : Bytes :=
  le 2 3 ++ le 2 65535 ++ le 2 65535 ++ le 2 256 ++ le 4 0 ++ le 4 0 ++ le 2 4096 ++ le 2 0 ++ le 2 0 ++ le 2 1 ++ le 4 1 ++ zeros 12 ++ le 2 3
def startX (flags : Nat) (run : Option Nat) : Start := ⟨.command 7, 255, none, flags, 0, false, run, false⟩
def startS (x : Start) : State := { txS 1 with tx.starts := [(4, x)], tx.progs := [(255, ⟨5, [parseBeam progB 32]⟩)] }
def beamX : TxBeam := ⟨4, { parseBeam progB 32 with length := 1 }, [], 0, 0, 0, 0, 0, [], [], [], [], [], 0, 0, 0, false, none, true⟩

set_option maxRecDepth 100000 in
theorem test_met_TransmitCommandsAct :
    (waveformTableLoadChk (desc 18 [0]) waveB State.reset = none ∧ waveformTableLoadChk (desc 15 [0]) waveB State.reset = some (5, 16)) ∧
    (transmitProgramLoadChk (desc 80 [0]) progB (txS 1) = none ∧ transmitProgramLoadChk (desc 31 [0]) progB (txS 1) = some (5, 32)) ∧
    (driveMapLoadChk (desc 16 [0]) mapB State.reset = none ∧ driveMapLoadChk (desc 15 [0]) mapB State.reset = some (5, 16)) ∧
    (driveGroupLoadChk (desc 16 [0]) dgroupB (txS 1) = none ∧ fieldU dgroupB 0 1 = 15 ∧ Tab.get (txS 1).tx.groups 15 = some (driveG (some 0)) ∧
      driveGroupLoadChk (desc 16 [0]) dgroupB State.reset = none ∧ Tab.get State.reset.tx.groups 15 = none ∧
      driveGroupLoadChk (desc 15 [0]) dgroupB State.reset = some (5, 16)) ∧
    (let d := desc 0 ([15] ++ zeros 7 ++ le 8 9); let u := { txS 1 with tx.beams := [(63, beamX)] }
     descChk d [(32, 1), (40, 8)] = none ∧ nextGroup (txS 1) (par d 32 1) = some (driveG (some 0)) ∧
      (txS 1).tx.beams.all (fun p => decide (p.2.entry.group ≠ par d 32 1)) = true ∧ nextGroup u 15 = some (driveG (some 0)) ∧
      u.tx.beams.any (fun p => decide (p.2.entry.group = par d 32 1)) = true) ∧
    (let d := desc 0 ([255, 3] ++ zeros 6 ++ le 8 (2 ^ 64 - 1))
     transmitStartChk d (startS (startX 0 none)) = none ∧ par d 40 8 ≠ 0 ∧ transmitStartChk d State.reset = some (7, 255)) ∧
    (let d := desc 0 [255]
     descChk d [(32, 1)] = none ∧ stopTargets (startS (startX 0 none)) (par d 32 1) ≠ [] ∧
      (startS (startX 0 none)).twinEn = false ∧ stopTargets State.reset (par d 32 1) = []) ∧
    (echoCalibrationChk (desc 42 []) echoB (txS 1) = none ∧ echoCalibrationChk (desc 39 []) echoB (txS 1) = some (5, 40)) ∧
    (let d := desc 0 (le 2 3)
     descChk d [(32, 2)] = none ∧ driveEntry (txS 1) (par d 32 2) = some (driveE 1) ∧ (driveE 1).zNom ≠ 0 ∧ (txS 1).twinEn = false ∧
      driveEntry (txS 0) (par d 32 2) = some (driveE 0) ∧ (driveE 0).zNom = 0) := by decide +kernel

theorem test_met_takeT (d : Desc) :
    takeT d [] (startS (startX 0 none)) = (some 0, startS (startX 0 none)) ∧ takeT d [] (txS 1) = (some 0, txS 1) := ⟨rfl, rfl⟩

/-- A frame of the sense profile with one sample. -/
def senseF : RawFrame := frm 2 0 (zeros 4 ++ le 2 1 ++ le 2 1 ++ zeros 16 ++ zeros 8)
def echoX (rep : Nat) : EchoRun := ⟨4, { parseEcho echoB with lags := 3 }, 0, rep, 0, false, []⟩

theorem test_met_DriveOutputsAndProgramsRun :
    (let x := startX 1 none; let u := startS x
     nextDue u = some (4, x) ∧ x.preempts = false ∧ x.isGlint = false ∧ notReady u x = false ∧ tooSoon u x = false ∧
      (let v := { u with tx.newGroups := [(15, driveG none)] }
       nextDue v = some (4, x) ∧ (notReady v x || tooSoon v x) = true ∧ bitOf x.flags 0 = true) ∧
      (let y := startX 0 none; let v := { startS y with tx.newGroups := [(15, driveG none)] }
       nextDue v = some (4, y) ∧ (notReady v y || tooSoon v y) = true ∧ bitOf y.flags 0 = false)) ∧
    (let x := { startX 0 none with tS := some (ms 200) }; let u := (startS x).advance (ms 200 - 429496)
     nextDue u = some (4, x) ∧ x.preempts = false ∧ notReady u x = false ∧ tooSoon u x = false ∧ x.immediate = false) ∧
    (∀ f ∈ [1, 3], let x := { startX f none with held := true }; let u := startS x
     heldReady u = some (4, x) ∧ x.preempts = bitOf f 1 ∧ (f = 3 → slotTaken (preempt x u) x = false)) ∧
    (let x := { startX 3 none with held := true }; let u := { startS x with tx.beams := [(63, beamX)] }
     heldReady u = some (4, x) ∧ x.preempts = true ∧ slotTaken (preempt x u) x = true) ∧
    (let x := startX 0 (some 0); let u := { startS x with tx.beams := [(63, beamX)] }.advance (ms 1)
     Tab.get u.tx.starts 4 = some x ∧ x.running.isSome = true ∧ x.isEcho = false ∧ programOver u 4 = true) ∧
    (let u := { setQuad 15 { QuadState.reset with cfg := cfgOf 3, up := true } (txS 1) with tx.elems := [(3, { DriveRun.reset with next := some 0 })] }
     let chans := frameChans u 15 0 0 1
     Tab.get u.tx.groups 15 = some (driveG (some 0)) ∧ frameNext u (driveG (some 0)) (chans.filterMap id) = some 1 ∧
      frameReady u 15 1 1 (chans.filterMap id) (driveG (some 0)) = true) ∧
    (∀ r ∈ [2, 3], let u := setQuad 15 { QuadState.reset with cfg := cfgOf r, up := true } (txS 1)
     (quadHas u 15 2 = true ∨ quadHas u 15 3 = true) ∧ (quadOf u 15).up = true ∧ senseOk senseF = true ∧
      senseOk { senseF with damaged := true } = false) ∧
    (let u := (txS 1).advance (ms 3)
     (drivers u).find? (fun y => decide (y.element = 3)) = some (driveE 1) ∧ Tab.get u.tx.groups 15 = some (driveG (some 0)) ∧
      (let v := setDrive 3 { driveRun u 3 with block := some 0 } u
       ((0 : Nat) : Int) + spanTicks (8 * ((driveRun v 3).block.getD (firstBlock (driveG (some 0)) v.tw)) + 7 : Nat) 1 8000 + usTicks 2000 ≤ (v.tw : Int))) ∧
    (let kr := echoX 255; let u := { txS 1 with tx.echo := some kr }
     driveEntry u kr.cmd.drive = some (driveE 1) ∧
      delayOf ((viewNow u).elem kr.cmd.drive) kr.cmd.tbase (driveG (some 0)).rate 1 0 = some 131072 ∧ kr.rep < kr.cmd.repeats ∧
      driveTime (driveG (some 0)) (repeatIndex u kr (driveG (some 0)) kr.rep) - lagOf (driveG (some 0)) ≤ (u.tw : Int)) ∧
    (let kr := echoX 256; let u := { txS 1 with tx.echo := some kr, cond.run := [] }
     kr.cmd.repeats ≤ kr.rep ∧ kr.cmd.recv.all (recvReady u kr kr.cmd.repeats) = true) := by
  repeat' (refine And.intro ?_ ?_)
  all_goals decide +kernel
/-! ### Audio and Lightbox -/

/-- One audio block with one ring source and one capture sink; t0 is 1 ms ahead, to the tick. -/
def audioB : Bytes :=
  le 8 (ms 1) ++ [1, 1] ++ le 2 0 ++ zeros 4 ++ ([1, 0] ++ le 2 31 ++ le 4 48000 ++ le 4 1000000 ++ zeros 4) ++
    ([1, 1] ++ le 2 960 ++ le 4 8388607 ++ le 4 961 ++ le 2 4800 ++ zeros 2)
def audS : State := { State.reset with audio := audioBlock audioB }
/-- A routing set of one instruction. -/
def routB : Bytes :=
  let b := [7, 0, 0, 0] ++ zeros 4
  [255, 0] ++ le 2 1 ++ le 2 0 ++ zeros 2 ++ le 4 (crc32c b).toNat ++ zeros 20 ++ b
def routR : RoutingSet := parseRouting routB
/-- A scene of two layers at 60 Hz, one of them a surface of 1 by 1. -/
def layerB (src side : Nat) : Bytes :=
  le 1 src ++ zeros 3 ++ le 2 side ++ le 2 side ++ zeros 4 ++ le 2 side ++ le 2 side ++ zeros 3 ++ [8] ++ zeros 2 ++ le 2 0xFFFF ++ zeros 8 ++
    le 2 0xFFFF ++ le 2 0xFFFF ++ zeros 2 ++ le 2 0xFFFF ++ zeros 24
def sceneB : Bytes :=
  let b := [255, 2, 60, 0] ++ le 2 16 ++ le 2 2160 ++ le 4 0 ++ le 2 0xFFFF ++ zeros 2 ++ zeros 16 ++ layerB 1 1 ++ layerB 0 0
  b ++ le 4 (crc32c b).toNat
def sceneX : LbScene := parseScene sceneB
def sceneS : State := { State.reset with lbox := { LboxState.reset with scene := some sceneX, layers := [LbRun.empty, LbRun.empty] } }
/-- A marker table of one marker. -/
def markB : Bytes := withCrc (le 2 65534 ++ [4, 0] ++ le 4 1 ++ zeros 8 ++ (zeros 4 ++ [64, 1, 0, 0])) 8
def swapD (a : Nat) : Desc := desc 0 ([255] ++ zeros 7 ++ le 8 a)

set_option maxRecDepth 100000 in
theorem test_met_AudioAndLightboxCommandsAct :
    (audioConfigureChk (desc 48 []) audioB State.reset = none ∧ audioConfigureChk (desc 15 []) audioB State.reset = some (5, 16)) ∧
    (routingSetLoadChk (desc 40 [0]) routB audS = none ∧ audS.audio.idle = none ∧
      routingSetLoadChk (desc 40 [0]) routB { audS with audio.idle := some routR } = none ∧
      routingSetLoadChk (desc 31 [0]) routB audS = some (5, 32)) ∧
    (descChk (swapD 0) [(32, 1), (40, 8)] = none ∧ audS.audio.swap = none ∧ routR.id = par (swapD 0) 32 1 ∧
      audS.audio.idx < par (swapD 1) 40 8 ∧ 0 < ({ audS with audio.idx := 1 }).audio.idx ∧
      par (swapD 1) 40 8 ≤ ({ audS with audio.idx := 1 }).audio.idx ∧ ({ audS with audio.swap := some 5 }).audio.swap ≠ none) ∧
    (sceneLoadChk (desc 164 [0]) sceneB State.reset = none ∧ sceneLoadChk (desc 31 [0]) sceneB State.reset = some (5, 32)) ∧
    (lightboxTableLoadChk (desc 24 [0]) markB State.reset = none ∧ lightboxTableLoadChk (desc 15 [0]) markB State.reset = some (5, 16)) ∧
    (descChk (desc 4 [0]) [(32, 1)] = none ∧ sceneS.lbox.scene = some sceneX ∧ sceneX.layers[0]? = some (parseLayer sceneB 32) ∧
      (parseLayer sceneB 32).source = 1 ∧ sizeChk (desc 4 [0]) (parseLayer sceneB 32).bufBytes = none ∧
      sizeChk (desc 5 [0]) (parseLayer sceneB 32).bufBytes = some (5, 4) ∧ State.reset.lbox.scene = none) := by
  repeat' (refine And.intro ?_ ?_)
  all_goals decide +kernel

theorem test_met_AudioIndicesAndFramesRun :
    (let u := audS.advance (ms 1); u.audio.t0 = some (ms 1) ∧ audioTime (ms 1) u.audio.idx ≤ (u.tw : Int)) ∧
    (let u := audS.advance (ms 1 - 1); u.audio.t0 = some (ms 1) ∧ (u.tw : Int) < audioTime (ms 1) u.audio.idx) ∧
    State.reset.audio.t0 = none ∧
    (let u := { State.reset with lbox.pending := [sceneX] }; sceneDue u = some sceneX ∧ u.lbox.waiting = none) ∧
    (sceneDue State.reset = none ∧ State.reset.lbox.waiting = none ∧ State.reset.lbox.scene = none) ∧
    (let u := { sceneS with lbox.waiting := some [] }; u.lbox.waiting ≠ none ∧ sceneDue (tryFrame [] u) = none) ∧
    (sceneS.lbox.scene = some sceneX ∧ ({ sceneS with lbox.frame := 1 }).tw < sceneX.bound 1 ∧ sceneS.lbox.waiting = none) := by
  repeat' (refine And.intro ?_ ?_)
  all_goals decide +kernel

/-! ### Invariants and frames -/

theorem test_met_AtMostSixteenPinsAreOpen :
    ({ tapS with glint.pins := (List.range 16).map (fun i => (i, pinX)) }).glint.pins.length ≤ 16 ∧
    16 ≤ ({ tapS with glint.pins := (List.range 16).map (fun i => (i, pinX)) }).glint.pins.length ∧ State.reset.glint.pins.length ≤ 16 := by decide +kernel

theorem test_met_CommandsChangeOnlyTheirBlocks :
    exec (.adaptationDone 0 0) State.reset = .next State.reset ∧ Block.host ∉ mayChange (.adaptationDone 0 0) := ⟨rfl, by decide⟩

/-! ## The spec's worked examples -/

/-- Harrowmere group 0 and group 1 (worked examples of 02 and 03): 2 MS/s Even ratio 2, and 10 kS/s ratio 5. -/
def hGroup0 : GroupDesc := { groupD 0 10 with rate := 2000000, window := 200, decMode := 1, ratio := 2, chanLog2 := 9 }
def hGroup1 : GroupDesc := { groupD 0 11 with rate := 10000, window := 1000, decMode := 3, ratio := 5, chanLog2 := 6 }
/-- Element 2,500 of group 1, with delay_int 3. -/
def hElem : State :=
  { State.reset with cond.groups := [(1, hGroup1)], cond.elems := [(2500, { ElemEntry.reset with flags := 1, group := 1, delayInt := 3 })] }

/-- 13, R309: the check value of CRC-32C. -/
theorem test_spec_crc : crc32c [0x31, 0x32, 0x33, 0x34, 0x35, 0x36, 0x37, 0x38, 0x39] = 0xE3069283 := by decide +kernel
/-- 01, R13: engine 173, and Table 01-4. -/
theorem test_spec_domain : engineDomain 173 = 6 ∧
    domainEngines 6 = [12, 13, 44, 45, 76, 77, 108, 109, 140, 141, 172, 173, 204, 205, 236, 237] := by decide +kernel
/-- 02, R40 and R67: rings of 67 and 6 blocks; MONITOR.GDLY and GDLY_INFO of element 2,500. -/
theorem test_spec_conditioning : hGroup0.slots = 4288 ∧ hGroup1.slots = 384 ∧ hGroup0.delay2 = 78 ∧ gdlyOf hElem 2500 = (200, 0x3E005) := by
  decide +kernel
/-- 03, R79: rotation of channels 100 and 460 with cal_delay +1,250 ps. -/
theorem test_spec_rotation : rotIdx hGroup0 1250 100 = 8 ∧ rotIdx hGroup0 1250 460 = 37 := by decide +kernel
/-- 03, Table 03-11 and 04: tiles of plans of 2,048 and 4,096 elements. -/
theorem test_spec_tiles : (planV 2048).nt = 2080 ∧ (planV 4096).nt = 8256 ∧ tileAt 64 0 232 = (100 / 32, 1500 / 32) := by decide +kernel
/-- 06: one job of pool 2 takes 133,120 handshakes. -/
theorem test_spec_handshakes : ({ poolX 1 with stroke := 2048 } : Pool).handshakes (planV 2048) 0 = 133120 := by decide +kernel
/-- 09, R230: the ring position at audio index 1,000 is 13, phase 85. -/
theorem test_spec_ring_position : audioPos (audioTime 0 960) 20000 16000 1 = (0, 0) ∧ audioPos (audioTime 0 1000) 20000 16000 1 = (13, 85) := by
  decide +kernel
/-- 10: column 520 of layer 1 reads index 32, phase 2; a palette red of 4,000 at alpha 192 over 1,000; map value 1.5 · 2^40 has index 120. -/
theorem test_spec_pixels : scalePos 520 64 1024 = (32, 2) ∧ (blend ⟨4000, 0, 0, 192⟩ ⟨1000, 0, 0, 255⟩).r = 3259 ∧
    mapIndex { parseLayer (zeros 64) 0 with format := 1, lo := 2560 } { poolX 1 with pfmt := 1 } 0x53C00000 = 120 := by decide +kernel
/-- 11: Δ of 31.36 µs. -/
theorem test_spec_offset : roundDiv (-31360 * tickHz) 1000000000 = -134690 := by decide +kernel
/-- 13: values −5 and 300 of an ingest frame lie in bytes FB CF 12. -/
theorem test_spec_ingest : packed12 [0xFB, 0xCF, 0x12] 0 0 = -5 ∧ packed12 [0xFB, 0xCF, 0x12] 0 1 = 300 := by decide +kernel
/-- 14, Table 14-11: the layout with AFTER 28 and CHBUF 48. -/
theorem test_spec_layout : let s := { State.reset with hbm.layA := 0x80601C, hbm.layB := 0x40804 }
    regionBase s 1 = 0x1C0000000 ∧ regionBase s 2 = 0x4C0000000 ∧ regionBase s 5 = 0x740000000 ∧ regionBase s 6 = 0x750000000 := by decide +kernel
/-- 16: a fence of engine 2 reports subject 258. -/
theorem test_spec_subject : engSubject 2 = 258 := by decide
/-- 19: the addresses that the driver computes. -/
theorem test_spec_addresses : regAt 0x33944 = some (.laneTest 57) ∧ regAt 0x11038 = some (.ringCfg 3) ∧ regAt 0x53004 = some (.domStat 6) ∧
    regAt 0x6005C = some (.winValue 5 2) := by decide +kernel

end Sys2Proof.Tests
end

/-!
What the passing of time does, part by part (the clock and PPSOUT, the DPLL, the walk, the time word), and from these O6.
-/
namespace Sys2Proof.Machine

/-! ## The slew of the DPLL (R276) -/

theorem slewStep_pos (s : State) : 0 < slewStep s := by unfold slewStep; omega

/-- A run longer than the way to its goal ends at the goal. -/
theorem dpllRun_arrives {f g : Int} {r dt : Nat} (h : (g - f).natAbs / r < dt) : (dpllRun f g r dt).1 = g := by
  simp [dpllRun, Nat.min_eq_right h.le, h]

/-- A run that does not get past its goal moves by the whole slew rate in every tick. -/
theorem dpllRun_underway {f g : Int} {r dt : Nat} (h : dt ≤ (g - f).natAbs / r) :
    (dpllRun f g r dt).1 = f + (if g - f < 0 then -(r : Int) else r) * dt := by
  simp [dpllRun, Nat.min_eq_left h]

theorem dpllRun_sub_start_le (f g : Int) {r : Nat} (hr : 0 < r) (dt : Nat) : ((dpllRun f g r dt).1 - f).natAbs ≤ r * dt := by
  by_cases h : (g - f).natAbs / r < dt
  · rw [dpllRun_arrives h, Nat.mul_comm]
    exact ((Nat.div_lt_iff_lt_mul hr).1 h).le
  · rw [dpllRun_underway (not_lt.1 h), add_sub_cancel_left, Int.natAbs_mul, Int.natAbs_natCast]
    exact Nat.mul_le_mul_right _ (by split <;> omega)

theorem dpllRun_sub_goal_le (f g : Int) {r : Nat} (hr : 0 < r) (dt : Nat) : ((dpllRun f g r dt).1 - g).natAbs ≤ (f - g).natAbs := by
  by_cases h : (g - f).natAbs / r < dt
  · simp [dpllRun_arrives h]
  · have hway : dt * r ≤ (g - f).natAbs := (Nat.le_div_iff_mul_le hr).1 (not_lt.1 h)
    have hcast : ((dt * r : Nat) : Int) = r * dt := by push_cast; ring
    rw [dpllRun_underway (not_lt.1 h)]
    split
    · rw [Int.neg_mul, ← hcast]; omega
    · rw [← hcast]; omega

/-- A span is two runs at the slew rate: while the walk lasts, and behind its end towards the goal that then holds. -/
theorem dpllNext_fst_two_runs (s : State) (dt : Nat) : ∃ g : Int, (dpllNext s dt).1 =
    (dpllRun (dpllRun s.tb.freq (dpllGoal s) (slewStep s) (walkTicks s dt)).1 g (slewStep s) (dt - walkTicks s dt)).1 := ⟨_, rfl⟩

theorem walkTicks_le (s : State) (dt : Nat) : walkTicks s dt ≤ dt := by unfold walkTicks; split <;> omega

theorem dpllNext_sub_freq_le (s : State) (dt : Nat) : ((dpllNext s dt).1 - s.tb.freq).natAbs ≤ slewStep s * dt := by
  obtain ⟨g, hg⟩ := dpllNext_fst_two_runs s dt
  have hwalk := dpllRun_sub_start_le s.tb.freq (dpllGoal s) (slewStep_pos s) (walkTicks s dt)
  have hrest := dpllRun_sub_start_le (dpllRun s.tb.freq (dpllGoal s) (slewStep s) (walkTicks s dt)).1 g (slewStep_pos s)
    (dt - walkTicks s dt)
  have hsum : slewStep s * walkTicks s dt + slewStep s * (dt - walkTicks s dt) = slewStep s * dt := by
    rw [← Nat.mul_add, Nat.add_sub_cancel' (walkTicks_le s dt)]
  rw [hg]
  omega

/-! ## The walk (R274, R277) -/

theorem walkedO_of_not_walking {s : State} (h : s.tb.walking = false) (dt : Nat) : walkedO s dt = s.tb.oNano := by
  simp [walkedO, h]

theorem walkedO_of_gated {s : State} (h : gated s = true) (dt : Nat) : walkedO s dt = s.tb.oNano := by
  simp [walkedO, h]

theorem natAbs_walkedO {s : State} (hw : s.tb.walking = true) (hg : gated s = false) (dt : Nat) :
    (walkedO s dt).natAbs = s.tb.oNano.natAbs - walkRate s * dt := by
  have hcast : (dt : Int) * walkRate s = ((dt * walkRate s : Nat) : Int) := by push_cast; rfl
  simp only [walkedO, hw, hg, Bool.not_false, Bool.and_self, if_true, hcast, Nat.mul_comm (walkRate s) dt]
  split
  · omega
  · split <;> omega

/-- Without a walk the DPLL has one goal over the whole span. -/
theorem dpllNext_of_not_walking {s : State} (h : s.tb.walking = false) (dt : Nat) :
    dpllNext s dt = dpllRun s.tb.freq (dpllGoal s) (slewStep s) dt := by
  have hk : walkTicks s dt = 0 := by simp [walkTicks, h]
  simp only [dpllNext, hk, dpllRun_zero, walkedO_of_not_walking h, ite_self, Nat.sub_zero, zero_add]

/-! ## The passing of time, field by field -/

theorem advance_freq (t : Tick) (s : State) : (s.advance t).tb.freq = (dpllNext s ((s.advance t).now - s.now)).1 := rfl

theorem advance_freqSum (t : Tick) (s : State) :
    (s.advance t).tb.freqSum - s.tb.freqSum = (dpllNext s ((s.advance t).now - s.now)).2 := add_sub_cancel_left _ _

theorem advance_tOffset (t : Tick) (s : State) : (s.advance t).tOffset =
    s.tOffset + (s.tb.phase + (dpllNext s ((s.advance t).now - s.now)).2).fdiv (2 * dpllUnit) := rfl

theorem advance_phase (t : Tick) (s : State) : (s.advance t).tb.phase =
    (s.tb.phase + (dpllNext s ((s.advance t).now - s.now)).2).fmod (2 * dpllUnit) := rfl

theorem advance_oNano (t : Tick) (s : State) : (s.advance t).tb.oNano = walkedO s ((s.advance t).now - s.now) := rfl

/-- PPSOUT falls 100 ms after it rose (R280). -/
theorem advance_ppsRise_of_high (t : Tick) {s : State} {r : Nat} (h : s.tb.ppsRise = some r) :
    (s.advance t).tb.ppsRise = if (max s.now t - r) * 1000 < 100 * tickHz then some r else none := by
  simp only [State.advance, h, atLeastMs, decide_eq_true_eq, ← not_lt, ite_not]

theorem advance_ppsRise_of_low (t : Tick) {s : State} (h : s.tb.ppsRise = none) : (s.advance t).tb.ppsRise = none := by
  simp [State.advance, h]

theorem advance_lockFrom_of_near (t : Tick) {s : State} (h : (s.tb.freq - refFreq s).natAbs ≤ 50000 * 2 ^ 32) :
    (s.advance t).tb.lockFrom = s.tb.lockFrom := if_pos h

theorem dpllUnit_pos : 0 < dpllUnit := by decide

/-- The phase is the fraction of a unit that the time word has not yet gained. -/
theorem advance_phase_range (t : Tick) (s : State) : 0 ≤ (s.advance t).tb.phase ∧ (s.advance t).tb.phase < 2 * dpllUnit := by
  have hpos : 0 < 2 * dpllUnit := by have := dpllUnit_pos; omega
  rw [advance_phase]
  exact ⟨Int.fmod_nonneg_of_pos _ hpos, Int.fmod_lt_of_pos _ hpos⟩

/-- The time word and its phase together gain what the frequency adds up to (R259). -/
theorem advance_tOffset_add_phase (t : Tick) (s : State) :
    2 * dpllUnit * (s.advance t).tOffset + (s.advance t).tb.phase =
      2 * dpllUnit * s.tOffset + s.tb.phase + ((s.advance t).tb.freqSum - s.tb.freqSum) := by
  rw [advance_tOffset, advance_phase, advance_freqSum, Int.mul_add, Int.add_assoc, Int.mul_fdiv_add_fmod, Int.add_assoc]

/-- Settles O6, from the lemmas on the DPLL's runs, the walk and each field that time moves. -/
theorem timeOnlyAdvances : Obligations.TimeOnlyAdvances := by
  intro t s v
  obtain ⟨hphase0, hphase1⟩ := advance_phase_range t s
  refine ⟨advance_now t s, fun _ => advance_ppsRise_of_high t, advance_ppsRise_of_low t, rfl, rfl, ?_, hphase0, hphase1,
    advance_tOffset_add_phase t s, fun hw => ⟨?_, ?_, ?_⟩, fun _ hg => ?_, fun hw hg => ?_, advance_lockFrom_of_near t⟩
  · rw [advance_freq]
    exact dpllNext_sub_freq_le s _
  · rw [advance_freq, dpllNext_of_not_walking hw]
    exact dpllRun_sub_goal_le _ _ (slewStep_pos s) _
  · rw [advance_oNano, walkedO_of_not_walking hw]
  · rw [advance_freqSum, dpllNext_of_not_walking hw]
  · rw [advance_oNano, walkedO_of_gated hg]
  · rw [advance_oNano, natAbs_walkedO hw hg]

end Sys2Proof.Machine

/-!
The voltage loop and the device power cap (16_management.md): what a slack window, a settled step, a lowering step and a power check do
to their domain, and from these O29.
-/
namespace Sys2Proof.Machine

/-! ## Bands and steps of one domain (R20, R413 to R415) -/

theorem bandOf_of_neg {x : Int × Nat} (h : x.1 < 0) (atCeil : Bool) : bandOf x atCeil = .missed := if_pos h

theorem bandOf_of_ample {x : Int × Nat} (h : (x.2 : Int) ≤ x.1 * 4) (hp : 0 < x.2) (atCeil : Bool) : bandOf x atCeil = .ample := by
  have h0 : ¬ x.1 < 0 := by omega
  have h10 : ¬ x.1 * 10 < x.2 := by omega
  simp [bandOf, h0, h10, not_lt.2 h]

/-- A domain whose slack is not below the Tight bound, or whose voltage may still rise, is not in the Short band. -/
@[simp] theorem shortBand_false (d : Nat) (s : State) : shortBand d false s = setDom d { domOf s d with capped := false } s := rfl

@[simp] theorem domOf_stepVoltage {d : Nat} (h : d < 17) (v : Nat) (s : State) :
    domOf (stepVoltage d v s) d = { domOf s d with vnow := v, stepAt := some s.now, slacks := [], since := 0 } :=
  domOf_setDom d _ s h

/-- The state in which a slack window outside the Short band moves the voltage: its band is noted, and the domain is not capped. -/
def bandNoted (d : Nat) (b : Band) (s : State) : State := shortBand d false (setDom d { domOf s d with band := b } s)

theorem domOf_bandNoted {d : Nat} (h : d < 17) (b : Band) (s : State) :
    domOf (bandNoted d b s) d = { domOf s d with band := b, capped := false } := by
  simp [bandNoted, h]

@[simp] theorem bandNoted_now (d : Nat) (b : Band) (s : State) : (bandNoted d b s).now = s.now := rfl

section
variable {t : Tick} {d : Fin 16} {s u : State} {x : Int × Nat} (hu : s.advance t = u)
include hu

/-- The Missed band raises at once, without 64 strokes between (R413). -/
theorem execSlackWindowEval_missed (hx : lowSlack (domOf u d.val).slacks = some x) (hneg : x.1 < 0)
    (hlost : (domOf u d.val).lost = false) (htrip : u.mgmt.trip = false) (hstep : (domOf u d.val).stepAt = none)
    (hceil : (domOf u d.val).vnow < domCeil u d.val) :
    execSlackWindowEval t d s = .next (stepVoltage d.val ((domOf u d.val).vnow + 1) (bandNoted d.val .missed u)) := by
  simp [execSlackWindowEval, bandNoted, hu, hx, hlost, htrip, hstep, bandOf_of_neg hneg, not_le.2 hceil]

/-- The Ample band lowers once 64 strokes have passed since the last step (R413). -/
theorem execSlackWindowEval_ample (hx : lowSlack (domOf u d.val).slacks = some x) (hample : (x.2 : Int) ≤ x.1 * 4) (hp : 0 < x.2)
    (hlost : (domOf u d.val).lost = false) (htrip : u.mgmt.trip = false) (hstep : (domOf u d.val).stepAt = none)
    (hsince : 64 ≤ (domOf u d.val).since) (hwin : (domOf u d.val).slacks.length = 64) (hv : 0 < (domOf u d.val).vnow) :
    execSlackWindowEval t d s = .next (stepVoltage d.val ((domOf u d.val).vnow - 1) (bandNoted d.val .ample u)) := by
  have hlow : ¬ x.1 * 10 < x.2 := by omega
  simp [execSlackWindowEval, bandNoted, hu, hx, hlost, htrip, hstep, bandOf_of_ample hample hp, hlow, hsince, hwin, hv]

theorem execVoltageSettled_stepping {a : Nat} (h : (domOf u d.val).stepAt = some a) :
    execVoltageSettled t d s = .next (setDom d.val { domOf u d.val with stepAt := none, slacks := [] } u) := by
  simp only [execVoltageSettled, hu, h]

/-- Above the effective ceiling the voltage falls, whatever the slack (R414). -/
theorem execCeilingLoweringStep_above (hlost : (domOf u d.val).lost = false) (hstep : (domOf u d.val).stepAt = none)
    (hceil : domCeil u d.val < (domOf u d.val).vnow) :
    execCeilingLoweringStep t d s = .next (stepVoltage d.val ((domOf u d.val).vnow - 1) u) := by
  simp [execCeilingLoweringStep, hu, hlost, hstep, hceil]

end

/-! ## Device power (R416) -/

/-- What every step of a fold over states keeps, the fold keeps. -/
theorem foldl_keeps {α β : Type} (g : State → β) (f : State → α → State) (l : List α) (s : State)
    (h : ∀ u, ∀ a ∈ l, g (f u a) = g u) : g (l.foldl f s) = g s :=
  List.foldlRecOn (motive := fun u => g u = g s) l f rfl (fun u hu a ha => (h u a ha).trans hu)

@[simp] theorem domOf_monSample (kind subject : Nat) (v : Int) (s : State) (i : Nat) : domOf (monSample kind subject v s) i = domOf s i := rfl
@[simp] theorem monSample_pcap (kind subject : Nat) (v : Int) (s : State) : (monSample kind subject v s).mgmt.pcap = s.mgmt.pcap := rfl

theorem notePower_pceil {d : Nat} (hd : d < 17) (mw : Nat) (s : State) (i : Nat) :
    (domOf (notePower d mw s) i).pceil = (domOf s i).pceil := by
  unfold notePower
  split
  · rfl
  · by_cases hi : i = d
    · subst hi
      simp [hd]
    · simp [domOf_setDom_ne _ _ _ _ hi]

theorem notePower_pcap (d mw : Nat) (s : State) : (notePower d mw s).mgmt.pcap = s.mgmt.pcap := by
  unfold notePower
  split <;> rfl

theorem notePowers_pceil (mw : Vector Nat 17) (s : State) (i : Nat) : (domOf (notePowers mw s) i).pceil = (domOf s i).pceil := by
  unfold notePowers
  exact foldl_keeps (fun u => (domOf u i).pceil) _ _ s (fun u d hd => notePower_pceil (List.mem_range.1 hd) _ u i)

theorem notePowers_pcap (mw : Vector Nat 17) (s : State) : (notePowers mw s).mgmt.pcap = s.mgmt.pcap := by
  unfold notePowers
  exact foldl_keeps (fun u => u.mgmt.pcap) _ _ s (fun u d _ => notePower_pcap d _ u)

theorem pcapMw_of_pcap {s u : State} (h : u.mgmt.pcap = s.mgmt.pcap) : pcapMw u = pcapMw s := by simp only [pcapMw, h]

/-- A running choice of the larger value stays in the list, and no value seen exceeds it. -/
theorem foldl_larger_spec (f : Nat → Nat) (l : List Nat) (a : Nat) :
    let k := l.foldl (fun a d => if decide (f a < f d) then d else a) a
    (k = a ∨ k ∈ l) ∧ f a ≤ f k ∧ ∀ d ∈ l, f d ≤ f k := by
  induction l generalizing a with
  | nil => simp
  | cons d l ih =>
    obtain ⟨hmem, hstart, hall⟩ := ih (if decide (f a < f d) then d else a)
    have hboth : f a ≤ f (if decide (f a < f d) then d else a) ∧ f d ≤ f (if decide (f a < f d) then d else a) := by
      by_cases hlt : f a < f d
      · simp [hlt, hlt.le]
      · simp [hlt, not_lt.1 hlt]
    simp only [List.foldl_cons, List.mem_cons, forall_eq_or_imp]
    refine ⟨?_, hboth.1.trans hstart, hboth.2.trans hstart, hall⟩
    rcases hmem with hk | hk
    · rw [hk]
      split <;> simp
    · exact .inr (.inr hk)

/-- The domain that gives up power is an engine domain, and none uses more. -/
theorem pickDomain_largest (f : Nat → Nat) :
    pickDomain (fun d a => decide (f a < f d)) < 16 ∧ ∀ i < 16, f i ≤ f (pickDomain (fun d a => decide (f a < f d))) := by
  obtain ⟨hmem, -, hall⟩ := foldl_larger_spec f (List.range 16) 0
  refine ⟨?_, fun i hi => hall i (List.mem_range.2 hi)⟩
  rcases hmem with hk | hk
  · exact hk.trans_lt (by decide)
  · exact List.mem_range.1 hk

/-- The device power that a check has noted, and the count of milliseconds below PCAP at 0. -/
def powerNoted (mw : Nat) (s : State) : State := { monSample 8 17 mw { s with mgmt.powerMw := mw } with mgmt.lowMs := 0 }

@[simp] theorem domOf_powerNoted (mw : Nat) (s : State) (i : Nat) : domOf (powerNoted mw s) i = domOf s i := rfl
@[simp] theorem powerNoted_powerMw (mw : Nat) (s : State) : (powerNoted mw s).mgmt.powerMw = mw := rfl
@[simp] theorem powerNoted_lowMs (mw : Nat) (s : State) : (powerNoted mw s).mgmt.lowMs = 0 := rfl

/-- Lower the power ceiling of a domain by one code. -/
def lowerPceil (k : Nat) (s : State) : State := setDom k { domOf s k with pceil := (domOf s k).pceil - 1 } s

@[simp] theorem lowerPceil_powerMw (k : Nat) (s : State) : (lowerPceil k s).mgmt.powerMw = s.mgmt.powerMw := rfl
@[simp] theorem lowerPceil_lowMs (k : Nat) (s : State) : (lowerPceil k s).mgmt.lowMs = s.mgmt.lowMs := rfl

theorem lowerPceil_pceil {k : Nat} (hk : k < 17) (s : State) (i : Nat) :
    (domOf (lowerPceil k s) i).pceil = if i = k then (domOf s i).pceil - 1 else (domOf s i).pceil := by
  unfold lowerPceil
  split
  case isTrue h => simp [h, hk]
  case isFalse h => rw [domOf_setDom_ne _ _ _ _ h]

theorem exec_powerCapCheck (t : Tick) (mw : Nat) (dm : Vector Nat 17) (s : State) :
    exec (.powerCapCheck t mw dm) s = execPowerCapCheck t mw dm s := rfl

/-- Above PCAP the check lowers the power ceiling of the domain that uses most (R416). -/
theorem execPowerCapCheck_above {t : Tick} {mw : Nat} {dm : Vector Nat 17} {s u : State} (hu : notePowers dm (s.advance t) = u)
    (hlost : (domOf u 16).lost = false) (hcap : pcapMw u < mw) :
    execPowerCapCheck t mw dm s =
      .next (lowerPceil (pickDomain (fun d a => decide (vget dm a 0 < vget dm d 0))) (powerNoted mw u)) := by
  have hcap' : pcapMw (monSample 8 17 mw { u with mgmt.powerMw := mw }) < mw := hcap
  simp only [execPowerCapCheck, hu, hlost, if_pos hcap', Bool.false_eq_true, if_false]
  rfl

/-- Settles O29, from what each of the four commands does when its premises hold. -/
theorem voltageFollowsTheSlack : Obligations.VoltageFollowsTheSlack := by
  intro t d x a mw dm s u m
  have hd : d.val < 17 := d.isLt.trans (by decide)
  refine ⟨fun hx hneg _ hlost htrip hstep hceil _ => ?_, fun hx hample hp hlost htrip hstep hsince hwin hv => ?_,
    execVoltageSettled_stepping rfl, execCeilingLoweringStep_above rfl, fun hlost hcap => ?_⟩
  · refine ⟨_, execSlackWindowEval_missed (u := u) rfl hx hneg hlost htrip hstep hceil, ?_⟩
    simp [hd, domOf_bandNoted, m]
  · refine ⟨_, execSlackWindowEval_ample (u := u) rfl hx hample hp hlost htrip hstep hsince hwin hv, ?_⟩
    simp [hd, domOf_bandNoted, m]
  · obtain ⟨hk, hlargest⟩ := pickDomain_largest (fun i => vget dm i 0)
    have hcap' : pcapMw (notePowers dm u) < mw := by rwa [pcapMw_of_pcap (notePowers_pcap dm u)]
    refine ⟨_, _, (exec_powerCapCheck t mw dm s).trans (execPowerCapCheck_above rfl hlost hcap'), by simp, by simp, hk, hlargest,
      fun i _ => ?_⟩
    rw [lowerPceil_pceil (hk.trans (by decide)), domOf_powerNoted, notePowers_pceil]

end Sys2Proof.Machine

/-!
A released block whose successor the element does not take (R39, R44): the run jumps on to the block at which the element is enabled
again, which refutes O45.
-/
namespace Sys2Proof.Machine

/-- A group of 1,000 samples per second, without a window. -/
def pauseGroup : GroupDesc := ⟨1000, 0, 0, 0, 0, 1, 0, 0, 0, 0, 0, 6, 4, 0, 0, 0xFFFF, 0xFFFF, 0, 1, 0xFF⟩

/-- Element 0 receives in started group 0 from block 0; one pending change disables it at block 1, the next enables it again at block 2. -/
def pauseState : State := { State.reset with
  cond.groups := [(0, pauseGroup)]
  cond.elems := [(0, { ElemEntry.reset with flags := 1 })]
  cond.started := [(0, ⟨0, none⟩)]
  cond.pending := [⟨64, .elems [(0, ElemEntry.reset)]⟩, ⟨128, .elems [(0, { ElemEntry.reset with flags := 1 })]⟩]
  cond.run := [(0, newRun 0 pauseGroup 0 0)] }

/-- One second in, block 0 is the oldest of its element and past its deadline, so that BLOCK_RELEASE releases it; with its release the run
stands at block 2, since the element takes no block 1. -/
theorem pauseState_release :
    let u := pauseState.advance tickHz
    let r := newRun 0 pauseGroup 0 0
    (Tab.get u.cond.run 0 = some r ∧ oldestBlock u 0 r = some 0 ∧
      activeAt u 0 0 = some ({ ElemEntry.reset with flags := 1 }, pauseGroup) ∧
      deadlineDue (originAt u 0 0 r).tOrg pauseGroup 0 u.tw false = true) ∧
    (Tab.get (releaseBlock 0 0 r u).cond.run 0).map (·.next) = some 2 := by
  decide +kernel

/-- Refutes O45: its clause on a released block has the run stand at the next block, `b + 1`. In `pauseState` the element is disabled at
block 1 and enabled again at block 2 when block 0 is released, so that the run stands at block 2. -/
theorem not_ingestPlacesSamplesAndReleasesBlocks : ¬ Obligations.IngestPlacesSamplesAndReleasesBlocks := by
  intro h
  obtain ⟨-, -, ⟨r', _, hrun, hnext, -⟩, -⟩ := h tickHz 0 ⟨0, 0, 0, 0, 0, [], 0, false, false⟩ 0 0 0 (newRun 0 pauseGroup 0 0)
    ElemEntry.reset pauseGroup pauseState
  obtain ⟨-, hjump⟩ := pauseState_release
  rw [show Tab.get (releaseBlock 0 0 (newRun 0 pauseGroup 0 0) (pauseState.advance tickHz)).cond.run 0 = some r' from hrun,
    Option.map_some, hnext] at hjump
  exact absurd hjump (by decide)

end Sys2Proof.Machine

/-!
The commands of chapter 02 (R35, R37, R39, R510): what a change that acts at once puts into the table, what the runs of elements leave alone,
and what each command does once its checks are known; from these O42.
-/
namespace Sys2Proof.Machine

/-! ## What the runs leave alone

The work on runs and rings writes no table: the element table, the pending changes and the started groups stay. -/

/-- The element table, the pending changes and the started groups. -/
def State.tables (s : State) : Tab ElemEntry × List Pend × Tab GroupRun := (s.cond.elems, s.cond.pending, s.cond.started)

@[simp] theorem setRun_tables (e : Nat) (r : ElemRun) (s : State) : (setRun e r s).tables = s.tables := rfl

@[simp] theorem modCnt_tables (e : Nat) (f : ElemCnt → ElemCnt) (s : State) : (modCnt e f s).tables = s.tables := rfl

@[simp] theorem glintSkip_tables (e next : Nat) (s : State) : (glintSkip e next s).tables = s.tables := by
  unfold glintSkip
  split <;> rfl

@[simp] theorem skipTo_tables (e : Nat) (d : GroupDesc) (b : Nat) (s : State) : (skipTo e d b s).tables = s.tables :=
  glintSkip_tables e _ s

@[simp] theorem enterSpan_tables (e from_ : Nat) (s : State) : (enterSpan e from_ s).tables = s.tables := by
  unfold enterSpan
  split
  · split <;> rfl
  · rfl

@[simp] theorem beginRun_tables (e tOrg : Nat) (d : GroupDesc) (b delay : Nat) (s : State) : (beginRun e tOrg d b delay s).tables = s.tables := by
  simp [beginRun]

@[simp] theorem jumpRun_tables (e : Nat) (s : State) : (jumpRun e s).tables = s.tables := by
  unfold jumpRun
  split
  · rfl
  · extract_lets b w
    have hw : w.tables = s.tables := by
      unfold w
      split <;> simp
    split
    · rfl
    · rw [enterSpan_tables, setRun_tables, hw]

@[simp] theorem resizeRing_tables (e b size : Nat) (s : State) : (resizeRing e b size s).tables = s.tables := by
  unfold resizeRing
  split <;> simp

@[simp] theorem fitRing_tables (e : Nat) (s : State) : (fitRing e s).tables = s.tables := by
  unfold fitRing
  extract_lets w
  have hw : w.tables = s.tables := jumpRun_tables e s
  split
  · exact hw
  · split
    · split <;> simp [hw]
    · exact hw

@[simp] theorem fitRings_tables (s : State) : (fitRings s).tables = s.tables :=
  foldl_keeps State.tables _ _ s fun u e _ => fitRing_tables e u

/-! ## Changes of the element table (R39) -/

theorem eq_nil_of_eraseDups_eq_nil {l : List Nat} (h : l.eraseDups = []) : l = [] :=
  List.eq_nil_iff_forall_not_mem.2 fun _ ha => List.not_mem_nil (h ▸ List.mem_eraseDups.2 ha)

/-- A change of which nothing waits acts at once with all its items. -/
theorem splitChange_fst_of_snd_nil {act : Nat} {items : List (Nat × ElemEntry)} {s : State} (h : (splitChange act items s).2 = []) :
    (splitChange act items s).1 = .elems items := by
  simp only [splitChange, List.map_eq_nil_iff] at h ⊢
  have hnone := List.filter_eq_nil_iff.1 (List.map_eq_nil_iff.1 (eq_nil_of_eraseDups_eq_nil h))
  refine congrArg _ (List.filter_eq_self.2 fun p hp => ?_)
  rw [Bool.not_eq_true', ← Bool.not_eq_true]
  exact hnone p hp

/-- Without a pending part a change puts its items into the element table, and nothing is pending that was not. -/
theorem enterChange_nil_tables (es : List (Nat × ElemEntry)) (s : State) :
    (enterChange (.elems es) [] s).tables = (putElems s.cond.elems es, s.cond.pending, s.cond.started) :=
  fitRings_tables _

/-- A change has a part that acts at once. -/
def PendKind.acts : PendKind → Bool
  | .elems es => !es.isEmpty
  | .group _ _ => true

/-- The parts of an element table change with data `b`: what acts at once, and what waits. -/
def tableParts (b : Bytes) (act : Nat) (u : State) : PendKind × List Pend := splitChange act (changeItems b (fieldU b 0 4)) u

/-- The state in which an element table change has been entered: its parts, its entries in the configuration digest, and the afterimage laid
out anew where a rate moved. -/
def tableChanged (b : Bytes) (act : Nat) (u : State) : State :=
  let pend := (tableParts b act u).2.map (clampPend u)
  afterCheck (digestItems b (fieldU b 0 4) (changeItems b (fieldU b 0 4)) (itemTime u pend) (enterChange (tableParts b act u).1 pend u))

section
variable {d : Desc} {data : Bytes} {u : State}

theorem runElementTableChange_of_failed {c : Nat × Nat} (h : elementTableChangeChk d data u = some c) :
    runElementTableChange d data u = refuse d c u := by
  simp only [runElementTableChange, h]

/-- An element table change that passes its checks and those of R511 is entered; what completes it is the acceptance of a command that acts
at once, or, while a part waits, a completion that disturbs the open recoveries when a part acts now (R458). -/
theorem runElementTableChange_of_passed {p : PendKind × List Pend} (hp : tableParts (dataOf d data) (par d 32 8) u = p)
    (h : elementTableChangeChk d data u = none) (hchg : changeChk u [p.1] (withPends u (p.2.map (clampPend u))) = none) :
    runElementTableChange d data u =
      if (p.2.map (clampPend u)).isEmpty then accept d (tableChanged (dataOf d data) (par d 32 8) u)
      else complete d stOk 0 (if p.1.acts then disturb (tableChanged (dataOf d data) (par d 32 8) u)
        else tableChanged (dataOf d data) (par d 32 8) u) := by
  subst hp
  unfold tableParts at hchg
  simp only [runElementTableChange, h, hchg]
  rfl

end

/-- How an element table change that passes every check completes (R39, R458). -/
theorem exec_elementTableChange_of_passed {t : Tick} {d : Desc} {data : Bytes} {s u : State} {p : PendKind × List Pend} (hu : s.advance t = u)
    (hp : tableParts (dataOf d data) (par d 32 8) u = p) (h : elementTableChangeChk d data u = none)
    (hchg : changeChk u [p.1] (withPends u (p.2.map (clampPend u))) = none) :
    let w := tableChanged (dataOf d data) (par d 32 8) u
    (p.2 = [] → exec (.elementTableChange t d data) s = .next (accept d w)) ∧
    (p.2 ≠ [] → p.1 = .elems [] → exec (.elementTableChange t d data) s = .next (complete d 0 0 w)) ∧
    (∀ y l, p.2 ≠ [] → p.1 = .elems (y :: l) → exec (.elementTableChange t d data) s = .next (complete d 0 0 (disturb w))) := by
  have hrun : exec (.elementTableChange t d data) s = .next (runElementTableChange d data u) := hu ▸ rfl
  rw [hrun, runElementTableChange_of_passed hp h hchg]
  refine ⟨fun hnone => ?_, fun hwait hnow => ?_, fun y l hwait hnow => ?_⟩
  · simp [hnone]
  · simp [hwait, hnow, PendKind.acts, stOk]
  · simp [hwait, hnow, PendKind.acts, stOk]

/-! ## Group descriptors (R37, R39) -/

/-- The checks of a group descriptor that concern its own bytes and the images it names, in order. -/
def groupDescriptorChk (d : Desc) (data : Bytes) (u : State) : Chk :=
  firstFail [descChk d [(32, 1), (40, 8)], sizeChk d 64, groupChk (dataOf d data), imagesChk u (parseGroup (dataOf d data))]

section
variable {d : Desc} {data : Bytes} {u : State}

theorem runGroupDescriptor_of_failed {c : Nat × Nat} (h : groupDescriptorChk d data u = some c) :
    runGroupDescriptor d data u = refuse d c u := by
  unfold groupDescriptorChk at h
  simp only [runGroupDescriptor, h]

theorem runGroupDescriptor_of_stopped (h : groupDescriptorChk d data u = none) (hstop : Tab.has u.cond.started (par d 32 1) = false)
    (hchg : changeChk u [.group (par d 32 1) (parseGroup (dataOf d data))] u.cond.pending = none) :
    runGroupDescriptor d data u = accept d (afterCheck (cfgPut 15 (par d 32 1) (dataOf d data) { u with
      cond.groups := Tab.put u.cond.groups (par d 32 1) (parseGroup (dataOf d data)) })) := by
  unfold groupDescriptorChk at h
  simp only [runGroupDescriptor, h, hstop, hchg, Bool.false_eq_true, ↓reduceIte]
  rfl

theorem runGroupDescriptor_of_started {x : Pend} (hx : clampPend u ⟨par d 40 8, .group (par d 32 1) (parseGroup (dataOf d data))⟩ = x)
    (h : groupDescriptorChk d data u = none) (hstart : Tab.has u.cond.started (par d 32 1) = true)
    (hchg : changeChk u [] (withPends u [x]) = none) :
    runGroupDescriptor d data u = complete d stOk 0 (cfgPutAt (x.instant u) 15 (par d 32 1) (dataOf d data)
      (fitRings { u with cond.pending := withPends u [x] })) := by
  subst hx
  unfold groupDescriptorChk at h
  simp only [runGroupDescriptor, h, hstart, hchg, ↓reduceIte]

end

/-! ## Group start and stop (R510) -/

/-- Runs that begin leave the started groups alone. -/
theorem foldl_beginRun_started (tOrg : Nat) (d : GroupDesc) (delay : State → Nat → Nat) (l : List Nat) (s : State) :
    (l.foldl (fun s e => beginRun e tOrg d 0 (delay s e) s) s).cond.started = s.cond.started :=
  congrArg (fun x => x.2.2) (foldl_keeps State.tables (fun s e => beginRun e tOrg d 0 (delay s e) s) l s
    fun u e _ => beginRun_tables e tOrg d 0 _ u)

/-- A started group holds the origin of its start. -/
theorem startGroup_started (g tOrg : Nat) (s : State) : Tab.get (startGroup g tOrg s).cond.started g = some ⟨tOrg, none⟩ := by
  unfold startGroup
  extract_lets _ _ v _ _ _ z
  have hv : Tab.get v.cond.started g = some ⟨tOrg, none⟩ := Tab.get_put_same ..
  have hz : Tab.get z.cond.started g = some ⟨tOrg, none⟩ := by
    unfold z
    split
    · exact hv
    · exact hv
  split
  · exact hz
  · rw [foldl_beginRun_started tOrg _ (fun s e => ((viewNow s).elem e).delayInt)]
    exact hz

section
variable {d : Desc} {u : State} (data : Bytes) (hd : descChk d [(32, 1), (40, 8)] = none)
include hd

theorem runGroupStart_of_passed (hgroup : Tab.has u.cond.groups (par d 32 1) = true) (hstop : Tab.has u.cond.started (par d 32 1) = false)
    (hclash : originClash u (par d 32 1) (par d 40 8) = false) :
    runGroupStart d data u = acceptAt (par d 40 8) d (startGroup (par d 32 1) (par d 40 8) u) := by
  simp [runGroupStart, firstFail, need, hd, hgroup, hstop, hclash]

theorem runGroupStart_of_undescribed (hgroup : Tab.has u.cond.groups (par d 32 1) = false) :
    runGroupStart d data u = refuse d (stNotFound, par d 32 1) u := by
  simp [runGroupStart, firstFail, need, hd, hgroup]

theorem runGroupStop_of_started {r : GroupRun} (hstart : Tab.get u.cond.started (par d 32 1) = some r) (hgoing : r.stopAt = none) :
    runGroupStop d data u = acceptAt (stopTime u (par d 32 1) (par d 40 8)) d (stopGroup (par d 32 1) (par d 40 8) u) := by
  simp [runGroupStop, firstFail, need, hd, hstart, hgoing]

end

/-- Settles O42, command by command. -/
theorem elementsAndGroupsChangeByCommand : Obligations.ElementsAndGroupsChangeByCommand := by
  intro t d data c r s u b items p g pend x
  refine ⟨fun h hchg => ?_, fun h => ?_, fun h => ⟨fun hstop hchg => ?_, fun hstart hchg => ?_⟩, fun h => ?_,
    fun hd => ⟨fun hgroup hstop hclash => ⟨?_, startGroup_started ..⟩, fun hgroup => ?_, fun hstart hgoing => ?_⟩⟩
  · obtain ⟨hnow, hlater, hboth⟩ := exec_elementTableChange_of_passed (s := s) (t := t) rfl rfl h hchg
    refine ⟨hnow, hlater, hboth, fun hnone => ?_⟩
    have htables := enterChange_nil_tables items u
    rw [show p.1 = .elems items from splitChange_fst_of_snd_nil hnone, show pend = [] by rw [show pend = p.2.map _ from rfl, hnone]; rfl]
    exact ⟨congrArg (·.1) htables, congrArg (·.2.1) htables⟩
  · exact congrArg _ (runElementTableChange_of_failed h)
  · exact congrArg _ (runGroupDescriptor_of_stopped h hstop hchg)
  · exact congrArg _ (runGroupDescriptor_of_started rfl h hstart hchg)
  · exact congrArg _ (runGroupDescriptor_of_failed h)
  · exact congrArg _ (runGroupStart_of_passed data hd hgroup hstop hclash)
  · exact congrArg _ (runGroupStart_of_undescribed data hd hgroup)
  · exact congrArg _ (runGroupStop_of_started data hd hstart hgoing)

end Sys2Proof.Machine

/-!
A change that acts while another change, whose activation instant has come, is not yet merged (R39, R511): the state after it differs from
the stored table with the change's part put in, which refutes O43.
-/
namespace Sys2Proof.Machine

/-- An entry that receives stream 0, channel 0 as an element of group `g`. -/
def receiverIn (g : Nat) : ElemEntry := { ElemEntry.reset with group := g, flags := 1 }

/-- Element 3 receives stream 0, channel 0 in started group 1, of 1,000 samples per second and a window of 10 ms; a pending change disables
it at block 1. -/
def handoverState : State := { State.reset with
  cond.groups := [(1, { pauseGroup with window := 1000 })]
  cond.elems := [(3, receiverIn 1)]
  cond.started := [(1, ⟨0, none⟩)]
  cond.pending := [⟨64, .elems [(3, { receiverIn 1 with flags := 0 })]⟩]
  cond.run := [(3, newRun 0 { pauseGroup with window := 1000 } 0 0)] }

/-- The time that passes until the command: 70 ms, past the start of block 1 (64 ms) and before the deadline of block 0 (73 ms). -/
def handoverTicks : Tick := 7 * tickHz / 100

/-- An element table of one item: element 4 receives stream 0, channel 0, in group 0, which is not started. -/
def handoverData : Bytes := le 4 1 ++ zeros 12 ++ le 2 4 ++ zeros 14 ++ ([0, 1] ++ zeros 30)

/-- The command that brings `handoverData`. -/
def handoverDesc : Desc := ⟨0, 0, 7, 0x1000, 64, 0, 0, zeros 32, 0⟩

/-- The stored table with the command's part put in lists elements 3 and 4 with one stream and channel. -/
theorem handover_clash :
    let b := dataOf handoverDesc handoverData
    let v := (splitChange (par handoverDesc 32 8) (changeItems b (fieldU b 0 4)) (handoverState.advance handoverTicks)).1.apply
      (handoverState.advance handoverTicks).view
    v.elems[0]? = some (3, receiverIn 1) ∧ v.elems[1]? = some (4, receiverIn 0) := by
  decide +kernel

/-- Element 3 no longer receives at this instant, and no check fails: the command enters element 4. -/
theorem handover_entered :
    (runElementTableChange handoverDesc handoverData (handoverState.advance handoverTicks)).cond.elems =
      [(3, receiverIn 1), (4, receiverIn 0)] := by
  decide +kernel

/-- Refutes O43: its premise puts the part that acts at once into the stored table, which a change of the past that is not merged yet has
still to reach (R511 checks the state after it). In `handoverState` that change has disabled element 3, so that element 4 takes over its
stream and channel and the command is accepted. -/
theorem not_sharedStreamChannelIsRefused : ¬ Obligations.SharedStreamChannelIsRefused := by
  intro h
  obtain ⟨h3, h4⟩ := handover_clash
  obtain ⟨c, -, hrun⟩ := h handoverTicks handoverDesc handoverData handoverState 0 1 _ _ Nat.zero_lt_one h3 h4 rfl rfl rfl rfl
  have hentered := handover_entered
  rw [show runElementTableChange handoverDesc handoverData (handoverState.advance handoverTicks) =
    refuse handoverDesc c (handoverState.advance handoverTicks) from Host.Outcome.next.inj hrun] at hentered
  simp only [refuse_frame] at hentered
  exact absurd hentered (by decide +kernel)

end Sys2Proof.Machine

/-!
A sample that meets its own copy in the input ring (R45): the first stays, the counts of the element move, and from this O44.
-/
namespace Sys2Proof.Machine

@[simp] theorem originAt_next (s : State) (e b : Nat) (r : ElemRun) : (originAt s e b r).next = r.next := by
  unfold originAt
  split <;> rfl

@[simp] theorem originAt_slots (s : State) (e b : Nat) (r : ElemRun) : (originAt s e b r).slots = r.slots := by
  unfold originAt
  split <;> rfl

@[simp] theorem originAt_size (s : State) (e b : Nat) (r : ElemRun) : (originAt s e b r).size = r.size := by
  unfold originAt
  split <;> rfl

theorem cntOf_modCnt_same (e : Nat) (f : ElemCnt → ElemCnt) (s : State) : cntOf (modCnt e f s) e = f (cntOf s e) :=
  Tab.getD_put_same ..

theorem cntOf_modCnt_ne {e k : Nat} (h : k ≠ e) (f : ElemCnt → ElemCnt) (s : State) : cntOf (modCnt e f s) k = cntOf s k :=
  Tab.getD_put_ne _ _ _ _ _ h

/-- The counts of an element after a second copy of a sample: a duplicate, and a conflict when the values differ (R45). -/
def ElemCnt.withDuplicate (conflict : Bool) (c : ElemCnt) : ElemCnt := { c with dup := c.dup + 1, conflict := c.conflict + b01 conflict }

theorem placeSample_duplicate {e n : Nat} {v w : Int} {r : ElemRun} (s : State)
    (hslot : Tab.get r.slots (n % max 1 r.size) = some (n, w)) :
    placeSample e n v r s = setRun e r (modCnt e (ElemCnt.withDuplicate (decide (w ≠ v))) s) := by
  simp only [placeSample, hslot, ↓reduceIte]
  rfl

/-- A sample of a running element whose block is unreleased and in time goes to its slot, and its quad is noted (R44). -/
theorem takeSample_inTime {q stream channel n e : Nat} {v : Int} {x x' : ElemEntry} {g : GroupDesc} {r : ElemRun} {s : State}
    (hfind : (viewAt s (n / 64)).elems.find? (fun p => p.2.rx && decide (p.2.stream = stream ∧ p.2.channel = channel)) = some (e, x))
    (hactive : activeAt s e (n / 64) = some (x', g)) (hrun : Tab.get s.cond.run e = some r) (hnext : r.next ≤ n / 64)
    (hdue : deadlineDue (originAt s e (n / 64) r).tOrg g (n / 64) s.tw true = false) :
    takeSample q stream channel n v s =
      placeSample e n v (originAt s e (n / 64) r) { s with cond.onQuad := Tab.put s.cond.onQuad e q } := by
  unfold takeSample
  simp only [hfind]
  split
  · rename_i x₁ g₁ r₁ hactive₁ hrun₁
    obtain ⟨-, rfl⟩ := Prod.mk.inj (Option.some.inj (hactive.symm.trans hactive₁))
    obtain rfl := Option.some.inj (hrun.symm.trans hrun₁)
    refine if_neg fun h => ?_
    rcases (Bool.or_eq_true _ _).mp h with hearly | hlate
    · exact absurd (of_decide_eq_true hearly) (not_lt.2 ((originAt_next ..).le.trans hnext))
    · exact Bool.false_ne_true (hdue.symm.trans hlate)
  · rename_i hno
    exact (hno _ _ _ hactive hrun).elim

/-- Settles O44: the sample goes to its slot, which holds its index, so that the run stays and only the two counts move. -/
theorem duplicateSamplesAreDiscarded : Obligations.DuplicateSamplesAreDiscarded := by
  intro q stream channel n e v w x x' g r s hfind hactive hrun hnext hdue hslot
  have htake := (takeSample_inTime (q := q) (v := v) hfind hactive hrun hnext hdue).trans
    (placeSample_duplicate _ (by simpa using hslot))
  simp only [htake]
  have hconflict : b01 (decide (w ≠ v)) = if v = w then 0 else 1 := by
    by_cases h : v = w
    · simp [b01, h]
    · simp [b01, h, Ne.symm h]
  refine ⟨Tab.get_put_same .., ?_, fun k hk => ⟨Tab.get_put_ne _ _ _ _ hk, cntOf_modCnt_ne hk ..⟩, rfl⟩
  rw [← hconflict]
  exact cntOf_modCnt_same ..

end Sys2Proof.Machine

/-!
The conditioning chain keeps its words (R34, R61, R65) and a slice takes one block (R52): a bound that every sample of a block keeps, and
from it O46.
-/
namespace Sys2Proof.Machine

theorem satS_16_range (y : Int) : -32768 ≤ satS 16 y ∧ satS 16 y ≤ 32767 := by
  simp only [satS]
  omega

/-- What the chain has reported after `k` samples: every output lies in s16, and neither the saturations nor the outputs outnumber what they
are counted on. -/
structure ChainOut.FitsAfter (k : Nat) (o : ChainOut) : Prop where
  range : ∀ p ∈ o.outs, -32768 ≤ p.2.v ∧ p.2.v ≤ 32767
  front : o.front ≤ k
  sat : o.sat ≤ o.outs.length
  outs : o.outs.length ≤ k

theorem b01_le_one (b : Bool) : b01 b ≤ 1 := by cases b <;> decide

/-- What one sample adds to the report: at most one front saturation, and either no output, or one, rounded and saturated to s16. -/
theorem chainStep_cases (g : GroupDesc) (frozen : Bool) (gain : Nat) (o : ChainOut) (n : Nat) (x : Int) (cause : Nat) :
    (chainStep g frozen gain o n x cause).front ≤ o.front + 1 ∧
    (((chainStep g frozen gain o n x cause).outs = o.outs ∧ (chainStep g frozen gain o n x cause).sat = o.sat) ∨
      ∃ (m : Nat) (w : CondWord) (y : Int), w.v = satS 16 y ∧ (chainStep g frozen gain o n x cause).outs = o.outs ++ [(m, w)] ∧
        (chainStep g frozen gain o n x cause).sat ≤ o.sat + 1) := by
  unfold chainStep
  extract_lets c warmEnd c' r q o'
  have hfront : o'.front ≤ o.front + 1 := Nat.add_le_add_left (b01_le_one _) _
  split
  · exact ⟨hfront, .inl ⟨rfl, rfl⟩⟩
  · exact ⟨hfront, .inr ⟨_, _, _, rfl, rfl, Nat.add_le_add_left (b01_le_one _) _⟩⟩

theorem chainStep_fits {k : Nat} {o : ChainOut} (h : o.FitsAfter k) (g : GroupDesc) (frozen : Bool) (gain n : Nat) (x : Int) (cause : Nat) :
    (chainStep g frozen gain o n x cause).FitsAfter (k + 1) := by
  obtain ⟨hrange, hfront, hsat, houts⟩ := h
  obtain ⟨hf, ⟨ho, hs⟩ | ⟨m, w, y, hw, ho, hs⟩⟩ := chainStep_cases g frozen gain o n x cause
  · exact ⟨ho ▸ hrange, hf.trans (by omega), by rw [ho, hs]; exact hsat, by rw [ho]; omega⟩
  · refine ⟨fun p hp => ?_, hf.trans (by omega), ?_, ?_⟩
    · rw [ho, List.mem_append, List.mem_singleton] at hp
      rcases hp with hp | rfl
      · exact hrange p hp
      · exact hw ▸ satS_16_range y
    · rw [ho, List.length_append, List.length_singleton]
      omega
    · rw [ho, List.length_append, List.length_singleton]
      omega

/-- A list of samples, each with its place, through the chain. -/
theorem foldl_chainStep_fits (g : GroupDesc) (x : ElemEntry) (first : Nat) (l : List ((Int × Nat) × Nat)) {k : Nat} {o : ChainOut}
    (h : o.FitsAfter k) :
    (l.foldl (fun o p => chainStep g x.frozen x.rxGain o (first + p.2) p.1.1 p.1.2) o).FitsAfter (k + l.length) := by
  induction l generalizing k o with
  | nil => exact h
  | cons p l ih =>
    rw [List.foldl_cons, List.length_cons, Nat.add_comm l.length, ← Nat.add_assoc]
    exact ih (chainStep_fits h ..)

theorem chainBlock_fits (g : GroupDesc) (x : ElemEntry) (c : Chain) (b : Nat) (vals : List (Int × Nat)) :
    (chainBlock g x c b vals).FitsAfter vals.length := by
  have hstart : ChainOut.FitsAfter 0 ⟨c, 0, 0, []⟩ := ⟨by simp, le_rfl, le_rfl, le_rfl⟩
  have hall := foldl_chainStep_fits g x (64 * b) vals.zipIdx hstart
  rwa [Nat.zero_add, List.length_zipIdx] at hall

section
variable {t : Tick} {engine : Fin 32} {e : Nat} {s u : State} (hu : s.advance t = u)
include hu

/-- A slice of an engine that has a released block takes it, unless it waits for the channeliser (Table 01-9). -/
theorem exec_conditioningSlice (accepts : Bool) (htrip : u.mgmt.trip = false) (hnext : nextSlice u engine.val = some e) :
    exec (.conditioningSlice t engine accepts) s = if bankWaits u e then .next u else .next (sliceBlock e accepts u) := by
  subst hu
  rw [exec, execConditioningSlice]
  simp only [htrip, hnext, Bool.false_eq_true, ↓reduceIte]

end

/-- Settles O46: every sample keeps the bound, and the slice follows its element's bank. -/
theorem conditioningOutputsFitTheirWords : Obligations.ConditioningOutputsFitTheirWords := by
  refine ⟨fun g x c b vals => ?_, fun t engine accepts e s htrip hnext => ⟨fun hbank => ?_, fun hbank => ?_⟩⟩
  · obtain ⟨hrange, hfront, hsat, houts⟩ := chainBlock_fits g x c b vals
    exact ⟨hrange, hfront, hsat, houts⟩
  · rw [exec_conditioningSlice rfl accepts htrip hnext, hbank, if_neg Bool.false_ne_true]
  · rw [exec_conditioningSlice rfl accepts htrip hnext, if_pos hbank]

end Sys2Proof.Machine

/-!
The images of the channeliser (R74 to R76, R83 to R87): what each load command does once its checks are known; from these O47.
-/
namespace Sys2Proof.Machine

/-- A plan without versions gets the loaded one as its only version. -/
@[simp] theorem addVersion_nil (p : Plan) : addVersion p [] = [p] := rfl

/-- The state in which a plan version has been entered: it joins its plan, its digest is exchanged anew (R85), and it enters the configuration
digest at its activation (log entries 80 and 133). -/
def planEntered (b : Bytes) (u : State) : State :=
  cfgPutAt (planStamp (parsePlan b) (parsePlan b).activate).toNat 2 (fieldU b 0 1) b { u with
    chan.plans := Tab.put u.chan.plans (fieldU b 0 1) (addVersion (parsePlan b) (planVersions u (fieldU b 0 1)))
    chan.digestSent := u.chan.digestSent.filter (fun x => !(decide (x.1 = fieldU b 0 1) && decide (x.2.1 = (parsePlan b).version))) }

section
variable {d : Desc} {data : Bytes} {c : Nat × Nat} {u : State}

theorem runPrototypeLoad_of_passed (h : prototypeLoadChk d data u = none) :
    let b := dataOf d data
    runPrototypeLoad d data u = accept d (cfgPut 0 (fieldU b 0 2) b { u with
      chan.protos := Tab.put u.chan.protos (fieldU b 0 2) ⟨fieldU b 2 1, fieldU b 3 1,
        (List.range (2 ^ fieldU b 2 1 * fieldU b 3 1)).map (fun i => fieldS b (16 + 4 * i) 4)⟩ }) := by
  simp only [runPrototypeLoad, h]

theorem runPrototypeLoad_of_failed (h : prototypeLoadChk d data u = some c) : runPrototypeLoad d data u = refuse d c u := by
  simp only [runPrototypeLoad, h]

theorem runGainTableLoad_of_passed (h : gainTableLoadChk d data u = none) :
    let b := dataOf d data
    runGainTableLoad d data u = accept d (cfgPut 1 (fieldU b 0 2) b { u with
      chan.gains := Tab.put u.chan.gains (fieldU b 0 2)
        ((List.range (fieldU b 2 2)).map (fun i => (fieldS b (16 + 4 * i) 2, fieldS b (18 + 4 * i) 2))) }) := by
  simp only [runGainTableLoad, h]

theorem runGainTableLoad_of_failed (h : gainTableLoadChk d data u = some c) : runGainTableLoad d data u = refuse d c u := by
  simp only [runGainTableLoad, h]

theorem runPlanLoad_of_failed (h : planLoadChk d data u = some c) : runPlanLoad d data u = refuse d c u := by
  simp only [runPlanLoad, h]

/-- A version that passes its checks is entered; the first one opens the plan's statistics before. -/
theorem runPlanLoad_of_passed (h : planLoadChk d data u = none) :
    let b := dataOf d data
    runPlanLoad d data u = complete d stOk 0 (planEntered b
      (if (planVersions u (fieldU b 0 1)).isEmpty then openPlan (fieldU b 0 1) (parsePlan b) u else u)) := by
  simp only [runPlanLoad, h]
  split <;> rfl

end

/-- Settles O47, command by command; a plan splits on whether the loaded version is its first. -/
theorem channeliserImagesAreLoaded : Obligations.ChanneliserImagesAreLoaded := by
  intro t d data c s u b id at_
  refine ⟨fun h => ?_, fun h => ?_, fun h => ?_, fun h => ?_, fun h hmore => ?_, fun h hfirst => ?_, fun h => ?_⟩
  · exact congrArg _ (runPrototypeLoad_of_passed h)
  · exact congrArg _ (runPrototypeLoad_of_failed h)
  · exact congrArg _ (runGainTableLoad_of_passed h)
  · exact congrArg _ (runGainTableLoad_of_failed h)
  · refine congrArg _ ((runPlanLoad_of_passed h).trans ?_)
    rw [if_neg (by rwa [List.isEmpty_iff])]
    rfl
  · refine congrArg _ ((runPlanLoad_of_passed h).trans ?_)
    have hversions : addVersion (parsePlan b) (planVersions (openPlan (fieldU b 0 1) (parsePlan b) u) (fieldU b 0 1)) = [parsePlan b] := by
      rw [show planVersions (openPlan (fieldU b 0 1) (parsePlan b) u) (fieldU b 0 1) = [] from hfirst, addVersion_nil]
    rw [if_pos (List.isEmpty_iff.2 hfirst), planEntered, hversions]
    rfl
  · exact congrArg _ (runPlanLoad_of_failed h)

end Sys2Proof.Machine

/-!
The channel samples (R78, R89 to R93, R86, R142): when a frame is formed, what the turn of a destination does, which mesh frames are delivered,
what a digest that differs does, and when a statistics span becomes a record; from these O48.
-/
namespace Sys2Proof.Machine

/-! ## Forming a frame (R78) -/

section
variable {t : Tick} {e : Fin 16384} {r : ElemRun} {g : GroupDesc} {s u : State} (hu : s.advance t = u)
include hu

/-- A frame whose inputs are present, and which no buffer holds back, is formed under the descriptor of the block of its oldest input, or
under that of the last conditioned block where that block has none. -/
theorem exec_channeliserFrame_of_ready (hrun : Tab.get u.cond.run e.val = some r) (hdesc : descAt u e.val (r.condNext - 1) = some g)
    (hchan : g.channelised = true) (hinputs : (r.frame + 1) * g.hop ≤ r.fbNext) :
    let blk := g.ratio * Nat.max ((r.frame + 1) * g.hop - g.len) r.fbStart / 64
    let gd := (descAt u e.val blk).getD g
    mustHold u gd.plan r.frame = false →
      exec (.channeliserFrame t e) s = .next (settle (formFrame e.val r g gd (elemAt u e.val blk) u)) := by
  intro blk gd hhold
  have hframe : frameDesc u e.val r.frame r = some (blk, gd) := by
    rw [frameDesc, hdesc]
    rfl
  rw [exec, execChanneliserFrame]
  simp only [hu, hrun, hdesc, hframe, hchan, not_lt.2 hinputs, hhold, decide_false, Bool.not_true, Bool.or_self, Bool.false_eq_true, ↓reduceIte]

end

/-! ## The turn of a destination (R89 to R92) -/

section
variable {u : State} {plan j dest key b : Nat} {p : Plan} {dv : PlanDev} {x : StrokeBuf} {sd : SendState} {room : Bool}

/-- The send state in which a destination has passed batch `b` of a stroke. -/
def SendState.passed (u : State) (plan j dest key b : Nat) (p : Plan) (sd : SendState) : SendState :=
  { sd with pos := Tab.put sd.pos dest (afterBatch u plan j p (keyStroke key) b) }

section
variable (hlit : u.isShadow = false) (hemits : u.emits = true) (hfresh : Tab.get sd.dropping dest ≠ some key)
include hlit hemits hfresh

/-- A batch that is not the last of its contribution is sent when its destination is reachable, has room and has lost none of it. -/
theorem sendOne_of_reachable (hreach : unreachable u plan dest = false) (hwhole : Tab.get sd.cut dest ≠ some key)
    (hmore : 64 * (b + 1) < p.stroke j) :
    sendOne plan j dest p dv key b x true sd u =
      sendBatch plan j dest p dv (keyStroke key) b x (putSend plan j (sd.passed u plan j dest key b p) u) := by
  simp only [sendOne, hlit, hemits, hfresh, hreach, hwhole, not_le.2 hmore, SendState.passed, Bool.not_true, Bool.or_self,
    Bool.false_eq_true, ↓reduceIte, decide_false]

/-- The rest of a contribution is dropped when its destination cannot be reached, has no room or has been lost to a late notice (R91). -/
theorem sendOne_of_dropped (hdrop : unreachable u plan dest = true ∨ room = false ∨ Tab.get sd.cut dest = some key) :
    sendOne plan j dest p dv key b x room sd u =
      dropContribution plan j dest (putSend plan j
        { sd.passed u plan j dest key b p with dropping := Tab.put sd.dropping dest key } u) := by
  have hlost : (unreachable u plan dest || !room || decide (Tab.get sd.cut dest = some key)) = true := by
    simpa [or_assoc] using hdrop
  simp only [sendOne, hlit, hemits, hfresh, hlost, SendState.passed, Bool.not_true, Bool.or_self, Bool.false_eq_true, ↓reduceIte]

end

/-- A batch that every local element has formed takes its turn where no other formed batch goes before it (R90, log entry 101). -/
theorem exec_cornerTurnSend_of_turn {t : Tick} {plan : Fin 16} {dest : BitVec 10} {at_ : Nat × Nat} {s : State} (hu : s.advance t = u)
    (hsd : Tab.getD u.chan.send (pchanKey plan.val j) SendState.empty = sd) (hat : sendPos u plan.val j dest.toNat sd = at_)
    (hx : Tab.getD sd.forming at_.1 StrokeBuf.empty = x) (hplan : planVer u plan.val (keyVersion at_.1) = some p)
    (hown : ownEntry u p = some dv) (hsends : sendsChan u j dest.toNat p = true) (hready : batchReady dv x at_.2 = true)
    (hturn : sendTurn u plan.val j dest.toNat (planStamp p (p.stroke j * keyStroke at_.1 + 64 * at_.2)) = true) :
    exec (.cornerTurnSend t plan j dest room) s = .next (sendOne plan.val j dest.toNat p dv at_.1 at_.2 x room sd u) := by
  rw [exec, execCornerTurnSend]
  simp only [hu, cornerTurn, hsd, hat, hplan, hown, hsends, sendStroke, hx, hready, hturn, ↓reduceIte]

end

/-! ## Mesh frames for this device (R311, R325, R333) -/

@[simp] theorem putOn_meshCfg (q : Nat) (s : State) (x : LaneOut) : (putOn q s x).link.meshCfg = s.link.meshCfg := rfl

@[simp] theorem sendOn_meshCfg (q at_ : Nat) (x : LaneOut) (s : State) : (sendOn q at_ x s).link.meshCfg = s.link.meshCfg := by
  unfold sendOn
  split <;> simp

@[simp] theorem emitOn_meshCfg (q : Nat) (x : LaneOut) (s : State) : (emitOn q x s).link.meshCfg = s.link.meshCfg := by
  unfold emitOn
  extract_lets u
  split
  · rfl
  · split <;> simp

@[simp] theorem linkReceive_meshCfg (q : Nat) (good : Bool) (seq : Nat) (s : State) :
    (linkReceive q good seq s).2.link.meshCfg = s.link.meshCfg := by
  unfold linkReceive
  extract_lets u e again
  split
  · simp
  · split
    · simp
    · split <;> simp

@[simp] theorem linkReceive_routeChip (q : Nat) (good : Bool) (seq : Nat) (s : State) : routeChip (linkReceive q good seq s).2 = routeChip s := by
  simp only [routeChip, linkReceive_meshCfg]

@[simp] theorem linkReceive_xdim (q : Nat) (good : Bool) (seq : Nat) (s : State) : xdim (linkReceive q good seq s).2 = xdim s := by
  simp only [xdim, linkReceive_meshCfg]

@[simp] theorem linkReceive_ydim (q : Nat) (good : Bool) (seq : Nat) (s : State) : ydim (linkReceive q good seq s).2 = ydim s := by
  simp only [ydim, linkReceive_meshCfg]

/-- A good frame with the expected sequence number, of the kind of its command and for this device, is delivered after its acknowledgement, and
its credit goes back. -/
theorem meshReceive_of_own {q kind : Nat} {f : RawFrame} {u : State} (deliver : State → State) (hquad : quadHas u q 4 = true)
    (hup : (quadOf u q).up = true) (hfits : meshFits f = true) (hwhole : f.spoilt = false) (hseq : fieldU f.data 0 2 = (quadOf u q).expect)
    (hdest : fieldU f.data 2 2 = routeChip u) (htorus : routeChip u < xdim u * ydim u) (hkind : f.kind.toNat = kind) :
    meshReceive q f kind deliver u = returnCredit q (fieldU f.data 6 1 % 2) f.n.toNat
      (deliver (frameTaken q (linkReceive q true (fieldU f.data 0 2) u).2)) := by
  have hacc : (linkReceive q true (fieldU f.data 0 2) u).1 = true := by rw [hseq]; exact linkReceive_expected q u
  simp [meshReceive, hquad, hup, hfits, hkind, hacc, hwhole, hdest, not_le.2 htorus]

section
variable {t : Tick} {q : Fin 16} {f : RawFrame} {s u : State} (hu : s.advance t = u)
include hu

theorem exec_batchFrame_of_kind (hkind : f.kind.toNat = 0) :
    exec (.batchFrame t q f) s = .next (noteTraffic q.val f (meshReceive q.val f 0 (takeBatch f) u)) := by
  rw [exec, execBatchFrame]
  simp only [hu, hkind, ne_eq, not_true_eq_false, false_and, ↓reduceIte]

theorem exec_planDigestFrame_of_kind (hkind : f.kind.toNat = 1) :
    exec (.planDigestFrame t q f) s = .next (noteTraffic q.val f (meshReceive q.val f 1 (takeDigest q.val f) u)) := by
  rw [exec, execPlanDigestFrame]
  simp only [hu, hkind, ne_eq, not_true_eq_false, false_and, ↓reduceIte]

end

/-- A digest that differs marks the neighbour, and is counted and posted (R86, log entry 103). -/
theorem takeDigest_of_mismatch {q port : Nat} {f : RawFrame} {p : Plan} {u : State} (hport : quadPort u q = some port)
    (hplan : planNum u (fieldU f.data 16 1) (fieldU f.data 20 4) = some p) (hdiff : fieldU f.data 24 4 ≠ p.digest.toNat) :
    let x := (fieldU f.data 16 1, peerOf u port)
    takeDigest q f u = postEvent 0x32 q (le 1 (fieldU f.data 16 1) ++ zeros 3 ++ le 4 (fieldU f.data 20 4))
      (chanCount 9 (fieldU f.data 16 1) port { u with chan.mismatch := u.chan.mismatch.filter (fun y => decide (y ≠ x)) ++ [x] }) := by
  simp only [takeDigest, hport, hplan, hdiff, not_false_eq_true, ne_eq, decide_true, ↓reduceIte]

/-! ## Source statistics (R142) -/

/-- The statistics of a plan from frame `stop` on: the counts of the frames before it have gone into a record. -/
def SrcStats.from_ (st : SrcStats) (stop : Nat) : SrcStats :=
  { st with first := stop, chans := st.chans.filter (fun q => decide (stop ≤ q.1 / 65536))
            elems := st.elems.filter (fun q => decide (stop ≤ q.1 / 65536)) }

theorem exec_sourceStatsRecord_of_due {t : Tick} {plan : Fin 16} {st : SrcStats} {p : Plan} {stop : Nat} {s u : State} (hu : s.advance t = u)
    (hstop : statEnd u plan.val st.first = stop) (hstats : Tab.get u.corr.stats plan.val = some st)
    (hplan : planAt u plan.val st.first = some p) (hdue : statDue u st p stop = true) :
    exec (.sourceStatsRecord t plan) s = .next (formRecord ⟨1, plan.val, 0x0011, statsBody u plan.val p st stop, 0xFFFF,
      (planStamp p st.first).toNat, (planStamp p (stop - 1)).toNat, false⟩
      { u with corr.stats := Tab.put u.corr.stats plan.val (st.from_ stop) }) := by
  rw [exec, execSourceStatsRecord]
  simp only [hu, hstats, hplan, hstop, hdue, SrcStats.from_, Bool.not_true, Bool.false_eq_true, ↓reduceIte]

/-- Settles O48: each command by its own lemma, a turn by whether its batch is sent or its contribution dropped. -/
theorem channelSamplesAreFormedAndDelivered : Obligations.ChannelSamplesAreFormedAndDelivered := by
  intro t e r g plan q j dest room p dv f st s u
  refine ⟨fun hrun hdesc hchan hinputs => exec_channeliserFrame_of_ready rfl hrun hdesc hchan hinputs, ?_,
    fun hquad hup hfits hwhole hseq hdest htorus => ⟨fun hkind => ?_, fun hkind => ?_⟩, fun _ => takeDigest_of_mismatch,
    exec_sourceStatsRecord_of_due rfl rfl⟩
  · intro sd at_ i x sd' hplan hown hsends hready hturn hlit hemits hfresh
    have hone (room : Bool) : exec (.cornerTurnSend t plan j dest room) s =
        .next (sendOne plan.val j dest.toNat p dv at_.1 at_.2 x room sd u) :=
      exec_cornerTurnSend_of_turn rfl rfl rfl rfl hplan hown hsends hready hturn
    refine ⟨fun hreach hwhole hmore => ?_, fun hdrop => ?_⟩
    · exact (hone true).trans (congrArg _ (sendOne_of_reachable hlit hemits hfresh hreach hwhole hmore))
    · exact (hone room).trans (congrArg _ (sendOne_of_dropped hlit hemits hfresh hdrop))
  · rw [exec_batchFrame_of_kind rfl hkind, meshReceive_of_own _ hquad hup hfits hwhole hseq hdest htorus hkind]
  · rw [exec_planDigestFrame_of_kind rfl hkind, meshReceive_of_own _ hquad hup hfits hwhole hseq hdest htorus hkind]

end Sys2Proof.Machine

/-!
The slots of the engines (R94, R99, R105, R115, R420, R421): a stroke's release, the start of a slot, its hand-off, and the declaration of one
that no engine serves; from these O51.
-/
namespace Sys2Proof.Machine

section
variable {t : Tick} {s u : State} (hu : s.advance t = u)
include hu

/-! ## Releases and starts (R94, R105) -/

/-- A stroke that may be released is released, and the jobs that no entry runs in it are declared with it (log entry 18). -/
theorem exec_strokeRelease_of_releasable {plan : Fin 16} {j : Nat} {p : Plan} (h : releasable u plan.val j = some p) :
    exec (.strokeRelease t plan j) s = .next (afterSlot
      (declareUncovered plan.val j (pchanOf u plan.val j).next (releaseStrokeOf plan.val j p u))) := by
  rw [exec, execStrokeRelease]
  simp only [hu, h]

omit hu in
/-- No slot is skipped where the one due first is not shed (log entry 16). -/
theorem skipSlots_of_not_shed {e : Nat} {c : Cand} (hnext : nextSlot u e = some c) (hshed : c.shedBy u = none) : skipSlots e u = u := by
  simp [skipSlots, hnext, hshed]

theorem exec_engineSlotStart_of_idle {e : Fin 256} {ecc : List Ecc} {c : Cand} {r : SchedRun} {q : Pool} {p : Plan}
    (hidle : engIdle u e.val = true) (hnext : nextSlot u e.val = some c) (hshed : c.shedBy u = none) (hsched : schedOf u c.gen = some r)
    (hpool : r.pool? c.pool = some q) (hplan : poolPlan u q c.pos.1 = some p) :
    exec (.engineSlotStart t e ecc) s = .next (startSlot e.val c q p ecc u) := by
  rw [exec, execEngineSlotStart]
  simp only [hu, hidle, skipSlots_of_not_shed hnext hshed, hnext, hsched, hpool, hplan, ↓reduceIte]

/-! ## Hand-offs (R99, R420, R421) -/

section
variable {e : Fin 256} {carried : BitVec 32} {g : Running} {r : SchedRun} {q : Pool} {y : EntryRun}
  (hrun : (engOf u e.val).run = some g) (hout : (engOf u e.val).out = none) (htrip : u.mgmt.trip = false)
  (hsched : schedOf u g.gen = some r) (hpool : r.pool? g.pool = some q) (hentry : r.runs[g.run]? = some y)
include hrun hout htrip hsched hpool hentry

/-- A hand-off whose epoch is not the expected one is discarded and counted as stale, and its engine is fenced. -/
theorem exec_engineHandoff_of_stale (hstale : carried.toNat ≠ y.epochAt g.stroke) :
    exec (.engineHandoff t e carried) s =
      .next (fenceEngine e.val 1 (setEng e.val { engOf u e.val with stale := bump 32 (engOf u e.val).stale 1 } u)) := by
  rw [exec, execEngineHandoff]
  simp only [hu, hrun, hout, htrip, hsched, hpool, hentry, hstale, Option.isSome_none, Bool.or_self, Bool.false_eq_true, ne_eq,
    not_false_eq_true, ↓reduceIte]

/-- A current hand-off of an X pool waits in the engine's output stage. -/
theorem exec_engineHandoff_of_correlation (hepoch : carried.toNat = y.epochAt g.stroke) (hmode : q.mode = 0) :
    exec (.engineHandoff t e carried) s =
      .next (setEng e.val { engOf u e.val with run := none, out := some (handOf u e.val carried.toNat g q y) } u) := by
  rw [exec, execEngineHandoff]
  simp only [hu, hrun, hout, htrip, hsched, hpool, hentry, hepoch, hmode, Option.isSome_none, Bool.or_self, Bool.false_eq_true, ne_eq,
    not_true_eq_false, ↓reduceIte]

/-- A current hand-off of a B pool goes to the beam output stage. -/
theorem exec_engineHandoff_of_beam {p : Plan} (hepoch : carried.toNat = y.epochAt g.stroke) (hmode : q.mode ≠ 0)
    (hplan : poolPlan u q g.stroke = some p) :
    exec (.engineHandoff t e carried) s =
      .next (afterSlot (takeBeam (handOf u e.val carried.toNat g q y) r q p (setEng e.val { engOf u e.val with run := none } u))) := by
  rw [exec, execEngineHandoff]
  simp only [hu, hrun, hout, htrip, hsched, hpool, hentry, hepoch, hmode, hplan, Option.isSome_none, Bool.or_self, Bool.false_eq_true, ne_eq,
    not_true_eq_false, ↓reduceIte]

end

/-! ## Unserved slots (R115, R116) -/

section
variable {e : Fin 256} {c : Cand} (hfirst : firstUnserved u e.val = some c)
include hfirst

theorem exec_slotUnserved_of_due (hshed : c.shedBy u = none) (hdue : c.due ≤ (u.tw : Int)) :
    exec (.slotUnserved t e) s = .next (afterSlot (missSlot c.gen c.run c.pool c.job c.pos 1 u)) := by
  rw [exec, execSlotUnserved]
  simp only [hu, hfirst, hshed, not_lt.2 hdue, Option.isSome_none, Bool.false_eq_true, ↓reduceIte]

/-- A shed slot does not wait for its deadline once its stroke has been released. -/
theorem exec_slotUnserved_of_shed (hshed : (c.shedBy u).isSome = true) (hend : c.due ≤ (u.tw : Int) ∨ c.released u = true) :
    exec (.slotUnserved t e) s = .next (afterSlot (missSlot c.gen c.run c.pool c.job c.pos 2 (noteSkip c u))) := by
  have hnow : (decide ((u.tw : Int) < c.due) && !c.released u) = false := by
    rcases hend with hdue | hreleased
    · simp [not_lt.2 hdue]
    · simp [hreleased]
  rw [exec, execSlotUnserved]
  simp only [hu, hfirst, hshed, hnow, Bool.false_eq_true, ↓reduceIte]

end
end

/-- Settles O51: each command by its own lemma, a hand-off by its epoch and its pool's mode, an unserved slot by whether it is shed. -/
theorem enginesRunTheirSlotsInOrder : Obligations.EnginesRunTheirSlotsInOrder := by
  intro t plan j p e ecc carried c r q g y s u x
  refine ⟨exec_strokeRelease_of_releasable rfl, fun htrip hfailed hfence hrun => ?_, fun hrun hout htrip hsched hpool hentry =>
    ⟨exec_engineHandoff_of_correlation rfl hrun hout htrip hsched hpool hentry,
      exec_engineHandoff_of_beam rfl hrun hout htrip hsched hpool hentry,
      exec_engineHandoff_of_stale rfl hrun hout htrip hsched hpool hentry⟩,
    fun hfirst => ⟨exec_slotUnserved_of_due rfl hfirst, exec_slotUnserved_of_shed rfl hfirst⟩⟩
  have hidle : engIdle u e.val = true := by
    rw [engIdle, htrip, hfailed, hfence, hrun]
    rfl
  exact exec_engineSlotStart_of_idle rfl hidle

end Sys2Proof.Machine

/-!
The sums of an X job stay within 2^38 (R96, R97), and what one sum does to a component of its inkwell (R120, R121, R125, R129); from these
O53.
-/
namespace Sys2Proof.Machine

/-! ## Bounds of complex values -/

/-- Neither component is larger than `m`. -/
def Within (m : Nat) (x : Int × Int) : Prop := x.1.natAbs ≤ m ∧ x.2.natAbs ≤ m

theorem within_mono {m n : Nat} (h : m ≤ n) {x : Int × Int} (hx : Within m x) : Within n x := ⟨hx.1.trans h, hx.2.trans h⟩

theorem within_conj {m : Nat} {x : Int × Int} (h : Within m x) : Within m (conj x) := ⟨h.1, (Int.natAbs_neg x.2).le.trans h.2⟩

theorem within_cmul {m n : Nat} {x y : Int × Int} (hx : Within m x) (hy : Within n y) : Within (2 * (m * n)) (cmul x y) := by
  obtain ⟨hx1, hx2⟩ := hx
  obtain ⟨hy1, hy2⟩ := hy
  have hprod {a b : Int} (ha : a.natAbs ≤ m) (hb : b.natAbs ≤ n) : (a * b).natAbs ≤ m * n :=
    (Int.natAbs_mul a b).le.trans (Nat.mul_le_mul ha hb)
  refine ⟨(Int.natAbs_sub_le ..).trans ?_, (Int.natAbs_add_le ..).trans ?_⟩
  · exact (Nat.add_le_add (hprod hx1 hy1) (hprod hx2 hy2)).trans_eq (Nat.two_mul _).symm
  · exact (Nat.add_le_add (hprod hx1 hy2) (hprod hx2 hy1)).trans_eq (Nat.two_mul _).symm

/-- A running sum grows by at most `m` with each value. -/
theorem within_foldl_add {m : Nat} (l : List (Int × Int)) (hl : ∀ x ∈ l, Within m x) {n : Nat} {a : Int × Int} (ha : Within n a) :
    Within (n + l.length * m) (l.foldl (fun (t : Int × Int) x => (t.1 + x.1, t.2 + x.2)) a) := by
  induction l generalizing n a with
  | nil => simpa using ha
  | cons x l ih =>
    obtain ⟨hx, hl⟩ := List.forall_mem_cons.1 hl
    have hstep : Within (n + m) (a.1 + x.1, a.2 + x.2) :=
      ⟨(Int.natAbs_add_le ..).trans (Nat.add_le_add ha.1 hx.1), (Int.natAbs_add_le ..).trans (Nat.add_le_add ha.2 hx.2)⟩
    rw [List.foldl_cons, List.length_cons, Nat.add_one_mul, Nat.add_comm (l.length * m), ← Nat.add_assoc]
    exact ih hl hstep

/-! ## Sums of a job (R96, R97) -/

/-- A stroke of one column: at most 2^15 samples, of 12 bits each. -/
def ShortColumn (l : List (Int × Int)) : Prop := l.length ≤ 2 ^ 15 ∧ ∀ x ∈ l, Within (2 ^ 11) x

/-- A sample of 12 bits stays within 2^11, whether it counts or is a gap. -/
theorem within_nibSample {b : StrokeBuf} {e f : Nat} (warm : Nat) (hre : -2048 ≤ (b.sample e f).re ∧ (b.sample e f).re ≤ 2047)
    (him : -2048 ≤ (b.sample e f).im ∧ (b.sample e f).im ≤ 2047) : Within (2 ^ 11) (nibSample b warm e f) := by
  simp only [nibSample]
  split
  · exact ⟨Nat.zero_le _, Nat.zero_le _⟩
  · constructor <;> dsimp only <;> omega

/-- One nib's sum over a stroke: 2^15 products, each within 2 · 2^11 · 2^11. -/
theorem within_nibSum {a b : List (Int × Int)} (ha : ShortColumn a) (hb : ShortColumn b) :
    Within (2 ^ 38) ((List.zipWith (fun x y => cmul x (conj y)) a b).foldl (fun (t : Int × Int) x => (t.1 + x.1, t.2 + x.2)) (0, 0)) := by
  have hprods : ∀ z ∈ List.zipWith (fun x y => cmul x (conj y)) a b, Within (2 * (2 ^ 11 * 2 ^ 11)) z := by
    rw [← List.map_uncurry_zip_eq_zipWith, List.forall_mem_map]
    intro p hp
    obtain ⟨hx, hy⟩ := List.of_mem_zip hp
    exact within_cmul (ha.2 _ hx) (within_conj (hb.2 _ hy))
  have hlen : (List.zipWith (fun x y => cmul x (conj y)) a b).length ≤ 2 ^ 15 :=
    (List.length_zipWith.trans_le (Nat.min_le_left ..)).trans ha.1
  exact within_mono (by omega) (within_foldl_add _ hprods (n := 0) ⟨le_rfl, le_rfl⟩)

/-- Each sum of a job is formed of two columns of its stroke. -/
theorem within_xSums {q : Pool} {b : StrokeBuf} (hstroke : q.stroke ≤ 32768)
    (hbits : ∀ e f, -2048 ≤ (b.sample e f).re ∧ (b.sample e f).re ≤ 2047 ∧ -2048 ≤ (b.sample e f).im ∧ (b.sample e f).im ≤ 2047)
    (p : Plan) (warm job : Nat) {x : Int × Int} (hx : x ∈ xSums q p warm b job) : Within (2 ^ 38) x := by
  unfold xSums at hx
  extract_lets cols at hx
  have hcols : ∀ l ∈ cols, ShortColumn l := by
    intro l hl
    obtain ⟨e, -, rfl⟩ := List.mem_map.1 hl
    cases e with
    | none => exact ⟨Nat.zero_le _, fun _ hz => absurd hz List.not_mem_nil⟩
    | some sys =>
      refine ⟨by simpa using hstroke, List.forall_mem_map.2 fun f _ => ?_⟩
      obtain ⟨hre0, hre1, him⟩ := hbits sys f
      exact within_nibSample warm ⟨hre0, hre1⟩ him
  obtain ⟨a, ha, hx⟩ := List.mem_flatMap.1 hx
  obtain ⟨c, hc, rfl⟩ := List.mem_map.1 hx
  exact within_nibSum (hcols a (List.mem_of_mem_take ha)) (hcols c (List.mem_of_mem_drop hc))

/-! ## One component of an inkwell (R120, R121, R125) -/

/-- A component of an inkwell: 0 real, any other number imaginary. -/
def Ink.comp (c : Nat) (x : Ink) : InkComp := if c = 0 then x.re else x.im

/-- An inkwell with one component replaced. -/
def Ink.setComp (c : Nat) (z : InkComp) (x : Ink) : Ink := if c = 0 then { x with re := z } else { x with im := z }

@[simp] theorem Ink.comp_setComp (c : Nat) (z : InkComp) (x : Ink) : (x.setComp c z).comp c = z := by
  unfold Ink.comp Ink.setComp
  split <;> rfl

@[simp] theorem Ink.setComp_spilled (c : Nat) (z : InkComp) (x : Ink) : (x.setComp c z).spilled = x.spilled := by
  unfold Ink.setComp
  split <;> rfl

/-- The component that a sum does not go to. -/
def Ink.otherComp (c : Nat) (x : Ink) : InkComp := if c = 0 then x.im else x.re

@[simp] theorem Ink.otherComp_setComp (c : Nat) (z : InkComp) (x : Ink) : (x.setComp c z).otherComp c = x.otherComp c := by
  unfold Ink.otherComp Ink.setComp
  split <;> rfl

theorem InkComp.add_of_blot {y : InkComp} (h : y.blot = true) (d : Int) : y.add d = y := if_pos h

theorem InkComp.add_of_not_blot {y : InkComp} (h : y.blot = false) (d : Int) : y.add d = ⟨y.v + d, false⟩ := by
  simp [InkComp.add, h]

/-- A component needs no entry when it is blotted, an entry is held, or its value stays in the plain range. -/
theorem fits_eq_true {y : InkComp} {spilled : Bool} {d : Int} : fits y spilled d = true ↔
    y.blot = true ∨ spilled = true ∨ (-(2 ^ 47 - 1) ≤ y.v + d ∧ y.v + d ≤ 2 ^ 47 - 1) := by
  simp [fits, inPlain, or_assoc]

/-- The answer to the request of a component that needs an entry: the one that waited for it, or that of the spill table now (R127). -/
def spillAnswer (dec : Option Bool) (h : Handoff) (s : State) : Option Bool × State :=
  match dec with
  | some b => (some b, s)
  | none => spillAsk h s

section
variable {c : Nat} {h : Handoff} {x : Ink} {d : Int} {s : State}

theorem applyComp_of_fits (dec : Option Bool) (hfit : fits (x.comp c) x.spilled d = true) :
    applyComp c dec h x d s = (x.setComp c ((x.comp c).add d), false, s) := if_pos hfit

/-- Without room, the answer decides: the sum is added with an entry, the component is blotted, or the update stops. -/
theorem applyComp_of_not_fits {dec : Option Bool} (hfit : ¬ fits (x.comp c) x.spilled d = true) :
    applyComp c dec h x d s = match (spillAnswer dec h s).1 with
      | some true => (({ x with spilled := true } : Ink).setComp c ((x.comp c).add d), false, (spillAnswer dec h s).2)
      | some false => (x.setComp c ⟨0, true⟩, false, (spillAnswer dec h s).2)
      | none => (x, true, (spillAnswer dec h s).2) := if_neg hfit

end

/-- What a sum can do to its inkwell. -/
inductive CompStep (c : Nat) (d : Int) (x : Ink) : Ink → Bool → Prop
  | fitted (hfit : fits (x.comp c) x.spilled d = true) : CompStep c d x (x.setComp c ((x.comp c).add d)) false
  | granted (hblot : (x.comp c).blot = false) :
    CompStep c d x (({ x with spilled := true } : Ink).setComp c ((x.comp c).add d)) false
  | blotted (hblot : (x.comp c).blot = false) : CompStep c d x (x.setComp c ⟨0, true⟩) false
  | stopped (hblot : (x.comp c).blot = false) : CompStep c d x x true

theorem applyComp_cases (c : Nat) (dec : Option Bool) (h : Handoff) (x : Ink) (d : Int) (s : State) :
    CompStep c d x (applyComp c dec h x d s).1 (applyComp c dec h x d s).2.1 := by
  by_cases hfit : fits (x.comp c) x.spilled d = true
  · rw [applyComp_of_fits dec hfit]
    exact .fitted hfit
  · have hblot : (x.comp c).blot = false := Bool.eq_false_iff.2 fun hb => hfit (fits_eq_true.2 (.inl hb))
    rw [applyComp_of_not_fits hfit]
    split
    · exact .granted hblot
    · exact .blotted hblot
    · exact .stopped hblot

section
variable {c : Nat} {d : Int} {x y : Ink} {stop : Bool}

theorem CompStep.keeps_spilled (h : CompStep c d x y stop) (hx : x.spilled = true) : y.spilled = true := by
  cases h <;> simp [hx]

theorem CompStep.keeps_other (h : CompStep c d x y stop) : y.otherComp c = x.otherComp c := by
  cases h with
  | granted => exact Ink.otherComp_setComp ..
  | fitted | blotted | stopped => simp

theorem CompStep.eq_of_stopped (h : CompStep c d x y true) : y = x := by
  cases h
  rfl

theorem CompStep.keeps_blot (h : CompStep c d x y stop) (hblot : (x.comp c).blot = true) : y.comp c = x.comp c := by
  cases h with
  | fitted => rw [Ink.comp_setComp, InkComp.add_of_blot hblot]
  | granted hno | blotted hno | stopped hno => exact absurd (hno.symm.trans hblot) Bool.false_ne_true

/-- A component that is not blotted takes the sum exactly, within the plain range unless an entry is held, or is blotted. -/
theorem CompStep.exact_or_blotted (h : CompStep c d x y false) (hblot : (x.comp c).blot = false) :
    y.comp c = ⟨0, true⟩ ∨ ((y.comp c).v = (x.comp c).v + d ∧ (y.comp c).blot = false ∧
      (y.spilled = true ∨ (-(2 ^ 47 - 1) ≤ (y.comp c).v ∧ (y.comp c).v ≤ 2 ^ 47 - 1))) := by
  cases h with
  | fitted hfit =>
    have hroom := (fits_eq_true.1 hfit).resolve_left (by rw [hblot]; exact Bool.false_ne_true)
    rw [Ink.comp_setComp, Ink.setComp_spilled, InkComp.add_of_not_blot hblot]
    exact .inr ⟨rfl, rfl, hroom⟩
  | granted =>
    rw [Ink.comp_setComp, Ink.setComp_spilled, InkComp.add_of_not_blot hblot]
    exact .inr ⟨rfl, rfl, .inl rfl⟩
  | blotted => exact .inl (Ink.comp_setComp ..)

end

/-- Settles O53: the sums by their bound, a component by the four things that a sum can do to its inkwell. -/
theorem sumsAreExactAndComponentsOnlyTighten : Obligations.SumsAreExactAndComponentsOnlyTighten := by
  refine ⟨fun q p warm job b hstroke hbits x => within_xSums hstroke hbits p warm job, ?_⟩
  intro c dec h x d s r old new
  have hstep : CompStep c d x r.1 r.2.1 := applyComp_cases c dec h x d s
  refine ⟨hstep.keeps_spilled, ?_, fun hstop => (hstop ▸ hstep).eq_of_stopped, hstep.keeps_blot,
    fun hgo => (hgo ▸ hstep).exact_or_blotted⟩
  have hother := hstep.keeps_other
  unfold Ink.otherComp at hother
  split at hother
  case isTrue hc => rwa [if_pos hc]
  case isFalse hc => rwa [if_neg hc]

end Sys2Proof.Machine

/-!
The images of schedules, beam sets, tapers and weights, and the switch of a pool's beam set (R107, R111, R151 to R155): what each command does
once its checks are known; from these O49.
-/
namespace Sys2Proof.Machine

section
variable {d : Desc} {data : Bytes} {c : Nat × Nat} {u : State}

theorem runScheduleLoad_of_passed (h : schedChk d (dataOf d data) u = none) :
    let b := dataOf d data
    runScheduleLoad d data u =
      complete d stOk 0 (loadSched (parseSched b) (cfgPutAt (schedTime u (parseSched b)) 3 (fieldU b 0 2) b u)) := by
  simp only [runScheduleLoad, h]

theorem runScheduleLoad_of_failed (h : schedChk d (dataOf d data) u = some c) : runScheduleLoad d data u = refuse d c u := by
  simp only [runScheduleLoad, h]

/-- A beam set that passes its checks is stored, and its spread under the newest version of its plan is the result (log entry 121). -/
theorem runBeamSetLoad_of_passed {p : Plan} (h : beamSetLoadChk d data u = none)
    (hplan : planAt u (parseBeamSet (dataOf d data)).plan (2 ^ 64) = some p) :
    let b := dataOf d data
    runBeamSetLoad d data u = completeWith d stOk 0 (some (spreadBlock u (parseBeamSet b) p)) (disturb (cfgPut 4 (fieldU b 0 1) b
      { u with corr.bsets := Tab.put u.corr.bsets (fieldU b 0 1) (parseBeamSet b) })) := by
  simp only [runBeamSetLoad, h, hplan]

theorem runBeamSetLoad_of_failed (h : beamSetLoadChk d data u = some c) : runBeamSetLoad d data u = refuse d c u := by
  simp only [runBeamSetLoad, h]

theorem runTaperTableLoad_of_passed (h : taperTableLoadChk d data u = none) :
    let b := dataOf d data
    runTaperTableLoad d data u = accept d (cfgPut 5 (fieldU b 0 2) b { u with
      corr.tapers := Tab.put u.corr.tapers (fieldU b 0 2) ((List.range (fieldU b 4 4)).map (fun i => fieldU b (16 + 2 * i) 2)) }) := by
  simp only [runTaperTableLoad, h]

theorem runTaperTableLoad_of_failed (h : taperTableLoadChk d data u = some c) : runTaperTableLoad d data u = refuse d c u := by
  simp only [runTaperTableLoad, h]

/-- The weight table of an image: 12-bit complex weights, beam by beam (R153). -/
def parseWeights (b : Bytes) : WeightTable := ⟨fieldU b 2 1, fieldU b 4 2, fieldU b 8 4,
  (List.range (fieldU b 4 2 * fieldU b 8 4)).map (fun i =>
    (toS 12 (fieldU b (16 + 3 * i) 3 % 4096), toS 12 (fieldU b (16 + 3 * i) 3 / 4096)))⟩

theorem runWeightTableLoad_of_passed (h : weightTableLoadChk d data u = none) :
    let b := dataOf d data
    runWeightTableLoad d data u = accept d (hbmRequest 4 .outside (placeOf u 3 (tableWord 6 (fieldU b 0 2)))
      (cfgPut 6 (fieldU b 0 2) b { u with corr.weights := Tab.put u.corr.weights (fieldU b 0 2) (parseWeights b) })) := by
  simp only [runWeightTableLoad, h, parseWeights]

theorem runWeightTableLoad_of_failed (h : weightTableLoadChk d data u = some c) : runWeightTableLoad d data u = refuse d c u := by
  simp only [runWeightTableLoad, h]

section
variable (hd : descChk d [(32, 2), (40, 8)] = none)
include hd

theorem runBeamSetSwitch_of_passed {r : SchedRun} {q : Pool} (hpool : switchPool d u = some (r, q)) (h : switchChk d u q = none) :
    runBeamSetSwitch d data u = acceptAt (strokeStart u q (par d 40 8)).toNat d (setSched { r with
      bsets := Tab.put r.bsets (par d 32 1) (putSwitch (par d 40 8) (par d 33 1) (Tab.getD r.bsets (par d 32 1) [])) } u) := by
  simp only [runBeamSetSwitch, hd, hpool, h]

theorem runBeamSetSwitch_of_failed {r : SchedRun} {q : Pool} (hpool : switchPool d u = some (r, q)) (h : switchChk d u q = some c) :
    runBeamSetSwitch d data u = refuse d c u := by
  simp only [runBeamSetSwitch, hd, hpool, h]

/-- A switch that names no B pool of the schedule in effect is out of range. -/
theorem runBeamSetSwitch_of_no_pool (hpool : switchPool d u = none) : runBeamSetSwitch d data u = refuse d (stRange, 32) u := by
  simp only [runBeamSetSwitch, hd, hpool]

end
end

/-- Settles O49, command by command. -/
theorem scheduleAndBeamImagesAreLoaded : Obligations.ScheduleAndBeamImagesAreLoaded := by
  intro t d data c p r q s u b
  exact ⟨fun h => congrArg _ (runScheduleLoad_of_passed h), fun h => congrArg _ (runScheduleLoad_of_failed h),
    fun h hplan => congrArg _ (runBeamSetLoad_of_passed h hplan), fun h => congrArg _ (runBeamSetLoad_of_failed h),
    fun h => congrArg _ (runTaperTableLoad_of_passed h), fun h => congrArg _ (runTaperTableLoad_of_failed h),
    fun h => congrArg _ (runWeightTableLoad_of_passed h), fun h => congrArg _ (runWeightTableLoad_of_failed h),
    fun hd hpool => ⟨fun h => congrArg _ (runBeamSetSwitch_of_passed hd hpool h),
      fun h => congrArg _ (runBeamSetSwitch_of_failed hd hpool h)⟩,
    fun hd hpool => congrArg _ (runBeamSetSwitch_of_no_pool hd hpool)⟩

end Sys2Proof.Machine

/-!
Shedding, restoring and fencing (R116, R119, R420 to R423, R442) and the snapshot of a window (R426): what each command does once its premises
are known; from these O50.
-/
namespace Sys2Proof.Machine

/-! ## Host-timed commands (R442) -/

/-- A standalone device takes the present. -/
theorem takeT_of_standalone {u : State} (d : Desc) (data : Bytes) (h : u.twinEn = false) : takeT d data u = (some u.tw, u) := by
  simp [takeT, h]

/-- A command that is immediate in its own right acts at its effect point, once that is known. -/
def actAtT (act : Nat → State → State) (d : Desc) (data : Bytes) (u : State) : State :=
  let r := takeT d data u
  match r.1 with
  | some T => acceptTimed d (act T r.2)
  | none => acceptTimed d r.2

section
variable {d : Desc} {data : Bytes} {u v : State} (act : Nat → State → State)

theorem actAtT_of_known {T : Nat} (h : takeT d data u = (some T, v)) : actAtT act d data u = acceptTimed d (act T v) := by
  simp only [actAtT, h]

theorem actAtT_of_waiting (h : takeT d data u = (none, v)) : actAtT act d data u = acceptTimed d v := by
  simp only [actAtT, h]

end

/-! ## Shedding and restoring (R116, R119) -/

/-- The checks that SHED and RESTORE share: the descriptor, and that the schedule in effect carries the product. -/
def productChk (d : Desc) (u : State) : Chk :=
  firstFail [descChk d [(32, 2)], need (!(productEntries u (par d 32 2)).isEmpty) stNotFound (par d 32 2)]

section
variable {d : Desc} {u : State} (data : Bytes) (hd : descChk d [(32, 2)] = none)
include hd

omit data in
theorem productChk_of_carried (h : productEntries u (par d 32 2) ≠ []) : productChk d u = none := by
  simp [productChk, firstFail, need, hd, h]

omit data in
theorem productChk_of_not_carried (h : productEntries u (par d 32 2) = []) : productChk d u = some (stNotFound, par d 32 2) := by
  simp [productChk, firstFail, need, hd, h]

theorem runShed_of_carried (h : productEntries u (par d 32 2) ≠ []) :
    runShed d data u = actAtT (shedProduct (par d 32 2)) d data u := by
  have hchk := productChk_of_carried hd h
  unfold productChk at hchk
  simp only [runShed, hchk]
  rfl

theorem runShed_of_not_carried (h : productEntries u (par d 32 2) = []) : runShed d data u = refuse d (stNotFound, par d 32 2) u := by
  have hchk := productChk_of_not_carried hd h
  unfold productChk at hchk
  simp only [runShed, hchk]

/-- An entry that the fallback in force preshed is not restored; without one the command acts. -/
theorem runRestore_of_carried (h : productEntries u (par d 32 2) ≠ []) (hpre : preshedBy u (productEntries u (par d 32 2)) = none) :
    runRestore d data u = actAtT (restoreProduct (par d 32 2)) d data u := by
  have hchk := productChk_of_carried hd h
  unfold productChk at hchk
  simp only [runRestore, hchk, hpre]
  rfl

theorem runRestore_of_not_carried (h : productEntries u (par d 32 2) = []) :
    runRestore d data u = refuse d (stNotFound, par d 32 2) u := by
  have hchk := productChk_of_not_carried hd h
  unfold productChk at hchk
  simp only [runRestore, hchk]

end

/-! ## The engine fence command (R422) -/

/-- The state in which an engine fence has been deferred: on a standalone device it disturbs the open recoveries (R458). -/
def fenceDeferred (d : Desc) (u : State) : State :=
  let v := if u.twinEn then u else disturb u
  { v with host.deferred := v.host.deferred ++ [⟨d, .fence (par d 32 1), none⟩] }

section
variable {d : Desc} {data : Bytes} {u : State} (hd : descChk d [(32, 1)] = none)
include hd

theorem runEngineFence_of_failed (hfailed : (engOf (fenceDeferred d u) (par d 32 1)).failed = true) :
    runEngineFence d data u = endWork (.fence (par d 32 1)) stOk 1 (fenceDeferred d u) := by
  unfold fenceDeferred at hfailed ⊢
  simp only [runEngineFence, hd, hfailed, ↓reduceIte]

section
variable {T : Nat} {z : State} (hfailed : (engOf (fenceDeferred d u) (par d 32 1)).failed = false)
  (hT : takeT d data (fenceDeferred d u) = (some T, z))
include hfailed hT

theorem runEngineFence_of_known : runEngineFence d data u =
    if !z.twinEn && fenceNow z (par d 32 1) T then hostFence (par d 32 1) z
    else { z with twin.timed := z.twin.timed ++ [⟨d, data, some T⟩] } := by
  unfold fenceDeferred at hfailed hT
  simp only [runEngineFence, hd, hfailed, hT, Bool.false_eq_true, ↓reduceIte]

theorem runEngineFence_of_due (hz : z.twinEn = false) (hnow : fenceNow z (par d 32 1) T = true) :
    runEngineFence d data u = hostFence (par d 32 1) z := by
  rw [runEngineFence_of_known hd hfailed hT, if_pos (by rw [hz, hnow]; rfl)]

theorem runEngineFence_of_waiting (h : z.twinEn = true ∨ fenceNow z (par d 32 1) T = false) :
    runEngineFence d data u = { z with twin.timed := z.twin.timed ++ [⟨d, data, some T⟩] } := by
  rw [runEngineFence_of_known hd hfailed hT, if_neg]
  rcases h with h | h <;> simp [h]

end
end

/-! ## Fences of the engines (R421 to R423) -/

/-- The state in which an engine has been released from its fence, and its release reported. -/
def fenceReleased (e : Nat) (f : Fence) (u : State) : State :=
  endWork (.fence e) stOk 0 (postEvent 0x81 (engSubject e)
    (le 4 (roundDiv (((u.now - f.at_) * 1000000 : Nat) : Int) tickHz).toNat) (setEng e { engOf u e with fence := none } u))

@[simp] theorem fenceReleased_corr (e : Nat) (f : Fence) (u : State) :
    (fenceReleased e f u).corr = (setEng e { engOf u e with fence := none } u).corr := by
  simp only [fenceReleased, endWork_frame, postEvent_frame]

section
variable {t : Tick} {e : Fin 256} {s u : State} (hu : s.advance t = u)
include hu

/-- A running slot that has handed nothing off for 100 µs and 4 times its handshakes at 2 ns fences its engine. -/
theorem exec_engineStallTimeout_of_stalled {g : Running} {r : SchedRun} {q : Pool} {p : Plan} (hrun : (engOf u e.val).run = some g)
    (hsched : schedOf u g.gen = some r) (hpool : r.pool? g.pool = some q) (hplan : poolPlan u q g.stroke = some p)
    (hout : (engOf u e.val).out = none) (hlong : 100 * tickHz < (u.now - g.startAt) * 1000000)
    (hslot : 8 * q.handshakes p g.job * tickHz < (u.now - g.startAt) * 1000000000) :
    exec (.engineStallTimeout t e) s = .next (fenceEngine e.val 2 u) := by
  have hus : atLeastUs (u.now - g.startAt) 100 = true := decide_eq_true hlong.le
  rw [exec, execEngineStallTimeout]
  simp only [hu, hrun, hout, hsched, Option.bind_some, hpool, hplan, hus, hlong, hslot, Option.isNone_none, decide_true, Bool.and_self,
    ↓reduceIte]

theorem exec_engineBufferError : exec (.engineBufferError t e) s = .next (fenceEngine e.val 3 u) := hu ▸ rfl

section
variable {f : Fence} (hfence : (engOf u e.val).fence = some f)
include hfence

/-- A reload that fails marks the engine failed, whatever the check job says. -/
theorem exec_fenceCheckDone_of_not_reloaded (passed : Bool) : exec (.fenceCheckDone t e false passed) s = .next (markFailed e.val 1 u) := by
  rw [exec, execFenceCheckDone]
  simp only [hu, hfence, Bool.not_false, ↓reduceIte]

theorem exec_fenceCheckDone_of_not_passed : exec (.fenceCheckDone t e true false) s = .next (markFailed e.val 2 u) := by
  rw [exec, execFenceCheckDone]
  simp only [hu, hfence, Bool.not_true, Bool.not_false, Bool.false_eq_true, ↓reduceIte]

/-- An engine that still has slots to run again is released with its recovery open. -/
theorem exec_fenceCheckDone_of_passed (hagain : u.corr.reruns.any (fun y => decide (y.1 = e.val)) = true) :
    exec (.fenceCheckDone t e true true) s = .next (fenceReleased e.val f u) := by
  have hagain' : (fenceReleased e.val f u).corr.reruns.any (fun y => decide (y.1 = e.val)) = true := by
    rwa [fenceReleased_corr, setEng_reruns]
  rw [exec, execFenceCheckDone]
  simp only [hu, hfence, Bool.not_true, Bool.false_eq_true, ↓reduceIte]
  exact congrArg _ (if_pos hagain')

end
end

/-! ## Monitor snapshots (R426) -/

/-- A window without length ends with its snapshot, and the next one starts. -/
theorem runMonitorSnapshot_of_endless {d : Desc} {u : State} (data : Bytes) (hd : descChk d [(32, 1)] = none) (hn : par d 32 1 < 16)
    (hrun : (winOf u (par d 32 1)).acc.isSome = true) (hlen : fld (winOf u (par d 32 1)).len 0 16 = 0) :
    runMonitorSnapshot d data u = accept d (startWindow (par d 32 1) (snapshot (par d 32 1) true u)) := by
  simp [runMonitorSnapshot, firstFail, need, hd, hn, hrun, hlen]

/-- Settles O50, command by command; shed and restore share their checks and the way they act at T. -/
theorem sheddingAndFencingAct : Obligations.SheddingAndFencingAct := by
  intro t d data e g f s u x
  refine ⟨takeT_of_standalone d data, fun hd hcarried v => ⟨fun T hT => ⟨?_, fun hpre => ?_⟩, fun hT => ⟨?_, fun hpre => ?_⟩⟩,
    fun hd hnone => ⟨?_, ?_⟩, ?_, fun r q p hrun hsched hpool hplan hout =>
      exec_engineStallTimeout_of_stalled rfl hrun hsched hpool hplan hout, exec_engineBufferError rfl,
    fun hfence => ⟨?_, ?_, fun hagain => ?_⟩, fun hd hn hrun hlen => ?_⟩
  · exact congrArg _ ((runShed_of_carried data hd hcarried).trans (actAtT_of_known _ hT))
  · exact congrArg _ ((runRestore_of_carried data hd hcarried hpre).trans (actAtT_of_known _ hT))
  · exact congrArg _ ((runShed_of_carried data hd hcarried).trans (actAtT_of_waiting _ hT))
  · exact congrArg _ ((runRestore_of_carried data hd hcarried hpre).trans (actAtT_of_waiting _ hT))
  · exact congrArg _ (runShed_of_not_carried data hd hnone)
  · exact congrArg _ (runRestore_of_not_carried data hd hnone)
  · intro hd v w
    exact ⟨fun hfailed => congrArg _ (runEngineFence_of_failed hd hfailed), fun hfailed T z hT =>
      ⟨fun hz hnow => congrArg _ (runEngineFence_of_due hd hfailed hT hz hnow),
        fun hwait => congrArg _ (runEngineFence_of_waiting hd hfailed hT hwait)⟩⟩
  · exact exec_fenceCheckDone_of_not_reloaded rfl hfence true
  · exact exec_fenceCheckDone_of_not_passed rfl hfence
  · refine ⟨_, exec_fenceCheckDone_of_passed rfl hfence hagain, ?_, ?_⟩
    · rw [fenceReleased_corr, setEng_eng]
    · rw [fenceReleased_corr, setEng_reruns]
  · exact congrArg _ (runMonitorSnapshot_of_endless data hd hn hrun hlen)

end Sys2Proof.Machine

/-!
The inkwells and the beam records (R125 to R127, R132, R135, R158, R165, R356): what each completion does once its premises are known; from
these O52.
-/
namespace Sys2Proof.Machine

/-! ## The order of positions and requests (R125, R127) -/

/-- No position comes before itself, so that a position already done counts as done again. -/
@[simp] theorem posLt_self (a : Nat × Nat) : posLt a a = false := by simp [posLt]

@[simp] theorem firstReq_singleton (w : Updating) : firstReq [w] = some w := rfl

/-- While no refusal stands, a grant takes one entry and reports nothing (R130; log entry 26 for the held ones). -/
theorem spillGrant_of_not_refused (h : Handoff) {u : State} (hrefused : u.corr.spillRefused = false) :
    spillGrant h u = { u with
      corr.spillUsed := u.corr.spillUsed + 1
      corr.spillHeld := takeHeld (fun p => decide (p.due u ≤ h.deadline)) u.corr.spillHeld } := by
  rw [spillGrant]
  simp only [hrefused, Bool.false_eq_true, ↓reduceIte]

/-- A request for which an entry is free is granted. -/
theorem spillDecide_of_free {h : Handoff} {u : State} (hfree : 0 < spillFor u h.deadline) :
    spillDecide h u = (true, spillGrant h u) := if_pos hfree

/-! ## The records of a stroke (R163 to R165) -/

/-- The state in which the records of stroke `i` of a pool have been emitted, and the pool is due to go on with the next. -/
def strokeEmitted (r : SchedRun) (pool : Nat) (q : Pool) (p : Plan) (i : Nat) (bs : List (Nat × Nat × BeamOut)) (u : State) : State :=
  let v := emitStroke r pool q p i bs u
  { v with
    corr.beamNext := Tab.put v.corr.beamNext (poolKey r.gen pool) (i + 1)
    corr.beamOut := v.corr.beamOut.filter (fun o => decide (o.1 / 2 ^ 32 ≠ poolKey r.gen pool * 2 ^ 48 + i)) }

theorem strokeEmitted_next (r : SchedRun) (pool : Nat) (q : Pool) (p : Plan) (i : Nat) (bs : List (Nat × Nat × BeamOut)) (u : State) :
    Tab.get (strokeEmitted r pool q p i bs u).corr.beamNext (poolKey r.gen pool) = some (i + 1) := Tab.get_put_same _ _ _

section
variable {t : Tick} {s u : State} (hu : s.advance t = u)
include hu

/-! ## Updates of the inkwells (R125, R126, R356) -/

section
variable {e : Fin 256} {h : Handoff} {r : SchedRun} {q : Pool} {x : EntryRun} (hout : (engOf u e.val).out = some h)
  (hidle : u.corr.updating = []) (hsched : schedOf u h.gen = some r) (hpool : r.pool? h.pool = some q) (hentry : r.runs[h.run]? = some x)
include hout hidle hsched hpool hentry

theorem exec_inkwellUpdate_of_new (ecc : List Ecc) (hnew : x.done = none) (hclosed : updateBusy u h r q = false) :
    exec (.inkwellUpdate t e ecc) s = .next (applyUpdate h r q ecc u) := by
  rw [exec, execInkwellUpdate]
  simp only [hu, hout, hidle, hsched, hpool, hentry, hnew, hclosed, List.any_nil, Bool.false_eq_true, ↓reduceIte]

/-- A position that is done is not applied again, whether or not a pair is open on its tile. -/
theorem exec_inkwellUpdate_of_done (ecc : List Ecc) (hdone : x.done = some (h.stroke, h.slot)) :
    exec (.inkwellUpdate t e ecc) s =
      .next (setEng e.val { engOf u e.val with out := none, dup := bump 32 (engOf u e.val).dup 1 } u) := by
  rw [exec, execInkwellUpdate]
  simp only [hu, hout, hidle, hsched, hpool, hentry, hdone, posLt_self, List.any_nil, Bool.not_false, Bool.false_eq_true, ↓reduceIte]

end

/-! ## Serialised grants (R127) -/

/-- The only waiting request is granted, and its update goes on where it stopped. -/
theorem exec_spillGrant_of_free {w : Updating} {r : SchedRun} {q : Pool} (honly : u.corr.updating = [w]) (hfirst : earlierCan u w = false)
    (hfree : 0 < spillFor u w.hand.deadline) (hrefused : u.corr.spillRefused = false) (hsched : schedOf u w.hand.gen = some r)
    (hpool : r.pool? w.hand.pool = some q) :
    exec (.spillGrant t) s = .next (runUpdate w.hand
      (tileKey w.hand.gen w.hand.pool (q.bankOf (q.integOf w.hand.stroke)) w.hand.job) w.nib w.comp (some true)
      (setEng w.hand.engine { engOf u w.hand.engine with out := some w.hand } { u with
        corr.spillUsed := u.corr.spillUsed + 1
        corr.spillHeld := takeHeld (fun p => decide (p.due u ≤ w.hand.deadline)) u.corr.spillHeld
        corr.updating := [] })) := by
  have hdrop : [w].filter (fun v => decide (v ≠ w)) = [] := by simp
  unfold schedOf at hsched
  rw [exec, execSpillGrant]
  simp only [hu, honly, firstReq_singleton, hfirst, spillDecide_of_free hfree, spillGrant_of_not_refused w.hand hrefused, schedOf, hsched,
    hpool, hdrop, engOf, Bool.false_eq_true, ↓reduceIte]

/-! ## Readouts and dump records (R132, R135, R356) -/

/-- A full segment is read out and its token moves on, unless a pair is open on one of its tiles. -/
theorem exec_segmentReadoutDone_of_full {pool first bank : Nat} {r : SchedRun} {q : Pool} (ecc : List Ecc)
    (hfull : fullSegment u pool first bank = some (r, q)) :
    let seg := segOfJob r pool q first
    let a := tileAddr u r pool q bank first
    let l := inkWords u q seg.2 a ecc
    exec (.segmentReadoutDone t pool first bank ecc) s = if inkBusy u q seg.2 a then .next u
      else .next (afterSlot (advanceSeg r.gen pool bank seg q (readout r.gen pool bank seg l (inkEcc q 1 seg.2 a l u)))) := by
  rw [exec, execSegmentReadoutDone]
  simp only [hu, hfull]

theorem exec_dumpRecord_of_least {o : Readout} {r : SchedRun} {q : Pool} {p : Plan} (hleast : leastDump u = some o)
    (hfirst : earlierDump u o = false) (hsched : schedOf u o.gen = some r) (hpool : r.pool? o.pool = some q)
    (hplan : planAt u q.plan (integFrame q o.integ) = some p) :
    exec (.dumpRecord t) s = .next (afterSlot (formRecordBut o.denied o.time o.at_ (dumpSpec u r q p o) (dropReadout o u))) := by
  rw [exec, execDumpRecord]
  simp only [hu, hleast, hfirst, hsched, hpool, hplan, Bool.false_eq_true, ↓reduceIte]

/-! ## Beam blocks and beam records (R158, R160, R165) -/

theorem exec_beamOutput_of_ready {pool k block gen key : Nat} {r : SchedRun} {q : Pool} {a : BeamAcc}
    (hready : blockReady u pool k block = some (gen, key)) (hsched : schedOf u gen = some r) (hacc : Tab.get u.corr.beamAcc key = some a)
    (hpool : r.pool? pool = some q) :
    exec (.beamOutput t pool k block) s = .next { u with
      corr.beamAcc := Tab.del u.corr.beamAcc key
      corr.beamOut := Tab.put u.corr.beamOut key (finishBlock q (beamsAt u r pool (key / 2 ^ 32 % 2 ^ 48) block) a u) } := by
  rw [exec, execBeamOutput]
  simp only [hu, hready, hsched, hacc, hpool]

/-- The stroke whose records come next is emitted, and a Lightbox frame that waits for its maps goes on (R166). -/
theorem exec_beamRecord_of_ready {pool i : Nat} {r : SchedRun} {q : Pool} {p : Plan} {bs : List (Nat × Nat × BeamOut)}
    (hready : strokeReady u pool = some (r, q, p, i, bs)) :
    exec (.beamRecord t pool) s = .next (resumeFrame (afterSlot (trimGeom (strokeEmitted r pool q p i bs u)))) := by
  rw [exec, execBeamRecord]
  simp only [hu, hready, strokeEmitted]

end

/-- Settles O52: each completion by its own lemma, an update by whether its position is done, a readout by whether a pair is open. That a
request may not take entries held for later deadlines is the model's choice (log entry 26). -/
theorem inkwellsAndBeamsAreRecorded : Obligations.InkwellsAndBeamsAreRecorded := by
  intro t e ecc h r q x w pool first bank k block o p a gen key i bs s u
  refine ⟨fun hout hidle hsched hpool hentry => ⟨exec_inkwellUpdate_of_new rfl hout hidle hsched hpool hentry ecc,
      exec_inkwellUpdate_of_done rfl hout hidle hsched hpool hentry ecc⟩,
    exec_spillGrant_of_free rfl, fun hfull => ⟨fun hclosed => ?_, fun hopen => ?_⟩, exec_dumpRecord_of_least rfl, exec_beamOutput_of_ready rfl,
    fun hready => ⟨_, exec_beamRecord_of_ready rfl hready, strokeEmitted_next r pool q p i bs u⟩⟩
  · rw [exec_segmentReadoutDone_of_full rfl ecc hfull, hclosed, if_neg Bool.false_ne_true]
  · rw [exec_segmentReadoutDone_of_full rfl ecc hfull, if_pos hopen]

end Sys2Proof.Machine

/-!
The bound on the open capture pins (R195): a pin is taken only while fewer than 16 are open, and nothing else opens one, so that every step
keeps at most 16 of them; from this O60.
-/
namespace Sys2Proof.Machine

/-! ## The bound, and what answers it unchanged -/

/-- At most 16 capture pins are open (R195). -/
abbrev PinsFit (s : State) : Prop := s.glint.pins.length ≤ 16

@[simp] theorem pinsFit_ite (c : Prop) [Decidable c] (s u : State) :
    PinsFit (if c then s else u) ↔ if c then PinsFit s else PinsFit u := by
  split <;> rfl

@[simp] theorem foldl_pinsFit {α : Type} (f : State → α → State) (l : List α) (s : State)
    (h : ∀ u a, PinsFit (f u a) ↔ PinsFit u) : PinsFit (l.foldl f s) ↔ PinsFit s :=
  iff_of_eq (foldl_keeps PinsFit f l s fun u a _ => propext (h u a))

/-- Every state that an outcome answers has at most 16 open pins exactly where `s` has. -/
def SamePinsFit (o : Host.Outcome State Fault Refusal) (s : State) : Prop := ∀ u, o = .next u → (PinsFit u ↔ PinsFit s)

@[simp] theorem samePinsFit_next (u s : State) : SamePinsFit (.next u) s ↔ (PinsFit u ↔ PinsFit s) := by
  simp [SamePinsFit]

theorem samePinsFit_of_glint {o : Host.Outcome State Fault Refusal} {s : State} (h : ∀ u, o = .next u → u.glint = s.glint) :
    SamePinsFit o s := fun u hu => by rw [PinsFit, h u hu]

theorem samePinsFit_run {f : State → State} (h : ∀ s, PinsFit (f s) ↔ PinsFit s) (t : Tick) (s : State) :
    SamePinsFit (.next (f (s.advance t))) s := by
  simp [h]

theorem after_pinsFit {o : Host.Outcome State Fault Refusal} {s : State} (h : SamePinsFit o s) : PinsFit (after o s) ↔ PinsFit s := by
  unfold after
  split
  · exact h _ rfl
  · rfl

theorem after_pinsFit_of_glint {o : Host.Outcome State Fault Refusal} {s : State} (h : ∀ u, o = .next u → u.glint = s.glint) :
    PinsFit (after o s) ↔ PinsFit s := after_pinsFit (samePinsFit_of_glint h)

/-! ## Pins (R194, R195) -/

theorem Tab.length_put_le {α : Type} (l : Tab α) (k : Nat) (a : α) : (Tab.put l k a).length ≤ l.length + 1 := by
  induction l with
  | nil => simp [Tab.put]
  | cons x l ih =>
    obtain ⟨j, b⟩ := x
    simp only [Tab.put]
    split
    · simp
    · split
      · simp
      · simpa using ih

theorem Tab.length_del_le {α : Type} (l : Tab α) (k : Nat) : (Tab.del l k).length ≤ l.length := List.length_filter_le _ _

/-- With 16 pins open a capture is refused, and its event takes flag bit 3. -/
theorem takePin_of_full {s : State} (h : 16 ≤ s.glint.pins.length) (det : Nat) (e : GlintEvent) (provisional : Bool) :
    takePin det e provisional s =
      modEvent det (fun e => { e with flags := e.flags ||| 8 }) { s with glint.refused := s.glint.refused + 1 } := if_pos h

/-- With fewer pins open a capture takes the next one. -/
theorem takePin_pins_of_room {s : State} (h : s.glint.pins.length < 16) (det : Nat) (e : GlintEvent) (provisional : Bool) :
    ∃ x, (takePin det e provisional s).glint.pins = Tab.put s.glint.pins s.glint.nextPin x :=
  ⟨_, by rw [takePin, if_neg (not_le.2 h)]; rfl⟩

/-! ## Runs, the element table and groups (R35 to R39, R510) -/

@[simp] theorem glintSkip_pinsFit (e next : Nat) (s : State) : PinsFit (glintSkip e next s) ↔ PinsFit s := by
  unfold glintSkip
  split <;> simp

@[simp] theorem skipTo_pinsFit (e : Nat) (d : GroupDesc) (b : Nat) (s : State) : PinsFit (skipTo e d b s) ↔ PinsFit s := by
  simp [skipTo]

@[simp] theorem beginRun_pinsFit (e tOrg : Nat) (d : GroupDesc) (b delay : Nat) (s : State) :
    PinsFit (beginRun e tOrg d b delay s) ↔ PinsFit s := by
  simp [beginRun]

@[simp] theorem jumpRun_pinsFit (e : Nat) (s : State) : PinsFit (jumpRun e s) ↔ PinsFit s := by
  unfold jumpRun
  dsimp only
  repeat' split
  all_goals simp

@[simp] theorem finishStops_pinsFit (s : State) : PinsFit (finishStops s) ↔ PinsFit s := by
  simp [finishStops]

@[simp] theorem ensureRun_pinsFit (s0 : State) (was : ElemEntry) (e : Nat) (x : ElemEntry) (g : GroupRun) (d : GroupDesc) (b : Nat)
    (s : State) :
    PinsFit (ensureRun s0 was e x g d b s) ↔ PinsFit s := by
  unfold ensureRun
  repeat' split
  all_goals simp

@[simp] theorem ensureRuns_pinsFit (s0 : State) (p : Pend) (s : State) : PinsFit (ensureRuns s0 p s) ↔ PinsFit s := by
  unfold ensureRuns
  split
  · rfl
  · refine foldl_pinsFit _ _ _ fun u x => ?_
    split <;> simp

@[simp] theorem fitRing_pinsFit (e : Nat) (s : State) : PinsFit (fitRing e s) ↔ PinsFit s := by
  unfold fitRing
  dsimp only
  repeat' split
  all_goals simp

@[simp] theorem fitRings_pinsFit (s : State) : PinsFit (fitRings s) ↔ PinsFit s := by
  simp [fitRings]

@[simp] theorem enterChange_pinsFit (now : PendKind) (pend : List Pend) (s : State) : PinsFit (enterChange now pend s) ↔ PinsFit s := by
  simp [enterChange]

@[simp] theorem runElementTableChange_pinsFit (d : Desc) (data : Bytes) (s : State) :
    PinsFit (runElementTableChange d data s) ↔ PinsFit s := by
  unfold runElementTableChange
  dsimp only
  repeat' split
  all_goals simp

@[simp] theorem runGroupDescriptor_pinsFit (d : Desc) (data : Bytes) (s : State) : PinsFit (runGroupDescriptor d data s) ↔ PinsFit s := by
  unfold runGroupDescriptor
  dsimp only
  repeat' split
  all_goals simp

@[simp] theorem startGroup_pinsFit (g tOrg : Nat) (s : State) : PinsFit (startGroup g tOrg s) ↔ PinsFit s := by
  unfold startGroup
  dsimp only
  split <;> simp

@[simp] theorem runGroupStart_pinsFit (d : Desc) (data : Bytes) (s : State) : PinsFit (runGroupStart d data s) ↔ PinsFit s := by
  unfold runGroupStart
  dsimp only
  split <;> simp

@[simp] theorem stopGroup_pinsFit (g at_ : Nat) (s : State) : PinsFit (stopGroup g at_ s) ↔ PinsFit s := by
  unfold stopGroup
  rw [finishStops_pinsFit]
  refine foldl_pinsFit _ _ _ fun u e => ?_
  split <;> simp

@[simp] theorem runGroupStop_pinsFit (d : Desc) (data : Bytes) (s : State) : PinsFit (runGroupStop d data s) ↔ PinsFit s := by
  unfold runGroupStop
  dsimp only
  split <;> simp

/-! ## The afterimage and the conditioning chain (R170, R196, R348) -/

@[simp] theorem yieldPins_pinsFit (e b : Nat) (s : State) : PinsFit (yieldPins e b s) ↔ PinsFit s := by
  simp [yieldPins]

@[simp] theorem afterEvict_pinsFit (e b : Nat) (s : State) : PinsFit (afterEvict e b s) ↔ PinsFit s := by
  simp [afterEvict]

@[simp] theorem afterLand_pinsFit (e b : Nat) (s : State) : PinsFit (afterLand e b s) ↔ PinsFit s := by
  unfold afterLand
  split <;> simp

@[simp] theorem afterLanded_pinsFit (s : State) : PinsFit (afterLanded s) ↔ PinsFit s := by
  simp [afterLanded]

@[simp] theorem afterWrite_pinsFit (e b : Nat) (vals : List (Int × Nat)) (s : State) : PinsFit (afterWrite e b vals s) ↔ PinsFit s := by
  simp [afterWrite]

@[simp] theorem releaseBlock_pinsFit (e b : Nat) (r : ElemRun) (s : State) : PinsFit (releaseBlock e b r s) ↔ PinsFit s := by
  simp [releaseBlock]

theorem execBlockRelease_samePinsFit (t : Tick) (e : Fin 16384) (s : State) : SamePinsFit (execBlockRelease t e s) s := by
  unfold execBlockRelease
  dsimp only
  repeat' split
  all_goals simp

theorem execAfterimageWriteTimeout_samePinsFit (t : Tick) (e : Fin 16384) (block : Nat) (s : State) :
    SamePinsFit (execAfterimageWriteTimeout t e block s) s := by
  unfold execAfterimageWriteTimeout
  dsimp only
  repeat' split
  all_goals simp

@[simp] theorem glintStore_pinsFit (e : Nat) (r : ElemRun) (g : GroupDesc) (accepts : Bool) (outs : List (Nat × CondWord)) (s : State) :
    PinsFit (glintStore e r g accepts outs s) ↔ PinsFit s := by
  unfold glintStore
  repeat' split
  all_goals simp

@[simp] theorem sliceBlock_pinsFit (e : Nat) (accepts : Bool) (s : State) : PinsFit (sliceBlock e accepts s) ↔ PinsFit s := by
  unfold sliceBlock
  dsimp only
  repeat' split
  all_goals simp

theorem execConditioningSlice_samePinsFit (t : Tick) (engine : Fin 32) (accepts : Bool) (s : State) :
    SamePinsFit (execConditioningSlice t engine accepts s) s := by
  unfold execConditioningSlice
  dsimp only
  repeat' split
  all_goals simp

/-! ## Starts and programs of the transmit path -/

@[simp] theorem endBlank_pinsFit (entry after : Nat) (s : State) : PinsFit (endBlank entry after s) ↔ PinsFit s := by
  simp [endBlank]

@[simp] theorem finishAfter_pinsFit (after id status info : Nat) (s : State) :
    PinsFit (finishAfter after id status info s) ↔ PinsFit s := by
  unfold finishAfter
  repeat' split
  all_goals simp

@[simp] theorem finishStart_pinsFit (id status info : Nat) (s : State) : PinsFit (finishStart id status info s) ↔ PinsFit s := by
  simp [finishStart]

@[simp] theorem stopStart_pinsFit (id T status info : Nat) (s : State) : PinsFit (stopStart id T status info s) ↔ PinsFit s := by
  simp [stopStart]

@[simp] theorem beginProgram_pinsFit (id : Nat) (tS : Int) (s : State) : PinsFit (beginProgram id tS s) ↔ PinsFit s := by
  unfold beginProgram
  repeat' split
  all_goals simp

@[simp] theorem beginEcho_pinsFit (id : Nat) (c : EchoCmd) (tS : Int) (s : State) : PinsFit (beginEcho id c tS s) ↔ PinsFit s := by
  unfold beginEcho
  repeat' split
  all_goals simp

@[simp] theorem beginStart_pinsFit (id : Nat) (tS : Int) (s : State) : PinsFit (beginStart id tS s) ↔ PinsFit s := by
  unfold beginStart
  repeat' split
  all_goals simp

@[simp] theorem echoRecord_pinsFit (k : EchoRun) (abandoned : Bool) (s : State) : PinsFit (echoRecord k abandoned s) ↔ PinsFit s := by
  simp [echoRecord]

@[simp] theorem abandonEcho_pinsFit (s : State) : PinsFit (abandonEcho s) ↔ PinsFit s := by
  unfold abandonEcho
  split <;> simp

@[simp] theorem preempt_pinsFit (x : Start) (s : State) : PinsFit (preempt x s) ↔ PinsFit s := by
  simp [preempt]

@[simp] theorem beginOrRamp_pinsFit (id : Nat) (x : Start) (s : State) : PinsFit (beginOrRamp id x s) ↔ PinsFit s := by
  simp [beginOrRamp]

@[simp] theorem fallDue_pinsFit (id : Nat) (x : Start) (s : State) : PinsFit (fallDue id x s) ↔ PinsFit s := by
  simp [fallDue]

theorem execTransmitStartDue_samePinsFit (t : Tick) (s : State) : SamePinsFit (execTransmitStartDue t s) s := by
  unfold execTransmitStartDue
  dsimp only
  split <;> simp

theorem execHeldStartReady_samePinsFit (t : Tick) (start : Nat) (s : State) : SamePinsFit (execHeldStartReady t start s) s := by
  unfold execHeldStartReady
  dsimp only
  repeat' split
  all_goals simp

@[simp] theorem stopProgram_pinsFit (prog T : Nat) (s : State) : PinsFit (stopProgram prog T s) ↔ PinsFit s := by
  simp [stopProgram]

@[simp] theorem runTransmitStop_pinsFit (d : Desc) (data : Bytes) (s : State) : PinsFit (runTransmitStop d data s) ↔ PinsFit s := by
  unfold runTransmitStop
  dsimp only
  repeat' split
  all_goals simp

theorem execProgramEnd_samePinsFit (t : Tick) (start : Nat) (s : State) : SamePinsFit (execProgramEnd t start s) s := by
  unfold execProgramEnd
  dsimp only
  repeat' split
  all_goals simp

theorem execEchoRecord_samePinsFit (t : Tick) (s : State) : SamePinsFit (execEchoRecord t s) s := by
  unfold execEchoRecord
  dsimp only
  repeat' split
  all_goals simp

/-! ## Publications and their actions (R181 to R195) -/

@[simp] theorem triggerOut_pinsFit (arr : Option Nat) (body : Bytes) (s : State) : PinsFit (triggerOut arr body s) ↔ PinsFit s := by
  simp [triggerOut]

@[simp] theorem sendPublication_pinsFit (code id : Nat) (arr : Option Nat) (body : Bytes) (md m : Nat) (s : State) :
    PinsFit (sendPublication code id arr body md m s) ↔ PinsFit s := by
  simp [sendPublication]

@[simp] theorem publishGlint_pinsFit (det code : Nat) (e : GlintEvent) (s : State) : PinsFit (publishGlint det code e s) ↔ PinsFit s := by
  simp [publishGlint]

@[simp] theorem modEvent_pinsFit (d : Nat) (f : GlintEvent → GlintEvent) (s : State) : PinsFit (modEvent d f s) ↔ PinsFit s := by
  simp [modEvent]

@[simp] theorem markActions_pinsFit (det code : Nat) (e : GlintEvent) (s : State) : PinsFit (markActions det code e s) ↔ PinsFit s := by
  simp [markActions]

@[simp] theorem pinActions_pinsFit (det code : Nat) (s : State) : PinsFit (pinActions det code s) ↔ PinsFit s := by
  simp [pinActions]

@[simp] theorem takePin_pinsFit (det : Nat) (e : GlintEvent) (provisional : Bool) (s : State) :
    PinsFit (takePin det e provisional s) ↔ PinsFit s := by
  by_cases h : 16 ≤ s.glint.pins.length
  · rw [takePin_of_full h]
    rfl
  · obtain ⟨x, hx⟩ := takePin_pins_of_room (not_le.1 h) det e provisional
    have hput := Tab.length_put_le s.glint.pins s.glint.nextPin x
    rw [PinsFit, hx]
    omega

@[simp] theorem captureAction_pinsFit (det code : Nat) (e : GlintEvent) (s : State) :
    PinsFit (captureAction det code e s) ↔ PinsFit s := by
  simp [captureAction]

@[simp] theorem startAction_pinsFit (det : Nat) (e : GlintEvent) (s : State) : PinsFit (startAction det e s) ↔ PinsFit s := by
  simp [startAction]

@[simp] theorem publishEvent_pinsFit (det code : Nat) (s : State) : PinsFit (publishEvent det code s) ↔ PinsFit s := by
  unfold publishEvent
  split <;> simp

@[simp] theorem goProvisional_pinsFit (det : Nat) (s : State) : PinsFit (goProvisional det s) ↔ PinsFit s := by
  simp [goProvisional]

@[simp] theorem goConfirmed_pinsFit (det : Nat) (s : State) : PinsFit (goConfirmed det s) ↔ PinsFit s := by
  simp [goConfirmed]

@[simp] theorem closeEvent_pinsFit (det bit : Nat) (s : State) : PinsFit (closeEvent det bit s) ↔ PinsFit s := by
  unfold closeEvent
  repeat' split
  all_goals simp

@[simp] theorem forceClose_pinsFit (det : Nat) (s : State) : PinsFit (forceClose det s) ↔ PinsFit s := by
  unfold forceClose
  split <;> simp

@[simp] theorem closeAll_pinsFit (s : State) : PinsFit (closeAll s) ↔ PinsFit s := by
  simp [closeAll]

/-! ## The glint commands -/

@[simp] theorem glintInstall_pinsFit (c : GlintCfg) (s : State) : PinsFit (glintInstall c s) ↔ PinsFit s := by
  simp [glintInstall]

@[simp] theorem runGlintConfigure_pinsFit (d : Desc) (data : Bytes) (s : State) : PinsFit (runGlintConfigure d data s) ↔ PinsFit s := by
  unfold runGlintConfigure
  dsimp only
  repeat' split
  all_goals simp

@[simp] theorem runGlintBeamSetLoad_pinsFit (d : Desc) (data : Bytes) (s : State) :
    PinsFit (runGlintBeamSetLoad d data s) ↔ PinsFit s := by
  unfold runGlintBeamSetLoad
  split <;> simp

@[simp] theorem runGlintDetector_pinsFit (d : Desc) (data : Bytes) (s : State) : PinsFit (runGlintDetector d data s) ↔ PinsFit s := by
  unfold runGlintDetector
  split <;> simp

@[simp] theorem runGlintArm_pinsFit (d : Desc) (data : Bytes) (s : State) : PinsFit (runGlintArm d data s) ↔ PinsFit s := by
  unfold runGlintArm
  dsimp only
  split <;> simp

@[simp] theorem runGlintSetSwitch_pinsFit (d : Desc) (data : Bytes) (s : State) : PinsFit (runGlintSetSwitch d data s) ↔ PinsFit s := by
  unfold runGlintSetSwitch
  dsimp only
  split <;> simp

@[simp] theorem clearPins_pinsFit (mask : Nat) (s : State) : PinsFit (clearPins mask s) ↔ PinsFit s := by
  simp [clearPins]

@[simp] theorem runGlintPinClear_pinsFit (d : Desc) (data : Bytes) (s : State) : PinsFit (runGlintPinClear d data s) ↔ PinsFit s := by
  unfold runGlintPinClear
  dsimp only
  repeat' split
  all_goals simp

theorem execGlintOutputDue_samePinsFit (t : Tick) (e : Fin 16384) (s : State) : SamePinsFit (execGlintOutputDue t e s) s := by
  unfold execGlintOutputDue
  dsimp only
  repeat' split
  all_goals simp

/-! ## Beam samples, timers and captures (R175, R181, R183, R193, R197) -/

@[simp] theorem detEvent_pinsFit (det : Nat) (p : DetPar) (was is_ : Bool) (peak m : Nat) (x : BeamSample) (s : State) :
    PinsFit (detEvent det p was is_ peak m x s) ↔ PinsFit s := by
  unfold detEvent
  dsimp only
  split <;> simp

@[simp] theorem runBeam_pinsFit (b m : Nat) (x : BeamSample) (s : State) : PinsFit (runBeam b m x s) ↔ PinsFit s := by
  unfold runBeam
  dsimp only
  repeat' split
  all_goals simp

@[simp] theorem applySwitch_pinsFit (id m : Nat) (s : State) : PinsFit (applySwitch id m s) ↔ PinsFit s := by
  simp [applySwitch]

@[simp] theorem countSteps_pinsFit (b : Nat) (ds : List (Nat × Int)) (s : State) : PinsFit (countSteps b ds s) ↔ PinsFit s := by
  simp [countSteps]

@[simp] theorem takeSamples_pinsFit (m : Nat) (g : GroupDesc) (org : Nat)
    (bs : List (Nat × GlintBeam × List (Nat × Int) × List (Nat × Int))) (s : State) :
    PinsFit (takeSamples m g org bs s) ↔ PinsFit s := by
  simp [takeSamples]

theorem execGlintBeamSample_samePinsFit (t : Tick) (s : State) : SamePinsFit (execGlintBeamSample t s) s := by
  unfold execGlintBeamSample
  dsimp only
  repeat' split
  all_goals simp

theorem execPublishHoldExpiry_samePinsFit (t : Tick) (det : Fin 512) (s : State) : SamePinsFit (execPublishHoldExpiry t det s) s := by
  unfold execPublishHoldExpiry
  dsimp only
  repeat' split
  all_goals simp

theorem execVoidTimeout_samePinsFit (t : Tick) (det : Fin 512) (s : State) : SamePinsFit (execVoidTimeout t det s) s := by
  unfold execVoidTimeout
  dsimp only
  repeat' split
  all_goals simp

theorem execBlankEnd_samePinsFit (t : Tick) (entry : Fin 64) (s : State) : SamePinsFit (execBlankEnd t entry s) s := by
  simp [execBlankEnd]

@[simp] theorem captureLand_pinsFit (p : Pin) (s : State) : PinsFit (captureLand p s) ↔ PinsFit s := by
  simp [captureLand]

/-! ## The twin pair -/

@[simp] theorem gapOver_pinsFit (s : State) : PinsFit (gapOver s) ↔ PinsFit s := by
  simp [gapOver]

@[simp] theorem applyEffect_pinsFit (d : Desc) (data : Bytes) (T : Nat) (s : State) : PinsFit (applyEffect d data T s) ↔ PinsFit s := by
  unfold applyEffect
  split <;> simp

@[simp] theorem releaseHeld_pinsFit (T : Nat) (s : State) : PinsFit (releaseHeld T s) ↔ PinsFit s := by
  simp [releaseHeld]

@[simp] theorem yieldRole_pinsFit (s : State) : PinsFit (yieldRole s) ↔ PinsFit s := by
  simp [yieldRole]

@[simp] theorem pinConflict_pinsFit (s : State) : PinsFit (pinConflict s) ↔ PinsFit s := by
  simp [pinConflict]

@[simp] theorem claim_pinsFit (cause : Nat) (s : State) : PinsFit (claim cause s) ↔ PinsFit s := by
  simp [claim]

theorem execTwinClaimTimer_samePinsFit (t : Tick) (s : State) : SamePinsFit (execTwinClaimTimer t s) s := by
  unfold execTwinClaimTimer
  dsimp only
  repeat' split
  all_goals simp

@[simp] theorem handoverClaim_pinsFit (s : State) : PinsFit (handoverClaim s) ↔ PinsFit s := by
  simp [handoverClaim]

theorem execTwinLitInChange_samePinsFit (t : Tick) (level : Bool) (s : State) : SamePinsFit (execTwinLitInChange t level s) s := by
  unfold execTwinLitInChange
  dsimp only
  repeat' split
  all_goals simp

@[simp] theorem runTwinClaim_pinsFit (d : Desc) (data : Bytes) (s : State) : PinsFit (runTwinClaim d data s) ↔ PinsFit s := by
  unfold runTwinClaim
  split <;> simp

@[simp] theorem setPair_pinsFit (on : Bool) (ctl : Reg) (s : State) : PinsFit (setPair on ctl s) ↔ PinsFit s := by
  simp [setPair]

@[simp] theorem writeTwinCtl_pinsFit (v : Reg) (s : State) : PinsFit (writeTwinCtl v s) ↔ PinsFit s := by
  simp [writeTwinCtl]

@[simp] theorem twinTake_pinsFit (f : RawFrame) (mine : Bool) (act : Bytes → State → State) (s : State)
    (h : ∀ b u, PinsFit (act b u) ↔ PinsFit u) : PinsFit (twinTake f mine act s) ↔ PinsFit s := by
  unfold twinTake
  split
  · rfl
  · simp [h]

theorem execTwinHeartbeat_samePinsFit (t : Tick) (f : RawFrame) (s : State) : SamePinsFit (execTwinHeartbeat t f s) s := by
  unfold execTwinHeartbeat
  dsimp only
  rw [samePinsFit_next, twinTake_pinsFit _ _ _ _ fun b u => by simp]
  simp

@[simp] theorem publishFor_pinsFit (code id : Nat) (s : State) : PinsFit (publishFor code id s) ↔ PinsFit s := by
  unfold publishFor
  dsimp only
  repeat' split
  all_goals simp

@[simp] theorem reconcile_pinsFit (since : Nat) (s : State) : PinsFit (reconcile since s) ↔ PinsFit s := by
  unfold reconcile
  refine (foldl_pinsFit _ _ _ fun u id => ?_).trans (foldl_pinsFit _ _ _ fun u id => ?_)
  · repeat' split
    all_goals simp
  · repeat' split
    all_goals simp

theorem execTwinGateOpen_samePinsFit (t : Tick) (s : State) : SamePinsFit (execTwinGateOpen t s) s := by
  unfold execTwinGateOpen
  dsimp only
  repeat' split
  all_goals simp

theorem execEffectFrame_samePinsFit (t : Tick) (f : RawFrame) (s : State) : SamePinsFit (execEffectFrame t f s) s := by
  unfold execEffectFrame
  dsimp only
  rw [samePinsFit_next, twinTake_pinsFit]
  · simp
  · intro b u
    repeat' split
    all_goals simp

theorem execHostTimedEffect_samePinsFit (t : Tick) (index : BitVec 32) (s : State) : SamePinsFit (execHostTimedEffect t index s) s := by
  unfold execHostTimedEffect
  dsimp only
  repeat' split
  all_goals simp

/-! ## Registers -/

@[simp] theorem storeReg_pinsFit (m : Master) (r : RegId) (v : Reg) (s : State) : PinsFit (storeReg m r v s) ↔ PinsFit s := by
  unfold storeReg
  split <;> simp

@[simp] theorem regWrite32_pinsFit (m : Master) (off : Nat) (v : Reg) (s : State) : PinsFit (regWrite32 m off v s) ↔ PinsFit s := by
  unfold regWrite32
  repeat' split
  all_goals simp

@[simp] theorem regWrite_pinsFit (m : Master) (off : Nat) (width : AccessWidth) (v : BitVec 64) (s : State) :
    PinsFit (regWrite m off width v s) ↔ PinsFit s := by
  unfold regWrite
  repeat' split
  all_goals simp

@[simp] theorem serve_pinsFit (m : Master) (x : XTarget) (a : Access) (s : State) : PinsFit (serve m x a s) ↔ PinsFit s := by
  unfold serve
  repeat' split
  all_goals simp

@[simp] theorem access_pinsFit (m : Master) (x : XTarget) (a : Access) (s : State) : PinsFit (access m x a s) ↔ PinsFit s := by
  unfold access
  repeat' split
  all_goals simp

@[simp] theorem serveOne_pinsFit (p : XTarget × Master × Access) (s : State) : PinsFit (serveOne p s) ↔ PinsFit s := by
  simp [serveOne]

@[simp] theorem serveWaiting_pinsFit (n k : Nat) (s : State) : PinsFit (serveWaiting n k s) ↔ PinsFit s := by
  induction n generalizing k s with
  | zero => rfl
  | succ n ih =>
    unfold serveWaiting
    repeat' split
    all_goals simp [ih]

@[simp] theorem releaseTarget_pinsFit (m : Master) (s : State) : PinsFit (releaseTarget m s) ↔ PinsFit s := by
  simp [releaseTarget]

@[simp] theorem accessAt_pinsFit (m : Master) (addr : Nat) (a : Access) (s : State) : PinsFit (accessAt m addr a s) ↔ PinsFit s := by
  unfold accessAt
  split <;> simp

theorem execCrossbarLock_samePinsFit (t : Tick) (m : Master) (target : XTarget) (unlock : Bool) (s : State) :
    SamePinsFit (execCrossbarLock t m target unlock s) s := by
  unfold execCrossbarLock
  dsimp only
  repeat' split
  all_goals simp

theorem execCrossbarLockBroken_samePinsFit (t : Tick) (target : XTarget) (s : State) :
    SamePinsFit (execCrossbarLockBroken t target s) s := by
  unfold execCrossbarLockBroken
  dsimp only
  repeat' split
  all_goals simp

@[simp] theorem hostReg_pinsFit (off : Nat) (v : Reg) (s : State) : PinsFit (hostReg off v s) ↔ PinsFit s := by
  simp [hostReg]

/-! ## The command interface -/

/-- An unload that removes its image leaves the pins alone. -/
theorem unloadEntry_pins {α : Type} {l : Tab α} {id : Nat} {named : Bool} {put : Tab α → State} {u : State}
    (h : unloadEntry l id named put = .removed u) {p : Tab Pin} (hput : ∀ l, (put l).glint.pins = p) : u.glint.pins = p := by
  unfold unloadEntry at h
  split at h
  · contradiction
  · split at h
    · contradiction
    · cases h
      exact hput _

theorem unloadImage_pins {kind id : Nat} {s u : State} (h : unloadImage kind id s = .removed u) : u.glint.pins = s.glint.pins := by
  unfold unloadImage at h
  dsimp only at h
  split at h
  case h_4 =>
    repeat' split at h
    case h_1 w hw =>
      cases h
      simp [unloadSched_frame _ _ hw]
    all_goals contradiction
  case h_11 | h_12 | h_13 | h_14 | h_15 =>
    split_ifs at h <;> cases h <;> rfl
  all_goals exact unloadEntry_pins h fun _ => rfl

@[simp] theorem runImageUnload_pinsFit (d : Desc) (data : Bytes) (s : State) : PinsFit (runImageUnload d data s) ↔ PinsFit s := by
  unfold runImageUnload
  dsimp only
  split
  · simp
  · split
    case h_1 => simp
    case h_2 => simp
    case h_3 u hu => simp [unloadImage_pins hu]

@[simp] theorem runImageLoad_pinsFit (d : Desc) (data : Bytes) (s : State) : PinsFit (runImageLoad d data s) ↔ PinsFit s := by
  unfold runImageLoad
  repeat' split
  all_goals simp

@[simp] theorem runTwinRole_pinsFit (d : Desc) (data : Bytes) (s : State) : PinsFit (runTwinRole d data s) ↔ PinsFit s := by
  unfold runTwinRole
  repeat' split
  all_goals simp

@[simp] theorem runCommand_pinsFit (d : Desc) (data : Bytes) (s : State) : PinsFit (runCommand d data s) ↔ PinsFit s := by
  unfold runCommand
  split <;> simp

@[simp] theorem startCommand_pinsFit (h : Held) (s : State) : PinsFit (startCommand h s) ↔ PinsFit s := by
  unfold startCommand
  split <;> simp

@[simp] theorem startHeldN_pinsFit (n : Nat) (s : State) : PinsFit (startHeldN n s) ↔ PinsFit s := by
  induction n generalizing s with
  | zero => rfl
  | succ n ih =>
    unfold startHeldN
    repeat' split
    all_goals simp [ih]

@[simp] theorem startHeld_pinsFit (s : State) : PinsFit (startHeld s) ↔ PinsFit s := by
  simp [startHeld]

@[simp] theorem takeCommand_pinsFit (h : Held) (s : State) : PinsFit (takeCommand h s) ↔ PinsFit s := by
  simp [takeCommand]

theorem execDescriptorFetched_samePinsFit (t : Tick) (bytes data : Bytes) (s : State) :
    SamePinsFit (execDescriptorFetched t bytes data s) s := by
  unfold execDescriptorFetched
  dsimp only
  split <;> simp

theorem execCommandReadFailed_samePinsFit (t : Tick) (bytes : Option Bytes) (cause : DmaCause) (s : State) :
    SamePinsFit (execCommandReadFailed t bytes cause s) s := by
  unfold execCommandReadFailed
  dsimp only
  split <;> simp

theorem execDoorbellPoll_samePinsFit (t : Tick) (block : Bytes) (s : State) : SamePinsFit (execDoorbellPoll t block s) s := by
  unfold execDoorbellPoll
  dsimp only
  split <;> simp

/-! ## Reception -/

@[simp] theorem takeFrame_pinsFit (q : Fin 16) (arrival : Nat) (f : RawFrame) (s : State) :
    PinsFit (takeFrame q arrival f s) ↔ PinsFit s := by
  unfold takeFrame
  dsimp only
  repeat' split
  · exact after_pinsFit_of_glint fun u h => by simp [execIngestFrame_frame _ _ _ _ h]
  · exact after_pinsFit_of_glint fun u h => by simp [execSenseFrame_frame _ _ _ _ h]
  · exact after_pinsFit_of_glint fun u h => by simp [execSenseFrame_frame _ _ _ _ h]
  · exact after_pinsFit_of_glint fun u h => by simp [execLinkStateFrame_frame _ _ _ _ h]
  · exact after_pinsFit_of_glint fun u h => by simp [execPlanDigestFrame_frame _ _ _ _ h]
  · exact after_pinsFit_of_glint fun u h => by simp [execBatchFrame_frame _ _ _ _ h]
  · simp
  · exact after_pinsFit_of_glint fun u h => by simp [execDigestFrame_frame _ _ _ h]
  · exact after_pinsFit_of_glint fun u h => by simp [execArbitrationResult_frame _ _ _ h]
  · exact after_pinsFit (execEffectFrame_samePinsFit _ _ _)
  · exact after_pinsFit_of_glint fun u h => by simp [execArbitrationOpen_frame _ _ _ h]
  · exact after_pinsFit (execTwinHeartbeat_samePinsFit _ _ _)
  · exact after_pinsFit_of_glint fun u h => by simp [execTimeFrame_frame _ _ _ _ _ h]
  · simp

@[simp] theorem endFrame_pinsFit (q : Fin 16) (eof : BitVec 64) (damaged : Bool) (s : State) :
    PinsFit (endFrame q eof damaged s) ↔ PinsFit s := by
  unfold endFrame
  dsimp only
  split <;> simp

@[simp] theorem takeCtl_pinsFit (q : Fin 16) (at_ : Nat) (p : BitVec 64) (s : State) : PinsFit (takeCtl q at_ p s) ↔ PinsFit s := by
  unfold takeCtl
  dsimp only
  repeat' split
  · simp
  · simp
  · simp
  · simp
  · exact after_pinsFit_of_glint fun u h => by simp [execCreditBlock_frame _ _ _ _ h]
  · exact after_pinsFit_of_glint fun u h => by simp [execAckReceived_frame _ _ _ _ h]
  · exact after_pinsFit_of_glint fun u h => by simp [execNakReceived_frame _ _ _ _ h]
  · exact after_pinsFit_of_glint fun u h => by simp [execLateNoticeReceived_frame _ _ _ _ h]
  · exact after_pinsFit_of_glint fun u h => by simp [execSleepReqReceived_frame _ _ _ _ h]
  · exact after_pinsFit_of_glint fun u h => by simp [execSleepAckReceived_frame _ _ _ _ h]
  · exact after_pinsFit_of_glint fun u h => by simp [execSleepNakReceived_frame _ _ _ _ h]
  · exact after_pinsFit_of_glint fun u h => by simp [execCommitReceived_frame _ _ _ _ h]
  · exact after_pinsFit_of_glint fun u h => by simp [execAbortReceived_frame _ _ _ _ h]
  · exact after_pinsFit_of_glint fun u h => by simp [execWakeReceived_frame _ _ _ _ h]
  · rfl

@[simp] theorem takeBlk_pinsFit (q : Fin 16) (at_ : Nat) (b : Blk) (s : State) : PinsFit (takeBlk q at_ b s) ↔ PinsFit s := by
  unfold takeBlk
  dsimp only
  repeat' split
  all_goals simp

@[simp] theorem pullN_pinsFit (n : Nat) (q : Fin 16) (s : State) : PinsFit (pullN n q s) ↔ PinsFit s := by
  induction n generalizing s with
  | zero => rfl
  | succ n ih =>
    unfold pullN
    dsimp only
    split
    · rfl
    · split <;> simp [ih]

@[simp] theorem pull_pinsFit (q : Fin 16) (s : State) : PinsFit (pull q s) ↔ PinsFit s := by
  simp [pull]

/-! ## Captures end, and resets (R197, R464) -/

/-- Whatever an outcome answers has at most 16 open pins, where `s` has. -/
def KeepsPinsFit (o : Host.Outcome State Fault Refusal) (s : State) : Prop := ∀ u, o = .next u → PinsFit s → PinsFit u

@[simp] theorem keepsPinsFit_next (u s : State) : KeepsPinsFit (.next u) s ↔ (PinsFit s → PinsFit u) := by
  simp [KeepsPinsFit]

theorem SamePinsFit.keeps {o : Host.Outcome State Fault Refusal} {s : State} (h : SamePinsFit o s) : KeepsPinsFit o s :=
  fun u hu => (h u hu).2

theorem keepsPinsFit_of_glint {o : Host.Outcome State Fault Refusal} {s : State} (h : ∀ u, o = .next u → u.glint = s.glint) :
    KeepsPinsFit o s := (samePinsFit_of_glint h).keeps

theorem execCaptureCopy_keepsPinsFit (t : Tick) (pin : Nat) (ecc : List Ecc) (s : State) :
    KeepsPinsFit (execCaptureCopy t pin ecc s) s := by
  unfold execCaptureCopy
  dsimp only
  split
  · simp
  · split
    · simp
    case isFalse x _ _ =>
      rw [keepsPinsFit_next]
      intro hs
      have hland : PinsFit (captureLand x (afterCheck (s.advance t))) := by simpa using hs
      have hdel := Tab.length_del_le (captureLand x (afterCheck (s.advance t))).glint.pins pin
      simpa using hdel.trans hland

theorem pinsFit_of_reset {s : State} (h : s.glint = GlintState.reset) : PinsFit s := by
  rw [PinsFit, h]
  decide

theorem sysReset_glint (s : State) : (sysReset s).glint = GlintState.reset := by
  have hpor : (porReset s).glint = GlintState.reset := rfl
  unfold sysReset
  dsimp only
  repeat' split
  all_goals simp [hpor]

theorem execResetAssert_keepsPinsFit (t : Tick) (pin : ResetPin) (s : State) : KeepsPinsFit (execResetAssert t pin s) s := by
  cases pin with
  | porst => exact (keepsPinsFit_next _ _).2 fun _ => pinsFit_of_reset rfl
  | sysrst =>
    unfold execResetAssert
    dsimp only
    split
    · simp
    · exact (keepsPinsFit_next _ _).2 fun _ => pinsFit_of_reset (sysReset_glint _)

theorem execPorstRelease_keepsPinsFit (t : Tick) (mode : BitVec 2) (s : State) : KeepsPinsFit (execPorstRelease t mode s) s := by
  unfold execPorstRelease
  dsimp only
  exact (keepsPinsFit_next _ _).2 fun _ => pinsFit_of_reset (foldl_glint _ _ _ fun u o => by simp)

theorem execSysrstRelease_keepsPinsFit (t : Tick) (mode : BitVec 2) (s : State) : KeepsPinsFit (execSysrstRelease t mode s) s := by
  unfold execSysrstRelease
  dsimp only
  split
  · simp
  · exact (keepsPinsFit_next _ _).2 fun _ => pinsFit_of_reset (sysReset_glint _)

/-! ## Every step -/

theorem keepsPinsFit_hostReg (off : Nat) (v : Reg) (t : Tick) (s : State) : KeepsPinsFit (.next (hostReg off v (s.advance t))) s :=
  (samePinsFit_run (hostReg_pinsFit off v) t s).keeps

theorem keepsPinsFit_pull (q : Fin 16) (lane : Nat) (bits : List Bool) (t : Tick) (s : State) :
    KeepsPinsFit (.next (pull q (blockBits lane bits (s.advance t)))) s := by
  simp

/-- Command by command: most leave the glint path alone, a capture's copy closes its pin, and a reset closes all. -/
theorem exec_keepsPinsFit (i : Instr) (s : State) : KeepsPinsFit (exec i s) s := by
  cases i with
  | nop t d data => exact keepsPinsFit_of_glint fun u h => by simp [execNop_frame t d data s h]
  | counterReadOut t d data => exact keepsPinsFit_of_glint fun u h => by simp [execCounterReadOut_frame t d data s h]
  | presetReadOut t d data => exact keepsPinsFit_of_glint fun u h => by simp [execPresetReadOut_frame t d data s h]
  | clearUntrusted t d data => exact keepsPinsFit_of_glint fun u h => by simp [execClearUntrusted_frame t d data s h]
  | elementTableChange t d data => exact (samePinsFit_run (runElementTableChange_pinsFit d data) t s).keeps
  | groupDescriptor t d data => exact (samePinsFit_run (runGroupDescriptor_pinsFit d data) t s).keeps
  | groupStart t d data => exact (samePinsFit_run (runGroupStart_pinsFit d data) t s).keeps
  | groupStop t d data => exact (samePinsFit_run (runGroupStop_pinsFit d data) t s).keeps
  | prototypeLoad t d data => exact keepsPinsFit_of_glint fun u h => by simp [execPrototypeLoad_frame t d data s h]
  | gainTableLoad t d data => exact keepsPinsFit_of_glint fun u h => by simp [execGainTableLoad_frame t d data s h]
  | planLoad t d data => exact keepsPinsFit_of_glint fun u h => by simp [execPlanLoad_frame t d data s h]
  | scheduleLoad t d data => exact keepsPinsFit_of_glint fun u h => by simp [execScheduleLoad_frame t d data s h]
  | beamSetLoad t d data => exact keepsPinsFit_of_glint fun u h => by simp [execBeamSetLoad_frame t d data s h]
  | taperTableLoad t d data => exact keepsPinsFit_of_glint fun u h => by simp [execTaperTableLoad_frame t d data s h]
  | weightTableLoad t d data => exact keepsPinsFit_of_glint fun u h => by simp [execWeightTableLoad_frame t d data s h]
  | glintBeamSetLoad t d data => exact (samePinsFit_run (runGlintBeamSetLoad_pinsFit d data) t s).keeps
  | waveformTableLoad t d data => exact keepsPinsFit_of_glint fun u h => by simp [execWaveformTableLoad_frame t d data s h]
  | transmitProgramLoad t d data => exact keepsPinsFit_of_glint fun u h => by simp [execTransmitProgramLoad_frame t d data s h]
  | driveMapLoad t d data => exact keepsPinsFit_of_glint fun u h => by simp [execDriveMapLoad_frame t d data s h]
  | driveGroupLoad t d data => exact keepsPinsFit_of_glint fun u h => by simp [execDriveGroupLoad_frame t d data s h]
  | routingSetLoad t d data => exact keepsPinsFit_of_glint fun u h => by simp [execRoutingSetLoad_frame t d data s h]
  | sceneLoad t d data => exact keepsPinsFit_of_glint fun u h => by simp [execSceneLoad_frame t d data s h]
  | lightboxTableLoad t d data => exact keepsPinsFit_of_glint fun u h => by simp [execLightboxTableLoad_frame t d data s h]
  | imageUnload t d data => exact (samePinsFit_run (runImageUnload_pinsFit d data) t s).keeps
  | productBinding t d data => exact keepsPinsFit_of_glint fun u h => by simp [execProductBinding_frame t d data s h]
  | shed t d data => exact keepsPinsFit_of_glint fun u h => by simp [execShed_frame t d data s h]
  | restore t d data => exact keepsPinsFit_of_glint fun u h => by simp [execRestore_frame t d data s h]
  | beamSetSwitch t d data => exact keepsPinsFit_of_glint fun u h => by simp [execBeamSetSwitch_frame t d data s h]
  | glintConfigure t d data => exact (samePinsFit_run (runGlintConfigure_pinsFit d data) t s).keeps
  | glintDetector t d data => exact (samePinsFit_run (runGlintDetector_pinsFit d data) t s).keeps
  | glintArm t d data => exact (samePinsFit_run (runGlintArm_pinsFit d data) t s).keeps
  | glintSetSwitch t d data => exact (samePinsFit_run (runGlintSetSwitch_pinsFit d data) t s).keeps
  | glintPinClear t d data => exact (samePinsFit_run (runGlintPinClear_pinsFit d data) t s).keeps
  | driveGroupStart t d data => exact keepsPinsFit_of_glint fun u h => by simp [execDriveGroupStart_frame t d data s h]
  | transmitStart t d data => exact keepsPinsFit_of_glint fun u h => by simp [execTransmitStart_frame t d data s h]
  | transmitStop t d data => exact (samePinsFit_run (runTransmitStop_pinsFit d data) t s).keeps
  | echoCalibration t d data => exact keepsPinsFit_of_glint fun u h => by simp [execEchoCalibration_frame t d data s h]
  | loadWatchClear t d data => exact keepsPinsFit_of_glint fun u h => by simp [execLoadWatchClear_frame t d data s h]
  | audioConfigure t d data => exact keepsPinsFit_of_glint fun u h => by simp [execAudioConfigure_frame t d data s h]
  | routingSwap t d data => exact keepsPinsFit_of_glint fun u h => by simp [execRoutingSwap_frame t d data s h]
  | surfaceWrite t d data => exact keepsPinsFit_of_glint fun u h => by simp [execSurfaceWrite_frame t d data s h]
  | monitorSnapshot t d data => exact keepsPinsFit_of_glint fun u h => by simp [execMonitorSnapshot_frame t d data s h]
  | engineFence t d data => exact keepsPinsFit_of_glint fun u h => by simp [execEngineFence_frame t d data s h]
  | twinHandover t d data => exact keepsPinsFit_of_glint fun u h => by simp [execTwinHandover_frame t d data s h]
  | twinClaim t d data => exact (samePinsFit_run (runTwinClaim_pinsFit d data) t s).keeps
  | twinMap t d data => exact keepsPinsFit_of_glint fun u h => by simp [execTwinMap_frame t d data s h]
  | doorbellPoll t block => exact (execDoorbellPoll_samePinsFit t block s).keeps
  | descriptorFetched t bytes data => exact (execDescriptorFetched_samePinsFit t bytes data s).keeps
  | commandReadFailed t bytes cause => exact (execCommandReadFailed_samePinsFit t bytes cause s).keeps
  | deferredCompletion t index => exact keepsPinsFit_of_glint fun u h => by simp [execDeferredCompletion_frame t index s h]
  | writeJobReadback t job result => exact keepsPinsFit_of_glint fun u h => by simp [execWriteJobReadback_frame t job result s h]
  | statusBlockRefresh t => exact keepsPinsFit_of_glint fun u h => by simp [execStatusBlockRefresh_frame t s h]
  | eventQueueDrain t => exact keepsPinsFit_of_glint fun u h => by simp [execEventQueueDrain_frame t s h]
  | outletTakeRecord t o ecc => exact keepsPinsFit_of_glint fun u h => by simp [execOutletTakeRecord_frame t o ecc s h]
  | trailerWrite t o => exact keepsPinsFit_of_glint fun u h => by simp [execTrailerWrite_frame t o s h]
  | sourceRingRead t ring bytes => exact keepsPinsFit_of_glint fun u h => by simp [execSourceRingRead_frame t ring bytes s h]
  | msixTimerExpiry t v => exact keepsPinsFit_of_glint fun u h => by simp [execMsixTimerExpiry_frame t v s h]
  | hostLinkLoss t cause => exact keepsPinsFit_of_glint fun u h => by simp [execHostLinkLoss_frame t cause s h]
  | pcieLinkTrained t gen link => exact keepsPinsFit_of_glint fun u h => by simp [execPcieLinkTrained_frame t gen link s h]
  | hostifEnable t value => exact keepsPinsFit_hostReg _ value t s
  | hostBootGo t value => exact keepsPinsFit_hostReg _ value t s
  | timeSetArm t value => exact keepsPinsFit_hostReg _ value t s
  | refSuspectClear t n value => exact keepsPinsFit_hostReg _ value t s
  | sclkCfgWrite t k value => exact keepsPinsFit_hostReg _ value t s
  | laneRestart t lane value => exact keepsPinsFit_hostReg _ value t s
  | errInj t lane value => exact keepsPinsFit_hostReg _ value t s
  | laneCntClr t lane value => exact keepsPinsFit_hostReg _ value t s
  | linkClr t q value => exact keepsPinsFit_hostReg _ value t s
  | quadEnable t q value => exact keepsPinsFit_hostReg _ value t s
  | quadDisable t q value => exact keepsPinsFit_hostReg _ value t s
  | hbmApply t value => exact keepsPinsFit_hostReg _ value t s
  | hbmCntClr t value => exact keepsPinsFit_hostReg _ value t s
  | gdlySelWrite t value => exact keepsPinsFit_hostReg _ value t s
  | windowStart t n value => exact keepsPinsFit_hostReg _ value t s
  | windowStop t n value => exact keepsPinsFit_hostReg _ value t s
  | twinCtlWrite t value => exact keepsPinsFit_hostReg _ value t s
  | dbgLock t value => exact keepsPinsFit_hostReg _ value t s
  | dbgFuse t value => exact keepsPinsFit_hostReg _ value t s
  | svnCommit t value => exact keepsPinsFit_hostReg _ value t s
  | revoke t value => exact keepsPinsFit_hostReg _ value t s
  | latchedLoRead t pair => exact (samePinsFit_run (access_pinsFit _ _ _) t s).keeps
  | badRegisterRead t at_ width => exact (samePinsFit_run (accessAt_pinsFit at_.master at_.addr.toNat (.read 0 width)) t s).keeps
  | registerWrite t m addr width value => exact (samePinsFit_run (accessAt_pinsFit m addr.toNat (.write 0 width value)) t s).keeps
  | crossbarLock t m target unlock => exact (execCrossbarLock_samePinsFit t m target unlock s).keeps
  | crossbarLockBroken t target => exact (execCrossbarLockBroken_samePinsFit t target s).keeps
  | porstRelease t bootMode => exact execPorstRelease_keepsPinsFit t bootMode s
  | sysrstRelease t bootMode => exact execSysrstRelease_keepsPinsFit t bootMode s
  | bootSelfCheckDone t => exact keepsPinsFit_of_glint fun u h => by simp [execBootSelfCheckDone_frame t s h]
  | firmwareImageRead t image => exact keepsPinsFit_of_glint fun u h => by simp [execFirmwareImageRead_frame t image s h]
  | hbmTrainingDone t trained => exact keepsPinsFit_of_glint fun u h => by simp [execHbmTrainingDone_frame t trained s h]
  | firmwareReady t failed => exact keepsPinsFit_of_glint fun u h => by simp [execFirmwareReady_frame t failed s h]
  | thermalSample t temps => exact keepsPinsFit_of_glint fun u h => by simp [execThermalSample_frame t temps s h]
  | thermalCeilingStep t => exact keepsPinsFit_of_glint fun u h => by simp [execThermalCeilingStep_frame t s h]
  | powerCapCheck t deviceMw domainMw => exact keepsPinsFit_of_glint fun u h => by simp [execPowerCapCheck_frame t deviceMw domainMw s h]
  | stewardHeartbeatMiss t st => exact keepsPinsFit_of_glint fun u h => by simp [execStewardHeartbeatMiss_frame t st s h]
  | slackWindowEval t d => exact keepsPinsFit_of_glint fun u h => by simp [execSlackWindowEval_frame t d s h]
  | voltageSettled t d => exact keepsPinsFit_of_glint fun u h => by simp [execVoltageSettled_frame t d s h]
  | ceilingLoweringStep t d => exact keepsPinsFit_of_glint fun u h => by simp [execCeilingLoweringStep_frame t d s h]
  | blockRelease t e => exact (execBlockRelease_samePinsFit t e s).keeps
  | afterimageWriteTimeout t e block => exact (execAfterimageWriteTimeout_samePinsFit t e block s).keeps
  | conditioningSlice t engine glintAccepts => exact (execConditioningSlice_samePinsFit t engine glintAccepts s).keeps
  | channeliserFrame t e => exact keepsPinsFit_of_glint fun u h => by simp [execChanneliserFrame_frame t e s h]
  | sourceStatsRecord t plan => exact keepsPinsFit_of_glint fun u h => by simp [execSourceStatsRecord_frame t plan s h]
  | cornerTurnSend t plan pchan dest room =>
    exact keepsPinsFit_of_glint fun u h => by simp [execCornerTurnSend_frame t plan pchan dest room s h]
  | strokeRelease t plan pchan => exact keepsPinsFit_of_glint fun u h => by simp [execStrokeRelease_frame t plan pchan s h]
  | engineSlotStart t engine ecc => exact keepsPinsFit_of_glint fun u h => by simp [execEngineSlotStart_frame t engine ecc s h]
  | engineHandoff t engine carried => exact keepsPinsFit_of_glint fun u h => by simp [execEngineHandoff_frame t engine carried s h]
  | inkwellUpdate t engine ecc => exact keepsPinsFit_of_glint fun u h => by simp [execInkwellUpdate_frame t engine ecc s h]
  | spillGrant t => exact keepsPinsFit_of_glint fun u h => by simp [execSpillGrant_frame t s h]
  | slotUnserved t engine => exact keepsPinsFit_of_glint fun u h => by simp [execSlotUnserved_frame t engine s h]
  | segmentReadoutDone t pool firstJob bank ecc =>
    exact keepsPinsFit_of_glint fun u h => by simp [execSegmentReadoutDone_frame t pool firstJob bank ecc s h]
  | dumpRecord t => exact keepsPinsFit_of_glint fun u h => by simp [execDumpRecord_frame t s h]
  | engineStallTimeout t engine => exact keepsPinsFit_of_glint fun u h => by simp [execEngineStallTimeout_frame t engine s h]
  | fenceCheckDone t engine reloaded passed =>
    exact keepsPinsFit_of_glint fun u h => by simp [execFenceCheckDone_frame t engine reloaded passed s h]
  | beamOutput t pool k block => exact keepsPinsFit_of_glint fun u h => by simp [execBeamOutput_frame t pool k block s h]
  | beamRecord t pool => exact keepsPinsFit_of_glint fun u h => by simp [execBeamRecord_frame t pool s h]
  | ingestFrame t q f => exact keepsPinsFit_of_glint fun u h => by simp [execIngestFrame_frame t q f s h]
  | senseFrame t q f => exact keepsPinsFit_of_glint fun u h => by simp [execSenseFrame_frame t q f s h]
  | loadWatchEval t e => exact keepsPinsFit_of_glint fun u h => by simp [execLoadWatchEval_frame t e s h]
  | driveFrameSend t q group stream chan0 nch nsamp ecc =>
    exact keepsPinsFit_of_glint fun u h => by simp [execDriveFrameSend_frame t q group stream chan0 nch nsamp ecc s h]
  | transmitStartDue t => exact (execTransmitStartDue_samePinsFit t s).keeps
  | heldStartReady t start => exact (execHeldStartReady_samePinsFit t start s).keeps
  | programEnd t start => exact (execProgramEnd_samePinsFit t start s).keeps
  | echoRepeat t => exact keepsPinsFit_of_glint fun u h => by simp [execEchoRepeat_frame t s h]
  | echoRecord t => exact (execEchoRecord_samePinsFit t s).keeps
  | glintOutputDue t e => exact (execGlintOutputDue_samePinsFit t e s).keeps
  | glintBeamSample t => exact (execGlintBeamSample_samePinsFit t s).keeps
  | publishHoldExpiry t det => exact (execPublishHoldExpiry_samePinsFit t det s).keeps
  | voidTimeout t det => exact (execVoidTimeout_samePinsFit t det s).keeps
  | captureCopy t pin ecc => exact execCaptureCopy_keepsPinsFit t pin ecc s
  | markerHoldExpiry t layer m => exact keepsPinsFit_of_glint fun u h => by simp [execMarkerHoldExpiry_frame t layer m s h]
  | blankEnd t entry => exact (execBlankEnd_samePinsFit t entry s).keeps
  | audioIndex t => exact keepsPinsFit_of_glint fun u h => by simp [execAudioIndex_frame t s h]
  | lightboxFrameBoundary t ecc => exact keepsPinsFit_of_glint fun u h => by simp [execLightboxFrameBoundary_frame t ecc s h]
  | lightboxWaitExpiry t ecc => exact keepsPinsFit_of_glint fun u h => by simp [execLightboxWaitExpiry_frame t ecc s h]
  | ppsEdge t r => exact keepsPinsFit_of_glint fun u h => by simp [execPpsEdge_frame t r s h]
  | timeFrame t q arrival f => exact keepsPinsFit_of_glint fun u h => by simp [execTimeFrame_frame t q arrival f s h]
  | timeFrameSend t q => exact keepsPinsFit_of_glint fun u h => by simp [execTimeFrameSend_frame t q s h]
  | refInactive t r cause => exact keepsPinsFit_of_glint fun u h => by simp [execRefInactive_frame t r cause s h]
  | ppsMissing t r => exact keepsPinsFit_of_glint fun u h => by simp [execPpsMissing_frame t r s h]
  | refQualifyEval t r offset => exact keepsPinsFit_of_glint fun u h => by simp [execRefQualifyEval_frame t r offset s h]
  | driftGuard t offsets => exact keepsPinsFit_of_glint fun u h => by simp [execDriftGuard_frame t offsets s h]
  | lockAchieved c => exact keepsPinsFit_of_glint fun u h => by simp [execLockAchieved_frame c s h]
  | historyEntry sec frac => exact keepsPinsFit_of_glint fun u h => by simp [execHistoryEntry_frame sec frac s h]
  | walkStep t => exact keepsPinsFit_of_glint fun u h => by simp [execWalkStep_frame t s h]
  | synthLockLost t out => exact keepsPinsFit_of_glint fun u h => by simp [execSynthLockLost_frame t out s h]
  | gateOpen t out => exact keepsPinsFit_of_glint fun u h => by simp [execGateOpen_frame t out s h]
  | ppsoutPulse t => exact keepsPinsFit_of_glint fun u h => by simp [execPpsoutPulse_frame t s h]
  | blockLockAcquired t lane bits => exact keepsPinsFit_pull _ _ bits t s
  | blockLockLost t lane bits => exact keepsPinsFit_pull _ _ bits t s
  | alignmentMarker t q markers => exact keepsPinsFit_of_glint fun u h => by simp [execAlignmentMarker_frame t q markers s h]
  | laneRetrain t lane => exact keepsPinsFit_of_glint fun u h => by simp [execLaneRetrain_frame t lane s h]
  | adaptationDone t lane => exact keepsPinsFit_of_glint fun u h => by simp [execAdaptationDone_frame t lane s h]
  | prbsLockAcquired t b => exact keepsPinsFit_of_glint fun u h => by simp [execPrbsLockAcquired_frame t b s h]
  | prbsLockLost t lane bits => exact keepsPinsFit_of_glint fun u h => by simp [execPrbsLockLost_frame t lane bits s h]
  | batchFrame t q f => exact keepsPinsFit_of_glint fun u h => by simp [execBatchFrame_frame t q f s h]
  | planDigestFrame t q f => exact keepsPinsFit_of_glint fun u h => by simp [execPlanDigestFrame_frame t q f s h]
  | linkStateFrame t q f => exact keepsPinsFit_of_glint fun u h => by simp [execLinkStateFrame_frame t q f s h]
  | linkStateOriginate t => exact keepsPinsFit_of_glint fun u h => by simp [execLinkStateOriginate_frame t s h]
  | forwardTimeout t frame => exact keepsPinsFit_of_glint fun u h => by simp [execForwardTimeout_frame t frame s h]
  | creditBlock t q block => exact keepsPinsFit_of_glint fun u h => by simp [execCreditBlock_frame t q block s h]
  | creditGrantSend t q vc => exact keepsPinsFit_of_glint fun u h => by simp [execCreditGrantSend_frame t q vc s h]
  | ackReceived t q block => exact keepsPinsFit_of_glint fun u h => by simp [execAckReceived_frame t q block s h]
  | nakReceived t q block => exact keepsPinsFit_of_glint fun u h => by simp [execNakReceived_frame t q block s h]
  | retryTimeout t q => exact keepsPinsFit_of_glint fun u h => by simp [execRetryTimeout_frame t q s h]
  | lateNoticeReceived t q block => exact keepsPinsFit_of_glint fun u h => by simp [execLateNoticeReceived_frame t q block s h]
  | sleepRequest t q => exact keepsPinsFit_of_glint fun u h => by simp [execSleepRequest_frame t q s h]
  | sleepReqReceived t q block => exact keepsPinsFit_of_glint fun u h => by simp [execSleepReqReceived_frame t q block s h]
  | sleepAckReceived t q block => exact keepsPinsFit_of_glint fun u h => by simp [execSleepAckReceived_frame t q block s h]
  | sleepNakReceived t q block => exact keepsPinsFit_of_glint fun u h => by simp [execSleepNakReceived_frame t q block s h]
  | sleepReqTimeout t q => exact keepsPinsFit_of_glint fun u h => by simp [execSleepReqTimeout_frame t q s h]
  | commitReceived t q block => exact keepsPinsFit_of_glint fun u h => by simp [execCommitReceived_frame t q block s h]
  | abortReceived t q block => exact keepsPinsFit_of_glint fun u h => by simp [execAbortReceived_frame t q block s h]
  | signalLostAfterAck t q => exact keepsPinsFit_of_glint fun u h => by simp [execSignalLostAfterAck_frame t q s h]
  | sleepAfterExpiry t q transmit => exact keepsPinsFit_of_glint fun u h => by simp [execSleepAfterExpiry_frame t q transmit s h]
  | wakeReceived t q block => exact keepsPinsFit_of_glint fun u h => by simp [execWakeReceived_frame t q block s h]
  | txWake t q => exact keepsPinsFit_of_glint fun u h => by simp [execTxWake_frame t q s h]
  | signalDetect t q => exact keepsPinsFit_of_glint fun u h => by simp [execSignalDetect_frame t q s h]
  | hbmRefresh t pc => exact keepsPinsFit_of_glint fun u h => by simp [execHbmRefresh_frame t pc s h]
  | hbmTempRead t stack reading => exact keepsPinsFit_of_glint fun u h => by simp [execHbmTempRead_frame t stack reading s h]
  | hbmAlert t channel recurs => exact keepsPinsFit_of_glint fun u h => by simp [execHbmAlert_frame t channel recurs s h]
  | scrubStep t word ecc => exact keepsPinsFit_of_glint fun u h => by simp [execScrubStep_frame t word ecc s h]
  | pairHalfArrival t half => exact keepsPinsFit_of_glint fun u h => by simp [execPairHalfArrival_frame t half s h]
  | pairTimeout t tag => exact keepsPinsFit_of_glint fun u h => by simp [execPairTimeout_frame t tag s h]
  | pairQuery t tag => exact keepsPinsFit_of_glint fun u h => by simp [execPairQuery_frame t tag s h]
  | monitorWindowEnd t n => exact keepsPinsFit_of_glint fun u h => by simp [execMonitorWindowEnd_frame t n s h]
  | twinHeartbeatSend t => exact keepsPinsFit_of_glint fun u h => by simp [execTwinHeartbeatSend_frame t s h]
  | twinHeartbeat t f => exact (execTwinHeartbeat_samePinsFit t f s).keeps
  | partnerLost t => exact keepsPinsFit_of_glint fun u h => by simp [execPartnerLost_frame t s h]
  | timeSkew t => exact keepsPinsFit_of_glint fun u h => by simp [execTimeSkew_frame t s h]
  | inStep t => exact keepsPinsFit_of_glint fun u h => by simp [execInStep_frame t s h]
  | litTimerExpiry t => exact keepsPinsFit_of_glint fun u h => by simp [execLitTimerExpiry_frame t s h]
  | twinLitInChange t level => exact (execTwinLitInChange_samePinsFit t level s).keeps
  | twinClaimTimer t => exact (execTwinClaimTimer_samePinsFit t s).keeps
  | twinGateOpen t => exact (execTwinGateOpen_samePinsFit t s).keeps
  | pinMismatch t => exact keepsPinsFit_of_glint fun u h => by simp [execPinMismatch_frame t s h]
  | digestSend t => exact keepsPinsFit_of_glint fun u h => by simp [execDigestSend_frame t s h]
  | digestFrame t f => exact keepsPinsFit_of_glint fun u h => by simp [execDigestFrame_frame t f s h]
  | mirrorCheckLate t cls subject => exact keepsPinsFit_of_glint fun u h => by simp [execMirrorCheckLate_frame t cls subject s h]
  | arbitrationOpen t f => exact keepsPinsFit_of_glint fun u h => by simp [execArbitrationOpen_frame t f s h]
  | recomputationDone t => exact keepsPinsFit_of_glint fun u h => by simp [execRecomputationDone_frame t s h]
  | arbitrationResult t f => exact keepsPinsFit_of_glint fun u h => by simp [execArbitrationResult_frame t f s h]
  | arbitrationTimeout t => exact keepsPinsFit_of_glint fun u h => by simp [execArbitrationTimeout_frame t s h]
  | effectFrame t f => exact (execEffectFrame_samePinsFit t f s).keeps
  | hostTimedEffect t index => exact (execHostTimedEffect_samePinsFit t index s).keeps
  | engineBufferError t engine => exact keepsPinsFit_of_glint fun u h => by simp [execEngineBufferError_frame t engine s h]
  | resetAssert t pin => exact execResetAssert_keepsPinsFit t pin s
  | supplyRangeChange t rail inRange => exact keepsPinsFit_of_glint fun u h => by simp [execSupplyRangeChange_frame t rail inRange s h]

theorem step_pinsFit {s t : State} (h : step s = .next t) (hs : PinsFit s) : PinsFit t := by
  unfold step at h
  split at h
  · cases h
    exact hs
  · exact exec_keepsPinsFit _ _ t h hs

/-- Settles O60: no step opens a pin but by `takePin`, which opens none while 16 are open. -/
theorem atMostSixteenPinsAreOpen : Obligations.AtMostSixteenPinsAreOpen :=
  ⟨fun _ _ hs h => step_pinsFit h hs, fun det e provisional _ h => takePin_of_full h det e provisional⟩

end Sys2Proof.Machine

/-!
The commands of chapter 07 (R168, R171, R174, R177, R188, R194): what each does once its checks are known; from these O54.
-/
namespace Sys2Proof.Machine

/-! ## Set-up, beam sets and detector parameters (R168, R171, R177) -/

/-- A set-up block restarts every detector, without an event and with sequence 0 (R168). -/
theorem detOf_glintInstall {k : Nat} (hk : k < 512) (c : GlintCfg) (s : State) :
    detOf (glintInstall c s) k = { detOf s k with seq := 0, ev := none } := by
  simp [detOf, glintInstall, vget, hk]

section
variable {d : Desc} {data : Bytes} {u : State} {c : Nat × Nat}

theorem runGlintConfigure_of_passed (h : glintConfigureChk d data u = none) : runGlintConfigure d data u =
    accept d (drivePins (cfgPut 21 0 (dataOf d data) (glintInstall (parseGlint (dataOf d data)) (closeAll u)))) := by
  simp only [runGlintConfigure, h]

theorem runGlintConfigure_of_failed (h : glintConfigureChk d data u = some c) : runGlintConfigure d data u = refuse d c u := by
  simp only [runGlintConfigure, h]

theorem runGlintBeamSetLoad_of_passed {b : Bytes} (hb : dataOf d data = b) (h : glintBeamSetLoadChk d data u = none) :
    runGlintBeamSetLoad d data u = accept d (cfgPut 7 (fieldU b 0 1) b { u with
      glint.sets := Tab.put u.glint.sets (fieldU b 0 1) ((List.range (fieldU b 2 2)).map (fun i => parseGlintBeam b (16 + 32 * i))) }) := by
  simp only [runGlintBeamSetLoad, h, hb]

theorem runGlintBeamSetLoad_of_failed (h : glintBeamSetLoadChk d data u = some c) : runGlintBeamSetLoad d data u = refuse d c u := by
  simp only [runGlintBeamSetLoad, h]

/-- Detector parameters join those that wait, in the order of their sample indices and in place of any at the same index (R177). -/
theorem runGlintDetector_of_passed (h : glintDetectorChk d data u = none) :
    runGlintDetector d data u = complete d stOk 0 (setBeam (par d 32 2) { beamRunOf u (par d 32 2) with
      pend := insertBy (·.1) (par d 40 8, parseDet (dataOf d data)) ((beamRunOf u (par d 32 2)).pend.filter
        (fun q => q.1 ≠ par d 40 8)) } u) := by
  simp only [runGlintDetector, h]

theorem runGlintDetector_of_failed (h : glintDetectorChk d data u = some c) : runGlintDetector d data u = refuse d c u := by
  simp only [runGlintDetector, h]

end

/-! ## Responses and set switches (R174, R194) -/

section
variable {d : Desc} {u : State} (data : Bytes)

theorem runGlintArm_of_passed {b : Bytes} (hb : dataOf d data = b) (hd : descChk d [(32, 1)] = none) (hn : par d 32 1 ≤ 64)
    (hlen : d.len.toNat = 32 * par d 32 1) (hresp : firstFail ((List.range (par d 32 1)).map (fun i => respChk u b (32 * i))) = none) :
    runGlintArm d data u = accept d (drivePins (cfgPut 23 0 b { u with
      glint.resp := (List.range (par d 32 1)).map (fun i => parseResp b (32 * i)) })) := by
  have hchk : firstFail [descChk d [(32, 1)], need (decide (par d 32 1 ≤ 64)) stRange 32, sizeChk d (32 * par d 32 1),
      firstFail ((List.range (par d 32 1)).map (fun i => respChk u b (32 * i)))] = none := by
    rw [hd, hresp]
    simp [firstFail, need, sizeChk, hn, hlen]
  simp only [runGlintArm, hb, hchk]

section
variable (hd : descChk d [(32, 1), (40, 8)] = none)
include hd

theorem runGlintSetSwitch_of_ahead (hset : Tab.has u.glint.sets (par d 32 1) = true) (hm : u.glint.m ≤ par d 40 8) :
    runGlintSetSwitch d data u = complete d stOk 0 { u with glint.switch := some (par d 32 1, par d 40 8) } := by
  simp [runGlintSetSwitch, firstFail, need, hd, hset, hm]

theorem runGlintSetSwitch_of_unloaded (hset : Tab.has u.glint.sets (par d 32 1) = false) :
    runGlintSetSwitch d data u = refuse d (stNotFound, par d 32 1) u := by
  simp [runGlintSetSwitch, firstFail, need, hd, hset]

theorem runGlintSetSwitch_of_late (hset : Tab.has u.glint.sets (par d 32 1) = true) (hm : par d 40 8 < u.glint.m) :
    runGlintSetSwitch d data u = refuse d (stLate, 0) u := by
  simp [runGlintSetSwitch, firstFail, need, hd, hset, not_le.2 hm]

end

/-! ## Pin clear (R188, R442) -/

/-- What a pin clear does once its effect point is known: in a pair it waits for it, standalone it lowers the pins. -/
def pinClearAt (d : Desc) (data : Bytes) (T : Nat) (s : State) : State :=
  if s.twinEn then { s with twin.timed := s.twin.timed ++ [⟨d, data, some T⟩] } else clearPins (par d 32 1) s

theorem clearPins_of_idle {mask : Nat} (h : pinsBusy u mask = false) :
    clearPins mask u = drivePins { u with glint.latch := u.glint.latch &&& ~~~ (BitVec.ofNat 4 mask) } := by
  simp [clearPins, h]

theorem acceptTimed_of_standalone (d : Desc) {s : State} (h : s.twinEn = false) : acceptTimed d s = accept d s := by
  simp [acceptTimed, h]

section
variable (hd : descChk d [(32, 1)] = none) (hmask : par d 32 1 < 16)
include hd hmask

theorem runGlintPinClear_of_idle (hidle : pinsBusy u (par d 32 1) = false) :
    runGlintPinClear d data u = actAtT (pinClearAt d data) d data u := by
  have hchk : firstFail [descChk d [(32, 1)], need (decide (par d 32 1 < 16)) stReserved 32,
      need (!pinsBusy u (par d 32 1)) stBusy 0] = none := by
    simp [firstFail, need, hd, hmask, hidle]
  unfold runGlintPinClear
  simp only [hchk]
  match hT : takeT d data u with
  | (none, v) => rw [actAtT_of_waiting _ hT]
  | (some T, v) =>
    rw [actAtT_of_known _ hT, pinClearAt]
    exact (apply_ite (acceptTimed d) _ _ _).symm

theorem runGlintPinClear_of_busy (hbusy : pinsBusy u (par d 32 1) = true) : runGlintPinClear d data u = refuse d (stBusy, 0) u := by
  simp [runGlintPinClear, firstFail, need, hd, hmask, hbusy]

theorem runGlintPinClear_of_standalone (hidle : pinsBusy u (par d 32 1) = false) (halone : u.twinEn = false) :
    runGlintPinClear d data u = accept d (drivePins { u with glint.latch := u.glint.latch &&& ~~~ (BitVec.ofNat 4 (par d 32 1)) }) := by
  have hact : pinClearAt d data u.tw u = clearPins (par d 32 1) u := by simp [pinClearAt, halone]
  rw [runGlintPinClear_of_idle data hd hmask hidle, actAtT_of_known _ (takeT_of_standalone d data halone), hact, clearPins_of_idle hidle]
  exact acceptTimed_of_standalone d ((twinEn_of_twin (by simp)).trans halone)

theorem runGlintPinClear_of_known (hidle : pinsBusy u (par d 32 1) = false) {T : Nat} {v : State} (hT : takeT d data u = (some T, v))
    (hpair : v.twinEn = true) :
    runGlintPinClear d data u = acceptTimed d { v with twin.timed := v.twin.timed ++ [⟨d, data, some T⟩] } := by
  rw [runGlintPinClear_of_idle data hd hmask hidle, actAtT_of_known _ hT, pinClearAt, if_pos hpair]

theorem runGlintPinClear_of_waiting (hidle : pinsBusy u (par d 32 1) = false) {v : State} (hT : takeT d data u = (none, v)) :
    runGlintPinClear d data u = acceptTimed d v := by
  rw [runGlintPinClear_of_idle data hd hmask hidle, actAtT_of_waiting _ hT]

end

end

/-- Settles O54, command by command. LATE and NOT_FOUND for a set switch (log entry 33), one busy pin that keeps all (37) and the info 0 of
both (72) are the model's choices. -/
theorem glintCommandsAct : Obligations.GlintCommandsAct := by
  intro t d data c s u b
  refine ⟨fun h => ⟨congrArg Host.Outcome.next (runGlintConfigure_of_passed h), fun k hk => ?_⟩,
    fun h => congrArg _ (runGlintConfigure_of_failed h), fun h => congrArg _ (runGlintBeamSetLoad_of_passed rfl h),
    fun h => congrArg _ (runGlintBeamSetLoad_of_failed h),
    fun h => congrArg _ (runGlintDetector_of_passed h), fun h => congrArg _ (runGlintDetector_of_failed h),
    fun hd hn hlen hresp => congrArg _ (runGlintArm_of_passed data rfl hd hn hlen hresp),
    fun hd => ⟨fun hset hm => congrArg _ (runGlintSetSwitch_of_ahead data hd hset hm),
      fun hset => congrArg _ (runGlintSetSwitch_of_unloaded data hd hset),
      fun hset hm => congrArg _ (runGlintSetSwitch_of_late data hd hset hm)⟩,
    fun hd hmask => ⟨fun hidle halone => congrArg _ (runGlintPinClear_of_standalone data hd hmask hidle halone),
      fun hidle _ v => ⟨fun T hT hpair => congrArg _ (runGlintPinClear_of_known data hd hmask hidle hT hpair),
        fun hT => congrArg _ (runGlintPinClear_of_waiting data hd hmask hidle hT)⟩,
      fun hbusy => congrArg _ (runGlintPinClear_of_busy data hd hmask hbusy)⟩⟩
  rw [detOf_glintInstall hk]
  exact ⟨rfl, rfl⟩

end Sys2Proof.Machine

/-!
The time-driven meanings of chapter 07 (R170, R173, R175, R183, R191, R193, R197): what each does once its premises are known; from these
O55.
-/
namespace Sys2Proof.Machine

/-! ## Histories (R170) -/

/-- Settling moves the index alone. -/
theorem History.settleN_eq (n : Nat) (h : History) : History.settleN n h = { h with next := (History.settleN n h).next } := by
  induction n generalizing h with
  | zero => rfl
  | succ n ih =>
    unfold History.settleN
    split
    · exact ih _
    · rfl

/-- A history with a gap declared at its next index, settled: the index moves on past what is there. -/
def History.declareGap (h : History) : History :=
  let h := { h with words := Tab.put h.words h.next gapWord, late := h.late + 1 }
  History.settleN h.words.length h

theorem History.declareGap_eq (h : History) : h.declareGap =
    { h with words := Tab.put h.words h.next gapWord, late := h.late + 1, next := h.declareGap.next } := settleN_eq ..

theorem History.declareGap_words (h : History) : h.declareGap.words = Tab.put h.words h.next gapWord := by rw [declareGap_eq]

/-- Only the gaps declared because an output was not there count one more. -/
theorem History.declareGap_counts (h : History) :
    h.declareGap.late = h.late + 1 ∧ h.declareGap.discarded = h.discarded ∧ h.declareGap.pathGaps = h.pathGaps := by
  rw [declareGap_eq]
  exact ⟨rfl, rfl, rfl⟩

section
variable {t : Tick} {s u : State} (hu : s.advance t = u)
include hu

/-- The next output of a tapped element that is due enters its history as a gap. -/
theorem exec_glintOutputDue_of_due {e : Fin 16384} {c : GlintCfg} {r : ElemRun} {g : GroupDesc} {h : History}
    (hh : History.settleN (historyOf u e.val r.fbNext).words.length (historyOf u e.val r.fbNext) = h) (hcfg : u.glint.cfg = some c)
    (hrun : Tab.get u.cond.run e.val = some r) (hdesc : u.view.desc e.val = some g)
    (htap : (activeAt u e.val (g.ratio * h.next / 64)).any (fun y => y.1.tapped) = true) (hdue : glintDue u r g c h.next false = true) :
    exec (.glintOutputDue t e) s = .next { u with
      glint.hist := Tab.put u.glint.hist e.val { h.declareGap with
        words := keepNewest (2 ^ c.histLog2) (Tab.put h.words h.next gapWord) } } := by
  rw [← History.declareGap_words, exec, execGlintOutputDue]
  cases hact : activeAt u e.val (g.ratio * h.next / 64) with
  | none => simp [hact] at htap
  | some y =>
    obtain ⟨x, d⟩ := y
    have hx : x.tapped = true := by simpa [hact] using htap
    simp only [hu, hcfg, hrun, hdesc, hh, hact, hx, hdue, Bool.and_self, ↓reduceIte]
    rfl

/-! ## Beam samples (R175) -/

/-- Without a switch that is due, all beams take the sample that every one of them can read, and the index moves on. -/
theorem exec_glintBeamSample_of_ready {g : GroupDesc} {org id : Nat} {c : GlintCfg} (hsw : switchDue u = none)
    (hbase : glintBase u = some (g, org)) (hset : u.glint.set_ = some id) (hcfg : u.glint.cfg = some c)
    (hready : (beamReads u u.glint.m g).all (fun y => beamReady u u.glint.m y.2.2.2) = true) :
    exec (.glintBeamSample t) s = .next (gstepCheck (settle { takeSamples u.glint.m g org (beamReads u u.glint.m g) u with
      glint.m := u.glint.m + 1 })) := by
  rw [exec, execGlintBeamSample]
  simp only [hu, hsw, hbase, hset, hcfg, hready, ↓reduceIte]

/-! ## Timers of an open event (R181, R183) -/

section
variable {det : Fin 512} {ev : GlintEvent} {c : GlintCfg} (hev : (detOf u det.val).ev = some ev) (hcfg : u.glint.cfg = some c)
include hev hcfg

/-- A declared event is published as provisional once Tp has passed. -/
theorem exec_publishHoldExpiry_of_held (hst : ev.st = .declared) (hheld : c.hold * tickHz ≤ (u.now - ev.at_) * 1000000) :
    exec (.publishHoldExpiry t det) s = .next (publishEvent det.val 1 (setDet det.val { detOf u det.val with
      ev := some { ev with st := .provisional } } u)) := by
  rw [exec, execPublishHoldExpiry]
  simp only [hu, hev, hcfg, hst, atLeastUs, hheld, decide_true, Bool.and_self, ↓reduceIte, goProvisional, modEvent, Option.map_some]

/-- An event that has not run through its window in time closes with the void-timeout flag. -/
theorem exec_voidTimeout_of_late {p : DetPar} (hpar : (beamRunOf u (det.val / 2)).par = some p) (hst : ev.st ≠ .confirmed)
    (hlate : 4 * p.cWin * tickHz ≤ (u.now - ev.at_) * c.rate) :
    exec (.voidTimeout t det) s = .next (closeEvent det.val 32 u) := by
  rw [exec, execVoidTimeout]
  simp only [hu, hev, hcfg, hpar, hst, hlate, ne_eq, not_false_eq_true, decide_true, Bool.and_self, ↓reduceIte]

end

/-! ## Captures (R197) -/

/-- A capture whose blocks are released is copied into a record, and its pin is released. -/
theorem exec_captureCopy_of_ready {pin : Nat} {x : Pin} {ecc l : List Ecc} {z v : State} (hz : captureLand x (afterCheck u) = z)
    (hl : eccSeen z (captureAddr z x) 0 (captureWords x + captureIndexWords z) ecc = l) (hv : captureRead x l z = v)
    (hpin : Tab.get u.glint.pins pin = some x) (hready : captureReady u x = true) :
    exec (.captureCopy t pin ecc) s = .next (formRecord
      ⟨4, 0, 0x31, captureRecord v x (poisonedWords l) x.tFirst, 0xFFFF, x.tFirst,
        ((x.tFirst : Int) + spanTicks (x.last - x.first : Nat) 1 (max 1 x.rate)).toNat, poisonedIn l⟩
      { v with glint.pins := Tab.del v.glint.pins pin }) := by
  rw [exec, execCaptureCopy]
  simp only [hu, hpin, hready, hz, hl, hv, Bool.not_true, Bool.false_eq_true, ↓reduceIte]

/-! ## Markers and blanks that have run out (R191, R193) -/

theorem exec_markerHoldExpiry (layer m : BitVec 8) :
    exec (.markerHoldExpiry t layer m) s = .next { u with lbox.marks := u.lbox.marks.filter (fun y =>
      decide (¬ (y.layer = layer.toNat ∧ y.m = m.toNat ∧ ∃ k ∈ y.clearAt, k ≤ u.now))) } := by
  rw [exec, execMarkerHoldExpiry]
  simp only [hu]
  refine congrArg (fun l => Host.Outcome.next { u with lbox.marks := l }) (List.filter_congr fun y _ => ?_)
  rw [Bool.eq_iff_iff]
  cases y.clearAt <;> simp [or_assoc]

theorem exec_blankEnd (entry : Fin 64) :
    exec (.blankEnd t entry) s = .next { u with glint.blanks := u.glint.blanks.filter (fun b =>
      decide (¬ (b.entry = entry.val ∧ ∃ k ∈ b.until_, k ≤ u.now))) } := by
  rw [exec, execBlankEnd]
  simp only [hu]
  refine congrArg (fun l => Host.Outcome.next { u with glint.blanks := l }) (List.filter_congr fun b _ => ?_)
  rw [Bool.eq_iff_iff]
  cases b.until_ <;> simp

end

/-- Settles O55: each command by its own lemma; the gap that an output becomes leaves its history's other counts as they are. -/
theorem glintSamplesAndEventsRun : Obligations.GlintSamplesAndEventsRun := by
  intro t e det layer m entry pin ecc c r g org id ev p x s u
  exact ⟨fun hcfg hrun hdesc htap hdue => ⟨_, exec_glintOutputDue_of_due rfl rfl hcfg hrun hdesc htap hdue,
      History.declareGap_counts _⟩,
    exec_glintBeamSample_of_ready rfl, exec_publishHoldExpiry_of_held rfl, fun hev hcfg hpar => exec_voidTimeout_of_late rfl hev hcfg hpar,
    exec_captureCopy_of_ready rfl rfl rfl rfl, exec_markerHoldExpiry rfl layer m, exec_blankEnd rfl entry⟩

end Sys2Proof.Machine

/-!
The load watch clear of an element whose z_nom is 0 (R224): the status of its refusal, which refutes O56.
-/
namespace Sys2Proof.Machine

/-- A drive element whose z_nom is not set cannot be cleared: CONFLICT, with the element as info (R224). -/
theorem runLoadWatchClear_of_unset {d : Desc} {u : State} {m : DriveEntry} (data : Bytes) (hd : descChk d [(32, 2)] = none)
    (hm : driveEntry u (par d 32 2) = some m) (hz : m.zNom = 0) :
    runLoadWatchClear d data u = refuse d (stConflict, par d 32 2) u := by
  simp [runLoadWatchClear, firstFail, need, hd, hm, hz]

/-- Where no completion is owed and the ring has no room, the completion that then waits tells what a refusal said. -/
theorem refuse_injective_of_full {d : Desc} {c c' : Nat × Nat} {s : State} (howed : s.host.owed = []) (hfull : cplRoom s = false)
    (hc : c.2 ≠ freeInfo) (hc' : c'.2 ≠ freeInfo) (h : refuse d c s = refuse d c' s) : c = c' := by
  rw [refuse_eq d c s hc, refuse_eq d c' s hc', complete_full d _ _ s howed hfull, complete_full d _ _ s howed hfull] at h
  have howes := congrArg (·.host.owed) h
  simp only [List.cons.injEq, Compl.mk.injEq, and_true, true_and] at howes
  obtain ⟨hstatus, hinfo⟩ := howes
  exact Prod.ext hstatus hinfo

/-- Element 3 stands in the drive map with z_nom 0. -/
def unsetDriveState : State := { State.reset with tx.map := [⟨3, 15, 0, 0, 0, 0, 1, 1⟩] }

/-- A load watch clear of element 3 (Table 15-5). -/
def unsetClearDesc : Desc := ⟨0x0054, 0, 0, 0, 0, 0, 0, le 2 3 ++ zeros 30, 0⟩

theorem unsetClearDesc_premises :
    descChk unsetClearDesc [(32, 2)] = none ∧ par unsetClearDesc 32 2 = 3 ∧
      driveEntry (unsetDriveState.advance 0) 3 = some ⟨3, 15, 0, 0, 0, 0, 1, 1⟩ ∧
      (unsetDriveState.advance 0).host.owed = [] ∧ cplRoom (unsetDriveState.advance 0) = false := by
  decide +kernel

/-- Refutes O56: its last clause writes the status of the refused load watch clear as 12, which is DMA_ERROR (Table 15-7). `unsetDriveState`
refuses the clear of element 3 with CONFLICT, 13. -/
theorem not_transmitCommandsAct : ¬ Obligations.TransmitCommandsAct := by
  intro h
  obtain ⟨hd, hpar, hm, howed, hfull⟩ := unsetClearDesc_premises
  rw [← hpar] at hm
  obtain ⟨-, -, -, -, -, -, -, -, -, -, -, -, -, -, -, hclear⟩ := h 0 unsetClearDesc [] (0, 0) unsetDriveState
  obtain ⟨-, -, hunset⟩ := hclear hd _ hm
  have hdma : runLoadWatchClear unsetClearDesc [] (unsetDriveState.advance 0) =
      refuse unsetClearDesc (stDma, par unsetClearDesc 32 2) (unsetDriveState.advance 0) := Host.Outcome.next.inj (hunset rfl)
  rw [runLoadWatchClear_of_unset [] hd hm rfl] at hdma
  have hinfo : par unsetClearDesc 32 2 ≠ freeInfo := by rw [hpar]; decide
  have hcode := refuse_injective_of_full howed hfull hinfo hinfo hdma
  exact absurd (congrArg Prod.fst hcode) (by decide)

end Sys2Proof.Machine

/-!
The time-driven meanings of chapter 08 (R205, R208, R212, R213, R217, R222, R223, R314, R315): what each does once its premises are known;
from these O57.
-/
namespace Sys2Proof.Machine

/-! ## Starts that fall due (R209, R212, R213) -/

/-- A start that is not too soon and may not be moved begins as requested. -/
theorem beginAt_of_fixed {s : State} {x : Start} (hfixed : x.immediate = false) (hsoon : tooSoon s x = false) :
    beginAt s x = ((x.tS.getD 0 : Nat) : Int) := by
  cases hT : x.tS with
  | none => simp [Start.immediate, hT] at hfixed
  | some T =>
    have hahead : (s.tw : Int) + startLag s x ≤ T := by simpa [tooSoon, hT, hfixed] using hsoon
    simp [beginAt, hT, hahead]

section
variable {sid : Nat} {x : Start} {u v w : State}

section
variable (hw : (if x.preempts then preempt x v else v) = w)
include hw

/-- With its slots free a start begins, those it preempts having been stopped. -/
theorem beginOrRamp_of_free (hfree : slotTaken w x = false) : beginOrRamp sid x v = beginStart sid (beginAt w x) w := by
  simp [beginOrRamp, hw, hfree]

/-- While ramps take its slots a start is held in its place. -/
theorem beginOrRamp_of_taken (htaken : slotTaken w x = true) :
    beginOrRamp sid x v = { w with tx.starts := Tab.put w.tx.starts sid { x with held := true } } := by
  simp [beginOrRamp, hw, htaken]

end

section
variable (hv : (if x.preempts || x.isGlint then abandonEcho u else u) = v)
include hv

theorem fallDue_of_ready (hready : notReady v x = false) (hsoon : tooSoon v x = false) : fallDue sid x u = beginOrRamp sid x v := by
  simp only [fallDue, hv, hready, hsoon, Bool.or_self, Bool.false_eq_true, ↓reduceIte]

/-- Start-when-ready: the start is held (R212). -/
theorem fallDue_of_waiting (hwait : (notReady v x || tooSoon v x) = true) (hflag : bitOf x.flags 0 = true) :
    fallDue sid x u = { v with tx.starts := Tab.put v.tx.starts sid { x with held := true } } := by
  simp only [fallDue, hv, hwait, hflag, ↓reduceIte]

theorem fallDue_of_late (hwait : (notReady v x || tooSoon v x) = true) (hflag : bitOf x.flags 0 = false) :
    fallDue sid x u = finishStart sid stLate 0 v := by
  simp only [fallDue, hv, hwait, hflag, Bool.false_eq_true, ↓reduceIte]

end

end

section
variable {t : Tick} {s u : State} (hu : s.advance t = u)
include hu

theorem exec_transmitStartDue_of_next {sid : Nat} {x : Start} (hnext : nextDue u = some (sid, x)) :
    exec (.transmitStartDue t) s = .next (fallDue sid x u) := by
  rw [exec, execTransmitStartDue]
  simp only [hu, hnext]

theorem exec_heldStartReady_of_ready {sid : Nat} {x : Start} (hready : heldReady u = some (sid, x)) :
    exec (.heldStartReady t sid) s = .next (beginOrRamp sid x u) := by
  rw [exec, execHeldStartReady]
  simp only [hu, hready, ↓reduceIte]

/-- A program whose beams have all passed ends DONE, and its beams leave their slots (R208, R214). -/
theorem exec_programEnd_of_over {sid : Nat} {x : Start} (hstart : Tab.get u.tx.starts sid = some x) (hrun : x.running.isSome = true)
    (hecho : x.isEcho = false) (hover : programOver u sid = true) :
    exec (.programEnd t sid) s = .next ((slotsOfStart u sid).foldl (fun v n => drain n v) (finishStart sid stOk (b01 x.muted) u)) := by
  rw [exec, execProgramEnd]
  simp only [hu, hstart, hrun, hecho, hover, Bool.not_false, Bool.and_self, ↓reduceIte]

/-! ## Drive frames (R205, R315) -/

/-- A frame that can be formed carries the next samples of its channels; streams are left and beams latched first. -/
theorem exec_driveFrameSend_of_ready {q group : Fin 16} {stream chan0 : BitVec 16} {nch nsamp k : Nat} {ecc : List Ecc}
    {g : DriveGroup} {chans : List (Option DriveEntry)} (hchans : frameChans u group.val stream.toNat chan0.toNat nch = chans)
    (hgroup : Tab.get u.tx.groups group.val = some g) (hnext : frameNext u g (chans.filterMap id) = some k)
    (hready : frameReady u q.val nch nsamp (chans.filterMap id) g = true) :
    exec (.driveFrameSend t q group stream chan0 nch nsamp ecc) s = .next (sendDriveFrame q.val group.val stream.toNat chan0.toNat
      nsamp chans k g ecc (latchBeams group.val (k + nsamp) (leaveStreams group.val u))) := by
  rw [exec, execDriveFrameSend]
  simp only [hu, hchans, hgroup, hnext, hready, ↓reduceIte]

/-! ## Sense frames and the load watch (R222, R225, R314) -/

section
variable {q : Fin 16} {f : RawFrame} (hrole : (quadHas u q.val 2 || quadHas u q.val 3) = true) (hup : (quadOf u q.val).up = true)
include hrole hup

theorem exec_senseFrame_of_good (hok : senseOk f = true) :
    exec (.senseFrame t q f) s = .next (senseSamples f (frameTaken q.val u)) := by
  rw [exec, execSenseFrame]
  simp only [hu, hrole, hup, hok, Bool.not_true, Bool.or_self, Bool.false_eq_true, ↓reduceIte]

theorem exec_senseFrame_of_bad (hbad : senseOk f = false) : exec (.senseFrame t q f) s = .next (crcErr q.val u) := by
  rw [exec, execSenseFrame]
  simp only [hu, hrole, hup, hbad, Bool.not_true, Bool.not_false, Bool.or_self, Bool.false_eq_true, ↓reduceIte]

end

/-- The oldest block of an element is evaluated 2 ms after the instant of its last sample (R222). -/
theorem exec_loadWatchEval_of_due {e : Fin 16384} {m : DriveEntry} {g : DriveGroup} {t0 n : Nat}
    (hn : (driveRun u e.val).block.getD (firstBlock g u.tw) = n) (hdrive : (drivers u).find? (fun y => decide (y.element = e.val)) = some m)
    (hgroup : Tab.get u.tx.groups m.group = some g) (ht0 : g.t0 = some t0)
    (hdue : (t0 : Int) + spanTicks (8 * n + 7 : Nat) 1 8000 + usTicks 2000 ≤ (u.tw : Int)) :
    exec (.loadWatchEval t e) s = .next (evalBlock m g n (setDrive e.val { driveRun u e.val with block := some n } u)) := by
  have htw : (setDrive e.val { driveRun u e.val with block := some n } u).tw = u.tw := rfl
  rw [exec, execLoadWatchEval]
  simp only [hu, hdrive, hgroup, ht0, hn, htw, if_pos hdue]

/-! ## Echo calibration (R217) -/

section
variable {k : EchoRun} (hecho : u.tx.echo = some k)
include hecho

/-- The next probe is set going in time to land at its repeat's instant. -/
theorem exec_echoRepeat_of_due {m : DriveEntry} {g : DriveGroup} {D : Nat} (hdrive : driveEntry u k.cmd.drive = some m)
    (hgroup : Tab.get u.tx.groups m.group = some g) (hdelay : delayOf ((viewNow u).elem k.cmd.drive) k.cmd.tbase g.rate 1 0 = some D)
    (hleft : k.rep < k.cmd.repeats) (hdue : driveTime g (repeatIndex u k g k.rep) - lagOf g ≤ (u.tw : Int)) :
    exec (.echoRepeat t) s = .next (sendProbe k m g (repeatIndex u k g k.rep) D u) := by
  rw [exec, execEchoRepeat]
  simp [hu, hecho, hdrive, hgroup, hdelay, not_le.2 hleft, not_lt.2 hdue]

/-- Once every repeat is driven and read on every receiver, the record is written. -/
theorem exec_echoRecord_of_read (hdriven : k.cmd.repeats ≤ k.rep) (hread : k.cmd.recv.all (recvReady u k k.cmd.repeats) = true) :
    exec (.echoRecord t) s = .next (echoRecord k false u) := by
  rw [exec, execEchoRecord]
  simp only [hu, hecho, hdriven, hread, decide_true, Bool.and_self, ↓reduceIte]

end

end

/-- Settles O57, command by command. A preempting start that waits for the ramps and the beams that leave their slots at a program's end
(log entry 43) and the instants at which starts fall due and begin (45) are the model's choices. -/
theorem driveOutputsAndProgramsRun : Obligations.DriveOutputsAndProgramsRun := by
  intro t sid x q group stream chan0 nch nsamp k e f m g t0 kr D ecc s u
  refine ⟨fun hnext => ?_, fun hheld => ?_, exec_programEnd_of_over rfl, exec_driveFrameSend_of_ready rfl rfl,
    fun hrole hup => ?_, exec_loadWatchEval_of_due rfl rfl, fun hecho => exec_echoRepeat_of_due rfl hecho,
    fun hecho => exec_echoRecord_of_read rfl hecho⟩
  · intro v w
    rw [exec_transmitStartDue_of_next (u := u) rfl hnext]
    refine ⟨fun hready hsoon => ?_, fun hwait hflag => congrArg _ (fallDue_of_waiting rfl hwait hflag),
      fun hwait hflag => congrArg _ (fallDue_of_late rfl hwait hflag)⟩
    rw [fallDue_of_ready rfl hready hsoon]
    exact ⟨fun hfree => congrArg _ (beginOrRamp_of_free rfl hfree), fun htaken => congrArg _ (beginOrRamp_of_taken rfl htaken),
      fun hfixed => beginAt_of_fixed hfixed hsoon⟩
  · intro v
    rw [exec_heldStartReady_of_ready (u := u) rfl hheld]
    exact ⟨fun hfree => congrArg _ (beginOrRamp_of_free rfl hfree), fun htaken => congrArg _ (beginOrRamp_of_taken rfl htaken)⟩
  · have hrole := Bool.or_eq_true_iff.2 hrole
    exact ⟨exec_senseFrame_of_good rfl hrole hup, exec_senseFrame_of_bad rfl hrole hup⟩

end Sys2Proof.Machine

/-!
The commands of chapters 09 and 10 (R227, R233, R240, R244 to R248): what each does once its checks are known; from these O58.
-/
namespace Sys2Proof.Machine

/-! ## The audio block and its routing sets (R227, R233, R240) -/

section
variable {d : Desc} {data : Bytes} {u : State} {c : Nat × Nat}

theorem runAudioConfigure_of_passed (h : audioConfigureChk d data u = none) : runAudioConfigure d data u =
    accept d (cfgPut 20 0 (dataOf d data) { dropSets u with audio := audioBlock (dataOf d data) }) := by
  simp only [runAudioConfigure, h]

theorem runAudioConfigure_of_failed (h : audioConfigureChk d data u = some c) : runAudioConfigure d data u = refuse d c u := by
  simp only [runAudioConfigure, h]

section
variable {b : Bytes} (hb : dataOf d data = b) (h : routingSetLoadChk d data u = none)
include hb h

theorem runRoutingSetLoad_of_vacant (hidle : u.audio.idle = none) : runRoutingSetLoad d data u =
    accept d (cfgPut 12 (parseRouting b).id b { u with audio.idle := some (parseRouting b) }) := by
  simp only [runRoutingSetLoad, h, hb, hidle]

/-- The set that the idle slot held leaves the configuration digest. -/
theorem runRoutingSetLoad_of_held {r : RoutingSet} (hidle : u.audio.idle = some r) : runRoutingSetLoad d data u =
    accept d (cfgPut 12 (parseRouting b).id b { cfgDel 12 r.id u with audio.idle := some (parseRouting b) }) := by
  simp only [runRoutingSetLoad, h, hb, hidle]

end

theorem runRoutingSetLoad_of_failed (h : routingSetLoadChk d data u = some c) : runRoutingSetLoad d data u = refuse d c u := by
  simp only [runRoutingSetLoad, h]

end

section
variable {d : Desc} {u : State} (data : Bytes) (hd : descChk d [(32, 1), (40, 8)] = none)
include hd

theorem runRoutingSwap_of_vacant (hidle : u.audio.idle = none) :
    runRoutingSwap d data u = refuse d (stNotFound, par d 32 1) u := by
  simp [runRoutingSwap, firstFail, need, hd, hidle]

section
variable {r : RoutingSet} (hidle : u.audio.idle = some r) (hid : r.id = par d 32 1)
include hidle hid

/-- A swap waits for an index that has not executed; 0 is one as long as none has (log entry 48). -/
theorem runRoutingSwap_of_ahead (hswap : u.audio.swap = none)
    (hahead : u.audio.idx < par d 40 8 ∨ u.audio.idx = 0 ∧ par d 40 8 = 0) :
    runRoutingSwap d data u = complete d stOk 0 { u with audio.swap := some (par d 40 8) } := by
  have hlate : (decide (par d 40 8 ≤ u.audio.idx) && !decide (par d 40 8 = 0 ∧ u.audio.idx = 0)) = false := by
    rcases hahead with hlt | ⟨hidx, haw⟩
    · simp [not_le.2 hlt]
    · simp [hidx, haw]
  simp only [runRoutingSwap, firstFail, need, hd, hidle, hid, hswap, hlate, decide_true, Option.isNone_none, Bool.not_false, ↓reduceIte,
    List.findSome?_cons, List.findSome?_nil, id]

theorem runRoutingSwap_of_late (hswap : u.audio.swap = none) (hidx : 0 < u.audio.idx) (haw : par d 40 8 ≤ u.audio.idx) :
    runRoutingSwap d data u = refuse d (stLate, 0) u := by
  simp [runRoutingSwap, firstFail, need, hd, hidle, hid, hswap, haw, hidx.ne']

theorem runRoutingSwap_of_pending (hswap : u.audio.swap ≠ none) : runRoutingSwap d data u = refuse d (stBusy, 0) u := by
  simp [runRoutingSwap, firstFail, need, hd, hidle, hid, hswap]

end

end

/-! ## Scenes and tables (R244 to R246) -/

/-- A scene loaded at time word `tw`, which takes effect at the first frame still to come (log entry 63). -/
def LbScene.loadedAt (sc : LbScene) (tw : Nat) : LbScene := { sc with activate := firstFrame sc tw }

section
variable {d : Desc} {data : Bytes} {u : State} {c : Nat × Nat} {b : Bytes}

theorem runSceneLoad_of_passed {z : LbScene} (hb : dataOf d data = b) (hz : (parseScene b).loadedAt u.tw = z)
    (h : sceneLoadChk d data u = none) : runSceneLoad d data u =
      completeWith d stOk 0 (some ((List.range 8).flatMap (fun i => le 1 ((z.layers[i]?.map LbLayer.tv).getD 0))))
        (cfgPutAt (z.bound z.activate) 13 z.id b { u with lbox.pending := u.lbox.pending ++ [z] }) := by
  subst hz
  simp only [runSceneLoad, h, hb, LbScene.loadedAt]

theorem runSceneLoad_of_failed (h : sceneLoadChk d data u = some c) : runSceneLoad d data u = refuse d c u := by
  simp only [runSceneLoad, h]

theorem runLightboxTableLoad_of_passed {key : Nat} (hb : dataOf d data = b) (hkey : lbKey (fieldU b 2 1) (fieldU b 0 2) = key)
    (h : lightboxTableLoadChk d data u = none) : runLightboxTableLoad d data u =
      accept d (cfgPut 14 key b { u with
        lbox.tables := Tab.put u.lbox.tables key ⟨fieldU b 2 1, fieldU b 3 1, fieldU b 4 4, b.drop 16⟩ }) := by
  simp only [runLightboxTableLoad, h, hb, hkey]

theorem runLightboxTableLoad_of_failed (h : lightboxTableLoadChk d data u = some c) :
    runLightboxTableLoad d data u = refuse d c u := by
  simp only [runLightboxTableLoad, h]

end

/-! ## Surfaces (R248) -/

/-- A layer's run with one more update that has completed and is not shown. -/
def LbRun.addUpdate (r : LbRun) (x : LbUpdate) : LbRun := { r with back := r.back ++ [x] }

section
variable {d : Desc} {u : State} (data : Bytes) (hd : descChk d [(32, 1)] = none)
include hd

theorem runSurfaceWrite_of_no_scene (hscene : u.lbox.scene = none) :
    runSurfaceWrite d data u = refuse d (stNotFound, par d 32 1) u := by
  simp only [runSurfaceWrite, hd, hscene, Option.bind_none, Option.filter_none]

section
variable {sc : LbScene} {l : LbLayer} (hscene : u.lbox.scene = some sc) (hlayer : sc.layers[par d 32 1]? = some l) (hsurf : l.source = 1)
include hscene hlayer hsurf

theorem runSurfaceWrite_of_whole (hsize : sizeChk d l.bufBytes = none) : runSurfaceWrite d data u =
    resumeFrame (accept d { hbmRequest 4 .outside (placeOf u 4 (par d 32 1)) u with
      lbox.layers := u.lbox.layers.set (par d 32 1)
        ((layerRun u (par d 32 1)).addUpdate ⟨u.tw, dataOf d data, u.tw, false, 0⟩) }) := by
  simp only [runSurfaceWrite, LbRun.addUpdate, hd, hscene, hlayer, hsurf, hsize, Option.bind_some, Option.filter_some, decide_true, ↓reduceIte]

theorem runSurfaceWrite_of_wrong_size {c : Nat × Nat} (hsize : sizeChk d l.bufBytes = some c) :
    runSurfaceWrite d data u = refuse d c u := by
  simp only [runSurfaceWrite, hd, hscene, hlayer, hsurf, hsize, Option.bind_some, Option.filter_some, decide_true, ↓reduceIte]

end

end

/-- Settles O58, command by command. A configure that empties both set slots and a swap at index 0 (log entry 48), a surface that starts the
frame that waits for it and the frame at which a late scene takes effect (63), and the info 0 of LATE and BUSY (72) are the model's choices. -/
theorem audioAndLightboxCommandsAct : Obligations.AudioAndLightboxCommandsAct := by
  intro t d data c r sc l s u b
  exact ⟨fun h => congrArg Host.Outcome.next (runAudioConfigure_of_passed h), fun h => congrArg _ (runAudioConfigure_of_failed h),
    fun h hidle => congrArg _ (runRoutingSetLoad_of_vacant rfl h hidle), fun h hidle => congrArg _ (runRoutingSetLoad_of_held rfl h hidle),
    fun h => congrArg _ (runRoutingSetLoad_of_failed h),
    fun hd => ⟨fun hidle => congrArg _ (runRoutingSwap_of_vacant data hd hidle), fun hidle hid =>
      ⟨fun hswap hahead => congrArg _ (runRoutingSwap_of_ahead data hd hidle hid hswap hahead),
        fun hswap hidx haw => congrArg _ (runRoutingSwap_of_late data hd hidle hid hswap hidx haw),
        fun hswap => congrArg _ (runRoutingSwap_of_pending data hd hidle hid hswap)⟩⟩,
    fun h => ⟨(parseScene b).loadedAt u.tw, rfl, rfl, rfl, rfl, rfl, congrArg _ (runSceneLoad_of_passed rfl rfl h)⟩,
    fun h => congrArg _ (runSceneLoad_of_failed h), fun h => congrArg _ (runLightboxTableLoad_of_passed rfl rfl h),
    fun h => congrArg _ (runLightboxTableLoad_of_failed h),
    fun hd hscene hlayer hsurf => ⟨fun hsize => ⟨(layerRun u (par d 32 1)).addUpdate ⟨u.tw, b, u.tw, false, 0⟩, rfl, rfl, rfl, rfl,
        congrArg _ (runSurfaceWrite_of_whole data hd hscene hlayer hsurf hsize)⟩,
      fun hsize => congrArg _ (runSurfaceWrite_of_wrong_size data hd hscene hlayer hsurf hsize)⟩,
    fun hd hscene => congrArg _ (runSurfaceWrite_of_no_scene data hd hscene)⟩

end Sys2Proof.Machine

/-!
The audio index and the Lightbox's frames (R228, R239, R245, R254, R255): what each does once its premises are known; from these O59.
-/
namespace Sys2Proof.Machine

/-! ## Frames and scenes (R245, R254) -/

section
variable {u : State}

theorem tryFrame_of_no_scene (ecc : List Ecc) (hscene : u.lbox.scene = none) : tryFrame ecc u = u := by
  simp only [tryFrame, hscene]

/-- No frame starts before its boundary. -/
theorem tryFrame_of_early {sc : LbScene} (ecc : List Ecc) (hscene : u.lbox.scene = some sc) (hearly : u.tw < sc.bound u.lbox.frame) :
    tryFrame ecc u = u := by
  simp only [tryFrame, hscene, hearly, decide_true, Bool.true_or, ↓reduceIte]

end

theorem takeScene_scene (sc : LbScene) (s : State) : (takeScene sc s).lbox.scene = some sc := rfl

theorem takeScene_frame_eq_activate (sc : LbScene) (s : State) : (takeScene sc s).lbox.frame = sc.activate := rfl

/-- A frame that a WAIT layer delayed is tried again (R255). -/
def releaseDelayed (ecc : List Ecc) (s : State) : State := if s.lbox.waiting.isSome then tryFrame ecc s else s

theorem releaseDelayed_of_waiting {u : State} (ecc : List Ecc) (h : u.lbox.waiting ≠ none) : releaseDelayed ecc u = tryFrame ecc u :=
  if_pos (Option.isSome_iff_ne_none.2 h)

theorem releaseDelayed_of_none {u : State} (ecc : List Ecc) (h : u.lbox.waiting = none) : releaseDelayed ecc u = u := by
  simp only [releaseDelayed, h, Option.isSome_none, Bool.false_eq_true, ↓reduceIte]

section
variable {t : Tick} {s u : State} (hu : s.advance t = u)
include hu

/-! ## The audio index (R228) -/

section
variable {t0 : Nat} (ht0 : u.audio.t0 = some t0)
include ht0

theorem exec_audioIndex_of_due (hdue : audioTime t0 u.audio.idx ≤ (u.tw : Int)) :
    exec (.audioIndex t) s = .next (runIndex t0 u.audio.idx u) := by
  rw [exec, execAudioIndex]
  simp only [hu, ht0, hdue, ↓reduceIte]

theorem exec_audioIndex_of_early (hearly : (u.tw : Int) < audioTime t0 u.audio.idx) : exec (.audioIndex t) s = .next u := by
  rw [exec, execAudioIndex]
  simp only [hu, ht0, not_le.2 hearly, ↓reduceIte]

end

theorem exec_audioIndex_of_unconfigured (ht0 : u.audio.t0 = none) : exec (.audioIndex t) s = .next u := by
  rw [exec, execAudioIndex]
  simp only [hu, ht0]

/-! ## Boundaries and the end of a wait (R245, R254, R255) -/

section
variable {ecc : List Ecc} {v : State} (hv : releaseDelayed ecc u = v)
include hv

/-- A scene that is due once no frame is delayed takes effect before the frame is tried (log entry 63). -/
theorem exec_lightboxFrameBoundary_of_scene {sc : LbScene} (hdue : sceneDue v = some sc) :
    exec (.lightboxFrameBoundary t ecc) s = .next (tryFrame ecc (takeScene sc v)) := by
  rw [releaseDelayed] at hv
  rw [exec, execLightboxFrameBoundary]
  simp only [hu, hv, hdue]

theorem exec_lightboxFrameBoundary_of_no_scene (hdue : sceneDue v = none) :
    exec (.lightboxFrameBoundary t ecc) s = .next (tryFrame ecc v) := by
  rw [releaseDelayed] at hv
  rw [exec, execLightboxFrameBoundary]
  simp only [hu, hv, hdue]

theorem exec_lightboxWaitExpiry : exec (.lightboxWaitExpiry t ecc) s = .next v := by
  rw [releaseDelayed] at hv
  rw [exec, execLightboxWaitExpiry]
  simp only [hu, hv]

end

end

/-- Settles O59, command by command. A scene change that waits for a delayed frame (log entry 63) and an index or a wait's end that finds
nothing to do and only lets time pass (7) are the model's choices. -/
theorem audioIndicesAndFramesRun : Obligations.AudioIndicesAndFramesRun := by
  intro t t0 sc ecc s u
  exact ⟨exec_audioIndex_of_due rfl, exec_audioIndex_of_early rfl, exec_audioIndex_of_unconfigured rfl,
    fun hdue hnone => ⟨takeScene_scene sc u, takeScene_frame_eq_activate sc u,
      exec_lightboxFrameBoundary_of_scene rfl (releaseDelayed_of_none ecc hnone) hdue⟩,
    fun hdue hnone => exec_lightboxFrameBoundary_of_no_scene rfl (releaseDelayed_of_none ecc hnone) hdue,
    fun hwait => exec_lightboxFrameBoundary_of_no_scene rfl (releaseDelayed_of_waiting ecc hwait),
    tryFrame_of_no_scene ecc, tryFrame_of_early ecc,
    fun hwait => exec_lightboxWaitExpiry rfl (releaseDelayed_of_waiting ecc hwait),
    fun hnone => exec_lightboxWaitExpiry rfl (releaseDelayed_of_none ecc hnone)⟩

end Sys2Proof.Machine

/-!
Time sets (R278, R279): what loading a time word does, and how the time word runs on from it; from these O25.
-/
namespace Sys2Proof.Machine

/-! ## The end of a walk (R274) -/

/-- The end of a walk changes nothing of the timebase but that the walk goes on no more. -/
theorem endWalk_tb (cause : Nat) (s : State) : (endWalk cause s).tb = { s.tb with walking := false } := by
  unfold endWalk
  split
  next => simp
  next h => rw [← Bool.eq_false_iff.2 h]

/-! ## The time word (R8, R259) -/

theorem offsetO_of_oNano_zero {s : State} (h : s.tb.oNano = 0) : s.offsetO = 0 := by
  rw [State.offsetO, h]
  decide

theorem dpllRun_nominal (r dt : Nat) : dpllRun 0 0 r dt = (0, 0) := by simp [dpllRun]

/-- A DPLL that stands at its goal, the nominal frequency, does not move the time word against the clock. -/
theorem advance_tOffset_of_nominal (t : Tick) {s : State} (hwalk : s.tb.walking = false) (hfreq : s.tb.freq = 0)
    (hgoal : dpllGoal s = 0) (hphase : s.tb.phase = 0) : (s.advance t).tOffset = s.tOffset := by
  rw [advance_tOffset, dpllNext_of_not_walking hwalk, hfreq, hgoal, dpllRun_nominal, hphase]
  simp

/-- Over a span in which its offset stays, the time word gains what the clock does. -/
theorem advance_tw_of_tOffset (t : Tick) {s : State} (h : (s.advance t).tOffset = s.tOffset) :
    (s.advance t).tw = (s.tw + (max s.now t - s.now)) % 2 ^ 64 := by
  rw [State.tw, State.tw, h, advance_now]
  omega

/-! ## Loading a time word (R278) -/

theorem loadTime_tb (past : Nat) (s : State) : (loadTime past s).tb.armed = false ∧ (loadTime past s).tb.oNano = 0 ∧
    (loadTime past s).tb.walking = false ∧ (loadTime past s).tb.phase = 0 := by
  simp only [loadTime, endWalk_tb, and_self]

theorem loadTime_tw (past : Nat) (s : State) :
    (loadTime past s).tw = (s.tb.tsetLo.toNat + 2 ^ 32 * s.tb.tsetHi.toNat + past) % 2 ^ 64 := by
  simp only [loadTime, State.tw, endWalk_frame]
  omega

/-- A value loaded without delay is the time word: its two halves fit. -/
theorem loadTime_zero_tw (s : State) : (loadTime 0 s).tw = s.tb.tsetLo.toNat + 2 ^ 32 * s.tb.tsetHi.toNat := by
  rw [loadTime_tw]
  omega

theorem writeTsetCtl_of_unreferenced {v : Reg} {u : State} (hv : rbit v 0 = true) (hidle : anyActive u = false)
    (harmed : u.tb.armed = false) (hsel : u.tb.sel = none) : writeTsetCtl v u = loadTime 0 u := by
  simp [writeTsetCtl, hv, hidle, harmed, hsel]

/-- The host's write of TSET_CTL reaches the register. -/
theorem exec_timeSetArm {t : Tick} {s u : State} (hu : s.advance t = u) (v : Reg) (hrst : inReset u = false)
    (hready : u.boot.ready = true) (hreach : reaches u .hostBridge .banks = true) (hlocks : u.mgmt.locks = [])
    (hslow : u.host.slow = false) (hout : outstanding u .hostBridge = false) :
    exec (.timeSetArm t v) s = .next (writeTsetCtl v u) := by
  rw [exec, execTimeSetArm, hu, hostReg_served 0x20018 .tsetCtl v u hrst hready hreach hlocks rfl rfl (by decide) rfl hslow hout]
  rfl

/-- Settles O25: the write loads the time word at once, and from a phase of 0 a DPLL at the nominal frequency leaves its offset as it is. -/
theorem timeSetLoadsAtOnce : Obligations.TimeSetLoadsAtOnce := by
  intro t t' v s u hrst hready hreach hlocks hslow hout hv hidle harmed hsel
  obtain ⟨hnotArmed, hO, hwalk, hphase⟩ := loadTime_tb 0 u
  refine ⟨loadTime 0 u, ?_, loadTime_zero_tw u, hnotArmed, offsetO_of_oNano_zero hO, hwalk, hphase, fun hfreq hgoal => ?_⟩
  · rw [exec_timeSetArm rfl v hrst hready hreach hlocks hslow hout, writeTsetCtl_of_unreferenced hv hidle harmed hsel]
  · exact advance_tw_of_tOffset t' (advance_tOffset_of_nominal t' hwalk hfreq hgoal hphase)

end Sys2Proof.Machine

/-!
References and the lock of the DPLL (R263 to R265, R268, R270, R271): what each evaluation does to a reference, to the state and to the
history; from these O23.
-/
namespace Sys2Proof.Machine

/-! ## Qualification (R265) -/

section
variable {n : Nat} {u : State} {r : RefState} (hr : refOf u n = r) {off : Int}
include hr

theorem qualify_of_hundredth (hst : r.st = .qualifying) (hband : off.natAbs ≤ 2000) (hcount : r.inBand = 99) :
    qualify n off u = (let v := setRef n { r with offs := off, st := .qualified, inBand := 100, means := [] } u
      reselect (postEvent 0x50 n (le 1 (refQual v n)) v)) := by
  simp only [qualify, hr, hst, hband, hcount, decide_true, Nat.reduceAdd, le_refl, ↓reduceIte]

theorem qualify_of_out_of_band (hst : r.st = .qualifying) (hout : 2000 < off.natAbs) :
    qualify n off u = setRef n { r with offs := off, inBand := 0 } u := by
  simp [qualify, hr, hst, not_le.2 hout]

theorem qualify_of_drifted (hst : r.st = .qualified) (hfar : 4000 < off.natAbs) :
    qualify n off u = dropRef n .disqualified 4 (setRef n { r with offs := off } u) := by
  simp only [qualify, hr, hst, hfar, ↓reduceIte]

end

/-! ## The means of the drift guard (R268) -/

theorem keepMean_sel (n : Nat) (off : Int) (s : State) : (keepMean n off s).tb.sel = s.tb.sel := by
  unfold keepMean
  dsimp only
  split <;> rfl

theorem foldl_keepMean_sel (offs : Vector Int 4) (l : List Nat) (s : State) :
    (l.foldl (fun s k => keepMean k (vget offs k 0) s) s).tb.sel = s.tb.sel := by
  induction l generalizing s with
  | nil => rfl
  | cons k l ih => rw [List.foldl_cons, ih, keepMean_sel]

/-! ## The criterion of the lock (R270) -/

theorem lockMet_iff {u : State} {m : Fin 4} (hsel : u.tb.sel = some m) (fe pe : Int) : lockMet u fe pe = true ↔
    fe.natAbs ≤ 50 ∧ (u.tb.freq - refFreq u).natAbs ≤ 50000 * 2 ^ 32 ∧ (refTime u m.val = true → pe.natAbs ≤ 50) ∧
      10000 * tickHz ≤ (u.now - u.tb.lockFrom) * 1000 := by
  have himp : (!refTime u m.val || decide (pe.natAbs ≤ 50)) = true ↔ (refTime u m.val = true → pe.natAbs ≤ 50) := by
    cases refTime u m.val <;> simp
  simp only [lockMet, hsel, Bool.and_eq_true, decide_eq_true_eq, himp, atLeastMs, and_assoc]

/-! ## The commands on references and the lock -/

section
variable {t : Tick} {s u : State} (hu : s.advance t = u)
include hu

theorem exec_refQualifyEval {v : State} {n : Fin 4} {off : Int} (hv : qualify n.val off u = v) :
    exec (.refQualifyEval t n off) s = .next v := by
  rw [exec, execRefQualifyEval, hu, hv]

theorem exec_refInactive_of_case {n : Fin 4} {c : InactiveCause} (hcase : inactiveHolds u n.val c = true) :
    exec (.refInactive t n c) s = .next (makeInactive n.val c u) := by
  rw [exec, execRefInactive]
  simp only [hu, hcase, ↓reduceIte]

/-- Without a selected reference the drift guard only records the means: nothing is compared. -/
theorem exec_driftGuard_of_unselected (hsel : u.tb.sel = none) (offs : Vector Int 4) : exec (.driftGuard t offs) s =
    .next ((List.range 4).foldl (fun s k => keepMean k (vget offs k 0) s) u) := by
  rw [exec, execDriftGuard]
  simp only [hu, foldl_keepMean_sel, hsel]

theorem exec_lockAchieved_of_met {fe pe : Int} (hst : u.tb.st = .pullIn) (hmet : lockMet u fe pe = true) :
    exec (.lockAchieved ⟨t, fe, pe⟩) s = .next (enterState .locked (closeRecovery 4 0 u.tw u)) := by
  rw [exec, execLockAchieved]
  simp only [hu, hmet, hst, true_or, ↓reduceIte, closeRecovery_frame]

theorem exec_lockAchieved_of_not_met {fe pe : Int} (hmet : ¬ lockMet u fe pe = true) :
    exec (.lockAchieved ⟨t, fe, pe⟩) s = .next u := by
  rw [exec, execLockAchieved]
  simp only [hu, hmet, Bool.false_eq_true, ↓reduceIte]

end

/-! ## The history (R271) -/

section
variable {sec : Nat} {frac : BitVec 32} {s u : State} (hu : s.advance (secTick sec frac) = u)
include hu

theorem exec_historyEntry_of_due (hst : u.tb.st = .locked) (hdue : tickHz ≤ u.now - u.tb.histFrom) :
    exec (.historyEntry sec frac) s = .next { u with
      tb.hist := ((u.now, meanFreq u) :: u.tb.hist).take 1800, tb.freqSum := 0, tb.histFrom := u.now } := by
  rw [exec, execHistoryEntry]
  simp only [hu, hst, hdue, and_self, ↓reduceIte]

theorem exec_historyEntry_of_not_due (h : u.tb.st ≠ .locked ∨ u.now - u.tb.histFrom < tickHz) :
    exec (.historyEntry sec frac) s = .next u := by
  have hnot : ¬ (u.tb.st = .locked ∧ tickHz ≤ u.now - u.tb.histFrom) := by rwa [not_and_or, not_le]
  rw [exec, execHistoryEntry]
  simp only [hu, hnot, ↓reduceIte]

end

/-- Settles O23, command by command; PULL-IN becomes LOCKED exactly when the criterion of R270 is met. That a lock or history command whose
conditions do not hold only lets time pass (log entry 7), and the frequency that the criterion measures against (94), are the model's
choices. -/
theorem referencesQualifyAndFail : Obligations.ReferencesQualifyAndFail := by
  intro t n off c fe pe s u r
  refine ⟨fun hst hband hcount => exec_refQualifyEval rfl (qualify_of_hundredth rfl hst hband hcount),
    fun hst hout => exec_refQualifyEval rfl (qualify_of_out_of_band rfl hst hout),
    fun hst hfar => exec_refQualifyEval rfl (qualify_of_drifted rfl hst hfar), exec_refInactive_of_case rfl,
    exec_driftGuard_of_unselected rfl, fun m hsel hst => ⟨fun hfe hnear hpe hlong => ?_, fun hmiss => ?_⟩,
    fun sec frac => ⟨exec_historyEntry_of_due rfl, exec_historyEntry_of_not_due rfl⟩⟩
  · exact exec_lockAchieved_of_met rfl hst ((lockMet_iff hsel fe pe).2 ⟨hfe, hnear, hpe, hlong⟩)
  · refine exec_lockAchieved_of_not_met rfl fun hmet => ?_
    obtain ⟨hfe, hnear, hpe, hlong⟩ := (lockMet_iff hsel fe pe).1 hmet
    obtain hbad | hbad | ⟨htime, hbad⟩ | hbad := hmiss
    · exact hbad.not_ge hfe
    · exact hbad hnear
    · exact hbad.not_ge (hpe htime)
    · exact hbad.not_ge hlong

end Sys2Proof.Machine

/-!
PPS edges and time frames (R264, R320, R321): what each records of a reference or of a quad; from these O24.
-/
namespace Sys2Proof.Machine

theorem frameGood_of_damaged {f : RawFrame} (h : f.damaged = true) : frameGood f = false := by simp [frameGood, h]

/-- The references C and D that a time quad carries: those enabled whose designated lane lies on it. -/
def carriedRefs (q : Nat) (s : State) : List Nat :=
  [2, 3].filter (fun n => decide (refLane s n / 4 = q) && rbit (vget s.tb.refCfg n 0) 0)

theorem carriedRefs_of_disabled {u : State} (q : Nat) (h : ∀ k ∈ ([2, 3] : List Nat), rbit (vget u.tb.refCfg k 0) 0 = false) :
    carriedRefs q u = [] := by
  rw [carriedRefs, List.filter_eq_nil_iff]
  intro k hk
  rw [h k hk, Bool.and_false]
  exact Bool.false_ne_true

section
variable {t : Tick} {s u : State} (hu : s.advance t = u)
include hu

/-! ## PPS edges (R264) -/

section
variable {n : Fin 2} {r : RefState} (hr : refOf u n.val = r)
include hr

/-- A first edge ends no interval, so it makes no time valid and loads none. -/
theorem exec_ppsEdge_of_first (hfirst : r.lastAt = none) : exec (.ppsEdge t n) s =
    .next (showPhase n.val (timeChange n.val 2 (refTime u n.val)
      (setRef n.val { r with lastAt := some u.now, good := 0, timeValid := false, diff := wrapS 32 (-(u.tw : Int)) } u))) := by
  rw [exec, execPpsEdge]
  simp only [hu, hr, hfirst, Bool.and_false, Bool.false_eq_true, ↓reduceIte]

theorem exec_ppsMissing_of_late {b : Nat} (hlast : r.lastAt = some b) (hlate : 1100 * tickHz ≤ (u.now - b) * 1000) :
    exec (.ppsMissing t n) s =
      .next (timeChange n.val 1 (refTime u n.val) (setRef n.val { r with timeValid := false, good := 0 } u)) := by
  rw [exec, execPpsMissing]
  simp only [hu, hr, hlast, atLeastMs, hlate, decide_true, ↓reduceIte]

end

/-! ## Time frames (R320, R321) -/

section
variable {q : Fin 16} (hquad : quadHas u q.val 8 = true)
include hquad

theorem exec_timeFrameSend_of_no_echo (hlast : (quadOf u q.val).lastT = none) : exec (.timeFrameSend t q) s = .next (emitOn q.val
    (.frame (mkFrame 8 0 (le 1 (advQual u) ++ le 1 u.tb.st.code ++ le 2 0 ++ zeros 4 ++ le 8 u.tw ++ le 8 0 ++ le 8 0)))
    (setQuad q.val { quadOf u q.val with
      sentT := u.tw :: (quadOf u q.val).sentT.filter (fun x => decide ((u.tw - x) * 10 ≤ tickHz)) } u)) := by
  rw [exec, execTimeFrameSend]
  simp only [hu, hquad, hlast, Option.getD_none, Option.isSome_none, b01, Bool.false_eq_true, ↓reduceIte]

variable (hup : (quadOf u q.val).up = true) (a : BitVec 64) {f : RawFrame} (hrefs : carriedRefs q.val u = [])
include hup hrefs

theorem exec_timeFrame_of_damaged (hbad : f.damaged = true) : exec (.timeFrame t q a f) s = .next (crcErr q.val u) := by
  rw [carriedRefs] at hrefs
  rw [exec, execTimeFrame]
  simp only [hu, hquad, hup, hrefs, frameGood_of_damaged hbad, Bool.not_true, Bool.or_self, Bool.false_and, Bool.false_eq_true,
    ↓reduceIte, List.foldl_nil]

/-- A frame without an echo measures no delay: it leaves its time and its arrival for the next echo sent. -/
theorem exec_timeFrame_of_no_echo (hgood : frameGood f = true) (his : frameIs f 8 0 = true) (hlen : f.n.toNat = 4)
    (hcode : fieldU f.data 0 1 < 16) (hstate : fieldU f.data 1 1 < 4) (hecho : fieldU f.data 2 2 = 0) :
    exec (.timeFrame t q a f) s =
      .next (setQuad q.val { quadOf u q.val with lastT := some (fieldU f.data 8 8, a.toNat) } (frameTaken q.val u)) := by
  rw [carriedRefs] at hrefs
  rw [exec, execTimeFrame]
  simp only [hu, hquad, hup, hrefs, hgood, his, hlen, hcode, hstate, hecho, Bool.not_true, Bool.or_self, Bool.false_eq_true, ↓reduceIte,
    decide_true, and_self, Bool.and_self, zero_lt_two, zero_ne_one, decide_false, Bool.false_and, List.foldl_nil]

end

end

/-- Settles O24, command by command. -/
theorem timeIsTakenFromTheReference : Obligations.TimeIsTakenFromTheReference := by
  intro t n q a f s u r
  exact ⟨exec_ppsEdge_of_first rfl rfl, fun _ => exec_ppsMissing_of_late rfl rfl, exec_timeFrameSend_of_no_echo rfl,
    fun hquad hup hbad hoff => exec_timeFrame_of_damaged rfl hquad hup a (carriedRefs_of_disabled q.val hoff) hbad,
    fun hquad hup hgood his hlen hcode hstate hecho hoff =>
      exec_timeFrame_of_no_echo rfl hquad hup a (carriedRefs_of_disabled q.val hoff) hgood his hlen hcode hstate hecho⟩

end Sys2Proof.Machine

/-!
The walk, the gates and PPSOUT (R267, R274, R277, R280, R469): how far a second of a walk takes O, and what each command does once its
premises are known; from these O26.
-/
namespace Sys2Proof.Machine

/-! ## A second of a walk (R274) -/

/-- A walk takes O towards 0 and not past it. -/
theorem walkedO_sign (s : State) (dt : Nat) :
    (walkedO s dt < 0 → s.tb.oNano < 0) ∧ (0 < walkedO s dt → 0 < s.tb.oNano) := by
  unfold walkedO
  dsimp only
  split
  · split
    · omega
    · split <;> omega
  · exact ⟨id, id⟩

theorem natAbs_oNano_after_second {t : Tick} {s : State} (hwalk : s.tb.walking = true) (hopen : gated s = false)
    (ht : t = s.now + tickHz) : (s.advance t).tb.oNano.natAbs = s.tb.oNano.natAbs - 2 ^ 32 * walkRate s := by
  have hspan : max s.now t - s.now = 2 ^ 32 := by rw [ht, tickHz]; omega
  rw [advance_oNano, advance_now, natAbs_walkedO hwalk hopen, hspan, Nat.mul_comm]

/-! ## The check of a walk -/

theorem walkCheck_of_underway {u : State} (hwalk : u.tb.walking = true) (hctl : rbit u.tb.ctl 0 = true) (hO : u.tb.oNano ≠ 0) :
    walkCheck u = u := by
  simp [walkCheck, hwalk, hctl, hO]

theorem walkCheck_of_zero {u : State} (hO : u.tb.oNano = 0) : walkCheck u = endWalk 0 u := by
  simp [walkCheck, hO]

section
variable {t : Tick} {s u : State} (hu : s.advance t = u)
include hu

theorem exec_walkStep_of_walking {v : State} (hwalk : u.tb.walking = true) (hv : walkCheck u = v) :
    exec (.walkStep t) s = .next v := by
  rw [exec, execWalkStep]
  simp only [hu, hwalk, hv, ↓reduceIte]

/-! ## Gates (R267, R277) -/

theorem exec_synthLockLost (o : Fin 3) : exec (.synthLockLost t o) s = .next (closeGate o.val 3 u) := by
  rw [exec, execSynthLockLost, hu]

theorem exec_gateOpen_of_due {o : Fin 3} {g : Gate} (hg : vget u.tb.gates o.val ⟨false, 0, 0⟩ = g) (hclosed : g.closed = true)
    (hlong : 10 * tickHz ≤ (u.now - g.since) * 1000) : exec (.gateOpen t o) s =
      .next (let v := postEvent 0x59 o.val [0, 0] { u with tb.gates := vset u.tb.gates o.val ⟨false, 0, u.now⟩ }
        if gated v then v else reselect v) := by
  rw [exec, execGateOpen]
  simp only [hu, hg, hclosed, atLeastMs, hlong, decide_true, Bool.and_self, ↓reduceIte]

/-! ## PPSOUT (R280, R469) -/

theorem exec_ppsoutPulse_at_second (hboot : u.boot.phase ≠ 15) (hsec : u.tw % tickHz ≤ 21 ∨ tickHz - 21 ≤ u.tw % tickHz) :
    exec (.ppsoutPulse t) s = .next { u with tb.ppsRise := some u.now } := by
  rw [exec, execPpsoutPulse]
  simp only [hu, hboot, hsec, ne_eq, not_false_eq_true, and_self, ↓reduceIte]

theorem exec_ppsoutPulse_of_failed_boot (hboot : u.boot.phase = 15) : exec (.ppsoutPulse t) s = .next u := by
  rw [exec, execPpsoutPulse]
  simp only [hu, hboot, ne_eq, not_true_eq_false, false_and, ↓reduceIte]

end

/-- Settles O26, from what a second of a walk does to |O| and the lemmas on each command. The walk is the model's look at a continuous one
(log entries 7, 94), and a WALK_RATE above 10 its choice (89). -/
theorem offsetWalksToZero : Obligations.OffsetWalksToZero := by
  intro t o s u step
  refine ⟨fun _ hgated => walkedO_of_gated hgated _, fun hwalk hopen ht hfar => ⟨?_, walkedO_sign s _⟩,
    fun hwalk hopen ht hnear => ?_,
    fun hwalk hctl hO => exec_walkStep_of_walking rfl hwalk (walkCheck_of_underway hwalk hctl hO),
    fun hwalk hO => exec_walkStep_of_walking rfl hwalk (walkCheck_of_zero hO), exec_synthLockLost rfl o,
    exec_gateOpen_of_due rfl rfl, exec_ppsoutPulse_at_second rfl, exec_ppsoutPulse_of_failed_boot rfl⟩
  · rw [natAbs_oNano_after_second hwalk hopen ht]
    exact Nat.sub_add_cancel hfar
  · rw [← Int.natAbs_eq_zero, natAbs_oNano_after_second hwalk hopen ht]
    exact Nat.sub_eq_zero_of_le hnear

end Sys2Proof.Machine

/-!
Quads and lanes (12_lanes.md, 13_link_frames.md): what writing a quad, sending an item and a good control block come to. The proofs on the
lanes rest on these.
-/
namespace Sys2Proof.Machine

/-! ## Quads -/

theorem vset_vset {α : Type} {n : Nat} (v : Vector α n) (i : Nat) (a b : α) : vset (vset v i a) i b = vset v i b := by
  by_cases hi : i < n <;> simp [vset, hi]

/-- The last write of a quad counts. -/
theorem setQuad_setQuad (q : Nat) (x y : QuadState) (s : State) : setQuad q y (setQuad q x s) = setQuad q y s := by
  simp only [setQuad, vset_vset]

/-! ## Items on the lanes of a quad (R287, R301) -/

theorem sendOn_quads (q at_ : Nat) (x : LaneOut) (s : State) : (sendOn q at_ x s).link.quads = s.link.quads := by
  unfold sendOn
  split
  · simp [putOn]
  · rfl

@[simp] theorem quadOf_sendOn (q at_ : Nat) (x : LaneOut) (s : State) (k : Nat) : quadOf (sendOn q at_ x s) k = quadOf s k := by
  simp only [quadOf, sendOn_quads]

theorem sendOn_lanes (q at_ : Nat) (x : LaneOut) (s : State) : (sendOn q at_ x s).out.lanes = s.out.lanes ++ [(q, x)] := by
  unfold sendOn
  split
  · simp [putOn]
  · rfl

/-- Handing an item to a quad leaves its configuration. -/
theorem emitOn_cfg {q : Nat} (hq : q < 16) (x : LaneOut) (s : State) : (quadOf (emitOn q x s) q).cfg = (quadOf s q).cfg := by
  unfold emitOn
  extract_lets u
  split
  · rfl
  · split <;> simp [hq, u]

/-! ## Control blocks (R306, R310) -/

theorem ctlBad_of_good {b : BitVec 64} (hgood : ctlGood b = true) (htype : blkByte b 0 ∈ ctlTypes) : ctlBad b = false := by
  simp [ctlBad, hgood, htype]

theorem ctlBad_of_sleep {b : BitVec 64} {op : Nat} (hgood : ctlGood b = true) (his : isSleep b op = true) : ctlBad b = false := by
  rw [isSleep, decide_eq_true_eq] at his
  exact ctlBad_of_good hgood (by rw [his.1]; decide)

theorem ctlBad_of_seq {b : BitVec 64} {op : Nat} (hgood : ctlGood b = true) (his : isSeq b op = true) : ctlBad b = false := by
  rw [isSeq, decide_eq_true_eq] at his
  exact ctlBad_of_good hgood (by rw [his.1]; decide)

end Sys2Proof.Machine

/-!
Blocks on a lane (R287, R291 to R295): the descrambler undoes the scrambler, what a whole block does to the receiver of a lane, and what
the bits, the retrains and the adaptation of a lane come to; from these O8.
-/
namespace Sys2Proof.Machine

/-! ## The scrambler (R287) -/

/-- The descrambler, whose register holds the bits that were sent, takes out what the scrambler added. -/
theorem descramN_scramN (n x st : Nat) : descramN n (scramN n x st).1 st = (x % 2 ^ n, (scramN n x st).2) := by
  induction n generalizing x st with
  | zero => simp [scramN, descramN, Nat.mod_one]
  | succ n ih =>
    simp only [scramN]
    generalize hb : (x + st / 2 ^ 38 + st / 2 ^ 57) % 2 = b
    generalize hst : (2 * st + b) % 2 ^ 58 = st'
    generalize hr : scramN n (x / 2) st' = r
    have hbit : (b + 2 * r.1) % 2 = b := by omega
    have hrest : (b + 2 * r.1) / 2 = r.1 := by omega
    have hplain : (b + 2 * r.1 + st / 2 ^ 38 + st / 2 ^ 57) % 2 = x % 2 := by omega
    have hih := ih (x / 2) st'
    rw [hr] at hih
    simp only [descramN, hbit, hrest, hplain, hst, hih]
    rw [pow_succ', Nat.mod_mul]

/-! ## A whole block at the receiver (R291, R292) -/

theorem mod_two_pow_add_bit (n k : Nat) : n % 2 ^ k + (if n.testBit k then 2 ^ k else 0) = n % 2 ^ (k + 1) := by
  rw [Nat.mod_pow_succ, ← Nat.toNat_testBit]
  cases n.testBit k <;> simp

/-- The header of a block is invalid: its two bits are equal (R287). -/
def badHeader (w : BitVec 66) : Bool := w.getLsbD 0 == w.getLsbD 1

theorem validHeader_eq (w : BitVec 66) : decide (w.toNat % 4 = 1 ∨ w.toNat % 4 = 2) = !badHeader w := by
  have h0 : w.getLsbD 0 = decide (w.toNat % 2 = 1) := by simp [BitVec.getLsbD, Nat.testBit_zero]
  have h1 : w.getLsbD 1 = decide (w.toNat / 2 % 2 = 1) := by simp [BitVec.getLsbD, Nat.testBit_succ, Nat.testBit_zero]
  rw [badHeader, h0, h1, Bool.eq_iff_iff]
  simp only [decide_eq_true_eq, Bool.not_eq_true', beq_eq_false_iff_ne, ne_eq, decide_eq_decide]
  omega

/-- A receiver that stands at the start of a block. -/
structure RxStep.AtStart (x : RxStep) : Prop where
  have_ : x.rx.have_ = 0
  slip : x.rx.slip = 0
  acc : x.rx.acc = 0

section
variable (up : Bool) (clock : Nat → Nat)

/-- All bits of a block, the first bit first, go through the receiver. -/
def rxWord (x : RxStep) (w : BitVec 66) : RxStep := ((List.range 66).map w.getLsbD).foldl (rxBit up clock) x

theorem foldl_words (ws : List (BitVec 66)) (x : RxStep) :
    (ws.flatMap (fun w => (List.range 66).map w.getLsbD)).foldl (rxBit up clock) x = ws.foldl (rxWord up clock) x :=
  List.foldl_flatMap

variable {up clock} {x : RxStep} (hx : x.AtStart) (w : BitVec 66)
include hx

/-- The first bits of a block only fill the receiver's word. -/
theorem foldl_rxBit_of_part {k : Nat} (hk : k ≤ 65) : ((List.range k).map w.getLsbD).foldl (rxBit up clock) x =
    { x with left := x.left - k, rx := { x.rx with acc := w.toNat % 2 ^ k, have_ := k } } := by
  obtain ⟨⟨acc, have_, slip, hunt, grpN, grpBad, descr, skip, fifo⟩, locked, bad, losses, gained, left⟩ := x
  obtain ⟨rfl, rfl, rfl⟩ := hx
  induction k with
  | zero => simp [Nat.mod_one]
  | succ k ih =>
    have hmore : k < 65 := hk
    simp [List.range_succ, ih (by omega), rxBit, hmore, BitVec.getLsbD, mod_two_pow_add_bit, Nat.sub_sub]

/-- The last bit of a block makes it whole. -/
theorem rxWord_eq : rxWord up clock x w =
    if x.locked then lockWord up (clock (x.left - 66 + 65)) w.toNat { x with left := x.left - 66 }
    else huntWord (!badHeader w) { x with left := x.left - 66 } := by
  have hword : w.toNat % 2 ^ 65 + (if w.getLsbD 65 then 2 ^ 65 else 0) = w.toNat := by
    rw [BitVec.getLsbD, mod_two_pow_add_bit]
    exact Nat.mod_eq_of_lt w.isLt
  rw [rxWord, List.range_succ, List.map_append, List.foldl_append, foldl_rxBit_of_part hx w le_rfl]
  obtain ⟨⟨acc, have_, slip, hunt, grpN, grpBad, descr, skip, fifo⟩, locked, bad, losses, gained, left⟩ := x
  obtain ⟨rfl, rfl, rfl⟩ := hx
  simp only [List.map_cons, List.map_nil, List.foldl_cons, List.foldl_nil, rxBit, lt_irrefl, ↓reduceIte, hword, Nat.sub_sub,
    validHeader_eq]

end

/-! ## The hunt (R291) -/

section
variable {up : Bool} {clock : Nat → Nat} {x : RxStep} {w : BitVec 66} (hx : x.AtStart) (hout : x.locked = false)
include hx hout

theorem rxWord_of_hunt_underway (hgood : badHeader w = false) (hhunt : x.rx.hunt < 63) :
    (rxWord up clock x w).AtStart ∧ (rxWord up clock x w).locked = false ∧ (rxWord up clock x w).bad = x.bad ∧
      (rxWord up clock x w).rx.hunt = x.rx.hunt + 1 := by
  have heq : rxWord up clock x w = { x with left := x.left - 66, rx.hunt := x.rx.hunt + 1 } := by
    simp [rxWord_eq hx, hout, huntWord, hgood, not_le.2 hhunt]
  obtain ⟨hhave, hslip, hacc⟩ := hx
  rw [heq]
  exact ⟨⟨hhave, hslip, hacc⟩, hout, rfl, rfl⟩

theorem rxWord_of_hunt_over (hgood : badHeader w = false) (hhunt : 63 ≤ x.rx.hunt) :
    (rxWord up clock x w).locked = true ∧ (rxWord up clock x w).bad = x.bad := by
  simp [rxWord_eq hx, hout, huntWord, hgood, hhunt]

/-- An invalid header sets the count to 0 and moves the boundary one bit. -/
theorem rxWord_of_hunt_missed (hbad : badHeader w = true) :
    rxWord up clock x w = { x with left := x.left - 66, bad := x.bad + 1, rx := { x.rx with hunt := 0, slip := 1 } } := by
  simp [rxWord_eq hx, hout, huntWord, hbad]

end

/-- As many valid headers in a row as are missing to 64 bring block lock. -/
theorem foldl_rxWord_of_hunt {up : Bool} {clock : Nat → Nat} {ws : List (BitVec 66)} {x : RxStep} (hx : x.AtStart)
    (hout : x.locked = false) (hgood : ∀ w ∈ ws, badHeader w = false) (hhunt : x.rx.hunt ≤ 63)
    (hlen : x.rx.hunt + ws.length = 64) :
    (ws.foldl (rxWord up clock) x).locked = true ∧ (ws.foldl (rxWord up clock) x).bad = x.bad := by
  induction ws generalizing x with
  | nil =>
    rw [List.length_nil] at hlen
    omega
  | cons w ws ih =>
    obtain ⟨hw, hws⟩ := List.forall_mem_cons.1 hgood
    rw [List.length_cons] at hlen
    rw [List.foldl_cons]
    by_cases hlast : x.rx.hunt = 63
    · obtain rfl : ws = [] := List.length_eq_zero_iff.1 (by omega)
      rw [List.foldl_nil]
      exact rxWord_of_hunt_over hx hout hw hlast.ge
    · obtain ⟨hx', hout', hbad, hnext⟩ := rxWord_of_hunt_underway (up := up) (clock := clock) hx hout hw (by omega)
      exact (ih hx' hout' hws (by omega) (by omega)).imp_right (·.trans hbad)

/-! ## In lock (R292) -/

/-- What the lock of a receiver depends on: in lock or not, the invalid headers and the losses so far, and the group under way. -/
def RxStep.counts (x : RxStep) : Bool × Nat × Nat × Nat × Nat := (x.locked, x.bad, x.losses, x.rx.grpN, x.rx.grpBad)

theorem counts_lockWord (up : Bool) (at_ : Nat) (w : BitVec 66) (x : RxStep) : (lockWord up at_ w.toNat x).counts =
    if 16 ≤ x.rx.grpBad + (badHeader w).toNat then (false, x.bad + (badHeader w).toNat, x.losses + 1, 0, 0)
    else if 63 ≤ x.rx.grpN then (x.locked, x.bad + (badHeader w).toNat, x.losses, 0, 0)
    else (x.locked, x.bad + (badHeader w).toNat, x.losses, x.rx.grpN + 1, x.rx.grpBad + (badHeader w).toNat) := by
  have hbad : (if decide (w.toNat % 4 = 1 ∨ w.toNat % 4 = 2) = true then 0 else 1) = (badHeader w).toNat := by
    rw [validHeader_eq]
    cases badHeader w <;> rfl
  simp only [lockWord, hbad]
  split
  · rfl
  · split <;> rfl

theorem lockWord_atStart {up : Bool} {at_ w : Nat} {x : RxStep} (hx : x.AtStart) : (lockWord up at_ w x).AtStart := by
  obtain ⟨hhave, hslip, hacc⟩ := hx
  unfold lockWord
  extract_lets
  split
  · exact ⟨hhave, hslip, hacc⟩
  · split <;> exact ⟨hhave, hslip, hacc⟩

section
variable {up : Bool} {clock : Nat → Nat} {x : RxStep} (hx : x.AtStart) (hin : x.locked = true)
include hx hin

theorem rxWord_atStart (w : BitVec 66) : (rxWord up clock x w).AtStart := by
  rw [rxWord_eq hx, if_pos hin]
  obtain ⟨hhave, hslip, hacc⟩ := hx
  exact lockWord_atStart ⟨hhave, hslip, hacc⟩

theorem counts_rxWord (w : BitVec 66) : (rxWord up clock x w).counts =
    if 16 ≤ x.rx.grpBad + (badHeader w).toNat then (false, x.bad + (badHeader w).toNat, x.losses + 1, 0, 0)
    else if 63 ≤ x.rx.grpN then (true, x.bad + (badHeader w).toNat, x.losses, 0, 0)
    else (true, x.bad + (badHeader w).toNat, x.losses, x.rx.grpN + 1, x.rx.grpBad + (badHeader w).toNat) := by
  rw [rxWord_eq hx, if_pos hin, counts_lockWord]
  simp only [hin]

end

/-- Within a group, invalid headers that do not come to 16 are only counted. -/
theorem foldl_rxWord_of_group {up : Bool} {clock : Nat → Nat} {ws : List (BitVec 66)} {x : RxStep} (hx : x.AtStart)
    (hin : x.locked = true) (hlen : x.rx.grpN + ws.length ≤ 63) (hbad : x.rx.grpBad + ws.countP badHeader < 16) :
    (ws.foldl (rxWord up clock) x).AtStart ∧ (ws.foldl (rxWord up clock) x).counts =
      (true, x.bad + ws.countP badHeader, x.losses, x.rx.grpN + ws.length, x.rx.grpBad + ws.countP badHeader) := by
  induction ws generalizing x with
  | nil => exact ⟨hx, by simp [RxStep.counts, hin]⟩
  | cons w ws ih =>
    have hcount : (w :: ws).countP badHeader = (badHeader w).toNat + ws.countP badHeader := by
      rw [List.countP_cons, Nat.add_comm]
      cases badHeader w <;> rfl
    rw [List.length_cons] at hlen ⊢
    rw [hcount] at hbad ⊢
    have hw := counts_rxWord (up := up) (clock := clock) hx hin w
    rw [if_neg (by omega), if_neg (by omega)] at hw
    simp only [RxStep.counts, Prod.mk.injEq] at hw
    obtain ⟨hlock, hbads, hlosses, hN, hB⟩ := hw
    rw [List.foldl_cons]
    obtain ⟨hstart, hcounts⟩ := ih (rxWord_atStart hx hin w) hlock (by omega) (by omega)
    refine ⟨hstart, hcounts.trans ?_⟩
    rw [hbads, hlosses, hN, hB]
    simp only [Prod.mk.injEq, true_and]
    omega

theorem countP_badHeader_concat (ws : List (BitVec 66)) (w : BitVec 66) :
    (ws ++ [w]).countP badHeader = ws.countP badHeader + (badHeader w).toNat := by
  rw [List.countP_append]
  cases hw : badHeader w <;> simp [hw]

/-- The last block of a list behind others of the same group. -/
theorem counts_foldl_rxWord_concat {up : Bool} {clock : Nat → Nat} {ws : List (BitVec 66)} {w : BitVec 66} {x : RxStep} (hx : x.AtStart)
    (hin : x.locked = true) (hN : x.rx.grpN = 0) (hB : x.rx.grpBad = 0) (hlen : ws.length ≤ 63) (hbad : ws.countP badHeader < 16) :
    ((ws ++ [w]).foldl (rxWord up clock) x).counts =
      if 16 ≤ ws.countP badHeader + (badHeader w).toNat then
        (false, x.bad + (ws.countP badHeader + (badHeader w).toNat), x.losses + 1, 0, 0)
      else if 63 ≤ ws.length then (true, x.bad + (ws.countP badHeader + (badHeader w).toNat), x.losses, 0, 0)
      else (true, x.bad + (ws.countP badHeader + (badHeader w).toNat), x.losses, ws.length + 1,
        ws.countP badHeader + (badHeader w).toNat) := by
  obtain ⟨hstart, hcounts⟩ := foldl_rxWord_of_group (up := up) (clock := clock) (ws := ws) hx hin (by omega) (by omega)
  simp only [RxStep.counts, Prod.mk.injEq, hN, hB, zero_add] at hcounts
  obtain ⟨hlock, hbads, hlosses, hgrpN, hgrpBad⟩ := hcounts
  rw [List.foldl_append, List.foldl_cons, List.foldl_nil, counts_rxWord hstart hlock, hbads, hlosses, hgrpN, hgrpBad, Nat.add_assoc]

section
variable {up : Bool} {clock : Nat → Nat} {ws : List (BitVec 66)} {x : RxStep} (hx : x.AtStart) (hin : x.locked = true)
  (hN : x.rx.grpN = 0) (hB : x.rx.grpBad = 0)
include hx hin hN hB

/-- Fewer than 16 invalid headers in a group of 64 keep the lock, and the next group starts. -/
theorem counts_foldl_rxWord_of_kept (hlen : ws.length = 64) (hbad : ws.countP badHeader < 16) :
    (ws.foldl (rxWord up clock) x).counts = (true, x.bad + ws.countP badHeader, x.losses, 0, 0) := by
  obtain rfl | ⟨l, w, rfl⟩ := ws.eq_nil_or_concat'
  · rw [List.length_nil] at hlen
    omega
  · rw [countP_badHeader_concat] at hbad ⊢
    rw [List.length_append, List.length_singleton] at hlen
    rw [counts_foldl_rxWord_concat hx hin hN hB (by omega) (by omega), if_neg (by omega), if_pos (by omega)]

/-- The sixteenth invalid header of a group loses it. -/
theorem counts_foldl_rxWord_of_lost (hlen : ws.length ≤ 64) (hbad : ws.countP badHeader = 16)
    (hlast : ∀ w, ws.getLast? = some w → badHeader w = true) :
    (ws.foldl (rxWord up clock) x).counts = (false, x.bad + 16, x.losses + 1, 0, 0) := by
  obtain rfl | ⟨l, w, rfl⟩ := ws.eq_nil_or_concat'
  · simp at hbad
  · have hw : (badHeader w).toNat = 1 := by rw [hlast w List.getLast?_concat, Bool.toNat_true]
    rw [countP_badHeader_concat] at hbad
    rw [List.length_append, List.length_singleton] at hlen
    rw [counts_foldl_rxWord_concat hx hin hN hB (by omega) (by omega), if_pos (by omega), hbad]

end

/-! ## The bits of a command (R292 to R295) -/

/-- In lock, or lock was lost before. -/
def RxStep.HeldOrLost (x : RxStep) : Prop := x.locked = true ∨ 0 < x.losses

section
variable {x : RxStep} (h : x.HeldOrLost)
include h

theorem huntWord_heldOrLost (valid : Bool) : (huntWord valid x).HeldOrLost := by
  unfold huntWord
  split
  · split
    · exact Or.inl rfl
    · exact h
  · exact h

theorem lockWord_heldOrLost (up : Bool) (at_ w : Nat) : (lockWord up at_ w x).HeldOrLost := by
  unfold lockWord
  extract_lets
  split
  · exact Or.inr (Nat.succ_pos _)
  · split <;> exact h

theorem rxBit_heldOrLost (up : Bool) (clock : Nat → Nat) (b : Bool) : (rxBit up clock x b).HeldOrLost := by
  unfold rxBit
  extract_lets
  split
  · exact h
  · split
    · exact h
    · split
      · apply lockWord_heldOrLost
        exact h
      · apply huntWord_heldOrLost
        exact h

end

/-- Lock that the bits of a command take away is a loss that they count. -/
theorem losses_pos_of_lock_lost {up : Bool} {clock : Nat → Nat} {bits : List Bool} {x : RxStep} (hin : x.locked = true)
    (hout : (bits.foldl (rxBit up clock) x).locked = false) : 0 < (bits.foldl (rxBit up clock) x).losses := by
  have hall : (bits.foldl (rxBit up clock) x).HeldOrLost :=
    List.foldlRecOn (motive := RxStep.HeldOrLost) bits _ (Or.inl hin) (fun y hy b _ => rxBit_heldOrLost hy up clock b)
  exact hall.resolve_left (Bool.eq_false_iff.1 hout)

section
variable {lane : Nat} {bits arrived : List Bool} {u v : State} {x y : LaneState} (hused : laneUsed u lane = true)
  (hawake : rxAsleep u (lane / 4) = false) (hr : receiveBits lane true bits u = (arrived, v)) (hx : laneOf v lane = x)
include hused hawake hr hx

theorem blockBits_of_adapting (hadapt : x.adapting = true) : blockBits lane bits u =
    setLane lane { x with sig := x.sig || !arrived.isEmpty, cdr := x.cdr || !arrived.isEmpty } v := by
  simp only [blockBits, hused, hawake, hr, hx, hadapt, Bool.not_false, Bool.and_self, ↓reduceIte]

variable (hadapt : x.adapting = false)
  (hy : rxLane (delivers v (lane / 4)) (bitTime v.tw (laneRate (fld (quadOf v (lane / 4)).cfg 5 2))) v.now arrived x = y)
include hadapt hy

theorem blockBits_of_lock_gained_with_adapt (hout : x.lock = false) (hset : rbit x.eq 13 = true) :
    blockBits lane bits u = setLane lane y v := by
  have heq : y.eqSet = x.eqSet := by rw [← hy]; rfl
  simp only [blockBits, hused, hawake, hr, hx, hadapt, hy, hout, hset, ← heq, Bool.not_false, Bool.not_true, Bool.and_self,
    Bool.and_false, Bool.false_and, Bool.false_eq_true, ↓reduceIte]

/-- While LANE_EQ.ADAPT is 0 the lane in lock gets new settings, a free value (R295). -/
theorem blockBits_of_lock_gained (hout : x.lock = false) (hin : y.lock = true) (hset : rbit x.eq 13 = false) :
    blockBits lane bits u = setLane lane { y with eqSet := (v.drawFree 32).1 } (v.drawFree 32).2 := by
  simp only [blockBits, hused, hawake, hr, hx, hadapt, hy, hout, hin, hset, Bool.not_false, Bool.and_self, Bool.false_and,
    Bool.false_eq_true, ↓reduceIte]

theorem blockBits_of_lock_lost (hin : x.lock = true) (hout : y.lock = false) :
    blockBits lane bits u = quadDown (lane / 4) (setLane lane y (openRecovery 0 (lane / 4) v)) := by
  have heq : y.eqSet = x.eqSet := by rw [← hy]; rfl
  have hnew : (y.lock && !rbit x.eq 13) = false := by rw [hout, Bool.false_and]
  have hloss := losses_pos_of_lock_lost (up := delivers v (lane / 4))
    (clock := bitTime v.tw (laneRate (fld (quadOf v (lane / 4)).cfg 5 2))) (bits := arrived)
    (x := ⟨x.rx, x.lock, 0, 0, false, arrived.length⟩) hin ((congrArg LaneState.lock hy).trans hout)
  simp only [hin] at hloss
  simp only [blockBits, hused, hawake, hr, hx, hadapt, hy, hin, hnew, hloss, ← heq, decide_true, Bool.not_false, Bool.and_self,
    Bool.false_eq_true, ↓reduceIte]

end

theorem exec_blockLockAcquired {t : Tick} {s u v : State} (hu : s.advance t = u) {lane : Fin 64} {bits : List Bool}
    (hv : blockBits lane.val bits u = v) : exec (.blockLockAcquired t lane bits) s = .next (pull (laneQuad lane) v) := by
  rw [exec, execBlockLockAcquired, hu, hv]

theorem exec_blockLockLost {t : Tick} {s u v : State} (hu : s.advance t = u) {lane : Fin 64} {bits : List Bool}
    (hv : blockBits lane.val bits u = v) : exec (.blockLockLost t lane bits) s = .next (pull (laneQuad lane) v) := by
  rw [exec, execBlockLockLost, hu, hv]

/-! ## Retraining and adaptation (R294, R295) -/

/-- A lane out of lock that is retrained at an instant. -/
def LaneState.retrained (x : LaneState) (now : Nat) : LaneState :=
  { x with
    adapting := true, cdr := false, outSince := now, eqSet := 0, rx := BlockRx.reset, retrain := bump 32 x.retrain 1
    retrains := x.retrains + 1 }

section
variable {lane : Nat} {u : State} {x : LaneState} (hx : laneOf u lane = x) (hout : x.lock = false)
include hx hout

/-- A retrain sets FAULT when three in a row have ended without lock (log entry 21). -/
theorem retrain_of_three (hfault : x.fault = false) (hthree : 3 ≤ x.retrains) :
    retrain lane u = postEvent 0x62 lane [] (setLane lane { x.retrained u.now with fault := true } u) := by
  simp [retrain, startAdapt, LaneState.retrained, hx, hout, hfault, hthree]

theorem retrain_of_no_new_fault (h : x.fault = true ∨ x.retrains < 3) : retrain lane u = setLane lane (x.retrained u.now) u := by
  have hnone : (decide (3 ≤ x.retrains) && !x.fault) = false := by
    obtain hfault | hfew := h
    · rw [hfault, Bool.not_true, Bool.and_false]
    · rw [decide_eq_false (not_le.2 hfew), Bool.false_and]
  simp [retrain, startAdapt, LaneState.retrained, hx, hout, hnone]

end

section
variable {t : Tick} {lane : Fin 64} {s u : State} {x : LaneState} (hu : s.advance t = u) (hx : laneOf u lane.val = x)
include hu hx

theorem exec_laneRetrain_of_due (hused : laneUsed u lane.val = true) (hout : x.lock = false)
    (hawake : rxAsleep u (lane.val / 4) = false)
    (hlong : (if x.fault then 1000 else if x.adapting then 51 else 1) * tickHz ≤ (u.now - x.outSince) * 1000) :
    exec (.laneRetrain t lane) s = .next (retrain lane.val u) := by
  rw [exec, execLaneRetrain]
  simp only [hu, hx, hout, hused, hawake, atLeastMs, hlong, decide_true, Bool.not_false, Bool.and_self, ↓reduceIte]

theorem exec_adaptationDone_of_adapting (hadapt : x.adapting = true) :
    exec (.adaptationDone t lane) s = .next (setLane lane.val { x with
      adapting := false, outSince := if x.fault then x.outSince else u.now, eqSet := (u.drawFree 32).1 + 1 } (u.drawFree 32).2) := by
  rw [exec, execAdaptationDone]
  simp only [hu, hx, hadapt, ↓reduceIte]

end

/-- Settles O8: the scrambler bit by bit, the receiver block by block, each command by its own lemma. The fault at the fourth retrain that is
due and the 51 ms of a lane that adapts (log entry 21), and settings as free values (92), are the model's choices. -/
theorem laneLockFollowsTheHeaders : Obligations.LaneLockFollowsTheHeaders := by
  refine ⟨fun x st _ => descramN_scramN 64 x st, ?_, ?_⟩
  · intro ws up clock x hhave hslip hacc y bad
    have hx : x.AtStart := ⟨hhave, hslip, hacc⟩
    have hy : y = ws.foldl (rxWord up clock) x := foldl_words up clock ws x
    rw [hy]
    refine ⟨fun hout hhunt hlen hbad => ?_, fun hout hlen hbad => ?_, fun hin hN hB hlen hbad => ?_, fun hin hN hB hlen hbad hlast => ?_⟩
    · have hgood : ∀ w ∈ ws, badHeader w = false := fun w hw => Bool.eq_false_iff.2 (List.countP_eq_zero.1 hbad w hw)
      exact foldl_rxWord_of_hunt hx hout hgood (by omega) (by omega)
    · obtain ⟨w, rfl⟩ := List.length_eq_one_iff.1 hlen
      have hw : badHeader w = true := by simpa [bad, badHeader] using hbad
      rw [List.foldl_cons, List.foldl_nil, rxWord_of_hunt_missed hx hout hw]
      exact ⟨hout, rfl, rfl, rfl⟩
    · have hcounts := counts_foldl_rxWord_of_kept (up := up) (clock := clock) hx hin hN hB hlen hbad
      simp only [RxStep.counts, Prod.mk.injEq] at hcounts
      exact hcounts
    · have hcounts := counts_foldl_rxWord_of_lost (up := up) (clock := clock) hx hin hN hB hlen hbad
        fun w hw => beq_iff_eq.2 (hlast w hw)
      simp only [RxStep.counts, Prod.mk.injEq] at hcounts
      obtain ⟨hlock, hbads, hlosses, -⟩ := hcounts
      exact ⟨hlock, hbads, hlosses⟩
  · intro t lane bits s u x
    refine ⟨fun hused hawake => ⟨fun hadapt => ?_, fun hadapt hout hin hset => ?_, fun hadapt hout hin hset => ?_,
      fun hadapt hin hout => ?_⟩, fun hused hout hawake hfault hlong => ⟨fun hfew => ?_, fun hthree => ?_⟩,
      fun hused hout hawake hfault hlong => ?_, exec_adaptationDone_of_adapting rfl rfl⟩
    · exact exec_blockLockAcquired rfl (blockBits_of_adapting hused hawake rfl rfl hadapt)
    · exact exec_blockLockAcquired rfl (blockBits_of_lock_gained_with_adapt hused hawake rfl rfl hadapt rfl hout hset)
    · exact exec_blockLockAcquired rfl (blockBits_of_lock_gained hused hawake rfl rfl hadapt rfl hout hin hset)
    · exact exec_blockLockLost rfl (blockBits_of_lock_lost hused hawake rfl rfl hadapt rfl hin hout)
    · rw [exec_laneRetrain_of_due rfl rfl hused hout hawake (by rwa [hfault]), retrain_of_no_new_fault rfl hout (Or.inr hfew)]
      rfl
    · rw [exec_laneRetrain_of_due rfl rfl hused hout hawake (by rwa [hfault]), retrain_of_three rfl hout hfault hthree]
      rfl
    · rw [exec_laneRetrain_of_due rfl rfl hused hout hawake (by rwa [hfault]), retrain_of_no_new_fault rfl hout (Or.inl hfault)]
      rfl

end Sys2Proof.Machine

/-!
The pattern checker (R296, R297; the taps are those of log entry 93): how it follows its generator into lock and how mismatches take it
out, and what the bits on a lane with a checker do; from these O10.
-/
namespace Sys2Proof.Machine

/-! ## The shift registers -/

theorem prbsTaps_range (code : Nat) : 1 ≤ (prbsTaps code).2 ∧ (prbsTaps code).2 ≤ (prbsTaps code).1 ∧ (prbsTaps code).1 ≤ 31 := by
  unfold prbsTaps
  split <;> decide

theorem prbsNext_lt_two (code reg : Nat) : prbsNext code reg < 2 := Nat.mod_lt _ two_pos

/-- Registers that agree in their low `n` bits agree in each of these bits. -/
theorem div_two_pow_mod_two_of_modEq {a b n i : Nat} (h : a ≡ b [MOD 2 ^ n]) (hi : i < n) : a / 2 ^ i % 2 = b / 2 ^ i % 2 := by
  have hbit : a.testBit i = b.testBit i := by
    have := congrArg (Nat.testBit · i) h
    simpa only [Nat.testBit_mod_two_pow, hi, decide_true, Bool.true_and] using this
  rw [← Nat.toNat_testBit, hbit, Nat.toNat_testBit]

/-- The next bit depends on the pattern's own degree of bits. -/
theorem prbsNext_of_modEq {code a b : Nat} (h : a ≡ b [MOD 2 ^ (prbsTaps code).1]) : prbsNext code a = prbsNext code b := by
  obtain ⟨hm, hmn, -⟩ := prbsTaps_range code
  have hn := div_two_pow_mod_two_of_modEq (i := (prbsTaps code).1 - 1) h (by omega)
  have hm := div_two_pow_mod_two_of_modEq (i := (prbsTaps code).2 - 1) h (by omega)
  rw [prbsNext, prbsNext, Nat.add_mod, hn, hm, ← Nat.add_mod]

/-- The same bit shifted into two registers: one more low bit agrees. -/
theorem shiftIn_modEq {a b j k : Nat} (h : a ≡ b [MOD 2 ^ j]) (hk : k ≤ j + 1) (hk' : k ≤ 31) (bit : Nat) :
    shiftIn a bit ≡ shiftIn b bit [MOD 2 ^ k] := by
  have hdouble : 2 * a + bit ≡ 2 * b + bit [MOD 2 ^ (j + 1)] := by
    rw [pow_succ']
    exact (h.mul_left' 2).add_right bit
  have hmod (c : Nat) : shiftIn c bit ≡ 2 * c + bit [MOD 2 ^ k] := (Nat.mod_modEq _ _).of_dvd (pow_dvd_pow 2 hk')
  exact (hmod a).trans ((hdouble.of_dvd (pow_dvd_pow 2 hk)).trans (hmod b).symm)

/-! ## The generator's bits at the checker -/

/-- What the generator makes of its register's next bit when no error is to be put in. -/
def genBit (code : Nat) (inv : Bool) (gen : Nat) : Bool := xor (decide (prbsNext code gen = 1)) (xor (prbsInv code) inv)

theorem genBits_succ {code n : Nat} {inv : Bool} {t : LaneTx} (h : t.inject = 0) : genBits code inv (n + 1) t =
    (genBit code inv t.gen :: (genBits code inv n { t with gen := shiftIn t.gen (prbsNext code t.gen) }).1,
      (genBits code inv n { t with gen := shiftIn t.gen (prbsNext code t.gen) }).2) := by
  obtain ⟨gen, inject, rest, pos, marker, scr⟩ := t
  subst h
  simp [genBits, genBit]

/-- The checker takes out the inversion that the generator put in. -/
theorem received_genBit (code : Nat) (inv : Bool) (gen : Nat) :
    (if xor (genBit code inv gen) (xor (prbsInv code) inv) then 1 else 0) = prbsNext code gen := by
  have := prbsNext_lt_two code gen
  rw [genBit, Bool.xor_assoc, Bool.xor_self, Bool.xor_false]
  simp only [decide_eq_true_eq]
  split <;> omega

theorem received_not_genBit (code : Nat) (inv : Bool) (gen : Nat) :
    (if xor (!genBit code inv gen) (xor (prbsInv code) inv) then 1 else 0) ≠ prbsNext code gen := by
  have := prbsNext_lt_two code gen
  rw [genBit, Bool.not_xor, Bool.xor_assoc, Bool.xor_self, Bool.xor_false]
  simp only [Bool.not_eq_true', decide_eq_false_iff_not]
  split <;> omega

/-! ## Into lock (R297) -/

/-- The checker after `i` bits of a generator whose register is now `gen`: it holds the last of them, as many as the pattern's degree at
most, has counted the matches behind those that filled it, and is in lock from the 1,024th match on. -/
structure Follows (code i gen : Nat) (x : Checker × Bool × Nat) : Prop where
  loaded : x.1.loaded = min i (prbsTaps code).1
  reg : x.1.reg ≡ gen [MOD 2 ^ min i (prbsTaps code).1]
  run : x.2.1 = false → x.1.run = i - (prbsTaps code).1
  locked : x.2.1 = decide ((prbsTaps code).1 + 1024 ≤ i)
  grpBad : x.1.grpBad = 0
  errs : x.2.2 = 0

theorem follows_reset (code gen : Nat) : Follows code 0 gen (Checker.reset, false, 0) where
  loaded := by simp [Checker.reset]
  reg := by simp [Nat.modEq_one]
  run := by simp [Checker.reset]
  locked := by simp
  grpBad := rfl
  errs := rfl

/-- Each further bit of the generator fills the register, counts as a match, or is predicted in lock. -/
theorem Follows.step {code i gen : Nat} {x : Checker × Bool × Nat} (inv : Bool) (h : Follows code i gen x) :
    Follows code (i + 1) (shiftIn gen (prbsNext code gen)) (chkBit code inv x (genBit code inv gen)) := by
  obtain ⟨⟨reg, loaded, run, grpN, grpBad⟩, locked, errs⟩ := x
  obtain ⟨hloaded, hreg, hrun, hlocked, hgrpBad, herrs⟩ := h
  obtain ⟨-, -, hn⟩ := prbsTaps_range code
  dsimp only at hloaded hreg hrun hlocked hgrpBad herrs
  subst hgrpBad herrs
  have hnext : shiftIn reg (prbsNext code gen) ≡ shiftIn gen (prbsNext code gen) [MOD 2 ^ min (i + 1) (prbsTaps code).1] :=
    shiftIn_modEq hreg (by omega) (by omega) _
  by_cases hfill : i < (prbsTaps code).1
  · have hout : locked = false := by rw [hlocked, decide_eq_false (by omega)]
    have hload : loaded < (prbsTaps code).1 := by omega
    simp only [chkBit, received_genBit, hout, hload, Bool.false_eq_true, ↓reduceIte]
    exact ⟨by dsimp only; omega, hnext, fun _ => (hrun hout).trans (by omega), (decide_eq_false (by omega)).symm, rfl, rfl⟩
  · have hsame : prbsNext code reg = prbsNext code gen := prbsNext_of_modEq (by rwa [Nat.min_eq_right (by omega)] at hreg)
    have hload : ¬ loaded < (prbsTaps code).1 := by omega
    have hloaded' : loaded = min (i + 1) (prbsTaps code).1 := by omega
    cases hlock : locked with
    | true =>
      have hlong : (prbsTaps code).1 + 1024 ≤ i := of_decide_eq_true (hlocked.symm.trans hlock)
      simp only [chkBit, received_genBit, hsame, Nat.add_zero, Nat.reduceLeDiff, ↓reduceIte]
      split
      · exact ⟨hloaded', hnext, nofun, (decide_eq_true (by omega)).symm, rfl, rfl⟩
      · exact ⟨hloaded', hnext, nofun, (decide_eq_true (by omega)).symm, rfl, rfl⟩
    | false =>
      have hshort : ¬ (prbsTaps code).1 + 1024 ≤ i := of_decide_eq_false (hlocked.symm.trans hlock)
      have hrun' := hrun hlock
      simp only [chkBit, received_genBit, hsame, hload, zero_ne_one, Bool.false_eq_true, ↓reduceIte]
      split
      · exact ⟨hloaded', hnext, nofun, (decide_eq_true (by omega)).symm, rfl, rfl⟩
      · exact ⟨hloaded', hnext, fun _ => by dsimp only; omega, (decide_eq_false (by omega)).symm, rfl, rfl⟩

theorem Follows.foldl_genBits {code i n : Nat} {inv : Bool} {t : LaneTx} {x : Checker × Bool × Nat} (hinj : t.inject = 0)
    (h : Follows code i t.gen x) :
    Follows code (i + n) (genBits code inv n t).2.gen ((genBits code inv n t).1.foldl (chkBit code inv) x) := by
  induction n generalizing i t x with
  | zero => exact h
  | succ n ih =>
    rw [genBits_succ hinj, List.foldl_cons, Nat.add_comm n 1, ← Nat.add_assoc]
    exact ih (t := { t with gen := shiftIn t.gen (prbsNext code t.gen) }) hinj (h.step inv)

/-! ## Out of lock (R297) -/

/-- A bit that is not the predicted one counts; the 128th of a group loses the lock. -/
theorem chkBit_of_miss (code : Nat) (inv : Bool) (c : Checker) (e : Nat) : chkBit code inv (c, true, e) (!genBit code inv c.reg) =
    if 128 ≤ c.grpBad + 1 then (Checker.reset, false, e + 1)
    else if 1023 ≤ c.grpN then ({ c with reg := shiftIn c.reg (prbsNext code c.reg), grpN := 0, grpBad := 0 }, true, e + 1)
    else ({ c with
      reg := shiftIn c.reg (prbsNext code c.reg), grpN := c.grpN + 1, grpBad := c.grpBad + 1 }, true, e + 1) := by
  simp only [chkBit, received_not_genBit, ↓reduceIte]

theorem foldl_chkBit_of_misses {code n e : Nat} {inv : Bool} {t : LaneTx} {c : Checker} (hinj : t.inject = 0) (hgen : t.gen = c.reg)
    (hbad : c.grpBad + (n + 1) = 128) (hN : c.grpN + (n + 1) ≤ 1024) :
    (((genBits code inv (n + 1) t).1.map not).foldl (chkBit code inv) (c, true, e)).2 = (false, e + (n + 1)) := by
  induction n generalizing t c e with
  | zero => rw [genBits_succ hinj, List.map_cons, List.foldl_cons, hgen, chkBit_of_miss, if_pos hbad.ge]; rfl
  | succ n ih =>
    rw [genBits_succ hinj, List.map_cons, List.foldl_cons, hgen, chkBit_of_miss, if_neg (by omega), if_neg (by omega),
      ih (t := { t with gen := shiftIn c.reg (prbsNext code c.reg) }) hinj rfl (by dsimp only; omega) (by dsimp only; omega),
      Nat.add_comm (n + 1) 1, Nat.add_assoc]

/-! ## The bits of a command (R296 to R298) -/

theorem checkBits_of_on {lane : Nat} {u : State} (hon : checkerOn u lane = true) (bits : List Bool) : checkBits lane bits u =
    setLane lane (chkLane (receiveBits lane false bits u).1 (laneOf (receiveBits lane false bits u).2 lane))
      (receiveBits lane false bits u).2 := by
  rw [checkBits, if_pos hon]

/-- Without a loop and a generator the bits of the pins arrive, with their polarity (LANE_EQ.RX_INV), and nothing is sent. -/
theorem receiveBits_of_direct {lane : Nat} {u : State} (hloop : loopOf u lane = 0) (hgen : genOn u lane = false) (forBlocks : Bool)
    (bits : List Bool) : receiveBits lane forBlocks bits u = (bits.map (fun b => xor b (rbit (laneOf u lane).eq 16)), u) := by
  simp only [receiveBits, hloop, hgen, Bool.false_eq_true, ↓reduceIte]

section
variable {t : Tick} {lane : Fin 64} {bits : List Bool} {s u : State} (hu : s.advance t = u)
include hu

theorem exec_prbsLockAcquired : exec (.prbsLockAcquired t ⟨lane, bits⟩) s = .next (checkBits lane.val bits u) := by
  rw [exec, execPrbsLockAcquired, hu]

theorem exec_prbsLockLost : exec (.prbsLockLost t lane bits) s = .next (checkBits lane.val bits u) := by
  rw [exec, execPrbsLockLost, hu]

end

/-- Settles O10: bit by bit the checker follows its generator, and each bit that it does not predict counts. The taps of the patterns are log
entry 93's. -/
theorem patternLockAndItsLoss : Obligations.PatternLockAndItsLoss := by
  refine ⟨fun code k inv tx _ _ hinj => ?_, fun code e inv c _ _ hN hB => ?_, fun t lane bits s => ⟨fun hon => ⟨?_, ?_⟩, fun hloop hgen => ?_⟩⟩
  · have h := (follows_reset code tx.gen).foldl_genBits (n := (prbsTaps code).1 + 1024 + k) (inv := inv) hinj
    exact Prod.ext (h.locked.trans (decide_eq_true (by omega))) h.errs
  · exact foldl_chkBit_of_misses rfl rfl (by omega) (by omega)
  · rw [exec_prbsLockAcquired rfl, checkBits_of_on hon]
    rfl
  · rw [exec_prbsLockLost rfl, checkBits_of_on hon]
    rfl
  · exact receiveBits_of_direct hloop hgen false bits

end Sys2Proof.Machine

/-!
Alignment (R289, R293, R333): what a set of markers does to a quad; from these O9.
-/
namespace Sys2Proof.Machine

/-! ## A quad that becomes up (R293) -/

theorem quadHas_of_cfg {s v : State} {q : Nat} (h : (quadOf v q).cfg = (quadOf s q).cfg) (role : Nat) :
    quadHas v q role = quadHas s q role := by
  rw [quadHas, quadHas, quadRole, quadRole, h]

theorem retries_of_cfg {s v : State} {q : Nat} (h : (quadOf v q).cfg = (quadOf s q).cfg) : retries v q = retries s q := by
  simp only [retries, quadHas_of_cfg h]

theorem quadOf_postEvent (code subject : Nat) (args : Bytes) (s : State) (q : Nat) :
    quadOf (postEvent code subject args s) q = quadOf s q := by
  simp only [quadOf, postEvent_frame]

theorem ackNow_cfg {q : Nat} (hq : q < 16) (s : State) : (quadOf (ackNow q s) q).cfg = (quadOf s q).cfg := by
  unfold ackNow
  split
  · exact emitOn_cfg hq _ s
  · rfl

theorem quadUp_cfg {q : Nat} (hq : q < 16) (s : State) : (quadOf (quadUp q s) q).cfg = (quadOf s q).cfg := by
  rw [quadUp, ackNow_cfg hq, quadOf_postEvent, quadOf_setQuad _ _ _ hq]

/-! ## Sets of markers (R289) -/

section
variable {t : Tick} {q : Fin 16} {ms : List MarkerSeen} {s u : State} {x : QuadState} (hu : s.advance t = u)
  (hen : rbit (quadOf u q.val).cfg 0 = true) (hawake : rxAsleep u q.val = false)
  (hx : { quadOf u q.val with ssc := ms.any (·.spread) } = x)
include hu hen hawake hx

theorem exec_alignmentMarker_of_bad (hbad : markersGood u q.val ms = false) :
    exec (.alignmentMarker t q ms) s = .next (quadDown q.val (setQuad q.val x u)) := by
  rw [exec, execAlignmentMarker]
  simp only [hu, hen, hawake, hbad, hx, Bool.not_true, Bool.or_self, Bool.false_eq_true, ↓reduceIte]

variable {v : State} (hgood : markersGood u q.val ms = true)
  (hv : setQuad q.val { x with rx := { x.rx with st := .active }, rxK := if x.rx.st = .waking then 0 else x.rxK } u = v)
include hgood hv

theorem exec_alignmentMarker_of_up (hup : (quadOf u q.val).up = true) : exec (.alignmentMarker t q ms) s = .next v := by
  subst hx hv
  rw [exec, execAlignmentMarker]
  simp only [hu, hen, hawake, hgood, hup, Bool.not_true, Bool.or_self, Bool.false_eq_true, ↓reduceIte]

/-- A quad with retry then sends what waits, with the configuration it had. -/
theorem exec_alignmentMarker_of_down (hdown : (quadOf u q.val).up = false) : exec (.alignmentMarker t q ms) s =
    .next (if retries u q.val then pump q.val (quadUp q.val v) else quadUp q.val v) := by
  have hcfg : (quadOf (quadUp q.val v) q.val).cfg = (quadOf u q.val).cfg := by
    rw [quadUp_cfg q.isLt, ← hv, quadOf_setQuad _ _ _ q.isLt, ← hx]
  rw [← retries_of_cfg hcfg]
  subst hx hv
  rw [exec, execAlignmentMarker]
  simp only [hu, hen, hawake, hgood, hdown, Bool.not_true, Bool.or_self, Bool.false_eq_true, ↓reduceIte]

end

/-- Settles O9: a good set by whether the quad is up, and a bad one. The lanes of quad-up as a mask
(log entry 20) are the model's choice; the end of a lane recovery one second later is R457's. -/
theorem quadAlignsOnAGoodMarkerSet : Obligations.QuadAlignsOnAGoodMarkerSet := by
  intro t q ms s u x v w z hen hawake
  exact ⟨fun hgood => exec_alignmentMarker_of_down rfl hen hawake rfl hgood rfl,
    fun hgood => exec_alignmentMarker_of_up rfl hen hawake rfl hgood rfl, exec_alignmentMarker_of_bad rfl hen hawake rfl⟩

end Sys2Proof.Machine

/-!
The sleep handshake (R302, R338, R339): how a request and its answer end, at either end; from these O12.
-/
namespace Sys2Proof.Machine

section
variable {t : Tick} {q : Fin 16} {b : BitVec 64} {s u : State} {x : QuadState} (hu : s.advance t = u) (hx : quadOf u q.val = x)
include hu hx

section
variable (hup : x.up = true) (hgood : ctlGood b = true)
include hup hgood

/-! ## The requester (R338) -/

section
variable (hreq : x.tx.reqAt ≠ none) (htoken : ctlHi b = x.tx.token)
include hreq htoken

theorem exec_sleepNakReceived_of_answer (his : isSleep b 3 = true) : exec (.sleepNakReceived t q b) s =
    .next (setQuad q.val { x with tx := { x.tx with reqAt := none, idleAt := u.now } } u) := by
  have hsome := Option.isSome_iff_ne_none.2 hreq
  rw [exec, execSleepNakReceived]
  simp only [hu, hx, hup, ctlBad_of_sleep hgood his, his, hsome, htoken, decide_true, Bool.not_true, Bool.and_self, Bool.false_eq_true,
    ↓reduceIte]

variable (his : isSleep b 2 = true)
include his

theorem exec_sleepAckReceived_of_abort (hstop : x.tx.wakeSeen = true ∨ min (ctlParam b % 4) (txAllowed u q.val) = 0) :
    exec (.sleepAckReceived t q b) s = .next (abortReq q.val u) := by
  have hsome := Option.isSome_iff_ne_none.2 hreq
  have hno : (x.held.isEmpty && x.txq.isEmpty && !x.tx.wakeSeen && decide (1 ≤ min (ctlParam b % 4) (txAllowed u q.val))) = false := by
    obtain hwake | hnone := hstop
    · rw [hwake, Bool.not_true, Bool.and_false, Bool.false_and]
    · rw [hnone, decide_eq_false (by decide), Bool.and_false]
  rw [exec, execSleepAckReceived]
  simp only [hu, hx, hup, ctlBad_of_sleep hgood his, his, hsome, htoken, hno, decide_true, Bool.not_true, Bool.and_self,
    Bool.false_eq_true, ↓reduceIte]

theorem exec_sleepAckReceived_of_commit (hheld : x.held = []) (htxq : x.txq = []) (hwake : x.tx.wakeSeen = false) {v : State}
    (hgrant : 1 ≤ min (ctlParam b % 4) (txAllowed u q.val))
    (hv : emitOn q.val (.block (sleepBlock 4 x.tx.token (ctlParam b))) u = v) :
    exec (.sleepAckReceived t q b) s = .next (setQuad q.val { quadOf v q.val with tx := { (quadOf v q.val).tx with
      st := .doze, reqAt := none, granted := min (ctlParam b % 4) (txAllowed u q.val), sleepAfter := ctlParam b / 4, since := v.now } } v) := by
  have hsome := Option.isSome_iff_ne_none.2 hreq
  rw [exec, execSleepAckReceived]
  simp only [hu, hx, hup, ctlBad_of_sleep hgood his, his, hsome, htoken, hheld, htxq, hwake, hgrant, hv, List.isEmpty_nil, decide_true,
    Bool.not_true, Bool.not_false, Bool.and_self, Bool.false_eq_true, ↓reduceIte]

end

/-! ## The far end (R339) -/

theorem exec_commitReceived_of_token (hack : x.rx.ackAt ≠ none) (htoken : ctlHi b = x.rx.token) (his : isSleep b 4 = true) :
    exec (.commitReceived t q b) s = .next (rxDoze q.val u) := by
  have hsome := Option.isSome_iff_ne_none.2 hack
  rw [exec, execCommitReceived]
  simp only [hu, hx, hup, ctlBad_of_sleep hgood his, his, hsome, htoken, decide_true, Bool.not_true, Bool.and_self, Bool.false_eq_true,
    ↓reduceIte]

theorem exec_abortReceived_of_up (his : isSleep b 5 = true) : exec (.abortReceived t q b) s =
    .next (setQuad q.val { x with rx := { x.rx with ackAt := none } } u) := by
  rw [exec, execAbortReceived]
  simp only [hu, hx, hup, ctlBad_of_sleep hgood his, his, Bool.not_true, Bool.false_eq_true, ↓reduceIte]

end

/-! ## Answers that do not come -/

theorem exec_sleepReqTimeout_of_late {r : Nat} (hreq : x.tx.reqAt = some r) (hlong : 250 * tickHz ≤ (u.now - r) * 1000000) :
    exec (.sleepReqTimeout t q) s = .next (abortReq q.val u) := by
  rw [exec, execSleepReqTimeout]
  simp only [hu, hx, hreq, atLeastUs, hlong, decide_true, ↓reduceIte]

theorem exec_signalLostAfterAck_of_soon {a : Nat} (hack : x.rx.ackAt = some a) (hsoon : (u.now - a) * 1000000 ≤ 250 * tickHz) :
    exec (.signalLostAfterAck t q) s = .next (setSig q.val false (rxDoze q.val u)) := by
  rw [exec, execSignalLostAfterAck]
  simp only [hu, hx, hack, hsoon, decide_true, ↓reduceIte]

end

/-! ## The receive direction dozes where Table 12-5 lets it (R302) -/

theorem rxDoze_of_allowed {q : Nat} {u : State} (h : 1 ≤ rxAllowed u q) : rxDoze q u = setSig q false
    (setQuad q { quadOf u q with rx := { (quadOf u q).rx with st := .doze, ackAt := none, since := u.now } } u) := by
  rw [rxDoze, if_pos h]

theorem rxDoze_of_forbidden {q : Nat} {u : State} (h : rxAllowed u q = 0) :
    rxDoze q u = sendWake q (setQuad q { quadOf u q with rx := { (quadOf u q).rx with ackAt := none } } u) := by
  rw [rxDoze, if_neg (by omega)]

/-- Settles O12, command by command; a COMMIT by whether Table 12-5 lets the receive direction sleep. -/
theorem sleepHandshakeCommitsOrAborts : Obligations.SleepHandshakeCommitsOrAborts := by
  intro t q b s u x _ hup grant
  refine ⟨fun hgood his hreq htoken hheld htxq hwake hgrant =>
      exec_sleepAckReceived_of_commit rfl rfl hup hgood hreq htoken his hheld htxq hwake hgrant rfl,
    fun hgood his hreq htoken => exec_sleepAckReceived_of_abort rfl rfl hup hgood hreq htoken his,
    fun hgood his hreq htoken => exec_sleepNakReceived_of_answer rfl rfl hup hgood hreq htoken his,
    fun r => exec_sleepReqTimeout_of_late rfl rfl, fun hgood his hack htoken => ⟨fun hmay => ?_, fun hforbid => ?_⟩,
    fun hgood => exec_abortReceived_of_up rfl rfl hup hgood, fun a hack hsoon hmay => ?_⟩
  · rw [exec_commitReceived_of_token rfl rfl hup hgood hack htoken his, rxDoze_of_allowed hmay]
  · rw [exec_commitReceived_of_token rfl rfl hup hgood hack htoken his, rxDoze_of_forbidden hforbid]
  · rw [exec_signalLostAfterAck_of_soon rfl rfl hack hsoon, rxDoze_of_allowed hmay]

end Sys2Proof.Machine

/-!
SLEEP and the wake (R300 to R302, R338 to R341): what each command does to a direction that sleeps or wakes, and what a wake puts on the
lanes; from these O13.
-/
namespace Sys2Proof.Machine

/-! ## A direction starts to wake (R301) -/

theorem startWake_of_asleep {q : Nat} {u : State} {x : QuadState} (hx : quadOf u q = x) (h : x.tx.st = .doze ∨ x.tx.st = .sleep) :
    startWake q u = setQuad q { x with tx := { x.tx with st := .waking } } u := by
  obtain h | h := h
  · simp only [startWake, hx, h]
  · simp only [startWake, hx, h]

/-! ## Items sent in a row (R341) -/

theorem quadOf_foldl_sendOn (q k : Nat) (l : List (Nat × LaneOut)) (s : State) :
    quadOf (l.foldl (fun s y => sendOn q y.1 y.2 s) s) k = quadOf s k :=
  foldl_keeps (quadOf · k) _ l s fun u y _ => quadOf_sendOn q y.1 y.2 u k

/-- They stand on the lanes in their order. -/
theorem foldl_sendOn_lanes (q : Nat) (l : List (Nat × LaneOut)) (s : State) :
    (l.foldl (fun s y => sendOn q y.1 y.2 s) s).out.lanes = s.out.lanes ++ l.map (fun y => (q, y.2)) := by
  induction l generalizing s with
  | nil => simp
  | cons y l ih => rw [List.foldl_cons, ih, sendOn_lanes, List.append_assoc, List.map_cons, List.singleton_append]

/-- What a transmit direction that wakes sends: 128 idle blocks on each lane, a marker set and what waited. -/
def wakeItems (q : Nat) (u : State) : List (Nat × LaneOut) :=
  (u.now, LaneOut.idle 128) :: (u.now, LaneOut.markerSet (vget u.link.coder q Coder.reset).marker) :: (quadOf u q).held

section
variable {t : Tick} {q : Fin 16} {s u : State} {x : QuadState} (hu : s.advance t = u) (hx : quadOf u q.val = x)
include hu hx

/-! ## SLEEP after sleep-after (R338, R339) -/

theorem exec_sleepAfterExpiry_of_tx (hst : x.tx.st = .doze) (hgranted : x.tx.granted = 2) (hmay : txAllowed u q.val = 2)
    (hlong : x.tx.sleepAfter * tickHz ≤ (u.now - x.tx.since) * 1000) :
    exec (.sleepAfterExpiry t q true) s = .next (setQuad q.val { x with tx := { x.tx with st := .sleep } } u) := by
  rw [exec, execSleepAfterExpiry]
  simp only [hu, hx, hst, hgranted, hmay, atLeastMs, hlong, decide_true, and_self, ↓reduceIte]

theorem exec_sleepAfterExpiry_of_rx (hst : x.rx.st = .doze) (hgranted : x.rx.granted = 2) (hmay : rxAllowed u q.val = 2)
    (hlong : x.rx.sleepAfter * tickHz ≤ (u.now - x.rx.since) * 1000) :
    exec (.sleepAfterExpiry t q false) s = .next (setQuad q.val { x with rx := { x.rx with st := .sleep } } u) := by
  rw [exec, execSleepAfterExpiry]
  simp only [hu, hx, hst, hgranted, hmay, atLeastMs, hlong, decide_true, and_self, Bool.false_eq_true, ↓reduceIte]

/-! ## Waking (R339 to R341) -/

section
variable {b : BitVec 64} (hup : x.up = true) (hgood : ctlGood b = true) (his : isSleep b 6 = true)
include hup hgood his

theorem exec_wakeReceived_of_request (hreq : x.tx.reqAt ≠ none) : exec (.wakeReceived t q b) s =
    .next (setQuad q.val { x with tx := { x.tx with wakeSeen := true } } u) := by
  have hsome := Option.isSome_iff_ne_none.2 hreq
  rw [exec, execWakeReceived]
  simp only [hu, hx, hup, ctlBad_of_sleep hgood his, his, hsome, Bool.not_true, Bool.false_eq_true, ↓reduceIte]

theorem exec_wakeReceived_of_no_request (hreq : x.tx.reqAt = none) : exec (.wakeReceived t q b) s = .next (startWake q.val u) := by
  rw [exec, execWakeReceived]
  simp only [hu, hx, hup, ctlBad_of_sleep hgood his, his, hreq, Option.isSome_none, Bool.not_true, Bool.false_eq_true, ↓reduceIte]

end

theorem exec_txWake_of_waking (hst : x.tx.st = .waking) : exec (.txWake t q) s =
    .next ((wakeItems q.val u).foldl (fun s y => sendOn q.val y.1 y.2 s) (setQuad q.val { x with
      held := [], tx := { x.tx with st := .active, since := u.now, idleAt := u.now } } u)) := by
  rw [exec, execTxWake]
  simp only [hu, hx, hst, wakeItems, List.cons_append, List.nil_append, ↓reduceIte]

theorem exec_signalDetect_of_asleep (hsleep : rxAsleep u q.val = true) : exec (.signalDetect t q) s =
    .next (setSig q.val true (setQuad q.val { x with rx := { x.rx with st := .waking, ackAt := none } } u)) := by
  rw [exec, execSignalDetect]
  simp only [hu, hx, hsleep, ↓reduceIte]

end

/-- Settles O13, command by command; what a wake leaves on the lanes and of the quad follows from the items it sends in a row. -/
theorem sleepAndWake : Obligations.SleepAndWake := by
  intro t q b s u x _
  refine ⟨exec_sleepAfterExpiry_of_tx rfl rfl, exec_sleepAfterExpiry_of_rx rfl rfl, exec_wakeReceived_of_request rfl rfl,
    fun hup hgood his hreq hst => ?_, fun hst => ⟨exec_txWake_of_waking rfl rfl hst, _, exec_txWake_of_waking rfl rfl hst,
      foldl_sendOn_lanes _ _ _, ?_, ?_⟩, exec_signalDetect_of_asleep rfl rfl⟩
  · rw [exec_wakeReceived_of_no_request rfl rfl hup hgood his hreq, startWake_of_asleep rfl hst]
  · rw [quadOf_foldl_sendOn, quadOf_setQuad _ _ _ q.isLt]
  · rw [quadOf_foldl_sendOn, quadOf_setQuad _ _ _ q.isLt]

end Sys2Proof.Machine

/-!
The send window (R332): what an ACK, a NAK and the retry timeout do on a quad with retry; from these O15.
-/
namespace Sys2Proof.Machine

section
variable {t : Tick} {q : Fin 16} {s u : State} {x : QuadState} (hu : s.advance t = u) (hx : quadOf u q.val = x)
  (hretries : retries u q.val = true)
include hu hx hretries

section
variable {b : BitVec 64} (hup : x.up = true) (hgood : ctlGood b = true)
include hup hgood

theorem exec_ackReceived_of_in_flight (his : isSeq b 1 = true) (hin : seqDist x.oldest (ctlParam b) < seqDist x.oldest x.txSeq) :
    exec (.ackReceived t q b) s = .next (pump q.val (ackUpTo q.val ((ctlParam b + 1) % 65536) u)) := by
  rw [exec, execAckReceived]
  simp only [hu, hx, hup, hretries, ctlBad_of_seq hgood his, his, hin, Bool.not_true, Bool.and_self, Bool.false_eq_true, ↓reduceIte]

theorem exec_nakReceived_of_window (his : isSeq b 2 = true) (hin : seqDist x.oldest (ctlParam b) ≤ seqDist x.oldest x.txSeq) :
    exec (.nakReceived t q b) s = .next (resendAll q.val (ackUpTo q.val (ctlParam b) u)) := by
  rw [exec, execNakReceived]
  simp only [hu, hx, hup, hretries, ctlBad_of_seq hgood his, his, hin, Bool.not_true, Bool.and_self, Bool.false_eq_true, ↓reduceIte]

end

/-- Every unacknowledged frame is due again, from the oldest, and the timer runs anew. -/
theorem exec_retryTimeout_of_late (hsome : x.oldest ≠ x.txSeq)
    (hlong : max 1 (fld x.linkCfg 0 14) * tickHz ≤ (u.now - x.ackAt) * 1000000) : exec (.retryTimeout t q) s =
    .next (pump q.val (setQuad q.val { x with resend := seqRange x.oldest x.txSeq, ackAt := u.now } u)) := by
  rw [exec, execRetryTimeout]
  simp only [hu, hx, hretries, hsome, atLeastUs, hlong, resendAll, quadOf_setQuad _ _ _ q.isLt, setQuad_setQuad, ne_eq,
    not_false_eq_true, decide_true, Bool.and_self, ↓reduceIte]

end

/-- Settles O15, command by command. -/
theorem acknowledgementMovesTheWindow : Obligations.AcknowledgementMovesTheWindow := by
  intro t q b s u x _ hretries
  exact ⟨exec_ackReceived_of_in_flight rfl rfl hretries, exec_nakReceived_of_window rfl rfl hretries,
    exec_retryTimeout_of_late rfl rfl hretries⟩

end Sys2Proof.Machine

/-!
What every step keeps: the commands that wait behind the front, and the key store of R472 and R473, which only SECURITY.CTL tightens; from
these O1, O3, O4 and O5. The frame table promises more than the model keeps (O2).
-/
namespace Sys2Proof.Machine

/-! ## The key store (R472, R473) -/

/-- `g` is `f` or tighter: what R472 and R473 let happen to the key store. -/
structure Fuses.TightensTo (f g : Fuses) : Prop where
  raises : f.raises ≤ 64 → g.raises ≤ 64
  svnMin : f.svnMin ≤ g.svnMin
  revoked : f.revoked &&& g.revoked = f.revoked
  dbgFused : f.dbgFused = true → g.dbgFused = true
  part : g.part = f.part
  serial : g.serial = f.serial
  keys : g.keys = f.keys

theorem Fuses.TightensTo.refl (f : Fuses) : f.TightensTo f :=
  ⟨id, le_rfl, BitVec.and_self, id, rfl, rfl, rfl⟩

theorem Fuses.TightensTo.trans {f g h : Fuses} (hfg : f.TightensTo g) (hgh : g.TightensTo h) : f.TightensTo h where
  raises := hgh.raises ∘ hfg.raises
  svnMin := hfg.svnMin.trans hgh.svnMin
  revoked := by rw [← hfg.revoked, BitVec.and_assoc, hgh.revoked]
  dbgFused := hgh.dbgFused ∘ hfg.dbgFused
  part := hgh.part.trans hfg.part
  serial := hgh.serial.trans hfg.serial
  keys := hgh.keys.trans hfg.keys

theorem commitSvn_tightens (s : State) : s.boot.fuses.TightensTo (commitSvn s).boot.fuses := by
  unfold commitSvn
  extract_lets v
  split
  case isTrue h =>
    obtain ⟨⟨_, hlow⟩, hroom⟩ : (s.boot.fwSlot.isSome = true ∧ s.boot.fuses.svnMin < v) ∧ s.boot.fuses.raises < 64 := by
      simpa using h
    exact ⟨fun _ => hroom, hlow.le, BitVec.and_self, id, rfl, rfl, rfl⟩
  case isFalse => exact .refl _

theorem revokeSlots_tightens (m : BitVec 4) (s : State) : s.boot.fuses.TightensTo (revokeSlots m s).boot.fuses :=
  ⟨id, le_rfl, BitVec.eq_of_getLsbD_eq fun i _ => by simpa [revokeSlots] using .inl, id, rfl, rfl, rfl⟩

theorem dbgFused_tightens (f : Fuses) : f.TightensTo { f with dbgFused := true } :=
  ⟨id, le_rfl, BitVec.and_self, fun _ => rfl, rfl, rfl, rfl⟩

/-! ## What a command keeps -/

/-- `t` holds the commands that wait in `s`, and a key store that is no looser. -/
structure Onward (s t : State) : Prop where
  pending : t.pending = s.pending
  fuses : s.boot.fuses.TightensTo t.boot.fuses

theorem Onward.of_fuses {s t : State} (h : t.pending = s.pending ∧ t.boot.fuses = s.boot.fuses) : Onward s t :=
  ⟨h.1, h.2 ▸ .refl _⟩

theorem Onward.of_boot {s t : State} (h : t.pending = s.pending ∧ t.boot = s.boot) : Onward s t :=
  .of_fuses ⟨h.1, by rw [h.2]⟩

theorem Onward.refl (s : State) : Onward s s := .of_boot ⟨rfl, rfl⟩

theorem Onward.trans {s t u : State} (hst : Onward s t) (htu : Onward t u) : Onward s u :=
  ⟨htu.pending.trans hst.pending, hst.fuses.trans htu.fuses⟩

theorem Onward.ite {c : Prop} [Decidable c] {s t u : State} (ht : Onward s t) (hu : Onward s u) : Onward s (if c then t else u) := by
  split
  · exact ht
  · exact hu

theorem Onward.advance {t : Tick} {s u : State} (h : Onward (s.advance t) u) : Onward s u :=
  .trans (.of_boot (by simp)) h

/-! ## Accesses (R409 to R411, R476 to R486) -/

/-- SECURITY.CTL: DBG_LOCK, DBG_FUSE, SVN_COMMIT, then REVOKE (Table 18-8). -/
theorem writeSecurityCtl_onward (v : Reg) (s : State) : Onward s (writeSecurityCtl v s) :=
  have hlock (u : State) : Onward u { u with boot.dbgLock := true } := .of_fuses ⟨rfl, rfl⟩
  have hfuse (u : State) : Onward u { u with boot.fuses.dbgFused := true } := ⟨rfl, dbgFused_tightens _⟩
  have hcommit (u : State) : Onward u (commitSvn u) := ⟨by simp, commitSvn_tightens u⟩
  have hrevoke (u : State) : Onward u (revokeSlots (BitVec.ofNat 4 (fld v 3 4)) u) := ⟨by simp, revokeSlots_tightens _ u⟩
  (((Onward.ite (hlock _) (.refl _)).trans (.ite (hfuse _) (.refl _))).trans (.ite (hcommit _) (.refl _))).trans (hrevoke _)

theorem storeReg_onward (m : Master) (r : RegId) (v : Reg) (s : State) : Onward s (storeReg m r v s) := by
  cases r with
  | secCtl => exact writeSecurityCtl_onward v s
  | _ => exact .of_fuses ⟨by simp, by simp only [storeReg]; repeat' split
                                      all_goals simp⟩

theorem accFlag_onward (flags : BitVec 4) (s : State) : Onward s (accFlag flags s) := .of_fuses (by simp)

/-- What an early write leaves (R466). -/
theorem earlyWr_onward (off : Nat) (s : State) : Onward s (if bankServed s off then s else { s with boot.earlyWr := true }) :=
  .ite (.refl s) (.of_fuses ⟨rfl, rfl⟩)

theorem regWrite32_onward (m : Master) (off : Nat) (v : Reg) (s : State) : Onward s (regWrite32 m off v s) := by
  have hstore (u : State) : Onward u (match regAt off with
      | none => u
      | some r => if reservedCode r v then accFlag 4 u else storeReg m r v u) := by
    split
    · exact .refl u
    · exact .ite (accFlag_onward _ _) (storeReg_onward _ _ _ _)
  exact (earlyWr_onward off s).trans (.ite (accFlag_onward _ _) (.ite (.refl _) (hstore _)))

theorem regWrite_onward (m : Master) (off : Nat) (width : AccessWidth) (v : BitVec 64) (s : State) :
    Onward s (regWrite m off width v s) := by
  refine .ite (.refl s) (.ite (accFlag_onward _ _) ?_)
  split
  · exact (regWrite32_onward _ _ _ _).trans (regWrite32_onward _ _ _ _)
  · exact regWrite32_onward _ _ _ _
  · exact (earlyWr_onward off s).trans (accFlag_onward _ _)

theorem serve_onward (m : Master) (x : XTarget) (a : Access) (s : State) : Onward s (serve m x a s) := by
  cases a with
  | write off w v =>
    simp only [serve]
    split
    · exact regWrite_onward _ _ _ _ _
    · exact .of_boot (by simp)
  | read off w => exact .of_fuses (by simp only [serve]; split <;> simp)
  | openLock => exact .of_boot (by simp only [serve]; split <;> simp)

theorem access_onward (m : Master) (x : XTarget) (a : Access) (s : State) : Onward s (access m x a s) := by
  unfold access
  repeat' split
  case h_1 => exact serve_onward _ _ _ _
  case h_2.isTrue => exact .trans (.of_boot (by simp)) (serve_onward _ _ _ _)
  all_goals exact .of_boot (by simp)

theorem serveOne_onward (p : XTarget × Master × Access) (s : State) : Onward s (serveOne p s) := by
  have h (u : State) (hu : Onward s u) : Onward s (access p.2.1 p.1 p.2.2 u) := hu.trans (access_onward _ _ _ _)
  exact (h { s with mgmt.waiting := [] } (.of_boot ⟨rfl, rfl⟩)).trans (.of_boot ⟨rfl, rfl⟩)

theorem serveWaiting_onward (n last : Nat) (s : State) : Onward s (serveWaiting n last s) := by
  induction n generalizing last s with
  | zero => exact .refl s
  | succ n ih =>
    unfold serveWaiting
    split
    · exact .refl s
    · exact (serveOne_onward _ _).trans (ih _ _)

theorem releaseTarget_onward {m : Master} {s u : State} (h : Onward s u) : Onward s (releaseTarget m u) :=
  h.trans (serveWaiting_onward _ _ _)

theorem accessAt_onward (m : Master) (addr : Nat) (a : Access) (s : State) : Onward s (accessAt m addr a s) := by
  unfold accessAt
  split
  · exact .of_boot (by simp)
  · exact access_onward _ _ _ _

theorem execCrossbarLock_onward {t : Tick} {m : Master} {x : XTarget} {unlock : Bool} {s u : State}
    (h : execCrossbarLock t m x unlock s = .next u) : Onward s u := by
  apply Onward.advance (t := t)
  unfold execCrossbarLock at h
  dsimp only at h
  repeat' split at h
  all_goals cases h
  case isFalse.isTrue => exact access_onward _ _ _ _
  case h_1.isTrue => exact releaseTarget_onward (.of_boot (by simp))
  all_goals exact .of_boot (by simp)

theorem execCrossbarLockBroken_onward {t : Tick} {x : XTarget} {s u : State} (h : execCrossbarLockBroken t x s = .next u) : Onward s u := by
  apply Onward.advance (t := t)
  unfold execCrossbarLockBroken at h
  dsimp only at h
  repeat' split at h
  all_goals cases h
  case h_1.isTrue => exact releaseTarget_onward (.of_boot ⟨rfl, rfl⟩)
  all_goals exact .refl _

/-- A command that is one access. -/
theorem onward_of_access {f : State → State} (hf : ∀ s, Onward s (f s)) {t : Tick} {s u : State}
    (h : Host.Outcome.next (φ := Fault) (ρ := Refusal) (f (s.advance t)) = .next u) : Onward s u := by
  cases h
  exact (hf _).advance

/-! ## Resets (R464) -/

theorem porReset_onward (s : State) : Onward s (porReset s) := .of_fuses ⟨rfl, rfl⟩

theorem sysReset_onward (s : State) : Onward s (sysReset s) := .of_fuses ⟨sysReset_pending s, sysReset_fuses s⟩

theorem execResetAssert_onward {t : Tick} {pin : ResetPin} {s u : State} (h : execResetAssert t pin s = .next u) : Onward s u := by
  refine .of_fuses ⟨?_, execResetAssert_fuses t pin s h⟩
  cases pin with
  | porst => cases h; simp [porReset]
  | sysrst =>
    simp only [execResetAssert] at h
    split at h
    all_goals (cases h; simp [sysReset_pending])

theorem execPorstRelease_onward {t : Tick} {mode : BitVec 2} {s u : State} (h : execPorstRelease t mode s = .next u) : Onward s u := by
  refine .of_fuses ⟨?_, execPorstRelease_fuses t mode s h⟩
  cases h
  simp [porReset]

theorem execSysrstRelease_onward {t : Tick} {mode : BitVec 2} {s u : State} (h : execSysrstRelease t mode s = .next u) : Onward s u := by
  refine .of_fuses ⟨?_, execSysrstRelease_fuses t mode s h⟩
  simp only [execSysrstRelease] at h
  split at h
  all_goals (cases h; simp [sysReset_pending])

/-! ## Every step -/

/-- Command by command: the frame lemmas leave the boot block or its fuses, an access writes SECURITY.CTL, and a reset keeps the fuses. -/
theorem exec_onward {i : Instr} {s u : State} (h : exec i s = .next u) : Onward s u := by
  cases i with
  | nop t d data => exact .of_boot (by simp only [execNop_frame t d data s h, and_self])
  | counterReadOut t d data => exact .of_boot (by simp only [execCounterReadOut_frame t d data s h, and_self])
  | presetReadOut t d data => exact .of_boot (by simp only [execPresetReadOut_frame t d data s h, and_self])
  | clearUntrusted t d data => exact .of_boot (by simp only [execClearUntrusted_frame t d data s h, and_self])
  | elementTableChange t d data => exact .of_boot (by simp only [execElementTableChange_frame t d data s h, and_self])
  | groupDescriptor t d data => exact .of_boot (by simp only [execGroupDescriptor_frame t d data s h, and_self])
  | groupStart t d data => exact .of_boot (by simp only [execGroupStart_frame t d data s h, and_self])
  | groupStop t d data => exact .of_boot (by simp only [execGroupStop_frame t d data s h, and_self])
  | prototypeLoad t d data => exact .of_boot (by simp only [execPrototypeLoad_frame t d data s h, and_self])
  | gainTableLoad t d data => exact .of_boot (by simp only [execGainTableLoad_frame t d data s h, and_self])
  | planLoad t d data => exact .of_boot (by simp only [execPlanLoad_frame t d data s h, and_self])
  | scheduleLoad t d data => exact .of_boot (by simp only [execScheduleLoad_frame t d data s h, and_self])
  | beamSetLoad t d data => exact .of_boot (by simp only [execBeamSetLoad_frame t d data s h, and_self])
  | taperTableLoad t d data => exact .of_boot (by simp only [execTaperTableLoad_frame t d data s h, and_self])
  | weightTableLoad t d data => exact .of_boot (by simp only [execWeightTableLoad_frame t d data s h, and_self])
  | glintBeamSetLoad t d data => exact .of_boot (by simp only [execGlintBeamSetLoad_frame t d data s h, and_self])
  | waveformTableLoad t d data => exact .of_boot (by simp only [execWaveformTableLoad_frame t d data s h, and_self])
  | transmitProgramLoad t d data => exact .of_boot (by simp only [execTransmitProgramLoad_frame t d data s h, and_self])
  | driveMapLoad t d data => exact .of_boot (by simp only [execDriveMapLoad_frame t d data s h, and_self])
  | driveGroupLoad t d data => exact .of_boot (by simp only [execDriveGroupLoad_frame t d data s h, and_self])
  | routingSetLoad t d data => exact .of_boot (by simp only [execRoutingSetLoad_frame t d data s h, and_self])
  | sceneLoad t d data => exact .of_boot (by simp only [execSceneLoad_frame t d data s h, and_self])
  | lightboxTableLoad t d data => exact .of_boot (by simp only [execLightboxTableLoad_frame t d data s h, and_self])
  | imageUnload t d data => exact .of_boot (by simp only [execImageUnload_frame t d data s h, and_self])
  | productBinding t d data => exact .of_boot (by simp only [execProductBinding_frame t d data s h, and_self])
  | shed t d data => exact .of_boot (by simp only [execShed_frame t d data s h, and_self])
  | restore t d data => exact .of_boot (by simp only [execRestore_frame t d data s h, and_self])
  | beamSetSwitch t d data => exact .of_boot (by simp only [execBeamSetSwitch_frame t d data s h, and_self])
  | glintConfigure t d data => exact .of_boot (by simp only [execGlintConfigure_frame t d data s h, and_self])
  | glintDetector t d data => exact .of_boot (by simp only [execGlintDetector_frame t d data s h, and_self])
  | glintArm t d data => exact .of_boot (by simp only [execGlintArm_frame t d data s h, and_self])
  | glintSetSwitch t d data => exact .of_boot (by simp only [execGlintSetSwitch_frame t d data s h, and_self])
  | glintPinClear t d data => exact .of_boot (by simp only [execGlintPinClear_frame t d data s h, and_self])
  | driveGroupStart t d data => exact .of_boot (by simp only [execDriveGroupStart_frame t d data s h, and_self])
  | transmitStart t d data => exact .of_boot (by simp only [execTransmitStart_frame t d data s h, and_self])
  | transmitStop t d data => exact .of_boot (by simp only [execTransmitStop_frame t d data s h, and_self])
  | echoCalibration t d data => exact .of_boot (by simp only [execEchoCalibration_frame t d data s h, and_self])
  | loadWatchClear t d data => exact .of_boot (by simp only [execLoadWatchClear_frame t d data s h, and_self])
  | audioConfigure t d data => exact .of_boot (by simp only [execAudioConfigure_frame t d data s h, and_self])
  | routingSwap t d data => exact .of_boot (by simp only [execRoutingSwap_frame t d data s h, and_self])
  | surfaceWrite t d data => exact .of_boot (by simp only [execSurfaceWrite_frame t d data s h, and_self])
  | monitorSnapshot t d data => exact .of_boot (by simp only [execMonitorSnapshot_frame t d data s h, and_self])
  | engineFence t d data => exact .of_boot (by simp only [execEngineFence_frame t d data s h, and_self])
  | twinHandover t d data => exact .of_boot (by simp only [execTwinHandover_frame t d data s h, and_self])
  | twinClaim t d data => exact .of_boot (by simp only [execTwinClaim_frame t d data s h, and_self])
  | twinMap t d data => exact .of_boot (by simp only [execTwinMap_frame t d data s h, and_self])
  | doorbellPoll t block => exact .of_boot (by simp only [execDoorbellPoll_frame t block s h, and_self])
  | descriptorFetched t bytes data => exact .of_boot (by simp only [execDescriptorFetched_frame t bytes data s h, and_self])
  | commandReadFailed t bytes cause => exact .of_boot (by simp only [execCommandReadFailed_frame t bytes cause s h, and_self])
  | deferredCompletion t index => exact .of_boot (by simp only [execDeferredCompletion_frame t index s h, and_self])
  | writeJobReadback t job result => exact .of_boot (by simp only [execWriteJobReadback_frame t job result s h, and_self])
  | statusBlockRefresh t => exact .of_boot (by simp only [execStatusBlockRefresh_frame t s h, and_self])
  | eventQueueDrain t => exact .of_boot (by simp only [execEventQueueDrain_frame t s h, and_self])
  | outletTakeRecord t o ecc => exact .of_boot (by simp only [execOutletTakeRecord_frame t o ecc s h, and_self])
  | trailerWrite t o => exact .of_boot (by simp only [execTrailerWrite_frame t o s h, and_self])
  | sourceRingRead t ring bytes => exact .of_boot (by simp only [execSourceRingRead_frame t ring bytes s h, and_self])
  | msixTimerExpiry t v => exact .of_boot (by simp only [execMsixTimerExpiry_frame t v s h, and_self])
  | hostLinkLoss t cause => exact .of_boot (by simp only [execHostLinkLoss_frame t cause s h, and_self])
  | pcieLinkTrained t gen link => exact .of_boot (by simp only [execPcieLinkTrained_frame t gen link s h, and_self])
    | hostifEnable | hostBootGo | timeSetArm | refSuspectClear | sclkCfgWrite | laneRestart | errInj | laneCntClr | linkClr |
    quadEnable | quadDisable | hbmApply | hbmCntClr | gdlySelWrite | windowStart | windowStop | twinCtlWrite | dbgLock | dbgFuse |
    svnCommit | revoke =>
    exact onward_of_access (access_onward _ _ _) h
  | latchedLoRead => exact onward_of_access (access_onward _ _ _) h
  | badRegisterRead => exact onward_of_access (accessAt_onward _ _ _) h
  | registerWrite => exact onward_of_access (accessAt_onward _ _ _) h
  | crossbarLock _ _ _ _ => exact execCrossbarLock_onward h
  | crossbarLockBroken _ _ => exact execCrossbarLockBroken_onward h
  | porstRelease _ _ => exact execPorstRelease_onward h
  | sysrstRelease _ _ => exact execSysrstRelease_onward h
  | bootSelfCheckDone t =>
    exact .of_fuses (by simp only [execBootSelfCheckDone_frame t s h, execBootSelfCheckDone_fuses t s h, and_self])
  | firmwareImageRead t image =>
    exact .of_fuses (by simp only [execFirmwareImageRead_frame t image s h, execFirmwareImageRead_fuses t image s h, and_self])
  | hbmTrainingDone t trained => exact .of_boot (by simp only [execHbmTrainingDone_frame t trained s h, and_self])
  | firmwareReady t failed =>
    exact .of_fuses (by simp only [execFirmwareReady_frame t failed s h, execFirmwareReady_fuses t failed s h, and_self])
  | thermalSample t temps => exact .of_boot (by simp only [execThermalSample_frame t temps s h, and_self])
  | thermalCeilingStep t => exact .of_boot (by simp only [execThermalCeilingStep_frame t s h, and_self])
  | powerCapCheck t deviceMw domainMw => exact .of_boot (by simp only [execPowerCapCheck_frame t deviceMw domainMw s h, and_self])
  | stewardHeartbeatMiss t st => exact .of_boot (by simp only [execStewardHeartbeatMiss_frame t st s h, and_self])
  | slackWindowEval t d => exact .of_boot (by simp only [execSlackWindowEval_frame t d s h, and_self])
  | voltageSettled t d => exact .of_boot (by simp only [execVoltageSettled_frame t d s h, and_self])
  | ceilingLoweringStep t d => exact .of_boot (by simp only [execCeilingLoweringStep_frame t d s h, and_self])
  | blockRelease t e => exact .of_boot (by simp only [execBlockRelease_frame t e s h, and_self])
  | afterimageWriteTimeout t e block => exact .of_boot (by simp only [execAfterimageWriteTimeout_frame t e block s h, and_self])
  | conditioningSlice t engine glintAccepts =>
    exact .of_boot (by simp only [execConditioningSlice_frame t engine glintAccepts s h, and_self])
  | channeliserFrame t e => exact .of_boot (by simp only [execChanneliserFrame_frame t e s h, and_self])
  | sourceStatsRecord t plan => exact .of_boot (by simp only [execSourceStatsRecord_frame t plan s h, and_self])
  | cornerTurnSend t plan pchan dest room =>
    exact .of_boot (by simp only [execCornerTurnSend_frame t plan pchan dest room s h, and_self])
  | strokeRelease t plan pchan => exact .of_boot (by simp only [execStrokeRelease_frame t plan pchan s h, and_self])
  | engineSlotStart t engine ecc => exact .of_boot (by simp only [execEngineSlotStart_frame t engine ecc s h, and_self])
  | engineHandoff t engine carried => exact .of_boot (by simp only [execEngineHandoff_frame t engine carried s h, and_self])
  | inkwellUpdate t engine ecc => exact .of_boot (by simp only [execInkwellUpdate_frame t engine ecc s h, and_self])
  | spillGrant t => exact .of_boot (by simp only [execSpillGrant_frame t s h, and_self])
  | slotUnserved t engine => exact .of_boot (by simp only [execSlotUnserved_frame t engine s h, and_self])
  | segmentReadoutDone t pool firstJob bank ecc =>
    exact .of_boot (by simp only [execSegmentReadoutDone_frame t pool firstJob bank ecc s h, and_self])
  | dumpRecord t => exact .of_boot (by simp only [execDumpRecord_frame t s h, and_self])
  | engineStallTimeout t engine => exact .of_boot (by simp only [execEngineStallTimeout_frame t engine s h, and_self])
  | fenceCheckDone t engine reloaded passed =>
    exact .of_boot (by simp only [execFenceCheckDone_frame t engine reloaded passed s h, and_self])
  | beamOutput t pool k block => exact .of_boot (by simp only [execBeamOutput_frame t pool k block s h, and_self])
  | beamRecord t pool => exact .of_boot (by simp only [execBeamRecord_frame t pool s h, and_self])
  | ingestFrame t q f => exact .of_boot (by simp only [execIngestFrame_frame t q f s h, and_self])
  | senseFrame t q f => exact .of_boot (by simp only [execSenseFrame_frame t q f s h, and_self])
  | loadWatchEval t e => exact .of_boot (by simp only [execLoadWatchEval_frame t e s h, and_self])
  | driveFrameSend t q group stream chan0 nch nsamp ecc =>
    exact .of_boot (by simp only [execDriveFrameSend_frame t q group stream chan0 nch nsamp ecc s h, and_self])
  | transmitStartDue t => exact .of_boot (by simp only [execTransmitStartDue_frame t s h, and_self])
  | heldStartReady t start => exact .of_boot (by simp only [execHeldStartReady_frame t start s h, and_self])
  | programEnd t start => exact .of_boot (by simp only [execProgramEnd_frame t start s h, and_self])
  | echoRepeat t => exact .of_boot (by simp only [execEchoRepeat_frame t s h, and_self])
  | echoRecord t => exact .of_boot (by simp only [execEchoRecord_frame t s h, and_self])
  | glintOutputDue t e => exact .of_boot (by simp only [execGlintOutputDue_frame t e s h, and_self])
  | glintBeamSample t => exact .of_boot (by simp only [execGlintBeamSample_frame t s h, and_self])
  | publishHoldExpiry t det => exact .of_boot (by simp only [execPublishHoldExpiry_frame t det s h, and_self])
  | voidTimeout t det => exact .of_boot (by simp only [execVoidTimeout_frame t det s h, and_self])
  | captureCopy t pin ecc => exact .of_boot (by simp only [execCaptureCopy_frame t pin ecc s h, and_self])
  | markerHoldExpiry t layer m => exact .of_boot (by simp only [execMarkerHoldExpiry_frame t layer m s h, and_self])
  | blankEnd t entry => exact .of_boot (by simp only [execBlankEnd_frame t entry s h, and_self])
  | audioIndex t => exact .of_boot (by simp only [execAudioIndex_frame t s h, and_self])
  | lightboxFrameBoundary t ecc => exact .of_boot (by simp only [execLightboxFrameBoundary_frame t ecc s h, and_self])
  | lightboxWaitExpiry t ecc => exact .of_boot (by simp only [execLightboxWaitExpiry_frame t ecc s h, and_self])
  | ppsEdge t r => exact .of_boot (by simp only [execPpsEdge_frame t r s h, and_self])
  | timeFrame t q arrival f => exact .of_boot (by simp only [execTimeFrame_frame t q arrival f s h, and_self])
  | timeFrameSend t q => exact .of_boot (by simp only [execTimeFrameSend_frame t q s h, and_self])
  | refInactive t r cause => exact .of_boot (by simp only [execRefInactive_frame t r cause s h, and_self])
  | ppsMissing t r => exact .of_boot (by simp only [execPpsMissing_frame t r s h, and_self])
  | refQualifyEval t r offset => exact .of_boot (by simp only [execRefQualifyEval_frame t r offset s h, and_self])
  | driftGuard t offsets => exact .of_boot (by simp only [execDriftGuard_frame t offsets s h, and_self])
  | lockAchieved c => exact .of_boot (by simp only [execLockAchieved_frame c s h, and_self])
  | historyEntry sec frac => exact .of_boot (by simp only [execHistoryEntry_frame sec frac s h, and_self])
  | walkStep t => exact .of_boot (by simp only [execWalkStep_frame t s h, and_self])
  | synthLockLost t out => exact .of_boot (by simp only [execSynthLockLost_frame t out s h, and_self])
  | gateOpen t out => exact .of_boot (by simp only [execGateOpen_frame t out s h, and_self])
  | ppsoutPulse t => exact .of_boot (by simp only [execPpsoutPulse_frame t s h, and_self])
  | blockLockAcquired t lane bits => exact .of_boot (by simp only [execBlockLockAcquired_frame t lane bits s h, and_self])
  | blockLockLost t lane bits => exact .of_boot (by simp only [execBlockLockLost_frame t lane bits s h, and_self])
  | alignmentMarker t q markers => exact .of_boot (by simp only [execAlignmentMarker_frame t q markers s h, and_self])
  | laneRetrain t lane => exact .of_boot (by simp only [execLaneRetrain_frame t lane s h, and_self])
  | adaptationDone t lane => exact .of_boot (by simp only [execAdaptationDone_frame t lane s h, and_self])
  | prbsLockAcquired t b => exact .of_boot (by simp only [execPrbsLockAcquired_frame t b s h, and_self])
  | prbsLockLost t lane bits => exact .of_boot (by simp only [execPrbsLockLost_frame t lane bits s h, and_self])
  | batchFrame t q f => exact .of_boot (by simp only [execBatchFrame_frame t q f s h, and_self])
  | planDigestFrame t q f => exact .of_boot (by simp only [execPlanDigestFrame_frame t q f s h, and_self])
  | linkStateFrame t q f => exact .of_boot (by simp only [execLinkStateFrame_frame t q f s h, and_self])
  | linkStateOriginate t => exact .of_boot (by simp only [execLinkStateOriginate_frame t s h, and_self])
  | forwardTimeout t frame => exact .of_boot (by simp only [execForwardTimeout_frame t frame s h, and_self])
  | creditBlock t q block => exact .of_boot (by simp only [execCreditBlock_frame t q block s h, and_self])
  | creditGrantSend t q vc => exact .of_boot (by simp only [execCreditGrantSend_frame t q vc s h, and_self])
  | ackReceived t q block => exact .of_boot (by simp only [execAckReceived_frame t q block s h, and_self])
  | nakReceived t q block => exact .of_boot (by simp only [execNakReceived_frame t q block s h, and_self])
  | retryTimeout t q => exact .of_boot (by simp only [execRetryTimeout_frame t q s h, and_self])
  | lateNoticeReceived t q block => exact .of_boot (by simp only [execLateNoticeReceived_frame t q block s h, and_self])
  | sleepRequest t q => exact .of_boot (by simp only [execSleepRequest_frame t q s h, and_self])
  | sleepReqReceived t q block => exact .of_boot (by simp only [execSleepReqReceived_frame t q block s h, and_self])
  | sleepAckReceived t q block => exact .of_boot (by simp only [execSleepAckReceived_frame t q block s h, and_self])
  | sleepNakReceived t q block => exact .of_boot (by simp only [execSleepNakReceived_frame t q block s h, and_self])
  | sleepReqTimeout t q => exact .of_boot (by simp only [execSleepReqTimeout_frame t q s h, and_self])
  | commitReceived t q block => exact .of_boot (by simp only [execCommitReceived_frame t q block s h, and_self])
  | abortReceived t q block => exact .of_boot (by simp only [execAbortReceived_frame t q block s h, and_self])
  | signalLostAfterAck t q => exact .of_boot (by simp only [execSignalLostAfterAck_frame t q s h, and_self])
  | sleepAfterExpiry t q transmit => exact .of_boot (by simp only [execSleepAfterExpiry_frame t q transmit s h, and_self])
  | wakeReceived t q block => exact .of_boot (by simp only [execWakeReceived_frame t q block s h, and_self])
  | txWake t q => exact .of_boot (by simp only [execTxWake_frame t q s h, and_self])
  | signalDetect t q => exact .of_boot (by simp only [execSignalDetect_frame t q s h, and_self])
  | hbmRefresh t pc => exact .of_boot (by simp only [execHbmRefresh_frame t pc s h, and_self])
  | hbmTempRead t stack reading => exact .of_boot (by simp only [execHbmTempRead_frame t stack reading s h, and_self])
  | hbmAlert t channel recurs => exact .of_boot (by simp only [execHbmAlert_frame t channel recurs s h, and_self])
  | scrubStep t word ecc => exact .of_boot (by simp only [execScrubStep_frame t word ecc s h, and_self])
  | pairHalfArrival t half => exact .of_boot (by simp only [execPairHalfArrival_frame t half s h, and_self])
  | pairTimeout t tag => exact .of_boot (by simp only [execPairTimeout_frame t tag s h, and_self])
  | pairQuery t tag => exact .of_boot (by simp only [execPairQuery_frame t tag s h, and_self])
  | monitorWindowEnd t n => exact .of_boot (by simp only [execMonitorWindowEnd_frame t n s h, and_self])
  | twinHeartbeatSend t => exact .of_boot (by simp only [execTwinHeartbeatSend_frame t s h, and_self])
  | twinHeartbeat t f => exact .of_boot (by simp only [execTwinHeartbeat_frame t f s h, and_self])
  | partnerLost t => exact .of_boot (by simp only [execPartnerLost_frame t s h, and_self])
  | timeSkew t => exact .of_boot (by simp only [execTimeSkew_frame t s h, and_self])
  | inStep t => exact .of_boot (by simp only [execInStep_frame t s h, and_self])
  | litTimerExpiry t => exact .of_boot (by simp only [execLitTimerExpiry_frame t s h, and_self])
  | twinLitInChange t level => exact .of_boot (by simp only [execTwinLitInChange_frame t level s h, and_self])
  | twinClaimTimer t => exact .of_boot (by simp only [execTwinClaimTimer_frame t s h, and_self])
  | twinGateOpen t => exact .of_boot (by simp only [execTwinGateOpen_frame t s h, and_self])
  | pinMismatch t => exact .of_boot (by simp only [execPinMismatch_frame t s h, and_self])
  | digestSend t => exact .of_boot (by simp only [execDigestSend_frame t s h, and_self])
  | digestFrame t f => exact .of_boot (by simp only [execDigestFrame_frame t f s h, and_self])
  | mirrorCheckLate t cls subject => exact .of_boot (by simp only [execMirrorCheckLate_frame t cls subject s h, and_self])
  | arbitrationOpen t f => exact .of_boot (by simp only [execArbitrationOpen_frame t f s h, and_self])
  | recomputationDone t => exact .of_boot (by simp only [execRecomputationDone_frame t s h, and_self])
  | arbitrationResult t f => exact .of_boot (by simp only [execArbitrationResult_frame t f s h, and_self])
  | arbitrationTimeout t => exact .of_boot (by simp only [execArbitrationTimeout_frame t s h, and_self])
  | effectFrame t f => exact .of_boot (by simp only [execEffectFrame_frame t f s h, and_self])
  | hostTimedEffect t index => exact .of_boot (by simp only [execHostTimedEffect_frame t index s h, and_self])
  | engineBufferError t engine => exact .of_boot (by simp only [execEngineBufferError_frame t engine s h, and_self])
  | resetAssert _ _ => exact execResetAssert_onward h
  | supplyRangeChange t rail inRange => exact .of_boot (by simp only [execSupplyRangeChange_frame t rail inRange s h, and_self])

theorem step_empty {s : State} (h : s.pending = []) : step s = .next s := by rw [step, h]

theorem step_front {s : State} {c : Instr} {rest : List Instr} (h : s.pending = c :: rest) :
    step s = exec c { s with pending := rest } := by rw [step, h]

/-- What a step leaves: the rest of the queue, and a key store that is no looser. -/
theorem step_keeps {s u : State} (h : step s = .next u) :
    u.pending = s.pending.tail ∧ s.boot.fuses.TightensTo u.boot.fuses := by
  cases hs : s.pending with
  | nil =>
    rw [step_empty hs] at h
    cases h
    exact ⟨hs, .refl _⟩
  | cons c rest =>
    rw [step_front hs] at h
    obtain ⟨hpending, hfuses⟩ := exec_onward h
    exact ⟨hpending, hfuses⟩

/-- Settles O1. -/
theorem stepTakesTheFrontCommand : Obligations.StepTakesTheFrontCommand :=
  ⟨fun _ _ _ => step_front rfl, fun _ h => step_empty h⟩

/-- Settles O3: what waits is a tail of what waited. -/
theorem everyStepConsumesOneCommand : Obligations.EveryStepConsumesOneCommand := by
  intro s s' h
  have hpending := (step_keeps h).1
  exact ⟨hpending, fun hwf c hc => hwf c (List.mem_of_mem_tail (hpending ▸ hc))⟩

/-- Settles O4: every command keeps the fuses, but for the writes of SECURITY.CTL, which tighten them. -/
theorem keyStoreOnlyTightens : Obligations.KeyStoreOnlyTightens := by
  intro s s' h
  obtain ⟨hraises, hsvn, hrevoked, hdbg, hpart, hserial, hkeys⟩ := (step_keeps h).2
  exact ⟨hraises, hsvn, hrevoked, hdbg, hpart, hserial, hkeys⟩

/-- Settles O5. -/
theorem resetMeetsTheInvariants : Obligations.ResetMeetsTheInvariants := ⟨rfl, rfl, rfl⟩

/-! ## The frame table -/

/-- A state at reset, with one timed effect whose instant has come. -/
def effectAtReset : State := { State.reset with twin.acts := [⟨0, none⟩] }

theorem exec_statusBlockRefresh_acts : ∃ u, exec (.statusBlockRefresh 0) effectAtReset = .next u ∧ u.twin.acts = [] :=
  ⟨_, rfl, rfl⟩

/-- Refutes O2: a rewrite of the status block enters the timed effects that have come (log entry 133), and so changes the twin block, which
its row of the frame table does not list. -/
theorem not_commandsChangeOnlyTheirBlocks : ¬ Obligations.CommandsChangeOnlyTheirBlocks := by
  intro ⟨_, hframe⟩
  obtain ⟨u, hu, hacts⟩ := exec_statusBlockRefresh_acts
  have htwin : u.twin = (effectAtReset.advance 0).twin := hframe _ _ _ hu .twin (by decide)
  simp [htwin, effectAtReset] at hacts

end Sys2Proof.Machine

/-!
Control blocks (R306, R310): what the rule of a protected block says of its fields, and that the meanings that take a control block count
one that breaks it; from these O14.
-/
namespace Sys2Proof.Machine

theorem blkByte_zero (b : BitVec 64) : blkByte b 0 = (b.extractLsb' 0 8).toNat := by
  simp [blkByte, bitsOf, BitVec.extractLsb'_toNat]

/-- The rule of R310, on the fields of the block. -/
theorem ctlGood_iff (b : BitVec 64) :
    ctlGood b = true ↔ b.extractLsb' 32 8 = 0 ∧ b.extractLsb' 40 24 = ~~~ (b.extractLsb' 8 24) := by
  rw [ctlGood, Bool.and_eq_true, decide_eq_true_eq, decide_eq_true_eq, ← BitVec.toNat_inj, ← BitVec.toNat_inj]
  simp only [blkByte, bitsOf, BitVec.extractLsb'_toNat, BitVec.toNat_not, Nat.shiftRight_eq_div_pow, BitVec.ofNat_eq_ofNat,
    BitVec.toNat_ofNat, Nat.reducePow, Nat.reduceMul]
  omega

/-- A block of a type outside Table 13-1, or a protected one that breaks R310, is bad. -/
theorem ctlBad_of_broken {b : BitVec 64}
    (h : ((b.extractLsb' 0 8 = 0x2D ∨ b.extractLsb' 0 8 = 0x33 ∨ b.extractLsb' 0 8 = 0x55) ∧
        (b.extractLsb' 32 8 ≠ 0 ∨ b.extractLsb' 40 24 ≠ ~~~ (b.extractLsb' 8 24)) ∨
      ctlTypes.contains (b.extractLsb' 0 8).toNat = false)) : ctlBad b = true := by
  rw [ctlBad, blkByte_zero]
  rcases h with ⟨htype, hbroken⟩ | hother
  · have hgood : ctlGood b = false := by
      rw [← Bool.not_eq_true, ctlGood_iff, not_and_or]
      exact hbroken
    rcases htype with htype | htype | htype <;> simp [htype, hgood]
  · simp only [hother, Bool.not_false, Bool.true_or]

/-- Every meaning that takes a control block on a quad that is up counts a bad one, and does nothing else. -/
theorem exec_of_ctlBad {t : Tick} {q : Fin 16} {b : BitVec 64} {s : State} (hup : (quadOf (s.advance t) q.val).up = true)
    (hbad : ctlBad b = true) {c : Instr}
    (hc : c = .ackReceived t q b ∨ c = .nakReceived t q b ∨ c = .lateNoticeReceived t q b ∨ c = .creditBlock t q b ∨
      c = .sleepReqReceived t q b ∨ c = .sleepAckReceived t q b ∨ c = .sleepNakReceived t q b ∨ c = .commitReceived t q b ∨
      c = .abortReceived t q b ∨ c = .wakeReceived t q b) : exec c s = .next (ctlErr q.val (s.advance t)) := by
  rcases hc with rfl | rfl | rfl | rfl | rfl | rfl | rfl | rfl | rfl | rfl
  all_goals simp [exec, execAckReceived, execNakReceived, execLateNoticeReceived, execCreditBlock, execSleepReqReceived,
    execSleepAckReceived, execSleepNakReceived, execCommitReceived, execAbortReceived, execWakeReceived, hup, hbad]

/-- What a control block that the A16 builds holds: its type, three bytes, a 0, and the complement of the three (R310). -/
theorem mkCtl_toNat {type b1 param : Nat} (htype : type < 256) (hb1 : b1 < 256) (hparam : param < 65536) :
    (mkCtl type b1 param).toNat = type + 256 * (b1 + 256 * param) + 2 ^ 40 * (0xFFFFFF - (b1 + 256 * param)) := by
  simp only [mkCtl, BitVec.toNat_ofNat]
  omega

theorem ctlGood_mkCtl {type b1 param : Nat} (htype : type < 256) (hb1 : b1 < 256) (hparam : param < 65536) :
    ctlGood (mkCtl type b1 param) = true := by
  obtain ⟨v, hv⟩ : ∃ v, v = b1 + 256 * param := ⟨_, rfl⟩
  obtain ⟨w, hw⟩ : ∃ w, v + w = 0xFFFFFF := ⟨0xFFFFFF - v, by omega⟩
  obtain ⟨n, hn⟩ : ∃ n, n = type + 256 * v + 2 ^ 40 * (0xFFFFFF - v) := ⟨_, rfl⟩
  have hbytes : n / 2 ^ 8 = v + 2 ^ 32 * w := by omega
  have hzero : n / 2 ^ (8 * 4) = 2 ^ 8 * w := by omega
  have hcomplement : n / 2 ^ 40 = w := by omega
  rw [ctlGood, Bool.and_eq_true, decide_eq_true_eq, decide_eq_true_eq, blkByte, bitsOf, bitsOf, bitsOf,
    mkCtl_toNat htype hb1 hparam, ← hv, ← hn, hbytes, hzero, hcomplement]
  omega

/-- Settles O14. -/
theorem brokenControlBlocksAreCounted : Obligations.BrokenControlBlocksAreCounted :=
  ⟨fun _ _ _ _ hup hbroken _ hc => exec_of_ctlBad hup (ctlBad_of_broken hbroken) hc,
    fun _ _ _ htype hb1 hparam => (ctlGood_iff _).1 (ctlGood_mkCtl htype hb1 hparam)⟩

end Sys2Proof.Machine

/-!
The receiver of a mesh or twin quad (R332, R333): what a frame does to the expected sequence number and the count of duplicates; from these
O16.
-/
namespace Sys2Proof.Machine

/-- Handing an item to a quad touches its transmit direction and what it holds back, and nothing else of the quad. -/
theorem quadOf_emitOn {q : Nat} (hq : q < 16) (x : LaneOut) (s : State) :
    ∃ tx held, quadOf (emitOn q x s) q = { quadOf s q with tx := tx, held := held } := by
  unfold emitOn
  extract_lets u
  split
  · exact ⟨_, _, rfl⟩
  · split
    · rw [quadOf_sendOn, quadOf_setQuad _ _ _ hq]
      exact ⟨_, u.held, rfl⟩
    · rw [quadOf_setQuad _ _ _ hq]
      exact ⟨_, _, rfl⟩

theorem emitOn_expect {q : Nat} (hq : q < 16) (x : LaneOut) (s : State) : (quadOf (emitOn q x s) q).expect = (quadOf s q).expect := by
  obtain ⟨tx, held, h⟩ := quadOf_emitOn hq x s
  rw [h]

theorem emitOn_dup {q : Nat} (hq : q < 16) (x : LaneOut) (s : State) : (quadOf (emitOn q x s) q).dup = (quadOf s q).dup := by
  obtain ⟨tx, held, h⟩ := quadOf_emitOn hq x s
  rw [h]

section
variable {q : Nat} (hq : q < 16) {s : State}
include hq

/-- An accepted frame moves the expected number on by one, and counts no duplicate. -/
theorem linkReceive_of_expected : (quadOf (linkReceive q true (quadOf s q).expect s).2 q).expect = ((quadOf s q).expect + 1) % 65536 ∧
    (quadOf (linkReceive q true (quadOf s q).expect s).2 q).dup = (quadOf s q).dup := by
  simp [linkReceive, emitOn_expect hq, emitOn_dup hq, quadOf_setQuad, hq]

/-- A frame accepted at most 64 frames ago is a duplicate: counted, and not accepted. -/
theorem linkReceive_of_duplicate {seq : Nat} (hne : seq ≠ (quadOf s q).expect) (hback : 1 ≤ seqDist seq (quadOf s q).expect)
    (hnear : seqDist seq (quadOf s q).expect ≤ 64) : (linkReceive q true seq s).1 = false ∧
    (quadOf (linkReceive q true seq s).2 q).dup = bump 32 (quadOf s q).dup 1 := by
  simp [linkReceive, hne, hback, hnear, emitOn_dup hq, quadOf_setQuad, hq]

/-- A frame that is not good, or not the expected one, is not accepted, and the expected number stays. -/
theorem linkReceive_of_unexpected {good : Bool} {seq : Nat} (h : good = false ∨ seq ≠ (quadOf s q).expect) :
    (linkReceive q good seq s).1 = false ∧ (quadOf (linkReceive q good seq s).2 q).expect = (quadOf s q).expect := by
  have hnot : ¬ (good && decide (seq = (quadOf s q).expect)) = true := by
    rcases h with rfl | hne <;> simp [*]
  unfold linkReceive
  extract_lets u e again
  rw [if_neg hnot]
  split
  · exact ⟨rfl, by simp [emitOn_expect hq, quadOf_setQuad, hq, u]⟩
  · split
    · exact ⟨rfl, rfl⟩
    · exact ⟨rfl, by simp [emitOn_expect hq, quadOf_setQuad, hq, u]⟩

end

/-- Settles O16: the frame before the expected one is a duplicate. -/
theorem receiverTakesTheExpectedFrameOnce : Obligations.ReceiverTakesTheExpectedFrameOnce := by
  intro q s he e
  obtain ⟨hexpect, hdup⟩ := linkReceive_of_expected q.isLt (s := s)
  have hne : e ≠ (e + 1) % 65536 := by omega
  have hdist : seqDist e ((e + 1) % 65536) = 1 := by unfold seqDist; omega
  obtain ⟨hagain, hcount⟩ := linkReceive_of_duplicate q.isLt (s := (linkReceive q.val true e s).2) (seq := e)
    (by rwa [hexpect]) (by rw [hexpect, hdist]) (by rw [hexpect, hdist]; decide)
  have hstays := (linkReceive_of_unexpected q.isLt (s := (linkReceive q.val true e s).2) (good := true) (seq := e)
    (.inr (by rwa [hexpect]))).2
  exact ⟨linkReceive_expected _ _, hexpect, hagain, by rw [hcount, hdup], by rw [hstays, hexpect],
    fun good seq h => linkReceive_of_unexpected q.isLt h⟩

end Sys2Proof.Machine

/-!
Completions and events (R374 to R386, R408): what they leave alone, that none is dropped, and the bytes that they put into host memory; from
these O7, O35, O36 and O37.
-/
namespace Sys2Proof.Machine

/-! ## What completions and events leave alone -/

theorem SameOutsideHost.refl (s : State) : SameOutsideHost s s := rfl

theorem SameOutsideHost.trans {s t u : State} (hst : SameOutsideHost s t) (htu : SameOutsideHost t u) : SameOutsideHost s u := by
  have h := congrArg (fun x : State => { x with
    host := s.host, mgmt.log := s.mgmt.log, twin.recov := s.twin.recov, out := s.out, free := s.free }) htu
  exact Eq.trans h hst

theorem startJob_sameOutsideHost (kind : JobKind) (ws : List HostWrite) (items : List Item) (s : State) :
    SameOutsideHost s (startJob kind ws items s) := rfl

theorem publish_sameOutsideHost (kind : JobKind) (ws : List HostWrite) (items : List Item) (s : State) :
    SameOutsideHost s (publish kind ws items s) := rfl

theorem writeCompl_sameOutsideHost (c : Compl) (s : State) : SameOutsideHost s (writeCompl c s) := rfl

theorem writeEvent_sameOutsideHost (e : Ev) (s : State) : SameOutsideHost s (writeEvent e s) := rfl

theorem noteLog_sameOutsideHost (x : LogEntry) (s : State) : SameOutsideHost s (noteLog x s) := rfl

theorem pushEvent_sameOutsideHost (e : Ev) (s : State) : SameOutsideHost s (pushEvent e s) := by
  refine (noteLog_sameOutsideHost (.event e) s).trans ?_
  unfold pushEvent
  extract_lets u
  split
  · exact writeEvent_sameOutsideHost _ _
  · split <;> rfl

theorem postEvent_sameOutsideHost (code subject : Nat) (args : Bytes) (s : State) : SameOutsideHost s (postEvent code subject args s) :=
  pushEvent_sameOutsideHost _ _

theorem setUntrusted_sameOutsideHost (bit : Nat) (s : State) : SameOutsideHost s (setUntrusted bit s) := by
  unfold setUntrusted
  split
  · exact .refl s
  · exact .trans (t := { s with host.untrusted := s.host.untrusted ||| BitVec.ofNat 4 (2 ^ bit) }) rfl (postEvent_sameOutsideHost _ _ _ _)

theorem disturb_sameOutsideHost (s : State) : SameOutsideHost s (disturb s) := by
  unfold disturb spoil
  split
  · have h (l : List Recovery) : SameOutsideHost s { s with twin.recov := l } := rfl
    exact (h _).trans (setUntrusted_sameOutsideHost 2 _)
  · exact .refl s

theorem flushOwedN_sameOutsideHost (n : Nat) (s : State) : SameOutsideHost s (flushOwedN n s) := by
  induction n generalizing s with
  | zero => exact .refl s
  | succ n ih =>
    unfold flushOwedN
    split
    · exact .refl s
    case h_2 c rest _ =>
      split
      · split
        · exact startJob_sameOutsideHost _ _ _ _
        · exact .refl s
      · split
        · have hrest : SameOutsideHost s { s with host.owed := rest } := rfl
          exact (hrest.trans (writeCompl_sameOutsideHost c _)).trans (ih _)
        · exact .refl s

theorem completeWith_sameOutsideHost (d : Desc) (status info : Nat) (result : Option Bytes) (s : State) :
    SameOutsideHost s (completeWith d status info result s) := by
  unfold completeWith
  extract_lets r
  have h (l : List Compl) : SameOutsideHost s { s with host.owed := l } := rfl
  exact (h _).trans (flushOwedN_sameOutsideHost _ _)

theorem accept_sameOutsideHost (d : Desc) (s : State) : SameOutsideHost s (accept d s) :=
  (disturb_sameOutsideHost s).trans (completeWith_sameOutsideHost _ _ _ _ _)

theorem refuse_sameOutsideHost (d : Desc) (c : Nat × Nat) (s : State) : SameOutsideHost s (refuse d c s) := by
  unfold refuse
  split
  · exact .trans (t := (s.drawFree 32).2) rfl (completeWith_sameOutsideHost _ _ _ _ _)
  · exact completeWith_sameOutsideHost _ _ _ _ _

/-- Settles O35. -/
theorem completingTouchesTheHostInterfaceOnly : Obligations.CompletingTouchesTheHostInterfaceOnly :=
  fun _ _ _ _ _ _ _ _ _ => ⟨completeWith_sameOutsideHost _ _ _ _ _, accept_sameOutsideHost _ _, refuse_sameOutsideHost _ _ _,
    postEvent_sameOutsideHost _ _ _ _⟩

/-! ## No completion is lost (R382) -/

/-- What is written of the owed completions is what came first, one entry each. -/
theorem flushOwedN_writes_prefix (n : Nat) (s : State) : ∃ k ≤ s.host.owed.length,
    (flushOwedN n s).host.cplProd = s.host.cplProd + BitVec.ofNat 32 k ∧ (flushOwedN n s).host.owed = s.host.owed.drop k := by
  have hnone (s u : State) (h : u.host.cplProd = s.host.cplProd ∧ u.host.owed = s.host.owed) : ∃ k ≤ s.host.owed.length,
      u.host.cplProd = s.host.cplProd + BitVec.ofNat 32 k ∧ u.host.owed = s.host.owed.drop k :=
    ⟨0, Nat.zero_le _, by simpa using h.1, h.2⟩
  induction n generalizing s with
  | zero => exact hnone s s ⟨rfl, rfl⟩
  | succ n ih =>
    unfold flushOwedN
    split
    · exact hnone s s ⟨rfl, rfl⟩
    case h_2 c rest howed =>
      split
      · split
        · exact hnone s _ ⟨rfl, rfl⟩
        · exact hnone s s ⟨rfl, rfl⟩
      · split
        · have hprod : (writeCompl c { s with host.owed := rest }).host.cplProd = s.host.cplProd + 1 := rfl
          have hrest : (writeCompl c { s with host.owed := rest }).host.owed = rest := rfl
          obtain ⟨k, hk, hcpl, hleft⟩ := ih (writeCompl c { s with host.owed := rest })
          rw [hrest] at hk hleft
          refine ⟨k + 1, by simpa [howed] using hk, ?_, by simpa [howed] using hleft⟩
          rw [hcpl, hprod, BitVec.add_assoc, BitVec.ofNat_add, BitVec.add_comm 1]
          rfl
        · exact hnone s s ⟨rfl, rfl⟩

theorem completeWith_eq_flushOwed (d : Desc) (status info : Nat) (result : Option Bytes) (s : State) :
    ∃ c : Compl, (c.tag = d.tag ∧ c.opcode = d.opcode ∧ c.status = status ∧ c.info = info ∧ c.index = d.index) ∧
      completeWith d status info result s = flushOwed { s with host.owed := s.host.owed ++ [c] } :=
  ⟨⟨d.tag, d.opcode, status, info, d.index, _, s.now⟩, ⟨rfl, rfl, rfl, rfl, rfl⟩, rfl⟩

theorem startHeld_of_full {s : State} (h : cplRoom s = false) : startHeld s = s := by
  have hstop (d : Desc) : mayStart s d = false := by simp [mayStart, h]
  unfold startHeld
  cases s.host.held.length with
  | zero => rfl
  | succ n =>
    unfold startHeldN
    split
    · rfl
    · rw [hstop, if_neg Bool.false_ne_true]

/-- Settles O7. -/
theorem completionsAreNeverDropped : Obligations.CompletionsAreNeverDropped := by
  refine ⟨fun s h => startHeld_of_full h, fun d status info result s hlen => ?_⟩
  obtain ⟨c, ⟨htag, hopcode, hstatus, hinfo, hindex⟩, hc⟩ := completeWith_eq_flushOwed d status info result s
  obtain ⟨k, hk, hprod, howed⟩ := flushOwedN_writes_prefix (s.host.owed ++ [c]).length { s with host.owed := s.host.owed ++ [c] }
  rw [flushOwed] at hc
  rw [← hc] at hprod howed
  rw [List.length_append, List.length_singleton] at hk
  have hwritten : ((completeWith d status info result s).host.cplProd - s.host.cplProd).toNat = k := by
    rw [hprod, BitVec.add_comm, BitVec.add_sub_cancel, BitVec.toNat_ofNat, Nat.mod_eq_of_lt (by omega)]
  rw [hwritten, howed]
  refine ⟨?_, c, htag, hopcode, hstatus, hinfo, hindex, rfl⟩
  rw [List.length_drop, List.length_append, List.length_singleton]
  omega

/-! ## The status block (Table 15-3) -/

/-- A part of a byte string, where it stands. -/
theorem slice_append {a m c b : Bytes} {off n : Nat} (hb : b = a ++ (m ++ c)) (ha : a.length = off) (hm : m.length = n) : slice b off n = m := by
  subst hb ha hm
  simp [slice]

theorem length_flatMap_le (n : Nat) (l : List (BitVec 64)) : (l.flatMap fun v => le n v.toNat).length = n * l.length := by
  simp [List.length_flatMap, mul_comm]

theorem statusBody_length (s : State) : (statusBody s).length = 816 := by
  simp only [statusBody, leS, List.length_append, le_length, zeros_length, length_flatMap_le, Vector.length_toList]

theorem statusBlock_length (s : State) (seq : Nat) : (statusBlock s seq).length = 1024 := by
  simp only [statusBlock, List.length_append, le_length, zeros_length, statusBody_length]

theorem slice_statusBlock_seq (s : State) (seq : Nat) : slice (statusBlock s seq) 0 8 = le 8 seq :=
  slice_append (a := []) (by simp only [statusBlock, List.append_assoc, List.nil_append]; rfl) rfl (le_length _ _)

theorem slice_statusBlock_seqEnd (s : State) (seq : Nat) : slice (statusBlock s seq) 1016 8 = le 8 seq :=
  slice_append (c := []) (by rw [List.append_nil]; rfl) (by simp [statusBody_length]) (le_length _ _)

theorem slice_statusBlock_tw (s : State) (seq : Nat) : slice (statusBlock s seq) 8 8 = le 8 s.tw :=
  slice_append (a := le 8 seq) (by simp only [statusBlock, List.append_assoc]; rfl) (le_length _ _) (le_length _ _)

theorem slice_statusBlock_cplProd (s : State) (seq : Nat) : slice (statusBlock s seq) 20 4 = le 4 s.host.cplProd.toNat :=
  slice_append (a := le 8 seq ++ le 8 s.tw ++ le 4 s.host.cmdCons.toNat) (by simp only [statusBlock, statusBody, List.append_assoc]; rfl)
    (by simp) (le_length _ _)

theorem slice_statusBlock_evtProd (s : State) (seq : Nat) : slice (statusBlock s seq) 24 4 = le 4 s.host.evtProd.toNat :=
  slice_append (a := le 8 seq ++ le 8 s.tw ++ le 4 s.host.cmdCons.toNat ++ le 4 s.host.cplProd.toNat)
    (by simp only [statusBlock, statusBody, List.append_assoc]; rfl) (by simp) (le_length _ _)

/-! ## Bursts (R399, R400) -/

theorem splitWrite_of_fits (k : Nat) {w : HostWrite} (h : w.bytes.length ≤ 4096 - w.addr % 4096) : splitWrite k w = [w] := by
  cases k with
  | zero => rfl
  | succ k => simp only [splitWrite, if_pos h]

/-- An entry in its slot of an aligned ring, and a status block on its own 1,024 bytes, are one burst each. -/
theorem hostBursts_entry_and_status {base slot n addr : Nat} {e sb : Bytes} (hn : n ∣ 4096) (he : e.length = n) (hsb : sb.length = 1024)
    (hbase : base % n = 0) (haddr : addr % 1024 = 0) :
    hostBursts [⟨base + n * slot, e⟩, ⟨addr, sb⟩] = [⟨base + n * slot, e⟩, ⟨addr, sb⟩] := by
  have hentry : (base + n * slot) % 4096 + n ≤ 4096 := by
    obtain ⟨m, hm⟩ := hn
    obtain ⟨b, rfl⟩ := Nat.dvd_of_mod_eq_zero hbase
    rw [← Nat.mul_add, hm, Nat.mul_mod_mul_left, ← Nat.mul_succ]
    exact Nat.mul_le_mul_left n (Nat.mod_lt _ (Nat.pos_of_ne_zero fun h => by simp [h] at hm))
  simp only [hostBursts, List.flatMap_cons, List.flatMap_nil, List.append_nil]
  rw [splitWrite_of_fits, splitWrite_of_fits]
  · rfl
  · simp only [hsb]; omega
  · simp only [he]; omega

/-! ## Entries -/

/-- Settles O36. -/
theorem completionEntriesAreWrittenAndPublished : Obligations.CompletionEntriesAreWrittenAndPublished := by
  intro d status info s howed v
  constructor
  · intro hroom
    rw [show v = writeCompl _ s from complete_room d status info s howed hroom]
    exact ⟨howed, rfl, rfl, statusBlock _ _, rfl, hostBursts_entry_and_status (by decide) (by simp) (statusBlock_length _ _),
      statusBlock_length _ _, slice_statusBlock_seq _ _, (slice_statusBlock_seqEnd _ _).trans (slice_statusBlock_seq _ _).symm,
      slice_statusBlock_cplProd _ _, slice_statusBlock_tw _ _⟩
  · intro hfull
    rw [show v = _ from complete_full d status info s howed hfull]
    exact ⟨rfl, rfl, rfl⟩

theorem lostEvent_eq (s : State) : lostEvent s = ⟨1, le 4 0 ++ le 8 s.tw ++ (le 4 s.host.evLost ++ zeros 12), s.now⟩ := by
  simp [lostEvent, evArgs, List.take_of_length_le]

/-- The rest of a drain with one event queued. -/
theorem drainN_one {s : State} {e : Ev} (hqueue : s.host.evQueue = [e]) :
    drainN 1 s = if evtRoom s then writeEvent e { s with host.evQueue := [] } else s := by
  simp only [drainN, hqueue]

section
variable {t : Tick} {s u : State} (hu : s.advance t = u) (hroom : evtRoom u = true)
include hu hroom

theorem exec_eventQueueDrain_of_none_lost (hlost : u.host.evLost = 0) :
    exec (.eventQueueDrain t) s = .next (drainN u.host.evQueue.length u) := by
  simp [exec, execEventQueueDrain, hu, hroom, hlost]

theorem exec_eventQueueDrain_of_lost (hlost : u.host.evLost ≠ 0) : exec (.eventQueueDrain t) s = .next (drainN u.host.evQueue.length
    (writeEvent (lostEvent u) (noteLog (.event (lostEvent u)) { u with host.evLost := 0 }))) := by
  simp only [exec, execEventQueueDrain, hu, hroom, hlost, Bool.not_true, Bool.false_eq_true, ↓reduceIte]
  rfl

end

theorem postEvent_of_room {code subject : Nat} {args : Bytes} {s : State} (hqueue : s.host.evQueue = []) (hlost : s.host.evLost = 0)
    (hroom : evtRoom s = true) : postEvent code subject args s =
      (let e : Ev := ⟨code, le 4 subject ++ le 8 s.tw ++ evArgs args, s.now⟩
      writeEvent e (noteLog (.event e) s)) :=
  pushEvent_room _ _ hqueue hlost hroom

/-- Settles O37. -/
theorem eventsAreNumberedQueuedAndCounted : Obligations.EventsAreNumberedQueuedAndCounted := by
  constructor
  · intro code subject args s v e
    refine ⟨fun hqueue hlost hroom => ?_, fun hfull hplace => ?_, fun hfull hnone => ?_⟩
    · rw [show v = _ from postEvent_of_room hqueue hlost hroom]
      exact ⟨rfl, rfl, statusBlock _ _, rfl,
        hostBursts_entry_and_status (by decide) (by simp [e]; omega) (statusBlock_length _ _),
        slice_statusBlock_evtProd _ _⟩
    · rw [show v = _ from pushEvent_queued e s hfull hplace]
      exact ⟨rfl, rfl, rfl⟩
    · rw [show v = _ from pushEvent_lost e s hfull hnone]
      exact ⟨rfl, rfl, rfl, rfl⟩
  · intro t e s u hroom
    refine ⟨fun hlost hqueue => ?_, fun hlost hqueue => ?_, fun hlost hqueue => ?_⟩
    · rw [exec_eventQueueDrain_of_none_lost rfl hroom hlost, hqueue, List.length_singleton, drainN_one hqueue, if_pos hroom]
    · rw [exec_eventQueueDrain_of_lost rfl hroom hlost, hqueue, lostEvent_eq]
      rfl
    · intro l w
      have hw : w = writeEvent (lostEvent u) (noteLog (.event (lostEvent u)) { u with host.evLost := 0 }) := by rw [lostEvent_eq]
      rw [exec_eventQueueDrain_of_lost rfl hroom hlost, ← hw, hqueue, List.length_singleton, drainN_one (s := w) hqueue]
      exact ⟨fun h => by rw [if_pos h], fun h => by rw [if_neg (by simp [h])]⟩

end Sys2Proof.Machine

/-!
Sleep requests (R336 to R338) and credit blocks (R319, R328, R331): what each command comes to where its conditions hold; from these O11 and
O17.
-/
namespace Sys2Proof.Machine

section
variable {t : Tick} {q : Fin 16} {b : BitVec 64} {s u : State} {x : QuadState} (hu : s.advance t = u) (hx : quadOf u q.val = x)
include hu hx

/-! ## Requests (R336, R337) -/

theorem exec_sleepRequest_of_idle {mode after : Nat} (hmode : min (fld x.sleepCfg 0 2) (txAllowed u q.val) = mode)
    (hafter : (if mode = 2 then max 1 (fld x.sleepCfg 18 14) else 0) = after) (hen : rbit x.cfg 0 = true) (hlow : 1 ≤ mode)
    (hactive : x.tx.st = .active) (hreq : x.tx.reqAt = none) (htxq : x.txq = [])
    (hidle : max 1 (fld x.sleepCfg 2 14) * tickHz ≤ (u.now - x.tx.idleAt) * 1000000) {v : State}
    (hv : emitOn q.val (.block (sleepBlock 1 ((x.tx.token + 1) % 16) (mode + 4 * after))) u = v) :
    exec (.sleepRequest t q) s = .next (setQuad q.val { quadOf v q.val with tx := { (quadOf v q.val).tx with
      token := (x.tx.token + 1) % 16, reqAt := some v.now, wakeSeen := false } } v) := by
  rw [exec, execSleepRequest]
  simp only [hu, hx, hmode, hafter, hen, hlow, hactive, hreq, htxq, hidle, hv, atLeastUs, Option.isNone_none, List.isEmpty_nil,
    decide_true, Bool.and_self, ↓reduceIte]

section
variable (hup : x.up = true) (hgood : ctlGood b = true) (his : isSleep b 1 = true)
include hup hgood his

theorem exec_sleepReqReceived_of_grant {grant : Nat} (hstate : ctlParam b % 4 ≠ 3)
    (hgrant : min (ctlParam b % 4) (min (fld x.sleepCfg 16 2) (rxAllowed u q.val)) = grant) (hlow : 1 ≤ grant) {v : State}
    (hv : emitOn q.val (.block (sleepBlock 2 (ctlHi b) (grant + 4 * (ctlParam b / 4)))) u = v) :
    exec (.sleepReqReceived t q b) s = .next (setQuad q.val { quadOf v q.val with rx := { (quadOf v q.val).rx with
      token := ctlHi b, ackAt := some v.now, granted := grant, sleepAfter := ctlParam b / 4 } } v) := by
  rw [exec, execSleepReqReceived]
  simp only [hu, hx, hup, ctlBad_of_sleep hgood his, his, hstate, hgrant, hlow, hv, Bool.not_true, Bool.false_eq_true, ↓reduceIte]

theorem exec_sleepReqReceived_of_nak
    (hno : ctlParam b % 4 = 3 ∨ min (ctlParam b % 4) (min (fld x.sleepCfg 16 2) (rxAllowed u q.val)) = 0) {v : State}
    (hv : emitOn q.val (.block (sleepBlock 3 (ctlHi b) 0)) u = v) :
    exec (.sleepReqReceived t q b) s =
      .next (setQuad q.val { quadOf v q.val with rx := { (quadOf v q.val).rx with token := ctlHi b } } v) := by
  have hzero : (if ctlParam b % 4 = 3 then 0 else min (ctlParam b % 4) (min (fld x.sleepCfg 16 2) (rxAllowed u q.val))) = 0 :=
    ite_eq_left_iff.2 hno.resolve_left
  rw [exec, execSleepReqReceived]
  simp only [hu, hx, hup, ctlBad_of_sleep hgood his, his, hzero, hv, Bool.not_true, Bool.false_eq_true,
    (by decide : ¬ 1 ≤ 0), ↓reduceIte]

end

/-! ## Credit (R319, R328, R331) -/

section
variable (hup : x.up = true) (hgood : ctlGood b = true) (htype : blkByte b 0 = 0x2D) (hhi : ctlHi b = 0)
include hup hgood htype hhi

/-- A good credit block of a virtual channel that the role has: a mesh or twin quad then sends what it now may. -/
theorem exec_creditBlock_of_role
    (hvc : ctlOp b < if quadRole u q.val = 4 then 2 else
      if quadRole u q.val = 5 ∨ quadRole u q.val = 6 ∨ quadRole u q.val = 7 then 1 else 0) {v : State}
    (hv : setQuad q.val { x with crIn := vset x.crIn (ctlOp b) (ctlParam b) } u = v) :
    exec (.creditBlock t q b) s = .next (if retries v q.val then pump q.val v else v) := by
  have hok : ctlBad b = false := ctlBad_of_good hgood (by rw [htype]; decide)
  have hnotdown : (!x.up) = false := by rw [hup, Bool.not_true]
  rw [exec, execCreditBlock]
  simp only [hu, hx, hnotdown, hok, htype, hhi, hvc, hv, decide_true, Bool.and_self, Bool.false_eq_true, ↓reduceIte]

end

theorem exec_creditGrantSend_of_role (hen : rbit x.cfg 0 = true) {vc : Fin 2}
    (hvc : (roleVcs (quadRole u q.val)).contains vc.val = true) : exec (.creditGrantSend t q vc) s =
    .next (emitOn q.val (.block (creditBlock vc.val (vget x.crOut vc.val 0))) u) := by
  rw [exec, execCreditGrantSend]
  simp only [hu, hx, hen, hvc, sendCredit, Bool.and_self, ↓reduceIte]

end

/-- Settles O11, command by command. -/
theorem sleepRequestIsMadeAndAnswered : Obligations.SleepRequestIsMadeAndAnswered := by
  intro t q b s u x mode after grant hen
  refine ⟨fun hlow hactive hreq htxq hidle => ?_, fun hup hgood his hstate hlow => ?_, fun hup hgood his hno => ?_⟩
  · exact exec_sleepRequest_of_idle rfl rfl rfl rfl hen hlow hactive hreq htxq hidle rfl
  · exact exec_sleepReqReceived_of_grant rfl rfl hup hgood his hstate rfl hlow rfl
  · exact exec_sleepReqReceived_of_nak rfl rfl hup hgood his hno rfl

/-- A quad runs the retry protocol where it is enabled as mesh or twin; the role stands in its configuration. -/
theorem retries_setQuad {q : Nat} (hq : q < 16) {x : QuadState} {s : State} (hcfg : x.cfg = (quadOf s q).cfg)
    (hen : rbit (quadOf s q).cfg 0 = true) : retries (setQuad q x s) q = decide (quadRole s q = 4 ∨ quadRole s q = 5) := by
  rw [Bool.decide_or]
  simp only [retries, quadHas, quadRole, quadOf_setQuad _ _ _ hq, hcfg, hen, Bool.true_and]
  rfl

/-- Settles O17. -/
theorem creditIsCumulative : Obligations.CreditIsCumulative := by
  intro t q vc b s u x hen
  refine ⟨fun hup hgood htype hhi => ⟨fun hrole hop => ?_, fun hrole => ?_⟩, fun hvc => exec_creditGrantSend_of_role rfl rfl hen hvc⟩
  · rw [exec_creditBlock_of_role (u := u) (x := x) rfl rfl hup hgood htype hhi (by rw [hop]; rcases hrole with h | h <;> simp [h]) rfl,
      retries_setQuad q.isLt (x := { x with crIn := vset x.crIn (ctlOp b) (ctlParam b) }) rfl hen,
      decide_eq_false (by rcases hrole with h | h <;> simp [h]), if_neg Bool.false_ne_true, hop]
  · rw [exec_creditBlock_of_role (u := u) (x := x) rfl rfl hup hgood htype hhi (by rcases hrole with h | h <;> simp [h]) rfl,
      retries_setQuad q.isLt (x := { x with crIn := vset x.crIn (ctlOp b) (ctlParam b) }) rfl hen,
      decide_eq_true (hrole.imp And.left And.left), if_pos rfl]

end Sys2Proof.Machine

/-!
Link state, forwarding and late notices on the mesh (R324 to R326, R329, R333, R335, R91); from these O18.
-/
namespace Sys2Proof.Machine

/-! ## What the receiver leaves of the link-state table -/

section
variable (q : Nat) (s : State)

@[simp] theorem sendOn_links (at_ : Nat) (x : LaneOut) : (sendOn q at_ x s).link.links = s.link.links := by
  unfold sendOn
  split <;> simp [putOn]

@[simp] theorem emitOn_links (x : LaneOut) : (emitOn q x s).link.links = s.link.links := by
  unfold emitOn
  extract_lets u
  split
  · rfl
  · split <;> simp

@[simp] theorem linkReceive_links (good : Bool) (seq : Nat) : (linkReceive q good seq s).2.link.links = s.link.links := by
  unfold linkReceive
  extract_lets u e again
  split
  · simp
  · split
    · simp
    · split <;> simp

end

section
variable {t : Tick} {q : Fin 16} {b : BitVec 64} {s u : State} {x : QuadState} (hu : s.advance t = u)
include hu

/-! ## Forwarding (R329) -/

theorem exec_forwardTimeout_of_late {n : Nat} {e : FwdFrame} (he : Tab.get u.link.fwd n = some e) (hlong : tickHz ≤ (u.now - e.at_) * 1000)
    (hcredit : creditLeft (quadOf u e.outQuad) e.vc < credits (blocksOf e.data)) : exec (.forwardTimeout t n) s =
    .next (returnCredit e.inQuad e.inVc (ceilDiv e.data.length 8) (countDiscard e.dest { u with link.fwd := Tab.del u.link.fwd n })) := by
  rw [exec, execForwardTimeout]
  simp only [hu, he, hcredit, atLeastMs, one_mul, hlong, decide_true, dropFwd, and_self, Bool.false_eq_true, ↓reduceIte]

/-! ## Late notices (R91, R335) -/

section
variable (hx : quadOf u q.val = x) (hmesh : quadHas u q.val 4 = true) (hup : x.up = true) (hgood : ctlGood b = true)
  (his : isSeq b 3 = true) {r : Replay} (hr : x.replayBuf.find? (fun r => decide (r.seq = ctlParam b) && !r.told) = some r) {v : State}
  (hv : setQuad q.val { x with replayBuf := x.replayBuf.map (fun y => if y.seq = r.seq then { y with told := true } else y) } u = v)
include hx hmesh hup hgood his hr hv

theorem exec_lateNoticeReceived_of_damaged (hcause : ctlHi b = 1) :
    exec (.lateNoticeReceived t q b) s = .next (linkSend q.val r.vc r.kind r.data v) := by
  have hnotdown : (!x.up) = false := by rw [hup, Bool.not_true]
  rw [exec, execLateNoticeReceived]
  simp only [hu, hx, hmesh, hnotdown, ctlBad_of_seq hgood his, his, hr, hv, hcause, Bool.and_self, Bool.false_eq_true, ↓reduceIte]

theorem exec_lateNoticeReceived_of_undelivered (hcause : ctlHi b = 2) (hbatch : r.kind = 0) (hown : fieldU r.data 4 2 = u.chip)
    {w : State} (hw : countDiscard (fieldU r.data 2 2) v = w) {key : Nat} (hkey : fieldU r.data 16 1 * 65536 + fieldU r.data 18 2 = key)
    {y : SendState} (hy : Tab.get w.chan.send key = some y) {p : Plan}
    (hp : planFor w (key / 65536) (key % 65536) (fieldU r.data 20 4) (fieldU r.data 24 8) = some p) :
    exec (.lateNoticeReceived t q b) s = .next { w with chan.send := Tab.put w.chan.send key { y with
      cut := Tab.put y.cut (fieldU r.data 2 2) (strokeKey p.vid (fieldU r.data 24 8)) } } := by
  have hnotdown : (!x.up) = false := by rw [hup, Bool.not_true]
  have hchip : fieldU r.data 4 2 = w.chip := by rw [hown, ← hw, ← hv]; rfl
  rw [exec, execLateNoticeReceived]
  simp only [hu, hx, hmesh, hnotdown, ctlBad_of_seq hgood his, his, hr, hv, hw, hcause, hbatch, hkey, hy, hp, decide_eq_true hchip,
    decide_true, Bool.and_self, Bool.false_eq_true, OfNat.ofNat_ne_one, ↓reduceIte]

end

/-! ## Link state (R324, R326) -/

section
variable {f : RawFrame} (hmesh : quadHas u q.val 4 = true) (hup : (quadOf u q.val).up = true) (hfits : meshFits f = true)
  (hkind : f.kind.toNat = 2) (hwhole : f.spoilt = false) (hseq : fieldU f.data 0 2 = (quadOf u q.val).expect)
  (hdest : fieldU f.data 2 2 = routeChip u) (htorus : routeChip u < xdim u * ydim u)

include hmesh hup hfits hkind hwhole hseq hdest htorus

/-- A link-state frame of another device that nothing is known of is stored, and goes on with one more hop. -/
theorem exec_linkStateFrame_of_new (hnew : Tab.get u.link.links (fieldU f.data 16 2) = none) (hother : fieldU f.data 16 2 ≠ routeChip u) :
    ∃ v, exec (.linkStateFrame t q f) s = .next (returnCredit q.val (fieldU f.data 6 1 % 2) f.n.toNat
        (sendLinkState (fieldU f.data 4 2) (fieldU f.data 7 1 + 1) (fieldU f.data 16 2) (fieldU f.data 20 4) (fieldU f.data 24 1)
          (some q.val) v)) ∧
      Tab.get v.link.links (fieldU f.data 16 2) = some ⟨fieldU f.data 20 4, fieldU f.data 24 1, u.now⟩ := by
  obtain ⟨w, hw⟩ : ∃ w, frameTaken q.val (linkReceive q.val true (fieldU f.data 0 2) u).2 = w := ⟨_, rfl⟩
  have hnow : w.now = u.now := by rw [← hw]; simp [frameTaken]
  have hlinks : w.link.links = u.link.links := by rw [← hw]; simp [frameTaken]
  have hchip : routeChip w = routeChip u := by rw [← hw]; simp [frameTaken, routeChip]
  refine ⟨{ w with link.links := Tab.put w.link.links (fieldU f.data 16 2) ⟨fieldU f.data 20 4, fieldU f.data 24 1, w.now⟩ }, ?_,
    by rw [Tab.get_put_same, hnow]⟩
  rw [exec, execLinkStateFrame]
  simp only [hu, meshReceive_of_own _ hmesh hup hfits hwhole hseq hdest htorus hkind, hw, hlinks, hnew, hchip, hother, ne_eq,
    not_false_eq_true, decide_true, Bool.and_self, ↓reduceIte]

end

end

/-- Settles O18, command by command. -/
theorem meshLinksKeepTheirState : Obligations.MeshLinksKeepTheirState := by
  intro t q f n b s u x
  refine ⟨rfl, fun e he hlong hcredit => exec_forwardTimeout_of_late rfl he hlong hcredit, ?_, ?_⟩
  · intro hmesh hup hgood his r hr v
    exact ⟨exec_lateNoticeReceived_of_damaged rfl rfl hmesh hup hgood his hr rfl,
      fun hcause hbatch hown y p hy hp =>
        exec_lateNoticeReceived_of_undelivered rfl rfl hmesh hup hgood his hr rfl hcause hbatch hown rfl rfl hy hp⟩
  · intro hmesh hup hfits hkind hwhole hseq hdest htorus hnew hother
    exact exec_linkStateFrame_of_new rfl hmesh hup hfits hkind hwhole hseq hdest htorus hnew hother

end Sys2Proof.Machine

/-!
Paired bursts (R355 to R357): how a pair opens, is applied, is discarded and is asked for, where no half waits; from these O28.
-/
namespace Sys2Proof.Machine

@[simp] theorem pairRequests_waiting (first : Bool) (h : PairHalf) (s : State) : (pairRequests first h s).hbm.waiting = s.hbm.waiting := by
  unfold pairRequests
  split
  · rfl
  · split <;> rfl
  · rfl

/-- With no half waiting, none tries again. -/
theorem retryHalves_of_none {s : State} (h : s.hbm.waiting = []) : retryHalvesN s.hbm.waiting.length s = s := by
  rw [h]
  rfl

section
variable {h : PairHalf} {e : PairEntry} {s : State}

theorem takeHalf_of_first {a : Nat} (hnew : Tab.get s.hbm.pairs h.tag.toNat = none) (hgo : mustWait s h = false) (hnone : s.hbm.waiting = []) :
    takeHalf a h s = openPair a h s := by
  simp [takeHalf, hnew, hgo, hnone]

/-- The second half of a split write within 64 µs: both bursts are applied, the first one first. -/
theorem takeHalf_of_second {a : Nat} (he : Tab.get s.hbm.pairs h.tag.toNat = some e) (hopen : e.st = .opened)
    (hsoon : (a - e.at_) * 1000000 < 64 * tickHz) (hkind : e.kind = .splitWrite) (hsecond : h.second = true) (hfirst : e.firstSecond = false) :
    takeHalf a h s = pairRequests false { h with kind := e.kind, escape := e.escape } (applyPair h.tag.toNat e [e.first, h.payload] s) := by
  simp only [takeHalf, he, hopen, atLeastUs, decide_eq_false (not_le.2 hsoon), hkind, hsecond, hfirst, Bool.true_eq_false, Bool.false_eq_true,
    ↓reduceIte]

/-- A pair of a split write that is applied puts no bytes into host memory. -/
theorem applyPair_of_splitWrite {tag : Nat} {bursts : List Bytes} (hkind : e.kind = .splitWrite) : applyPair tag e bursts s =
    { (s.drawFree 1).2 with
      hbm.done := s.hbm.done ++ [⟨tag, .splitWrite, bursts⟩]
      hbm.pairs := if (s.drawFree 1).1 = 0 then Tab.del s.hbm.pairs tag else Tab.put s.hbm.pairs tag { e with st := .applied, first := [] } } := by
  simp only [applyPair, hkind]
  rfl

variable {t : Tick} {u : State} (hu : s.advance t = u)
include hu

theorem exec_pairHalfArrival_of_first (hnew : Tab.get u.hbm.pairs h.tag.toNat = none) (hgo : mustWait u h = false)
    (hnone : u.hbm.waiting = []) : exec (.pairHalfArrival t h) s = .next (openPair u.now h u) := by
  rw [exec, execPairHalfArrival]
  simp only [hu, takeHalf_of_first hnew hgo hnone, retryHalves_of_none (s := openPair u.now h u) (by simp [openPair, hnone])]

theorem exec_pairHalfArrival_of_second (he : Tab.get u.hbm.pairs h.tag.toNat = some e) (hopen : e.st = .opened)
    (hsoon : (u.now - e.at_) * 1000000 < 64 * tickHz) (hkind : e.kind = .splitWrite) (hsecond : h.second = true)
    (hfirst : e.firstSecond = false) (hnone : u.hbm.waiting = []) : exec (.pairHalfArrival t h) s =
      .next (pairRequests false { h with kind := e.kind, escape := e.escape } (applyPair h.tag.toNat e [e.first, h.payload] u)) := by
  rw [exec, execPairHalfArrival]
  simp only [hu, takeHalf_of_second he hopen hsoon hkind hsecond hfirst]
  rw [retryHalves_of_none]
  rw [pairRequests_waiting, applyPair_of_splitWrite hkind]
  exact hnone

theorem exec_pairTimeout_of_late (he : Tab.get u.hbm.pairs h.tag.toNat = some e) (hopen : e.st = .opened)
    (hlate : 64 * tickHz ≤ (u.now - e.at_) * 1000000) (hnone : u.hbm.waiting = []) :
    exec (.pairTimeout t h.tag) s = .next (discardPair h.tag.toNat e u) := by
  rw [exec, execPairTimeout]
  simp only [hu, he, hopen, atLeastUs, hlate, decide_true, and_self, ↓reduceIte]
  rw [hnone]
  rfl

section
variable (he : Tab.get u.hbm.pairs h.tag.toNat = some e) (hlate : 128 * tickHz ≤ (u.now - e.at_) * 1000000)
include he hlate

theorem exec_pairQuery_of_open (hopen : e.st = .opened) :
    exec (.pairQuery t h.tag) s = .next { u with hbm.answer := some (h.tag.toNat, some .opened) } := by
  rw [exec, execPairQuery]
  simp only [hu, he, hopen, atLeastUs, hlate, decide_true, Bool.not_true, Bool.false_eq_true, ↓reduceIte]

theorem exec_pairQuery_of_discarded (hst : e.st = .discarded) (hnone : u.hbm.waiting = []) : exec (.pairQuery t h.tag) s = .next { u with
    hbm.answer := some (h.tag.toNat, some .discarded), hbm.pairs := Tab.del u.hbm.pairs h.tag.toNat
    hbm.reissue := u.hbm.reissue.filter (fun x => decide (x.1 ≠ h.tag.toNat)) } := by
  rw [exec, execPairQuery]
  simp only [hu, he, hst, atLeastUs, hlate, decide_true, Bool.not_true, Bool.false_eq_true, reduceCtorEq, ↓reduceIte, hnone,
    List.length_nil, retryHalvesN]

end

theorem exec_pairQuery_of_unknown (hnew : Tab.get u.hbm.pairs h.tag.toNat = none) :
    exec (.pairQuery t h.tag) s = .next { u with hbm.answer := some (h.tag.toNat, none) } := by
  rw [exec, execPairQuery]
  simp only [hu, hnew]

end

/-- Settles O28, command by command. -/
theorem pairedBurstsApplyWhole : Obligations.PairedBurstsApplyWhole := by
  intro t h e s u
  refine ⟨exec_pairHalfArrival_of_first rfl, fun he hopen hsoon hkind hsecond hfirst hnone => ?_, exec_pairTimeout_of_late rfl,
    fun he hlate => ⟨exec_pairQuery_of_open rfl he hlate, exec_pairQuery_of_discarded rfl he hlate⟩, exec_pairQuery_of_unknown rfl⟩
  rw [exec_pairHalfArrival_of_second rfl he hopen hsoon hkind hsecond hfirst hnone, applyPair_of_splitWrite hkind]

end Sys2Proof.Machine

/-!
The controller of the HBM stacks (R358 to R364, R418): refresh, temperature, alert, the end of training and the scrubber; from these O27.
-/
namespace Sys2Proof.Machine

/-! ## What a hot reading sets off (R418) -/

/-- Completions and events leave what the management side knows of temperatures. -/
theorem SameOutsideHost.hot {s t : State} (h : SameOutsideHost s t) : t.mgmt.hot = s.mgmt.hot := by
  unfold SameOutsideHost at h
  have hhot := congrArg (fun x : State => x.mgmt.hot) h
  exact hhot

theorem thermalEvent_hot (n : Nat) (x : Nat × Int × Int) (s : State) : (thermalEvent n x s).mgmt.hot = s.mgmt.hot :=
  (postEvent_sameOutsideHost _ _ _ s).hot

theorem thermalTrip_hot (x : Nat × Int × Int) (s : State) : (thermalTrip x s).mgmt.hot = s.mgmt.hot := by
  unfold thermalTrip
  split
  · exact thermalEvent_hot 2 x s
  · rfl

/-- ALERT_N goes low at Tmax. -/
theorem thermalRise_hot {x : Nat × Int × Int} (h : 0 ≤ x.2.2) (s : State) : (thermalRise x s).mgmt.hot = true := by
  rw [thermalRise, thermalTrip_hot, thermalHot, if_pos h]

theorem thermalTrip_trip {x : Nat × Int × Int} (h : 10000 ≤ x.2.2) (s : State) : (thermalTrip x s).mgmt.trip = true := by
  by_cases htrip : s.mgmt.trip = true
  · rw [thermalTrip, if_neg fun hno => hno.2 htrip, htrip]
  · rw [thermalTrip, if_pos ⟨h, htrip⟩]

section
variable {t : Tick} {s u : State} (hu : s.advance t = u)
include hu

/-! ## Refresh (R359) -/

theorem exec_hbmRefresh_of_due {pc : Fin 128} (hdue : refreshDue u pc.val = true) {w : State} (hw : hbmServe pc.val (fun q => q) u = w) :
    exec (.hbmRefresh t pc) s = .next { w with
      hbm.refreshAt := Tab.put w.hbm.refreshAt pc.val u.now, hbm.perBank := w.hbm.perBank + b01 (perBankNow w pc.val)
      hbm.refreshBank := if perBankNow w pc.val then Tab.put w.hbm.refreshBank pc.val (refreshBank w pc.val) else w.hbm.refreshBank } := by
  have hnow : w.now = u.now := by rw [← hw]; rfl
  rw [exec, execHbmRefresh]
  simp only [hu, hdue, hw, hnow, ↓reduceIte]

theorem exec_hbmRefresh_of_early {pc : Fin 128} (hdue : refreshDue u pc.val = false) : exec (.hbmRefresh t pc) s = .next u := by
  rw [exec, execHbmRefresh]
  simp only [hu, hdue, Bool.false_eq_true, ↓reduceIte]

/-! ## Temperatures (R358, R418) -/

section
variable {k : Fin 4} (hdue : tempDue u k.val = true)
include hdue

theorem exec_hbmTempRead_of_reading (v : Int) : exec (.hbmTempRead t k (some v)) s = .next (let w := readTemp k.val (some v) u
    if w.pins.vcore then thermalRise (17 + k.val, 1000 * v, 1000 * v - 95000) w else w) := by
  rw [exec, execHbmTempRead]
  simp only [hu, hdue, Bool.not_true, Bool.false_eq_true, ↓reduceIte]

theorem exec_hbmTempRead_of_failure : exec (.hbmTempRead t k none) s = .next (readTemp k.val none u) := by
  rw [exec, execHbmTempRead]
  simp only [hu, hdue, Bool.not_true, Bool.false_eq_true, ↓reduceIte]

theorem exec_hbmTempRead_of_cool {v : Int} (hcool : v < 90) : exec (.hbmTempRead t k (some v)) s = .next (readTemp k.val (some v) u) := by
  rw [exec_hbmTempRead_of_reading hu hdue v]
  simp only [thermalRise_low (17 + k.val, 1000 * v, 1000 * v - 95000) _ (by dsimp only; omega), ite_self]

/-- What a reading records, and the thresholds of R418 while VCORE is in range. -/
theorem exec_hbmTempRead_records (v : Int) : ∃ w, exec (.hbmTempRead t k (some v)) s = .next w ∧ vget w.hbm.temps k.val none = some v ∧
    vget w.hbm.readFails k.val 0 = 0 ∧ (85 < v → vget w.hbm.hot k.val false = true) ∧ (u.pins.vcore = true → 95 ≤ v → w.mgmt.hot = true) ∧
    (u.pins.vcore = true → 105 ≤ v → w.mgmt.trip = true) := by
  obtain ⟨w, hw⟩ : ∃ w, readTemp k.val (some v) u = w := ⟨_, rfl⟩
  have hpins : w.pins = u.pins := by rw [← hw]; rfl
  have htemps : vget w.hbm.temps k.val none = some v := by rw [← hw]; exact vget_vset_same _ _ _ _ k.isLt
  have hfails : vget w.hbm.readFails k.val 0 = 0 := by rw [← hw]; exact vget_vset_same _ _ _ _ k.isLt
  have hhot : 85 < v → vget w.hbm.hot k.val false = true := by
    intro h
    rw [← hw, readTemp]
    simp only [if_pos h]
    exact vget_vset_same _ _ _ _ k.isLt
  refine ⟨_, exec_hbmTempRead_of_reading hu hdue v, ?_⟩
  simp only [hw, hpins]
  split
  case isTrue h =>
    have hhbm (x : Nat × Int × Int) : (thermalRise x w).hbm = w.hbm := by simp
    exact ⟨by rw [hhbm, htemps], by rw [hhbm, hfails], by rw [hhbm]; exact hhot,
      fun _ hv => thermalRise_hot (by dsimp only; omega) w, fun _ hv => thermalTrip_trip (by dsimp only; omega) _⟩
  case isFalse h => exact ⟨htemps, hfails, hhot, fun hin => absurd hin h, fun hin => absurd hin h⟩

end

/-! ## Alerts (R360, R361) -/

section
variable {ch : Fin 64} (hgood : u.hbm.chFail.getLsbD ch.val = false)
include hgood

theorem exec_hbmAlert_of_fourth (hmany : 3 ≤ Tab.getD u.hbm.replays ch.val 0) : exec (.hbmAlert t ch true) s =
    .next (failChannel ch.val { u with hbm.replays := Tab.del u.hbm.replays ch.val }) := by
  rw [exec, execHbmAlert]
  simp only [hu, hgood, hmany, Bool.false_eq_true, ↓reduceIte]

/-- An earlier alert replays: the count of the channel's recurring alerts goes on, and a recovery opens or moves its end. -/
theorem exec_hbmAlert_of_replay {recurs : Bool} {n : Nat} (hn : (if recurs then Tab.getD u.hbm.replays ch.val 0 else 0) = n) (hfew : n < 3) :
    ∃ w, exec (.hbmAlert t ch recurs) s = .next w ∧ w.hbm.chFail = u.hbm.chFail ∧ Tab.getD w.hbm.replays ch.val 0 = n + 1 ∧
      Tab.get w.hbm.replayAt ch.val = some u.now ∧
      (0 < n → w.twin.recov = (moveRecovery 1 ch.val (u.tw + tickHz / 1000) u).twin.recov) := by
  obtain ⟨v, hv⟩ : ∃ v, (if 0 < n then moveRecovery 1 ch.val (u.tw + tickHz / 1000) u
    else closeRecovery 1 ch.val (u.tw + tickHz / 1000) (openRecovery 1 ch.val u)) = v := ⟨_, rfl⟩
  have hhbm : v.hbm = u.hbm := by rw [← hv]; split <;> simp
  have hnow : v.now = u.now := by rw [← hv]; split <;> simp
  rw [exec, execHbmAlert]
  simp only [hu, hgood, hn, not_le.2 hfew, hv, Bool.false_eq_true, ↓reduceIte]
  refine ⟨_, rfl, ?_, ?_, ?_, ?_⟩
  · change v.hbm.chFail = u.hbm.chFail
    rw [hhbm]
  · exact Tab.getD_put_same _ _ _ _
  · simp [hnow]
  · intro hpos
    rw [if_pos hpos] at hv
    simp [← hv]

end

/-! ## Training (R475) -/

theorem exec_hbmTrainingDone_of_first {trained : BitVec 4} (hdone : u.hbm.trainDone = false) : exec (.hbmTrainingDone t trained) s =
    .next ((List.range 64).foldl (fun s c => if trained.getLsbD (c / 16) then s else failChannel c s)
      { u with hbm.trained := trained, hbm.trainDone := true }) := by
  rw [exec, execHbmTrainingDone]
  simp only [hu, hdone, Bool.false_eq_true, ↓reduceIte]

/-! ## The scrubber (R364) -/

section
variable {word : Nat} {ecc : List Ecc} {v z : State} (hv : scrubPass u = v) (hdue : scrubDue v word = true)
  (hz : { v with hbm.scrubNext := Nat.max v.hbm.scrubNext (word + 1), hbm.skipped := v.hbm.skipped.filter (fun x => x ≠ word) } = z)
include hv hdue hz

theorem exec_scrubStep_of_open {y : Nat} (hy : wordTile z word = some y) (hopen : tileOpen z y = true) :
    exec (.scrubStep t word ecc) s = .next { z with hbm.skipped := z.hbm.skipped ++ [word] } := by
  dsimp only at hz
  rw [exec, execScrubStep]
  simp only [hu, hv, hdue, hz, hy, hopen, Bool.not_true, Bool.false_eq_true, ↓reduceIte]
  rw [← hz]

theorem exec_scrubStep_of_free (hfree : ∀ y, wordTile z word = some y → tileOpen z y = false) {e : List Ecc}
    (he : eccSeen z (fun _ => 32 * word) 0 1 ecc = e) {w : State}
    (hw : e.foldl (fun s x => eccWord 7 (32 * word) x.corrected s) (hbmRequest 7 .outside (32 * word) z) = w) :
    exec (.scrubStep t word ecc) s = .next { w with
      hbm.soft := w.hbm.soft.filter (fun x => x ≠ word)
      mgmt.logSkipped := w.mgmt.logSkipped + b01 (poisonedIn e &&
        decide (regionBase w 5 + regionSize w 5 / 2 ≤ 32 * word ∧ 32 * word < regionBase w 6)) } := by
  dsimp only at hz
  rw [exec, execScrubStep]
  cases hy : wordTile z word with
  | none => simp only [hu, hv, hdue, hz, hy, he, hw, Bool.not_true, Bool.false_eq_true, ↓reduceIte]
  | some y => simp only [hu, hv, hdue, hz, hy, hfree y hy, he, hw, Bool.not_true, Bool.false_eq_true, ↓reduceIte]

end

end

/-- Settles O27, command by command. -/
theorem memoryKeepsItself : Obligations.MemoryKeepsItself := by
  intro t pc k ch v tr word ecc s u
  refine ⟨fun hdue => exec_hbmRefresh_of_due rfl hdue rfl, exec_hbmRefresh_of_early rfl, fun hdue hcool => exec_hbmTempRead_of_cool rfl hdue hcool,
    fun hdue => exec_hbmTempRead_records rfl hdue v, fun hdue => exec_hbmTempRead_of_failure rfl hdue, exec_hbmAlert_of_fourth rfl,
    ?_, ?_, ?_, ?_⟩
  · intro hgood
    obtain ⟨w, hw, hfail, hcount, hat, _⟩ := exec_hbmAlert_of_replay rfl hgood (recurs := false) (n := 0) rfl (by decide)
    exact ⟨w, hw, hfail, hcount, hat⟩
  · intro n hgood hn hpos hfew
    obtain ⟨w, hw, _, hcount, _, hrecov⟩ := exec_hbmAlert_of_replay rfl hgood (recurs := true) hn hfew
    exact ⟨w, hw, hcount, hrecov hpos⟩
  · intro hdone
    exact exec_hbmTrainingDone_of_first rfl hdone
  · intro y z e w hdue
    exact ⟨fun hfree => exec_scrubStep_of_free rfl rfl hdue rfl hfree rfl rfl, fun _ => exec_scrubStep_of_open rfl rfl hdue rfl⟩

end Sys2Proof.Machine

/-!
SECURITY.CTL and the debug lock (R472, R473, R505): what each command bit of Table 18-8 does; from these O22.
-/
namespace Sys2Proof.Machine

theorem revokeSlots_zero (s : State) : revokeSlots 0 s = s := by
  simp [revokeSlots]

theorem writeSecurityCtl_lock (s : State) : writeSecurityCtl 1 s = { s with boot.dbgLock := true } := revokeSlots_zero _

theorem writeSecurityCtl_fuse (s : State) : writeSecurityCtl 2 s = { s with boot.fuses.dbgFused := true } := revokeSlots_zero _

theorem writeSecurityCtl_commit (s : State) : writeSecurityCtl 4 s = commitSvn s := revokeSlots_zero _

/-- REVOKE with no other command bit: bits 6:3 name the slots. -/
theorem writeSecurityCtl_revoke (m : BitVec 4) (s : State) : writeSecurityCtl (m.setWidth 32 <<< 3) s = revokeSlots m s := by
  have hbits : ∀ m : BitVec 4, (rbit (m.setWidth 32 <<< 3) 0 = false ∧ rbit (m.setWidth 32 <<< 3) 1 = false ∧
      rbit (m.setWidth 32 <<< 3) 2 = false) ∧ BitVec.ofNat 4 (fld (m.setWidth 32 <<< 3) 3 4) = m := by decide
  obtain ⟨⟨hlock, hfuse, hcommit⟩, hslots⟩ := hbits m
  simp only [writeSecurityCtl, hlock, hfuse, hcommit, hslots, Bool.false_eq_true, ↓reduceIte]

theorem commitSvn_of_room {s : State} (hslot : s.boot.fwSlot ≠ none) (hlow : s.boot.fuses.svnMin < s.boot.fwSvn.toNat)
    (hroom : s.boot.fuses.raises < 64) : commitSvn s =
      { s with boot.fuses.svnMin := s.boot.fwSvn.toNat, boot.fuses.raises := s.boot.fuses.raises + 1 } := by
  simp [commitSvn, Option.isSome_iff_ne_none.2 hslot, hlow, hroom]

theorem commitSvn_of_full {s : State} (h : 64 ≤ s.boot.fuses.raises ∨ s.boot.fwSvn.toNat ≤ s.boot.fuses.svnMin) : commitSvn s = s := by
  unfold commitSvn
  refine if_neg fun hno => ?_
  simp only [Bool.and_eq_true, decide_eq_true_eq] at hno
  omega

/-- Settles O22. -/
theorem securityControlActs : Obligations.SecurityControlActs := by
  intro s
  rw [writeSecurityCtl_lock, writeSecurityCtl_fuse, writeSecurityCtl_commit]
  refine ⟨rfl, rfl, ?_, ?_, fun hslot hlow hroom => ?_, fun h => ?_, fun m slot hslot hfw => ?_, fun i => ?_, by decide, by decide, by decide,
    by decide⟩
  · rfl
  · simp [dbgLocked]
  · rw [commitSvn_of_room hslot hlow hroom]
    exact ⟨rfl, rfl⟩
  · rw [commitSvn_of_full h]
  · rw [writeSecurityCtl_revoke]
    simp only [revokeSlots, hfw]
  · cases i <;> rfl

end Sys2Proof.Machine

/-!
Accesses of the set-up registers (R409 to R411, R476 to R482): what reaches a target that no locked sequence holds, and how locked sequences
open, hold and break; from these O20 and O21. The write of HOSTIF.CTL follows R371, which O19 does not say.
-/
namespace Sys2Proof.Machine

/-! ## Accesses that nothing holds back -/

theorem brokenLock_of_no_locks {s : State} (h : s.mgmt.locks = []) (x : XTarget) (m : Master) : brokenLock s x m = false := by
  simp [brokenLock, h]

theorem openLock_of_no_locks {s : State} (h : s.mgmt.locks = []) (x : XTarget) : openLock s x = none := by
  simp [openLock, h]

section
variable {u : State} (hin : inReset u = false) (hreach : reaches u .hostBridge .banks = true) (hlocks : u.mgmt.locks = [])
  (hslow : u.host.slow = false) (hfree : outstanding u .hostBridge = false)

section
include hreach hlocks hslow hfree

/-- An access of the host is served at once where no access of it is outstanding and no sequence is open. -/
theorem access_of_free (a : Access) : access .hostBridge .banks a u = serve .hostBridge .banks a u := by
  simp only [access, hslow, hfree, hreach, brokenLock_of_no_locks hlocks, openLock_of_no_locks hlocks, Bool.false_eq_true, and_false,
    Bool.not_true, ↓reduceIte]

end

section
include hin

theorem regWrite_of_misaligned {off : Nat} {w : AccessWidth} (h : off % accBytes w ≠ 0) (m : Master) (x : BitVec 64) :
    regWrite m off w x u = accFlag 8 u := by
  simp only [regWrite, hin, h, ne_eq, not_false_eq_true, Bool.false_eq_true, ↓reduceIte]

theorem regWrite_of_narrow {off : Nat} {w : AccessWidth} (hw : w = .w8 ∨ w = .w16) (h : off % accBytes w = 0) (m : Master)
    (x : BitVec 64) : regWrite m off w x u =
      accFlag (if 10 ≤ off / 0x10000 then 3 else 1) (if bankServed u off then u else { u with boot.earlyWr := true }) := by
  obtain rfl | rfl := hw <;>
    simp only [regWrite, hin, h, ne_eq, not_true_eq_false, Bool.false_eq_true, ↓reduceIte]

theorem regWrite_of_aligned {off : Nat} (h : off % 4 = 0) (m : Master) (x : BitVec 64) :
    regWrite m off .w32 x u = regWrite32 m off (x.setWidth 32) u := by
  simp only [regWrite, hin, accBytes, h, ne_eq, not_true_eq_false, Bool.false_eq_true, ↓reduceIte]

end

end

theorem regRead_of_misaligned {off : Nat} {w : AccessWidth} (h : off % accBytes w ≠ 0) (s : State) :
    regRead off w s = (0, accFlag 8 s) := by
  unfold regRead
  rw [if_pos h]

theorem regRead_of_aligned {off : Nat} (h : off % 4 = 0) (s : State) : regRead off .w32 s = regRead32 off s := by
  simp only [regRead, accBytes, h, ne_eq, not_true_eq_false, ↓reduceIte]

/-! ## Banks (R466, R478, R479) -/

section
variable {off : Nat} {s : State}

theorem bankServed_of_ready (h : s.boot.ready = true) : bankServed s off = true := by simp [bankServed, h]

/-- Before READY only ID_BOOT and SECURITY are served. -/
theorem bankServed_of_early (h : s.boot.ready = false) (hboot : off / 0x10000 ≠ 0) (hsec : off / 0x10000 ≠ 8) :
    bankServed s off = false := by
  simp [bankServed, h, hboot, hsec]

theorem regWrite32_of_reserved_bank (hbank : 10 ≤ off / 0x10000) (m : Master) (v : Reg) :
    regWrite32 m off v s = accFlag 2 (if bankServed s off then s else { s with boot.earlyWr := true }) := by
  simp only [regWrite32, hbank, ↓reduceIte]

theorem regWrite32_of_early (hbank : off / 0x10000 < 10) (hserved : bankServed s off = false) (m : Master) (v : Reg) :
    regWrite32 m off v s = { s with boot.earlyWr := true } := by
  have hstays : bankServed { s with boot.earlyWr := true } off = false := hserved
  simp only [regWrite32, hserved, not_le.2 hbank, hstays, Bool.not_false, Bool.false_eq_true, ↓reduceIte]

theorem regWrite32_of_served (hbank : off / 0x10000 < 10) (hserved : bankServed s off = true) {r : RegId} (hr : regAt off = some r)
    (m : Master) (v : Reg) : regWrite32 m off v s = if reservedCode r v then accFlag 4 s else storeReg m r v s := by
  simp only [regWrite32, hserved, not_le.2 hbank, hr, Bool.not_true, Bool.false_eq_true, ↓reduceIte]

theorem regRead32_of_served (hbank : off / 0x10000 < 10) (hserved : bankServed s off = true) {r : RegId} (hr : regAt off = some r) :
    regRead32 off s = (readReg s r, latchHi r s) := by
  simp only [regRead32, hserved, not_le.2 hbank, hr, Bool.not_true, Bool.false_eq_true, ↓reduceIte]

theorem serve_read_banks (m : Master) (w : AccessWidth) :
    serve m .banks (.read off w) s = { (regRead off w s).2 with out.read := BitVec.ofNat 64 (regRead off w s).1 } := rfl

end

/-! ## The host's accesses of BAR0 -/

section
variable {t : Tick} {addr : BitVec 32} {x : BitVec 64} {s u : State} (hu : s.advance t = u) {off : Nat} (hoff : addr.toNat % 2 ^ 22 = off)
  (hreach : reaches u .hostBridge .banks = true) (hlocks : u.mgmt.locks = []) (hslow : u.host.slow = false)
  (hfree : outstanding u .hostBridge = false)
include hu hoff hreach hlocks hslow hfree

theorem exec_registerWrite_of_host (w : AccessWidth) :
    exec (.registerWrite t .hostBridge addr w x) s = .next (regWrite .hostBridge off w x u) := by
  rw [exec, execRegisterWrite, hu, ← hoff]
  exact congrArg Host.Outcome.next (access_of_free hreach hlocks hslow hfree _)

theorem exec_badRegisterRead_of_host (w : AccessWidth) : exec (.badRegisterRead t ⟨.hostBridge, addr⟩ w) s =
    .next { (regRead off w u).2 with out.read := BitVec.ofNat 64 (regRead off w u).1 } := by
  rw [exec, execBadRegisterRead, hu, ← hoff]
  exact congrArg Host.Outcome.next (access_of_free hreach hlocks hslow hfree _)

end

theorem exec_latchedLoRead_serial {t : Tick} {s u : State} (hu : s.advance t = u) (hreach : reaches u .hostBridge .banks = true)
    (hlocks : u.mgmt.locks = []) (hslow : u.host.slow = false) (hfree : outstanding u .hostBridge = false) :
    exec (.latchedLoRead t .serial) s = .next { u with
      boot.serialHi := some (u.boot.fuses.serial.extractLsb' 32 32), out.read := (u.boot.fuses.serial.extractLsb' 0 32).setWidth 64 } := by
  have hserved : bankServed u 0x18 = true := by simp [bankServed]
  have hlow : BitVec.ofNat 64 (word64 u.boot.fuses.serial.toNat 0) = (u.boot.fuses.serial.extractLsb' 0 32).setWidth 64 :=
    BitVec.eq_of_toNat_eq (by simp [word64])
  have hhigh : BitVec.ofNat 32 (word64 u.boot.fuses.serial.toNat 1) = u.boot.fuses.serial.extractLsb' 32 32 :=
    BitVec.eq_of_toNat_eq (by simp [word64, Nat.shiftRight_eq_div_pow])
  have hread : regRead 0x18 .w32 u = (word64 u.boot.fuses.serial.toNat 0, latchHi .serialLo u) := by
    rw [regRead_of_aligned rfl, regRead32_of_served (by decide) hserved (r := .serialLo) (by decide)]
    rfl
  rw [exec, execLatchedLoRead, hu, ← hlow, ← hhigh]
  dsimp only
  rw [access_of_free hreach hlocks hslow hfree, serve_read_banks, hread]
  rfl

theorem exec_registerWrite_of_no_target {t : Tick} {m : Master} {addr : BitVec 32} {w : AccessWidth} {x : BitVec 64} {s u : State}
    (hu : s.advance t = u) (hm : m ≠ .hostBridge) (hnone : xTarget u addr.toNat = none) :
    exec (.registerWrite t m addr w x) s = .next (accessError u) := by
  rw [exec, execRegisterWrite]
  simp only [hu, accessAt, hm, hnone, ↓reduceIte]

/-- Settles O20. -/
theorem registerWidthsAndBanks : Obligations.RegisterWidthsAndBanks := by
  intro t addr w x s u off hin hreach hlocks hslow hfree
  have hwrite {addr : BitVec 32} (w : AccessWidth) := exec_registerWrite_of_host (x := x) (addr := addr) (t := t)
    (s := s) rfl rfl hreach hlocks hslow hfree w
  have hread (w : AccessWidth) := exec_badRegisterRead_of_host (addr := addr) (t := t) (s := s) rfl rfl hreach hlocks hslow hfree w
  refine ⟨fun hmis => ?_, fun n hn hal => ?_, fun hready hbank hal => ?_, fun hearly hlow hhigh hal => ?_, fun hearly hbank hal => ?_,
    fun r hready hal hbank hr hcode => ?_, ?_, fun hmis => ?_, fun hbank hal => ?_, fun n hnone => ?_,
    exec_latchedLoRead_serial rfl hreach hlocks hslow hfree⟩
  · rw [hwrite, regWrite_of_misaligned hin hmis]
    rfl
  · have hflag : (10 ≤ off / 0x10000) = (0xA0000 ≤ off) := by rw [Nat.le_div_iff_mul_le (by decide)]
    rw [hwrite, regWrite_of_narrow hin hn hal]
    simp only [hflag]
    cases hserved : bankServed u off
    · simp only [Bool.not_false, Bool.or_true, Bool.false_eq_true, ↓reduceIte]
      rfl
    · simp only [Bool.not_true, Bool.or_false, ↓reduceIte]
      rfl
  · rw [hwrite, regWrite_of_aligned hin hal, regWrite32_of_reserved_bank (by omega), if_pos (bankServed_of_ready hready)]
    rfl
  · rw [hwrite, regWrite_of_aligned hin hal, regWrite32_of_early (by omega) (bankServed_of_early hearly (by omega) (by omega))]
  · rw [hwrite, regWrite_of_aligned hin hal, regWrite32_of_reserved_bank (by omega), bankServed_of_early hearly (by omega) (by omega)]
    rfl
  · rw [hwrite, regWrite_of_aligned hin hal, regWrite32_of_served (by omega) (bankServed_of_ready hready) hr, if_pos hcode]
    rfl
  · rw [hwrite, regWrite_of_aligned hin (by decide), regWrite32_of_served (by decide) (by simp [bankServed]) (r := .scratch) (by decide),
      if_neg (by simp [reservedCode])]
    rfl
  · rw [hread, regRead_of_misaligned hmis]
    rfl
  · rw [hread, regRead_of_aligned hal, regRead32, if_pos (by omega)]
    rfl
  · exact exec_registerWrite_of_no_target rfl (by simp) hnone

/-! ## Locked sequences (R410, R411) -/

theorem reaches_banks {m : Master} (hm : m ≠ .debug) (s : State) : reaches s m .banks = true := by
  simp [reaches, aliased, hm]

section
variable {n : Fin 4} {k a : Nat} {u : State} (hlocks : u.mgmt.locks = [(.banks, ⟨.core n, k, a, false⟩)])
include hlocks

theorem openLock_of_locked : openLock u .banks = some ⟨.core n, k, a, false⟩ := by
  simp [openLock, hlocks]

theorem brokenLock_of_locked (m : Master) : brokenLock u .banks m = false := by
  simp [brokenLock, hlocks]

end

section
variable {t : Tick} {n : Fin 4} {s u : State} (hu : s.advance t = u)
include hu

theorem exec_crossbarLock_of_free (hlocks : u.mgmt.locks = []) (hfree : outstanding u (.core n) = false) :
    exec (.crossbarLock t (.core n) .banks false) s = .next { u with mgmt.locks := [(.banks, ⟨.core n, 0, u.now, false⟩)] } := by
  have haccess : access (.core n) .banks .openLock u = { u with mgmt.locks := [(.banks, ⟨.core n, 0, u.now, false⟩)] } := by
    simp only [access, reduceCtorEq, false_and, hfree, reaches_banks (m := .core n) (by simp), brokenLock_of_no_locks hlocks,
      openLock_of_no_locks hlocks, serve, Option.isSome_none, hlocks, List.nil_append, Bool.not_true, Bool.false_eq_true, ↓reduceIte]
  rw [exec, execCrossbarLock, ← haccess]
  simp only [hu, aliased, coreMaster, reduceCtorEq, Bool.true_or, Bool.not_true, Bool.not_false, Bool.false_eq_true, ↓reduceIte]

section
variable {k a : Nat} (hlocks : u.mgmt.locks = [(.banks, ⟨.core n, k, a, false⟩)])
include hlocks

/-- While the sequence of a core is open, an access of the host waits. -/
theorem exec_registerWrite_of_locked (hslow : u.host.slow = false) (addr : BitVec 32) (w : AccessWidth) (x : BitVec 64) :
    exec (.registerWrite t .hostBridge addr w x) s =
      .next { u with mgmt.waiting := u.mgmt.waiting ++ [(.banks, .hostBridge, .write (addr.toNat % 2 ^ 22) w x)] } := by
  rw [exec, execRegisterWrite, hu]
  change Host.Outcome.next (access _ _ _ _) = _
  simp only [access, hslow, reaches_banks (m := .hostBridge) (by simp), brokenLock_of_locked hlocks, openLock_of_locked hlocks,
    Access.moved, reduceCtorEq, Bool.not_true, Bool.false_eq_true, and_false, ite_self, ↓reduceIte]

theorem exec_crossbarLockBroken_of_limit (hlimit : 32 ≤ k ∨ 5 * tickHz ≤ (u.now - a) * 1000000) :
    exec (.crossbarLockBroken t .banks) s =
      .next (releaseTarget (.core n) { u with mgmt.locks := [(.banks, ⟨.core n, k, a, true⟩)], mgmt.lockBroken := true }) := by
  have hover : (decide (32 ≤ k) || atLeastUs (u.now - a) 5) = true := by simpa [atLeastUs] using hlimit
  have halias : aliased u .banks = .banks := rfl
  rw [exec, execCrossbarLockBroken]
  simp only [hu, halias, openLock_of_locked hlocks, hover, hlocks, List.map_cons, List.map_nil, ↓reduceIte]

end

end

/-- Settles O21, command by command. -/
theorem lockedSequencesHoldTheTarget : Obligations.LockedSequencesHoldTheTarget := by
  intro t n addr w x s u
  exact ⟨exec_crossbarLock_of_free rfl, fun k a hlocks => ⟨fun hslow => exec_registerWrite_of_locked rfl hlocks hslow addr w x,
    exec_crossbarLockBroken_of_limit rfl hlocks⟩⟩

/-! ## HOSTIF.CTL (R371) -/

/-- A device that is ready, after the host has cleared Bus Master Enable and not set it again. -/
def busMasterCleared : State := { State.reset with boot.ready := true, host.gen := 4, host.stopped := true }

/-- EN alone does not end what R371 stopped: Bus Master Enable must be back. -/
theorem exec_hostifEnable_busMasterCleared : ∃ u, exec (.hostifEnable 0 1) busMasterCleared = .next u ∧ u.host.stopped = true := by
  have hwrite : hostReg 0x10000 1 (busMasterCleared.advance 0) = writeHostCtl 1 (busMasterCleared.advance 0) :=
    hostReg_served 0x10000 .hifCtl 1 _ rfl rfl (by decide) rfl (by decide) rfl (by decide) rfl rfl rfl
  exact ⟨_, congrArg Host.Outcome.next hwrite, by decide⟩

/-- Refutes O19: HOSTIF.CTL written with EN while Bus Master Enable is still cleared leaves the device stopped, where the
    statement has it go on. -/
theorem not_hostRegisterWritesReachTheirRegister : ¬ Obligations.HostRegisterWritesReachTheirRegister := by
  intro h
  obtain ⟨u, hu, hstopped⟩ := exec_hostifEnable_busMasterCleared
  have hclaim := ((h 0 1 busMasterCleared (by decide) (by decide) rfl rfl rfl).2 rfl).1
  rw [hu] at hclaim
  cases hclaim
  exact absurd hstopped (by decide)

end Sys2Proof.Machine

/-! # O30: temperatures, stewards and monitor windows (R407, R418, R426, R504) -/

namespace Sys2Proof.Machine

theorem thermalAct_trip_and_hot {x : Nat × Int × Int} (h : 10000 ≤ x.2.2) (s : State) :
    (thermalAct x s).mgmt.trip = true ∧ (thermalAct x s).mgmt.hot = true := by
  rw [thermalAct]
  exact ⟨thermalTrip_trip h _, (thermalTrip_hot x _).trans (decide_eq_true (by omega))⟩

/-! ## The SMBus target (Table 20-9) -/

theorem smbusRead_of_supplied {s : State} (hvio : s.pins.vio = true) (hvcore : s.pins.vcore = true) (code : Nat) :
    smbusRead s 0x4A code = some (smbusWord s code) := if_pos ⟨rfl, hvio, hvcore⟩

theorem smbusRead_of_unsupplied {s : State} (h : (s.pins.vio && s.pins.vcore) = false) (a code : Nat) : smbusRead s a code = none :=
  if_neg fun ⟨_, hvio, hvcore⟩ => by rw [hvio, hvcore] at h; contradiction

theorem smbusRead_of_other_address {s : State} {a : Nat} (h : a ≠ smbusAddress) (code : Nat) : smbusRead s a code = none :=
  if_neg fun hall => h hall.1

theorem smbusWord_of_unassigned (s : State) : ∀ {code : Nat}, 5 < code → smbusWord s code = 0
  | _ + 6, _ => rfl

theorem getLsbD_two_of_status_bits : ∀ a b c d : Bool, (BitVec.ofNat 16 (b01 a + 2 * b01 b + 4 * b01 c + 8 * b01 d)).getLsbD 2 = c := by
  decide

/-- Bit 2 of the status word is the trip. -/
theorem smbusWord_three_getLsbD_two (s : State) : (smbusWord s 3).getLsbD 2 = s.mgmt.trip := getLsbD_two_of_status_bits _ _ _ _

section
variable {t : Tick} {s u : State} (hu : s.advance t = u)
include hu

theorem exec_thermalSample_of_hottest {temps : Vector Int 17} {x : Nat × Int × Int} (hvcore : u.pins.vcore = true)
    (hx : hottest (thermalReadings (noteTemps temps u) temps) = some x) :
    exec (.thermalSample t temps) s = .next (thermalAct x (noteTemps temps u)) := by
  rw [exec, execThermalSample]
  simp only [hu, hvcore, hx, Bool.not_true, Bool.false_eq_true, ↓reduceIte]

theorem exec_thermalSample_of_unsupplied (temps : Vector Int 17) (hvcore : u.pins.vcore = false) :
    exec (.thermalSample t temps) s = .next u := by
  rw [exec, execThermalSample]
  simp only [hu, hvcore, Bool.not_false, ↓reduceIte]

theorem exec_thermalCeilingStep_of_hot (hhot : u.mgmt.hot = true) (hlong : 10 * tickHz ≤ (u.now - u.mgmt.tceilAt) * 1000) :
    exec (.thermalCeilingStep t) s = .next (modThermal (· - 1) u) := by
  rw [exec, execThermalCeilingStep]
  simp only [hu, hhot, atLeastMs, hlong, decide_true, ↓reduceIte]

theorem exec_stewardHeartbeatMiss_of_present {w : Fin 17} (hlost : (domOf u w.val).lost = false) {v : State}
    (hv : postEvent 0x85 w.val [] (setDom w.val { domOf u w.val with lost := true } u) = v) : exec (.stewardHeartbeatMiss t w) s =
      .next (if w.val = 16 then setUntrusted 2 v else (domainEngines w.val).foldl (fun s e => markFailed e 4 s) v) := by
  rw [exec, execStewardHeartbeatMiss]
  simp only [hu, hlost, hv, Bool.false_eq_true, ↓reduceIte]

theorem exec_monitorWindowEnd_of_over {n : Fin 16} {a : WinAcc} (hacc : (winOf u n.val).acc = some a)
    (hlen : fld (winOf u n.val).len 0 16 ≠ 0) (hlong : fld (winOf u n.val).len 0 16 * tickHz ≤ (u.now - a.startAt) * 1000) :
    exec (.monitorWindowEnd t n) s = .next (startWindow n.val (snapshot n.val false u)) := by
  rw [exec, execMonitorWindowEnd]
  simp only [hu, hacc, atLeastMs, hlong, decide_true, and_true]
  exact if_pos hlen

end

/-- Settles O30: a command each; the words of the SMBus target are read off Table 20-9. -/
theorem thermalLimitsAct : Obligations.ThermalLimitsAct := by
  intro t temps x w n a s u
  refine ⟨fun hvcore hx hm => ⟨_, exec_thermalSample_of_hottest rfl hvcore hx, thermalAct_trip_and_hot hm _⟩,
    exec_thermalSample_of_unsupplied rfl temps, fun hvio hvcore => ?_, fun h => smbusRead_of_unsupplied h 0x4A,
    exec_thermalCeilingStep_of_hot rfl, fun hlost hw => ?_, fun hlost => ?_, exec_monitorWindowEnd_of_over rfl⟩
  · have hread := smbusRead_of_supplied hvio hvcore
    refine ⟨fun hready => ?_, hread 4, hread 5, fun code h => ?_, ?_, smbusRead_of_other_address (by decide) 3⟩
    · rw [hread, smbusWord, hready]
      rfl
    · rw [hread, smbusWord_of_unassigned u h]
    · rw [hread, Option.map_some, smbusWord_three_getLsbD_two]
  · rw [exec_stewardHeartbeatMiss_of_present rfl hlost rfl, if_neg (by omega)]
  · exact exec_stewardHeartbeatMiss_of_present rfl (w := 16) hlost rfl

end Sys2Proof.Machine

/-!
The lit role of a twin pair (R435 to R439, R452, R456): what the claims, the handover, the timers and the pin changes do when
their conditions hold; from these O32.
-/
namespace Sys2Proof.Machine

theorem firstFail_pair_of_met {chk : Chk} {c : Bool} (hchk : chk = none) (hc : c = true) (status info : Nat) :
    firstFail [chk, need c status info] = none := by
  rw [hchk, hc]
  rfl

/-- Two pins that are not both high are no conflict. -/
theorem pinConflict_of_pinOut_low {s : State} (h : s.twin.pinOut = false) : pinConflict s = s := by
  rw [pinConflict, h]
  rfl

theorem gapOver_pinOut (s : State) : (gapOver s).twin.pinOut = s.twin.pinOut := by
  simp [gapOver]

/-- The partner's pin rises at a member whose own is low: the gap ends, without a conflict. -/
theorem pinConflict_gapOver {s : State} (h : s.twin.pinOut = false) : pinConflict (if s.twin.pinOut then s else gapOver s) = gapOver s := by
  rw [h]
  exact pinConflict_of_pinOut_low ((gapOver_pinOut s).trans h)

section
variable {t : Tick} {s u : State} (hu : s.advance t = u)
include hu

/-! ## Claims and withdrawals -/

theorem exec_twinClaimTimer_of_step (hmay : mayClaim u = true) (hstep : u.twin.step = true)
    (hlong : (if u.member = 0 then 200 else 400) * tickHz ≤ (u.now - u.twin.pinLowAt) * 1000000) :
    exec (.twinClaimTimer t) s = .next (claim 0 u) := by
  rw [exec, execTwinClaimTimer]
  simp only [hu, hmay, hstep, atLeastUs, hlong, Bool.true_or, decide_true, Bool.and_self, ↓reduceIte]

theorem exec_litTimerExpiry_of_lit (hout : u.twin.pinOut = true) :
    exec (.litTimerExpiry t) s = .next (leaveStep (roleChange .shadow 4 (dropPin u))) := by
  rw [exec, execLitTimerExpiry]
  simp only [hu, hout, ↓reduceIte]

theorem exec_twinHandover_of_ready {d : Desc} (data : Bytes) (hd : descChk d [(32, 1)] = none) (hlit : u.twin.role = .lit)
    (hpresent : u.twin.present = true) (hpartner : u.twin.partnerStepAt ≠ none) : exec (.twinHandover t d data) s =
      .next (withdraw .shadow 1 { disturb u with host.deferred := u.host.deferred ++ [⟨d, .twinRole, none⟩] }) := by
  have hready : (decide (u.twin.role = .lit) && u.twin.present && u.twin.partnerStepAt.isSome) = true := by
    rw [hlit, hpresent, Option.isSome_iff_ne_none.mpr hpartner]
    rfl
  rw [exec, execTwinHandover, runTwinHandover, hu, firstFail_pair_of_met hd hready]

theorem exec_twinClaim_of_shadow {d : Desc} (data : Bytes) (hd : descChk d [(32, 1)] = none) (hen : u.twinEn = true)
    (hshadow : u.twin.role = .shadow) (hgood : u.twin.faulty = false) : exec (.twinClaim t d data) s =
      .next (claim 2 { disturb u with host.deferred := u.host.deferred ++ [⟨d, .twinRole, none⟩] }) := by
  have hready : (u.twinEn && decide (u.twin.role = .shadow) && !u.twin.faulty) = true := by
    rw [hen, hshadow, hgood]
    rfl
  rw [exec, execTwinClaim, runTwinClaim, hu, firstFail_pair_of_met hd hready]

/-! ## The gate and the pins -/

theorem exec_twinGateOpen_of_lit (hen : u.twinEn = true) (hgate : u.twin.gate = false) (hout : u.twin.pinOut = true)
    (hin : u.twin.pinIn = false) (hlit : u.twin.role = .lit) (hgap : u.twin.gapAt = none) :
    exec (.twinGateOpen t) s = .next (drivePins { u with twin.gate := true }) := by
  rw [exec, execTwinGateOpen]
  simp only [hu, hen, hgate, hout, hin, hlit, hgap, Bool.not_true, Bool.or_self, ne_eq, not_true_eq_false, decide_false,
    Bool.false_eq_true, ↓reduceIte]

theorem exec_pinMismatch_of_held {a : Nat} (hat : u.twin.mismatchAt = some a) (hen : u.twinEn = true) (herr : u.twin.pinErr = false)
    (hlong : tickHz ≤ (u.now - a) * 1000) : exec (.pinMismatch t) s =
      .next (postEvent 0xA4 u.member (le 1 (b01 u.twin.pinIn) ++ le 1 ((u.twin.partner.map (·.role)).getD 0))
        { u with twin.pinErr := true }) := by
  rw [exec, execPinMismatch]
  simp only [hu, hat, hen, herr, atLeastMs, one_mul, hlong, Bool.not_false, decide_true, Bool.and_self, ↓reduceIte]

theorem exec_twinLitInChange_of_rise (hin : u.twin.pinIn = false) (hout : u.twin.pinOut = false) :
    exec (.twinLitInChange t true) s =
      .next (noteMismatch (gapOver { u with twin.pinIn := true, twin.everLit := u.twin.everLit || u.twinEn })) := by
  rw [exec, execTwinLitInChange, hu, if_neg (by rw [hin]; decide)]
  exact congrArg (fun v => Host.Outcome.next (noteMismatch v))
    (pinConflict_gapOver (s := { u with twin.pinIn := true, twin.everLit := u.twin.everLit || u.twinEn }) hout)

theorem exec_twinLitInChange_of_fall (hin : u.twin.pinIn = true) : exec (.twinLitInChange t false) s =
    .next (let gap := u.twinEn && !u.twin.gate
      let v := { u with twin.pinIn := false, twin.pinLowAt := u.now, twin.gapAt := if gap then some u.tw else u.twin.gapAt }
      noteMismatch (handoverClaim (if gap && u.twin.pinOut then openSwitchover v else v))) := by
  rw [exec, execTwinLitInChange, hu, if_neg (by rw [hin]; decide)]
  rfl

end

/-- Settles O32: a command, or a level of TWIN_LIT_IN, each. -/
theorem twinRoleMoves : Obligations.TwinRoleMoves := by
  intro t d data a s u
  exact ⟨exec_twinClaimTimer_of_step rfl, exec_litTimerExpiry_of_lit rfl, exec_pinMismatch_of_held rfl,
    exec_twinHandover_of_ready rfl data, exec_twinClaim_of_shadow rfl data, exec_twinGateOpen_of_lit rfl,
    exec_twinLitInChange_of_rise rfl, exec_twinLitInChange_of_fall rfl⟩

end Sys2Proof.Machine

/-!
The pair keeps in touch (R434, R440 to R446, R455): what a heartbeat, a digest frame and the timers of a member do when their
conditions hold; from these O33.
-/
namespace Sys2Proof.Machine

theorem fieldU_drop (b : Bytes) (k off n : Nat) : fieldU (b.drop k) off n = fieldU b (k + off) n := by
  rw [fieldU, fieldU, slice, slice, List.drop_drop]

theorem firstFail_eq_none_iff {l : List Chk} : firstFail l = none ↔ ∀ c ∈ l, c = none := List.findSome?_eq_none_iff

theorem need_of_met {c : Bool} (h : c = true) (status info : Nat) : need c status info = none := if_pos h

theorem SameOutsideHost.role {s t : State} (h : SameOutsideHost s t) : t.twin.role = s.twin.role := by
  unfold SameOutsideHost at h
  have hrole := congrArg (fun x : State => x.twin.role) h
  exact hrole

theorem SameOutsideHost.ctl {s t : State} (h : SameOutsideHost s t) : t.twin.ctl = s.twin.ctl := by
  unfold SameOutsideHost at h
  have hctl := congrArg (fun x : State => x.twin.ctl) h
  exact hctl

theorem SameOutsideHost.partner {s t : State} (h : SameOutsideHost s t) : t.twin.partner = s.twin.partner := by
  unfold SameOutsideHost at h
  have hpartner := congrArg (fun x : State => x.twin.partner) h
  exact hpartner

theorem SameOutsideHost.present {s t : State} (h : SameOutsideHost s t) : t.twin.present = s.twin.present := by
  unfold SameOutsideHost at h
  have hpresent := congrArg (fun x : State => x.twin.present) h
  exact hpresent

/-! ## Due effects leave the role and the registers of the pair -/

theorem spoil_sameOutsideHost (p : Recovery → Bool) (s : State) : SameOutsideHost s (spoil p s) := by
  unfold spoil
  split
  · exact .trans (t := { s with twin.recov := s.twin.recov.map (fun r => if p r then { r with outside := true } else r) }) rfl
      (setUntrusted_sameOutsideHost 2 _)
  · exact .refl s

theorem noteActs_role (s : State) : (noteActs s).twin.role = s.twin.role := (spoil_sameOutsideHost _ s).role

theorem noteActs_ctl (s : State) : (noteActs s).twin.ctl = s.twin.ctl := (spoil_sameOutsideHost _ s).ctl

theorem quadOf_noteActs (s : State) (q : Nat) : quadOf (noteActs s) q = quadOf s q := by
  rw [quadOf, quadOf, (noteActs_frame s).2.2.2.2.2.2.2.2.2.2.2.2.1]

theorem quadsOf_noteActs (s : State) (role : Nat) : quadsOf (noteActs s) role = quadsOf s role :=
  List.filter_congr fun q _ => quadHas_of_cfg (congrArg (·.cfg) (quadOf_noteActs s q)) role

/-! ## What a heartbeat does at the lit member -/

theorem takeEqual_of_lit {s : State} (h : s.twin.role = .lit) (digest : Nat) : takeEqual digest s = s := if_pos h

theorem handoverClaim_of_lit {s : State} (h : s.twin.role = .lit) : handoverClaim s = s := by
  simp [handoverClaim, mayClaim, h]

theorem noteMismatch_role (s : State) : (noteMismatch s).twin.role = s.twin.role := by
  unfold noteMismatch
  split <;> rfl

theorem noteMismatch_partner (s : State) : (noteMismatch s).twin.partner = s.twin.partner := by
  unfold noteMismatch
  split <;> rfl

theorem noteMismatch_present (s : State) : (noteMismatch s).twin.present = s.twin.present := by
  unfold noteMismatch
  split <;> rfl

theorem postEvent_if_sameOutsideHost (c : Bool) (code subject : Nat) (args : Bytes) (s : State) :
    SameOutsideHost s (if c then postEvent code subject args s else s) := by
  split
  · exact postEvent_sameOutsideHost code subject args s
  · exact .refl s

/-- The end of a heartbeat at the lit member: event, skew, digest, pins and handover flag leave what it told of the partner. -/
theorem lit_heartbeat_keeps_partner {s : State} {p : Partner} (hlit : s.twin.role = .lit) (hpresent : s.twin.present = true)
    (hpartner : s.twin.partner = some p) (again : Bool) (subject : Nat) (args : Bytes) (digest time : Nat) :
    let v := handoverClaim (noteMismatch (takeEqual digest (takeSkew time (if again then postEvent 0xA1 subject args s else s))))
    v.twin.present = true ∧ v.twin.partner = some p := by
  have hpost := postEvent_if_sameOutsideHost again 0xA1 subject args s
  have hskew : (takeSkew time (if again then postEvent 0xA1 subject args s else s)).twin.role = .lit := hpost.role.trans hlit
  intro v
  dsimp only [v]
  rw [takeEqual_of_lit hskew, handoverClaim_of_lit ((noteMismatch_role _).trans hskew), noteMismatch_present, noteMismatch_partner]
  exact ⟨hpost.present.trans hpresent, hpost.partner.trans hpartner⟩

section
variable {t : Tick} {s u : State} (hu : s.advance t = u)
include hu

theorem exec_twinHeartbeatSend_of_pair (hen : u.twinEn = true) : exec (.twinHeartbeatSend t) s = .next (sendHeartbeat (noteActs u)) := by
  have hnote : (noteActs u).twinEn = true := by rw [State.twinEn, noteActs_ctl, ← State.twinEn, hen]
  rw [exec, execTwinHeartbeatSend, hu]
  simp only [hnote, ↓reduceIte]

theorem exec_twinHeartbeat_of_lit {f : RawFrame} (hen : u.twinEn = true) (hquad : (quadsOf u 5).head? = some (twinQuad u))
    (hup : (quadOf u (twinQuad u)).up = true) (hkind : f.kind.toNat = 0) (hfits : twinFits f = true)
    (hseq : fieldU f.data 0 2 = (quadOf u (twinQuad u)).expect) (hlit : u.twin.role = .lit) :
    ∃ v, exec (.twinHeartbeat t f) s = .next v ∧ v.twin.present = true ∧ v.twin.partner =
      some ⟨fieldU f.data 16 1, fieldU f.data 17 1, fieldU f.data 18 2, fieldU f.data 20 4, u.now⟩ := by
  have hq : twinQuad (noteActs u) = twinQuad u := by rw [twinQuad, twinQuad, noteActs_ctl]
  have hnote : (noteActs u).twinEn = true := by rw [State.twinEn, noteActs_ctl, ← State.twinEn, hen]
  rw [exec, execTwinHeartbeat, hu]
  simp only [hkind, decide_true]
  rw [twinTake_good f _ (noteActs u) hnote (by rw [quadsOf_noteActs, hq, hquad]) (by rw [quadOf_noteActs, hq, hup]) hfits
    (by rw [quadOf_noteActs, hq, hseq])]
  refine ⟨_, rfl, ?_⟩
  generalize htaken : frameTaken _ _ = w
  have hrole : w.twin.role = .lit := by rw [← htaken]; simp [noteActs_role, hlit]
  have hnow : w.now = u.now := by rw [← htaken]; simp
  have hp : (⟨fieldU (f.data.drop 16) 0 1, fieldU (f.data.drop 16) 1 1, fieldU (f.data.drop 16) 2 2, fieldU (f.data.drop 16) 4 4,
      w.now⟩ : Partner) = ⟨fieldU f.data 16 1, fieldU f.data 17 1, fieldU f.data 18 2, fieldU f.data 20 4, u.now⟩ := by
    simp only [fieldU_drop, hnow]
  rw [← hp]
  exact lit_heartbeat_keeps_partner (by exact hrole) (by rfl) (by rfl) _ _ _ _ _

theorem exec_partnerLost_of_silence {a : Nat} (hlast : ((u.twin.partner.map (·.at_)).getD u.twin.enAt) = a) (hen : u.twinEn = true)
    (hlost : u.twin.lost = false) (hlong : tickHz ≤ (u.now - a) * 1000) : exec (.partnerLost t) s =
      .next (decideArb (postEvent 0xA1 u.member [0] { u with
        twin.lost := true, twin.present := false, twin.partnerStepAt := none })) := by
  rw [exec, execPartnerLost]
  simp only [hu, hen, hlost, hlast, atLeastMs, one_mul, hlong, Bool.not_false, decide_true, Bool.and_self, ↓reduceIte]

theorem exec_timeSkew_of_excess {a : Nat} (hbad : u.twin.skewBadAt = some a) (hen : u.twinEn = true) (htold : u.twin.skewTold = false)
    (hlong : tickHz ≤ u.now - a) : exec (.timeSkew t) s = .next (postEvent 0xA7 u.member (leS 4 u.twin.skew) { u with
      twin.skewOut := true, twin.skewTold := true, twin.skewGoodAt := none }) := by
  rw [exec, execTimeSkew]
  simp only [hu, hbad, hen, htold, hlong, Bool.not_false, decide_true, Bool.and_self, ↓reduceIte]

theorem exec_inStep_of_equal {a : Nat} {p : Partner} (hequal : u.twin.equalAt = some a) (hen : u.twinEn = true)
    (hgood : u.twin.faulty = false) (hstep : u.twin.step = false)
    (hthere : u.twin.role = .lit ∨ u.twin.present = true ∧ u.twin.partner = some p ∧ p.role = 0)
    (hlong : 100 * tickHz ≤ (u.now - a) * 1000) : exec (.inStep t) s =
      .next (gstepCheck (stepEvent { u with twin.step := true, twin.stepAt := u.tw, twin.gcount := [] })) := by
  rw [exec, execInStep]
  simp only [hu, hequal, hen, hgood, hstep, atLeastMs, hlong, Bool.not_false, decide_true, Bool.and_self, Bool.and_true, Bool.true_and]
  rcases hthere with hlit | ⟨hpresent, hpartner, hrole⟩
  · simp only [hlit, decide_true, Bool.true_or, ↓reduceIte]
  · simp only [hpresent, hpartner, hrole, decide_true, Bool.and_self, Bool.or_true, ↓reduceIte]

/-! ## Digest entries (R445) -/

theorem exec_digestSend_of_unsent (hen : u.twinEn = true) (hunsent : u.twin.unsent ≠ []) : exec (.digestSend t) s =
    .next (let l := u.twin.unsent.take 340
      compareAll (twinSend 1 (le 2 l.length ++ zeros 6 ++ l.flatMap entryBytes) { u with twin.unsent := u.twin.unsent.drop 340 })) := by
  have hsome : u.twin.unsent.isEmpty = false := by rwa [List.isEmpty_eq_false_iff]
  rw [exec, execDigestSend]
  simp only [hu, hen, hsome, Bool.not_true, Bool.or_self, Bool.false_eq_true, ↓reduceIte]

theorem exec_mirrorCheckLate_of_late {cls : BitVec 8} {subject : BitVec 64} {x : DigestEntry} (hen : u.twinEn = true)
    (hcompares : compares u cls.toNat = true) (hlate : lateEntry u cls.toNat subject.toNat = some x) (hx : x.cls ≠ 2) :
    exec (.mirrorCheckLate t cls subject) s = .next (let v := markCompared x u
      if cls = 1 then mismatchOn 1 subject.toNat v
      else postEvent 0xA5 cls.toNat (le 8 subject.toNat) { v with twin.late := bump 32 v.twin.late 1 }) := by
  have hafter : beforeStep u x = false := by rw [beforeStep, decide_eq_false hx, Bool.false_and]
  rw [exec, execMirrorCheckLate]
  simp only [hu, hen, hcompares, hlate, hafter, Bool.not_true, Bool.or_self, Bool.false_eq_true, ↓reduceIte]
  split <;> rfl

/-! ## The twin map (R434) -/

theorem exec_twinMap_of_range {d : Desc} {data : Bytes} (hd : descChk d [(32, 2)] = none) (hsize : sizeChk d (4 * par d 32 2) = none)
    (hrange : ∀ i < 2 * par d 32 2, fieldU (dataOf d data) (2 * i) 2 < 1024) : exec (.twinMap t d data) s =
      .next (accept d { u with twin.map := (List.range (par d 32 2)).map (fun i =>
        (fieldU (dataOf d data) (4 * i) 2, fieldU (dataOf d data) (4 * i + 2) 2)) }) := by
  have hpairs : firstFail ((List.range (2 * par d 32 2)).map (fun i =>
      need (decide (fieldU (dataOf d data) (2 * i) 2 < 1024)) stRange (2 * i))) = none := by
    refine firstFail_eq_none_iff.mpr fun c hc => ?_
    obtain ⟨i, hi, rfl⟩ := List.mem_map.mp hc
    exact need_of_met (decide_eq_true (hrange i (List.mem_range.mp hi))) _ _
  have hall : firstFail [descChk d [(32, 2)], sizeChk d (4 * par d 32 2), firstFail ((List.range (2 * par d 32 2)).map (fun i =>
      need (decide (fieldU (dataOf d data) (2 * i) 2 < 1024)) stRange (2 * i)))] = none := by
    rw [hd, hsize, hpairs]
    rfl
  rw [exec, execTwinMap, runTwinMap, hu]
  simp only [hall]

end

/-- Settles O33: a command each; the late entries are those of classes 0 and 1, which the start of step does not hold back. -/
theorem twinMembersKeepInTouch : Obligations.TwinMembersKeepInTouch := by
  intro t d data f a p x s u q
  refine ⟨exec_twinHeartbeatSend_of_pair rfl, fun hen hquad hup hkind hfits hseq hlit =>
    exec_twinHeartbeat_of_lit rfl hen hquad hup hkind hfits hseq hlit, fun hlast => exec_partnerLost_of_silence rfl ?_,
    exec_timeSkew_of_excess rfl, exec_inStep_of_equal rfl, exec_digestSend_of_unsent rfl, fun hen hcompares subject hlate hcls => ?_,
    fun hen hcompares subject hlate hcls => ?_, exec_twinMap_of_range rfl⟩
  · rcases hlast with ⟨hp, ha⟩ | ⟨hp, ha⟩
    · rw [hp, Option.map_some, Option.getD_some, ha]
    · rw [hp, Option.map_none, Option.getD_none, ha]
  · exact exec_mirrorCheckLate_of_late rfl (cls := 0) hen hcompares hlate (by omega)
  · exact exec_mirrorCheckLate_of_late rfl (cls := 1) hen hcompares hlate (by omega)

end Sys2Proof.Machine

/-!
Arbitration of a pair (R442, R445, R447, R449, R450): what the frames of an arbitration, its timers and a host-timed command do
when their conditions hold; from these O34.
-/
namespace Sys2Proof.Machine

/-- Giving up a staged record leaves the pair's state. -/
theorem forgetRecord_twin (subject : Nat) (s : State) : (forgetRecord subject s).twin = s.twin := by
  simp

theorem takeEntry_theirs (x : DigestEntry) (s : State) : (takeEntry x s).twin.theirs = s.twin.theirs ++ [x] := by
  rw [takeEntry]
  split
  · split
    · rfl
    · rw [forgetRecord_twin]
  · rfl

section
variable {t : Tick} {s u : State} (hu : s.advance t = u)
include hu

/-! ## The member's own outcome and the timers -/

theorem exec_recomputationDone_of_open {a : Arb} (harb : u.twin.arb = some a) (hown : a.own = none) : exec (.recomputationDone t) s =
    .next (decideArb (sendArb 4 a (ownOutcome u a) { u with twin.arb := some { a with own := some (ownOutcome u a) } })) := by
  rw [exec, execRecomputationDone]
  simp only [hu, harb, hown, Option.isSome_none, Bool.false_eq_true, ↓reduceIte]

theorem exec_arbitrationTimeout_of_late {a : Arb} (harb : u.twin.arb = some a) (hlong : 200 * tickHz ≤ (u.now - a.at_) * 1000) :
    exec (.arbitrationTimeout t) s = .next (endArb a 3 u) := by
  rw [exec, execArbitrationTimeout]
  simp only [hu, harb, atLeastMs, hlong, decide_true, ↓reduceIte]

theorem exec_hostTimedEffect_of_pinClear {x : Timed} {T : Nat} (htimed : u.twin.timed = [x]) (hT : x.t = some T)
    (hop : x.desc.opcode = 0x44) (hdue : T ≤ u.tw) : exec (.hostTimedEffect t x.desc.index) s =
      .next (clearPins (par x.desc 32 1) { u with twin.timed := [] }) := by
  have hnotyet : ¬ u.tw < T := by omega
  have hpin : x.desc.opcode.toNat = 0x44 := by rw [hop]; rfl
  rw [exec, execHostTimedEffect]
  simp only [hu, htimed, List.find?_cons, List.filter_cons, List.filter_nil, hT, hpin, hnotyet, ne_eq, not_true_eq_false,
    decide_true, decide_false, Bool.false_eq_true, Nat.reduceEqDiff, ↓reduceIte]

/-! ## Frames on the twin quad -/

section
variable {f : RawFrame} (hen : u.twinEn = true) (hquad : (quadsOf u 5).head? = some (twinQuad u))
  (hup : (quadOf u (twinQuad u)).up = true) (hfits : twinFits f = true) (hseq : fieldU f.data 0 2 = (quadOf u (twinQuad u)).expect)
  {w : State} (hw : frameTaken (twinQuad u) (returnCredit (twinQuad u) 0 f.n.toNat
    (linkReceive (twinQuad u) true (fieldU f.data 0 2) u).2) = w)
include hen hquad hup hfits hseq hw

theorem exec_arbitrationOpen_of_shadow (hkind : f.kind.toNat = 2) (hop : fieldU f.data 16 1 = 3) (hshadow : w.twin.role = .shadow) :
    exec (.arbitrationOpen t f) s = .next (
      let b : Arb := ⟨2, fieldU f.data 40 8, fieldU f.data 24 8, fieldU f.data 32 8, none, none, w.now⟩
      let v := openArbWindow 2 (fieldU f.data 40 8) (sendArb 3 b (fieldU f.data 40 8) w)
      nextArb { v with twin.arbQ := v.twin.arbQ ++ [b] }) := by
  have hlit : w.twin.role ≠ .lit := by rw [hshadow]; decide
  rw [exec, execArbitrationOpen]
  simp only [hu, hkind, hop, Nat.le_refl, and_self, decide_true]
  rw [twinTake_good f _ u hen hquad hup hfits hseq, hw, if_neg hlit]
  simp only [fieldU_drop, Nat.reduceEqDiff, Nat.reduceSub, Nat.reduceAdd, ↓reduceIte]

theorem exec_arbitrationResult_of_partner {a : Arb} (hkind : f.kind.toNat = 2) (hop : fieldU f.data 16 1 = 4) (harb : w.twin.arb = some a)
    (hfirst : a.first = fieldU f.data 24 8) (hlast : a.last = fieldU f.data 32 8) (hnone : a.partner = none) :
    exec (.arbitrationResult t f) s =
      .next (decideArb { w with twin.arb := some { a with partner := some (min 2 (fieldU f.data 40 8)) } }) := by
  rw [exec, execArbitrationResult]
  simp only [hu, hkind, hop, and_self, decide_true]
  rw [twinTake_good f _ u hen hquad hup hfits hseq, hw]
  simp only [harb, fieldU_drop, hfirst, hlast, hnone, and_self, Nat.reduceAdd, ↓reduceIte]

theorem exec_effectFrame_of_unseen (hkind : f.kind.toNat = 2) (hop : fieldU f.data 16 1 = 5) (hshadow : w.twin.role = .shadow)
    (htimed : w.twin.timed = []) : exec (.effectFrame t f) s =
      .next { w with twin.effects := w.twin.effects ++ [(fieldU f.data 40 8, fieldU f.data 24 8)] } := by
  have hlit : w.twin.role ≠ .lit := by rw [hshadow]; decide
  rw [exec, execEffectFrame]
  simp only [hu, hkind, hop, and_self, decide_true]
  rw [twinTake_good f _ u hen hquad hup hfits hseq, hw, if_neg hlit]
  simp only [htimed, List.find?_nil, fieldU_drop, Nat.reduceAdd]

theorem exec_digestFrame_of_one (hkind : f.kind.toNat = 1) (hone : fieldU f.data 16 2 = 1) :
    ∃ v, exec (.digestFrame t f) s = .next (compareAll v) ∧
      v.twin.theirs.getLast? =
        some ⟨fieldU f.data 24 1, fieldU f.data 28 4, fieldU f.data 32 8, fieldU f.data 40 8, w.now, false, 2 ^ 64⟩ := by
  rw [exec, execDigestFrame]
  simp only [hu, hkind, hone, decide_true]
  rw [twinTake_good f _ u hen hquad hup hfits hseq, hw]
  refine ⟨_, rfl, ?_⟩
  simp only [List.range_one, List.map_cons, List.map_nil, List.foldl_cons, List.foldl_nil, takeEntry_theirs, List.getLast?_concat,
    fieldU_drop, Nat.reduceMul, Nat.reduceAdd]

end

end

/-- Settles O34: a command each; a good twin frame hands its body on behind its acknowledgement and its credit (`twinTake_good`). -/
theorem arbitrationRuns : Obligations.ArbitrationRuns := by
  intro t f a x T s u q w
  refine ⟨exec_recomputationDone_of_open rfl, exec_arbitrationTimeout_of_late rfl, exec_hostTimedEffect_of_pinClear rfl,
    fun hen hquad hup hfits hseq => ⟨?_, ?_, ?_, ?_⟩⟩
  · exact exec_arbitrationOpen_of_shadow rfl hen hquad hup hfits hseq rfl
  · exact exec_arbitrationResult_of_partner rfl hen hquad hup hfits hseq rfl
  · exact exec_effectFrame_of_unseen rfl hen hquad hup hfits hseq rfl
  · exact exec_digestFrame_of_one rfl hen hquad hup hfits hseq rfl

end Sys2Proof.Machine

/-!
Resets and boot (R463 to R466, R469, R474, R501): what the resets leave and what each step of boot does; from these O31.
-/
namespace Sys2Proof.Machine

/-! ## What SYSRST_N keeps (R464) -/

/-- The clock, the offset of the time word, SCRATCH and DBG_LOCK stay; the conditioning starts anew. -/
theorem sysReset_keeps (s : State) : (sysReset s).now = s.now ∧ (sysReset s).tOffset = s.tOffset ∧
    (sysReset s).boot.scratch = s.boot.scratch ∧ (sysReset s).boot.dbgLock = s.boot.dbgLock ∧ (sysReset s).cond = CondState.reset := by
  have hnow : (porReset s).now = s.now := rfl
  have hcond : (porReset s).cond = CondState.reset := rfl
  unfold sysReset
  dsimp only
  repeat' split
  all_goals simp [hnow, hcond]

theorem sysReset_tw (s : State) : (sysReset s).tw = s.tw := by
  obtain ⟨hnow, hoffset, -⟩ := sysReset_keeps s
  rw [State.tw, State.tw, hnow, hoffset]

/-! ## The domains when the stewards start (R474) -/

/-- A sweep that rewrites each of the first `k` places from its own value. -/
theorem vget_foldl_vset {α : Type} {n : Nat} (v : Vector α n) (g : Nat → α → α) (r : α) {i k : Nat} (hi : i < n) (hk : i < k) :
    vget ((List.range k).foldl (fun v d => vset v d (g d (vget v d r))) v) i r = g i (vget v i r) := by
  have hsweep (k : Nat) : vget ((List.range k).foldl (fun v d => vset v d (g d (vget v d r))) v) i r =
      if i < k then g i (vget v i r) else vget v i r := by
    induction k with
    | zero => rfl
    | succ k ih =>
      rw [List.range_succ, List.foldl_append, List.foldl_cons, List.foldl_nil]
      rcases Nat.lt_trichotomy i k with hlt | rfl | hgt
      · rw [vget_vset_ne _ _ _ _ _ (by omega), ih, if_pos hlt, if_pos (by omega)]
      · rw [vget_vset_same _ _ _ _ hi, ih, if_neg (by omega), if_pos (by omega)]
      · rw [vget_vset_ne _ _ _ _ _ (by omega), ih, if_neg (by omega), if_neg (by omega)]
  rw [hsweep, if_pos hk]

section
variable {t : Tick} {s u : State} (hu : s.advance t = u)
include hu

theorem exec_sysrstRelease_of_porst_high (mode : BitVec 2) (hpor : u.pins.porstLow = false) :
    exec (.sysrstRelease t mode) s = .next { sysReset u with pins.sysrstLow := false, boot.mode := mode } := by
  rw [exec, execSysrstRelease, hu, hpor]
  rfl

theorem exec_bootSelfCheckDone_of_primary (hin : inReset u = false) (hcfg : u.boot.cfgOk = false) (hphase : u.boot.phase = 0)
    (hmode : u.boot.mode = 0) : exec (.bootSelfCheckDone t) s = .next (readFrom .primary { u with boot.cfgOk := true }) := by
  rw [exec, execBootSelfCheckDone]
  simp only [hu, hin, hcfg, hphase, hmode, ne_eq, not_true_eq_false, decide_false, Bool.or_self, Bool.false_eq_true, ↓reduceIte,
    BitVec.reduceEq]

theorem exec_firmwareImageRead_of_noAnswer (hin : inReset u = false) (hreading : u.boot.reading = some .primary) :
    exec (.firmwareImageRead t .noAnswer) s = .next (readFrom .secondary { u with boot.err := 1 }) := by
  rw [exec, execFirmwareImageRead]
  simp only [hu, hin, hreading, Bool.false_eq_true, reduceCtorEq, ↓reduceIte, nextSource]

theorem exec_firmwareReady_of_all_good (hin : inReset u = false) (hphase : u.boot.phase = 4) (htrain : u.hbm.trainDone = true) :
    exec (.firmwareReady t []) s = .next { u with
      mgmt.dom := (List.range 17).foldl (fun v d =>
        vset v d { vget v d (Domain.reset false) with vnow := if d = 16 then vcapEff u 16 else 8 }) u.mgmt.dom
      boot.failed := 0, boot.ready := true, boot.phase := 5 } := by
  rw [exec, execFirmwareReady]
  simp only [hu, hin, hphase, htrain, ne_eq, not_true_eq_false, decide_false, Bool.not_true, Bool.or_self, Bool.false_eq_true, ↓reduceIte,
    List.any_nil, List.filter_false, List.foldl_nil, List.length_nil]

end

/-- Settles O31: what PORST_N leaves is read off its definition; SYSRST_N keeps the clock and the offset, so the time word. -/
theorem resetsAndBoot : Obligations.ResetsAndBoot := by
  intro t mode s u
  refine ⟨rfl, rfl, rfl, rfl, rfl, rfl, rfl, rfl, rfl, rfl, rfl, rfl, rfl, rfl, rfl, rfl, fun hpor => ?_,
    exec_bootSelfCheckDone_of_primary rfl, exec_firmwareImageRead_of_noAnswer rfl, fun hin hphase htrain => ?_, fun b => ⟨rfl, rfl⟩⟩
  · obtain ⟨hnow, -, hscratch, hlock, hcond⟩ := sysReset_keeps u
    exact ⟨_, exec_sysrstRelease_of_porst_high rfl mode hpor, sysReset_tw u, hnow, rfl, rfl, hcond, hscratch, hlock⟩
  · refine ⟨_, exec_firmwareReady_of_all_good rfl hin hphase htrain, rfl, rfl, rfl, fun d hd => ?_⟩
    have hd17 : d < 17 := by omega
    have hsweep := vget_foldl_vset u.mgmt.dom (fun d x => { x with vnow := if d = 16 then vcapEff u 16 else 8 })
      (Domain.reset false) hd17 hd17
    exact (congrArg Domain.vnow hsweep).trans (if_neg (by omega))

end Sys2Proof.Machine

/-!
The rewrite of the status block (R374): an effect that is entered at the refresh can post an event, whose entry is published with a
status block of its own; from this O41.
-/
namespace Sys2Proof.Machine

/-- One second without a rewrite, with an effect that comes now into the open window of a recovery, and room for events. -/
def dueEffectInRecovery : State := { State.reset with
  now := tickHz
  host.running := true
  host.ringCfg := vset HostState.reset.ringCfg 2 0x41
  twin.recov := [⟨0, 0, 0, none, false⟩]
  twin.acts := [⟨tickHz, none⟩] }

/-- The untrusted event of the spoilt recovery is published at once. -/
theorem noteActs_dueEffectInRecovery_sbAt :
    (noteActs (dueEffectInRecovery.advance 0)).host.sbAt = (noteActs (dueEffectInRecovery.advance 0)).now := by
  rfl

theorem exec_statusBlockRefresh_of_rewritten {t : Tick} {s : State}
    (hsb : (noteActs (s.advance t)).host.sbAt = (noteActs (s.advance t)).now) :
    exec (.statusBlockRefresh t) s = .next (noteActs (s.advance t)) := by
  rw [exec, execStatusBlockRefresh, hsb, Nat.sub_self]
  rfl

theorem publish_ne (kind : JobKind) (ws : List HostWrite) (items : List Item) (s : State) : publish kind ws items s ≠ s := by
  intro h
  have hseq : s.host.sbSeq + 1 = s.host.sbSeq := congrArg (fun x : State => x.host.sbSeq) h
  bv_omega

/-- Refutes O41: the effect that the refresh enters first spoils a recovery; its untrusted event rewrites the status block, and there
is nothing left to refresh, where the statement has the block written once more. -/
theorem not_hostLinkAndItsUpkeep : ¬ Obligations.HostLinkAndItsUpkeep := by
  intro h
  have hclaim := (h 0 0 0 [] 0 .perst 0 ⟨16, pciReset⟩ dueEffectInRecovery).1 rfl (by decide)
  rw [exec_statusBlockRefresh_of_rewritten noteActs_dueEffectInRecovery_sbAt] at hclaim
  exact publish_ne _ _ _ _ (Host.Outcome.next.inj hclaim).symm

end Sys2Proof.Machine

/-!
Commands of the host interface (R376, R383, R391, R513): what each does with its reserved fields 0 and its parameters in range;
from these O38.
-/
namespace Sys2Proof.Machine

/-! ## Checks that are met -/

theorem counterReadOutChk_of_met {d : Desc} {s : State} {p : Plan} (data : Bytes) (hd : descChk d [(32, 2), (34, 2)] = none)
    (hblock : par d 32 2 = 0x030A) (hplan : (planVersions s (par d 34 2)).getLast? = some p)
    (hlen : 16 + 8 * (planCounters s (par d 34 2) p).length ≤ d.len.toNat) : counterReadOutChk d data s = none := by
  have hsome : (planVersions s (par d 34 2)).isEmpty = false := by
    rw [List.isEmpty_eq_false_iff]
    rintro hnil
    rw [hnil] at hplan
    cases hplan
  unfold counterReadOutChk
  simp only [hd, hblock, hplan, hsome, hlen, need, decide_true, Bool.not_false, ↓reduceIte]
  rfl

theorem presetReadOutChk_of_met {d : Desc} (data : Bytes) (s : State) (hd : descChk d [(32, 1)] = none) (htable : par d 32 1 ≤ 9)
    (hlen : 4 * romCount (par d 32 1) ≤ d.len.toNat) : presetReadOutChk d data s = none := by
  unfold presetReadOutChk
  simp only [hd, htable, hlen, need, decide_true, ↓reduceIte]
  rfl

/-! ## Waking an outlet and entering its binding touch different blocks -/

theorem startWake_cfgPut (q kind id : Nat) (b : Bytes) (s : State) :
    startWake q (cfgPut kind id b s) = cfgPut kind id b (startWake q s) := by
  have hq : quadOf (cfgPut kind id b s) q = quadOf s q := rfl
  cases hst : (quadOf s q).tx.st <;> simp only [startWake, hq, hst] <;> rfl

theorem wakeOutlet_cfgPut (x : Binding) (kind id : Nat) (b : Bytes) (s : State) :
    wakeOutlet x (cfgPut kind id b s) = cfgPut kind id b (wakeOutlet x s) := by
  unfold wakeOutlet
  split
  · exact startWake_cfgPut _ _ _ _ _
  · rfl

section
variable {t : Tick} {d : Desc} {s u : State} (data : Bytes) (hu : s.advance t = u)
include hu

theorem exec_nop_of_clear (hd : descChk d [] = none) : exec (.nop t d data) s = .next (complete d 0 0 u) := by
  rw [exec, execNop, runNop, hu]
  simp only [hd]
  rfl

theorem exec_counterReadOut_of_plan {p : Plan} (hd : descChk d [(32, 2), (34, 2)] = none) (hblock : par d 32 2 = 0x030A)
    (hplan : (planVersions u (par d 34 2)).getLast? = some p)
    (hlen : 16 + 8 * (planCounters u (par d 34 2) p).length ≤ d.len.toNat) : exec (.counterReadOut t d data) s =
      .next (complete d 0 0 (hostWrite [⟨d.addr.toNat, le 2 0x030A ++ le 2 (par d 34 2) ++
        le 4 (planCounters u (par d 34 2) p).length ++ le 8 u.tw ++ (planCounters u (par d 34 2) p).flatMap (le 8)⟩] u)) := by
  rw [exec, execCounterReadOut, runCounterReadOut, hu, counterReadOutChk_of_met data hd hblock hplan hlen]
  simp only [hblock, hplan]
  rfl

theorem exec_presetReadOut_of_table (hd : descChk d [(32, 1)] = none) (htable : par d 32 1 ≤ 9)
    (hlen : 4 * romCount (par d 32 1) ≤ d.len.toNat) : exec (.presetReadOut t d data) s =
      .next (complete d 0 0 (hostWrite [⟨d.addr.toNat,
        (List.range (romCount (par d 32 1))).flatMap (fun i => leS 4 (romValue (par d 32 1) i))⟩] u)) := by
  rw [exec, execPresetReadOut, runPresetReadOut, hu, presetReadOutChk_of_met data u hd htable hlen]
  rfl

theorem exec_clearUntrusted_of_causes (hd : descChk d [(32, 4)] = none) (hbits : par d 32 4 &&& 0xE = par d 32 4) :
    exec (.clearUntrusted t d data) s = .next (accept d (let w := noteActs u
      { w with host.untrusted := w.host.untrusted &&& ~~~ (BitVec.ofNat 4 (par d 32 4)) })) := by
  rw [exec, execClearUntrusted, runClearUntrusted, hu, firstFail_pair_of_met hd (decide_eq_true hbits)]

/-! ## Image unload (R383) -/

section
variable (hd : descChk d [(32, 1), (34, 2)] = none)
include hd

theorem exec_imageUnload_of_removed {v : State} (hkind : par d 32 1 ≤ 14) (hv : unloadImage (par d 32 1) (par d 34 2) u = .removed v) :
    exec (.imageUnload t d data) s = .next (accept d (unloadCfg (par d 32 1) (par d 34 2) v)) := by
  rw [exec, execImageUnload, runImageUnload, hu]
  simp only [firstFail_pair_of_met hd (decide_eq_true hkind), hv]

theorem exec_imageUnload_of_named (hkind : par d 32 1 ≤ 14) (hv : unloadImage (par d 32 1) (par d 34 2) u = .named) :
    exec (.imageUnload t d data) s = .next (refuse d (6, par d 34 2) u) := by
  rw [exec, execImageUnload, runImageUnload, hu]
  simp only [firstFail_pair_of_met hd (decide_eq_true hkind), hv]
  rfl

theorem exec_imageUnload_of_absent (hkind : par d 32 1 ≤ 14) (hv : unloadImage (par d 32 1) (par d 34 2) u = .absent) :
    exec (.imageUnload t d data) s = .next (refuse d (7, par d 34 2) u) := by
  rw [exec, execImageUnload, runImageUnload, hu]
  simp only [firstFail_pair_of_met hd (decide_eq_true hkind), hv]
  rfl

end

/-! ## Product bindings (R391) -/

theorem exec_productBinding_of_first (hd : bindChk d u = none) (hnew : bindingOf u (par d 33 1) (par d 34 2) = none)
    (hcls : par d 33 1 ≠ 0) (hon : par d 36 1 ≠ 0xFF ∨ par d 37 1 ≠ 0xFF) {b : Binding}
    (hb : ⟨par d 33 1, par d 34 2, par d 36 1, par d 37 1, par d 38 1, par d 39 1, 0, none⟩ = b) :
    exec (.productBinding t d data) s = .next (accept d (cfgPut 17 (par d 33 1 * 65536 + par d 34 2) (slice d.params 0 8)
      (wakeOutlet b { u with host.bindings := Tab.put u.host.bindings (par d 32 1) b }))) := by
  have hoff : ¬ (par d 36 1 = 0xFF ∧ par d 37 1 = 0xFF) := fun ⟨hring, hquad⟩ => hon.elim (· hring) (· hquad)
  rw [exec, execProductBinding, runProductBinding, hu]
  simp only [hd, hcls, hnew, hoff, hb, decide_false, Bool.false_eq_true, ↓reduceIte]

end

/-- The unloading of a prototype: its entry goes, unless something names it. -/
theorem unloadImage_prototype (id : Nat) (u : State) : unloadImage 0 id u =
    unloadEntry u.chan.protos id (protoNamed u id) (fun t => { u with chan.protos := t }) := rfl

/-- Settles O38: a command each. -/
theorem hostInterfaceCommandsAct : Obligations.HostInterfaceCommandsAct := by
  intro t d data p v s u id
  refine ⟨exec_nop_of_clear data rfl, exec_counterReadOut_of_plan data rfl, exec_presetReadOut_of_table data rfl,
    exec_clearUntrusted_of_causes data rfl, fun hd => ⟨fun hkind hhas hfree => ?_, fun hkind hhas hnamed => ?_, fun hkind hhas => ?_,
      exec_imageUnload_of_removed data rfl hd⟩, fun hd hnew hcls hon => ?_⟩
  · have hv : unloadImage (par d 32 1) id u = .removed { u with chan.protos := Tab.del u.chan.protos id } := by
      rw [hkind, unloadImage_prototype, unloadEntry, hhas, hfree]
      rfl
    rw [exec_imageUnload_of_removed data rfl hd (by omega) hv, hkind]
    rfl
  · have hv : unloadImage (par d 32 1) id u = .named := by
      rw [hkind, unloadImage_prototype, unloadEntry, hhas, hnamed]
      rfl
    exact exec_imageUnload_of_named data rfl hd (by omega) hv
  · have hv : unloadImage (par d 32 1) id u = .absent := by
      rw [hkind, unloadImage_prototype, unloadEntry, hhas]
      rfl
    exact exec_imageUnload_of_absent data rfl hd (by omega) hv
  · intro b
    rw [exec_productBinding_of_first data rfl hd hnew hcls hon rfl, ← wakeOutlet_cfgPut]
    rfl

end Sys2Proof.Machine

/-!
The command ring (R372 to R374, R380 to R382, R403): what a poll takes, when a fetched command starts or waits, and how an unreadable
one completes; from these O39.
-/
namespace Sys2Proof.Machine

/-! ## Events leave the rest of the host interface -/

/-- Nothing of the host interface differs but what posting events writes: the event ring and its queue, write jobs, the status block and the
untrusted causes. -/
def SameHostOutsideEvents (s t : State) : Prop :=
  { t.host with
    evtProd := s.host.evtProd, evSeq := s.host.evSeq, evQueue := s.host.evQueue, evLost := s.host.evLost, jobs := s.host.jobs
    nextJob := s.host.nextJob, sbSeq := s.host.sbSeq, sbAt := s.host.sbAt, sbLast := s.host.sbLast, unpub := s.host.unpub
    untrusted := s.host.untrusted } = s.host

theorem SameHostOutsideEvents.of_host {s t : State} (h : t.host = s.host) : SameHostOutsideEvents s t := by
  rw [SameHostOutsideEvents, h]

theorem SameHostOutsideEvents.refl (s : State) : SameHostOutsideEvents s s := rfl

theorem SameHostOutsideEvents.trans {s t u : State} (hst : SameHostOutsideEvents s t) (htu : SameHostOutsideEvents t u) :
    SameHostOutsideEvents s u := by
  have h := congrArg (fun x : HostState => { x with
    evtProd := s.host.evtProd, evSeq := s.host.evSeq, evQueue := s.host.evQueue, evLost := s.host.evLost, jobs := s.host.jobs
    nextJob := s.host.nextJob, sbSeq := s.host.sbSeq, sbAt := s.host.sbAt, sbLast := s.host.sbLast, unpub := s.host.unpub
    untrusted := s.host.untrusted }) htu
  exact Eq.trans h hst

theorem SameHostOutsideEvents.held {s t : State} (h : SameHostOutsideEvents s t) : t.host.held = s.host.held := by
  unfold SameHostOutsideEvents at h
  exact (congrArg HostState.held h :)

theorem SameHostOutsideEvents.owed {s t : State} (h : SameHostOutsideEvents s t) : t.host.owed = s.host.owed := by
  unfold SameHostOutsideEvents at h
  exact (congrArg HostState.owed h :)

theorem SameHostOutsideEvents.cmdCons {s t : State} (h : SameHostOutsideEvents s t) : t.host.cmdCons = s.host.cmdCons := by
  unfold SameHostOutsideEvents at h
  exact (congrArg HostState.cmdCons h :)

theorem SameHostOutsideEvents.staged {s t : State} (h : SameHostOutsideEvents s t) : t.host.staged = s.host.staged := by
  unfold SameHostOutsideEvents at h
  exact (congrArg HostState.staged h :)

theorem SameHostOutsideEvents.ringCfg {s t : State} (h : SameHostOutsideEvents s t) : t.host.ringCfg = s.host.ringCfg := by
  unfold SameHostOutsideEvents at h
  exact (congrArg HostState.ringCfg h :)

theorem pushEvent_sameHostOutsideEvents (e : Ev) (s : State) : SameHostOutsideEvents s (pushEvent e s) := by
  unfold pushEvent
  dsimp only
  split
  · rfl
  · split <;> rfl

theorem setUntrusted_sameHostOutsideEvents (bit : Nat) (s : State) : SameHostOutsideEvents s (setUntrusted bit s) := by
  unfold setUntrusted
  split
  · exact .refl s
  · exact .trans (t := { s with host.untrusted := s.host.untrusted ||| BitVec.ofNat 4 (2 ^ bit) }) rfl
      (pushEvent_sameHostOutsideEvents _ _)

theorem spoil_sameHostOutsideEvents (p : Recovery → Bool) (s : State) : SameHostOutsideEvents s (spoil p s) := by
  unfold spoil
  split
  · exact .trans (t := { s with twin.recov := s.twin.recov.map (fun r => if p r then { r with outside := true } else r) }) rfl
      (setUntrusted_sameHostOutsideEvents 2 _)
  · exact .refl s

theorem noteActs_sameHostOutsideEvents (s : State) : SameHostOutsideEvents s (noteActs s) := spoil_sameHostOutsideEvents _ s

/-! ## Polls (R373, R374) -/

/-- Noting what the source rings show enters instants of first sight and nothing else. -/
theorem noteSources_eq (s : State) : ∃ seen, noteSources s = { s with host.srcSeen := seen } := by
  unfold noteSources
  generalize List.range 32 = rings
  induction rings generalizing s with
  | nil => exact ⟨_, rfl⟩
  | cons r rings ih =>
    rw [List.foldl_cons]
    dsimp only
    split
    · obtain ⟨seen, hseen⟩ := ih { s with host.srcSeen := Tab.put s.host.srcSeen r s.now }
      exact ⟨seen, hseen⟩
    · exact ih s

theorem flushOwed_of_none {s : State} (h : s.host.owed = []) : flushOwed s = s := by
  rw [flushOwed, h]
  rfl

theorem startHeld_of_none {s : State} (h : s.host.held = []) : startHeld s = s := by
  rw [startHeld, h]
  rfl

theorem statusWrite_sameOutsideHost (s : State) : SameOutsideHost s (statusWrite s) := by
  unfold statusWrite
  split <;> rfl

theorem statusWrite_db (s : State) : (statusWrite s).host.db = s.host.db := by
  unfold statusWrite
  split <;> rfl

theorem statusWrite_cmdCons (s : State) : (statusWrite s).host.cmdCons = s.host.cmdCons := by
  unfold statusWrite
  split <;> rfl

/-- With nothing held or owed, a poll goes on to note the source rings and to rewrite the status block where it has changed. -/
theorem pollEnd_of_idle {y w : State} {db : Doorbell} {cons : BitVec 32} (howed : y.host.owed = []) (hheld : y.host.held = [])
    (hdb : y.host.db = db) (hcons : y.host.cmdCons = cons) (hsame : SameOutsideHost w y) :
    let z := startHeld (flushOwed (noteSources y))
    let v := if statusBody z = z.host.sbLast then z else statusWrite z
    v.host.db = db ∧ v.host.cmdCons = cons ∧ SameOutsideHost w v := by
  intro z v
  obtain ⟨seen, hseen⟩ := noteSources_eq y
  have hnone : (noteSources y).host.owed = [] ∧ (noteSources y).host.held = [] := by rw [hseen]; exact ⟨howed, hheld⟩
  have hz : z = { y with host.srcSeen := seen } := by
    dsimp only [z]
    rw [flushOwed_of_none hnone.1, startHeld_of_none hnone.2, hseen]
  have hzdb : z.host.db = db := by rw [hz]; exact hdb
  have hzcons : z.host.cmdCons = cons := by rw [hz]; exact hcons
  have hzsame : SameOutsideHost w z := by rw [hz]; exact hsame
  dsimp only [v]
  split
  · exact ⟨hzdb, hzcons, hzsame⟩
  · exact ⟨(statusWrite_db z).trans hzdb, (statusWrite_cmdCons z).trans hzcons, hzsame.trans (statusWrite_sameOutsideHost z)⟩

section
variable {t : Tick} {s u : State} (hu : s.advance t = u)
include hu

theorem exec_doorbellPoll_of_due {block : Bytes} (hrun : u.host.running = true) (hlen : 832 ≤ block.length) (hdue : pollDue u = true)
    (hheld : u.host.held = []) (howed : u.host.owed = []) : ∃ v, exec (.doorbellPoll t block) s = .next v ∧
      v.host.db = parseDoorbell block ∧ v.host.cmdCons = u.host.cmdCons ∧ SameOutsideHost (noteActs u) v := by
  have hlong : ¬ block.length < 832 := by omega
  have hsame := noteActs_sameHostOutsideEvents u
  rw [exec, execDoorbellPoll]
  simp only [hu, hrun, hlong, hdue, Bool.not_true, decide_false, Bool.or_self, Bool.false_eq_true, ↓reduceIte]
  exact ⟨_, rfl, pollEnd_of_idle (hsame.owed.trans howed) (hsame.held.trans hheld) rfl hsame.cmdCons rfl⟩

/-! ## Fetched commands -/

section
variable (hrun : u.host.running = true) (hring : ringEn u 0 = true) (hmore : u.host.cmdCons ≠ u.host.db.cmdProd)
include hrun hring hmore

omit hu in
theorem mayFetch_of_more : mayFetch u = true := by
  rw [mayFetch, hrun, hring, decide_eq_true hmore]
  rfl

theorem exec_descriptorFetched_of_more (block data : Bytes) : exec (.descriptorFetched t block data) s =
    .next (takeCommand ⟨parseDesc block u.host.cmdCons, data, none⟩ u) := by
  rw [exec, execDescriptorFetched]
  simp only [hu, mayFetch_of_more hrun hring hmore, ↓reduceIte]

theorem exec_commandReadFailed_of_more (block : Option Bytes) (cause : DmaCause) {d : Desc}
    (hd : (block.map (fun b => parseDesc b u.host.cmdCons)).getD (unreadable u.host.cmdCons) = d) :
    exec (.commandReadFailed t block cause) s = .next (takeCommand ⟨d, [], some (dmaCode cause)⟩ u) := by
  rw [exec]
  unfold execCommandReadFailed
  simp only [hu, mayFetch_of_more hrun hring hmore, ↓reduceIte, ← hd]
  cases block <;> rfl

end

theorem exec_deferredCompletion_of_ended {x : Deferred} {status info : Nat} (hx : u.host.deferred = [x])
    (hend : x.ended = some (status, info)) : exec (.deferredCompletion t x.desc.index) s =
      .next (complete x.desc status info { u with host.deferred := [] }) := by
  rw [exec, execDeferredCompletion]
  simp only [hu, hx, hend, List.find?_cons, Option.isSome_some, decide_true, Bool.and_self, List.erase_cons_head]

end

/-! ## A fetched command starts when it may -/

theorem startHeld_of_one {s : State} {h : Held} (hheld : s.host.held = [h]) (hmay : mayStart s h.desc = true) :
    startHeld s = startCommand h { s with host.held := [] } := by
  rw [startHeld, hheld]
  simp only [List.length_singleton, startHeldN, hheld, hmay, ↓reduceIte]

section
variable {u : State} (hheld : u.host.held = []) (h : Held)
include hheld

theorem takeCommand_of_full (hroom : cplRoom u = false) :
    takeCommand h u = { u with host.cmdCons := u.host.cmdCons + 1, host.held := [h] } := by
  have hfull : cplRoom { u with host.cmdCons := u.host.cmdCons + 1, host.held := u.host.held ++ [h] } = false := hroom
  rw [takeCommand, startHeld_of_full hfull, hheld]
  rfl

theorem takeCommand_of_room (hroom : cplRoom u = true) (howed : u.host.owed = []) :
    takeCommand h u = startCommand h { u with host.cmdCons := u.host.cmdCons + 1 } := by
  have hone : u.host.held ++ [h] = [h] := by rw [hheld, List.nil_append]
  have hmay : mayStart { u with host.cmdCons := u.host.cmdCons + 1, host.held := [h] } h.desc = true := by
    have hfree : cplRoom { u with host.cmdCons := u.host.cmdCons + 1, host.held := [h] } = true := hroom
    rw [mayStart, hfree, howed]
    exact Bool.or_true _
  have hback : ({ u with host.cmdCons := u.host.cmdCons + 1, host.held := [] } : State) =
      { u with host.cmdCons := u.host.cmdCons + 1 } := by
    rw [← hheld]
  rw [takeCommand, hone, startHeld_of_one rfl hmay]
  exact congrArg (startCommand h) hback

end

/-- Settles O39: a poll, a fetched command with and without room, an unreadable one, and a deferred one. -/
theorem commandsAreFetchedAndStarted : Obligations.CommandsAreFetchedAndStarted := by
  intro t block data cause x status info s u
  refine ⟨fun hrun hlen hdue hheld howed => ?_, fun hrun hring hmore hheld => ⟨fun hroom howed => ?_, fun hroom => ?_,
    fun hroom howed => ?_, fun hroom howed => ?_⟩, exec_deferredCompletion_of_ended rfl⟩
  · obtain ⟨v, hv, hdb, hcons, hsame⟩ := exec_doorbellPoll_of_due rfl hrun hlen hdue hheld howed
    exact ⟨v, hv, hdb, by rw [hdb]; rfl, by rw [hdb]; rfl, by rw [hdb]; rfl, hcons, hsame⟩
  · rw [exec_descriptorFetched_of_more rfl hrun hring hmore, takeCommand_of_room hheld _ hroom howed]
    rfl
  · rw [exec_descriptorFetched_of_more rfl hrun hring hmore, takeCommand_of_full hheld _ hroom]
  · rw [exec_commandReadFailed_of_more rfl hrun hring hmore (some block) cause rfl, takeCommand_of_room hheld _ hroom howed]
    rfl
  · rw [exec_commandReadFailed_of_more rfl hrun hring hmore none cause rfl, takeCommand_of_room hheld _ hroom howed]
    rfl


end Sys2Proof.Machine

/-!
Records and write jobs (R388 to R402, R418, R447): what an outlet takes into its ring, when its trailer goes out, and what a read-back
confirms or sends again; from these O40.
-/
namespace Sys2Proof.Machine

/-! ## Reading a record leaves the rings and what is staged -/

theorem postEvent_sameHostOutsideEvents (code subject : Nat) (args : Bytes) (s : State) :
    SameHostOutsideEvents s (postEvent code subject args s) := pushEvent_sameHostOutsideEvents _ s

theorem disturb_sameHostOutsideEvents (s : State) : SameHostOutsideEvents s (disturb s) := by
  rw [disturb]
  exact spoil_sameHostOutsideEvents _ s

theorem eccWord_sameHostOutsideEvents (port a : Nat) (corrected : Bool) (s : State) :
    SameHostOutsideEvents s (eccWord port a corrected s) := by
  unfold eccWord
  dsimp only
  split
  · exact .refl s
  · split
    · exact (disturb_sameHostOutsideEvents s).trans (.of_host rfl)
    · refine SameHostOutsideEvents.trans ?_ (setUntrusted_sameHostOutsideEvents 1 _)
      refine SameHostOutsideEvents.trans (.of_host ?_) (postEvent_sameHostOutsideEvents 0xB1 port _ _)
      rfl

theorem eccRead_sameHostOutsideEvents (port region : Nat) (l : List Ecc) (s : State) :
    SameHostOutsideEvents s (eccRead port region l s) := by
  unfold eccRead
  have hfold (l : List Ecc) (v : State) :
      SameHostOutsideEvents v (l.foldl (fun v e => eccWord port (placeOf v region e.word) e.corrected v) v) := by
    induction l generalizing v with
    | nil => exact .refl v
    | cons e l ih => exact (eccWord_sameHostOutsideEvents _ _ _ v).trans (ih _)
  exact .trans (.of_host rfl) (hfold l _)

theorem ringSize_of_events {s t : State} (h : SameHostOutsideEvents s t) (r : Nat) : ringSize t r = ringSize s r := by
  rw [ringSize, ringSize, ringCfgOf, ringCfgOf, h.ringCfg]

/-! ## What an outlet takes next -/

theorem nextTaking_of_head {x : OutletState} {id : Nat} (hpinned : x.pinned = none) (hloss : x.loss = none) (hqueue : x.queue = [id]) :
    nextTaking x = some (.record id) := by
  unfold nextTaking
  rw [hpinned, hloss, hqueue]
  rfl

theorem takenBytes_of_staged {s : State} {id : Nat} {x : Staged} (hx : Tab.get s.host.staged id = some x) :
    takenBytes s (.record id) = (x.bytes, x.binding) := by
  rw [takenBytes, hx]

theorem tooLarge_of_staged {s : State} {id : Nat} {x : Staged} (hx : Tab.get s.host.staged id = some x) (ring : Nat) :
    tooLarge s ring (.record id) = decide (ringSize s ring / 2 < x.length) := by
  rw [tooLarge, hx]
  rfl

section
variable {v : State} {id : Nat} {x : Staged} (hx : Tab.get v.host.staged id = some x) {r : Nat} {o : Outlet}
include hx

theorem takeIntoRing_of_room (hfits : x.length ≤ ringSize v (r + 3) - prodOf v r % ringSize v (r + 3))
    (hfree : ringFree v r (stride x.length) = true) : takeIntoRing o r (.record id) v =
      startJob (.body o) [⟨ringAddr v (r + 3) (prodOf v r), x.bytes⟩] []
        (setOutlet o { takeOff (.record id) (outletOf v o) with
          active := some (begin_ (.record id) .body x.bytes (prodOf v r) 0 (outletOf v o)) } (dmaServe (r + 3) x.bytes.length v)) := by
  rw [Staged.length] at hfits hfree
  rw [takeIntoRing, takenBytes_of_staged hx]
  dsimp only
  rw [if_neg (by omega), if_neg (by rw [hfree]; decide)]

theorem takeIntoRing_of_end (hlong : ringSize v (r + 3) - prodOf v r % ringSize v (r + 3) < x.length)
    (hfree : ringFree v r (ringSize v (r + 3) - prodOf v r % ringSize v (r + 3) + stride x.length) = true) {b : Bytes}
    (hb : padBytes v x.binding (ringSize v (r + 3) - prodOf v r % ringSize v (r + 3)) = b) : takeIntoRing o r (.record id) v =
      startJob (.body o) [⟨ringAddr v (r + 3) (prodOf v r), b⟩] []
        (setOutlet o { outletOf v o with active := some ⟨.pad, .body, b, prodOf v r, 0, false, 0⟩, pinned := some id }
          (dmaSpend (r + 3) b.length v)) := by
  rw [Staged.length] at hlong hfree
  rw [takeIntoRing, takenBytes_of_staged hx]
  dsimp only
  rw [if_pos hlong, if_neg (by rw [hfree]; decide), hb]

end

section
variable {t : Tick} {s u : State} (hu : s.advance t = u) {r : Fin 64}
include hu

theorem exec_outletTakeRecord_of_trip (htrip : u.mgmt.trip = true) (o : Outlet) (ecc : List Ecc) :
    exec (.outletTakeRecord t o ecc) s = .next u := by
  rw [exec]
  unfold execOutletTakeRecord
  simp only [hu, htrip, Bool.not_true, Bool.and_false, Bool.false_and, Bool.not_false, ↓reduceIte]

theorem exec_trailerWrite_of_trip (htrip : u.mgmt.trip = true) : exec (.trailerWrite t (.ring r)) s = .next u := by
  rw [exec]
  unfold execTrailerWrite
  cases ha : (outletOf u (.ring r)).active <;> simp only [hu, ha, htrip, Bool.or_true, Bool.true_or, ↓reduceIte]

section
variable (hemits : u.emits = true) (hrun : u.host.running = true) (htrip : u.mgmt.trip = false)
include hemits hrun htrip

/-- An open ring reads the record at its head and acts on it: a record too large or poisoned is dropped. -/
theorem exec_outletTakeRecord_of_head (hopen : dmaOpen u (r.val + 3) = true) {y : OutletState} (hy : outletOf u (.ring r) = y)
    (hactive : y.active = none) (hloss : y.loss = none) (hpinned : y.pinned = none) {id : Nat} (hqueue : y.queue = [id]) {x : Staged}
    (hx : Tab.get u.host.staged id = some x) {ecc seen : List Ecc} (hseen : regionSeen u 2 0 (x.size / 32) ecc = seen) {v : State}
    (hv : eccRead 4 2 seen u = v) : exec (.outletTakeRecord t (.ring r) ecc) s =
      .next (if ringSize u (r.val + 3) / 2 < x.length then dropTaken (.ring r) id 1 v
        else if poisonedIn seen then dropTaken (.ring r) id 2 v else takeIntoRing (.ring r) r.val (.record id) v) := by
  have hsame : SameHostOutsideEvents u v := hv ▸ eccRead_sameHostOutsideEvents 4 2 seen u
  have hlarge : tooLarge v (r.val + 3) (.record id) = decide (ringSize u (r.val + 3) / 2 < x.length) := by
    rw [tooLarge_of_staged (hsame.staged ▸ hx), ringSize_of_events hsame]
  rw [exec]
  unfold execOutletTakeRecord
  simp only [hu, hemits, hrun, htrip, hopen, hy, hactive, nextTaking_of_head hpinned hloss hqueue, hx, hlarge, hseen, hv, Option.map_some,
    Option.getD_some, Bool.not_false, Bool.not_true, Bool.and_self, Bool.false_eq_true, ↓reduceIte]
  by_cases hbig : ringSize u (r.val + 3) / 2 < x.length
  · rw [decide_eq_true hbig, if_pos hbig]
  · rw [decide_eq_false hbig, if_neg hbig]
    cases poisonedIn seen <;> rfl

theorem exec_trailerWrite_of_confirmed (hready : dmaReady u (ringChannel u (r.val + 3)) = true) {a : Active}
    (ha : (outletOf u (.ring r)).active = some a) (hphase : a.phase = .bodyConfirmed) {agree : Nat} {bad : Bool}
    (hcodes : trailerCodes u a.what = some (agree, bad)) : exec (.trailerWrite t (.ring r)) s =
      .next (writeTrailer (.ring r) r.val a agree bad u) := by
  rw [exec]
  unfold execTrailerWrite
  simp only [hu, ha, hphase, hrun, hemits, htrip, hready, hcodes, ne_eq, not_true_eq_false, decide_false, Bool.not_true, Bool.or_self,
    Bool.false_eq_true, ↓reduceIte]

end

/-! ## Read-backs -/

section
variable {job : Nat} {j : WriteJob} (hjob : Tab.get u.host.jobs job = some j) (hrun : u.host.running = true)
include hjob hrun

theorem exec_writeJobReadback_of_good : exec (.writeJobReadback t job none) s =
    .next (confirmJob j { u with host.jobs := Tab.del u.host.jobs job }) := by
  rw [exec]
  unfold execWriteJobReadback
  simp only [hu, hjob, hrun, ↓reduceIte]

theorem exec_writeJobReadback_of_failed_completions {c : BitVec 32} (hkind : j.kind = .completions c) (cause : DmaCause) {w : State}
    (hw : hostWrite j.writes { u with
      host.jobs := Tab.put (Tab.del u.host.jobs job) job { j with fails := j.fails + 1 }, host.aer := u.host.aer ||| aerBit cause } = w) :
    exec (.writeJobReadback t job (some cause)) s = .next (if (j.fails + 1) % 4 = 0 then dmaError 1 cause (2 ^ 64 - 1) w else w) := by
  rw [exec]
  unfold execWriteJobReadback
  simp only [hu, hjob, hrun, hkind, Bool.not_true, Bool.false_eq_true, ↓reduceIte, ← hw]
  rfl

end

end

/-! ## What a confirmation does to its record -/

theorem confirmJob_of_body {j : WriteJob} {o : Outlet} (hitems : j.items = []) (hkind : j.kind = .body o) (s : State) :
    confirmJob j s = confirmRing o false s := by
  rw [confirmJob, hitems, hkind]
  rfl

theorem confirmJob_of_trailer {j : WriteJob} {o : Outlet} (hitems : j.items = []) (hkind : j.kind = .trailer o) (s : State) :
    confirmJob j s = confirmRing o true s := by
  rw [confirmJob, hitems, hkind]
  rfl

theorem outletOf_of_outlets {s t : State} (h : t.host.outlets = s.host.outlets) (o : Outlet) : outletOf t o = outletOf s o := by
  rw [outletOf, outletOf, h]

/-- A record that has left changes its staging and the pair's digests, but no outlet and no ring index. -/
theorem doneRecord_keeps (o : Outlet) (w : Taking) (agree : Nat) (s : State) :
    (doneRecord o w agree s).host.outlets = s.host.outlets ∧ (doneRecord o w agree s).host.prodProd = s.host.prodProd := by
  have hrelease (id : Nat) (v : State) :
      (releaseStaged id o v).host.outlets = v.host.outlets ∧ (releaseStaged id o v).host.prodProd = v.host.prodProd := by
    unfold releaseStaged
    dsimp only
    repeat' split
    all_goals exact ⟨rfl, rfl⟩
  unfold doneRecord
  repeat' split
  all_goals simp [hrelease]

section
variable {s : State} {r : Fin 64} {a : Active} (ha : (outletOf s (.ring r)).active = some a) {id : Nat} (hwhat : a.what = .record id)
include ha hwhat

theorem confirmRing_of_body : confirmRing (.ring r) false s =
    setOutlet (.ring r) { outletOf s (.ring r) with active := some { a with phase := .bodyConfirmed } } s := by
  unfold confirmRing
  simp only [ha, hwhat]

/-- The trailer is confirmed: prod_prod moves past the record, and the outlet is free. -/
theorem confirmRing_of_trailer {v : State} (hv : confirmRing (.ring r) true s = v) :
    vget v.host.prodProd r.val 0 = BitVec.ofNat 64 (prodOf s r.val + stride (a.bytes.length + 32)) ∧
      (outletOf v (.ring r)).active = none := by
  unfold confirmRing at hv
  simp only [ha, hwhat] at hv
  rw [← hv, outletOf_of_outlets (doneRecord_keeps _ _ _ _).1, (doneRecord_keeps _ _ _ _).2]
  constructor
  · exact vget_vset_same _ _ _ _ r.isLt
  · exact (congrArg OutletState.active (outletOf_setOutlet (.ring r) _ s)).trans rfl

end

/-- Settles O40: taking a record, writing its trailer, and each read-back. -/
theorem recordsLeaveWholeOrAreResent : Obligations.RecordsLeaveWholeOrAreResent := by
  intro t r id job x a j agree bad cause c ecc s u o y seen v z n room
  refine ⟨fun htrip => ⟨exec_outletTakeRecord_of_trip rfl htrip o ecc, exec_trailerWrite_of_trip rfl htrip⟩,
    fun hemits hrun htrip hring => ⟨fun hopen hactive hloss hpinned hqueue hx => ?_, fun hready ha hphase hcodes => ?_,
      fun hjob hitems ha hwhat => ⟨fun hkind => ?_, fun hkind => ?_⟩, fun hjob hkind => ⟨fun hfew => ?_, fun hfourth => ?_⟩⟩⟩
  · have htake := exec_outletTakeRecord_of_head (t := t) (s := s) (r := r) rfl hemits hrun htrip hopen rfl hactive hloss hpinned hqueue hx
      (ecc := ecc) (seen := seen) rfl (v := v) rfl
    refine ⟨fun hbig => htake.trans (by rw [if_pos hbig]),
      fun hfits hbad => htake.trans (by rw [if_neg (Nat.not_lt.mpr hfits), if_pos hbad]),
      fun hfits hgood hv => ?_⟩
    have hinto := htake.trans (by rw [if_neg (Nat.not_lt.mpr hfits), if_neg (by rw [hgood]; decide)])
    exact ⟨fun hroom hfree => hinto.trans (congrArg Host.Outcome.next (takeIntoRing_of_room hv hroom hfree)),
      fun hroom hfree => hinto.trans (congrArg Host.Outcome.next (takeIntoRing_of_end hv hroom hfree rfl))⟩
  · exact exec_trailerWrite_of_confirmed rfl hemits hrun htrip hready ha hphase hcodes
  · rw [exec_writeJobReadback_of_good rfl hjob hrun, confirmJob_of_body hitems hkind]
    exact congrArg Host.Outcome.next (confirmRing_of_body (s := { u with host.jobs := Tab.del u.host.jobs job }) ha hwhat)
  · refine ⟨_, exec_writeJobReadback_of_good rfl hjob hrun, ?_⟩
    rw [confirmJob_of_trailer hitems hkind]
    exact confirmRing_of_trailer (s := { u with host.jobs := Tab.del u.host.jobs job }) ha hwhat rfl
  · rw [exec_writeJobReadback_of_failed_completions rfl hjob hrun hkind cause rfl, if_neg (by omega)]
  · rw [exec_writeJobReadback_of_failed_completions rfl hjob hrun hkind cause rfl, if_pos (by omega)]

end Sys2Proof.Machine
